-- ==== Sys2Proof/Word.lean ====
section
/-! DEFINITION. The word types of the device: bytes, words and the index types of its units. -/

namespace Sys2Proof

/-- A byte of memory, of a ring entry or of a message. -/
abbrev Byte := BitVec 8
/-- A 32-bit register. -/
abbrev Word32 := BitVec 32
/-- A 64-bit Sumen integer register. -/
abbrev Word64 := BitVec 64
/-- Tiles 0 to 7 (R1). -/
abbrev TileId := Fin 8
/-- Global pipeline-engine number, tile × 16 + local (R16, R393). -/
abbrev Gpe := Fin 128
/-- Stirrup edges: 0 N, 1 E, 2 S, 3 W (R492). -/
abbrev EdgeId := Fin 4
/-- Modules 0 to 5 of an edge (R470). -/
abbrev ModuleId := Fin 6
/-- Switched power domains 0 to 55 (R364). -/
abbrev DomId := Fin 56
/-- Queues 0 to 4,095 (R509). -/
abbrev QueueId := Fin 4096
/-- A Sumen register number. -/
abbrev RegNo := Fin 32

end Sys2Proof
end

