-- ==== Sys2Proof/Machine/Bytes.lean ====
section
/-! DEFINITION. Byte strings and bit fields: little-endian fields, two's complement, alignment,
CRC-32C (R51, R153, R159, R300, R332) and CRC-64 (R473). -/

namespace Sys2Proof.Machine

/-- Byte `i` of a string; 0 beyond its end. -/
def byteAt (bs : List Byte) (i : Nat) : Nat := (bs.getD i 0).toNat

/-- The little-endian number a byte string spells. -/
def leNat : List Byte → Nat
  | [] => 0
  | b :: bs => b.toNat + 256 * leNat bs

/-- `n` bytes of `v`, least significant first. -/
def leBytes : Nat → Nat → List Byte
  | 0, _ => []
  | n + 1, v => BitVec.ofNat 8 v :: leBytes n (v / 256)

/-- `n` bytes of `v`, most significant first. -/
def beBytes (n v : Nat) : List Byte := (leBytes n v).reverse

/-- The big-endian number a byte string spells. -/
def beNat (bs : List Byte) : Nat := bs.foldl (fun a b => a * 256 + b.toNat) 0

/-- Bytes `[off, off + n)` of a string, with zeros beyond its end. -/
def cut (bs : List Byte) (off n : Nat) : List Byte :=
  let part := (bs.drop off).take n
  part ++ List.replicate (n - part.length) 0

/-- The little-endian field of `n` bytes at `off`. -/
def field (bs : List Byte) (off n : Nat) : Nat := leNat ((bs.drop off).take n)

/-- Bits `hi` to `lo` of a number. -/
def bits (v hi lo : Nat) : Nat := v / 2 ^ lo % 2 ^ (hi + 1 - lo)

/-- Bit `i` of a number. -/
def bit (v i : Nat) : Bool := v.testBit i

def boolNat (b : Bool) : Nat := if b then 1 else 0

/-- `v` with bit `i` set. -/
def setBit (v i : Nat) : Nat := v ||| 2 ^ i

/-- `v` with bit `i` cleared. -/
def clearBit (v i : Nat) : Nat := if v.testBit i then v - 2 ^ i else v

/-- `v` without the bits of `m`. -/
def maskOut (v m : Nat) : Nat := v - (v &&& m)

def popCount : Nat → Nat → Nat
  | 0, _ => 0
  | n + 1, v => v % 2 + popCount n (v / 2)

/-- The lowest set bit among the first `n`, counted from `i`. -/
def lowBitFrom : Nat → Nat → Nat → Option Nat
  | 0, _, _ => none
  | n + 1, v, i => if v % 2 = 1 then some i else lowBitFrom n (v / 2) (i + 1)

/-- Two's complement of width `w`. -/
def toSigned (w v : Nat) : Int :=
  let v := v % 2 ^ w
  if v < 2 ^ (w - 1) then (v : Int) else (v : Int) - (2 ^ w : Nat)

/-- The `w`-bit two's-complement pattern of an integer. -/
def ofSigned (w : Nat) (i : Int) : Nat := (i % ((2 ^ w : Nat) : Int)).toNat

/-- An integer fits a signed width (R230). -/
def fitsSigned (w : Nat) (i : Int) : Bool :=
  decide (-((2 ^ (w - 1) : Nat) : Int) ≤ i ∧ i < ((2 ^ (w - 1) : Nat) : Int))

def alignUp (v a : Nat) : Nat := (v + a - 1) / a * a

def alignDown (v a : Nat) : Nat := v / a * a

def ceilDiv (a b : Nat) : Nat := (a + b - 1) / b

/-- Base-2 logarithm of the next power of two at or above `v`. -/
def log2Up (v : Nat) : Nat := if v ≤ 1 then 0 else Nat.log2 (v - 1) + 1

/-- All bytes of a string are zero. -/
def allZero (bs : List Byte) : Bool := bs.all (· == 0)

/-- Bits of a list of Booleans, the first least significant. -/
def packBits : List Bool → Nat
  | [] => 0
  | b :: bs => boolNat b + 2 * packBits bs

/-- Cut a string into pieces of `n` bytes; the last may be shorter. `fuel` bounds the number of pieces. -/
def chunksF : Nat → Nat → List Byte → List (List Byte)
  | 0, _, _ => []
  | fuel + 1, n, bs => if bs.isEmpty then [] else bs.take n :: chunksF fuel n (bs.drop n)

def chunks (n : Nat) (bs : List Byte) : List (List Byte) := chunksF (ceilDiv bs.length n) n bs

/-! ### Vectors -/

/-- The vector whose entry `i` is `f i`, built so that the kernel evaluates it. -/
def vecOf {α : Type} {n : Nat} (f : Fin n → α) : Vector α n := ⟨⟨List.ofFn f⟩, by simp⟩

def vecMap {α β : Type} {n : Nat} (f : α → β) (v : Vector α n) : Vector β n := ⟨⟨v.toArray.toList.map f⟩, by simp⟩

/-! ### CRC -/

/-- Eight steps of a reflected CRC. -/
def crcSteps (w : Nat) (poly : BitVec w) : Nat → BitVec w → BitVec w
  | 0, c => c
  | n + 1, c => crcSteps w poly n (if c.getLsbD 0 then (c >>> 1) ^^^ poly else c >>> 1)

def crcReflected (w : Nat) (poly : BitVec w) (bs : List Byte) (init : BitVec w) : BitVec w :=
  bs.foldl (fun c b => crcSteps w poly 8 (c ^^^ BitVec.ofNat w b.toNat)) init

/-- CRC-32C: the Castagnoli polynomial, reflected, initial value and final inversion all ones. -/
def crc32c (bs : List Byte) : Nat :=
  (crcReflected 32 0x82F63B78 bs 0xFFFFFFFF ^^^ 0xFFFFFFFF).toNat

/-- One byte of a CRC-64 that shifts left (R473). -/
def crc64Steps : Nat → BitVec 64 → BitVec 64
  | 0, c => c
  | n + 1, c => crc64Steps n (if c.getLsbD 63 then (c <<< 1) ^^^ 0x42F0E1EBA9EA3693 else c <<< 1)

/-- CRC-64 of R473: initial value and final inversion all ones, bits most significant first. -/
def crc64 (bs : List Byte) : Nat :=
  (bs.foldl (fun c b => crc64Steps 8 (c ^^^ (BitVec.ofNat 64 b.toNat <<< 56))) (BitVec.allOnes 64) ^^^ BitVec.allOnes 64).toNat

end Sys2Proof.Machine
end

