-- ==== Sys2Proof/Syntax.lean ====
section
/-! DEFINITION. The commands of the block: one constructor of `Instr` for each row of spec/opcode_table.json, with the row's
operands. What the outside answers to the device (host memory, sensors, partners) is an operand of the command that asks. -/

namespace Sys2Proof

/-- A command in flight, named by its queue and the ring index of its FIRST entry (R72, R80). -/
structure CmdRef where
  q  : QueueId
  ix : Nat
  deriving DecidableEq, Repr, Inhabited

/-- How the host refuses an access (R28, R111): ATS failure or denial; completer abort, unsupported request or poison. -/
inductive HostErr where
  | translation
  | abort
  deriving DecidableEq, Repr, Inhabited

/-- What host memory answered to a device read: the bytes, and the offset of the first byte that failed. -/
structure HostRead where
  bytes : List Byte := []
  err   : Option (HostErr × Nat) := none
  deriving DecidableEq, Repr, Inhabited

/-- One ring entry as read (R72, R547): its 64 bytes, or a failed read. -/
inductive EntryRead where
  | ok  (bytes : List Byte)
  | bad (err : HostErr)
  deriving DecidableEq, Repr, Inhabited

/-- What DAWN saw (R54): strap levels at the edge, tiles whose supervisor self-test failed, tiles whose image copy failed its
own check, and how long both inputs have been high and how long the reset was low, in ns. -/
structure BootSeen where
  test          : Bool
  recovery      : Bool
  smbAddr       : Fin 8
  gpio          : Byte
  lowNs         : Nat
  highNs        : Nat
  selfTestFail  : Byte
  imageFail     : Byte
  deriving DecidableEq, Repr, Inhabited

/-- One CXL expander as training saw it (R139): its capacities in bytes, and, where it was not behind this port when power was
last lost, the 64 B records that stand in the directory it brings (R159); none: the expander that was there before. -/
structure ExpanderSeen where
  volatile_  : Nat
  persistent : Nat
  brought    : Option (List (List Byte)) := none
  deriving DecidableEq, Repr, Inhabited

/-- What training saw on one tile (R55, R56, R138, R139). -/
structure TileTrain where
  supervisorFail : Bool
  hbmFail        : Bool
  ddrFail        : Fin 4            -- bit c: channel c failed
  hostTrained    : Bool
  dimm0Gib       : Nat
  dimm1Gib       : Nat
  expanders      : List ExpanderSeen -- in the order in which they are mapped
  cxlFail        : Bool
  modules        : List (List Bool) -- per edge, per module: trained
  deriving DecidableEq, Repr, Inhabited

/-- The doorbell page write of R68: page, offset, size, value, port, and the PASID prefix if any (R448). -/
structure DoorbellWrite where
  q     : QueueId
  off   : Nat
  size  : Nat
  value : Word32
  port  : TileId
  pasid : Option Nat
  deriving DecidableEq, Repr, Inhabited

/-- A BAR0 write (R494): port, address, size in bytes and data, least significant byte first. -/
structure RegWrite where
  port  : TileId
  addr  : Nat
  size  : Nat
  value : BitVec 64
  deriving DecidableEq, Repr, Inhabited

/-- What SECDED saw when one copy of a Segment Map entry was read (R148). -/
inductive CopySeen where
  | good
  | corrected
  | bad
  | changed (entry : List Byte)     -- a valid code word that differs from the package's content
  deriving DecidableEq, Repr, Inhabited

/-- The three copies A, B and C as one lookup read them. -/
structure VoteSeen where
  segid : Nat
  a     : CopySeen
  b     : CopySeen
  c     : CopySeen
  deriving DecidableEq, Repr, Inhabited

/-- A patrol-scrub read (R165, R166). -/
inductive ScrubUnit where
  | hbm | ddr | sram | staging
  deriving DecidableEq, Repr, Inhabited

inductive ScrubResult where
  | clean | corrected | uncorrectable
  deriving DecidableEq, Repr, Inhabited

/-- The counters of the stage tallies, by the names that the spec gives them: front stages (R234), READ (R252, and the two sides of
check 9 by group and function, R269), EXCHANGE by tile (R250), BUILD (R258), PROBE (R262), AGGREGATE by function (R268), and the
table "Sort, window and emit tallies" (R297), the inputs of a merge pass by their place. -/
inductive Ctr where
  | fRows | fPruned | fDeliv | fHnull (l : Nat) | dValues (l : Nat) | dNulls (l : Nat)
  | flIn | flPass | flRej | flUnk | cIn | cKeep | cDrop
  | rRec | rValid | rVoid | rAcc (g f : Nat) | rRes (g f : Nat)
  | eIn | xsCnt (t : Nat) | xsXor (t : Nat) | xrCnt (t : Nat) | xrXor (t : Nat)
  | bIn | bIns | bNull
  | pIn | pNullkey | pMatch | pNomatch | pPairs | pOut
  | gIn | aIn (f : Nat) | aTab (f : Nat) | aRes (f : Nat) | nAgg (f : Nat) | nNull (f : Nat)
  | sIn | sOut | ksIn | ksOut | ord | passIn (i : Nat) | passKs (i : Nat)
  | c0 | k0 | n | kn | c1 | k1 | cd | kd
  | wIn | wNull | wNone | wHit | wPairs
  | mIn | mOut | mLimit
  deriving DecidableEq, Repr, Inhabited

/-- What upset the checked logic of one morsel or merge pass (R235, R320): counters that hold another value at the end, and how often
in a row the commit of one record to a table fails its residue check (R268). -/
structure Upset where
  counters : List (Ctr × Int) := []
  commit   : Nat := 0
  deriving DecidableEq, Repr, Inhabited

/-- Structures whose errors a command's start meets (R327). -/
inductive EccUnit where
  | buckle | prefetch | imageStore
  deriving DecidableEq, Repr, Inhabited

/-- What a COMMAND_START meets: the copies of Segment Map entries that it reads (R148), and an ECC error on its way (R327). -/
structure StartSeen where
  votes : List VoteSeen := []
  ecc   : Option (EccUnit × ScrubResult) := none
  deriving DecidableEq, Repr, Inhabited

/-- A tile that dispatches, and what the entries of its token store read as (R327). -/
structure DispatchSeen where
  tile  : TileId
  store : ScrubResult := .clean
  deriving DecidableEq, Repr, Inhabited

/-- The micro-op that calls a UDF, and what the core's scratch reads as (R327). -/
structure CallSeen where
  uop     : Fin 64
  scratch : ScrubResult := .clean
  deriving DecidableEq, Repr, Inhabited

/-- What a result ring's CONS and RMODE read as, and the host write that fails in translation, by number, with the bytes of it that were
moved before (R111, R295). -/
structure RingSeen where
  cons  : HostRead
  wfail : Option (Nat × Nat) := none
  deriving DecidableEq, Repr, Inhabited

/-- A host port that has trained, and the vectors that the host has masked in its MSI-X table (R83). -/
structure LinkSeen where
  tile   : TileId
  masked : List Nat := []
  deriving DecidableEq, Repr, Inhabited

/-- The Sumen core a Sumen instruction runs on (R393). -/
inductive CoreId where
  | small (pe : Gpe)
  | large (k : Fin 32)
  deriving DecidableEq, Repr, Inhabited

/-- The answer of an entry check (R373): the mesh agent that still holds credits or requests, if any. -/
abbrev Outstanding := Option (Fin 64)

/-- The 16 B message header of R480, with the context of R450. -/
structure MsgHdr where
  vc       : Nat
  len      : Nat
  srcTile  : TileId
  srcAgent : Fin 64
  dstTile  : TileId
  dstAgent : Fin 64
  slice    : Nat
  sgen     : Nat
  queue    : Nat
  qgen     : Nat
  deriving DecidableEq, Repr, Inhabited

/-- The fields of a token as STEAL_GRANT carries them (R481). -/
structure GrantBody where
  qid     : Nat
  pipe    : Nat
  prio    : Nat
  order   : Nat
  eclass  : Nat
  attempt : Nat
  age     : Nat
  home    : Nat
  morsel  : Nat
  seq     : Nat
  est     : Nat
  deriving DecidableEq, Repr, Inhabited

/-- The samples of one Nightwatch period from one tile (R389): thermal, supply and oscillator readings; none when the monitor's
domain was not ON. -/
structure NwSample where
  tile   : TileId
  temps  : List (Option Int)
  supply : List (Option Nat)
  rings  : List (Option Nat)
  deriving DecidableEq, Repr, Inhabited

/-- The binding a management request came over (R527). -/
inductive MgmtBinding where
  | smbus
  | vdm (port : TileId)
  deriving DecidableEq, Repr, Inhabited

/-- What a tile's own checks saw at the safe point (R47). -/
structure SafeSeen where
  imageInvalid : Bool
  dfllUnlocked : Bool
  localFault   : Bool
  deriving DecidableEq, Repr, Inhabited

/-- Where an uncorrectable mesh error fell (R464). -/
inductive MeshFault where
  | payload (storeUnit : Nat)
  | header | router | girth
  deriving DecidableEq, Repr, Inhabited

/-- The commands of the block: the Sumen instructions, then the other rows in the order of spec/opcode_table.json. -/
inductive Instr where
  -- Sumen instructions (R400)
  | add (k : CoreId) (rd ra rb : RegNo)
  | sub (k : CoreId) (rd ra rb : RegNo)
  | and (k : CoreId) (rd ra rb : RegNo)
  | or (k : CoreId) (rd ra rb : RegNo)
  | xor (k : CoreId) (rd ra rb : RegNo)
  | sll (k : CoreId) (rd ra rb : RegNo)
  | srl (k : CoreId) (rd ra rb : RegNo)
  | sra (k : CoreId) (rd ra rb : RegNo)
  | slt (k : CoreId) (rd ra rb : RegNo)
  | sltu (k : CoreId) (rd ra rb : RegNo)
  | mul (k : CoreId) (rd ra rb : RegNo)
  | mulh (k : CoreId) (rd ra rb : RegNo)
  | mulhu (k : CoreId) (rd ra rb : RegNo)
  | div (k : CoreId) (rd ra rb : RegNo)
  | divu (k : CoreId) (rd ra rb : RegNo)
  | rem (k : CoreId) (rd ra rb : RegNo)
  | remu (k : CoreId) (rd ra rb : RegNo)
  | jr (k : CoreId) (rd ra : RegNo)
  | addi (k : CoreId) (rd ra : RegNo) (imm : BitVec 16)
  | andi (k : CoreId) (rd ra : RegNo) (imm : BitVec 16)
  | ori (k : CoreId) (rd ra : RegNo) (imm : BitVec 16)
  | xori (k : CoreId) (rd ra : RegNo) (imm : BitVec 16)
  | lui (k : CoreId) (rd : RegNo) (imm : BitVec 16)
  | lb (k : CoreId) (rd ra : RegNo) (imm : BitVec 16)
  | lh (k : CoreId) (rd ra : RegNo) (imm : BitVec 16)
  | lw (k : CoreId) (rd ra : RegNo) (imm : BitVec 16)
  | ld (k : CoreId) (rd ra : RegNo) (imm : BitVec 16)
  | lbu (k : CoreId) (rd ra : RegNo) (imm : BitVec 16)
  | lhu (k : CoreId) (rd ra : RegNo) (imm : BitVec 16)
  | lwu (k : CoreId) (rd ra : RegNo) (imm : BitVec 16)
  | sb (k : CoreId) (rd ra : RegNo) (imm : BitVec 16)
  | sh (k : CoreId) (rd ra : RegNo) (imm : BitVec 16)
  | sw (k : CoreId) (rd ra : RegNo) (imm : BitVec 16)
  | sd (k : CoreId) (rd ra : RegNo) (imm : BitVec 16)
  | beq (k : CoreId) (ra rb : RegNo) (off : BitVec 16)
  | bne (k : CoreId) (ra rb : RegNo) (off : BitVec 16)
  | blt (k : CoreId) (ra rb : RegNo) (off : BitVec 16)
  | bge (k : CoreId) (ra rb : RegNo) (off : BitVec 16)
  | bltu (k : CoreId) (ra rb : RegNo) (off : BitVec 16)
  | bgeu (k : CoreId) (ra rb : RegNo) (off : BitVec 16)
  | jmp (k : CoreId) (off : BitVec 26)
  | jal (k : CoreId) (off : BitVec 26)
  | fadd (k : CoreId) (dbl : Bool) (rd ra rb : RegNo)
  | fsub (k : CoreId) (dbl : Bool) (rd ra rb : RegNo)
  | fmul (k : CoreId) (dbl : Bool) (rd ra rb : RegNo)
  | fdiv (k : CoreId) (dbl : Bool) (rd ra rb : RegNo)
  | fsqrt (k : CoreId) (dbl : Bool) (rd ra : RegNo)
  | fmin (k : CoreId) (dbl : Bool) (rd ra rb : RegNo)
  | fmax (k : CoreId) (dbl : Bool) (rd ra rb : RegNo)
  | feq (k : CoreId) (dbl : Bool) (rd ra rb : RegNo)
  | flt (k : CoreId) (dbl : Bool) (rd ra rb : RegNo)
  | fle (k : CoreId) (dbl : Bool) (rd ra rb : RegNo)
  | fcvti (k : CoreId) (dbl : Bool) (rd ra : RegNo)
  | fcvtf (k : CoreId) (dbl : Bool) (rd ra : RegNo)
  | fmvx (k : CoreId) (dbl : Bool) (rd ra : RegNo)
  | fmvf (k : CoreId) (dbl : Bool) (rd ra : RegNo)
  | fcvtw (k : CoreId) (dbl : Bool) (rd ra : RegNo)
  | fld (k : CoreId) (rd ra : RegNo) (imm : BitVec 16)
  | fsd (k : CoreId) (rd ra : RegNo) (imm : BitVec 16)
  | csr (k : CoreId) (rd ra : RegNo) (imm : BitVec 16)
  | vadd (k : CoreId) (vd va vb : RegNo) (m : Bool)
  | vsub (k : CoreId) (vd va vb : RegNo) (m : Bool)
  | vmul (k : CoreId) (vd va vb : RegNo) (m : Bool)
  | vand (k : CoreId) (vd va vb : RegNo) (m : Bool)
  | vor (k : CoreId) (vd va vb : RegNo) (m : Bool)
  | vxor (k : CoreId) (vd va vb : RegNo) (m : Bool)
  | vsll (k : CoreId) (vd va vb : RegNo) (m : Bool)
  | vsrl (k : CoreId) (vd va vb : RegNo) (m : Bool)
  | vsra (k : CoreId) (vd va vb : RegNo) (m : Bool)
  | vmin (k : CoreId) (vd va vb : RegNo) (m : Bool)
  | vmax (k : CoreId) (vd va vb : RegNo) (m : Bool)
  | vminu (k : CoreId) (vd va vb : RegNo) (m : Bool)
  | vmaxu (k : CoreId) (vd va vb : RegNo) (m : Bool)
  | vseq (k : CoreId) (vd va vb : RegNo) (m : Bool)
  | vslt (k : CoreId) (vd va vb : RegNo) (m : Bool)
  | vsltu (k : CoreId) (vd va vb : RegNo) (m : Bool)
  | vmerge (k : CoreId) (vd va vb : RegNo) (m : Bool)
  | vfadd (k : CoreId) (vd va vb : RegNo) (m : Bool)
  | vfsub (k : CoreId) (vd va vb : RegNo) (m : Bool)
  | vfmul (k : CoreId) (vd va vb : RegNo) (m : Bool)
  | vfdiv (k : CoreId) (vd va vb : RegNo) (m : Bool)
  | vfmin (k : CoreId) (vd va vb : RegNo) (m : Bool)
  | vfmax (k : CoreId) (vd va vb : RegNo) (m : Bool)
  | vsadd (k : CoreId) (vd va vb : RegNo) (m : Bool)
  | vssub (k : CoreId) (vd va vb : RegNo) (m : Bool)
  | vrshr (k : CoreId) (vd va xb : RegNo) (m : Bool)
  | vmulhr (k : CoreId) (vd va vb : RegNo) (m : Bool)
  | vnarrows (k : CoreId) (vd va xb : RegNo) (m : Bool)
  | vscale10 (k : CoreId) (vd va xb : RegNo) (m : Bool) (p : Fin 64)
  | vredsum (k : CoreId) (vd va vb : RegNo) (m : Bool)
  | vredmin (k : CoreId) (vd va vb : RegNo) (m : Bool)
  | vredmax (k : CoreId) (vd va vb : RegNo) (m : Bool)
  | vredminu (k : CoreId) (vd va vb : RegNo) (m : Bool)
  | vredmaxu (k : CoreId) (vd va vb : RegNo) (m : Bool)
  | vfredsum (k : CoreId) (vd va vb : RegNo) (m : Bool)
  | vfredmin (k : CoreId) (vd va vb : RegNo) (m : Bool)
  | vfredmax (k : CoreId) (vd va vb : RegNo) (m : Bool)
  | vld (k : CoreId) (vd xa : RegNo) (imm : BitVec 16)
  | vst (k : CoreId) (vd xa : RegNo) (imm : BitVec 16)
  | vldx (k : CoreId) (vd xa vb : RegNo) (m : Bool)
  | vstx (k : CoreId) (vd xa vb : RegNo) (m : Bool)
  | vsetl (k : CoreId) (rd ra : RegNo) (imm : BitVec 16)
  | vstep (k : CoreId) (rd : RegNo)
  | vbcast (k : CoreId) (vd xa : RegNo) (m : Bool)
  | vext (k : CoreId) (rd va xb : RegNo) (m : Bool)
  | vins (k : CoreId) (vd xa xb : RegNo) (m : Bool)
  | vidx (k : CoreId) (vd : RegNo) (m : Bool)
  | ret (k : CoreId)
  | brk (k : CoreId)
  -- events added at the table's end
  | hostLinkUp (up : LinkSeen)
  | hostLinkDown (t : TileId)
  | lockstep (t : TileId)
  | aonUncorrectable (t : TileId)
  | digestLaneError (t : TileId) (lane : Fin 8)
  | illegal (k : CoreId) (word : Word32)
  | leaveL1 (t : TileId) (e : EdgeId)
  | linkTrained (t : TileId) (e : EdgeId) (modules : List Bool)
  -- pins, boot, board and monitors
  | pwrokLow (ns : Nat)
  | pkgResetNLow (ns : Nat)
  | pkgResetNRise (b : BootSeen)
  | trainSequence (seen : List TileTrain)
  | perstNLow (t : TileId) (ns : Nat)
  | perstNRise (t : TileId)
  | pmbAlert (status : List Nat)
  | pmbusReading (rail : Nat) (mv : Nat) (ma : Nat)
  | thermalSample (t : TileId) (temps : List Int)
  | throttleStep (t : TileId)
  | monitorAverageWindowEnd (t : TileId)
  | supplySample (t : TileId) (mv : List Nat)
  | processMonitorSample (t : TileId) (counts : List Nat)
  | hbmTemperatureRead (t : TileId) (c8 : Int)
  | droop (t : TileId) (det : Fin 32)
  | droopRelease (t : TileId) (det : Fin 32)
  -- operating modes and the Cinch protocol
  | devModeReqWrite (mode : Fin 16)
  | cinchChangeStart
  | cinchPrepare (t : TileId) (change : Nat) (arg : Nat) (epoch : Nat)
  | cinchSafePoint (t : TileId) (seen : SafeSeen)
  | cinchReady (t : TileId) (epoch : Nat)
  | cinchRefuse (t : TileId) (epoch : Nat) (reason : Nat)
  | cinchAbort (t : TileId) (epoch : Nat)
  | cinchPulse (t : TileId) (epoch : Nat)
  | cinchCommit (t : TileId) (epoch : Nat)
  | cinchApplied (t : TileId) (epoch : Nat) (strobeSeq : Nat)
  | cinchHalt (t : TileId) (src : TileId) (cause : Nat)
  | cinchWirePulse (t : TileId) (ns : Nat)
  | cinchWireHalt (t : TileId) (ns : Nat)
  | haltMessageTimeout
  | evidenceCopy (reach : Byte)
  | cinchPrepareTimeout (t : TileId)
  | cinchRetry
  | cinchCommitResend
  | cinchApplyTimeout (t : TileId)
  | masterLost (t : TileId)
  | duskDrainComplete
  | firmwareRestarted
  -- Losis commands and their deferred effects
  | identify (c : CmdRef)
  | getLog (c : CmdRef) (wfail : Option Nat)
  | setFeature (c : CmdRef)
  | fwDownload (c : CmdRef) (src : HostRead)
  | fwActivate (c : CmdRef)
  | sliceCreate (c : CmdRef)
  | sliceDestroy (c : CmdRef)
  | sliceReset (c : CmdRef)
  | sliceFreeze (c : CmdRef)
  | sliceSave (c : CmdRef) (wfail : Option Nat)
  | sliceRestore (c : CmdRef) (src : HostRead)
  | sliceThaw (c : CmdRef)
  | segAlloc (c : CmdRef)
  | segFree (c : CmdRef)
  | segFreeEffect (c : CmdRef)
  | segWrite (c : CmdRef) (src : HostRead)
  | segRead (c : CmdRef) (wfail : Option Nat)
  | segCopy (c : CmdRef)
  | segFlush (c : CmdRef)
  | gpfPhaseDone (c : CmdRef) (t : TileId) (expander : Nat) (err : Bool)
  | gpfTimeout (c : CmdRef) (t : TileId) (expander : Nat)
  | fence (c : CmdRef)
  | pipeLoad (c : CmdRef) (src : HostRead)
  | pipeUnload (c : CmdRef)
  | pipeUnloadRemove (c : CmdRef)
  | queryRun (c : CmdRef)
  | digest (c : CmdRef)
  | hmac (c : CmdRef)
  | compress (c : CmdRef)
  | decompress (c : CmdRef)
  | keyLoad (c : CmdRef) (wrapped : HostRead)
  | keyClear (c : CmdRef)
  | keyChangeEffect (c : CmdRef)
  | powerLimit (c : CmdRef)
  | readMonitors (c : CmdRef)
  | nop (c : CmdRef)
  -- rings and queues
  | doorbell (w : DoorbellWrite)
  | ringEntryRead (q : QueueId) (reads : List EntryRead)
  | ownReread (q : QueueId) (r : EntryRead)
  | arbitrate (t : TileId)
  | commandStart (c : CmdRef) (fetched : List HostRead) (seen : StartSeen)
  | commandComplete (c : CmdRef) (failAt : Option Nat)
  | queueIrqTimer (q : QueueId)
  | queueEnable (q : QueueId)
  | queueDisable (q : QueueId)
  | queueReset (q : QueueId)
  | queueResetForceStop (q : QueueId)
  | queueResetDone (q : QueueId)
  | ringFaultClear (q : QueueId)
  -- store upkeep
  | stagingDrain (t : TileId) (line : Nat)
  | patrolScrub (t : TileId) (where_ : ScrubUnit) (addr : Nat) (res : ScrubResult)
  | scrubLate (t : TileId) (where_ : ScrubUnit)
  | mapScrubVote (t : TileId) (seen : VoteSeen)
  | ddrChannelLost (t : TileId) (ch : Fin 2)
  | cxlPortLost (t : TileId)
  | sliceTableEcc (t : TileId) (slice : Fin 1024)
  -- scheduler and queries
  | tokenPost (t : TileId)
  | tokenDispatch (d : DispatchSeen)
  | barrierRelease (qid : Nat) (pipe : Fin 32)
  | morselEnd (pe : Gpe) (energyNj : Nat) (upset : Upset)
  | peInternalError (pe : Gpe) (energyNj : Nat)
  | queryForceStop (qid : Nat)
  | mergePassEnd (t : TileId) (qid : Nat) (pipe : Fin 32) (upset : Upset)
  | emitCommit (qid : Nat) (pipe : Fin 32) (cons : HostRead) (wfail : Option Nat) (moved : Nat)
  | consPoll (qid : Nat) (seen : RingSeen)
  | spillPage (t : TileId) (qid : Nat) (pipe : Fin 32)
  | udfCall (pe : Gpe) (block : Nat) (call : CallSeen)
  | windowMissFill (core : CoreId)
  | codecFrame (t : TileId) (src : HostRead) (wfail : Option Nat) (mismatch : Bool)
  | digestLaneTake (t : TileId) (lane : Fin 8)
  | digestPreempt (t : TileId) (lane : Fin 8) (doneBytes : Nat) (msg : HostRead)
  | digestSaveDone (t : TileId) (lane : Fin 8)
  | digestRestore (t : TileId) (lane : Fin 8) (authentic : Bool)
  | digestJobDone (t : TileId) (lane : Fin 8) (msg : HostRead) (wfail : Bool)
  | digViewGo (t : TileId) (ctl : Word32) (off : Word32) (desc : List Byte) (list : List Byte)
  | digViewEarlyRead (t : TileId) (ix : Fin 16)
  -- windows and epochs
  | schedWindowStart (t : TileId) (otherNj : Nat)
  | budgetEpochStart
  | powerSplit (otherMw : Nat)
  | verificationWindowStart
  | errorCoalesceWindowEnd (t : TileId)
  -- power domains
  | domainEntry (t : TileId) (d : DomId) (busy : Outstanding)
  | entryRecheck (t : TileId) (d : DomId) (busy : Outstanding)
  | quiesceTimeout (t : TileId) (d : DomId) (agent : Fin 64)
  | lateWake (t : TileId) (d : DomId)
  | rampSlot (t : TileId) (d : DomId)
  | domainWake (t : TileId) (d : DomId) (parityError : Bool) (badBanks : List Nat)
  | wakeStepTimeout (t : TileId) (d : DomId) (step : Fin 8)
  | wakeRetry (t : TileId) (d : DomId)
  | fabricVoteWithdraw (t : TileId) (d : DomId)
  | slIdleExpiry (t : TileId) (k : Fin 4)
  | nightwatchPeriod (samples : List NwSample)
  | nwEnter (exitToo : Bool)
  | nwExit (enterToo : Bool)
  -- registers
  | updateStrobe (value : Word32)
  | updateStrobeClearRej (value : Word32)
  | applyModeClear (w : RegWrite)
  | stirRetrain (t : TileId) (e : EdgeId)
  | pdVoteHostWrite (t : TileId) (d : DomId) (value : Word32)
  | pdVoteDbgWrite (t : TileId) (d : DomId) (value : Word32) (jtag : Bool)
  | timebaseLoRead (port : TileId)
  | aliasWrite (w : RegWrite)
  | registerWrite (w : RegWrite)
  | registerWriteLand (block : Nat)
  -- Stirrup links and the fabric
  | dataFlit (t : TileId) (e : EdgeId) (m : ModuleId) (bytes : List Byte)
  | idleFlit (t : TileId) (e : EdgeId) (m : ModuleId) (bytes : List Byte)
  | replayTimeout (t : TileId) (e : EdgeId) (m : ModuleId)
  | moduleRetrain (t : TileId) (e : EdgeId) (m : ModuleId) (ok : Bool)
  | moduleDisable (t : TileId) (e : EdgeId) (m : ModuleId)
  | routeUpdate
  | meshFlitError (t : TileId) (f : MeshFault)
  | reqTimeout (t : TileId) (agent : Fin 64) (tag : Nat)
  | ctlResend (t : TileId) (tag : Nat)
  | linkParams (t : TileId) (e : EdgeId) (body : List Byte)
  | linkDown (t : TileId) (e : EdgeId)
  | sidebandCtl (t : TileId) (e : EdgeId) (msg : List Byte)
  | sleepReq (t : TileId) (e : EdgeId)
  | sleepAck (t : TileId) (e : EdgeId)
  | sleepNak (t : TileId) (e : EdgeId)
  | sleepTimeout (t : TileId) (e : EdgeId)
  | rdLine (h : MsgHdr) (tag : Nat) (addr : Nat)
  | wrLine (h : MsgHdr) (tag : Nat) (addr : Nat) (mask : BitVec 64) (data : List Byte)
  | regRd (h : MsgHdr) (tag : Nat) (off : Nat)
  | regWr (h : MsgHdr) (tag : Nat) (off : Nat) (data : Word32)
  | rdData (h : MsgHdr) (tag : Nat) (rstat : Nat) (data : List Byte)
  | wrAck (h : MsgHdr) (tag : Nat) (rstat : Nat)
  | regData (h : MsgHdr) (tag : Nat) (rstat : Nat) (data : Word32)
  | xack (h : MsgHdr) (qid : Nat) (srcPe : Gpe) (attempt : Nat) (morsel : Nat) (count : Nat)
  | xrec (h : MsgHdr) (qid : Nat) (pipe : Fin 32) (part : Nat) (record : List Byte)
  | xackTimer (t : TileId) (qid : Nat) (srcPe : Gpe) (morsel : Nat) (attempt : Nat)
  | xtallyReq (h : MsgHdr) (qid : Nat) (srcPe : Gpe) (attempt : Nat) (morsel : Nat)
  | xchgTally (h : MsgHdr) (qid : Nat) (srcPe : Gpe) (attempt : Nat) (morsel : Nat) (cnt : Nat) (xorHash : Nat)
  | barrier (h : MsgHdr) (qid : Nat) (pipe : Fin 32)
  | emitBase (h : MsgHdr) (qid : Nat) (pipe : Fin 32) (base : Nat)
  | schedState (h : MsgHdr) (level : Nat) (tj : Int) (credit : Int) (est : Nat)
  | stealReq (h : MsgHdr) (tag : Nat) (level : Nat)
  | stealGrant (h : MsgHdr) (tag : Nat) (g : GrantBody)
  | stealRefuse (h : MsgHdr) (tag : Nat)
  | bootData (h : MsgHdr) (off : Nat) (data : List Byte)
  | fwMsg (h : MsgHdr) (tag : Nat) (kind : Nat) (data : List Byte)
  -- management interface
  | mctpControl (b : MgmtBinding) (req : List Byte)
  | pldmSensorRead (b : MgmtBinding) (id : Nat)
  | powerLimitEffecter (b : MgmtBinding) (watts : Nat)
  | modeEffecter (b : MgmtBinding) (mode : Nat)
  | readEvidence (b : MgmtBinding) (off : Nat) (len : Nat)
  | setMgmtVote (b : MgmtBinding) (tile : Nat) (domain : Nat) (vote : Nat)
  | getGpio (b : MgmtBinding) (levels : Byte)
  | setGpio (b : MgmtBinding) (mask : Byte) (value : Byte) (levels : Byte)
  | requestUpdate (b : MgmtBinding)
  | firmwareComponentTransfer (b : MgmtBinding) (off : Nat) (data : List Byte) (last : Bool)
  | activateFirmware (b : MgmtBinding) (selfContained : Bool)
  | cancelUpdate (b : MgmtBinding)
  | updateModeTimeout
  deriving DecidableEq, Repr

end Sys2Proof
end

