-- ==== Sys2Proof/Decode.lean ====
section
/-! DEFINITION. The words of the opcode table: no row of spec/opcode_table.json gives bits, so no word spells a command. The words of the
Sumen instructions stand in a UDF's code: their decoder follows R399 and R400, and an encoder stands beside it. -/

namespace Sys2Proof

/-- The command that a word of the table spells: none, as the table gives no row bits. -/
def decodeTableWord (_nbits _w : Nat) : Option Instr := none

/-! ### Sumen instruction words (R399, R400) -/

/-- The register number at bit `lo` of a word. -/
def regAt (w lo : Nat) : RegNo := ⟨w / 2 ^ lo % 32, Nat.mod_lt _ (by decide)⟩

/-- IMM16 and OFF16. -/
def immAt (w : Nat) : BitVec 16 := BitVec.ofNat 16 w

/-- Major 0x01. -/
def decodeInt (k : CoreId) (w fn : Nat) : Option Instr :=
  let rd := regAt w 21
  let ra := regAt w 16
  let rb := regAt w 11
  match fn with
  | 0x001 => some (.add k rd ra rb)
  | 0x002 => some (.sub k rd ra rb)
  | 0x003 => some (.and k rd ra rb)
  | 0x004 => some (.or k rd ra rb)
  | 0x005 => some (.xor k rd ra rb)
  | 0x006 => some (.sll k rd ra rb)
  | 0x007 => some (.srl k rd ra rb)
  | 0x008 => some (.sra k rd ra rb)
  | 0x009 => some (.slt k rd ra rb)
  | 0x00A => some (.sltu k rd ra rb)
  | 0x00B => some (.mul k rd ra rb)
  | 0x00C => some (.mulh k rd ra rb)
  | 0x00D => some (.mulhu k rd ra rb)
  | 0x00E => some (.div k rd ra rb)
  | 0x00F => some (.divu k rd ra rb)
  | 0x010 => some (.rem k rd ra rb)
  | 0x011 => some (.remu k rd ra rb)
  | 0x012 => some (.jr k rd ra)
  | _ => none

/-- Major 0x20: FN[10] selects binary64. -/
def decodeFp (k : CoreId) (dbl : Bool) (w fn : Nat) : Option Instr :=
  let rd := regAt w 21
  let ra := regAt w 16
  let rb := regAt w 11
  match fn with
  | 0x001 => some (.fadd k dbl rd ra rb)
  | 0x002 => some (.fsub k dbl rd ra rb)
  | 0x003 => some (.fmul k dbl rd ra rb)
  | 0x004 => some (.fdiv k dbl rd ra rb)
  | 0x005 => some (.fsqrt k dbl rd ra)
  | 0x006 => some (.fmin k dbl rd ra rb)
  | 0x007 => some (.fmax k dbl rd ra rb)
  | 0x008 => some (.feq k dbl rd ra rb)
  | 0x009 => some (.flt k dbl rd ra rb)
  | 0x00A => some (.fle k dbl rd ra rb)
  | 0x00B => some (.fcvti k dbl rd ra)
  | 0x00C => some (.fcvtf k dbl rd ra)
  | 0x00D => some (.fmvx k dbl rd ra)
  | 0x00E => some (.fmvf k dbl rd ra)
  | 0x00F => some (.fcvtw k dbl rd ra)
  | _ => none

/-- Major 0x30. -/
def decodeVec (k : CoreId) (m : Bool) (w fn : Nat) : Option Instr :=
  let vd := regAt w 21
  let va := regAt w 16
  let vb := regAt w 11
  match fn with
  | 0x001 => some (.vadd k vd va vb m)
  | 0x002 => some (.vsub k vd va vb m)
  | 0x003 => some (.vmul k vd va vb m)
  | 0x004 => some (.vand k vd va vb m)
  | 0x005 => some (.vor k vd va vb m)
  | 0x006 => some (.vxor k vd va vb m)
  | 0x007 => some (.vsll k vd va vb m)
  | 0x008 => some (.vsrl k vd va vb m)
  | 0x009 => some (.vsra k vd va vb m)
  | 0x00A => some (.vmin k vd va vb m)
  | 0x00B => some (.vmax k vd va vb m)
  | 0x00C => some (.vminu k vd va vb m)
  | 0x00D => some (.vmaxu k vd va vb m)
  | 0x00E => some (.vseq k vd va vb m)
  | 0x00F => some (.vslt k vd va vb m)
  | 0x010 => some (.vsltu k vd va vb m)
  | 0x011 => some (.vmerge k vd va vb m)
  | 0x021 => some (.vfadd k vd va vb m)
  | 0x022 => some (.vfsub k vd va vb m)
  | 0x023 => some (.vfmul k vd va vb m)
  | 0x024 => some (.vfdiv k vd va vb m)
  | 0x025 => some (.vfmin k vd va vb m)
  | 0x026 => some (.vfmax k vd va vb m)
  | _ => none

/-- Major 0x31 (R403). -/
def decodeFixed (k : CoreId) (m : Bool) (w fn : Nat) : Option Instr :=
  let vd := regAt w 21
  let va := regAt w 16
  let vb := regAt w 11
  match fn with
  | 0x001 => some (.vsadd k vd va vb m)
  | 0x002 => some (.vssub k vd va vb m)
  | 0x003 => some (.vrshr k vd va vb m)
  | 0x004 => some (.vmulhr k vd va vb m)
  | 0x005 => some (.vnarrows k vd va vb m)
  | _ => none

/-- Major 0x33 (R406). -/
def decodeRed (k : CoreId) (m : Bool) (w fn : Nat) : Option Instr :=
  let vd := regAt w 21
  let va := regAt w 16
  let vb := regAt w 11
  match fn with
  | 0x001 => some (.vredsum k vd va vb m)
  | 0x002 => some (.vredmin k vd va vb m)
  | 0x003 => some (.vredmax k vd va vb m)
  | 0x004 => some (.vredminu k vd va vb m)
  | 0x005 => some (.vredmaxu k vd va vb m)
  | 0x011 => some (.vfredsum k vd va vb m)
  | 0x012 => some (.vfredmin k vd va vb m)
  | 0x013 => some (.vfredmax k vd va vb m)
  | _ => none

/-- Major 0x39. -/
def decodeMove (k : CoreId) (m : Bool) (w fn : Nat) : Option Instr :=
  let vd := regAt w 21
  let va := regAt w 16
  let vb := regAt w 11
  match fn with
  | 0x001 => some (.vbcast k vd va m)
  | 0x002 => some (.vext k vd va vb m)
  | 0x003 => some (.vins k vd va vb m)
  | 0x004 => some (.vidx k vd m)
  | _ => none

/-- The immediate formats I, B and J. -/
def decodeImm (k : CoreId) (w major : Nat) : Option Instr :=
  let rd := regAt w 21
  let ra := regAt w 16
  let imm := immAt w
  match major with
  | 0x02 => some (.addi k rd ra imm)
  | 0x03 => some (.andi k rd ra imm)
  | 0x04 => some (.ori k rd ra imm)
  | 0x05 => some (.xori k rd ra imm)
  | 0x06 => if ra = 0 then some (.lui k rd imm) else none
  | 0x08 => some (.lb k rd ra imm)
  | 0x09 => some (.lh k rd ra imm)
  | 0x0A => some (.lw k rd ra imm)
  | 0x0B => some (.ld k rd ra imm)
  | 0x0C => some (.lbu k rd ra imm)
  | 0x0D => some (.lhu k rd ra imm)
  | 0x0E => some (.lwu k rd ra imm)
  | 0x10 => some (.sb k rd ra imm)
  | 0x11 => some (.sh k rd ra imm)
  | 0x12 => some (.sw k rd ra imm)
  | 0x13 => some (.sd k rd ra imm)
  | 0x18 => some (.beq k rd ra imm)
  | 0x19 => some (.bne k rd ra imm)
  | 0x1A => some (.blt k rd ra imm)
  | 0x1B => some (.bge k rd ra imm)
  | 0x1C => some (.bltu k rd ra imm)
  | 0x1D => some (.bgeu k rd ra imm)
  | 0x1E => some (.jmp k (BitVec.ofNat 26 w))
  | 0x1F => some (.jal k (BitVec.ofNat 26 w))
  | 0x21 => some (.fld k rd ra imm)
  | 0x22 => some (.fsd k rd ra imm)
  | 0x28 => if 1 ≤ imm.toNat ∧ imm.toNat ≤ 6 then some (.csr k rd ra imm) else none
  | 0x34 => some (.vld k rd ra imm)
  | 0x35 => some (.vst k rd ra imm)
  | 0x38 => if imm.toNat ≤ 4 then some (.vsetl k rd ra imm) else none
  | 0x3A => if ra = 0 ∧ imm = 0 then some (.vstep k rd) else none
  | _ => none

/-- VSCALE10: bits [3:0] are 0, and P is at most 38 (R399, R403). -/
def decodeScale (k : CoreId) (m : Bool) (w : Nat) : Option Instr :=
  let p : Fin 64 := ⟨w / 16 % 64, Nat.mod_lt _ (by decide)⟩
  if w % 16 = 0 ∧ p.val ≤ 38 then some (.vscale10 k (regAt w 21) (regAt w 16) (regAt w 11) m p) else none

/-- The instruction that a word spells on a core; none: ILLEGAL (R399, R400). -/
def decodeSumen (k : CoreId) (w : Nat) : Option Instr :=
  let m := decide (w / 1024 % 2 = 1)
  let fn := w % 1024
  match w / 2 ^ 26 with
  | 0x01 => decodeInt k w (w % 2048)
  | 0x20 => decodeFp k m w fn
  | 0x30 => decodeVec k m w fn
  | 0x31 => decodeFixed k m w fn
  | 0x32 => decodeScale k m w
  | 0x33 => decodeRed k m w fn
  | 0x36 => if fn = 0 then some (.vldx k (regAt w 21) (regAt w 16) (regAt w 11) m) else none
  | 0x37 => if fn = 0 then some (.vstx k (regAt w 21) (regAt w 16) (regAt w 11) m) else none
  | 0x39 => decodeMove k m w fn
  | 0x3E => if w % 2048 = 1 then some (.ret k) else if w % 2048 = 2 then some (.brk k) else none
  | major => decodeImm k w major

/-! ### The encoder: fields that an instruction does not use are 0 -/

/-- Format R. -/
def wordR (major : Nat) (rd ra rb : RegNo) (fn : Nat) : Nat :=
  major * 2 ^ 26 + rd.val * 2 ^ 21 + ra.val * 2 ^ 16 + rb.val * 2 ^ 11 + fn

/-- Format V. -/
def wordV (major : Nat) (vd va vb : RegNo) (m : Bool) (fn : Nat) : Nat :=
  wordR major vd va vb (m.toNat * 2 ^ 10 + fn)

/-- Formats I and B. -/
def wordI (major : Nat) (rd ra : RegNo) (imm : BitVec 16) : Nat :=
  major * 2 ^ 26 + rd.val * 2 ^ 21 + ra.val * 2 ^ 16 + imm.toNat

/-- The word of a Sumen instruction; none for the other commands. -/
def encodeSumen : Instr → Option Nat
  | .add _ rd ra rb => some (wordR 0x01 rd ra rb 0x001)
  | .sub _ rd ra rb => some (wordR 0x01 rd ra rb 0x002)
  | .and _ rd ra rb => some (wordR 0x01 rd ra rb 0x003)
  | .or _ rd ra rb => some (wordR 0x01 rd ra rb 0x004)
  | .xor _ rd ra rb => some (wordR 0x01 rd ra rb 0x005)
  | .sll _ rd ra rb => some (wordR 0x01 rd ra rb 0x006)
  | .srl _ rd ra rb => some (wordR 0x01 rd ra rb 0x007)
  | .sra _ rd ra rb => some (wordR 0x01 rd ra rb 0x008)
  | .slt _ rd ra rb => some (wordR 0x01 rd ra rb 0x009)
  | .sltu _ rd ra rb => some (wordR 0x01 rd ra rb 0x00A)
  | .mul _ rd ra rb => some (wordR 0x01 rd ra rb 0x00B)
  | .mulh _ rd ra rb => some (wordR 0x01 rd ra rb 0x00C)
  | .mulhu _ rd ra rb => some (wordR 0x01 rd ra rb 0x00D)
  | .div _ rd ra rb => some (wordR 0x01 rd ra rb 0x00E)
  | .divu _ rd ra rb => some (wordR 0x01 rd ra rb 0x00F)
  | .rem _ rd ra rb => some (wordR 0x01 rd ra rb 0x010)
  | .remu _ rd ra rb => some (wordR 0x01 rd ra rb 0x011)
  | .jr _ rd ra => some (wordR 0x01 rd ra 0 0x012)
  | .addi _ rd ra imm => some (wordI 0x02 rd ra imm)
  | .andi _ rd ra imm => some (wordI 0x03 rd ra imm)
  | .ori _ rd ra imm => some (wordI 0x04 rd ra imm)
  | .xori _ rd ra imm => some (wordI 0x05 rd ra imm)
  | .lui _ rd imm => some (wordI 0x06 rd 0 imm)
  | .lb _ rd ra imm => some (wordI 0x08 rd ra imm)
  | .lh _ rd ra imm => some (wordI 0x09 rd ra imm)
  | .lw _ rd ra imm => some (wordI 0x0A rd ra imm)
  | .ld _ rd ra imm => some (wordI 0x0B rd ra imm)
  | .lbu _ rd ra imm => some (wordI 0x0C rd ra imm)
  | .lhu _ rd ra imm => some (wordI 0x0D rd ra imm)
  | .lwu _ rd ra imm => some (wordI 0x0E rd ra imm)
  | .sb _ rd ra imm => some (wordI 0x10 rd ra imm)
  | .sh _ rd ra imm => some (wordI 0x11 rd ra imm)
  | .sw _ rd ra imm => some (wordI 0x12 rd ra imm)
  | .sd _ rd ra imm => some (wordI 0x13 rd ra imm)
  | .beq _ ra rb off => some (wordI 0x18 ra rb off)
  | .bne _ ra rb off => some (wordI 0x19 ra rb off)
  | .blt _ ra rb off => some (wordI 0x1A ra rb off)
  | .bge _ ra rb off => some (wordI 0x1B ra rb off)
  | .bltu _ ra rb off => some (wordI 0x1C ra rb off)
  | .bgeu _ ra rb off => some (wordI 0x1D ra rb off)
  | .jmp _ off => some (0x1E * 2 ^ 26 + off.toNat)
  | .jal _ off => some (0x1F * 2 ^ 26 + off.toNat)
  | .fadd _ dbl rd ra rb => some (wordV 0x20 rd ra rb dbl 0x001)
  | .fsub _ dbl rd ra rb => some (wordV 0x20 rd ra rb dbl 0x002)
  | .fmul _ dbl rd ra rb => some (wordV 0x20 rd ra rb dbl 0x003)
  | .fdiv _ dbl rd ra rb => some (wordV 0x20 rd ra rb dbl 0x004)
  | .fsqrt _ dbl rd ra => some (wordV 0x20 rd ra 0 dbl 0x005)
  | .fmin _ dbl rd ra rb => some (wordV 0x20 rd ra rb dbl 0x006)
  | .fmax _ dbl rd ra rb => some (wordV 0x20 rd ra rb dbl 0x007)
  | .feq _ dbl rd ra rb => some (wordV 0x20 rd ra rb dbl 0x008)
  | .flt _ dbl rd ra rb => some (wordV 0x20 rd ra rb dbl 0x009)
  | .fle _ dbl rd ra rb => some (wordV 0x20 rd ra rb dbl 0x00A)
  | .fcvti _ dbl rd ra => some (wordV 0x20 rd ra 0 dbl 0x00B)
  | .fcvtf _ dbl rd ra => some (wordV 0x20 rd ra 0 dbl 0x00C)
  | .fmvx _ dbl rd ra => some (wordV 0x20 rd ra 0 dbl 0x00D)
  | .fmvf _ dbl rd ra => some (wordV 0x20 rd ra 0 dbl 0x00E)
  | .fcvtw _ dbl rd ra => some (wordV 0x20 rd ra 0 dbl 0x00F)
  | .fld _ rd ra imm => some (wordI 0x21 rd ra imm)
  | .fsd _ rd ra imm => some (wordI 0x22 rd ra imm)
  | .csr _ rd ra imm => some (wordI 0x28 rd ra imm)
  | .vadd _ vd va vb m => some (wordV 0x30 vd va vb m 0x001)
  | .vsub _ vd va vb m => some (wordV 0x30 vd va vb m 0x002)
  | .vmul _ vd va vb m => some (wordV 0x30 vd va vb m 0x003)
  | .vand _ vd va vb m => some (wordV 0x30 vd va vb m 0x004)
  | .vor _ vd va vb m => some (wordV 0x30 vd va vb m 0x005)
  | .vxor _ vd va vb m => some (wordV 0x30 vd va vb m 0x006)
  | .vsll _ vd va vb m => some (wordV 0x30 vd va vb m 0x007)
  | .vsrl _ vd va vb m => some (wordV 0x30 vd va vb m 0x008)
  | .vsra _ vd va vb m => some (wordV 0x30 vd va vb m 0x009)
  | .vmin _ vd va vb m => some (wordV 0x30 vd va vb m 0x00A)
  | .vmax _ vd va vb m => some (wordV 0x30 vd va vb m 0x00B)
  | .vminu _ vd va vb m => some (wordV 0x30 vd va vb m 0x00C)
  | .vmaxu _ vd va vb m => some (wordV 0x30 vd va vb m 0x00D)
  | .vseq _ vd va vb m => some (wordV 0x30 vd va vb m 0x00E)
  | .vslt _ vd va vb m => some (wordV 0x30 vd va vb m 0x00F)
  | .vsltu _ vd va vb m => some (wordV 0x30 vd va vb m 0x010)
  | .vmerge _ vd va vb m => some (wordV 0x30 vd va vb m 0x011)
  | .vfadd _ vd va vb m => some (wordV 0x30 vd va vb m 0x021)
  | .vfsub _ vd va vb m => some (wordV 0x30 vd va vb m 0x022)
  | .vfmul _ vd va vb m => some (wordV 0x30 vd va vb m 0x023)
  | .vfdiv _ vd va vb m => some (wordV 0x30 vd va vb m 0x024)
  | .vfmin _ vd va vb m => some (wordV 0x30 vd va vb m 0x025)
  | .vfmax _ vd va vb m => some (wordV 0x30 vd va vb m 0x026)
  | .vsadd _ vd va vb m => some (wordV 0x31 vd va vb m 0x001)
  | .vssub _ vd va vb m => some (wordV 0x31 vd va vb m 0x002)
  | .vrshr _ vd va xb m => some (wordV 0x31 vd va xb m 0x003)
  | .vmulhr _ vd va vb m => some (wordV 0x31 vd va vb m 0x004)
  | .vnarrows _ vd va xb m => some (wordV 0x31 vd va xb m 0x005)
  | .vscale10 _ vd va xb m p => some (wordV 0x32 vd va xb m (p.val * 16))
  | .vredsum _ vd va vb m => some (wordV 0x33 vd va vb m 0x001)
  | .vredmin _ vd va vb m => some (wordV 0x33 vd va vb m 0x002)
  | .vredmax _ vd va vb m => some (wordV 0x33 vd va vb m 0x003)
  | .vredminu _ vd va vb m => some (wordV 0x33 vd va vb m 0x004)
  | .vredmaxu _ vd va vb m => some (wordV 0x33 vd va vb m 0x005)
  | .vfredsum _ vd va vb m => some (wordV 0x33 vd va vb m 0x011)
  | .vfredmin _ vd va vb m => some (wordV 0x33 vd va vb m 0x012)
  | .vfredmax _ vd va vb m => some (wordV 0x33 vd va vb m 0x013)
  | .vld _ vd xa imm => some (wordI 0x34 vd xa imm)
  | .vst _ vd xa imm => some (wordI 0x35 vd xa imm)
  | .vldx _ vd xa vb m => some (wordV 0x36 vd xa vb m 0)
  | .vstx _ vd xa vb m => some (wordV 0x37 vd xa vb m 0)
  | .vsetl _ rd ra imm => some (wordI 0x38 rd ra imm)
  | .vstep _ rd => some (wordI 0x3A rd 0 0)
  | .vbcast _ vd xa m => some (wordV 0x39 vd xa 0 m 0x001)
  | .vext _ rd va xb m => some (wordV 0x39 rd va xb m 0x002)
  | .vins _ vd xa xb m => some (wordV 0x39 vd xa xb m 0x003)
  | .vidx _ vd m => some (wordV 0x39 vd 0 0 m 0x004)
  | .ret _ => some (wordR 0x3E 0 0 0 0x001)
  | .brk _ => some (wordR 0x3E 0 0 0 0x002)
  | _ => none


end Sys2Proof
end

