-- ==== Sys2Proof/Config.lean ====
section
/-! DEFINITION. What the spec leaves open: free values, constants without a body, each applied to the model's counter `tick`
or to the operands it depends on. No proof can see what they are. -/

namespace Sys2Proof

/-- FREE VALUE (log 8). A byte of segment storage that nothing has written since the segment was allocated without ZERO_FILL
(R146), by the allocation's tick and the store address. -/
opaque Config.undefByte : Nat → Nat → Byte

/-- FREE VALUE (log 8). A rank that decides an order the spec leaves unspecified (R256, R266, R269, R273, R283, R291). -/
opaque Config.freeRank : Nat → Nat → Nat

/-- FREE VALUE (log 8). A number the spec does not state, by tick. -/
opaque Config.freeNat : Nat → Nat

/-- FREE VALUE (log 9). The facts of R49 about an image whose header layout the spec does not state, by tick: magic correct,
length, key hash equal, signature good, security version, firmware version. -/
opaque Config.imageMagic : Nat → Bool
opaque Config.imageLength : Nat → Nat
opaque Config.imageKey : Nat → Bool
opaque Config.imageSig : Nat → Bool
opaque Config.imageSvn : Nat → Nat
opaque Config.imageVersion : Nat → Nat

/-- FREE VALUE (log 10). The package wrapping key: R456 places it in the configuration record body and does not say where. -/
opaque Config.wrapKey : List Byte → Fin 32 → Byte

/-- FREE VALUE (log 11). Sealing of a digest save record under the tile's context key (R433): tile, record index, counter,
sealed bytes. -/
opaque Config.sealByte : Nat → Nat → Nat → List Byte → Nat → Byte

/-- FREE VALUE (log 12). The reply to an MCTP control or PLDM base request, whose content DSP0236 and DSP0240 fix and the
spec does not (R527, R528), by request byte list. -/
opaque Config.mctpReply : List Byte → Nat → Byte

/-- FREE VALUE (log 12). The length of that reply, and the endpoint ID that a control request assigns, if it does. -/
opaque Config.mctpLen : List Byte → Nat
opaque Config.mctpEid : List Byte → Option Byte

/-- FREE VALUE (log 13). A byte of the Sumen data region that nothing has written (R398), by the core's data tick and the
address. -/
opaque Config.scratchByte : Nat → Nat → Byte

/-- FREE VALUE (log 16). The sign and fraction of a NaN that an operation of a pipeline gives: R177 asks for IEEE 754, which leaves
them open; R178 makes them canonical before a hash or a frame. By the operand bits. -/
opaque Config.nanBits : Nat → Nat → Nat

/-- FREE VALUE (log 23). A Sumen result that the spec does not state: a shift by the width or more, an element number outside the
register, the upper half of a moved binary32. By major opcode and function, and the operands, so that a rerun gives the same (R202). -/
opaque Config.sumenVal : Nat → Nat → Nat → Nat

/-- FREE VALUE (log 25). A byte of a call frame's argument area that belongs to a row that did not pass, or its validity bit: R418
states the elements of the rows that passed. By the block and the offset, so that a rerun gives the same (R202). -/
opaque Config.frameByte : Nat → Nat → Byte

/-- FREE VALUE (log 95). The 16 KiB frame of working SRAM, and the one of the spill tier, in which an operator's page lies: the spec
gives pages no addresses (R247, R253). By query, pipeline, tile and page. -/
opaque Config.pageFrame : Nat → Nat → Nat → Nat → Nat
opaque Config.spillFrame : Nat → Nat → Nat → Nat → Nat

/-- FREE VALUE (log 93). The result of a UDF call that faulted, for a row other than the one whose element faulted (R233): by block,
micro-op and row, so that a rerun gives the same (R202). -/
opaque Config.udfValue : Nat → Nat → Nat → Nat

/-- FREE VALUE (log 32). Whether a quotient that is no whole number is rounded up, where the spec states a mean or an estimate without its
rounding: by numerator and denominator. -/
opaque Config.roundUp : Nat → Nat → Bool

end Sys2Proof
end

