-- ==== Sys2Proof/Machine/Float.lean ====
section
/-! DEFINITION. IEEE 754 binary32 and binary64 (R177, R178, R407): exact results as ratios, rounded to nearest, ties to even, with
subnormals kept; the order of R177; order images; decimal and integer conversions. -/

namespace Sys2Proof.Machine

/-- A binary format: exponent and fraction bits. -/
structure Fmt where
  eb : Nat
  mb : Nat
  deriving DecidableEq, Repr

def fmt32 : Fmt := ⟨8, 23⟩
def fmt64 : Fmt := ⟨11, 52⟩

def fmtOf (dbl : Bool) : Fmt := if dbl then fmt64 else fmt32

def Fmt.width (f : Fmt) : Nat := f.eb + f.mb + 1
def Fmt.bias (f : Fmt) : Nat := 2 ^ (f.eb - 1) - 1
/-- Exponent of the least bit of a subnormal, as a power of two. -/
def Fmt.minExp (f : Fmt) : Int := 1 - (f.bias : Int) - f.mb
def Fmt.infBits (f : Fmt) : Nat := (2 ^ f.eb - 1) * 2 ^ f.mb
/-- The canonical quiet NaN (R178). -/
def Fmt.qnan (f : Fmt) : Nat := f.infBits + 2 ^ (f.mb - 1)
def Fmt.signBit (f : Fmt) : Nat := 2 ^ (f.eb + f.mb)

/-- What a bit pattern stands for: a finite value is ± m × 2^e. -/
inductive FVal where
  | nan
  | inf (neg : Bool)
  | fin (neg : Bool) (m : Nat) (e : Int)
  deriving DecidableEq, Repr

def Fmt.decode (f : Fmt) (b : Nat) : FVal :=
  let neg := b.testBit (f.eb + f.mb)
  let ex := b / 2 ^ f.mb % 2 ^ f.eb
  let fr := b % 2 ^ f.mb
  if ex = 2 ^ f.eb - 1 then (if fr = 0 then .inf neg else .nan)
  else if ex = 0 then .fin neg fr f.minExp
  else .fin neg (2 ^ f.mb + fr) (f.minExp + ex - 1)

/-- Flags of an operation (R407): invalid, division by zero, overflow, underflow, inexact. -/
structure FFlags where
  nv : Bool := false
  dz : Bool := false
  of : Bool := false
  uf : Bool := false
  nx : Bool := false
  deriving DecidableEq, Repr

def Fmt.signed (f : Fmt) (neg : Bool) (b : Nat) : Nat := if neg then b + f.signBit else b

/-- ⌊log2 (n / d)⌋ for n, d > 0. -/
def ratLog2 (n d : Nat) : Int :=
  let e : Int := (Nat.log2 n : Int) - Nat.log2 d
  let ge := if 0 ≤ e then decide (d * 2 ^ e.toNat ≤ n) else decide (d ≤ n * 2 ^ (-e).toNat)
  if ge then e else e - 1

/-- Nearest integer to n / d, ties to even, and whether it is exact. -/
def roundEven (n d : Nat) : Nat × Bool :=
  let q := n / d
  let r := n % d
  (if d < 2 * r ∨ (2 * r = d ∧ q % 2 = 1) then q + 1 else q, r == 0)

/-- Round ± n / d to a format (R177): nearest, ties to even, overflow to infinity. -/
def Fmt.round (f : Fmt) (neg : Bool) (n d : Nat) : Nat × FFlags :=
  if n = 0 then (f.signed neg 0, {}) else
  let e := ratLog2 n d
  let l := max (e - f.mb) f.minExp
  let q := if 0 ≤ l then roundEven n (d * 2 ^ l.toNat) else roundEven (n * 2 ^ (-l).toNat) d
  let b := (l - f.minExp).toNat * 2 ^ f.mb + q.1
  if f.infBits ≤ b then (f.signed neg f.infBits, { of := true, nx := true })
  else (f.signed neg b, { nx := !q.2, uf := !q.2 && decide (b < 2 ^ f.mb) })

/-- A finite value as a signed ratio over a power of two: numerator and denominator. -/
def finRat (m : Nat) (e : Int) : Nat × Nat := if 0 ≤ e then (m * 2 ^ e.toNat, 1) else (m, 2 ^ (-e).toNat)

def finInt (neg : Bool) (m : Nat) (e base : Int) : Int :=
  let v : Int := (m * 2 ^ (e - base).toNat : Nat)
  if neg then -v else v

def Fmt.isNan (f : Fmt) (b : Nat) : Bool := decide (f.decode b = .nan)

/-- A NaN whose quiet bit is clear. -/
def Fmt.isSnan (f : Fmt) (b : Nat) : Bool := f.isNan b && !b.testBit (f.mb - 1)

/-- The result of an operation that gives a NaN: the canonical one; `nv` when an operand signals or the operation is invalid. -/
def Fmt.nanResult (f : Fmt) (nv : Bool) : Nat × FFlags := (f.qnan, { nv := nv })

def Fmt.add (f : Fmt) (a b : Nat) : Nat × FFlags :=
  match f.decode a, f.decode b with
  | .nan, _ => f.nanResult (f.isSnan a || f.isSnan b)
  | _, .nan => f.nanResult (f.isSnan a || f.isSnan b)
  | .inf x, .inf y => if x = y then (f.signed x f.infBits, {}) else f.nanResult true
  | .inf x, _ => (f.signed x f.infBits, {})
  | _, .inf y => (f.signed y f.infBits, {})
  | .fin x m e, .fin y n g =>
    let base := min e g
    let v := finInt x m e base + finInt y n g base
    if v = 0 then (f.signed (x && y) 0, {})
    else
      let r := finRat v.natAbs base
      f.round (decide (v < 0)) r.1 r.2

def Fmt.neg (f : Fmt) (a : Nat) : Nat := if a.testBit (f.eb + f.mb) then a - f.signBit else a + f.signBit

def Fmt.sub (f : Fmt) (a b : Nat) : Nat × FFlags :=
  if f.isNan b then f.nanResult (f.isSnan a || f.isSnan b) else f.add a (f.neg b)

def Fmt.mul (f : Fmt) (a b : Nat) : Nat × FFlags :=
  match f.decode a, f.decode b with
  | .nan, _ => f.nanResult (f.isSnan a || f.isSnan b)
  | _, .nan => f.nanResult (f.isSnan a || f.isSnan b)
  | .inf x, .inf y => (f.signed (x != y) f.infBits, {})
  | .inf x, .fin y n _ => if n = 0 then f.nanResult true else (f.signed (x != y) f.infBits, {})
  | .fin x m _, .inf y => if m = 0 then f.nanResult true else (f.signed (x != y) f.infBits, {})
  | .fin x m e, .fin y n g =>
    let r := finRat (m * n) (e + g)
    f.round (x != y) r.1 r.2

def Fmt.div (f : Fmt) (a b : Nat) : Nat × FFlags :=
  match f.decode a, f.decode b with
  | .nan, _ => f.nanResult (f.isSnan a || f.isSnan b)
  | _, .nan => f.nanResult (f.isSnan a || f.isSnan b)
  | .inf _, .inf _ => f.nanResult true
  | .inf x, .fin y _ _ => (f.signed (x != y) f.infBits, {})
  | .fin x _ _, .inf y => (f.signed (x != y) 0, {})
  | .fin x m e, .fin y n g =>
    if n = 0 then (if m = 0 then f.nanResult true else (f.signed (x != y) f.infBits, { dz := true }))
    else
      let r := finRat m (e - g)
      f.round (x != y) r.1 (r.2 * n)

/-- ⌊√v⌋ by Newton's steps; `fuel` bounds them. -/
def isqrtF : Nat → Nat → Nat → Nat
  | 0, _, x => x
  | fuel + 1, v, x =>
    let y := (x + v / x) / 2
    if y < x then isqrtF fuel v y else x

def isqrt (v : Nat) : Nat := if v = 0 then 0 else isqrtF 256 v (2 ^ (Nat.log2 v / 2 + 1))

def Fmt.sqrt (f : Fmt) (a : Nat) : Nat × FFlags :=
  match f.decode a with
  | .nan => f.nanResult (f.isSnan a)
  | .inf neg => if neg then f.nanResult true else (f.infBits, {})
  | .fin neg m e =>
    if m = 0 then (f.signed neg 0, {})
    else if neg then f.nanResult true
    else
      -- scale so that the root has more than mb + 2 bits; a sticky bit marks an inexact root
      let k := 2 * (f.mb + 4)
      let m2 := if e % 2 = 0 then m * 2 ^ k else 2 * m * 2 ^ k
      let e2 := (if e % 2 = 0 then e else e - 1) - k
      let r := isqrt m2
      let v := 2 * r + (if r * r = m2 then 0 else 1)
      let q := finRat v (e2 / 2 - 1)
      f.round false q.1 q.2

/-! ### Order (R177) -/

/-- The order image of R178. -/
def Fmt.orderImage (f : Fmt) (b : Nat) : Nat :=
  if b.testBit (f.eb + f.mb) then 2 ^ f.width - 1 - b else b + f.signBit

/-- The bits that an order image stands for. -/
def Fmt.ofOrderImage (f : Fmt) (v : Nat) : Nat :=
  if v.testBit (f.eb + f.mb) then v - f.signBit else 2 ^ f.width - 1 - v

/-- The replacements of R178: −0 by +0, every NaN by the canonical one. -/
def Fmt.canon (f : Fmt) (b : Nat) : Nat := if f.isNan b then f.qnan else if b = f.signBit then 0 else b

/-- A key that orders as R177 does. -/
def Fmt.rank (f : Fmt) (b : Nat) : Nat := f.orderImage (f.canon b)

/-- One of two values that compare equal: the same bits, or a zero whose sign the spec leaves open (log 16). -/
def Fmt.tie (a b : Nat) : Nat := if a = b then a else if Config.nanBits a b % 2 = 1 then b else a

/-- One of two operands: the second, the first, or one of them where they compare equal (MIN2 and MAX2 of R197). -/
def Fmt.pick (a b : Nat) (second first : Bool) : Nat := if second then b else if first then a else Fmt.tie a b

/-- The lesser by R177; a NaN loses. -/
def Fmt.min (f : Fmt) (a b : Nat) : Nat × FFlags :=
  let nv := f.isSnan a || f.isSnan b
  (if f.isNan a && f.isNan b then f.qnan
   else if f.rank b < f.rank a then b else if f.rank a < f.rank b then a else Fmt.tie a b, { nv := nv })

/-- The greater by R177; a NaN wins and is canonical. -/
def Fmt.max (f : Fmt) (a b : Nat) : Nat × FFlags :=
  let nv := f.isSnan a || f.isSnan b
  (if f.isNan a || f.isNan b then f.qnan
   else if f.rank a < f.rank b then b else if f.rank b < f.rank a then a else Fmt.tie a b, { nv := nv })

/-! ### Conversions -/

/-- Rounding of a signed ratio to an integer: 0 half away from zero, 1 half to even, 2 toward zero, 3 floor (R196). -/
def roundInt (mode : Nat) (n : Int) (d : Nat) : Int :=
  let q : Int := n / (d : Int)           -- floor
  let r := (n % (d : Int)).toNat
  if r = 0 then q else
  match mode with
  | 0 => if 2 * r < d then q else if d < 2 * r then q + 1 else if 0 ≤ n then q + 1 else q
  | 1 => if 2 * r < d then q else if d < 2 * r then q + 1 else if q % 2 = 0 then q else q + 1
  | 2 => if 0 ≤ n then q else q + 1
  | _ => q

/-- A scaled integer `i` × 10^−s as a float. -/
def Fmt.ofDec (f : Fmt) (i : Int) (s : Nat) : Nat × FFlags := f.round (decide (i < 0)) i.natAbs (10 ^ s)

/-- A finite float × 10^s rounded to an integer; none for an infinity or a NaN. The Boolean says that it is exact. -/
def Fmt.toDec (f : Fmt) (mode : Nat) (b s : Nat) : Option (Int × Bool) :=
  match f.decode b with
  | .fin neg m e =>
    let r := finRat (m * 10 ^ s) e
    let n : Int := if neg then -(r.1 : Int) else r.1
    some (roundInt mode n r.2, decide (n % (r.2 : Int) = 0))
  | _ => none

/-- Conversion between formats. -/
def Fmt.convert (src dst : Fmt) (b : Nat) : Nat × FFlags :=
  match src.decode b with
  | .nan => dst.nanResult (src.isSnan b)
  | .inf neg => (dst.signed neg dst.infBits, {})
  | .fin neg m e =>
    let r := finRat m e
    dst.round neg r.1 r.2

/-- A NaN result of a pipeline stage: its sign and fraction are free (log 16). -/
def Fmt.pipeNan (f : Fmt) (a b : Nat) (r : Nat) : Nat :=
  if f.isNan r then
    f.signed (Config.nanBits a b % 2 == 1) (f.infBits + 1 + Config.nanBits a b / 2 % (2 ^ f.mb - 1))
  else r

end Sys2Proof.Machine
end

