-- ==== Sys2Proof/Machine/State.lean ====
section
/-! DEFINITION. The state of the block as plain data: every register, queue, table, buffer, counter, mode and pin the spec
gives it, and the queue of commands that wait. Sparse tables are lists of (key, value) pairs in rising key order that list no
entry equal to the table's default. -/

namespace Sys2Proof.Machine

/-- A sparse table: keys strictly rising; a key that is not listed holds the table's default. -/
abbrev Tbl (α : Type) := List (Nat × α)

/-- Bytes by address: addresses strictly rising; an unlisted address holds no byte (log 6). -/
abbrev Mem := List Host.Cell

/-! ### Outputs -/

/-- The completion code of a management reply, by the name that the spec gives it (R529, R530); `refused` is a code that the spec leaves
to PLDM. -/
inductive Code where
  | success
  | invalidData
  | notReady
  | retryRequestUpdate
  | refused
  deriving DecidableEq, Repr

/-- What a management reply carries (R527 to R530). -/
inductive Reply where
  | bytes (l : List Byte)
  /-- A sensor reading; none: operational state unavailable (R528). -/
  | reading (v : Option Int)
  deriving DecidableEq, Repr

/-- What the block sends out, in order (the model's own log of its outputs, log 5). -/
inductive Out where
  /-- A DMA write to host memory (R65, R79, R293, R427): port, PASID, address, bytes. -/
  | hostWrite (port : Nat) (pasid : Option Nat) (addr : Nat) (bytes : List Byte)
  /-- An MSI-X message (R82, R543). -/
  | msix (port : Nat) (vector : Nat)
  /-- A CINCH message (R481). -/
  | cinch (src dst op change arg reason epoch seq : Nat)
  /-- A low on the Cinch wire (R484). -/
  | wire (tile : Nat) (ns : Nat)
  /-- A fabric message: type, header, bytes from 16 (R480, R481). -/
  | msg (mtype : Nat) (h : MsgHdr) (body : List Byte)
  /-- A flit of a module (R472). -/
  | flit (tile edge module : Nat) (bytes : List Byte)
  /-- A sideband message of an edge: 0 LINK_DOWN, 1 LINK_PARAMS, 2 CTL (R486, R488, R489). -/
  | sideband (tile edge kind : Nat) (bytes : List Byte)
  /-- A GPF phase request to an expander of a root port (R161). -/
  | gpf (tile expander phase : Nat)
  /-- A STATUS_WORD read of a regulator (R519). -/
  | pmbusStatus (rail : Nat)
  /-- A management reply, by the binding of its request (R527 to R530). -/
  | reply (b : MgmtBinding) (code : Code) (body : Reply)
  /-- Flash bytes written: region start and bytes (R48, R52). -/
  | flash (addr : Nat) (bytes : List Byte)
  deriving DecidableEq, Repr

/-! ### Package-level registers -/

/-- The three parts (R1). -/
inductive Part where
  | zl8 | zl4 | zl2
  deriving DecidableEq, Repr

/-- What manufacture fixed (R1, R6, R49, R368, R542). -/
structure Manufacture where
  part    : Part := .zl8
  grade   : Nat := 0
  step    : Nat := 0
  minSvn  : Nat := 0
  debugEn : Bool := false
  deriving DecidableEq, Repr

/-- Pins and sampled straps (R517, R521, R523, R524, R529). -/
structure Pins where
  pwrok      : Bool := false
  pkgResetN  : Bool := false
  perstN     : List Bool := [false, false, false, false, false, false, false, false]
  thermtripN : Bool := true
  xspiResetN : Bool := false
  dnrstN     : List Bool := [false, false, false, false, false, false, false, false]
  testStrap  : Bool := false
  recStrap   : Bool := false
  smbAddr    : Nat := 0
  boardId    : Nat := 0
  gpioOut    : Nat := 0xFF
  deriving DecidableEq, Repr

/-- Operating modes by code (R34). -/
inductive Mode where
  | cold | dawn | train | ready | service | degraded | dusk | midnight | activate | nightwatch | halt | test
  deriving DecidableEq, Repr, Inhabited

/-- PHASE of DEV_MODE_STATUS (R38). -/
inductive Phase where
  | idle | prepare | commit | resend
  deriving DecidableEq, Repr

/-- Who started a change (R41). -/
inductive Origin where
  | device
  | modeReq
  | strobe
  | feature (c : CmdRef) (order : Nat)   -- the command, and its place in the order of fetch
  | activation
  deriving DecidableEq, Repr

/-- A Cinch change: code and argument of R39, and who required it. -/
structure Change where
  code   : Nat
  arg    : Nat
  origin : Origin
  deriving DecidableEq, Repr

/-- FW_ACTIVATE in progress (R58 to R61). -/
structure Activation where
  c      : CmdRef
  slot   : Nat
  commit : Bool
  restarted : Bool := false
  deriving DecidableEq, Repr

/-- The DEV block and the Cinch master's state (R38 to R46, R62, R363, R494, R505). -/
structure Dev where
  mode        : Mode := .cold
  prev        : Mode := .cold
  was         : Mode := .cold        -- the mode the change in progress leaves
  target      : Nat := 0
  phase       : Phase := .idle
  rrej        : Bool := false
  applied     : Nat := 0
  epoch       : Nat := 0
  refReason   : Nat := 0
  refTile     : Nat := 0
  refEpoch    : Nat := 0
  fenced      : Nat := 0
  master      : Nat := 0
  bootSlot    : Nat := 0
  cfgResult   : Nat := 0
  aFail       : Bool := false
  bFail       : Bool := false
  svn         : Nat := 0
  haltCause   : Nat := 0
  haltTile    : Nat := 0
  hostRole    : Nat := 0
  tbLatch     : List Nat := [0, 0, 0, 0, 0, 0, 0, 0]
  limitW      : Nat := 0
  limitAt     : Option Nat := none  -- LIMIT_W as it stood at the last epoch start (R350)
  epochEnd    : Option Nat := none  -- end of the budget epoch in force, ns; none before the first has started (R343)
  meanW       : Nat := 0
  strobeBusy  : Bool := false
  strobeRefused : Bool := false
  strobeRej   : Bool := false
  strobeReason : Nat := 0
  -- the master's working state
  change      : Option Change := none
  ready       : Nat := 0
  resends     : Nat := 0
  reports     : List (Nat × Nat) := []   -- tiles that have answered APPLIED with their STROBE_SEQ (R46)
  waiting     : List Change := []
  retry       : List Change := []    -- rolled-back changes of the device that wait 10 ms (R41)
  drainTo     : Option Mode := none
  activation  : Option Activation := none
  fwVersion   : Nat := 0
  haltMsg     : Bool := false
  aonDead     : Nat := 0            -- tiles whose supervisor pair or AON state has failed (R54, R63)
  evCopied    : Bool := false       -- the evidence copy of R63 has ended (R522)
  trained     : Bool := false       -- steps 1 to 5 of TRAIN have run (R55)
  perstDue    : Nat := 0            -- ports whose queues are reset at the end of ACTIVATE (R525, R60)
  deriving DecidableEq, Repr

/-- Facts of R49 about a firmware image, and the bytes written to its slot. -/
structure Slot where
  magicOk : Bool := false
  length  : Nat := 0
  keyOk   : Bool := false
  sigOk   : Bool := false
  svn     : Nat := 0
  version : Nat := 0
  bytes   : Mem := []
  deriving DecidableEq, Repr

/-- The flash of R48. -/
structure Flash where
  desc     : List Byte := []         -- the layout descriptor of manufacture
  config   : List (List Byte) := [[], [], []]
  slotA    : Slot := {}
  slotB    : Slot := {}
  recovery : Slot := {}
  evidence : List Byte := []
  deriving DecidableEq, Repr

/-- The configuration in force (R51, R53, R534). -/
structure CfgInForce where
  seq      : Nat := 0
  bootSlot : Nat := 0
  portRole : Nat := 1
  pkgLimit : Nat := 0
  ioSlew   : Nat := 0x55
  gpioOe   : Nat := 0
  portCc   : Nat := 0
  recovery : Bool := true          -- the recovery defaults are in force
  record   : List Byte := []       -- the winning record's bytes
  deriving DecidableEq, Repr

/-- Feature values (R115). -/
structure Features where
  schedWindow : Nat := 100
  schedNext   : Option Nat := none
  retSigEn    : Bool := false
  slIdle      : Nat := 500
  scrubPeriod : Nat := 24
  profile     : Nat := 0
  deriving DecidableEq, Repr

/-- PLDM firmware update (R530). -/
structure Update where
  active    : Bool := false
  written   : Bool := false
  verified  : Bool := false
  slot      : Nat := 0
  lastAt    : Nat := 0               -- timebase value of the update agent's last command
  deriving DecidableEq, Repr

/-- The endpoint IDs that the owner of each binding's bus has assigned (R527). -/
structure Endpoint where
  smbus : Byte := 0
  vdm   : List Byte := [0, 0, 0, 0, 0, 0, 0, 0]
  deriving DecidableEq, Repr

/-! ### Queues and commands -/

/-- A read copy in the prefetch buffer (R73). -/
structure ReadCopy where
  ix    : Nat
  bytes : List Byte
  deriving DecidableEq, Repr

/-- A covered entry that was read with OWN clear, and how often it has been read again (R75). -/
structure Stall where
  ix    : Nat
  reads : Nat := 0
  deriving DecidableEq, Repr

/-- One queue (R68 to R95, R511). -/
structure Queue where
  base       : Nat := 0
  depthLog2  : Nat := 0
  slice      : Nat := 0
  home       : Nat := 0
  port       : Nat := 0
  cls        : Nat := 3
  weight     : Nat := 1
  burst      : Nat := 8
  irqCount   : Nat := 0
  irqTime    : Nat := 0
  vector     : Nat := 0
  enable     : Bool := false
  headIx     : Nat := 0
  headWrap   : Bool := false
  tailIx     : Nat := 0
  tailWrap   : Bool := false
  dbErr      : Bool := false
  ownStall   : Bool := false
  resetBusy  : Bool := false
  resetDone  : Bool := false
  homeLost   : Bool := false
  cfgErrV    : Bool := false
  ringFault  : Bool := false
  cfgErr     : Nat := 0
  gen        : Nat := 1
  staleDrops : Nat := 0
  copies     : List ReadCopy := []
  freshStart : Bool := true       -- the next enable starts at index 0 (R85)
  irqPend    : Nat := 0
  irqStamp   : Nat := 0
  irqTimeEff : Nat := 0           -- Q_IRQ.TIME as the last completion took it (R84)
  turnsLeft  : Nat := 0           -- turns left in the current round (R88)
  restored   : Bool := false      -- enabled by the saved state at thaw (R460)
  stalls     : List Stall := []   -- covered entries read with OWN clear, to be read again (R75)
  deriving DecidableEq, Repr

/-- A Buckle range (R96). -/
structure BRange where
  seg   : Nat
  lo    : Nat
  hi    : Nat
  write : Bool
  deriving DecidableEq, Repr

inductive CmdPhase where
  | fetched      -- taken by arbitration, not started
  | started      -- a state machine or firmware acts on it
  | done         -- its completion is formed and not yet written
  deriving DecidableEq, Repr, Inhabited

/-- A completion as formed (R102): status, detail, error location, the 40 RESULT bytes, the timestamp. -/
structure Completion where
  status : Nat := 0
  detail : Nat := 0
  errloc : Nat := 0
  result : List Byte := []
  tstamp : Nat := 0
  faddr  : Nat := 0               -- host address of a failed host access, for the error record (R332)
  deriving DecidableEq, Repr

/-- A GPF phase outstanding at an expander (R161). -/
structure GpfPhase where
  tile     : Nat
  expander : Nat
  phase    : Nat
  deriving DecidableEq, Repr

/-- A SEG_FLUSH in progress (R161, R162): phases outstanding, segments in scope, expanders that failed (tile, expander), the bytes
drained, and the model's counter at its start. -/
structure Flush where
  phases : List GpfPhase
  segs   : List Nat
  failed : List (Nat × Nat) := []
  snap   : Mem
  began  : Nat
  deriving DecidableEq, Repr

/-- A directory record on its way to persistence (R159): segment, whether the record is removed, the phase that its expander runs,
and the result bytes of the command. -/
structure DirWait where
  segid   : Nat
  removal : Bool
  slot    : Nat
  phase   : GpfPhase
  result  : List Byte
  deriving DecidableEq, Repr

/-- What a started command waits for. -/
inductive Prog where
  | idle
  | fenceHold (orders : List Nat)                -- the target has no ring yet: the FENCE waits for its enable (R133)
  | fenceWait (left : Nat) (orders : List Nat)  -- head entries still to advance; commands to complete, by fetch order (R132)
  | freeWait (segid : Nat)                       -- SEG_FREE (R121)
  | flush (f : Flush)                            -- SEG_FLUSH (R161)
  | dirWait (w : DirWait)                        -- SEG_ALLOC, SEG_FREE: the directory record becomes durable (R159)
  | unloadWait (handle : Nat)                    -- PIPE_UNLOAD (R122)
  | keyWait (slot : Nat)                         -- KEY_LOAD or KEY_CLEAR (R128)
  | keySet (slot alg keyLen : Nat) (k0 wrapped : List Byte)
  | change (old : Nat)                           -- a feature carried by a Cinch change (R115)
  | window (old : Nat)                           -- SCHED_WINDOW (R344)
  | activate                                     -- FW_ACTIVATE (R58)
  | sliceWait (slice : Nat) (drained : Nat)      -- SLICE_FREEZE, SLICE_RESET, SLICE_DESTROY
  | query (qid : Nat)
  | job                                          -- a digest or codec job
  deriving DecidableEq, Repr

/-- Where a command's entries lie: BASE, DEPTH_LOG2 and PORT of its queue when it was fetched (R79, R84). -/
structure RingAt where
  base      : Nat := 0
  depthLog2 : Nat := 0
  port      : Nat := 0
  deriving DecidableEq, Repr

/-- A command in flight (R81). -/
structure Cmd where
  ref      : CmdRef
  wrap     : Bool := false
  entries  : List (List Byte) := []
  home     : Nat := 0
  order    : Nat := 0
  slice    : Nat := 0
  sgen     : Nat := 0
  qgen     : Nat := 0
  cls      : Nat := 0
  ranges   : List BRange := []
  whole    : Bool := false          -- a whole-queue range (R98)
  registered : Bool := true
  phase    : CmdPhase := .fetched
  prog     : Prog := .idle
  lists    : List (List Byte) := []  -- SGLs and fragment lists fetched at check 9 (R110)
  comp     : Completion := {}
  lost     : Bool := false          -- END command of a restored state (R460)
  named    : List Nat := []         -- segments it names, fixed at start (R121)
  held     : List Nat := []         -- segments of its fragments for which it is held at its start (R121)
  goneSegs : List Nat := []         -- segments that were freed since its fetch (R121)
  goneImage : Bool := false         -- its image was removed since its fetch (R122)
  qid      : Nat := 0               -- of a QUERY_RUN: its query identifier, given at fetch (R337)
  ring     : RingAt := {}           -- its queue's ring as fetch found it (R79)
  deriving DecidableEq, Repr

/-! ### Slices, keys, segments -/

inductive SliceState where
  | free | active | frozen | failed
  deriving DecidableEq, Repr, Inhabited

/-- A Slice Table entry with its usage and statistics (R440, R449). -/
structure Slice where
  st       : SliceState := .free
  pasid    : Nat := 0
  gen      : Nat := 0
  qQuota   : Nat := 0
  segQuota : Nat := 0
  keyQuota : Nat := 0
  hbmQuota : Nat := 0
  ddrQuota : Nat := 0
  cxlQuota : Nat := 0
  weight   : Nat := 0
  share    : Nat := 0
  ctxAddr  : Nat := 0
  ctxLen   : Nat := 0
  qUsed    : Nat := 0
  segUsed  : Nat := 0
  hbmUsed  : Nat := 0
  ddrUsed  : Nat := 0
  cxlUsed  : Nat := 0
  keyUsed  : Nat := 0
  cmdDone  : Nat := 0
  cmdFailed : Nat := 0
  stale    : Nat := 0
  morsels  : Nat := 0
  reruns   : Nat := 0
  energyNj : Nat := 0
  noFetch  : Bool := false          -- fetch stopped by freeze, reset or destroy (R451, R453)
  busy     : Option CmdRef := none  -- the slice command that runs on it (R442)
  deriving DecidableEq, Repr

/-- A key slot (R428). -/
structure KeySlot where
  slice   : Nat
  alg     : Nat
  k0      : List Byte
  keyLen  : Nat
  wrapped : List Byte
  deriving DecidableEq, Repr

/-- A Segment Map entry (R147) with the model's record of its allocation. -/
structure Seg where
  base       : Nat := 0
  tiles      : Nat := 0
  length     : Nat := 0
  placement  : Nat := 0
  codec      : Nat := 0
  valid      : Bool := false
  persistent : Bool := false
  dirty      : Bool := false
  fenced     : Bool := false
  poison     : Bool := false
  slice      : Nat := 0
  gen        : Nat := 0
  nframes    : Nat := 0
  fidx       : Nat := 0
  zeroFill   : Bool := false        -- allocated with ZERO_FILL (R146)
  allocTick  : Nat := 0
  charged    : Nat := 0             -- units charged to the owner's quota (R144)
  freeing    : Option CmdRef := none  -- the SEG_FREE that has started (R121)
  ownerPasid : Option Nat := none   -- PASID recorded in the persistent directory (R159)
  flushed    : Nat := 0             -- the model's counter at the start of the last SEG_FLUSH that made it durable (R161)
  deriving DecidableEq, Repr

/-! ### Values, images and queries -/

/-- A value in a PE (R172, R181). -/
inductive Val where
  | null
  | bool (b : Bool)
  | int (i : Int)                    -- integers, decimals at their scale, dates and timestamps
  | f32 (b : BitVec 32)
  | f64 (b : BitVec 64)
  | code (c comp : Nat)              -- dictionary code, with the segment slot of the dictionary
  | desc (d comp : Nat)              -- heap descriptor, with the segment slot of the heap
  | str (bytes : List Byte)          -- string of a parameter or constant (R545)
  deriving DecidableEq, Repr, Inhabited

abbrev Row := List Val

/-- An installed image (R192). -/
structure Image where
  bytes     : List Byte
  slice     : Nat
  tiles     : Nat
  withdrawn : Nat := 0
  unloading : List CmdRef := []     -- commands that wait to remove it (R122)
  deriving DecidableEq, Repr

/-- A comparator after resolution (R218): none runs on strings. -/
inductive Resolved where
  | plain
  | codes (set : List Nat)
  | range (lo hi : Nat)
  | strings
  deriving DecidableEq, Repr

/-- Tally counters with what they hold (R234, R297). -/
abbrev Counts := List (Ctr × Int)

/-- A 16 KiB page of records (R247). -/
structure Page where
  recs    : List (List Byte) := []
  spilled : Bool := false
  stamp   : Nat := 0                 -- rank in the order in which pages were closed
  id      : Nat := 0                 -- rank in the order in which pages were opened
  deriving DecidableEq, Repr

/-- A partition buffer (R247). -/
structure Part_ where
  part   : Nat
  tile   : Nat
  closed : List Page := []
  open_  : Option Page := none
  deriving DecidableEq, Repr

/-- Receive counts of R250 for one sending PE, morsel and attempt on one tile. -/
structure XrCount where
  tile    : Nat
  pe      : Nat
  morsel  : Nat
  attempt : Nat
  cnt     : Nat := 0
  xor     : BitVec 64 := 0
  unacked : Nat := 0
  deriving DecidableEq, Repr

/-- A hash bucket (R253): the entries in use as (TAG, ROW), and NEXT while OVF is set. -/
structure Bucket where
  entries : List (Nat × Nat) := []
  next    : Option Nat := none
  deriving DecidableEq, Repr, Inhabited

/-- The table of a BUILD, AGGREGATE or WINDOW on one tile (R253 to R256): its buckets by index, its overflow buckets, and the bytes of
row-store pages that its records reach. -/
structure HashTable where
  tile    : Nat
  buckets : Tbl Bucket := []
  extra   : List Bucket := []
  fill    : Nat := 0
  deriving DecidableEq, Repr

/-- A row-store record of a BUILD (R254): ROW, HASH, NEXTDUP, key image, key and payload columns, inserting morsel and attempt. -/
structure BuildRow where
  tile    : Nat
  row     : Nat
  hash    : BitVec 64
  next    : Option Nat := none
  key     : List Byte
  keys    : Row
  pay     : Row
  morsel  : Nat
  attempt : Nat
  deriving DecidableEq, Repr

/-- The state of one aggregate function in a group (R264, R546). -/
structure AggState where
  cnt  : Nat := 0
  sum  : Int := 0
  res  : Nat := 0
  fsum : BitVec 64 := 0
  val  : Val := .null
  seen : Bool := false
  distinct : List (Nat × List Byte) := []   -- distinct entries: ROW and value bytes
  deriving DecidableEq, Repr

/-- One group of an aggregate or window table (R254, R263, R286). -/
structure Group where
  tile   : Nat
  row    : Nat := 0
  key    : List Byte
  keys   : Row
  states : List AggState
  deriving DecidableEq, Repr

/-- A key record with its row-store record (R272, R276): normalized key, ROW, columns, and the morsel that inserted it. -/
structure SortRec where
  nkey    : List Byte
  row     : Nat := 0
  cols    : Row
  morsel  : Nat
  attempt : Nat
  deriving DecidableEq, Repr

/-- A run of a run group (R277): the group is a partition or a tile. -/
structure SRun where
  tile  : Nat
  group : Nat
  recs  : List SortRec
  deriving DecidableEq, Repr

/-- The verified rows of one morsel that wait for their commit (R289). -/
structure EmitReady where
  seq    : Nat
  morsel : Nat
  tile   : Nat
  rows   : List Row
  begun  : Bool := false               -- its commit has begun: LIMIT has been applied (R291)
  deriving DecidableEq, Repr

/-- A failure found in a morsel (R231). -/
structure Fail where
  status : Nat
  detail : Nat
  pipe   : Nat
  op     : Nat
  morsel : Nat
  time   : Nat
  off    : Nat := 0                    -- of a failed host access: the offset in the result stream (R111)
  addr   : Nat := 0                    -- the host address of that access, for the error record (R332)
  segid  : Nat := 0                    -- the segment of a frame that failed its checks, for the error record
  deriving DecidableEq, Repr

/-- A morsel to post or posted: tile, morsel number, sequence number (R282, R338). -/
structure MorselAt where
  tile   : Nat
  morsel : Nat
  seq    : Nat
  part   : Nat := 0                  -- partition or run group read
  first  : Nat := 0                  -- first record of the morsel within it
  count  : Nat := 0
  deriving DecidableEq, Repr

/-- One pipeline of a running query. -/
structure PipeState where
  released  : Bool := false
  planned   : Bool := false
  morsels   : List MorselAt := []
  verified  : List (Nat × Nat) := []   -- (morsel, verified attempt) (R249)
  -- sinks
  parts     : List Part_ := []
  closes    : Nat := 0                 -- pages closed so far
  opened    : Nat := 0                 -- pages opened so far
  tables    : List HashTable := []
  voidRows  : List (Nat × Nat) := []   -- void row-store records of a SORT or TOPK: tile and ROW (R277)
  xr        : List XrCount := []
  build     : List BuildRow := []
  buildNull : List (Nat × Nat) := []   -- (morsel, attempt) that met a null key (R258)
  groups    : List Group := []
  ran       : List Nat := []           -- tiles on which a token ran (R270)
  runs      : List SRun := []
  mergeFails : List (Nat × Nat × Nat) := []  -- run groups (tile, group) whose pass has failed, and how often (R278)
  fixed     : Bool := false            -- the reading order of its groups is fixed (R269)
  ready     : List EmitReady := []
  nextSeq   : Nat := 0                 -- base of an EMIT's commits in order (R289)
  sentBase  : Nat := 0                 -- base last sent to the tiles (R342)
  taken     : Nat := 0                 -- rows taken by commits (R291)
  carry     : List Row := []
  deriving DecidableEq, Repr

/-- A token entry (R337). -/
structure Token where
  qid     : Nat
  home    : Nat
  pipe    : Nat
  morsels : List MorselAt               -- remaining morsels, lowest first
  slice   : Nat
  sgen    : Nat
  qgen    : Nat
  prio    : Nat
  order   : Nat
  eclass  : Nat
  attempt : Nat := 0
  target  : Nat := 0xFF
  age     : Nat := 0
  barrier : Bool := false
  skipped : Bool := false               -- skipped for energy in this window
  dispatched : Bool := false            -- dispatched in this window
  used    : List Nat := []              -- global PEs of earlier attempts (R321)
  deriving DecidableEq, Repr

/-- A running QUERY_RUN (R123 to R124, R337). -/
structure Query where
  qid     : Nat
  c       : CmdRef
  home    : Nat
  handle  : Nat
  image   : List Byte
  slice   : Nat
  sgen    : Nat
  qgen    : Nat
  prio    : Nat
  segs    : List Nat
  params  : List Byte
  frames  : List Nat                   -- NFRAMES of each bound segment at start (R210)
  sets    : List Nat                   -- tile set of each pipeline's sink (R544)
  masks   : List Nat                   -- effective mask of each pipeline's EXCHANGE (R243)
  resolved : List (List Resolved)      -- per pipeline, per comparator (R218)
  pipes   : List PipeState
  charged : List (Nat × Nat × Nat)     -- spill bytes charged: tile, tier, bytes (R248)
  sram    : List Nat                   -- bytes of working SRAM reserved per tile (R248)
  ringAddr : Nat
  ringLen  : Nat
  prod    : Nat := 0
  cons    : Nat := 0                   -- CONS as last read (R295)
  consWait : Option (Nat × Nat) := none  -- a batch waits for CONS: pipeline and sequence (R295)
  rowsOut : Nat := 0
  skipped : Nat := 0
  morsels : Nat := 0
  reruns  : Nat := 0
  toPost  : List (Nat × Token) := []   -- tokens to post, by tile (R338)
  fails   : List Fail := []
  failing : Bool := false
  results : List Nat := []             -- its result segments (R94)
  deriving DecidableEq, Repr

/-- The result of one UDF call for one block (R419). -/
structure UdfResult where
  block : Nat
  uop   : Nat
  vals  : List Val
  fault : Option (Nat × Nat)            -- cause and row
  deriving DecidableEq, Repr

/-- A morsel on a PE (R337, R352). -/
structure Run where
  qid     : Nat
  pipe    : Nat
  at_     : MorselAt
  slice   : Nat
  sgen    : Nat
  qgen    : Nat
  attempt : Nat
  prio    : Nat
  order   : Nat
  eclass  : Nat
  est     : Nat
  first   : Nat                          -- first estimate H in pJ
  used    : List Nat := []               -- global PEs of earlier attempts (R321)
  udf     : List UdfResult := []
  calls   : List (Nat × Nat) := []       -- (block, uop) in flight
  acked   : List (Nat × Nat) := []       -- (tile, acknowledged records) (R483)
  tallies : List (Nat × Nat × BitVec 64) := []  -- (tile, XR_CNT, XR_XOR) received
  xs      : Option (List (Nat × Nat × BitVec 64)) := none  -- (tile, XS_CNT, XS_XOR), once its records have been sent (R250)
  counts  : Counts := []                 -- its other tallies at that time
  deriving DecidableEq, Repr

/-! ### Sumen cores -/

/-- A UDF call (R417 to R419). -/
structure Call where
  pe      : Gpe
  qid     : Nat
  handle  : Nat
  block   : Nat
  uop     : Nat
  udf     : Nat
  rows    : Nat                             -- rows present in the block
  select  : Nat                             -- bit r: row r passed
  nargs   : Nat
  entry   : Nat                             -- entry address of the code (R397)
  frame   : Mem := []                       -- the call frame's bytes that are not zero (R418)
  strings : List Byte := []                 -- the string window, from its first address
  deriving DecidableEq, Repr

/-- A Sumen core (R395, R396). -/
structure Core where
  x       : Vector Word64 32 := Vector.replicate 32 0
  v       : Vector (BitVec 2048) 32 := Vector.replicate 32 0
  pc      : Word64 := 0
  fxcsr   : Word64 := 0
  vact    : Nat := 0
  vshape  : Nat := 0
  vresume : Word64 := 0
  rowbase : Word64 := 0
  vrem    : Nat := 0
  frame   : Mem := []
  data    : Mem := []
  call    : Option Call := none
  code    : Option Nat := none            -- handle whose code the region holds (R397)
  lines   : List Nat := []                -- resident window-cache lines (R398)
  miss    : Option Nat := none            -- line being filled (R411)
  queue   : List Call := []               -- calls queued to a Sumen-L core (R233)
  faults  : Nat := 0
  wmiss   : Nat := 0
  eccHits : Nat := 0
  idleAt  : Nat := 0
  dataTick : Nat := 0
  dataZero : Bool := false                -- its scratch has been zeroed since (R381)
  deriving DecidableEq, Repr

/-! ### Engines -/

inductive LaneState where
  | idle | hashing | saving | restoring
  deriving DecidableEq, Repr, Inhabited

/-- A digest job (R429, R432). -/
structure Job where
  c       : Option CmdRef                  -- none for a register-view job
  cls     : Nat
  slice   : Nat
  sgen    : Nat
  qgen    : Nat
  hmac    : Bool
  alg     : Nat
  slot    : Nat
  msgLen  : Nat
  frags   : List (Nat × Nat × Nat)         -- address, length, segment (R424)
  out     : Nat
  done    : Nat := 0
  base    : Nat := 0                       -- message bytes hashed when it last took a lane (R430)
  preempt : Nat := 0
  saved   : Bool := false
  record  : Option Nat := none
  chain   : List Byte := []
  deriving DecidableEq, Repr

structure Lane where
  st   : LaneState := .idle
  job  : Option Job := none
  next : Option Job := none                -- the job that takes the lane after the save (R430)
  deriving DecidableEq, Repr

/-- The digest engine (R422 to R439). -/
structure Digest where
  lanes    : List Lane := [{}, {}, {}, {}, {}, {}, {}, {}]
  waiting  : List Job := []
  records  : List (Nat × Nat) := []        -- (slice, record) in use
  ivCount  : Nat := 0
  preempts : Nat := 0
  viewHmac : Bool := false
  viewSlot : Nat := 0
  viewDesc : Nat := 0
  viewBusy : Bool := false
  viewDone : Bool := false
  early    : Bool := false
  viewCode : Nat := 0
  viewOut  : List Byte := []
  deriving DecidableEq, Repr

/-- A codec job: COMPRESS or DECOMPRESS (R313 to R319), or an Emit commit of a query whose command `c` is (R290, R318). -/
structure CodecJob where
  c         : CmdRef
  enc       : Bool
  inVals    : Nat := 0
  inBytes   : Nat := 0
  outBytes  : Nat := 0                      -- totals, the CONT fields included
  outHere   : Nat := 0                      -- bytes written to this command's destination
  frames    : Nat := 0
  nframes   : Nat := 0                      -- frames of a PFC source at start
  at_       : Option Nat := none            -- the frame of a PFC source that comes next, once one has been read
  emit      : Option (Nat × Nat) := none    -- QID and pipeline of an Emit commit that this job is (R318)
  miss      : Nat := 0                      -- mismatches of the check decoder on the current frame (R312)
  deriving DecidableEq, Repr

/-! ### Power domains and monitors -/

inductive DomState where
  | off | ret | on
  deriving DecidableEq, Repr, Inhabited

inductive DomPhase where
  | stable | entering | waking | retryWait | failed
  deriving DecidableEq, Repr, Inhabited

/-- One power domain (R366 to R381, R391, R392). -/
structure Dom where
  st       : DomState := .off
  phase    : DomPhase := .stable
  votes    : List Nat := [0, 0, 0, 0, 0, 0, 0, 0]
  idleOff  : Bool := false
  dbgHold  : Bool := false
  wakeFail : Bool := false
  retLost  : Bool := false
  pending  : List Nat := []                  -- strobe groups latched (R46)
  refuser  : Nat := 0
  entered  : Bool := false                   -- an entry has ended and no wake has begun since (R375)
  ramping  : Bool := false
  tries    : Nat := 0                        -- failed wake attempts
  sigTaken : Bool := false
  lastReason : Nat := 0
  refused  : Nat := 0
  aborted  : Nat := 0
  lateWakes : Nat := 0
  wakes    : Nat := 0
  retries  : Nat := 0
  failStep : Nat := 0
  lostCnt  : Nat := 0
  deriving DecidableEq, Repr

/-- A reading with its VALID bit (R392). -/
structure Reading where
  value : Int := 0
  valid : Bool := false
  deriving DecidableEq, Repr

/-- The MON block and the throttle (R383 to R387, R392). -/
structure Mon where
  thrFreq  : Nat := 0x0C
  thrEn    : Bool := true
  alertEn  : Bool := true
  avgMs    : Nat := 1
  thrHi    : Int := 0x0320
  thrLo    : Int := 0x02F8
  alertT   : Int := 0x0348
  throttle : Bool := false
  alert    : Bool := false
  trip     : Bool := false
  tjSensor : Nat := 0
  tjMax    : Int := 0
  sampleAt : Nat := 0
  droopLvl : Nat := 3
  droopEn  : Bool := true
  avgTj    : Int := 0
  temps    : List Reading := List.replicate 24 {}
  supply   : List Reading := List.replicate 8 {}
  proc     : List Reading := List.replicate 16 {}
  hbm      : Int := 0
  droops   : List Nat := List.replicate 32 0
  stretched : List Bool := List.replicate 32 false
  winSum   : Int := 0                        -- sum and count of TJ_MAX in the averaging window
  winCnt   : Nat := 0
  winAt    : Nat := 0                        -- number of that window
  winCool  : Bool := true                    -- every valid sample of the window below THR_LO
  tripped  : List Bool := List.replicate 24 false  -- sensor at trip level in its last sample
  clock    : Nat := 0                        -- throttle clock in force, 0.1 GHz; 0 none
  deriving DecidableEq, Repr

/-! ### Links -/

/-- A DATA flit that waits for its acknowledgement: SEQ, FOFF, payload, and the message it carries (R475, R478). -/
structure Sent where
  seq     : Nat
  foff    : Nat
  payload : List Byte
  message : List Byte
  deriving DecidableEq, Repr

/-- One module of an edge (R472 to R479). -/
structure Module where
  active   : Bool := false
  nextSeq  : Nat := 0
  training : Bool := false                   -- a retrain is in progress (R477)
  replay   : List Sent := []                 -- unacknowledged flits, oldest first (R475)
  lastAck  : Nat := 0xFF                     -- SEQ of the last DATA flit accepted (R476)
  nakSent  : Bool := false
  partial_ : List Byte := []                 -- message bytes received so far (R474)
  skip     : Bool := false                   -- skip to the next flit with FOFF (R482)
  credits  : List Nat := [0, 0, 0, 0, 0]
  lastCcnt : List Nat := [0, 0, 0, 0, 0]
  freed    : List Nat := [0, 0, 0, 0, 0]     -- credit units reported as freed, running (R479)
  owed     : List Nat := [0, 0, 0, 0, 0]     -- units freed and not yet reported
  vcNext   : Nat := 0                        -- VC reported by the next flit (R479)
  sends    : Nat := 0                        -- times the oldest flit has been sent
  retrains : Nat := 0                        -- in this verification window
  failed   : Nat := 0                        -- failed retrains in a row
  doomed   : Bool := false                   -- it is to be disabled (R477)
  deriving DecidableEq, Repr

inductive EdgeState where
  | disabled | boot | training | active | retrain | l1 | down | fenced
  deriving DecidableEq, Repr, Inhabited

/-- One Stirrup edge (R492). -/
structure Edge where
  st       : EdgeState := .disabled
  modules  : Vector Module 6 := Vector.replicate 6 {}
  partner  : Nat := 0
  kind     : Nat := 0
  rate     : Nat := 0
  crc      : Nat := 0
  replay   : Nat := 0
  retrain  : Nat := 0
  drop     : Nat := 0
  sleeping : Bool := false                   -- SLEEP_REQ sent, no answer yet
  held     : List (Nat × List Byte) := []    -- messages held for the edge: VC and bytes
  rr       : Nat := 0                        -- of REQ, RSP and XCHG, the VC served next (R466)
  cred     : List Nat := [64, 128, 128, 16, 8]  -- credits that the partner advertises (R479, R486)
  stopped  : Bool := false                   -- new messages held while a module is being disabled (R478)
  deriving DecidableEq, Repr

/-- A FAB_ROUTE entry (R492). -/
structure Route where
  edge   : Nat := 0
  local_ : Bool := false
  none_  : Bool := false
  updown : Bool := false
  deriving DecidableEq, Repr

/-- An outstanding request (R481, R490). -/
structure Pending where
  agent : Nat
  dst   : Nat
  tag   : Nat
  mtype : Nat
  c     : Option CmdRef
  order : Nat := 0                     -- place of the command in the order of fetch
  pe    : Option Gpe
  deriving DecidableEq, Repr

/-- A CTL message that waits for its effect and may be sent again (R490). -/
structure CtlPending where
  tag   : Nat
  dst   : Nat
  mtype : Nat
  h     : MsgHdr
  body  : List Byte
  tries : Nat := 0
  deriving DecidableEq, Repr

/-! ### Registers -/

/-- A buffered write (R500): register offset within the block and value. -/
structure BufWrite where
  port  : Nat
  off   : Nat
  value : Word32
  deriving DecidableEq, Repr

/-- The write path of one block (R497 to R501). -/
structure Block where
  applyMode : Bool := false
  group     : Nat := 0
  wdrop     : Bool := false
  buffer    : List BufWrite := []
  deriving DecidableEq, Repr

/-! ### One tile -/

/-- An error record (R332). -/
structure ErrRec where
  tstamp  : Nat
  seq     : Nat
  event   : Nat
  sev     : Nat
  tile    : Nat
  kind    : Nat := 0
  index   : Nat := 0
  slice   : Nat := 0xFFFF
  queue   : Nat := 0xFFFF
  cid     : Nat := 0
  segid   : Nat := 0
  morsel  : Nat := 0xFFFFFFFF
  addr    : Nat := 0
  status  : Nat := 0
  attempt : Nat := 0
  pipe    : Nat := 0xFF
  data    : List Byte := []
  deriving DecidableEq, Repr

/-- Fields of ERR_FENCE (R336). -/
structure FenceBits where
  pe      : Nat := 0
  sl      : Nat := 0
  sort    : Bool := false
  codec   : Bool := false
  digest  : Bool := false
  hbm     : Bool := false
  ddr     : Nat := 0
  cxl     : Bool := false
  host    : Bool := false
  stirrup : Nat := 0
  funcs   : List Nat := []                   -- domains whose function a wake failure ended (R379); not a field of ERR_FENCE
  deriving DecidableEq, Repr

/-- The ERR block, its ring and its counters (R322, R328, R332 to R336). -/
structure Err where
  irqSev  : Nat := 3
  irqEn   : Bool := false
  vector  : Nat := 0
  alertEn : Bool := true
  pending : Bool := false
  alert   : Bool := false
  overrun : Nat := 0
  lastSeq : Nat := 0
  ring    : List ErrRec := []                -- oldest first, at most 1,024
  fence   : FenceBits := {}
  counts  : List (Nat × Nat × Nat × Nat) := []  -- kind, index, event, further events of the coalescing window (R334)
  peMiss  : List Nat := List.replicate 16 0  -- mismatches in the verification window (R322)
  verifyAt : Nat := 0                        -- number of the verification window that the counts are of (R322)
  coalAt  : Nat := 0                         -- number of the coalescing window that the counts are of (R334)
  badWord : Tbl Nat := []                    -- bank → first bad word of the window, plus 1 (R328)
  retired : List Nat := []                   -- retired working SRAM banks
  deriving DecidableEq, Repr

/-- A scheduling trace record (R362). -/
structure Trace where
  tstamp  : Nat
  type    : Nat
  reason  : Nat := 0
  pe      : Nat := 0xFF
  prio    : Nat := 0
  age     : Nat := 0
  attempt : Nat := 0
  eclass  : Nat := 0
  tile    : Nat := 0
  qid     : Nat := 0
  slice   : Nat := 0xFFFF
  pipe    : Nat := 0xFF
  seq     : Nat := 0
  est     : Nat := 0
  credit  : Int := 0
  deriving DecidableEq, Repr

/-- An offer of another tile (R356, R357). -/
structure Offer where
  tile   : Nat
  level  : Nat
  tj     : Int
  credit : Int
  est    : Nat
  deriving DecidableEq, Repr

/-- A steal request outstanding: TAG, offering tile, reserved local PE, debited estimate (R357). -/
structure Steal where
  tag  : Nat
  tile : Nat
  pe   : Nat
  est  : Nat
  deriving DecidableEq, Repr

/-- The scheduler (R337 to R363). -/
structure Sched where
  tokens   : List Token := []
  stealEn  : Bool := true
  traceEn  : Bool := true
  mask     : Nat := 0x07FE
  ethrottle : Bool := false
  profile  : Nat := 0
  peFreq   : Nat := 0x12
  credit   : Int := 0
  budgetMw : Nat := 0
  nextMw   : Option Nat := none
  windowUs : Nat := 100
  refill   : Nat := 0
  used     : Tbl Nat := []                   -- slice_used (R352)
  shares   : Nat := 0                        -- S of R353
  turns    : Tbl Nat := []                   -- level × 1,024 + slice → dispatches taken in the level's round (R352)
  ratio    : Tbl Nat := []                   -- handle × 32 + pipeline → RATIO, 8.8
  cm       : List Nat := [1000, 2000, 4000, 8000, 16000, 32000, 64000, 128000]  -- nJ
  trace    : List Trace := []                -- oldest first, at most 65,536
  traceCnt : Nat := 0
  offers   : List Offer := []
  steals   : List Steal := []
  offered  : Option Nat := none              -- level this tile offers
  skipWin  : Bool := false                   -- an energy skip in this window
  idleWin  : List Nat := []                  -- local PEs busy since the window started
  energyNj : Nat := 0                        -- cumulative tile energy (R130)
  epochNj  : Nat := 0                        -- energy of the current epoch
  meanMw   : Nat := 0                        -- mean tile power over the last completed epoch
  bases    : Tbl Nat := []                   -- QID × 32 + pipeline → base last received (R342)
  windowEnd : Option Nat := none             -- end of the scheduler window in force, ns; none before the first has started (R343)
  otherIn  : Bool := false                   -- the energy not charged to morsels has been taken off its refill (R345)
  deriving DecidableEq, Repr

/-- A CXL expander as TRAIN mapped it into the tile's CXL tier (R139): the ranges of its volatile and persistent capacity. -/
structure Expander where
  volAt  : Nat
  volB   : Nat
  persAt : Nat
  persB  : Nat
  deriving DecidableEq, Repr, Inhabited

/-- The patrol scrub of one unit (R165, R166): when the period of its pass began, and the first byte that the pass has not read. -/
structure Scrub where
  began  : Nat := 0
  next   : Nat := 0
  deriving DecidableEq, Repr, Inhabited

/-- One tile. -/
structure Tile where
  mode       : Mode := .cold
  prepared   : Option (Nat × Nat × Nat) := none  -- change, argument, epoch
  answered   : Bool := false                     -- READY sent for the prepared change
  taken      : Option (Nat × Nat) := none        -- change and epoch applied last
  lastEpoch  : Nat := 0
  timeouts   : Nat := 0
  strobeSeq  : Nat := 0
  spurious   : Nat := 0
  wire       : Bool := true
  heldGroup  : Option Nat := none               -- strobe group held between READY and APPLIED (R504)
  history    : List (Nat × Nat × Nat × Nat) := []   -- last 64 Cinch messages: op, change, arg, epoch
  evidence   : Option (List Byte) := none
  linkUp     : Bool := false
  ddr0Gib    : Nat := 0
  ddr1Gib    : Nat := 0
  cxl        : List Expander := []              -- the expanders behind its root port, as TRAIN mapped them (R139)
  scrub      : List Scrub := [{}, {}, {}, {}]   -- of HBM, DDR5, working SRAM, staging buffer (R165)
  err        : Err := {}
  sched      : Sched := {}
  runs       : Vector (Option Run) 16 := Vector.replicate 16 none
  tally      : List Counts := List.replicate 16 []   -- each PE's tally counters: cleared at a morsel's start, kept from its end (R234)
  sortTally  : Counts := []                      -- the counters of the last merge pass of its sort unit (R297)
  small      : Vector Core 16 := Vector.replicate 16 {}
  large      : Vector Core 4 := Vector.replicate 4 {}
  digest     : Digest := {}
  codec      : List CodecJob := []
  staging    : Mem := []
  doms       : Vector Dom 56 := Vector.replicate 56 {}
  maxRamps   : Nat := 4
  mon        : Mon := {}
  edges      : Vector Edge 4 := Vector.replicate 4 {}
  route      : List Route := List.replicate 8 {}
  routeNext  : List Route := List.replicate 8 {}
  reqs       : List Pending := []
  ctl        : List CtlPending := []
  seenCtl    : List (Nat × Nat × Nat) := []     -- (source, type, tag) acted on (R490)
  portHeld   : List (Nat × List Byte) := []     -- traffic held at a mesh port: domain and message (R367)
  relays     : Bool := true                     -- its mesh and Girth still carry transit traffic (R464, R469)
  image      : Mem := []                        -- the firmware image that boot mode has brought (R487)
  wgtShadow  : List Nat := [0x10, 4, 1]
  wgt        : List Nat := [0x10, 4, 1]
  classLeft  : List Nat := [0, 0, 0]            -- turns left of HIGH, MEDIUM, LOW in the class round (R88)
  mapScrub   : Nat := 0                         -- next entry of the Segment Map scrub (R167)
  mapPeriod  : Option Nat := none               -- the 10 s period of the scrub's last pass that began (R167)
  sramPoison : List Nat := []                   -- poisoned 64 B lines of its working SRAM, rising (R329)
  keyHoles   : List Nat := []                   -- key slots that this tile's key store has lost (R381)
  msixMask   : List Nat := []                   -- masked vectors of its port's MSI-X table (R83)
  msixPend   : List Nat := []                   -- vectors whose pending bit is set (R83)
  deriving DecidableEq, Repr

/-- A Nightwatch threshold entry (R390, R513). -/
structure NwThr where
  en      : Bool := false
  src     : Nat := 0
  index   : Nat := 0
  tile    : Nat := 0
  below   : Bool := false
  persist : Nat := 1
  action  : Nat := 0
  level   : Nat := 0
  held    : Nat := 0                            -- consecutive periods its condition has held
  deriving DecidableEq, Repr

/-- The NW block (R513). -/
structure Nw where
  periodMs : Nat := 0x03E8
  alert    : Bool := false
  exited   : Bool := false
  cause    : Nat := 0
  periods  : Nat := 0
  thr      : List NwThr := List.replicate 16 {}
  deriving DecidableEq, Repr

/-- What tile 0 last read from a rail's regulator: READ_VOUT in mV, READ_IOUT in mA and STATUS_WORD (R347, R519). -/
structure Rail where
  mv     : Nat := 0
  ma     : Nat := 0
  status : Nat := 0
  deriving DecidableEq, Repr

/-! ### The whole block -/

structure State where
  pending  : List Instr := []
  man      : Manufacture := {}
  pins     : Pins := {}
  now      : Nat := 0
  tick     : Nat := 0
  out      : List Out := []
  dev      : Dev := {}
  flash    : Flash := {}
  cfg      : CfgInForce := {}
  feat     : Features := {}
  update   : Update := {}
  eid      : Endpoint := {}
  nw       : Nw := {}
  slcSel   : Nat := 0
  tiles    : Vector Tile 8 := Vector.replicate 8 {}
  queues   : Tbl Queue := []
  cmds     : List Cmd := []
  order    : Nat := 0                            -- commands fetched so far
  slices   : Tbl Slice := []
  keys     : Tbl (Option KeySlot) := []
  segs     : Tbl Seg := []
  segGen   : Tbl Nat := []
  mapCopies : Tbl (List Byte) := []              -- copies of Segment Map entries that differ from the package's content (R148):
                                                 -- by (tile × 3 + copy) × 2^18 + ID
  stuck    : List (Nat × Nat × Nat) := []        -- (tile and tier, first unit, units) kept reserved (R150)
  mem      : Mem := []
  durable  : Mem := []                           -- bytes of persistent segments that a SEG_FLUSH has covered (R161)
  poison   : List Nat := []                      -- poisoned 64 B units, by store address ÷ 64, rising
  dseq     : Nat := 0
  images   : Tbl (Option Image) := []
  queries  : List Query := []
  qidNext  : Nat := 0
  blocks   : Tbl Block := []                     -- register blocks by BAR0 address ÷ 0x4000
  rails    : Tbl Rail := []                      -- by rail number (R518)
  otherMw  : Nat := 0                            -- mean HBM, fabric and I/O power (R350)
  deriving DecidableEq, Repr

/-- Reasons the machine stops. The model has none: every command completes, so the type is empty of constructors but for the
one that no meaning raises. -/
inductive Fault where
  /-- Raised by nothing: the spec gives every event of the table an effect. Safe. -/
  | never
  deriving DecidableEq, Repr

/-- Reasons a command has no meaning. -/
inductive Refusal where
  /-- Raised by an arm of exec whose command is not modelled. Safe: the run stops. -/
  | notModelled (mnemonic : String)
  deriving DecidableEq, Repr

/-- Domains whose idle state is OFF at reset (R364, register PD_DOM_CFG). -/
def resetIdleOff (d : Nat) : Bool := [36, 37, 38, 39, 43, 44, 54, 55].contains d

/-- A configuration record that says what the recovery defaults say (R51, R53, R534): tile 0 in the host role, slot A, a limit. -/
def plainRecord (limit : Nat) : List Byte :=
  let head := leBytes 4 0x5A434647 ++ leBytes 4 0 ++ leBytes 4 68
  let rest := [0, 1] ++ leBytes 2 limit ++ List.replicate 44 0 ++ [0x55, 0, 0, 0]
  head ++ leBytes 4 (crc32c (head ++ rest)) ++ rest

/-- The configuration record that the flash holds at reset (log 7). -/
def resetRecord : List Byte := plainRecord 300

/-- A valid firmware image (log 7). -/
def resetSlot : Slot := { magicOk := true, length := 16777216, keyOk := true, sigOk := true }

def resetTile : Tile := { doms := vecOf fun d : Fin 56 => { idleOff := resetIdleOff d.val } }

/-- The machine right after reset: COLD, with the inputs low (R36, R521), every register at its reset value, no command waiting,
memory with nothing listed, slice 0 active with generation 1 (R446), and a flash written at manufacture (log 7). -/
def State.reset : State :=
  { tiles := Vector.replicate 8 resetTile
    slices := [(0, { st := .active, gen := 1, weight := 255 })]
    flash := { config := [resetRecord, resetRecord, resetRecord], slotA := resetSlot, recovery := resetSlot } }

end Sys2Proof.Machine
end

