-- ==== Sys2Proof/Machine/Values.lean ====
section
/-! DEFINITION. The data model of the pipelines: types (R172), three-valued logic (R174), orders (R175, R177, R180), fitting
(R199), dates (R179), CAST (R203), key images and hashes (R238, R239), record columns (R245) and sort keys (R272). -/

namespace Sys2Proof.Machine

/-- A value type with the precision, scale, nullability and string form that go with it. -/
structure Ty where
  code : Nat
  p    : Nat := 0
  s    : Nat := 0
  nullable : Bool := false
  heap : Bool := false
  comp : Nat := 0xFF
  deriving DecidableEq, Repr, Inhabited

def tyBool : Nat := 0x01
def tyI32 : Nat := 0x04
def tyI64 : Nat := 0x05
def tyDec64 : Nat := 0x0A
def tyDec128 : Nat := 0x0B
def tyF32 : Nat := 0x0C
def tyF64 : Nat := 0x0D
def tyDate : Nat := 0x0E
def tyTime : Nat := 0x0F
def tyStr : Nat := 0x10

def Ty.isInt (t : Ty) : Bool := decide (2 ≤ t.code ∧ t.code ≤ 9)
def Ty.isDec (t : Ty) : Bool := t.code == tyDec64 || t.code == tyDec128
def Ty.isFloat (t : Ty) : Bool := t.code == tyF32 || t.code == tyF64
def Ty.isNum (t : Ty) : Bool := t.isInt || t.isDec
def Ty.isStr (t : Ty) : Bool := t.code == tyStr

/-- Type, precision and scale agree. -/
def Ty.same (a b : Ty) : Bool := a.code == b.code && a.p == b.p && a.s == b.s

/-- A defined type with allowed precision and scale (R172). -/
def Ty.valid (t : Ty) : Bool :=
  if t.code = tyDec64 then decide (1 ≤ t.p ∧ t.p ≤ 18 ∧ t.s ≤ t.p)
  else if t.code = tyDec128 then decide (1 ≤ t.p ∧ t.p ≤ 38 ∧ t.s ≤ t.p)
  else decide (1 ≤ t.code ∧ t.code ≤ 0x10 ∧ t.p = 0 ∧ t.s = 0)

/-- Bits of a frame image (R172). -/
def Ty.width (t : Ty) : Nat :=
  match t.code with
  | 0x01 | 0x02 | 0x06 => 8
  | 0x03 | 0x07 => 16
  | 0x04 | 0x08 | 0x0C | 0x0E => 32
  | 0x0B => 128
  | 0x10 => if t.heap then 64 else 32
  | _ => 64

/-- Signed images (R301). -/
def Ty.signed (t : Ty) : Bool :=
  decide ((2 ≤ t.code ∧ t.code ≤ 5) ∨ t.code = tyDec64 ∨ t.code = tyDec128 ∨ t.code = tyDate ∨ t.code = tyTime)

/-- Bytes of a value in a record (R245). -/
def Ty.bytes (t : Ty) : Nat :=
  if t.code = tyBool then 1 else if t.isDec ∨ t.isStr = true then 16 else t.width / 8

def Ty.fmt (t : Ty) : Fmt := if t.code = tyF32 then fmt32 else fmt64

def Ty.scale (t : Ty) : Nat := if t.isDec then t.s else 0

/-- The least and greatest value (R172, R176). -/
def Ty.bounds (t : Ty) : Int × Int :=
  if t.isDec then (-((10 ^ t.p - 1 : Nat) : Int), ((10 ^ t.p - 1 : Nat) : Int))
  else if t.code = tyBool then (0, 1)
  else if t.signed then (-((2 ^ (t.width - 1) : Nat) : Int), ((2 ^ (t.width - 1) : Nat) : Int) - 1)
  else (0, ((2 ^ t.width : Nat) : Int) - 1)

def Ty.inRange (t : Ty) (i : Int) : Bool := decide (t.bounds.1 ≤ i ∧ i ≤ t.bounds.2)

/-- The low bits of an exact result in a type's width. -/
def Ty.wrapInt (t : Ty) (i : Int) : Int :=
  if t.signed then toSigned t.width (ofSigned t.width i) else (ofSigned t.width i : Nat)

/-- Fit an exact integer at the type's scale (R199): none when FAIL overflows. -/
def Ty.fit (t : Ty) (ovf : Nat) (i : Int) : Option Int :=
  if t.inRange i then some i
  else match ovf with
    | 1 => some (if i < t.bounds.1 then t.bounds.1 else t.bounds.2)
    | 2 => some (t.wrapInt i)
    | _ => none

/-! ### Values -/

def Val.isNull : Val → Bool
  | .null => true
  | _ => false

def Val.int! : Val → Int
  | .int i => i
  | .bool b => if b then 1 else 0
  | .code c _ => c
  | .desc d _ => d
  | _ => 0

/-- The IEEE bits of a float. -/
def Val.bits! : Val → Nat
  | .f32 b => b.toNat
  | .f64 b => b.toNat
  | _ => 0

/-- A float value of a format. -/
def Ty.float (t : Ty) (b : Nat) : Val := if t.code = tyF32 then .f32 (BitVec.ofNat 32 b) else .f64 (BitVec.ofNat 64 b)

/-- The value that a frame image stands for (R172, R181, R221). -/
def Ty.ofImage (t : Ty) (x : Nat) : Val :=
  if t.code = tyBool then .bool (x % 256 != 0)
  else if t.isFloat then t.float (t.fmt.ofOrderImage (x % 2 ^ t.width))
  else if t.isStr then (if t.heap then .desc (x % 2 ^ 64) t.comp else .code (x % 2 ^ 32) t.comp)
  else if t.signed then .int (toSigned t.width x)
  else .int (x % 2 ^ t.width : Nat)

/-- The frame image of a value (R172, R178). -/
def Ty.image (t : Ty) (v : Val) : Nat :=
  match v with
  | .null => 0
  | .bool b => boolNat b
  | .int i => ofSigned t.width i
  | .f32 b => fmt32.orderImage (fmt32.canon b.toNat)
  | .f64 b => fmt64.orderImage (fmt64.canon b.toNat)
  | .code c _ => c
  | .desc d _ => d
  | .str _ => 0

/-! ### Comparison (R175, R177, R180) -/

def cmpInt (a b : Int) : Ordering := if a < b then .lt else if a = b then .eq else .gt

/-- Byte strings, the shorter first when it is a leading part of the other (R180). -/
def cmpBytes : List Byte → List Byte → Ordering
  | [], [] => .eq
  | [], _ :: _ => .lt
  | _ :: _, [] => .gt
  | a :: as, b :: bs => if a.toNat < b.toNat then .lt else if b.toNat < a.toNat then .gt else cmpBytes as bs

/-- A float as binary64, widened exactly. -/
def toF64 (t : Ty) (v : Val) : Nat := if t.code = tyF32 then (fmt32.convert fmt64 v.bits!).1 else v.bits!

/-- Order of two non-null values of comparable types that are no strings. -/
def cmpVal (ta : Ty) (a : Val) (tb : Ty) (b : Val) : Ordering :=
  if ta.isFloat then cmpInt (fmt64.rank (toF64 ta a)) (fmt64.rank (toF64 tb b))
  else
    let m := max ta.scale tb.scale
    cmpInt (a.int! * (10 ^ (m - ta.scale) : Nat)) (b.int! * (10 ^ (m - tb.scale) : Nat))

/-- Comparison types allowed by R198. -/
def comparable (a b : Ty) : Bool :=
  (a.isNum && b.isNum) || (a.isFloat && b.isFloat) ||
  (a.code == b.code && (a.code == tyBool || a.code == tyDate || a.code == tyTime))

/-! ### Three-valued logic (R174): none is UNKNOWN -/

def and3 : Option Bool → Option Bool → Option Bool
  | some false, _ => some false
  | _, some false => some false
  | some true, some true => some true
  | _, _ => none

def or3 : Option Bool → Option Bool → Option Bool
  | some true, _ => some true
  | _, some true => some true
  | some false, some false => some false
  | _, _ => none

def not3 : Option Bool → Option Bool := Option.map (!·)

def Val.truth : Val → Option Bool
  | .bool b => some b
  | _ => none

def ofTruth : Option Bool → Val
  | some b => .bool b
  | none => .null

/-! ### Dates (R179): days since 1970-01-01, proleptic Gregorian -/

def dayNs : Int := 86400000000000

/-- Year, month and day of a day number. -/
def civil (days : Int) : Int × Nat × Nat :=
  let z := days + 719468
  let era := z / 146097
  let doe := (z % 146097).toNat
  let yoe := (doe - doe / 1460 + doe / 36524 - doe / 146096) / 365
  let doy := doe - (365 * yoe + yoe / 4 - yoe / 100)
  let mp := (5 * doy + 2) / 153
  let d := doy - (153 * mp + 2) / 5 + 1
  let m := if mp < 10 then mp + 3 else mp - 9
  ((yoe : Int) + era * 400 + (if m ≤ 2 then 1 else 0), m, d)

/-- Day number of a date. -/
def dayOf (y : Int) (m d : Nat) : Int :=
  let y := if m ≤ 2 then y - 1 else y
  let era := y / 400
  let yoe := (y % 400).toNat
  let mp := (m + 9) % 12
  let doy := (153 * mp + 2) / 5 + d - 1
  let doe := yoe * 365 + yoe / 4 - yoe / 100 + doy
  era * 146097 + (doe : Int) - 719468

/-- Monday 1 to Sunday 7. -/
def weekday (days : Int) : Nat := ((days + 3) % 7).toNat + 1

/-- The first day of the week, month or year (R197). -/
def truncDay (unit : Nat) (days : Int) : Int :=
  let c := civil days
  match unit with
  | 4 => days - ((weekday days : Int) - 1)
  | 5 => dayOf c.1 c.2.1 1
  | 6 => dayOf c.1 1 1
  | _ => days

def unitNs : Nat → Int
  | 0 => 1000000000
  | 1 => 60000000000
  | 2 => 3600000000000
  | _ => dayNs

/-- TRUNC_TIME before the fit. -/
def truncTime (t : Ty) (unit : Nat) (i : Int) : Int :=
  if t.code = tyDate then truncDay unit i
  else if unit ≤ 3 then i / unitNs unit * unitNs unit
  else truncDay unit (i / dayNs) * dayNs

/-- EXTRACT (R197). -/
def extractTime (t : Ty) (fld : Nat) (i : Int) : Int :=
  let days := if t.code = tyDate then i else i / dayNs
  let ns := if t.code = tyDate then 0 else i % dayNs
  let c := civil days
  match fld with
  | 0 => c.1
  | 1 => c.2.1
  | 2 => c.2.2
  | 3 => ns / 3600000000000
  | 4 => ns / 60000000000 % 60
  | 5 => ns / 1000000000 % 60
  | 6 => weekday days
  | _ => days - dayOf c.1 1 1 + 1

/-! ### Conversions (R203): none when FAIL overflows -/

/-- A scaled integer moved to another scale with rounding. -/
def rescale (rnd : Nat) (i : Int) (frm dst : Nat) : Int :=
  if frm ≤ dst then i * (10 ^ (dst - frm) : Nat) else roundInt rnd i (10 ^ (frm - dst))

/-- CAST of a non-null value. -/
def castVal (ta td : Ty) (ovf rnd : Nat) (v : Val) : Option Val :=
  if td.isFloat then
    if ta.isFloat then
      let r := if ta.code = td.code then v.bits! else (ta.fmt.convert td.fmt v.bits!).1
      some (td.float (td.fmt.pipeNan v.bits! td.code r))
    else some (td.float (td.fmt.ofDec v.int! ta.scale).1)
  else if ta.isFloat then
    match ta.fmt.toDec rnd v.bits! td.scale with
    | some i => (td.fit ovf i.1).map .int
    | none =>
      if ovf = 1 then
        if ta.fmt.isNan v.bits! then some .null
        else some (.int (if v.bits!.testBit (ta.width - 1) then td.bounds.1 else td.bounds.2))
      else none
  else if td.code = tyBool then some (.bool (v.int! != 0))
  else if ta.code = tyBool then some (.int v.int!)
  else if ta.code = tyDate then (td.fit ovf (v.int! * dayNs)).map .int
  else if ta.code = tyTime then (td.fit ovf (v.int! / dayNs)).map .int
  else (td.fit ovf (rescale rnd v.int! ta.scale td.scale)).map .int

/-- The pairs that CAST accepts, with the overflow modes and roundings allowed (R203). -/
def castOk (ta td : Ty) (ovf rnd : Nat) : Bool :=
  if td.isFloat then (ta.isNum && rnd == 0) || ta.isFloat
  else if ta.isFloat then td.isNum && ovf != 2
  else if ta.isNum then td.isNum || (ta.isInt && td.code == tyBool)
  else if ta.code = tyBool then td.isInt
  else (ta.code == tyDate && td.code == tyTime) || (ta.code == tyTime && td.code == tyDate)

/-! ### Key images (R238) and hashes (R239, R240) -/

/-- Value bytes of a key field; `str` gives the bytes of a string. -/
def Ty.keyBytes (t : Ty) (kform : Nat) (str : Val → List Byte) (v : Val) : List Byte :=
  if t.isStr then
    if kform = 1 then leBytes 4 v.int!.toNat
    else if v.isNull then [0, 0] else let b := str v; leBytes 2 b.length ++ b
  else if t.isFloat then leBytes t.bytes (if v.isNull then 0 else t.fmt.canon v.bits!)
  else leBytes t.bytes (ofSigned (8 * t.bytes) v.int!)

/-- A key field: the flag byte, then the value bytes. -/
def Ty.keyField (t : Ty) (kform : Nat) (str : Val → List Byte) (v : Val) : List Byte :=
  (if v.isNull then 1 else 0) :: t.keyBytes kform str v

def rotl64 (v : BitVec 64) (n : Nat) : BitVec 64 := (v <<< n) ||| (v >>> (64 - n))

/-- The mix hash of a byte string (R239). -/
def mix64 (s : List Byte) : BitVec 64 :=
  let k1 : BitVec 64 := 0xD6E8FEB86659FD93
  let k2 : BitVec 64 := 0x8A5CD789635D2DFF
  let h := (chunks 8 s).foldl (fun h w => rotl64 (h ^^^ (BitVec.ofNat 64 (leNat w) * k1)) 29 * k2)
    (k2 ^^^ (BitVec.ofNat 64 s.length * k1))
  let h := h ^^^ (h >>> 32)
  let h := h * k1
  h ^^^ (h >>> 29)

/-! ### Record columns (R245) -/

/-- A value at its record width. -/
def Ty.recBytes (t : Ty) (v : Val) : List Byte :=
  match v with
  | .null => List.replicate t.bytes 0
  | .f32 b => leBytes 4 b.toNat
  | .f64 b => leBytes 8 b.toNat
  | .code c k => leBytes 8 c ++ leBytes 1 k ++ [0] ++ List.replicate 6 0
  | .desc d k => leBytes 8 d ++ leBytes 1 k ++ [1] ++ List.replicate 6 0
  | .bool b => [if b then 1 else 0]
  | .int i => leBytes t.bytes (ofSigned (8 * t.bytes) i)
  | .str _ => List.replicate t.bytes 0

/-- The value that record bytes stand for. -/
def Ty.ofRec (t : Ty) (bs : List Byte) : Val :=
  let v := leNat (bs.take t.bytes)
  if t.code = tyBool then .bool (v != 0)
  else if t.isFloat then t.float v
  else if t.isStr then (if byteAt bs 9 = 1 then .desc (field bs 0 8) (byteAt bs 8) else .code (field bs 0 8) (byteAt bs 8))
  else if t.signed then .int (toSigned (8 * t.bytes) v)
  else .int (v : Nat)

/-- Append a column at its alignment to a record under construction. -/
def addCol (acc : List Byte) (w : Nat) (bs : List Byte) : List Byte :=
  acc ++ List.replicate (alignUp acc.length (min w 8) - acc.length) 0 ++ bs

/-- The offsets of columns of the given widths from a start. -/
def colOffsets (start : Nat) (ws : List Nat) : List Nat :=
  (ws.foldl (fun (a : List Nat × Nat) w =>
    let o := alignUp a.2 (min w 8)
    (a.1 ++ [o], o + w)) ([], start)).1

def nullMask (row : Row) : Nat := packBits (row.map Val.isNull)

/-! ### Sort keys (R272) -/

/-- Value bytes of a sort key before DESC, big-endian. -/
def Ty.sortBytes (t : Ty) (kform plen : Nat) (str : Val → List Byte) (v : Val) : List Byte :=
  if t.isStr then
    if kform = 1 then beBytes 4 v.int!.toNat
    else let b := str v; cut b 0 (min b.length plen) ++ List.replicate (plen - min b.length plen) 0 ++
      leBytes 1 (min b.length (plen + 1))
  else if t.isFloat then beBytes t.bytes (t.fmt.orderImage (t.fmt.canon v.bits!))
  else if t.code = tyBool then beBytes 1 v.int!.toNat
  else if t.signed then
    let w := 8 * t.bytes
    beBytes t.bytes ((ofSigned w v.int! + 2 ^ (w - 1)) % 2 ^ w)
  else beBytes t.bytes v.int!.toNat

/-- Length of the value bytes of a sort key. -/
def Ty.sortLen (t : Ty) (kform plen : Nat) : Nat := if t.isStr then (if kform = 1 then 4 else plen + 1) else t.bytes

/-- One field of a normalized key. -/
def Ty.sortField (t : Ty) (desc nullsFirst : Bool) (kform plen : Nat) (str : Val → List Byte) (v : Val) : List Byte :=
  if v.isNull then (if nullsFirst then 0 else 1) :: List.replicate (t.sortLen kform plen) 0
  else
    let b := t.sortBytes kform plen str v
    (if nullsFirst then 1 else 0) :: (if desc then b.map (~~~ ·) else b)

/-- The residue modulus M (R268). -/
def resM : Nat := 2 ^ 61 - 1

def modM (i : Int) : Nat := (i % (resM : Int)).toNat

end Sys2Proof.Machine
end

