-- ==== Sys2Proof/Machine/MicroOps.lean ====
section
/-! DEFINITION. Formula programs (R193 to R203): the micro-op word, its evaluation on one row, and the operand types it accepts. -/

namespace Sys2Proof.Machine

/-- A micro-op (R196). -/
structure Uop where
  opc   : Nat
  dst   : Nat
  a     : Nat
  b     : Nat
  c     : Nat
  ovf   : Nat
  rnd   : Nat
  znull : Bool
  imm   : Nat
  deriving DecidableEq, Repr

def Uop.ofWord (w : Nat) : Uop :=
  { opc := bits w 7 0, dst := bits w 15 8, a := bits w 23 16, b := bits w 31 24, c := bits w 39 32
    ovf := bits w 41 40, rnd := bits w 43 42, znull := bit w 44, imm := bits w 55 48 }

/-- Reserved bits of a micro-op word are 0 (R196). -/
def uopReservedOk (w : Nat) : Bool := bits w 47 45 == 0 && bits w 63 56 == 0

/-- Operands that an opcode takes; none for an opcode that does not exist (R197). -/
def uopArity (opc : Nat) : Option Nat :=
  if opc ∈ [0x06, 0x07, 0x0A, 0x13, 0x14, 0x15, 0x2A, 0x30, 0x38, 0x39, 0x40] then some 1
  else if opc = 0x32 ∨ opc = 0x50 then some 3
  else if (0x01 ≤ opc ∧ opc ≤ 0x09) ∨ (0x10 ≤ opc ∧ opc ≤ 0x12) ∨ (0x20 ≤ opc ∧ opc ≤ 0x25) ∨
      opc = 0x28 ∨ opc = 0x29 ∨ opc = 0x31 ∨ opc = 0x33 then some 2
  else none

/-- The result of one micro-op on one row. -/
inductive URes where
  | val (v : Val)
  | overflow
  | divZero
  deriving DecidableEq, Repr

def URes.ofOpt : Option Val → URes
  | some v => .val v
  | none => .overflow

/-- Round a ratio to the destination's scale and fit it (R198, R199). `s` is the scale of numerator over denominator. -/
def fitRat (td : Ty) (ovf rnd : Nat) (n : Int) (d : Nat) (s : Nat) : URes :=
  let v := if s ≤ td.scale then roundInt rnd (n * (10 ^ (td.scale - s) : Nat)) d
    else roundInt rnd n (d * 10 ^ (s - td.scale))
  .ofOpt ((td.fit ovf v).map .int)

/-- Remainder of a ÷ b truncated toward zero: the sign of a. -/
def truncRem (a b : Int) : Int := a - b * (if b = 0 then 0 else a.tdiv b)

/-- Float arithmetic of a stage (R177, R198). -/
def floatArith (opc : Nat) (f : Fmt) (a b : Nat) : Nat :=
  match opc with
  | 0x01 => (f.add a b).1
  | 0x02 => (f.sub a b).1
  | 0x03 => (f.mul a b).1
  | 0x04 => (f.div a b).1
  | 0x05 =>
    match f.decode a, f.decode b with
    | .fin x m e, .fin _ n g =>
      if n = 0 then f.qnan else
      let base := min e g
      let r := (m * 2 ^ (e - base).toNat) % (n * 2 ^ (g - base).toNat)
      if r = 0 then f.signed x 0 else
      let q := finRat r base
      (f.round x q.1 q.2).1
    | .fin _ _ _, .inf _ => a
    | _, _ => f.qnan
  | 0x06 => f.neg a
  | 0x07 => if a.testBit (f.eb + f.mb) then f.neg a else a
  | 0x08 => Fmt.pick a b (f.rank b < f.rank a) (f.rank a < f.rank b)
  | _ => Fmt.pick a b (f.rank a < f.rank b) (f.rank b < f.rank a)

/-- Arithmetic on non-null sources (R198). -/
def arith (u : Uop) (ta : Ty) (a : Val) (tb : Ty) (b : Val) (td : Ty) : URes :=
  if td.isFloat then
    let wide (t : Ty) (v : Val) : Nat := if t.code = td.code then v.bits! else (t.fmt.convert td.fmt v.bits!).1
    let x := wide ta a
    let y := wide tb b
    let r := floatArith u.opc td.fmt x y
    .val (td.float (if u.opc = 0x08 ∨ u.opc = 0x09 then r else td.fmt.pipeNan x y r))
  else
    let s := max ta.scale tb.scale
    let x := a.int! * (10 ^ (s - ta.scale) : Nat)
    let y := b.int! * (10 ^ (s - tb.scale) : Nat)
    match u.opc with
    | 0x01 => fitRat td u.ovf u.rnd (x + y) 1 s
    | 0x02 => fitRat td u.ovf u.rnd (x - y) 1 s
    | 0x03 => fitRat td u.ovf u.rnd (a.int! * b.int!) 1 (ta.scale + tb.scale)
    | 0x04 =>
      if y = 0 then (if u.znull then .val .null else .divZero)
      else fitRat td u.ovf u.rnd (if y < 0 then -x else x) y.natAbs 0
    | 0x05 =>
      if y = 0 then (if u.znull then .val .null else .divZero)
      else fitRat td u.ovf u.rnd (truncRem x y) 1 s
    | 0x06 => fitRat td u.ovf u.rnd (-a.int!) 1 ta.scale
    | 0x07 => fitRat td u.ovf u.rnd a.int!.natAbs 1 ta.scale
    | 0x08 => fitRat td u.ovf u.rnd (min x y) 1 s
    | _ => fitRat td u.ovf u.rnd (max x y) 1 s

/-- Bitwise operations and shifts in the width of the destination (R198). -/
def bitwise (u : Uop) (td : Ty) (a b : Int) : Int :=
  let w := td.width
  let x := ofSigned w a
  let y := ofSigned w b
  td.wrapInt (match u.opc with
    | 0x10 => (x &&& y : Nat)
    | 0x11 => (x ||| y : Nat)
    | 0x12 => (x ^^^ y : Nat)
    | 0x13 => ((2 ^ w - 1 - x : Nat) : Int)
    | 0x14 => (x * 2 ^ u.imm : Nat)
    | _ => a / (2 ^ u.imm : Nat))

/-- A comparison micro-op on an order. -/
def cmpHolds (opc : Nat) (o : Ordering) : Bool :=
  match opc with
  | 0x20 => o == .eq
  | 0x21 => o != .eq
  | 0x22 => o == .lt
  | 0x23 => o != .gt
  | 0x24 => o == .gt
  | _ => o != .lt

/-- Opcodes whose rules take nulls (R200). -/
def uopTakesNull (opc : Nat) : Bool := [0x28, 0x29, 0x2A, 0x30, 0x31, 0x32, 0x33].contains opc

/-- One micro-op on one row (R197 to R203); `len` gives the length of a string; CALL is answered elsewhere (R233). -/
def evalUop (u : Uop) (td ta tb : Ty) (a b c : Val) (len : Val → Nat) : URes :=
  if !uopTakesNull u.opc && (a.isNull || (decide (uopArity u.opc = some 2) && b.isNull)) then .val .null
  else if u.opc ≤ 0x09 then arith u ta a (if u.opc = 6 ∨ u.opc = 7 then ta else tb) b td
  else if u.opc = 0x0A then .ofOpt (castVal ta td u.ovf u.rnd a)
  else if u.opc ≤ 0x15 then .val (.int (bitwise u td a.int! b.int!))
  else if u.opc ≤ 0x25 then .val (.bool (cmpHolds u.opc (cmpVal ta a tb b)))
  else match u.opc with
    | 0x28 => .val (ofTruth (and3 a.truth b.truth))
    | 0x29 => .val (ofTruth (or3 a.truth b.truth))
    | 0x2A => .val (ofTruth (not3 a.truth))
    | 0x30 => .val (.bool a.isNull)
    | 0x31 => .val (if a.isNull then b else a)
    | 0x32 => .val (if c.truth = some true then a else b)
    | 0x33 => .val (if !a.isNull && !b.isNull && cmpVal ta a tb b == .eq then .null else a)
    | 0x38 => .ofOpt ((td.fit u.ovf (truncTime ta u.imm a.int!)).map .int)
    | 0x39 => .val (.int (extractTime ta u.imm a.int!))
    | _ => .val (.int (len a))

/-! ### Operand and result types (R198, R200, R203) -/

def dateArithOk (u : Uop) (ta tb td : Ty) : Bool :=
  u.ovf != 2 &&
  [(tyTime, tyI64), (tyDate, tyI32)].any fun p =>
    (ta.code == p.1 && tb.code == p.2 && td.code == p.1 && (u.opc == 1 || u.opc == 2)) ||
    (ta.code == p.1 && tb.code == p.1 && td.code == p.2 && u.opc == 2)

def arithOk (u : Uop) (ts : List Ty) (td : Ty) : Bool :=
  if td.isFloat then u.ovf == 0 && u.rnd == 0 && ts.all fun t => t.isFloat && (td.code == tyF64 || t.code == tyF32)
  else if td.isInt && ts.all Ty.isInt then true
  else if td.isDec then u.ovf != 2 && ts.all Ty.isNum
  else match ts with
    | [ta, tb] => dateArithOk u ta tb td
    | _ => false

/-- The types of a micro-op's operands and destination are allowed (R198, R200, R203).
DESIGN CHOICE (log entry 91): TRUNC_TIME with OVF WRAP is refused whatever its unit.
DESIGN CHOICE (log entry 92): a TRUNC_TIME unit above 6 and an EXTRACT field above 7 fail here, as check 0x000B. -/
def uopTypesOk (u : Uop) (ts : List Ty) (td : Ty) : Bool :=
  let ta := ts.getD 0 default
  let tb := ts.getD 1 default
  let isDT (t : Ty) : Bool := t.code == tyDate || t.code == tyTime
  if u.opc ≤ 0x09 then arithOk u ts td
  else if u.opc = 0x0A then castOk ta td u.ovf u.rnd
  else if u.opc ≤ 0x15 then td.isInt && (ts.all fun t => t.code == td.code) && u.ovf == 0 && u.rnd == 0
  else if u.opc ≤ 0x25 then td.code == tyBool && comparable ta tb
  else match u.opc with
    | 0x28 | 0x29 | 0x2A => (td :: ts).all fun t => t.code == tyBool
    | 0x30 => td.code == tyBool
    | 0x31 => ta.same td && tb.same td
    | 0x32 => ta.same td && tb.same td && (ts.getD 2 default).code == tyBool
    | 0x33 => ta.same td && !td.isStr && comparable ta tb
    | 0x38 => isDT ta && td.code == ta.code && u.ovf != 2 && decide (u.imm ≤ 6) && (ta.code == tyTime || decide (3 ≤ u.imm))
    | 0x39 => isDT ta && td.code == tyI32 && decide (u.imm ≤ 7) && (ta.code == tyTime || !(decide (3 ≤ u.imm ∧ u.imm ≤ 5)))
    | 0x40 => ta.isStr && td.code == tyI32
    | _ => true

/-- A destination can receive a null (R200). -/
def uopMayNull (u : Uop) (ts : List Ty) (td : Ty) : Bool :=
  let n (i : Nat) : Bool := (ts.getD i default).nullable
  match u.opc with
  | 0x30 => false
  | 0x31 => n 0 && n 1
  | 0x32 => n 0 || n 1
  | 0x33 => true
  | 0x04 | 0x05 => (u.znull && !td.isFloat) || n 0 || n 1
  | 0x0A => n 0 || ((ts.getD 0 default).isFloat && !td.isFloat && u.ovf == 1)
  | _ => ts.any (·.nullable)

end Sys2Proof.Machine
end

