-- ==== Sys2Proof/Machine/Image.lean ====
section
/-! DEFINITION. The Losis pipeline image (R183 to R189, R193 to R196, R204 to R206): its header, sections, plan, slots, parameters,
operators, constants and formula programs as data, and the columns that flow through each pipeline (R237, R245, R251, R269, R281).
Reading is lenient: what a malformed image reads as matters to no command, since PIPE_LOAD refuses it. -/

namespace Sys2Proof.Machine

/-! ### Parts of an image -/

/-- A section table entry (R184). -/
structure SectE where
  st   : Nat
  pipe : Nat
  off  : Nat
  len  : Nat
  at_  : Nat
  deriving DecidableEq, Repr, Inhabited

/-- A pipeline descriptor (R186). -/
structure PlanE where
  src   : Nat
  prod  : Nat
  nops  : Nat
  order : Nat
  wait  : Nat
  at_   : Nat
  deriving DecidableEq, Repr, Inhabited

/-- A segment slot (R187). -/
structure SlotE where
  role : Nat
  ty   : Ty
  at_  : Nat
  deriving DecidableEq, Repr, Inhabited

/-- A parameter entry (R206). -/
structure ParamE where
  ty  : Ty
  off : Nat
  len : Nat
  at_ : Nat
  deriving DecidableEq, Repr, Inhabited

/-- An operator descriptor (R189): its kind, its image offset and its body. -/
structure Op where
  kind : Nat
  off  : Nat
  body : List Byte
  deriving DecidableEq, Repr, Inhabited

/-- A constant (R195) with whether its bytes obey its type. -/
structure Cons where
  ty  : Ty
  val : Val
  ok  : Bool
  slen : Nat := 0     -- LENGTH of a string
  deriving DecidableEq, Repr, Inhabited

/-- A formula program (R193). -/
structure Formula where
  off    : Nat
  stypes : List Ty
  words  : List Nat
  outs   : List Nat
  deriving DecidableEq, Repr, Inhabited

/-- One pipeline with its sections. -/
structure Pipe where
  ix      : Nat
  plan    : PlanE
  ops     : List Op
  formula : Option Formula
  consts  : List Cons
  cost    : List Byte
  deriving DecidableEq, Repr, Inhabited

/-- Index of a pipeline's sink: FAIL_OP (R190). -/
def Pipe.sinkIx (p : Pipe) : Nat := p.ops.length - 1

structure Img where
  bytes  : List Byte
  npipe  : Nat
  nseg   : Nat
  pbytes : Nat
  nparam : Nat
  sects  : List SectE
  slots  : List SlotE
  params : List ParamE
  aux    : List Byte
  udf    : Option (Nat × List Byte)
  pipes  : List Pipe
  deriving DecidableEq, Repr, Inhabited

/-! ### Reading an image -/

/-- Section types (R185). -/
def stPlan : Nat := 1
def stSlots : Nat := 2
def stParams : Nat := 3
def stOps : Nat := 4
def stFormula : Nat := 5
def stConsts : Nat := 6
def stUdf : Nat := 7
def stCost : Nat := 8
def stAux : Nat := 9

def pipeSection (st : Nat) : Bool := st == stOps || st == stFormula || st == stConsts || st == stCost

def readSects (bs : List Byte) : List SectE :=
  (List.range (min ((bs.length - 64) / 16) (field bs 6 2))).map fun i =>
    let e := 64 + 16 * i
    let r := cut bs e 16
    { st := field r 0 2, pipe := byteAt r 2, off := field r 4 4, len := field r 8 4, at_ := e }

def findSect (ss : List SectE) (st pipe : Nat) : Option SectE := ss.find? fun e => e.st == st && e.pipe == pipe

def sectBytes (bs : List Byte) (e : SectE) : List Byte := (bs.drop e.off).take e.len

/-- Type code, precision and scale in the first three bytes; `nullable` and `heap` apart. -/
def tyAt (bs : List Byte) (o : Nat) (nullable heap : Bool) (comp : Nat) : Ty :=
  { code := byteAt bs o, p := byteAt bs (o + 1), s := byteAt bs (o + 2), nullable := nullable, heap := heap, comp := comp }

def readSlot (bs : List Byte) (at_ : Nat) : SlotE :=
  let r := cut bs at_ 8
  { role := byteAt r 0, ty := tyAt r 1 (bit (byteAt r 4) 0) (bit (byteAt r 4) 1) (byteAt r 5), at_ := at_ }

def readParam (bs : List Byte) (at_ : Nat) : ParamE :=
  let r := cut bs at_ 8
  { ty := tyAt r 0 (bit (byteAt r 3) 0) false 0xFF, off := field r 4 2, len := field r 6 2, at_ := at_ }

def readPlan (bs : List Byte) (at_ : Nat) : PlanE :=
  let r := cut bs at_ 16
  { src := byteAt r 0, prod := byteAt r 1, nops := byteAt r 2, order := byteAt r 3, wait := field r 4 4, at_ := at_ }

/-- The descriptors of an OPERATORS section; none when they do not end at its LENGTH (R189). -/
def walkOps : Nat → Nat → List Byte → Option (List Op)
  | 0, _, bs => if bs.isEmpty then some [] else none
  | fuel + 1, off, bs =>
    if bs.isEmpty then some []
    else
      let n := field bs 2 2
      if bs.length < 8 + n then none
      else (walkOps fuel (off + 8 + n) (bs.drop (8 + n))).map fun r =>
        { kind := byteAt bs 0, off := off, body := (bs.drop 8).take n } :: r

def Ty.ieee (t : Ty) (b : Nat) : Val := t.float (t.fmt.canon b)

/-- A constant of 24 B (R195); floats take the replacements of R178. -/
def readCons (aux r : List Byte) : Cons :=
  let null := bit (byteAt r 19) 0
  let t := tyAt r 16 null false 0xFF
  let v := field r 0 16
  let low := v % 2 ^ t.width
  let form := t.valid && maskOut (byteAt r 19) 1 == 0 && field r 20 4 == 0
  if null then { ty := t, val := .null, ok := form }
  else if t.isStr then
    let o := field r 0 4
    let n := field r 4 2
    { ty := t, val := .str ((aux.drop o).take n), slen := n, ok := form && decide (o + n ≤ aux.length) }
  else if t.isFloat then { ty := t, val := t.ieee low, ok := form && v == low }
  else
    let i : Int := if t.signed then toSigned t.width low else low
    { ty := t, val := if t.code = tyBool then .bool (i != 0) else .int i
      ok := form && v == ofSigned 128 i && t.inRange i }

def readFormula (bs : List Byte) (off : Nat) : Formula :=
  let nu := byteAt bs 0
  { off := off
    stypes := (List.range 64).map fun i => tyAt bs (8 + 4 * i) (bit (byteAt bs (11 + 4 * i)) 0) false 0xFF
    words := (List.range nu).map fun i => field bs (264 + 8 * i) 8
    outs := (List.range (byteAt bs 1)).map fun i => byteAt bs (264 + 8 * nu + i) }

def Img.ofBytes (bs : List Byte) : Img :=
  let ss := readSects bs
  let npipe := byteAt bs 16
  let nseg := field bs 18 2
  let nparam := byteAt bs 22
  let find (st : Nat) : Option SectE := findSect ss st 0xFF
  let base (st : Nat) : Nat := ((find st).map (·.off)).getD bs.length
  let aux := ((find stAux).map (sectBytes bs)).getD []
  { bytes := bs, npipe := npipe, nseg := nseg, pbytes := field bs 20 2, nparam := nparam, sects := ss
    slots := (List.range nseg).map fun i => readSlot bs (base stSlots + 8 * i)
    params := (List.range nparam).map fun i => readParam bs (base stParams + 8 * i)
    aux := aux
    udf := (find stUdf).map fun e => (e.off, sectBytes bs e)
    pipes := (List.range (min 32 npipe)).map fun p =>
      { ix := p, plan := readPlan bs (base stPlan + 16 * p)
        ops := match findSect ss stOps p with
          | some e => (walkOps 4096 e.off (sectBytes bs e)).getD []
          | none => []
        formula := (findSect ss stFormula p).map fun e => readFormula (sectBytes bs e) e.off
        consts := match findSect ss stConsts p with
          | some e => (chunks 24 (sectBytes bs e)).map (readCons aux)
          | none => []
        cost := match findSect ss stCost p with
          | some e => sectBytes bs e
          | none => leBytes 8 0 ++ [3] ++ leBytes 7 0 } }

/-! ### Operator bodies -/

def kScan : Nat := 1
def kRead : Nat := 2
def kFilter : Nat := 3
def kCompute : Nat := 4
def kProbe : Nat := 5
def kExchange : Nat := 6
def kBuild : Nat := 7
def kAgg : Nat := 8
def kSort : Nat := 9
def kTopk : Nat := 10
def kWindow : Nat := 11
def kEmit : Nat := 12

def Op.u (op : Op) (off n : Nat) : Nat := field op.body off n
def Op.b (op : Op) (off : Nat) : Nat := byteAt op.body off

/-- Where the AGGREGATE body starts: a WINDOW has its own 32 B before it (R285). -/
def Op.aggBase (op : Op) : Nat := if op.kind = kWindow then 32 else 0

/-- The key list: row column and KFORM. -/
def Op.keys (op : Op) : List (Nat × Nat) :=
  let two (n o : Nat) : List (Nat × Nat) := (List.range (min n 8)).map fun i => (op.b (o + 2 * i), op.b (o + 2 * i + 1))
  if op.kind = kProbe then two (op.b 2) 8
  else if op.kind = kExchange then two (op.b 2) 16
  else if op.kind = kBuild then two (op.b 0) 16
  else if op.kind = kAgg ∨ op.kind = kWindow then two (op.b (op.aggBase + 1)) (op.aggBase + 16)
  else if op.kind = kSort ∨ op.kind = kTopk then
    (List.range (min (op.b 0) 8)).map fun i => (op.b (8 + 4 * i), op.b (11 + 4 * i))
  else []

/-- Payload columns of BUILD, SORT and TOPK; carried columns of EXCHANGE and EMIT. -/
def Op.cols (op : Op) : List Nat :=
  let from_ (n o : Nat) : List Nat := (List.range n).map fun i => op.b (o + i)
  if op.kind = kBuild then from_ (min 8 (op.b 1)) 32
  else if op.kind = kSort ∨ op.kind = kTopk then from_ (min 16 (op.b 1)) 40
  else if op.kind = kExchange then from_ (min 16 (op.b 3)) 32
  else if op.kind = kEmit then from_ (min 16 (op.b 1)) 16
  else []

/-- Sort key i: DESC, NULLS_FIRST and PLEN. -/
def Op.desc (op : Op) (i : Nat) : Bool := bit (op.b (9 + 4 * i)) 0
def Op.nullsFirst (op : Op) (i : Nat) : Bool := bit (op.b (9 + 4 * i)) 1
def Op.plen (op : Op) (i : Nat) : Nat := op.b (10 + 4 * i)

/-- An aggregate function entry (R263). -/
structure Fn where
  fn   : Nat
  arg  : Nat
  ovf  : Nat
  rnd  : Nat
  ot   : Ty
  arg2 : Nat
  at_  : Nat                     -- body offset of the entry
  deriving DecidableEq, Repr, Inhabited

def Op.fns (op : Op) : List Fn :=
  (List.range (min 16 (op.b (op.aggBase + 2)))).map fun i =>
    let o := op.aggBase + 32 + 8 * i
    let fn := op.b o
    { fn := fn, arg := op.b (o + 1), ovf := op.b (o + 2) % 4, rnd := op.b (o + 2) / 4 % 4
      ot := tyAt op.body (o + 3) (fn == 3 || fn == 4 || fn == 5 || fn == 6) false 0xFF, arg2 := op.b (o + 6), at_ := o }

def Op.phase (op : Op) : Nat := op.b op.aggBase

def exMode (op : Op) : Nat := op.b 0

/-- NPART of an EXCHANGE (R241). -/
def Op.npart (op : Op) : Nat :=
  match op.b 0 with
  | 1 | 2 => 2 ^ op.b 1
  | 3 => op.u 6 2 + 1
  | _ => 1

/-- A filter comparator and a filter node (R222). -/
structure Cmp where
  lane : Nat
  op   : Nat
  a    : Nat
  b    : Nat
  nin  : Nat
  inOff : Nat
  deriving DecidableEq, Repr, Inhabited

def Op.cmps (op : Op) : List Cmp :=
  (List.range (min 16 (op.b 0))).map fun k =>
    let o := 8 + 16 * k
    { lane := op.b o, op := op.b (o + 1), a := op.b (o + 2), b := op.b (o + 3), nin := op.b (o + 4), inOff := op.u (o + 8) 4 }

/-- Node j: kind and children. -/
def Op.nodes (op : Op) : List (Nat × Nat × Nat) :=
  (List.range (min 15 (op.b 1))).map fun j =>
    let o := 8 + 16 * op.b 0 + 4 * j
    (op.b o, op.b (o + 1), op.b (o + 2))

def Pipe.op? (p : Pipe) (kind : Nat) : Option Op := p.ops.find? fun o => o.kind == kind
def Pipe.sink (p : Pipe) : Op := p.ops.getLastD default
def Pipe.head (p : Pipe) : Op := p.ops.headD default

/-- The index of an operator in its pipeline: FAIL_OP (R190). -/
def Pipe.opIx (p : Pipe) (kind : Nat) : Nat := p.ops.findIdx fun o => o.kind == kind

/-! ### Columns -/

/-- A row column: its type, the source lane that it is, if it is one unchanged (R237), and whether it may hold a VARCHAR of a
parameter or constant (R545). -/
structure Col where
  ty   : Ty
  lane : Option Nat := none
  free : Bool := false
  deriving DecidableEq, Repr, Inhabited

/-- The type of a micro-op operand (R195): a slot, a constant or a parameter. -/
def operandTy (i : Img) (p : Pipe) (f : Formula) (lanes : List Ty) (x : Nat) : Option Ty :=
  if x < 8 then lanes[x]?
  else if x < 64 then (f.stypes[x]?).filter fun t => t.code != 0
  else if x < 128 then (p.consts[x - 64]?).map (·.ty)
  else if x < 192 then (i.params[x - 128]?).map (·.ty)
  else none

/-- Slots that may hold a VARCHAR of a parameter or constant (R545). -/
def mayHold (i : Img) (p : Pipe) (f : Formula) (lanes : List Ty) : List Nat :=
  f.words.foldl (fun acc w =>
    let u := Uop.ofWord w
    let hit (x : Nat) : Bool :=
      acc.contains x || (decide (64 ≤ x) && ((operandTy i p f lanes x).map Ty.isStr).getD false)
    if (u.opc = 0x31 ∨ u.opc = 0x32) ∧ (hit u.a || hit u.b) = true then u.dst :: acc else acc) []

/-- The row columns after COMPUTE, before PROBE. -/
def midCols (i : Img) (p : Pipe) (lanes : List Ty) : List Col :=
  match p.op? kCompute, p.formula with
  | some _, some f =>
    let held := mayHold i p f lanes
    f.outs.map fun s =>
      if s < 8 then { ty := lanes.getD s default, lane := some s }
      else { ty := f.stypes.getD s default, free := held.contains s }
  | _, _ => lanes.zipIdx.map fun e => { ty := e.1, lane := some e.2 }

/-- Output columns of an aggregate function: AVG of PARTIAL is a sum and a count (R264). -/
def fnCols (phase : Nat) (f : Fn) : List Ty :=
  if f.fn = 6 ∧ phase = 1 then [f.ot, { code := tyI64 }] else [f.ot]

/-- The columns of the rows that a sink leaves for a READ (R245, R269, R281). -/
def recTypes (op : Op) (cols : List Col) : List Ty :=
  let ty (c : Nat) : Ty := (cols.getD c default).ty
  if op.kind = kExchange then op.cols.map ty
  else if op.kind = kSort ∨ op.kind = kTopk then (op.keys.map fun k => ty k.1) ++ op.cols.map ty
  else if op.kind = kAgg ∨ op.kind = kWindow then
    (if op.kind = kWindow then [{ code := tyTime }] else []) ++ (op.keys.map fun k => ty k.1) ++
      op.fns.flatMap fun f =>
        fnCols op.phase { f with ot := if f.fn = 4 ∨ f.fn = 5 then { ty f.arg with nullable := true } else f.ot }
  else []

/-- What flows through one pipeline: lanes of its source, row columns before and after PROBE, columns its sink leaves. -/
structure PInfo where
  lanes : List Ty
  mid   : List Col
  fin   : List Col
  recs  : List Ty
  deriving DecidableEq, Repr, Inhabited

def pipeInfo (i : Img) (before : List PInfo) (p : Pipe) : PInfo :=
  let h := p.head
  let lanes : List Ty :=
    if h.kind = kScan then (List.range (min 8 (h.b 0))).map fun k => (i.slots.getD (h.b (8 + 8 * k)) default).ty
    else (List.range (min 8 (h.b 0))).map fun k => (before.getD p.plan.prod default).recs.getD (h.b (1 + k)) default
  let mid := midCols i p lanes
  let fin := match p.op? kProbe with
    | none => mid
    | some pr =>
      let bp := i.pipes.getD (pr.b 0) default
      let bc := (before.getD (pr.b 0) default).fin
      if pr.b 1 ≤ 1 then
        mid ++ bp.sink.cols.map fun c =>
          let t := (bc.getD c default).ty
          { ty := { t with nullable := t.nullable || pr.b 1 == 1 } }
      else mid
  { lanes := lanes, mid := mid, fin := fin, recs := recTypes p.sink fin }

/-- The information of every pipeline; a pipeline refers only to earlier ones (R169). -/
def Img.info (i : Img) : List PInfo := i.pipes.foldl (fun acc p => acc ++ [pipeInfo i acc p]) []

/-- The producer's record column to which a row column traces (R237). -/
def traceCol (p : Pipe) (c : Col) : Option Nat :=
  match c.lane with
  | some l => if p.head.kind = kRead then some (p.head.b (1 + l)) else none
  | none => none

/-- A DICT column (R238). -/
def Ty.isDict (t : Ty) : Bool := t.isStr && !t.heap && t.comp != 0xFF

/-- Bytes of a key field in a splitter table (R242). -/
def Ty.splitWidth (t : Ty) (kform : Nat) : Nat := if t.isStr then (if kform = 1 then 4 else 34) else t.bytes

/-- The stride of a splitter table (R242). -/
def splitStride (ks : List (Ty × Nat)) : Nat := alignUp (ks.map fun k => 1 + k.1.splitWidth k.2).sum 8

/-- A fixed value of a record width. -/
def Ty.ofFixed (t : Ty) (bs : List Byte) : Val :=
  let v := leNat bs
  if t.code = tyBool then .bool (v != 0)
  else if t.isFloat then t.float v
  else if t.signed then .int (toSigned (8 * bs.length) v)
  else .int v

/-- The key of splitter `k` (R242). -/
def splitKey (ks : List (Ty × Nat)) (row : List Byte) : List Val :=
  (ks.foldl (fun (a : List Val × Nat) k =>
    let w := k.1.splitWidth k.2
    let f := cut row a.2 (1 + w)
    let v : Val :=
      if byteAt f 0 = 1 then .null
      else if k.1.isStr then (if k.2 = 1 then .code (field f 1 4) k.1.comp else .str (cut f 3 (min 32 (field f 1 2))))
      else k.1.ofFixed (f.drop 1)
    (a.1 ++ [v], a.2 + 1 + w)) ([], 0)).1

/-- Order of two key values, nulls greatest (R242); `str` gives the bytes of a string. -/
def cmpKey (t : Ty) (kform : Nat) (str : Val → List Byte) (a b : Val) : Ordering :=
  if a.isNull then (if b.isNull then .eq else .gt)
  else if b.isNull then .lt
  else if t.isStr then (if kform = 1 then cmpInt a.int! b.int! else cmpBytes (str a) (str b))
  else cmpVal t a t b

/-- Lexicographic order of key lists. -/
def cmpKeys (str : Val → List Byte) : List (Ty × Nat) → List Val → List Val → Ordering
  | k :: ks, a :: as, b :: bs =>
    match cmpKey k.1 k.2 str a b with
    | .eq => cmpKeys str ks as bs
    | o => o
  | _, _, _ => .eq

/-- Bytes of a plain string value. -/
def plainStr : Val → List Byte
  | .str b => b
  | _ => []

def Op.splitters (op : Op) (aux : List Byte) (ks : List (Ty × Nat)) : List (List Val) :=
  let st := splitStride ks
  (List.range (op.u 6 2)).map fun i => splitKey ks (cut aux (op.u 8 4 + st * i) st)

/-- Width of an IN list value (R225). -/
def Ty.inWidth (t : Ty) : Nat := if t.isStr then 34 else t.bytes

/-- The IN list of a comparator (R225). -/
def inList (aux : List Byte) (t : Ty) (c : Cmp) : List Val :=
  (List.range c.nin).map fun j =>
    let r := cut aux (c.inOff + t.inWidth * j) t.inWidth
    if t.isStr then .str (cut r 2 (min 32 (field r 0 2))) else t.ofFixed r

end Sys2Proof.Machine
end

