-- ==== Sys2Proof/Machine/Ops.lean ====
section
/-! DEFINITION. Named operations: sparse tables and memories in canonical form, tiles and their population, outputs, error
records, interrupts, and the queue of Cinch changes. -/

namespace Sys2Proof.Machine

/-- The outcome of a command. -/
abbrev Res := Host.Outcome State Fault Refusal

/-- The state that an outcome leaves: the next state, or the state as it was. -/
def resState (r : Res) (s : State) : State :=
  match r with
  | .next s' => s'
  | _ => s

/-! ### Sparse tables -/

/-- The value listed at `k`. -/
def tblFind {α : Type} : Tbl α → Nat → Option α
  | [], _ => none
  | (j, v) :: r, k => if j = k then some v else tblFind r k

def tblGet {α : Type} (t : Tbl α) (k : Nat) (d : α) : α := (tblFind t k).getD d

/-- List `v` at `k`, keys staying in rising order. -/
def tblPut {α : Type} : Tbl α → Nat → α → Tbl α
  | [], k, v => [(k, v)]
  | (j, w) :: r, k, v =>
    if k < j then (k, v) :: (j, w) :: r
    else if k = j then (k, v) :: r
    else (j, w) :: tblPut r k v

/-- List nothing at `k`. -/
def tblDel {α : Type} (t : Tbl α) (k : Nat) : Tbl α := t.filter (fun e => e.1 ≠ k)

/-- Hold `v` at `k` where an unlisted key holds `d`. -/
def tblSet {α : Type} [DecidableEq α] (d : α) (t : Tbl α) (k : Nat) (v : α) : Tbl α :=
  if v = d then tblDel t k else tblPut t k v

/-- Keys strictly rising: the canonical form of a table. -/
def tblWf {α : Type} : Tbl α → Bool
  | [] => true
  | [_] => true
  | (a, _) :: (b, v) :: r => decide (a < b) && tblWf ((b, v) :: r)

/-- The canonical form of a memory: addresses strictly rising. An unlisted address holds no byte, so no listed byte equals what
an unlisted address reads as. -/
def Memory.wf (m : Mem) : Bool := tblWf m

/-- The byte at an address, none where nothing has been written (log 6). -/
def memRead (m : Mem) (a : Nat) : Option Byte := tblFind m a

def memWrite (m : Mem) (a : Nat) (b : Byte) : Mem := tblPut m a b

/-- Write a string from `a` upward. -/
def memWriteBytes (m : Mem) : Nat → List Byte → Mem
  | _, [] => m
  | a, b :: bs => memWriteBytes (memWrite m a b) (a + 1) bs

/-- Forget the bytes of `[lo, lo + n)`. -/
def memErase (m : Mem) (lo n : Nat) : Mem := m.filter (fun e => decide (e.1 < lo ∨ lo + n ≤ e.1))

/-- `n` bytes from `a`, zeros where nothing is listed. -/
def memBytes0 (m : Mem) (a n : Nat) : List Byte := (List.range n).map fun i => (memRead m (a + i)).getD 0

/-- A quotient whose rounding the spec does not state (log 32). -/
def roundFree (num den : Nat) : Nat := num / den + boolNat (num % den != 0 && Config.roundUp num den)

/-! ### Tiles (R1 to R4, R14) -/

def tid (n : Nat) : TileId := ⟨n % 8, Nat.mod_lt _ (by decide)⟩

def State.onTile (s : State) (t : TileId) (f : Tile → Tile) : State :=
  { s with tiles := s.tiles.set t.val (f s.tiles[t]) t.isLt }

def State.tile (s : State) (t : TileId) : Tile := s.tiles[t]

/-- DEV_TILE_MASK.PRESENT (R1, R2). -/
def partMask : Part → Nat
  | .zl8 => 0xFF
  | .zl4 => 0x33
  | .zl2 => 0x03

def State.presentMask (s : State) : Nat := partMask s.man.part

def State.present (s : State) (t : TileId) : Bool := bit s.presentMask t.val

def State.fencedT (s : State) (t : TileId) : Bool := bit s.dev.fenced t.val

/-- Present and not fenced. -/
def State.live (s : State) (t : TileId) : Bool := s.present t && !s.fencedT t

def allTiles : List TileId := [0, 1, 2, 3, 4, 5, 6, 7]

def State.presentTiles (s : State) : List TileId := allTiles.filter s.present

def State.liveTiles (s : State) : List TileId := allTiles.filter s.live

/-- A tile number of a field names a present tile. -/
def State.presentNo (s : State) (n : Nat) : Bool := decide (n < 8) && s.present (tid n)

/-- The master: the lowest-numbered tile present and not fenced (R40). -/
def State.masterTile (s : State) : TileId := (s.liveTiles.head?).getD 0

/-- The mode codes of R34. -/
def modeCode : Mode → Nat
  | .cold => 0 | .dawn => 1 | .train => 2 | .ready => 3 | .service => 4 | .degraded => 5
  | .dusk => 6 | .midnight => 7 | .activate => 8 | .nightwatch => 9 | .halt => 10 | .test => 11

def modeOf : Nat → Option Mode
  | 0 => some .cold | 1 => some .dawn | 2 => some .train | 3 => some .ready | 4 => some .service
  | 5 => some .degraded | 6 => some .dusk | 7 => some .midnight | 8 => some .activate
  | 9 => some .nightwatch | 10 => some .halt | 11 => some .test
  | _ => none

/-- SERVICE or DEGRADED (R34). -/
def Mode.serving : Mode → Bool
  | .service | .degraded => true
  | _ => false

/-- The host role of a tile's port (R17, R51). -/
def State.hostRole (s : State) (t : TileId) : Bool := bit s.dev.hostRole t.val

/-- The link of a host-role port of a live tile is up. -/
def State.portUp (s : State) (t : TileId) : Bool :=
  s.live t && s.hostRole t && (s.tile t).linkUp

/-- CXL capacity mapped on a tile, in bytes (R139). -/
def Tile.cxlBytes (x : Tile) : Nat := (x.cxl.map fun e => e.volB + e.persB).sum

/-! ### Outputs -/

def State.emit (s : State) (o : Out) : State := { s with out := s.out ++ [o] }

def State.emitAll (s : State) (os : List Out) : State := { s with out := s.out ++ os }

/-- Send an MSI-X interrupt; it is lost when the link is down, the tile fenced or the device in HALT. A masked vector sets its
pending bit instead (R83, R543). -/
def State.msix (s : State) (port vec : Nat) : State :=
  if s.dev.mode = .halt ∨ s.portUp (tid port) = false then s
  else if (s.tile (tid port)).msixMask.contains vec then
    s.onTile (tid port) fun x => { x with msixPend := vec :: x.msixPend.filter fun v => decide (v ≠ vec) }
  else s.emit (.msix port vec)

/-- A 16-bit generation after this one; 0 is skipped on wrap (R145, R511). -/
def nextGen (g : Nat) : Nat := if (g + 1) % 65536 = 0 then 1 else (g + 1) % 65536

/-- The next value of the free-value counter (log 8). -/
def State.bump (s : State) : State := { s with tick := s.tick + 1 }

/-- With no command waiting the block idles and the timebase counts one nanosecond (R31, log 2); in COLD it does not run. -/
def State.idle (s : State) : State := if s.dev.mode = .cold then s else { s with now := (s.now + 1) % 2 ^ 64 }

/-! ### Queues, slices, segments, commands -/

def State.queue (s : State) (q : Nat) : Queue := tblGet s.queues q {}

def State.setQueue (s : State) (q : Nat) (v : Queue) : State := { s with queues := tblSet {} s.queues q v }

def State.onQueue (s : State) (q : Nat) (f : Queue → Queue) : State := s.setQueue q (f (s.queue q))

def State.slc (s : State) (n : Nat) : Slice := tblGet s.slices n {}

def State.setSlc (s : State) (n : Nat) (v : Slice) : State := { s with slices := tblSet {} s.slices n v }

def State.onSlc (s : State) (n : Nat) (f : Slice → Slice) : State := s.setSlc n (f (s.slc n))

def State.seg (s : State) (n : Nat) : Seg := tblGet s.segs n {}

/-- An update of an entry is written whole into every copy on every tile (R151). -/
def State.setSeg (s : State) (n : Nat) (v : Seg) : State :=
  { s with segs := tblSet {} s.segs n v, mapCopies := s.mapCopies.filter fun e => decide (e.1 % 262144 ≠ n) }

/-- Change the model's own record of a segment, which is no part of its entry. -/
def State.noteSeg (s : State) (n : Nat) (f : Seg → Seg) : State := { s with segs := tblSet {} s.segs n (f (s.seg n)) }

def State.onSeg (s : State) (n : Nat) (f : Seg → Seg) : State := s.setSeg n (f (s.seg n))

def State.block (s : State) (b : Nat) : Block := tblGet s.blocks b {}

def State.setBlock (s : State) (b : Nat) (v : Block) : State := { s with blocks := tblSet {} s.blocks b v }

/-- The command in flight that a reference names. -/
def State.cmd? (s : State) (c : CmdRef) : Option Cmd := s.cmds.find? (fun x => decide (x.ref = c))

def State.onCmd (s : State) (c : CmdRef) (f : Cmd → Cmd) : State :=
  { s with cmds := s.cmds.map fun x => if x.ref = c then f x else x }

def State.dropCmd (s : State) (c : CmdRef) : State := { s with cmds := s.cmds.filter fun x => decide (x.ref ≠ c) }

def State.query? (s : State) (qid : Nat) : Option Query := s.queries.find? (fun x => decide (x.qid = qid))

def State.onQuery (s : State) (qid : Nat) (f : Query → Query) : State :=
  { s with queries := s.queries.map fun x => if x.qid = qid then f x else x }

/-- Add to or take from the bytes charged for a tier. -/
def Slice.charge (x : Slice) (tier : Nat) (f : Nat → Nat) : Slice :=
  match tier with
  | 0 => { x with hbmUsed := f x.hbmUsed }
  | 1 => { x with ddrUsed := f x.ddrUsed }
  | _ => { x with cxlUsed := f x.cxlUsed }

/-! ### Error records (R332 to R336, R543) -/

def evEccCorrected : Nat := 0x0001
def evEccUncorrectable : Nat := 0x0002
def evScrubCorrected : Nat := 0x0003
def evScrubUncorrectable : Nat := 0x0004
def evScrubLate : Nat := 0x0005
def evDivergence : Nat := 0x0010
def evMapPoisoned : Nat := 0x0011
def evDirConflict : Nat := 0x0012
def evDirCrc : Nat := 0x0013
def evPersistFailed : Nat := 0x0014
def evCfgRewritten : Nat := 0x0015
def evCfgRecovery : Nat := 0x0016
def evTally : Nat := 0x0020
def evUnverified : Nat := 0x0021
def evCommitResidue : Nat := 0x0022
def evFrameCrc : Nat := 0x0023
def evBankRetired : Nat := 0x0024
def evUnitFenced : Nat := 0x0030
def evTileFenced : Nat := 0x0031
def evRetentionLost : Nat := 0x0032
def evWakeFail : Nat := 0x0033
def evLinkError : Nat := 0x0040
def evHostFault : Nat := 0x0041
def evLockstep : Nat := 0x0050
def evHaltEntry : Nat := 0x0051

/-- An error record before its stamp, sequence and tile are filled in. -/
def errRec (event sev : Nat) : ErrRec := { tstamp := 0, seq := 0, event := event, sev := sev, tile := 0 }

/-- Append to a ring of `n` entries: when it is full the oldest is overwritten (R335, R362). -/
def ringPush {α : Type} (n : Nat) (r : List α) (x : α) : List α :=
  if n ≤ r.length then r.drop (r.length + 1 - n) ++ [x] else r ++ [x]

/-- What a record changes in the tile's ERR block: the ring, OVERRUN, LAST_SEQ, PENDING and ALERT. -/
def Err.push (e : Err) (r : ErrRec) : Err :=
  { e with
    ring := ringPush 1024 e.ring r
    overrun := if 1024 ≤ e.ring.length then min 0xFFFF (e.overrun + 1) else e.overrun
    lastSeq := r.seq
    pending := e.pending || decide (e.irqSev ≤ r.sev)
    alert := e.alert || (e.alertEn && decide (3 ≤ r.sev)) }

/-- Write an error record to the ring of tile `t` (R332); the ring is frozen in HALT (R63). The error interrupt is sent when
PENDING sets from 0 to 1 with IRQ_EN set, on the PORT tile of queue 0 (R543). -/
def State.logErr (s : State) (t : TileId) (r : ErrRec) : State :=
  if (s.tile t).evidence.isSome then s else
  let e := (s.tile t).err
  let r := { r with tstamp := s.now, seq := (e.lastSeq + 1) % 2 ^ 32, tile := t.val }
  let rises := !e.pending && decide (e.irqSev ≤ r.sev) && e.irqEn
  let s := s.onTile t fun x => { x with err := x.err.push r }
  if rises then s.msix (s.queue 0).port e.vector else s

/-! ### Windows of the error counts (R9, R322, R334)

A count belongs to the half-open window that holds the time of its event, so a count of an earlier window ends before a later event is
counted, whether or not the row that ends the window has come. -/

/-- The length of a verification window and of a coalescing window, ns. -/
def verifyNs : Nat := 1000000000
def coalesceNs : Nat := 1000000

/-- The counts that a verification window bounds: PE mismatches (R322), Sumen-L scratch errors (R412), bad words of working SRAM banks
(R328), module retrains (R477). -/
def Tile.newVerify (x : Tile) : Tile :=
  { x with
    err := { x.err with peMiss := List.replicate 16 0, badWord := [] }
    large := x.large |> vecMap fun k => { k with eccHits := 0 }
    edges := x.edges |> vecMap fun e => { e with modules := e.modules |> vecMap fun m => { m with retrains := 0 } } }

/-- The counts of the verification window that holds this time. -/
def State.rollVerify (s : State) (t : TileId) : State :=
  if (s.tile t).err.verifyAt = s.now / verifyNs then s
  else s.onTile t fun x => { x.newVerify with err := { x.newVerify.err with verifyAt := s.now / verifyNs } }

/-- The record of the further events that an ended coalescing window has counted, written at its end (R334). -/
def State.logWindow (s : State) (t : TileId) (end_ : Nat) (c : Nat × Nat × Nat × Nat) : State :=
  { ({ s with now := end_ } : State).logErr t { errRec c.2.2.1 0 with kind := c.1, index := c.2.1, data := leBytes 4 c.2.2.2 } with now := s.now }

/-- The counts of the coalescing window that holds this time; an earlier window ends with its records. -/
def State.rollCoalesce (s : State) (t : TileId) : State :=
  let e := (s.tile t).err
  if e.coalAt = s.now / coalesceNs then s
  else
    (e.counts.filter fun c => decide (0 < c.2.2.2)).foldl (fun s c => s.logWindow t ((e.coalAt + 1) * coalesceNs) c)
      (s.onTile t fun x => { x with err := { x.err with counts := [], coalAt := s.now / coalesceNs } })

/-- Log a correctable event of a structure: the first of a 1 ms window at once with COUNT 1, the others counted (R334). -/
def State.logCorrected (s : State) (t : TileId) (r : ErrRec) : State :=
  let s := s.rollCoalesce t
  let e := (s.tile t).err
  match e.counts.find? (fun c => decide (c.1 = r.kind ∧ c.2.1 = r.index)) with
  | some _ =>
    s.onTile t fun x => { x with err := { x.err with counts := x.err.counts.map fun c =>
      if c.1 = r.kind ∧ c.2.1 = r.index then (c.1, c.2.1, c.2.2.1, c.2.2.2 + 1) else c } }
  | none =>
    (s.logErr t { r with data := leBytes 4 1 }).onTile t fun x =>
      { x with err := { x.err with counts := x.err.counts ++ [(r.kind, r.index, r.event, 0)] } }

/-- The 64 B of an error record (R332). -/
def ErrRec.bytes (r : ErrRec) : List Byte :=
  let body := leBytes 8 r.tstamp ++ leBytes 4 r.seq ++ leBytes 2 r.event ++ leBytes 1 r.sev ++ leBytes 1 (r.tile % 8) ++
    leBytes 1 r.kind ++ leBytes 1 r.index ++ leBytes 2 r.slice ++ leBytes 2 r.queue ++ leBytes 2 r.cid ++
    leBytes 4 r.segid ++ leBytes 4 r.morsel ++ leBytes 8 r.addr ++ leBytes 2 r.status ++ leBytes 1 (r.attempt % 4) ++
    leBytes 1 r.pipe ++ cut r.data 0 16
  body ++ leBytes 4 (crc32c body)

/-- The 32 B of a scheduling trace record (R362). -/
def Trace.bytes (r : Trace) : List Byte :=
  leBytes 8 r.tstamp ++ leBytes 1 r.type ++ leBytes 1 r.reason ++ leBytes 1 r.pe ++ leBytes 1 r.prio ++
    leBytes 1 (r.age + 32 * r.attempt) ++ leBytes 1 (r.eclass + 8 * r.tile) ++ leBytes 2 r.qid ++ leBytes 2 r.slice ++
    leBytes 1 r.pipe ++ leBytes 1 0 ++ leBytes 4 r.seq ++ leBytes 4 r.est ++ leBytes 4 (ofSigned 32 r.credit)

/-! ### Cinch changes that wait (R41, R44) -/

/-- A unit or tile is fenced somewhere (R34, R35). -/
def FenceBits.any (f : FenceBits) : Bool :=
  f.pe != 0 || f.sl != 0 || f.sort || f.codec || f.digest || f.hbm || f.ddr != 0 || f.cxl || f.host || f.stirrup != 0 || !f.funcs.isEmpty

/-- A retired bank of working SRAM counts as a fenced unit (R331, log 86). -/
def State.anyFence (s : State) : Bool :=
  s.dev.fenced != 0 || s.presentTiles.any fun t => (s.tile t).err.fence.any || !(s.tile t).err.retired.isEmpty

/-- The service mode: SERVICE if nothing is fenced, DEGRADED otherwise (R34, R35). -/
def State.serviceMode (s : State) : Mode := if s.anyFence then .degraded else .service

/-- Require a change; changes start in the order in which they were required (R44). -/
def State.require (s : State) (c : Change) : State :=
  { s with dev := { s.dev with waiting := s.dev.waiting ++ [c] } }

def modeChange (m : Mode) (o : Origin) : Change := { code := 1, arg := modeCode m, origin := o }

/-- The device's own entry into DEGRADED after a fence in SERVICE (R35, R41), required once. -/
def State.degrade (s : State) : State :=
  let c := modeChange .degraded .device
  if s.dev.mode = .service ∧ c ∉ s.dev.waiting ∧ s.dev.change ≠ some c ∧ c ∉ s.dev.retry
  then s.require c else s

end Sys2Proof.Machine
end

