-- ==== Sys2Proof/Machine/Store.lean ====
section
/-! DEFINITION. The segment store: layout of segments in the tiers (R26, R137 to R143, R147, R153), reads and staged writes
(R157, R158), poison, tier capacities, allocation and the Segment Map vote (R148, R149). -/

namespace Sys2Proof.Machine

/-- The 2 MiB allocation unit (R137). -/
def unitB : Nat := 2097152

def gib : Nat := 1073741824

/-- A store address (R26). -/
def storeAddr (tile tier off : Nat) : Nat := tile * 2 ^ 49 + tier * 2 ^ 47 + off

def addrTile (a : Nat) : Nat := bits a 51 49
def addrTier (a : Nat) : Nat := bits a 48 47
def addrOff (a : Nat) : Nat := a % 2 ^ 47

def Seg.tier (g : Seg) : Nat := addrTier g.base
def Seg.off (g : Seg) : Nat := addrOff g.base

/-- The set bits of a tile mask, lowest first. -/
def maskTiles (m : Nat) : List Nat := (List.range 8).filter (bit m)

/-- Data units u of R141. -/
def Seg.dataUnits (g : Seg) : Nat := ceilDiv g.length unitB

/-- Index units x of R141. -/
def Seg.indexUnits (g : Seg) : Nat :=
  if g.codec = 1 then ceilDiv (ceilDiv g.length 256 * 48) unitB else 0

/-- Data units on each tile that holds the segment (R141). -/
def Seg.rowUnits (g : Seg) : Nat :=
  if g.placement = 1 then ceilDiv g.dataUnits (maskTiles g.tiles).length else g.dataUnits

/-- Units reserved on each tile that holds the segment (R141). -/
def Seg.tileUnits (g : Seg) : Nat := g.rowUnits + g.indexUnits

/-- Units charged to the quota: summed over tiles (R144). -/
def Seg.chargeUnits (g : Seg) : Nat := g.tileUnits * (maskTiles g.tiles).length

/-- The store address of byte `b` of a striped segment (R142). -/
def Seg.stripeAddr (g : Seg) (b : Nat) : Nat :=
  let ts := maskTiles g.tiles
  let k := b / unitB
  storeAddr (ts.getD (k % ts.length) 0) g.tier (g.off + k / ts.length * unitB + b % unitB)

/-- Every store address that holds byte `b`: one, or one for each copy (R142, R143). -/
def Seg.locs (g : Seg) (b : Nat) : List Nat :=
  if g.placement = 1 then [g.stripeAddr b]
  else if g.placement = 2 then (maskTiles g.tiles).map fun t => storeAddr t g.tier (g.off + b)
  else [g.base + b]

/-- Stirrup hops between two tiles by the routing tables in force (R143, R468). -/
def State.hopsF (s : State) : Nat → Nat → Nat → Nat
  | 0, _, _ => 0
  | fuel + 1, a, b =>
    if a = b then 0 else
    let r := (s.tile (tid a)).route.getD b {}
    if r.none_ then 8 else
    1 + s.hopsF fuel ((s.tile (tid a)).edges.toList.getD r.edge {}).partner b

def State.hops (s : State) (a b : Nat) : Nat := s.hopsF 8 a b

/-- The copy of a replicated segment that a unit on tile `t` reads: its own, else the one with the fewest hops, the lowest tile
on a tie (R143). -/
def State.copyFor (s : State) (t : Nat) (g : Seg) : Nat :=
  if bit g.tiles t then t else
  (maskTiles g.tiles).foldl (fun b u => if s.hops t u < s.hops t b then u else b) ((maskTiles g.tiles).headD 0)

/-- The store address that a unit on tile `t` reads for byte `b`. -/
def State.readLoc (s : State) (t : Nat) (g : Seg) (b : Nat) : Nat :=
  if g.placement = 1 then g.stripeAddr b
  else if g.placement = 2 then storeAddr (s.copyFor t g) g.tier (g.off + b)
  else g.base + b

/-- Store addresses of byte `b` of the frame index: every tile in TILES holds a copy (R153). -/
def Seg.indexLocs (g : Seg) (b : Nat) : List Nat :=
  if g.placement = 0 then [g.fidx + b]
  else (maskTiles g.tiles).map fun t => storeAddr t g.tier (addrOff g.fidx + b)

def State.indexLoc (s : State) (t : Nat) (g : Seg) (b : Nat) : Nat :=
  if g.placement = 0 then g.fidx + b
  else storeAddr (s.copyFor t g) g.tier (addrOff g.fidx + b)

/-- CXL capacity that a tile maps at most: 2 TiB (R16, R137). -/
def cxlMax : Nat := 2199023255552

/-- Ranges of `sizes` bytes one after the other from `at_`, each from a multiple of `align`, none past the 2 TiB that a tile maps. -/
def cxlPlace (align : Nat) : Nat → List Nat → List (Nat × Nat)
  | _, [] => []
  | at_, n :: r =>
    let a := alignUp at_ align
    let k := min n (cxlMax - a)
    (a, k) :: cxlPlace align (a + k) r

/-- TRAIN maps the volatile capacities from OFFSET 0 and the persistent ones from the next 1 GiB boundary, each region from a 2 MiB
boundary (R139, log 70). -/
def mapExpanders (l : List ExpanderSeen) : List Expander :=
  let vol := cxlPlace 1 0 (l.map (·.volatile_))
  let pers := cxlPlace unitB (alignUp (vol.map (·.2)).sum gib) (l.map (·.persistent))
  (vol.zip pers).map fun e => { volAt := e.1.1, volB := e.1.2, persAt := e.2.1, persB := e.2.2 }

/-- The expander whose persistent region holds an OFFSET of a tile's CXL tier. -/
def Tile.regionAt (x : Tile) (off : Nat) : Option Nat :=
  ((x.cxl.zipIdx).find? fun e => decide (e.1.persAt ≤ off ∧ off < e.1.persAt + e.1.persB)).map (·.2)

/-- The DDR5 channel that holds an OFFSET (R138): 4 KiB by turns over twice the smaller DIMM, then the rest of the larger. -/
def Tile.ddrChannel (x : Tile) (off : Nat) : Nat :=
  if off < 2 * min x.ddr0Gib x.ddr1Gib * gib then off / 4096 % 2 else if x.ddr1Gib < x.ddr0Gib then 0 else 1

/-- The capacity of a tier of a tile in bytes (R27, R138, R139). -/
def State.tierCap (s : State) (t tier : Nat) : Nat :=
  let x := s.tile (tid t)
  match tier with
  | 0 => 48000000000
  | 1 => (x.ddr0Gib + x.ddr1Gib) * gib
  | 2 => x.cxl.foldl (fun m e => max m (max (e.volAt + e.volB) (if e.persB = 0 then 0 else e.persAt + e.persB))) 0
  | _ => 0

/-- A store address is out of range (R27). -/
def State.addrBad (s : State) (a : Nat) : Bool :=
  addrTier a == 3 || !s.live (tid (addrTile a)) || decide (s.tierCap (addrTile a) (addrTier a) ≤ addrOff a)

/-- What a byte of a segment reads as before anything has been written there: 0 after ZERO_FILL, else free (R146, log 6). -/
def Seg.blank (g : Seg) (a : Nat) : Byte := if g.zeroFill then 0 else Config.undefByte g.allocTick a

/-- The byte at a store address: staged, else in the tier (R157), if one has been written. -/
def State.cell? (s : State) (a : Nat) : Option Byte :=
  match memRead (s.tile (tid (addrTile a))).staging a with
  | some b => some b
  | none => memRead s.mem a

def State.storeByte (s : State) (g : Seg) (a : Nat) : Byte := (s.cell? a).getD (g.blank a)

/-- `n` bytes of a segment from `off`, as a unit on tile `t` reads them. -/
def State.segBytes (s : State) (t : Nat) (g : Seg) (off n : Nat) : List Byte :=
  (List.range n).map fun i => s.storeByte g (s.readLoc t g (off + i))

/-- Bytes of the frame index. -/
def State.indexBytes (s : State) (t : Nat) (g : Seg) (off n : Nat) : List Byte :=
  (List.range n).map fun i => s.storeByte g (s.indexLoc t g (off + i))

/-- The first byte of `[off, off + n)` whose 64 B unit is poisoned, as an offset from `off` (R158, R329). -/
def State.poisonAt (s : State) (t : Nat) (g : Seg) (off n : Nat) : Option Nat :=
  if s.poison.isEmpty then none
  else (List.range n).find? fun i => s.poison.contains (s.readLoc t g (off + i) / 64)

def State.indexPoison (s : State) (t : Nat) (g : Seg) (off n : Nat) : Bool :=
  if s.poison.isEmpty then false
  else (List.range n).any fun i => s.poison.contains (s.indexLoc t g (off + i) / 64)

/-- Put one byte into the staging buffer of its tile (R157). -/
def State.stage1 (s : State) (a : Nat) (b : Byte) : State :=
  s.onTile (tid (addrTile a)) fun x => { x with staging := memWrite x.staging a b }

/-- Stage a list of (address, byte) cells. -/
def State.stage (s : State) (cells : List Host.Cell) : State := cells.foldl (fun s c => s.stage1 c.1 c.2) s

/-- The 64 B units that a write covers whole. -/
def wholeUnits (cells : List Host.Cell) : List Nat :=
  let as := cells.map (·.1)
  (as.filter (fun a => a % 64 = 0)).map (· / 64) |>.filter fun u => (List.range 64).all fun i => as.contains (64 * u + i)

/-- A write of a whole unit clears its poison (R158). -/
def State.cleanse (s : State) (cells : List Host.Cell) : State :=
  if s.poison.isEmpty then s
  else { s with poison := s.poison.filter fun u => !(wholeUnits cells).contains u }

/-- The cells that a write of `bs` at segment offset `off` stores, over every copy (R143). -/
def Seg.writeCells (g : Seg) (off : Nat) (bs : List Byte) : List Host.Cell :=
  (bs.zipIdx).flatMap fun p => (g.locs (off + p.2)).map fun a => (a, p.1)

def Seg.indexCells (g : Seg) (off : Nat) (bs : List Byte) : List Host.Cell :=
  (bs.zipIdx).flatMap fun p => (g.indexLocs (off + p.2)).map fun a => (a, p.1)

/-- Move the staged bytes of tile `t` that satisfy `p` to the tier: a listed byte is the one that a read returned until now. -/
def State.drainTile (s : State) (p : Nat → Bool) (t : TileId) : State :=
  let mine (c : Host.Cell) : Bool := p c.1 && addrTile c.1 == t.val
  ({ s with mem := ((s.tile t).staging.filter mine).foldr (fun c m => memWrite m c.1 c.2) s.mem } : State).onTile t fun x =>
    { x with staging := x.staging.filter fun c => !mine c }

/-- Move the staged bytes that satisfy `p` to their tiers on every tile (R157, R161). -/
def State.drainWhere (s : State) (p : Nat → Bool) : State := allTiles.foldl (fun s t => s.drainTile p t) s

/-- Bytes of a staging buffer: 16 MiB (R157). -/
def stagingMax : Nat := 16777216

/-- A write waits while a buffer is full: what a buffer holds beyond its size has been drained (R157, log 71). -/
def State.drainFull (s : State) : State :=
  allTiles.foldl (fun s t => if (s.tile t).staging.length ≤ stagingMax then s else s.drainTile (fun _ => true) t) s

/-- Write bytes of a segment: staged on every tile that holds them (R157). -/
def State.segPut (s : State) (g : Seg) (off : Nat) (bs : List Byte) : State :=
  let cells := g.writeCells off bs
  ((s.stage cells).cleanse cells).drainFull

/-- Write bytes of segment `id`, whose entry the writer sees as `g`, and set DIRTY; with no byte staged nothing changes (R157, R163). -/
def State.segStore (s : State) (id : Nat) (g : Seg) (off : Nat) (bs : List Byte) : State :=
  if bs.isEmpty then s else (s.segPut g off bs).onSeg id fun g => { g with dirty := true }

/-- Write bytes of a frame index (R153). -/
def State.indexStore (s : State) (g : Seg) (off : Nat) (bs : List Byte) : State :=
  let cells := g.indexCells off bs
  ((s.stage cells).cleanse cells).drainFull

/-- Insert into a rising list without repeats. -/
def insertRising : List Nat → Nat → List Nat
  | [], x => [x]
  | y :: r, x => if x < y then x :: y :: r else if x = y then y :: r else y :: insertRising r x

/-- Poison the 64 B unit of a store address (R158). -/
def State.poisonUnit (s : State) (a : Nat) : State := { s with poison := insertRising s.poison (a / 64) }

/-! ### Frame index entries (R153) -/

/-- The 48 B index entry of frame `i`. -/
def State.indexEntry (s : State) (t : Nat) (g : Seg) (i : Nat) : List Byte := s.indexBytes t g (48 * i) 48

/-- Build an index entry. -/
def makeIndexEntry (foff fsize : Nat) (hdr : List Byte) : List Byte :=
  let body := leBytes 6 foff ++ leBytes 2 fsize ++ cut hdr 0 32
  body ++ leBytes 4 (crc32c body) ++ leBytes 4 0

/-- ICRC of an index entry is good (R153, R156). -/
def indexEntryOk (e : List Byte) : Bool := crc32c (cut e 0 40) == field e 40 4

/-- The index entry that ends a PFC segment's fill passes its ICRC, or there is none (R153, R156). -/
def State.fillOk (s : State) (t : Nat) (g : Seg) : Bool := g.nframes == 0 || indexEntryOk (s.indexEntry t g (g.nframes - 1))

/-- The fill of a PFC segment: the end of its last frame (R153). -/
def State.fill (s : State) (t : Nat) (g : Seg) : Nat :=
  if g.nframes = 0 then 0 else
  let e := s.indexEntry t g (g.nframes - 1)
  field e 0 6 + field e 6 2

/-- The capacity of a frame index in entries (R153). -/
def Seg.indexCap (g : Seg) : Nat := ceilDiv g.length 256

/-! ### Segment Map entries (R147) -/

/-- The 32 B of an entry. -/
def Seg.bytes (g : Seg) : List Byte :=
  leBytes 32 (g.base + 2 ^ 56 * g.tiles + 2 ^ 64 * g.length + 2 ^ 108 * g.placement + 2 ^ 110 * g.codec +
    2 ^ 111 * boolNat g.valid + 2 ^ 112 * boolNat g.persistent + 2 ^ 113 * boolNat g.dirty + 2 ^ 114 * boolNat g.fenced +
    2 ^ 115 * boolNat g.poison + 2 ^ 118 * g.slice + 2 ^ 128 * g.gen + 2 ^ 144 * g.nframes + 2 ^ 176 * g.fidx)

/-- Take the fields of a 32 B entry, keeping the model's own record of the allocation. -/
def Seg.ofBytes (old : Seg) (bs : List Byte) : Seg :=
  let v := leNat (cut bs 0 32)
  { old with
    base := bits v 51 0, tiles := bits v 63 56, length := bits v 107 64, placement := bits v 109 108, codec := bits v 110 110
    valid := bit v 111, persistent := bit v 112, dirty := bit v 113, fenced := bit v 114, poison := bit v 115
    slice := bits v 127 118, gen := bits v 143 128, nframes := bits v 175 144, fidx := bits v 227 176 }

/-- Segments that are allocated, with their IDs. -/
def State.validSegs (s : State) : List (Nat × Seg) := s.segs.filter fun e => e.2.valid

/-! ### Tier space (R137, R139, R141) -/

/-- Persistent segments of the region of an expander (R159). -/
def State.persistentIn (s : State) (t : Nat) (k : Nat) : List (Nat × Seg) :=
  s.validSegs.filter fun e => e.2.persistent && bit e.2.tiles t && (s.tile (tid t)).regionAt e.2.off == some k

/-- A directory holds 32,768 records (R159). -/
def dirMax : Nat := 32768

/-- The units of a persistent region past its directory unit: [first, end), while its directory has room (R139, R159). -/
def State.regionUnits (s : State) (t k : Nat) (e : Expander) : List (Nat × Nat) :=
  if unitB < e.persB ∧ (s.persistentIn t k).length < dirMax then [(e.persAt / unitB + 1, (e.persAt + e.persB) / unitB)] else []

/-- Units of a tier that an allocation may use, as ranges [first, end) (R137, R139). -/
def State.tierRanges (s : State) (t tier : Nat) (persistent : Bool) : List (Nat × Nat) :=
  let x := s.tile (tid t)
  match tier with
  | 0 => [(0, 22376)]
  | 1 => [(0, (s.tierCap t 1 / unitB * unitB - gib) / unitB)]
  | 2 =>
    if persistent then x.cxl.zipIdx.flatMap fun e => s.regionUnits t e.2 e.1
    else [(0, (x.cxl.map (·.volB)).sum / unitB)]
  | _ => []

/-- Reserved unit ranges of a tier of a tile: [first, first + n). -/
def State.usedUnits (s : State) (t tier : Nat) : List (Nat × Nat) :=
  ((s.validSegs.filter fun e => e.2.tier = tier ∧ bit e.2.tiles t = true).map fun e =>
    (e.2.off / unitB, e.2.tileUnits)) ++
  ((s.stuck.filter fun r => r.1 = 4 * t + tier).map fun r => (r.2.1, r.2.2))

/-- `n` units from `u` are free on a tile's tier. -/
def State.unitsFree (s : State) (t tier : Nat) (persistent : Bool) (u n : Nat) : Bool :=
  ((s.tierRanges t tier persistent).any fun r => decide (r.1 ≤ u ∧ u + n ≤ r.2)) &&
  (s.usedUnits t tier).all fun r => decide (u + n ≤ r.1 ∨ r.1 + r.2 ≤ u)

/-- The unit offsets at which `n` units are free on every tile of a mask (R141). -/
def State.freeOffsets (s : State) (mask tier : Nat) (persistent : Bool) (n : Nat) : List Nat :=
  let ts := maskTiles mask
  let hi (t : Nat) : Nat := ((s.tierRanges t tier persistent).map (·.2)).foldl max 0
  (List.range (ts.foldl (fun m t => min m (hi t)) (hi (ts.headD 0)))).filter fun u => ts.all fun t => s.unitsFree t tier persistent u n

/-- Allocatable units of a tier on a tile (R446). -/
def State.tierTotal (s : State) (t tier : Nat) : Nat :=
  ((s.tierRanges t tier false).map fun r => r.2 - r.1).sum +
  if tier = 2 then ((s.tile (tid t)).cxl.map fun e => if unitB < e.persB then (e.persAt + e.persB) / unitB - e.persAt / unitB - 1 else 0).sum
  else 0

/-- A tier of a tile holds an allocated unit (R364). -/
def State.tierHeld (s : State) (t tier : Nat) : Bool :=
  s.segs.any fun e => e.2.valid && e.2.tier == tier && bit e.2.tiles t

/-- Forget every byte and poison mark of the ranges that a segment reserves: they are zeroed or undefined (R146). -/
def State.forgetSeg (s : State) (g : Seg) : State :=
  (maskTiles g.tiles).foldl (fun s t =>
    let lo := storeAddr t g.tier g.off
    let n := g.tileUnits * unitB
    let s := { s with
      mem := memErase s.mem lo n
      durable := memErase s.durable lo n
      poison := s.poison.filter fun u => decide (64 * u + 63 < lo ∨ lo + n ≤ 64 * u) }
    s.onTile (tid t) fun x => { x with staging := memErase x.staging lo n }) s

/-! ### The vote (R148, R149) -/

/-- The key of a copy in `mapCopies`: copies 0, 1 and 2 are A, B and C. -/
def copyKey (t : TileId) (ix id : Nat) : Nat := (t.val * 3 + ix) * 262144 + id

/-- The content of a copy of an entry on a tile. -/
def State.copyBytes (s : State) (t : TileId) (ix id : Nat) : List Byte := tblGet s.mapCopies (copyKey t ix id) (s.seg id).bytes

/-- Put a content into a copy. -/
def State.setCopy (s : State) (t : TileId) (ix id : Nat) (v : List Byte) : State :=
  { s with mapCopies := tblSet (s.seg id).bytes s.mapCopies (copyKey t ix id) v }

/-- The value that a read of a copy returns; none when it is bad. -/
def copyValue (held : List Byte) : CopySeen → Option (List Byte)
  | .good => some held
  | .corrected => some held
  | .bad => none
  | .changed e => some (cut e 0 32)

/-- The majority of three copies, if two good copies are equal. -/
def majority (a b c : Option (List Byte)) : Option (List Byte) :=
  if a.isSome ∧ a = b then a
  else if a.isSome ∧ a = c then a
  else if b.isSome ∧ b = c then b
  else none

/-- The entry as a lookup on a tile sees it: what the majority of the tile's copies holds (R148). -/
def State.segOn (s : State) (t : TileId) (id : Nat) : Seg :=
  if s.mapCopies.isEmpty then s.seg id
  else match majority (some (s.copyBytes t 0 id)) (some (s.copyBytes t 1 id)) (some (s.copyBytes t 2 id)) with
    | some w => if w = (s.seg id).bytes then s.seg id else (s.seg id).ofBytes w
    | none => s.seg id

/-- The bytes of an entry with POISON and FENCED set (R149). -/
def markBytes (e : List Byte) : List Byte := leBytes 32 (setBit (setBit (leNat (cut e 0 32)) 114) 115)

/-- Write POISON and FENCED into all copies of an entry on every tile, their other bits as they were, and log it (R149). -/
def State.poisonEntry (s : State) (t : TileId) (id : Nat) : State :=
  let old := s.mapCopies.filter fun e => decide (e.1 % 262144 = id)
  let s := s.onSeg id fun g => { g with poison := true, fenced := true }
  let s : State := { s with mapCopies := old.foldl (fun m e => tblSet (s.seg id).bytes m e.1 (markBytes e.2)) s.mapCopies }
  s.logErr t { errRec evMapPoisoned 2 with kind := 0x0B, segid := id }

/-- An event of a copy of an entry (R148). -/
def copyRec (event sev ix id : Nat) : ErrRec := { errRec event sev with kind := 0x0B, index := ix, segid := id }

/-- A copy whose domain a wake failure has left OFF takes no part in the vote (R379). -/
def State.copyThere (s : State) (t : TileId) (ix : Nat) (c : CopySeen) : CopySeen :=
  if (s.tile t).err.fence.funcs.contains (47 + ix) then .bad else c

/-- A copy that SECDED corrected is logged. -/
def State.logFixed (s : State) (t : TileId) (id ix : Nat) (c : CopySeen) : State :=
  if c = .corrected ∧ (s.tile t).err.fence.funcs.contains (47 + ix) = false then s.logCorrected t (copyRec evEccCorrected 0 ix id) else s

/-- A bad copy that is there is logged. -/
def State.logBad (s : State) (t : TileId) (id ix : Nat) (c : CopySeen) : State :=
  if c = .bad ∧ (s.tile t).err.fence.funcs.contains (47 + ix) = false then s.logErr t (copyRec evEccUncorrectable 1 ix id) else s

/-- A good copy that differed from the majority is logged. -/
def State.logDiverged (s : State) (t : TileId) (id ix : Nat) (w : List Byte) (v : Option (List Byte)) : State :=
  if v.any fun x => x != w then s.logErr t (copyRec evDivergence 1 ix id) else s

/-- The vote of R148 on tile `t`: with a majority the tile's copies are rewritten and the events logged; without one the entry is
poisoned, each copy keeping what it read as. The Boolean says whether there is a majority. -/
def State.vote (s : State) (t : TileId) (v : VoteSeen) : State × Bool :=
  let id := v.segid
  let va := copyValue (s.copyBytes t 0 id) (s.copyThere t 0 v.a)
  let vb := copyValue (s.copyBytes t 1 id) (s.copyThere t 1 v.b)
  let vc := copyValue (s.copyBytes t 2 id) (s.copyThere t 2 v.c)
  match majority va vb vc with
  | some w =>
    let s := ((s.setCopy t 0 id w).setCopy t 1 id w).setCopy t 2 id w
    let s := ((s.logFixed t id 0 v.a).logFixed t id 1 v.b).logFixed t id 2 v.c
    let s := ((s.logBad t id 0 v.a).logBad t id 1 v.b).logBad t id 2 v.c
    (((s.logDiverged t id 0 w va).logDiverged t id 1 w vb).logDiverged t id 2 w vc, true)
  | none =>
    let keep (s : State) (ix : Nat) (x : Option (List Byte)) : State := s.setCopy t ix id (x.getD (s.copyBytes t ix id))
    ((keep (keep (keep s 0 va) 1 vb) 2 vc).poisonEntry t id, false)

/-- The contents that the copies of an entry hold over the live tiles: the package's, and those that differ (R150). -/
def State.copiesOf (s : State) (id : Nat) : List Seg :=
  s.seg id :: ((s.mapCopies.filter fun e => decide (e.1 % 262144 = id)).map fun e => (s.seg id).ofBytes e.2)

/-! ### The segment of a store address -/

/-- A store address lies in the units that a segment reserves. -/
def Seg.holds (g : Seg) (a : Nat) : Bool :=
  g.valid && g.tier == addrTier a && bit g.tiles (addrTile a) && decide (g.off ≤ addrOff a ∧ addrOff a < g.off + g.tileUnits * unitB)

def State.segAt (s : State) (a : Nat) : Option (Nat × Seg) := s.segs.find? fun e => e.2.holds a

end Sys2Proof.Machine
end

