-- ==== Sys2Proof/Machine/Domain.lean ====
section
/-! DEFINITION. Power domains: parents, votes, resolution and the votes that firmware holds in each mode (R364 to R371, R388). -/

namespace Sys2Proof.Machine

/-! ### Domain numbers and parents (R364) -/

/-- FAB_Q quadrant k. -/
def domQ (k : Nat) : Nat := 32 + k

/-- STIRRUP domain of edge e. -/
def domStir (e : Nat) : Nat := 36 + e

/-- Parents of a domain, from the table "Power domains". -/
def domParents (d : Nat) : List Nat :=
  if d < 16 then [domQ (d / 4)]
  else if d < 20 then [domQ (d - 16)]
  else if d < 28 then [domQ ((d - 20) / 2)]
  else match d with
    | 28 => [32] | 29 => [33] | 30 => [34] | 31 => [32, 33, 34, 35]
    | 36 => [32] | 37 => [33] | 38 => [35] | 39 => [34]
    | 40 => [34] | 41 => [34] | 42 => [35]
    | 43 => [44, 33] | 45 => [33] | 46 => [32] | 51 => [46] | 53 => [33]
    | _ => []

/-- Domains that name a domain as parent: the inverse of `domParents`. -/
def domChildren : Nat → List Nat
  | 32 => [0, 1, 2, 3, 16, 20, 21, 28, 31, 36, 46]
  | 33 => [4, 5, 6, 7, 17, 22, 23, 29, 31, 37, 43, 45, 53]
  | 34 => [8, 9, 10, 11, 18, 24, 25, 30, 31, 39, 40, 41]
  | 35 => [12, 13, 14, 15, 19, 26, 27, 31, 38, 42]
  | 44 => [43]
  | 46 => [51]
  | _ => []

/-- Reset value of PD_DOM_CFG.IDLE, true for OFF (R364). -/
def domIdleOff (d : Nat) : Bool := [36, 37, 38, 39, 43, 44, 54, 55].contains d

def allDoms : List DomId := List.ofFn (fun i : Fin 56 => i)

def domN (n : Nat) : DomId := ⟨n % 56, Nat.mod_lt _ (by decide)⟩

def Tile.dom (x : Tile) (d : DomId) : Dom := x.doms[d]

def Tile.onDom (x : Tile) (d : DomId) (f : Dom → Dom) : Tile :=
  { x with doms := x.doms.set d.val (f x.doms[d]) d.isLt }

def State.dom (s : State) (t : TileId) (d : DomId) : Dom := (s.tile t).dom d

def State.onDom (s : State) (t : TileId) (d : DomId) (f : Dom → Dom) : State :=
  s.onTile t fun x => x.onDom d f

/-- A domain is ON and not on its way elsewhere. -/
def Tile.domOn (x : Tile) (d : Nat) : Bool := (x.dom (domN d)).st == .on

def State.domOn (s : State) (t : TileId) (d : Nat) : Bool := (s.tile t).domOn d

/-! ### Neighbours (R14) -/

/-- The tile that edge `e` of tile `t` faces in the 4 × 2 arrangement. -/
def facing (t e : Nat) : Option Nat :=
  match e with
  | 0 => if 4 ≤ t then some (t - 4) else none
  | 1 => if t % 4 < 3 then some (t + 1) else none
  | 2 => if t < 4 then some (t + 4) else none
  | 3 => if 0 < t % 4 then some (t - 1) else none
  | _ => none

/-- The partner of an edge on the part in hand (R14, R15). -/
def State.partner (s : State) (t : TileId) (e : EdgeId) : Option TileId :=
  match facing t.val e.val with
  | some u => if s.present t ∧ s.presentNo u = true then some (tid u) else none
  | none => none

/-- The edge of the partner that faces back: N with S, E with W. -/
def oppositeEdge (e : EdgeId) : EdgeId := e + 2

/-- A domain that is never ON: the STIRRUP domain of an edge without a partner (R15). -/
def State.domNever (s : State) (t : TileId) (d : DomId) : Bool :=
  if h : 36 ≤ d.val ∧ d.val < 40 then (s.partner t ⟨d.val - 36, by omega⟩).isNone else false

/-! ### Votes (R368, R369) -/

def setVotes (v : List Nat) (voter x : Nat) : List Nat := v.set voter x

def Dom.vote (x : Dom) (voter v : Nat) : Dom := { x with votes := setVotes x.votes voter v }

/-- The target state to which a domain's votes resolve (R369). -/
def Dom.target (x : Dom) : DomState :=
  if x.votes.contains 2 then .on
  else match x.st with
    | .off => .off
    | _ => if x.votes.contains 1 then .ret else if x.idleOff then .off else .ret

/-- ON, waking or wanted ON: the states in which a domain's parents are voted ON by the DEPENDENCY voter (R368). -/
def Dom.needsParents (x : Dom) : Bool :=
  x.st == .on || x.phase == .waking || (x.target == .on && !x.wakeFail)

/-- One pass of the DEPENDENCY voter over a tile. -/
def Tile.depPass (x : Tile) : Tile :=
  { x with doms := vecOf fun d : Fin 56 =>
      let need := (domChildren d.val).any fun c => (x.dom (domN c)).needsParents
      (x.dom d).vote 4 (if need then 2 else 0) }

/-- The DEPENDENCY votes settle after three passes: no chain of parents is longer (R364, R368). -/
def Tile.settle (x : Tile) : Tile := x.depPass.depPass.depPass

/-- Place a vote and settle the DEPENDENCY votes; the code 0b11 is reserved and discarded (R368). -/
def State.castVote (s : State) (t : TileId) (d : DomId) (voter v : Nat) : State :=
  if 2 < v then s else s.onTile t fun x => (x.onDom d fun y => y.vote voter v).settle

/-- A tile's working SRAM holds reserved pages (R248, R364). -/
def State.sramHeld (s : State) (t : TileId) : Bool :=
  s.queries.any fun q => q.sram.getD t.val 0 != 0

/-- An edge's link is trained (R364). -/
def Edge.trained (e : Edge) : Bool := e.st == .active || e.st == .retrain || e.st == .l1

/-- A link that is trained, or that trains again on the change from NIGHTWATCH to READY (R364, R488). -/
def Edge.wanted (e : Edge) : Bool := e.trained || e.st == .training

/-- The FIRMWARE votes of the table "Power domains" (R364). A fenced unit has none (R324). -/
def State.fwServing (s : State) (t : TileId) (d cur : Nat) : Nat :=
  let x := s.tile t
  if d < 16 then 0
  else if d < 20 then (if bit x.err.fence.sl (d - 16) then 0 else cur)
  else if d < 28 then (if s.sramHeld t then 1 else 0)
  else if d < 36 then 0
  else if d < 40 then (if (x.edges.toList.getD (d - 36) {}).wanted then 2 else 0)
  else match d with
    | 40 => if s.tierHeld t.val 0 then 1 else 0
    | 41 => if s.tierHeld t.val 1 then 1 else 0
    | 42 => if s.tierHeld t.val 1 then 1 else 0
    | 43 | 44 =>
      if s.hostRole t then (if x.linkUp then 2 else 0) else (if x.cxlBytes = 0 then 0 else 2)
    | 51 => 0
    | 54 => 0
    | _ => 2

/-- The FIRMWARE votes of DAWN (R365). -/
def State.fwDawn (s : State) (t : TileId) (d : Nat) : Nat :=
  if d = 45 ∨ d = 46 ∨ d = 50 ∨ d = 52 ∨ d = 53 ∨ (32 ≤ d ∧ d < 36) then 2
  else if 36 ≤ d ∧ d < 40 then (if s.domNever t (domN d) then 0 else 2)
  else 0

/-- The FIRMWARE vote on a domain in a mode (R364, R365, R388); `cur` is the vote it holds. -/
def State.fwVote (s : State) (m : Mode) (t : TileId) (d cur : Nat) : Nat :=
  match m with
  | .cold => 0
  | .test => cur
  | .dawn => s.fwDawn t d
  | .train => if (36 ≤ d ∧ d < 45) ∨ (47 ≤ d ∧ d < 50) then 2 else s.fwDawn t d
  | .activate => if 16 ≤ d ∧ d < 20 then 1 else s.fwServing t d cur
  | .nightwatch | .halt => if (d = 43 ∨ d = 44) ∧ s.hostRole t = true ∧ (s.tile t).linkUp = true then 2 else 0
  | _ => s.fwServing t d cur

/-- Firmware votes again on every domain of a tile. -/
def State.revote (s : State) (t : TileId) : State :=
  s.onTile t fun x =>
    { x with doms := vecOf fun d : Fin 56 =>
        (x.dom d).vote 1 (s.fwVote s.dev.mode t d.val ((x.dom d).votes.getD 1 0)) }.settle

def State.revoteAll (s : State) : State := s.presentTiles.foldl (fun s t => s.revote t) s

/-- The SCHEDULER and FABRIC voters withdraw every vote (R388). -/
def State.dropSchedVotes (s : State) (t : TileId) : State :=
  s.onTile t fun x => ({ x with doms := x.doms |> vecMap fun y => (y.vote 2 0).vote 3 0 } : Tile).settle

/-- Open the head switches of every switched domain of a tile (R385, R521). -/
def Tile.openAll (x : Tile) : Tile :=
  { x with doms := x.doms |> vecMap fun y => { y with st := .off, phase := .stable, ramping := false, entered := false } }

/-- Bring every domain whose target is ON to ON at once: used where one step of the boot stands for the wakes inside it
(log 14). -/
def Tile.wakeAll (s : State) (t : TileId) (x : Tile) : Tile :=
  { x with doms := vecOf fun d : Fin 56 =>
      let y := x.dom d
      if y.target = .on ∧ y.wakeFail = false ∧ s.domNever t d = false then
        { y with st := .on, phase := .stable, entered := false } else y }

def State.wakeTile (s : State) (t : TileId) : State := s.onTile t fun x => Tile.wakeAll s t x

end Sys2Proof.Machine
end

