-- ==== Sys2Proof/Machine/Flags.lean ====
section
/-! DEFINITION. Status codes of completions (R135), the forming of completions (R102) and the outcome records of queries. -/

namespace Sys2Proof.Machine

/-! ### Status codes (R135) -/

def stSuccess : Nat := 0x0000
def stPartial : Nat := 0x0001
def stContinuation : Nat := 0x0002
def stInvalidOpcode : Nat := 0x0101
def stInvalidField : Nat := 0x0102
def stChainMalformed : Nat := 0x0103
def stLengthMismatch : Nat := 0x0104
def stSegNotFound : Nat := 0x0201
def stOutOfRange : Nat := 0x0202
def stQuota : Nat := 0x0203
def stMapIncoherent : Nat := 0x0204
def stSegFenced : Nat := 0x0205
def stImageMalformed : Nat := 0x0301
def stOverflow : Nat := 0x0302
def stDivZero : Nat := 0x0303
def stSumenFault : Nat := 0x0304
def stResultSpace : Nat := 0x0305
def stUnverified : Nat := 0x0401
def stDataCrc : Nat := 0x0402
def stUncorrectable : Nat := 0x0403
def stSliceFrozen : Nat := 0x0501
def stNoResources : Nat := 0x0601
def stUnavailable : Nat := 0x0701
def stRetentionLost : Nat := 0x0702
def stEarlyRead : Nat := 0x0801
def stKeySlotEmpty : Nat := 0x0802
def stOutputSpace : Nat := 0x0803
def stTranslation : Nat := 0x0901
def stHostAbort : Nat := 0x0902

/-- The status of a host error (R111). -/
def hostStatus : HostErr → Nat
  | .translation => stTranslation
  | .abort => stHostAbort

/-! ### Forming completions -/

/-- The error event that a failing status logs (R331, R333): host faults, frame CRC errors and unverified results, SEV 2. -/
def statusEvent (status : Nat) : Option Nat :=
  if status / 256 = 9 then some evHostFault
  else if status = stDataCrc then some evFrameCrc
  else if status = stUnverified then some evUnverified
  else none

/-- The error record of a failed command on its home tile (R332). -/
def Cmd.errRecord (x : Cmd) (event status addr : Nat) : ErrRec :=
  { errRec event 2 with
    slice := x.slice, queue := x.ref.q.val, cid := field (x.entries.headD []) 2 2, segid := x.named.headD 0
    addr := addr, status := status }

/-- Form the completion of a command: stamped, and the command waits for its write (R79, R102); a failure with an event of its own
is logged, but that of a query, whose record is written when the failure is detected. -/
def State.finish (s : State) (c : CmdRef) (k : Completion) : State :=
  match s.cmd? c with
  | none => s
  | some x =>
    let s := match statusEvent k.status, x.prog with
      | _, .query _ => s
      | some e, _ => s.logErr (tid x.home) (x.errRecord e k.status k.faddr)
      | none, _ => s
    s.onCmd c fun y => { y with phase := .done, prog := .idle, comp := { k with tstamp := s.now } }

/-- A failure with its error location (R549) and detail. -/
def State.fail (s : State) (c : CmdRef) (status errloc detail : Nat) : State :=
  s.finish c { status := status, errloc := if 0x0100 ≤ status ∧ status < 0x0200 then errloc else 0, detail := detail }

/-- Success with result bytes from RESULT byte 8 on. -/
def State.succeed (s : State) (c : CmdRef) (result : List Byte) : State :=
  s.finish c { status := stSuccess, result := result }

/-- A failure of a data movement: FAULT_OFFSET in RESULT [15:8] (R111). -/
def State.failAt (s : State) (c : CmdRef) (status detail off : Nat) : State :=
  s.finish c { status := status, detail := detail, result := leBytes 8 off }

/-- A result for the command that was fetched as number `order`: one for a command that a queue reset has discarded is dropped and
counted (R92). -/
def State.forCmd (s : State) (c : CmdRef) (order : Nat) (f : State → State) : State :=
  if (s.cmd? c).any fun x => x.order == order then f s
  else s.onQueue c.q.val fun u => { u with staleDrops := min 0xFFFFFFFF (u.staleDrops + 1) }

/-- Data that the command needs is poisoned: UNCORRECTABLE_MEMORY, with the address logged (R330, R333). -/
def State.failPoison (s : State) (c : CmdRef) (off addr : Nat) : State :=
  match s.cmd? c with
  | none => s
  | some x =>
    (s.logErr (tid x.home) (x.errRecord evEccUncorrectable stUncorrectable addr)).failAt c stUncorrectable 0 off

/-- The command has started and not completed. -/
def State.running? (s : State) (c : CmdRef) : Option Cmd :=
  match s.cmd? c with
  | some x => if x.phase = .started then some x else none
  | none => none

/-- The opcode of a command (R100). -/
def Cmd.op (x : Cmd) : Nat := byteAt (x.entries.headD []) 0

/-- A command that has started and carries the opcode. -/
def State.runningOp? (s : State) (c : CmdRef) (op : Nat) : Option Cmd :=
  match s.running? c with
  | some x => if x.op = op then some x else none
  | none => none

end Sys2Proof.Machine
end

