-- ==== Sys2Proof/Machine/Operands.lean ====
section
/-! DEFINITION. The operand forms of Losis commands: opcodes, queues and entry counts (R105), reserved bytes (R101, check 4), DREFs
(R108, R109), field ranges and combinations (check 5), segments named and Buckle ranges (R96). -/

namespace Sys2Proof.Machine

/-! ### Opcodes (R105) -/

inductive QClass where
  | any | slice0 | queue0
  deriving DecidableEq, Repr

/-- The queues that may issue an opcode; none for an opcode that does not exist. -/
def opQueues : Nat → Option QClass
  | 0x03 | 0x10 | 0x11 | 0x12 | 0x13 | 0x14 | 0x15 | 0x16 | 0x70 | 0x71 => some .slice0
  | 0x04 | 0x05 => some .queue0
  | 0x01 | 0x02 | 0x20 | 0x21 | 0x22 | 0x23 | 0x24 | 0x25 | 0x26 | 0x30 | 0x31 | 0x32
  | 0x40 | 0x41 | 0x50 | 0x51 | 0x60 | 0x61 | 0x7F => some .any
  | _ => none

def queueAllowed (qc : QClass) (q slice : Nat) : Bool :=
  match qc with
  | .any => true
  | .slice0 => slice == 0
  | .queue0 => q == 0

/-- Commands carried by hardware state machines (table "Opcodes"). -/
def opHw (op : Nat) : Bool := [0x22, 0x23, 0x24, 0x25, 0x26, 0x40, 0x41, 0x50, 0x51, 0x7F].contains op

/-! ### Fields of a chain -/

/-- The bytes of a chain; entry k starts at offset 64 k. -/
def Cmd.chain (x : Cmd) : List Byte := x.entries.flatten

/-- A field of the chain at a chain offset. -/
def Cmd.f (x : Cmd) (off n : Nat) : Nat := field x.chain off n

def Cmd.cid (x : Cmd) : Nat := x.f 2 2
def Cmd.cflags (x : Cmd) : Nat := x.f 1 1
def Cmd.q (x : Cmd) : Nat := x.ref.q.val

/-- A data reference (R108). -/
structure Dref where
  addr  : Nat
  total : Nat
  ndesc : Nat
  deriving DecidableEq, Repr

def Cmd.dref (x : Cmd) (off : Nat) : Dref := { addr := x.f off 8, total := x.f (off + 8) 4, ndesc := x.f (off + 12) 2 }

/-- The chain offset of binding byte `i` (R123). -/
def bindOff (i : Nat) : Nat := if i < 31 then 32 + i else 64 * (1 + (i - 31) / 63) + (i - 31) % 63

/-- The binding area of QUERY_RUN: FIRST bytes [62:32], then bytes [62:0] of each continuation entry. -/
def Cmd.binding (x : Cmd) : List Byte :=
  match x.entries with
  | [] => []
  | e :: r => cut e 32 31 ++ r.flatMap fun c => cut c 0 63

def Cmd.nseg (x : Cmd) : Nat := x.f 10 2
def Cmd.paramBytes (x : Cmd) : Nat := x.f 12 2

/-- The entries that a QUERY_RUN needs: the least n with 31 + 63 (n − 1) ≥ 4 NSEG + PARAM_BYTES (R123). -/
def Cmd.queryEntries (x : Cmd) : Nat := 1 + ceilDiv (4 * x.nseg + x.paramBytes - 31) 63

/-- Check 3: the entry count of the opcode. -/
def Cmd.entriesOk (x : Cmd) : Bool :=
  match x.op with
  | 0x10 | 0x50 | 0x51 => x.entries.length == 2
  | 0x32 => x.entries.length == x.queryEntries
  | _ => x.entries.length == 1

/-! ### Reserved bytes (check 4) -/

/-- Chain byte ranges [lo, hi] that an opcode defines, beside OPCODE and CID. -/
def Cmd.spans (x : Cmd) : List (Nat × Nat) :=
  match x.op with
  | 0x01 => (4, 4) :: if x.f 4 1 = 0 then [] else [(6, 7)]
  | 0x02 => [(4, 5), (8, 29)]
  | 0x03 => [(4, 5), (8, 15)]
  | 0x04 => [(4, 4), (8, 11), (16, 29)]
  | 0x05 => [(4, 4)]
  | 0x10 => [(4, 5), (8, 9), (12, 21), (24, 47), (64, 75)]
  | 0x11 | 0x12 | 0x13 | 0x16 => [(4, 5)]
  | 0x14 => [(4, 5), (16, 29)]
  | 0x15 => [(4, 5), (8, 9), (16, 29)]
  | 0x20 => [(4, 19), (21, 23)]
  | 0x21 | 0x25 => [(4, 7)]
  | 0x22 | 0x23 => [(4, 29)]
  | 0x24 => [(4, 11), (16, 39)]
  | 0x26 => [(4, 7)]
  | 0x30 => [(8, 21)]
  | 0x31 => [(4, 7)]
  | 0x32 => [(4, 8), (10, 13), (16, 29)]
  | 0x40 => [(4, 4), (8, 25), (32, 39)]
  | 0x41 => [(4, 5), (8, 25), (32, 39)]
  | 0x50 => [(4, 5), (8, 21), (24, 37), (40, 47), (88, 111)] ++ if bit x.cflags 0 then [(64, 87)] else []
  | 0x51 => [(4, 4), (8, 21), (24, 37), (40, 47), (88, 111)] ++ if bit x.cflags 0 then [(64, 87)] else []
  | 0x60 => [(4, 17)]
  | 0x61 => [(4, 4)]
  | 0x70 | 0x71 => [(4, 5)]
  | _ => []

/-- Defined bits of bytes that hold reserved bits: CFLAGS, PASID, SFLAGS and WRAP. -/
def Cmd.partMask (x : Cmd) (off : Nat) : Nat :=
  match x.op, off with
  | 0x05, 1 | 0x14, 1 | 0x40, 1 | 0x41, 1 | 0x50, 1 | 0x51, 1 => 1
  | 0x10, 10 | 0x15, 10 => 0x0F
  | 0x20, 20 => 3
  | 0x26, 8 => 1
  | _, _ => 0

/-- Bytes of the binding area that hold bindings and parameters. -/
def Cmd.inBinding (x : Cmd) (off : Nat) : Bool :=
  let i := if off < 64 then off - 32 else 31 + 63 * (off / 64 - 1) + off % 64
  x.op == 0x32 && decide (32 ≤ off) && decide (i < 4 * x.nseg + x.paramBytes)

/-- The bits of a chain byte that are defined: flag byte bits [2:0] are reserved (R66). -/
def Cmd.mask (x : Cmd) (off : Nat) : Nat :=
  if off % 64 = 63 then 0xF8
  else if off = 0 ∨ off = 2 ∨ off = 3 then 0xFF
  else if x.inBinding off then 0xFF
  else if x.spans.any fun p => decide (p.1 ≤ off ∧ off ≤ p.2) then 0xFF
  else x.partMask off

/-- The first chain byte with a reserved bit set. -/
def Cmd.reservedBad (x : Cmd) : Option Nat :=
  (x.chain.zipIdx.find? fun p => maskOut p.1.toNat (x.mask p.2) != 0).map (·.2)

/-! ### Field values (check 5) -/

/-- The first requirement that does not hold, by its error location. -/
def firstBad : List (Bool × Nat) → Option Nat
  | [] => none
  | (ok, e) :: r => if ok then firstBad r else some e

/-- The offset of the first descriptor fields of a DREF in error (R108, R109). -/
def Cmd.drefReqs (x : Cmd) (off : Nat) : List (Bool × Nat) :=
  let d := x.dref off
  [(decide (d.ndesc ≤ 256), off + 12), (d.ndesc != 0 || decide (d.addr + d.total ≤ 2 ^ 64), off)]

def maxSegid : Nat := 262143

/-- Feature ranges (R115, R344, R415, R165, R361). -/
def featRange : Nat → Option (Nat × Nat)
  | 1 => some (20, 1000)
  | 2 => some (0, 1)
  | 3 => some (10, 1000000)
  | 4 => some (0, 240)
  | 5 => some (0, 2)
  | 6 => some (0, 1)
  | _ => none

/-- Bytes of the EVIDENCE region (R48). -/
def evidenceSize : Nat := 3932160

/-- Size of a log page. -/
def logSize (id : Nat) : Nat :=
  match id with
  | 1 => 65536
  | 2 => 2097152
  | 3 => evidenceSize
  | 4 => 128
  | _ => 1792

/-- Package power limits of a part (R349). -/
def limitRange : Part → Nat × Nat
  | .zl8 => (300, 1100)
  | .zl4 => (160, 560)
  | .zl2 => (90, 290)

/-- Bytes of a raw value of the codec (R313): none for VARCHAR and undefined codes. -/
def rawWidth : Nat → Option Nat
  | 0x01 | 0x02 | 0x06 => some 1
  | 0x03 | 0x07 => some 2
  | 0x04 | 0x08 | 0x0C | 0x0E => some 4
  | 0x05 | 0x09 | 0x0A | 0x0D | 0x0F => some 8
  | 0x0B => some 16
  | _ => none

/-- Length of the raw blocks of `v` values of `w` bytes (R313): a 128 B bitmap a block, values padded to 8 B. -/
def rawLen (w v : Nat) : Nat :=
  v / 1024 * (128 + 1024 * w) + (if v % 1024 = 0 then 0 else 128 + alignUp (v % 1024 * w) 8)

/-- Requirements of COMPRESS and DECOMPRESS that fetch can see (R126, R313, R314, R317). -/
def Cmd.codecReqs (x : Cmd) (enc : Bool) : List (Bool × Nat) :=
  let w := (rawWidth (x.f 4 1)).getD 1
  let src := x.f 88 4
  let dst := x.f 92 4
  let cont := bit x.cflags 0
  let inV := x.f 64 8
  let inB := x.f 72 8
  [((rawWidth (x.f 4 1)).isSome, 4), (!enc || decide (x.f 5 1 ≤ 5), 5)] ++
  (if src = 0 then x.drefReqs 8 else [(allZero (cut x.chain 8 16), 8)]) ++
  (if dst = 0 then x.drefReqs 24 else [(allZero (cut x.chain 24 16), 24)]) ++
  [(if enc then decide (1 ≤ x.f 40 8) else x.f 40 8 == 0, 40),
   (decide (src ≤ maxSegid), 88), (decide (dst ≤ maxSegid), 92)] ++
  if cont = false then [] else
  if enc then [(inV % 1024 == 0 && decide (inV < x.f 40 8), 64), (inB == rawLen w inV, 72)]
  else [(src != 0 || decide (inB < x.f 16 4), 72)]

/-- What check 5 requires of the fields of a command that has passed checks 1 to 4, in the order of the fields. A log page that only
slice 0 may read is, for a tenant, a LOG value out of range (log 81). -/
def State.fieldReqs (s : State) (x : Cmd) : List (Bool × Nat) :=
  let tenant := x.slice != 0
  match x.op with
  | 0x01 => [(x.f 4 1 == 1 || (x.f 4 1 == 0 && !tenant), 4), (x.f 4 1 == 0 || decide (x.f 6 2 < 1024), 6)]
  | 0x02 =>
    [(decide (1 ≤ x.f 4 1 ∧ x.f 4 1 ≤ 5) && (x.f 4 1 == 4 || !tenant), 4),
     (x.f 4 1 == 3 || x.f 4 1 == 4 || s.presentNo (x.f 5 1), 5), (decide (x.f 8 8 < logSize (x.f 4 1)), 8)] ++ x.drefReqs 16
  | 0x03 =>
    match featRange (x.f 4 2) with
    | none => [(false, 4)]
    | some r => [(decide (r.1 ≤ x.f 8 8 ∧ x.f 8 8 ≤ r.2), 8)]
  | 0x04 =>
    let tot := x.f 24 4
    [(decide (x.f 4 1 ≤ 1) && x.f 4 1 != s.dev.bootSlot, 4),
     (x.f 8 4 % 4096 == 0 && decide (x.f 8 4 + tot ≤ 41943040), 8),
     (tot % 4096 == 0 && decide (4096 ≤ tot ∧ tot ≤ 1048576), 24)] ++ x.drefReqs 16
  | 0x05 => [(decide (x.f 4 1 ≤ 1), 4)]
  | 0x10 =>
    [(decide (1 ≤ x.f 4 2 ∧ x.f 4 2 < 1024), 4), (decide (1 ≤ x.f 12 2 ∧ x.f 12 2 ≤ 4095), 12),
     (decide (1 ≤ x.f 14 4 ∧ x.f 14 4 ≤ maxSegid), 14), (decide (1 ≤ x.f 19 1), 19),
     (x.f 64 8 % 4096 == 0, 64), (decide (32768 ≤ x.f 72 4) && x.f 72 4 % 4096 == 0, 72)]
  | 0x11 | 0x12 | 0x13 | 0x16 => [(decide (1 ≤ x.f 4 2 ∧ x.f 4 2 < 1024), 4)]
  | 0x14 | 0x15 => (decide (1 ≤ x.f 4 2 ∧ x.f 4 2 < 1024), 4) :: x.drefReqs 16
  | 0x20 =>
    [(decide (x.f 4 4 ≤ maxSegid), 4), (decide (1 ≤ x.f 8 8 ∧ x.f 8 8 < 2 ^ 44), 8), (decide (x.f 16 1 ≤ 2), 16),
     (decide (x.f 17 1 ≤ 2), 17), (decide (x.f 21 1 ≤ 1), 21), (decide (x.f 22 2 < 1024) && (!tenant || x.f 22 2 == 0), 22)]
  | 0x21 => [(decide (1 ≤ x.f 4 4 ∧ x.f 4 4 ≤ maxSegid), 4)]
  | 0x22 | 0x23 => (decide (1 ≤ x.f 4 4 ∧ x.f 4 4 ≤ maxSegid), 4) :: x.drefReqs 16
  | 0x24 =>
    let a := x.f 16 8
    let b := x.f 24 8
    let n := x.f 32 8
    [(decide (1 ≤ x.f 4 4 ∧ x.f 4 4 ≤ maxSegid), 4), (decide (1 ≤ x.f 8 4 ∧ x.f 8 4 ≤ maxSegid), 8),
     (!(x.f 4 4 == x.f 8 4 && decide (a < b + n ∧ b < a + n)), 32)]
  | 0x25 => [(decide (x.f 4 4 ≤ maxSegid), 4)]
  | 0x26 =>
    let tq := x.f 4 2
    [(decide (tq < 4096) && (!tenant || (s.queue tq).slice == x.slice), 4),
     (decide ((s.queue tq).depthLog2 < 4) || decide (x.f 6 2 < 2 ^ (s.queue tq).depthLog2), 6)]
  | 0x30 => x.drefReqs 8
  | 0x31 => [(decide (1 ≤ x.f 4 4 ∧ x.f 4 4 < 65536), 4)]
  | 0x32 =>
    [(decide (1 ≤ x.f 4 4 ∧ x.f 4 4 < 65536), 4), (decide (x.f 8 1 ≤ 31), 8), (x.f 28 2 == 0, 28),
     (x.f 24 4 % 4096 == 0, 24), (decide (x.f 16 8 + x.f 24 4 ≤ 2 ^ 64), 16)]
  | 0x40 | 0x41 =>
    let frag := x.f 16 8
    let n := x.f 24 2
    [(decide (1 ≤ x.f 4 1 ∧ x.f 4 1 ≤ if x.op = 0x40 then 5 else 3), 4),
     (frag % 16 == 0 && decide (frag + 16 * n ≤ 2 ^ 64), 16), (decide (1 ≤ n ∧ n ≤ 4096), 24), (x.f 32 8 % 64 == 0, 32)]
  | 0x50 => x.codecReqs true
  | 0x51 => x.codecReqs false
  | 0x60 =>
    let kl := x.f 6 2
    [(decide (1 ≤ x.f 5 1 ∧ x.f 5 1 ≤ 3), 5), (decide (1 ≤ kl ∧ kl ≤ 1024), 6),
     (x.f 16 2 == max 2 (ceilDiv kl 8) * 8 + 8, 16)]
  | 0x70 =>
    let w := x.f 4 2
    [(w == 0 || decide ((limitRange s.man.part).1 ≤ w ∧ w ≤ (limitRange s.man.part).2), 4)]
  | 0x71 => [(s.presentNo (x.f 4 1), 4), (decide (x.f 5 1 ≤ 1), 5)]
  | _ => []

/-- Checks 2 to 5 of R107, made at fetch: none when the command passes them. -/
def State.fetchCheck (s : State) (x : Cmd) : Option Completion :=
  match opQueues x.op with
  | none => some { status := stInvalidOpcode }
  | some qc =>
    if queueAllowed qc x.q x.slice = false then some { status := stInvalidOpcode }
    else if x.entriesOk = false then some { status := stInvalidField }
    else match x.reservedBad with
      | some e => some { status := stInvalidField, errloc := e }
      | none =>
        match firstBad (s.fieldReqs x) with
        | some e => some { status := stInvalidField, errloc := e }
        | none => none

/-! ### Segments that a command names -/

/-- The segment fields of a command, with their chain offsets. -/
def Cmd.segFields (x : Cmd) : List (Nat × Nat) :=
  match x.op with
  | 0x21 | 0x22 | 0x23 => [(x.f 4 4, 4)]
  | 0x24 => [(x.f 4 4, 4), (x.f 8 4, 8)]
  | 0x25 => if x.f 4 4 = 0 then [] else [(x.f 4 4, 4)]
  | 0x32 => (List.range x.nseg).map fun i => (field x.binding (4 * i) 4, bindOff (4 * i))
  | 0x50 | 0x51 => [(x.f 88 4, 88), (x.f 92 4, 92)].filter fun p => p.1 != 0
  | _ => []

/-! ### Buckle ranges (R96) -/

def wholeSeg : Nat := 2 ^ 44

/-- The ranges of a command, where they follow from its own fields; those of QUERY_RUN also need its image. A codec destination is
written from its offset up to the segment's end (R314). -/
def Cmd.fixedRanges (x : Cmd) : List BRange :=
  match x.op with
  | 0x21 => [{ seg := x.f 4 4, lo := 0, hi := wholeSeg, write := true }]
  | 0x22 => [{ seg := x.f 4 4, lo := x.f 8 8, hi := x.f 8 8 + x.f 24 4, write := true }]
  | 0x23 => [{ seg := x.f 4 4, lo := x.f 8 8, hi := x.f 8 8 + x.f 24 4, write := false }]
  | 0x24 =>
    [{ seg := x.f 4 4, lo := x.f 16 8, hi := x.f 16 8 + x.f 32 8, write := false },
     { seg := x.f 8 4, lo := x.f 24 8, hi := x.f 24 8 + x.f 32 8, write := true }]
  | 0x50 =>
    let n := rawLen ((rawWidth (x.f 4 1)).getD 1) (x.f 40 8)
    (if x.f 88 4 = 0 then [] else [{ seg := x.f 88 4, lo := x.f 96 8, hi := x.f 96 8 + n, write := false }]) ++
    (if x.f 92 4 = 0 then [] else [{ seg := x.f 92 4, lo := x.f 104 8, hi := wholeSeg, write := true }])
  | 0x51 =>
    (if x.f 88 4 = 0 then [] else [{ seg := x.f 88 4, lo := x.f 96 8, hi := wholeSeg, write := false }]) ++
    (if x.f 92 4 = 0 then [] else [{ seg := x.f 92 4, lo := x.f 104 8, hi := wholeSeg, write := true }])
  | _ => []

/-- A command that registers a whole-queue range by its own fields: a digest with SEGSRC (R425). -/
def Cmd.wholeQueue (x : Cmd) : Bool := (x.op == 0x40 || x.op == 0x41) && bit x.cflags 0

/-- FENCE and SEG_FLUSH are barriers in their own queue (R131). -/
def Cmd.barrier (x : Cmd) : Bool := x.op == 0x25 || x.op == 0x26

/-- Two ranges conflict (R97). -/
def BRange.conflicts (a b : BRange) : Bool :=
  a.seg == b.seg && decide (max a.lo b.lo < min a.hi b.hi) && (a.write || b.write)

end Sys2Proof.Machine
end

