-- ==== Sys2Proof/Machine/Calls.lean ====
section
/-! DEFINITION. The start of a UDF call on a Sumen core: entry registers, the frame, and what a core keeps between calls
(R397, R398, R417, R418). -/

namespace Sys2Proof.Machine

/-- End of the data region (R397). -/
def dataEnd (large : Bool) : Nat := if large then 0x500000 else 0x420000

def auxBase : Nat := 0x100000000
def strBase : Nat := 0x200000000

/-- The integer registers at entry (R417). -/
def entryRegs (large : Bool) (c : Call) : Vector Word64 32 :=
  vecOf fun r : Fin 32 =>
    BitVec.ofNat 64 (match r.val with
      | 1 => c.rows
      | 2 => c.select
      | 3 => if 0 < c.nargs then 0x400000 else 0
      | 4 => if 1 < c.nargs then 0x400200 else 0
      | 5 => if 2 < c.nargs then 0x400400 else 0
      | 6 => 0x400600
      | 7 => 0x400800
      | 8 => 0x40080C
      | 29 => 0x401000
      | 30 => dataEnd large
      | _ => 0)

/-- Start a call on an idle core: every register is 0 but those of R417; the data region keeps its bytes (R398). Lines of the
window cache stay resident unless they belong to another image or to the strings of another call. -/
def Core.begin (large : Bool) (k : Core) (c : Call) : Core :=
  { k with
    x := entryRegs large c, v := Vector.replicate 32 0, pc := BitVec.ofNat 64 c.entry
    fxcsr := 0, vact := 0, vshape := 0, vresume := 0, rowbase := 0, vrem := 0
    frame := c.frame, call := some c, code := some c.handle, miss := none
    lines := if k.code = some c.handle then k.lines.filter (fun a => decide (a < strBase)) else [] }

/-- The next queued call of a Sumen-L core that runs none starts (R233, R394). -/
def Core.serve (k : Core) : Core :=
  match k.call, k.queue with
  | none, c :: r => { Core.begin true k c with queue := r }
  | _, _ => k

/-- Drop the calls that satisfy `p` from a Sumen-L core. -/
def Core.dropCalls (k : Core) (p : Call → Bool) (now : Nat) : Core :=
  let gone := k.call.any p
  ({ k with
    call := if gone then none else k.call
    miss := if gone then none else k.miss
    idleAt := if gone then now else k.idleAt
    queue := k.queue.filter fun c => !p c } : Core).serve

end Sys2Proof.Machine
end

