-- ==== Sys2Proof/Machine/Tokens.lean ====
section
/-! DEFINITION. Shared operations over tokens, runs and failing queries: the trace ring (R362), energy settlement (R347), reruns
(R321 to R323), the fencing of PEs and units (R324) and HALT (R62, R63). -/

namespace Sys2Proof.Machine

/-! ### Trace ring (R362) -/

def trDispatch : Nat := 0x01
def trDispatchAged : Nat := 0x02
def trSkipEnergy : Nat := 0x03
def trStealOut : Nat := 0x04
def trStealIn : Nat := 0x05
def trBarrier : Nat := 0x06
def trWindow : Nat := 0x07
def trComplete : Nat := 0x08
def trDiscard : Nat := 0x09
def trEpoch : Nat := 0x0A

/-- Write a trace record when tracing is on and its type is in the mask. -/
def State.trace (s : State) (t : TileId) (r : Trace) : State :=
  s.onTile t fun x =>
    if x.sched.traceEn ∧ bit x.sched.mask r.type = true then
      { x with sched := { x.sched with
          trace := ringPush 65536 x.sched.trace { r with tstamp := s.now, credit := x.sched.credit }
          traceCnt := (x.sched.traceCnt + 1) % 2 ^ 32 } }
    else x

/-- The trace fields of a token entry. -/
def Token.trace (k : Token) (type reason : Nat) : Trace :=
  let m := k.morsels.headD { tile := 0, morsel := 0, seq := 0 }
  { tstamp := 0, type := type, reason := reason, prio := k.prio, age := k.age, attempt := k.attempt, eclass := k.eclass
    qid := k.qid, slice := k.slice, pipe := k.pipe, seq := m.seq % 2 ^ 32 }

/-- Discard the token entries of a tile that satisfy `p`, each with a DISCARD record (R359). -/
def State.discardOn (s : State) (t : TileId) (p : Token → Bool) (reason : Nat) : State :=
  let gone := (s.tile t).sched.tokens.filter p
  let s := s.onTile t fun x => { x with sched := { x.sched with tokens := x.sched.tokens.filter fun k => !p k } }
  gone.foldl (fun s k => s.trace t (k.trace trDiscard reason)) s

/-- Discard token entries on every tile. -/
def State.discard (s : State) (p : Token → Bool) (reason : Nat) : State :=
  s.presentTiles.foldl (fun s t => s.discardOn t p reason) s

/-! ### PEs and runs -/

def gpeTile (g : Gpe) : TileId := ⟨g.val / 16, by omega⟩
def gpeLocal (g : Gpe) : Fin 16 := ⟨g.val % 16, Nat.mod_lt _ (by decide)⟩
def gpeN (n : Nat) : Gpe := ⟨n % 128, Nat.mod_lt _ (by decide)⟩

/-- A PE on a live tile that is not fenced. -/
def State.peOk (s : State) (n : Nat) : Bool :=
  let t := tid (n / 16)
  decide (n < 128) && s.live t && !bit (s.tile t).err.fence.pe (n % 16)

def State.run? (s : State) (g : Gpe) : Option Run := (s.tile (gpeTile g)).runs[gpeLocal g]

def State.setRun (s : State) (g : Gpe) (r : Option Run) : State :=
  s.onTile (gpeTile g) fun x => { x with runs := x.runs.set (gpeLocal g).val r (gpeLocal g).isLt }

def State.onRun (s : State) (g : Gpe) (f : Run → Run) : State :=
  s.setRun g ((s.run? g).map f)

/-- Stop the UDF call that runs or waits for a PE's morsel. -/
def State.stopCalls (s : State) (g : Gpe) : State :=
  s.onTile (gpeTile g) fun x =>
    { x with
      small := x.small |> vecMap fun k => k.dropCalls (fun c => decide (c.pe = g)) s.now
      large := x.large |> vecMap fun k => k.dropCalls (fun c => decide (c.pe = g)) s.now }

/-! ### Energy (R346, R347) -/

/-- The class mean moved toward a sample by one eighth (R347, log 32). -/
def towardEighth (x y : Nat) : Nat := roundFree (7 * x + y) 8

/-- RATIO after a measurement, in 1/256: RATIO + (E ÷ H − RATIO) ÷ 8, rounded toward zero and clamped to [1/16, 16] (R347).
E in nJ and H in pJ. -/
def newRatio (ratio em h : Nat) : Nat :=
  let r := (7 * ratio * h + em * 1000 * 256) / (8 * h)
  max 16 (min 4096 r)

def ratioKey (handle pipe : Nat) : Nat := handle * 32 + pipe

def clampCredit (i : Int) : Int := max (-(2 ^ 31)) (min (2 ^ 31 - 1) i)

/-- Settle the energy of a run that ends on a tile (R347). -/
def State.settleEnergy (s : State) (t : TileId) (handle : Nat) (r : Run) (em : Nat) : State :=
  let s := s.onSlc r.slice fun x => { x with energyNj := x.energyNj + em }
  s.onTile t fun x =>
    let c := x.sched
    let key := ratioKey handle r.pipe
    { x with sched := { c with
        credit := clampCredit (c.credit + r.est - em)
        ratio := if r.first = 0 then c.ratio else tblSet 256 c.ratio key (newRatio (tblGet c.ratio key 256) em r.first)
        cm := c.cm.set r.eclass (towardEighth (c.cm.getD r.eclass 0) em)
        energyNj := c.energyNj + em
        epochNj := c.epochNj + em } }

/-- The image handle of a run's query. -/
def State.handleOf (s : State) (qid : Nat) : Nat := ((s.query? qid).map (·.handle)).getD 0

/-- Stop a run of a query that ends, with the energy it took settled (R347). -/
def State.stopRun (s : State) (qid : Nat) (g : Gpe) : State :=
  match s.run? g with
  | some r =>
    if r.qid = qid then
      (((s.setRun g none).stopCalls g).settleEnergy (gpeTile g) (s.handleOf qid) r (Config.freeNat s.tick)).bump
    else s
  | none => s

/-! ### Failing queries (R325) -/

/-- Release what a query reserves: its spill charges return to the slice's usage, its working SRAM is free (R248). -/
def State.releaseQuery (s : State) (q : Query) : State :=
  let s := q.charged.foldl (fun s r => s.onSlc q.slice fun y => y.charge r.2.1 (· - r.2.2)) s
  (s.onQuery q.qid fun q => { q with charged := [], sram := [] }).revoteAll

/-- An Emit commit of a query, as a job of a codec engine. -/
def CodecJob.isOf (qid : Nat) (j : CodecJob) : Bool := j.emit.any fun x => x.1 == qid

/-- A query still has a morsel on a PE or a commit on a codec engine (R325). -/
def State.queryRuns (s : State) (qid : Nat) : Bool :=
  ((List.range 128).any fun n => (s.run? (gpeN n)).any fun r => decide (r.qid = qid)) ||
    allTiles.any fun t => (s.tile t).codec.any (CodecJob.isOf qid)

/-- A store address lies in the data area of a segment. -/
def Seg.dataAddr (g : Seg) (a : Nat) : Bool :=
  bit g.tiles (addrTile a) && addrTier a == g.tier && decide (g.off ≤ addrOff a ∧ addrOff a < g.off + g.rowUnits * unitB)

/-- The contents of a segment are undefined from now on: every byte of its data area reads as a free value (R94, R135). -/
def State.undefine (s : State) (id : Nat) : State :=
  let g := s.seg id
  if !g.valid then s else
  let cells := (s.mem ++ allTiles.flatMap fun t => (s.tile t).staging).filter fun c => g.dataAddr c.1
  (s.bump.noteSeg id fun g => { g with zeroFill := false, allocTick := s.tick }).stage
    (cells.map fun c => (c.1, Config.undefByte s.tick c.1))

/-- Statuses of QUERY_RUN that leave its result segments undefined (R135, R136, log 75). -/
def undefResults (status : Nat) : Bool :=
  [stOverflow, stDivZero, stSumenFault, stUnverified, stDataCrc, stUncorrectable, stRetentionLost].contains status

/-- A tile forgets a query that ends: its bases, as its QID may be used again (R342), and its commits. -/
def Tile.dropQuery (qid : Nat) (x : Tile) : Tile :=
  { x with
    sched := { x.sched with bases := x.sched.bases.filter fun b => decide (b.1 / 32 ≠ qid) }
    codec := x.codec.filter fun j => !j.isOf qid }

/-- End a query: its tokens are discarded, its morsels stop, its reservations go. -/
def State.removeQuery (s : State) (qid reason : Nat) : State :=
  let s := s.discard (fun k => decide (k.qid = qid)) reason
  let s := match s.query? qid with
    | some q => s.releaseQuery q
    | none => s
  let s := (List.range 128).foldl (fun s n => s.stopRun qid (gpeN n)) s
  let s := allTiles.foldl (fun s t => s.onTile t (Tile.dropQuery qid)) s
  { s with queries := s.queries.filter fun q => decide (q.qid ≠ qid) }

/-- The failure that decides: the first in time, then the lower pipeline, then the lower morsel (R104, R231). -/
def Fail.before (a b : Fail) : Bool :=
  decide (a.time < b.time ∨ (a.time = b.time ∧ (a.pipe < b.pipe ∨ (a.pipe = b.pipe ∧ a.morsel < b.morsel))))

def firstFault : List Fail → Option Fail
  | [] => none
  | f :: r => match firstFault r with
    | none => some f
    | some g => some (if g.before f then g else f)

/-- FAIL_PIPE and FAIL_OP are given with these statuses (R124, R243, R381). -/
def namesOp (f : Fail) : Bool :=
  [stOverflow, stDivZero, stSumenFault, stResultSpace, stUnverified, stDataCrc, stUncorrectable, stRetentionLost].contains f.status ||
    (f.status == stUnavailable && f.detail == 0x0001)

/-- The result bytes of QUERY_RUN (R124); of a failed host access only FAULT_OFFSET is valid (R111, log 74). -/
def Query.result (q : Query) (f : Option Fail) : List Byte :=
  if f.any fun f => f.status / 256 == 9 then leBytes 8 ((f.map (·.off)).getD 0) else
  let f := f.filter namesOp
  leBytes 8 q.rowsOut ++ leBytes 8 q.prod ++ leBytes 8 q.skipped ++ leBytes 4 q.morsels ++ leBytes 4 q.reruns ++
    leBytes 1 ((f.map (·.pipe)).getD 0xFF) ++ leBytes 1 ((f.map (·.op)).getD 0xFF)

/-- A failing query completes once no morsel of it runs (R325); one that a queue reset stops completes with nothing (R92). -/
def State.settleFailing (s : State) (qid : Nat) : State :=
  match s.query? qid with
  | none => s
  | some q =>
    match firstFault q.fails with
    | none => s
    | some f =>
      if q.failing = false ∨ s.queryRuns qid = true then s
      else
        let s := if undefResults f.status then q.results.foldl State.undefine s else s
        ((s.finish q.c { status := f.status, detail := f.detail, result := q.result (some f) }).removeQuery qid 0x0A).revoteAll

/-- CID of a query's command. -/
def State.cidOf (s : State) (q : Query) : Nat := ((s.cmd? q.c).map fun x => field (x.entries.headD []) 2 2).getD 0

/-- The error record of a query's failure that has an event of its own (R332, R333). -/
def State.failRecord (s : State) (q : Query) (f : Fail) (event : Nat) : ErrRec :=
  { errRec event 2 with
    slice := q.slice, queue := q.c.q.val, cid := s.cidOf q, morsel := if f.pipe = 0xFF then 0xFFFFFFFF else f.morsel, addr := f.addr, segid := f.segid
    status := f.status, pipe := f.pipe }

/-- Mark a query failing (R325): its tokens are discarded on every tile. Its reservations stay until no morsel of it runs. -/
def State.failQuery (s : State) (qid : Nat) (f : Fail) : State :=
  match s.query? qid with
  | none => s
  | some q =>
    let s := match statusEvent f.status with
      | some e => s.logErr (tid q.home) (s.failRecord q f e)
      | none => s
    let s := s.onQuery qid fun q => { q with fails := q.fails ++ [f], failing := true, toPost := [], consWait := none }
    (if q.failing then s else s.discard (fun k => decide (k.qid = qid)) 0x0A).settleFailing qid

/-- A failure that names no pipeline or operator. -/
def State.failure (s : State) (status detail : Nat) : Fail :=
  { status := status, detail := detail, pipe := 0xFF, op := 0xFF, morsel := 0, time := s.now }

def pesOf (t : Nat) : List Nat := (List.range 16).map (t * 16 + ·)

/-- One of a list, where the spec leaves the choice open (log 8). -/
def State.pick (s : State) (l : List Nat) : Option Nat :=
  if l.isEmpty then none else l[Config.freeNat s.tick % l.length]?

/-- The PE of a rerun after attempt `a` failed on `pe` (R321): after attempt 0 another PE of the morsel's tile, else of the lowest
tile with one; after attempt 1 a PE that neither attempt used, on another tile than theirs if there is one. -/
def State.rerunTarget (s : State) (m : MorselAt) (a : Nat) (used : List Nat) : Option Nat :=
  let free := (List.range 128).filter fun n => s.peOk n && !used.contains n
  if a = 0 then
    let here := free.filter fun n => n / 16 = m.tile
    if here.isEmpty then
      match free.head? with
      | none => none
      | some n => s.pick (free.filter fun k => k / 16 = n / 16)
    else s.pick here
  else
    let away := free.filter fun n => used.all fun u => decide (u / 16 ≠ n / 16)
    if away.isEmpty then s.pick (free.filter fun n => used.any fun u => decide (u / 16 = n / 16)) else s.pick away

/-- The token of a rerun: one morsel, the next attempt (R321, R337). -/
def Run.again (r : Run) (home target : Nat) (used : List Nat) : Token :=
  { qid := r.qid, home := home, pipe := r.pipe, morsels := [r.at_], slice := r.slice, sgen := r.sgen, qgen := r.qgen
    prio := r.prio, order := r.order, eclass := r.eclass, attempt := r.attempt + 1, target := target, used := used }

/-- The tile to which the rerun of an abandoned morsel is posted, where any PE that is not fenced may take it (R323): the morsel's, else
the lowest one with such a PE. -/
def State.abandonTile (s : State) (t : Nat) : Option Nat :=
  if (pesOf t).any s.peOk then some t else ((List.range 128).find? s.peOk).map (· / 16)

/-- Wait for room on a tile and post a token there (R338). -/
def State.plan (s : State) (qid : Nat) (t : Nat) (k : Token) : State :=
  (s.onQuery qid fun q => { q with toPost := q.toPost ++ [(t, k)], reruns := q.reruns + 1 }).onSlc k.slice fun y =>
    { y with reruns := y.reruns + 1 }

/-! ### Abandonment (R323) and PE fences (R324) -/

/-- A run that is abandoned: it consumes its attempt, its effects are void, and it reruns on any PE, or the query fails with
UNIT_UNAVAILABLE after attempt 2 (R323). -/
def State.abandon (s : State) (g : Gpe) : State :=
  match s.run? g with
  | none => s
  | some r =>
    let s := (s.setRun g none).stopCalls g
    let s := s.settleEnergy (gpeTile g) (s.handleOf r.qid) r (Config.freeNat s.tick)
    let s := (s.bump).trace (gpeTile g)
      { tstamp := 0, type := trComplete, reason := 0x05, pe := g.val, prio := r.prio, attempt := r.attempt, eclass := r.eclass
        qid := r.qid, slice := r.slice, pipe := r.pipe, seq := r.at_.seq % 2 ^ 32 }
    match s.query? r.qid with
    | none => s
    | some q =>
      if q.failing then s
      else match (if 2 ≤ r.attempt then none else s.abandonTile r.at_.tile) with
        | some t => s.plan r.qid t (r.again q.home 0xFF (r.used ++ [g.val]))
        | none => s.failQuery r.qid { s.failure stUnavailable 0x0002 with pipe := r.pipe, morsel := r.at_.morsel }

/-- Set a fence bit with its UNIT_FENCED record, then start the change to DEGRADED (R336, R35). -/
def State.fenceUnit (s : State) (t : TileId) (kind index : Nat) (f : FenceBits → FenceBits) : State :=
  let s := s.onTile t fun x => { x with err := { x.err with fence := f x.err.fence } }
  (s.logErr t { errRec evUnitFenced 3 with kind := kind, index := index }).degrade

/-- Token entries that name a fenced PE are retargeted by the rerun policy (R359). -/
def State.retarget (s : State) (n : Nat) : State :=
  let moved := s.presentTiles.flatMap fun t => (s.tile t).sched.tokens.filter fun k => decide (k.target = n)
  let s := s.presentTiles.foldl (fun s t => s.onTile t fun x =>
    { x with sched := { x.sched with tokens := x.sched.tokens.filter fun k => decide (k.target ≠ n) } }) s
  moved.foldl (fun s k =>
    match s.rerunTarget (k.morsels.headD { tile := 0, morsel := 0, seq := 0 }) (k.attempt - 1) (n :: k.used) with
    | some g => (s.bump).onQuery k.qid fun q => { q with toPost := q.toPost ++ [(g / 16, { k with target := g })] }
    | none => s.failQuery k.qid { s.failure stUnavailable 0x0002 with pipe := k.pipe }) s

/-- Fence a PE (R324): its bit and record, its Sumen-S core, its FIRMWARE and SCHEDULER votes; a run on it is abandoned. -/
def State.fencePe (s : State) (g : Gpe) : State :=
  let t := gpeTile g
  if bit (s.tile t).err.fence.pe (gpeLocal g).val then s else
  let s := s.fenceUnit t 0x01 g.val fun f => { f with pe := setBit f.pe (gpeLocal g).val }
  let s := (s.castVote t (domN (gpeLocal g).val) 1 0).castVote t (domN (gpeLocal g).val) 2 0
  ((s.stopCalls g).abandon g).retarget g.val

/-! ### HALT (R62, R63) -/

/-- The evidence that a tile freezes: mode registers, cause, time, Cinch history, error ring and the last 4,096 trace records, in
the order of R63 (log 15). -/
def State.evidenceOf (s : State) (t : TileId) : List Byte :=
  let x := s.tile t
  let d := s.dev
  leBytes 4 (modeCode d.mode + 16 * modeCode d.prev) ++
  leBytes 4 (d.target + 128 * boolNat d.rrej + 256 * d.applied + 65536 * d.epoch) ++
  leBytes 4 (d.refReason + 256 * d.refTile + 65536 * d.refEpoch) ++
  leBytes 4 (d.haltCause + 256 * d.haltTile) ++ leBytes 8 s.now ++
  (x.history.flatMap fun h => leBytes 1 h.1 ++ leBytes 1 h.2.1 ++ leBytes 1 h.2.2.1 ++ leBytes 1 0 ++ leBytes 4 h.2.2.2) ++
  (x.err.ring.flatMap ErrRec.bytes) ++
  ((x.sched.trace.drop (x.sched.trace.length - 4096)).flatMap Trace.bytes)

/-- A tile enters HALT: its evidence is frozen once, nothing runs on it, and its tokens are gone (R34, R62, R63, R359). -/
def State.haltTile (s : State) (t : TileId) : State :=
  if (s.tile t).evidence.isSome then s else
  let ev := s.evidenceOf t
  s.onTile t fun x => { x with
    mode := .halt, prepared := none, answered := false, evidence := some ev, heldGroup := none, sched := { x.sched with tokens := [] } }

/-- Every tile is told: HALT on CTL to the others, and the wire held low for 4 us (R62, R484). -/
def State.haltOuts (s : State) (t : TileId) (cause : Nat) : List Out :=
  ((s.presentTiles.filter fun u => decide (u ≠ t)).map fun u => Out.cinch t.val u.val 0x08 0 cause 0 s.dev.epoch 0) ++
    [Out.wire t.val 4000]

/-- A tile detects a fatal condition (R62): the device enters HALT, any change is abandoned and PHASE reads IDLE. The HALT messages that
the tile sends stand in its history before its evidence is frozen (R63). -/
def State.halt (s : State) (t : TileId) (cause : Nat) : State :=
  if s.dev.mode = .cold ∨ s.dev.mode = .test ∨ s.dev.mode = .halt then s else
  let s := s.logErr t { errRec evHaltEntry 5 with data := [] }
  let s := { s with dev := { s.dev with
    prev := s.dev.mode, mode := .halt, phase := .idle, change := none, ready := 0, resends := 0, waiting := []
    retry := [], drainTo := none, activation := none, strobeBusy := false, target := modeCode .halt, reports := []
    haltCause := cause, haltTile := t.val, haltMsg := decide (t = s.masterTile) } }
  let outs := s.haltOuts t cause
  let s := s.onTile t fun x => { x with history := (outs.drop 1).foldl (fun l _ => ringPush 64 l (0x08, 0, cause % 256, s.dev.epoch)) x.history }
  ((s.emitAll outs).haltTile t).revoteAll

/-- A Sumen-L core is fenced: the morsels whose calls it holds are abandoned (R412). -/
def State.fenceLarge (s : State) (t : TileId) (k : Nat) : State :=
  if bit (s.tile t).err.fence.sl k then s
  else
    let c := (s.tile t).large.toList.getD k {}
    let pes := (c.call.toList ++ c.queue).map (·.pe)
    let s := s.fenceUnit t 0x02 k fun f => { f with sl := setBit f.sl k }
    (pes.foldl State.abandon s).castVote t (domN (16 + k)) 1 0

end Sys2Proof.Machine
end

