-- ==== Sys2Proof/Machine/Checks.lean ====
section
/-! DEFINITION. Checks of R107 that read tables: named objects (check 6), byte ranges (check 7), quotas (check 8, R445, R446), SGLs
and fragment lists (check 9, R109, R110, R426), and the movement of data streams (R111). -/

namespace Sys2Proof.Machine

/-! ### Quotas (R445, R446) -/

/-- The sum of a quota over every tenant slice that is not FREE. -/
def State.tenantSum (s : State) (f : Slice → Nat) : Nat :=
  s.slices.foldl (fun a e => if e.1 = 0 ∨ e.2.st = .free then a else a + f e.2) 0

/-- A slice's quota of a kind: a tenant's own, or for slice 0 the capacity less the tenants' sum. -/
def State.quota (s : State) (sl : Nat) (f : Slice → Nat) (cap : Nat) : Nat :=
  if sl = 0 then cap - s.tenantSum f else f (s.slc sl)

/-- Allocatable bytes of a tier over the live tiles (R446). -/
def State.tierCapacity (s : State) (tier : Nat) : Nat :=
  s.liveTiles.foldl (fun a t => a + s.tierTotal t.val tier * unitB) 0

def tierQuota (tier : Nat) : Slice → Nat :=
  match tier with
  | 0 => Slice.hbmQuota
  | 1 => Slice.ddrQuota
  | _ => Slice.cxlQuota

def tierUsed (tier : Nat) : Slice → Nat :=
  match tier with
  | 0 => Slice.hbmUsed
  | 1 => Slice.ddrUsed
  | _ => Slice.cxlUsed

def State.segQuotaOf (s : State) (sl : Nat) : Nat := s.quota sl Slice.segQuota maxSegid
def State.keyQuotaOf (s : State) (sl : Nat) : Nat := s.quota sl Slice.keyQuota 256
def State.qQuotaOf (s : State) (sl : Nat) : Nat := s.quota sl Slice.qQuota 4096
def State.tierQuotaOf (s : State) (sl tier : Nat) : Nat := s.quota sl (tierQuota tier) (s.tierCapacity tier)

/-- A charge of bytes on a tier exceeds the quota. -/
def State.overTier (s : State) (sl tier bytes : Nat) : Bool :=
  decide (s.tierQuotaOf sl tier < tierUsed tier (s.slc sl) + bytes)

/-- The quotas of a new slice fit the capacity less what slice 0 holds (R119, R446). -/
def State.quotasFit (s : State) (q : Slice) : Bool :=
  let z := s.slc 0
  decide (s.tenantSum Slice.qQuota + q.qQuota + z.qUsed ≤ 4096) &&
  decide (s.tenantSum Slice.segQuota + q.segQuota + z.segUsed ≤ maxSegid) &&
  decide (s.tenantSum Slice.keyQuota + q.keyQuota + z.keyUsed ≤ 256) &&
  decide (s.tenantSum Slice.hbmQuota + q.hbmQuota + z.hbmUsed ≤ s.tierCapacity 0) &&
  decide (s.tenantSum Slice.ddrQuota + q.ddrQuota + z.ddrUsed ≤ s.tierCapacity 1) &&
  decide (s.tenantSum Slice.cxlQuota + q.cxlQuota + z.cxlUsed ≤ s.tierCapacity 2)

/-! ### Named objects (check 6) -/

/-- R454: a command of slice 0 that names an object of a FROZEN slice; R444: an object of a FAILED one. -/
def State.ownerStatus (s : State) (issuer owner : Nat) : Option Completion :=
  if issuer = owner then none
  else match (s.slc owner).st with
    | .frozen => some { status := stSliceFrozen }
    | .failed => some { status := stUncorrectable }
    | _ => none

/-- A segment's entry as a command sees it: by the vote on its home tile (R148). -/
def State.segFor (s : State) (x : Cmd) (id : Nat) : Seg := s.segOn (tid x.home) id

/-- A slice owns a segment: by its entry, or, once the entry is poisoned, by any of its copies (R150). -/
def State.ownsSeg (s : State) (g : Seg) (sl id : Nat) : Bool :=
  if (s.seg id).poison then (s.copiesOf id).any fun h => h.slice == sl else g.slice == sl

/-- The state of a segment for a command that names it (R106, R121, R150, R164); SEG_FREE may name a poisoned or fenced one. -/
def State.segStatus (s : State) (x : Cmd) (id : Nat) (free : Bool) : Option Completion :=
  let g := s.segFor x id
  let issuer := x.slice
  if g.valid = false ∨ x.goneSegs.contains id = true ∨ (issuer ≠ 0 ∧ s.ownsSeg g issuer id = false) then
    some { status := stSegNotFound }
  else match s.ownerStatus issuer g.slice with
    | some k => some k
    | none =>
      if free then none
      else if g.poison then some { status := stMapIncoherent }
      else if g.fenced then some { status := stSegFenced }
      else none

/-- The image of a handle that a slice may name (R106). -/
def State.image? (s : State) (issuer h : Nat) : Option Image :=
  match tblGet s.images h none with
  | some i => if issuer = 0 ∨ i.slice = issuer then some i else none
  | none => none

def badField (e : Nat) : Completion := { status := stInvalidField, errloc := e }

def State.handleStatus (s : State) (issuer h e : Nat) : Option Completion :=
  match s.image? issuer h with
  | none => some (badField e)
  | some i => s.ownerStatus issuer i.slice

def State.keySlot (s : State) (n : Nat) : Option KeySlot := tblGet s.keys n none

/-- A key slot that a slice may use. -/
def State.keyStatus (s : State) (issuer n : Nat) : Option Completion :=
  match s.keySlot n with
  | none => some { status := stKeySlotEmpty }
  | some k =>
    if issuer ≠ 0 ∧ k.slice ≠ issuer then some { status := stKeySlotEmpty } else s.ownerStatus issuer k.slice

/-- The first failure of a list of checks. -/
def firstFail : List (Option Completion) → Option Completion
  | [] => none
  | some k :: _ => some k
  | none :: r => firstFail r

def need (ok : Bool) (k : Completion) : Option Completion := if ok then none else some k

/-! ### Byte ranges (check 7) -/

/-- The last bytes of the stripes of `[off, off + n)` that can lie highest in a tile: one per tile at most. -/
def lastBytes (off n : Nat) : List Nat :=
  let last := off + n - 1
  (List.range 8).filterMap fun i =>
    let k := last / unitB
    if k < i then none
    else
      let b := min last ((k - i) * unitB + unitB - 1)
      if b < off then none else some b

/-- A byte of an access lies at a store address out of range (R27). -/
def State.rangeBad (s : State) (g : Seg) (off n : Nat) : Bool :=
  n != 0 && (lastBytes off n).any fun b => (g.locs b).any s.addrBad

/-- An entry of a frame index that an access reaches lies at a store address out of range (R27). -/
def State.indexStatus (s : State) (g : Seg) (entries : Nat) : Option Completion :=
  need (g.codec == 0 || entries == 0 || !(g.indexLocs (48 * entries - 1)).any s.addrBad) { status := stOutOfRange }

def State.rangeStatus (s : State) (g : Seg) (off n : Nat) : Option Completion :=
  need (decide (off + n ≤ g.length) && !s.rangeBad g off n) { status := stOutOfRange }

/-! ### SGLs (check 9) -/

/-- The descriptors of an SGL: address and length. -/
def sglParts (bs : List Byte) : List (Nat × Nat) := (chunks 16 bs).map fun d => (field d 0 8, field d 8 4)

/-- The parts of a data stream: one buffer, or the fetched SGL's (R108, R109). -/
def Dref.parts (d : Dref) (sgl : List Byte) : List (Nat × Nat) :=
  if d.ndesc = 0 then [(d.addr, d.total)] else sglParts sgl

/-- The SGL of a DREF as read from the host (R109, R110). -/
def Dref.check (d : Dref) (off : Nat) (r : HostRead) : Option Completion :=
  if d.addr % 16 ≠ 0 ∨ 2 ^ 64 < d.addr + 16 * d.ndesc then some (badField off)
  else match r.err with
    | some (e, at_) => some { status := hostStatus e, faddr := d.addr + at_ }
    | none =>
      let ds := chunks 16 (cut r.bytes 0 (16 * d.ndesc))
      if ds.any fun x => field x 8 4 == 0 || field x 12 4 != 0 || decide (2 ^ 64 < field x 0 8 + field x 8 4) then
        some (badField off)
      else if (ds.map fun x => field x 8 4).sum ≠ d.total then some { status := stLengthMismatch, errloc := off + 8 }
      else none

/-- The DREFs of a command that name an SGL, in the order of its fields. -/
def Cmd.sglFields (x : Cmd) : List Nat :=
  (match x.op with
    | 0x02 | 0x04 | 0x14 | 0x15 | 0x22 | 0x23 => [16]
    | 0x30 => [8]
    | 0x50 | 0x51 => (if x.f 88 4 = 0 then [8] else []) ++ (if x.f 92 4 = 0 then [24] else [])
    | _ => []).filter fun o => (x.dref o).ndesc != 0

/-- The SGL of the DREF at a field, among the lists fetched at start. -/
def Cmd.sgl (x : Cmd) (off : Nat) : List Byte := x.lists.getD (x.sglFields.idxOf off) []

/-- The parts of the data stream of a DREF of a started command. -/
def Cmd.stream (x : Cmd) (off : Nat) : List (Nat × Nat) := (x.dref off).parts (x.sgl off)

/-- The host address of a byte of a data stream. -/
def streamAddr : List (Nat × Nat) → Nat → Nat
  | [], _ => 0
  | (a, n) :: r, o => if o < n then a + o else streamAddr r (o - n)

/-- Cut a string over the parts of a stream. -/
def scatter : List (Nat × Nat) → List Byte → List (Nat × List Byte)
  | [], _ => []
  | (a, n) :: r, bs => if bs.isEmpty then [] else (a, bs.take n) :: scatter r (bs.drop n)

/-- The PASID that a slice's DMA carries: none for slice 0 (R447). -/
def State.pasidOf (s : State) (sl : Nat) : Option Nat := if sl = 0 then none else some (s.slc sl).pasid

/-- DMA writes of a command to host memory: the bytes below the fault, if any. -/
def State.dmaOut (s : State) (x : Cmd) (parts : List (Nat × Nat)) (bs : List Byte) (wfail : Option Nat) : State :=
  let bs := match wfail with
    | some o => bs.take o
    | none => bs
  s.emitAll ((scatter parts bs).map fun p => Out.hostWrite x.ring.port (s.pasidOf x.slice) p.1 p.2)

/-- The fault of a stream write, if it falls inside the stream. -/
def faultIn (n : Nat) (wfail : Option Nat) : Option Nat := wfail.filter fun o => decide (o < n)

/-- Fail a command on a host error at an offset of its stream (R111). -/
def State.failHost (s : State) (c : CmdRef) (e : HostErr) (parts : List (Nat × Nat)) (off fault : Nat) : State :=
  s.finish c { status := hostStatus e, result := leBytes 8 fault, faddr := streamAddr parts off }

/-- FAULT_OFFSET lowered to the aligned 64 B unit of a segment destination (R111). -/
def unitFloor (segOff off : Nat) : Nat := (segOff + off) / 64 * 64 - segOff

end Sys2Proof.Machine
end

