-- ==== Sys2Proof/Machine/Pfc.lean ====
section
/-! DEFINITION. Predictive frame coding: the frame header (R300), sizes (R308), predictors and residues (R302 to R306), frame
checks (R309), the encoder (R310, R311) and raw blocks (R313). -/

namespace Sys2Proof.Machine

/-! ### The header (R300) -/

structure Hdr where
  pred  : Nat
  mm    : Bool
  w     : Nat
  vcnt  : Nat
  nulls : Nat
  exc   : Nat
  nrun  : Nat
  fcrc  : Nat
  min   : Nat
  max   : Nat
  resOk : Bool
  deriving DecidableEq, Repr

def Hdr.ofBytes (b : List Byte) : Hdr :=
  { pred := byteAt b 0 % 8, mm := bit (byteAt b 0) 3, w := byteAt b 1 % 128, vcnt := field b 2 2 % 2048
    nulls := field b 4 2 % 2048, exc := byteAt b 6 % 32, nrun := field b 8 2, fcrc := field b 12 4
    min := field b 16 8, max := field b 24 8
    resOk := decide (byteAt b 0 < 16 ∧ byteAt b 1 < 128 ∧ field b 2 2 < 2048 ∧ field b 4 2 < 2048 ∧ byteAt b 6 < 32 ∧
      byteAt b 7 = 0 ∧ field b 10 2 = 0) }

def predNone : Nat := 1
def predFor : Nat := 2
def predDelta : Nat := 3
def predDelta2 : Nat := 4
def predRun : Nat := 5

/-- Fields and field width of the residue area (R308). -/
def Hdr.nf (h : Hdr) (n : Nat) : Nat :=
  if h.pred = predRun then h.nrun else if h.pred = predNone ∧ n = 128 then 2 * h.vcnt else h.vcnt

def Hdr.fw (h : Hdr) : Nat := if h.pred = predRun then h.w + 10 else h.w

def areaBytes (nf fw : Nat) : Nat := ceilDiv (nf * fw) 64 * 8

def excBytes (e : Nat) : Nat := ceilDiv e 4 * 8 + 8 * e

def Hdr.bitmapBytes (h : Hdr) : Nat := if h.nulls = 0 then 0 else 128

/-- FSIZE of R308 for image width `n`. -/
def Hdr.fsize (h : Hdr) (n : Nat) : Nat := 32 + h.bitmapBytes + areaBytes (h.nf n) h.fw + excBytes h.exc

/-- The size of the same frame with NONE (R308). -/
def noneSize (nulls vcnt n : Nat) : Nat := 32 + (if nulls = 0 then 0 else 128) + ceilDiv (vcnt * n) 64 * 8

/-! ### Words (R301, R302) -/

def m64 (i : Int) : Nat := ofSigned 64 i

def s64 (x : Nat) : Int := toSigned 64 x

/-- A 64-bit word in the order that its type uses. -/
def wordKey (signed : Bool) (x : Nat) : Int := if signed then s64 x else (x : Int)

/-- The image extended to an integer: sign-extended for signed types. -/
def extImage (signed : Bool) (n v : Nat) : Int := if signed then toSigned n v else (v % 2 ^ n : Nat)

def zigzag (s : Nat) : Nat := if s < 2 ^ 63 then 2 * s else 2 * (2 ^ 64 - s) - 1

def unzigzag (z : Nat) : Nat := if z % 2 = 0 then z / 2 else 2 ^ 64 - (z + 1) / 2

/-- The prediction at position `i` after the words `p1` (i − 1) and `p2` (i − 2). -/
def predict (pred i min p1 p2 : Nat) : Nat :=
  if pred = predFor ∨ i = 0 then min
  else if pred = predDelta ∨ i = 1 then p1
  else m64 (2 * (p1 : Int) - p2)

/-! ### Bit streams (R303) -/

def packFields (fw : Nat) (fs : List Nat) : Nat := fs.foldr (fun f acc => f + 2 ^ fw * acc) 0

def unpackFields (fw : Nat) : Nat → Nat → List Nat
  | 0, _ => []
  | n + 1, v => v % 2 ^ fw :: unpackFields fw n (v / 2 ^ fw)

/-- A validity bitmap of 128 B (R307). -/
def bitmapOf (valid : List Bool) : List Byte := leBytes 128 (packBits valid)

/-! ### Decoding (R304 to R309) -/

/-- The words of a predicted frame, in position order. -/
def decodeWords (pred min : Nat) (exc : List (Nat × Nat)) : Nat → Nat → Nat → List Nat → List Nat
  | _, _, _, [] => []
  | i, p1, p2, f :: fs =>
    let x := match exc.find? fun e => e.1 == i with
      | some e => e.2
      | none => (predict pred i min p1 p2 + (if pred = predFor then f else unzigzag f)) % 2 ^ 64
    x :: decodeWords pred min exc (i + 1) x p1 fs

/-- The words of a RUN frame and whether the run lengths sum to VCNT. -/
def decodeRuns (h : Hdr) (fs : List Nat) : List Nat :=
  fs.flatMap fun f => List.replicate (f / 2 ^ h.w + 1) ((h.min + f % 2 ^ h.w) % 2 ^ 64)

def strictlyRising : List Nat → Bool
  | a :: b :: r => decide (a < b) && strictlyRising (b :: r)
  | _ => true

/-- The parts of a frame that do not depend on its type: checks 2 and 6 and 7 of R309, and the rest of 3 and 4. Fields, validity
and exceptions follow. -/
structure FrameParts where
  h      : Hdr
  valid  : List Bool
  fields : List Nat
  exc    : List (Nat × Nat)
  deriving DecidableEq, Repr

def frameParts (n : Nat) (b : List Byte) : FrameParts :=
  let h := Hdr.ofBytes b
  let bm := h.bitmapBytes
  let a := areaBytes (h.nf n) h.fw
  let eo := 32 + bm + a
  let po := ceilDiv h.exc 4 * 8
  { h := h
    valid := if h.nulls = 0 then List.replicate h.vcnt true
      else (List.range h.vcnt).map fun i => bit (byteAt b (32 + i / 8)) (i % 8)
    fields := unpackFields h.fw (h.nf n) (leNat (cut b (32 + bm) a))
    exc := (List.range h.exc).map fun j => (field b (eo + 2 * j) 2, field b (eo + po + 8 * j) 8) }

/-- Checks 2 to 7 of R309 on a frame of length `len`, but for the type-dependent W of check 3 and MM of check 4. -/
def FrameParts.ok (p : FrameParts) (n len : Nat) (b : List Byte) : Bool :=
  let h := p.h
  decide (1 ≤ h.pred ∧ h.pred ≤ 5 ∧ h.w ≤ 64 ∧ 1 ≤ h.vcnt ∧ h.vcnt ≤ 1024 ∧ h.nulls ≤ h.vcnt ∧ h.exc ≤ 16) && h.resOk &&
  (if h.pred = predNone then h.exc == 0 && h.nrun == 0
   else if h.pred = predRun then decide (1 ≤ h.nrun ∧ h.nrun ≤ h.vcnt) && h.exc == 0 &&
     (p.fields.foldl (fun a f => a + f / 2 ^ h.w + 1) 0) == h.vcnt
   else h.nrun == 0) &&
  h.fsize n == len &&
  (h.nulls == 0 || ((p.valid.filter (! ·)).length == h.nulls && leNat (cut b 32 128) / 2 ^ h.vcnt == 0)) &&
  strictlyRising (p.exc.map (·.1)) &&
  p.exc.all fun e => decide (e.1 < h.vcnt) && p.valid.getD e.1 false

/-- FCRC over a frame of `len` bytes (R300). -/
def frameCrcOk (b : List Byte) (len : Nat) : Bool :=
  crc32c (cut b 0 12 ++ [0, 0, 0, 0] ++ cut b 16 (len - 16)) == field b 12 4

/-- Pairs of 64-bit fields, the low half first (R302). -/
def chunkPairs : List Nat → List Nat
  | a :: b :: r => (a + 2 ^ 64 * b) :: chunkPairs r
  | _ => []

/-- The words of a frame as integers, by position (R301 to R306). -/
def FrameParts.words (p : FrameParts) (signed : Bool) (n : Nat) : List Int :=
  let h := p.h
  if h.pred = predNone then (if n = 128 then chunkPairs p.fields else p.fields).map fun v => extImage signed n v
  else (if h.pred = predRun then decodeRuns h p.fields else decodeWords h.pred h.min p.exc 0 0 0 p.fields).map fun x => wordKey signed x

/-- MM agrees with R301: clear when every value is null or a DEC128 value lies outside INT64, then with NONE; set otherwise. -/
def FrameParts.mmOk (p : FrameParts) (signed : Bool) (n : Nat) : Bool :=
  let wide := n == 128 && ((p.words signed n).zip p.valid).any fun e => e.2 && !fitsSigned 64 e.1
  p.h.mm == (p.valid.any id && !wide) && (p.h.mm || !p.valid.any id || p.h.pred == predNone)

/-- Checks 1 to 7 of R309 on a frame of `len` bytes: the DETAIL of the failed one. -/
def frameCheck (t : Ty) (b : List Byte) (len : Nat) : Option Nat :=
  let n := t.width
  if len < 32 ∨ b.length < len then some 0x0006 else
  if frameCrcOk b len = false then some 0x0001 else
  let p := frameParts n b
  let h := p.h
  if p.ok n len b = false ∨ (h.pred = predNone ∧ h.w ≠ min n 64) ∨ p.mmOk t.signed n = false ∨
      (h.mm = true ∧ wordKey t.signed h.max < wordKey t.signed h.min) then some 0x0006
  else none

/-- Check 8 of R309: the value is the extension of its low n bits and, with MM set, lies within [MIN, MAX]. -/
def Hdr.valueOk (h : Hdr) (signed : Bool) (n : Nat) (i : Int) : Bool :=
  decide (extImage signed n (ofSigned n i) = i) && !(h.mm && decide (i < wordKey signed h.min ∨ wordKey signed h.max < i))

/-- The images of a frame by position, none at a null, each with the outcome of check 8. -/
def frameValues (t : Ty) (b : List Byte) : List (Option (Nat × Bool)) :=
  let n := t.width
  let p := frameParts n b
  ((p.words t.signed n).zip p.valid).map fun e => if e.2 then some (ofSigned n e.1, p.h.valueOk t.signed n e.1) else none

/-- Check and decode a frame of `len` bytes (R309): the images by position, none at a null; or the DETAIL of the failed check. -/
def decodeFrame (t : Ty) (b : List Byte) (len : Nat) : Except Nat (List (Option Nat)) :=
  match frameCheck t b len with
  | some d => .error d
  | none =>
    let vs := frameValues t b
    if vs.any fun v => v.any fun x => !x.2 then .error 0x0006 else .ok (vs.map fun v => v.map (·.1))

/-- One value type for each image width and signedness of the table "Value types". -/
def imageTypes : List Ty := [0x02, 0x03, 0x04, 0x05, 0x06, 0x07, 0x08, 0x09, 0x0B].map fun c => ({ code := c, p := 38 } : Ty)

/-- The checks of R309 that a copy of an encoded frame can make: it knows no value type, so the frame must pass under one of them
(R156, log 21). -/
def copyFrameCheck (b : List Byte) (len : Nat) : Option Nat :=
  if len < 32 ∨ b.length < len then some 0x0006
  else if frameCrcOk b len = false then some 0x0001
  else if imageTypes.any fun t => (decodeFrame t b len).toOption.isSome then none
  else some 0x0006

/-! ### Encoding (R310) -/

/-- A coding under consideration. -/
structure Coding where
  pred   : Nat
  w      : Nat
  size   : Nat
  fields : List Nat
  exc    : List (Nat × Nat)
  nrun   : Nat
  deriving DecidableEq, Repr

/-- Residue fields and the words that the decoder will see: nulls take residue 0 (R304). -/
def residues (pred min : Nat) : Nat → Nat → Nat → List (Option Nat) → List (Nat × Nat × Bool)
  | _, _, _, [] => []
  | i, p1, p2, v :: vs =>
    let p := predict pred i min p1 p2
    match v with
    | none => (0, p, false) :: residues pred min (i + 1) p p1 vs
    | some x =>
      let s := m64 ((x : Int) - p)
      ((if pred = predFor then s else zigzag s), x, true) :: residues pred min (i + 1) x p1 vs

/-- The best width for one predictor: least size, then least W, with at most 16 exceptions. -/
def bestWidth (vcnt bm : Nat) (fs : List Nat) : Nat × Nat :=
  (List.range 65).foldl (fun (best : Nat × Nat) w =>
    let ne := (fs.filter fun f => decide (2 ^ w ≤ f)).length
    let size := 32 + bm + areaBytes vcnt w + excBytes ne
    if ne ≤ 16 ∧ size < best.2 then (w, size) else best) (64, 2 ^ 32)

def predCoding (pred min bm : Nat) (xs : List (Option Nat)) : Coding :=
  let r := residues pred min 0 0 0 xs
  let bw := bestWidth xs.length bm (r.map (·.1))
  let exc := (r.zipIdx.filter fun (e : (Nat × Nat × Bool) × Nat) => decide (2 ^ bw.1 ≤ e.1.1)).map fun e => (e.2, e.1.2.1)
  { pred := pred, w := bw.1, size := bw.2, fields := r.map fun e => if 2 ^ bw.1 ≤ e.1 then 0 else e.1, exc := exc, nrun := 0 }

/-- Values with nulls taking the run before them, or MIN at the start (R306). -/
def fillNulls : Nat → List (Option Nat) → List Nat
  | _, [] => []
  | cur, v :: vs => let x := v.getD cur; x :: fillNulls x vs

/-- Maximal runs: value and length. -/
def runsOf : List Nat → List (Nat × Nat)
  | [] => []
  | x :: xs => match runsOf xs with
    | (y, k) :: r => if x = y then (y, k + 1) :: r else (x, 1) :: (y, k) :: r
    | [] => [(x, 1)]

def bitLength (v : Nat) : Nat := if v = 0 then 0 else Nat.log2 v + 1

def runCoding (min bm : Nat) (xs : List (Option Nat)) : Coding :=
  let rs := (runsOf (fillNulls min xs)).map fun e => (m64 ((e.1 : Int) - min), e.2)
  let w := rs.foldl (fun a e => max a (bitLength e.1)) 0
  { pred := predRun, w := w, size := 32 + bm + areaBytes rs.length (w + 10)
    fields := rs.map fun e => e.1 + 2 ^ w * (e.2 - 1), exc := [], nrun := rs.length }

def noneCoding (n bm : Nat) (imgs : List (Option Nat)) : Coding :=
  let vs := imgs.map (·.getD 0)
  { pred := predNone, w := min n 64, size := 32 + bm + ceilDiv (imgs.length * n) 64 * 8
    fields := if n = 128 then vs.flatMap fun v => [v % 2 ^ 64, v / 2 ^ 64] else vs, exc := [], nrun := 0 }

/-- The smaller coding; the first on a tie (R310). -/
def smaller (a b : Coding) : Coding := if b.size < a.size then b else a

/-- Write a frame out. -/
def Coding.frame (c : Coding) (valid : List Bool) (mm : Bool) (mn mx : Nat) : List Byte :=
  let nulls := (valid.filter (! ·)).length
  let fw := if c.pred = predRun then c.w + 10 else c.w
  let head := leBytes 1 (c.pred + 8 * boolNat mm) ++ leBytes 1 c.w ++ leBytes 2 valid.length ++ leBytes 2 nulls ++
    leBytes 1 c.exc.length ++ [0] ++ leBytes 2 c.nrun ++ [0, 0]
  let pos := c.exc.flatMap fun e => leBytes 2 e.1
  let tail := leBytes 8 mn ++ leBytes 8 mx ++ (if nulls = 0 then [] else bitmapOf valid) ++
    leBytes (areaBytes c.fields.length fw) (packFields fw c.fields) ++
    pos ++ List.replicate (ceilDiv c.exc.length 4 * 8 - pos.length) 0 ++ c.exc.flatMap fun e => leBytes 8 e.2
  head ++ leBytes 4 (crc32c (head ++ [0, 0, 0, 0] ++ tail)) ++ tail

/-- Encode a block of images (R310); `force` is a predictor, or 0 for the encoder's choice (R311). -/
def encodeFrame (t : Ty) (force : Nat) (imgs : List (Option Nat)) : List Byte :=
  let n := t.width
  let valid := imgs.map Option.isSome
  let bm := if valid.all id then 0 else 128
  let ints := imgs.map fun v => v.map (extImage t.signed n)
  let vs := ints.filterMap id
  let wide := vs.any fun i => n == 128 && !fitsSigned 64 i
  match vs with
  | [] =>
    let z : List (Option Nat) := imgs.map fun _ => none
    let c := if force = 0 ∨ force = predFor then predCoding predFor 0 bm z
      else if force = predNone then noneCoding n bm z
      else if force = predRun then runCoding 0 bm z
      else predCoding force 0 bm z
    c.frame valid false 0 0
  | i :: rest =>
    if wide then (noneCoding n bm imgs).frame valid false 0 0 else
    let mn := m64 (rest.foldl min i)
    let mx := m64 (rest.foldl max i)
    let xs := ints.map fun v => v.map m64
    let nn := noneCoding n bm imgs
    let c :=
      if force = 0 then
        smaller (smaller (smaller (smaller (predCoding predFor mn bm xs) (predCoding predDelta mn bm xs))
          (predCoding predDelta2 mn bm xs)) (runCoding mn bm xs)) nn
      else if force = predNone then nn
      else
        let f := if force = predRun then runCoding mn bm xs else predCoding force mn bm xs
        if nn.size < f.size then nn else f
    c.frame valid true mn mx

/-! ### Raw blocks (R313) -/

/-- The type of a codec job: VTYPE alone. -/
def codecTy (vtype : Nat) : Ty := { code := vtype, p := 38 }

/-- The images of `c` raw values: IEEE floats become order images, any nonzero BOOL is 1, R178 applies. -/
def rawImages (t : Ty) (c : Nat) (b : List Byte) : List (Option Nat) :=
  let w := t.width / 8
  (List.range c).map fun i =>
    if bit (byteAt b (i / 8)) (i % 8) then
      let v := field b (128 + w * i) w
      some (if t.isFloat then t.fmt.orderImage (t.fmt.canon v) else if t.code = tyBool then boolNat (v != 0) else v)
    else none

/-- The raw block of a frame's images: 0 at nulls, canonical floats. -/
def rawBlock (t : Ty) (imgs : List (Option Nat)) : List Byte :=
  let w := t.width / 8
  let vals := imgs.flatMap fun v => match v with
    | none => List.replicate w 0
    | some x => leBytes w (if t.isFloat then t.fmt.canon (t.fmt.ofOrderImage x) else x)
  bitmapOf (imgs.map Option.isSome) ++ vals ++ List.replicate (alignUp vals.length 8 - vals.length) 0

end Sys2Proof.Machine
end

