-- ==== Sys2Proof/Machine/Segment.lean ====
section
/-! DEFINITION. The segment commands SEG_ALLOC to FENCE (R120, R121, R131 to R134, R140 to R146, R154 to R164). -/

namespace Sys2Proof.Machine

/-- A started command of an opcode on which its row has not acted yet. -/
def State.fresh? (s : State) (c : CmdRef) (op : Nat) : Option Cmd :=
  match s.runningOp? c op with
  | some x => if x.prog = .idle then some x else none
  | none => none

/-- What a started command of an opcode waits for. -/
def State.progOp? (s : State) (c : CmdRef) (op : Nat) : Option Prog := (s.runningOp? c op).map (·.prog)

/-! ### SEG_ALLOC (R140 to R146) -/

/-- The tiles that hold the segment: the home tile for LOCAL, TILES otherwise. -/
def Cmd.allocTiles (x : Cmd) : Nat := if x.f 17 1 = 0 then 2 ^ (x.f 18 1) else x.f 19 1

/-- The slice that will own the segment. -/
def Cmd.allocOwner (x : Cmd) : Nat := if x.f 22 2 = 0 then x.slice else x.f 22 2

/-- The tile is a CXL root port (R17, R18). -/
def State.rootPort (s : State) (t : TileId) : Bool := s.live t && !s.hostRole t

/-- The table "Allowed placements" and the rules on TILES and HOME (R140), with the owner and the requested ID (R120). -/
def State.allocReqs (s : State) (x : Cmd) : List (Bool × Nat) :=
  let pl := x.f 17 1
  let tier := x.f 16 1
  let home := x.f 18 1
  let ts := maskTiles (x.f 19 1)
  let liveNo (t : Nat) : Bool := decide (t < 8) && s.live (tid t)
  let owner := (s.slc x.allocOwner).st
  [(x.f 4 4 == 0 || !(s.seg (x.f 4 4)).valid, 4), (owner != .free, 22)] ++
  (if pl = 0 then [(liveNo home, 18), (tier != 2 || s.rootPort (tid home), 16)]
   else [(!ts.isEmpty && ts.all liveNo, 19), (tier != 2 || (pl == 1 && ts.all fun t => s.rootPort (tid t)), 16),
     (decide (2 ≤ ts.length), 19)]) ++
  [(!bit (x.f 20 1) 0 || (pl == 0 && tier == 2), 20)]

/-- The segment as requested, at unit offset `u`. -/
def Cmd.allocSeg (x : Cmd) (u gen tick : Nat) : Seg :=
  let tiles := x.allocTiles
  let low := (maskTiles tiles).headD 0
  let tier := x.f 16 1
  let g : Seg :=
    { base := storeAddr low tier (u * unitB), tiles := tiles, length := x.f 8 8, placement := x.f 17 1, codec := x.f 21 1
      valid := true, persistent := bit (x.f 20 1) 0, dirty := true, slice := x.allocOwner, gen := gen
      zeroFill := bit (x.f 20 1) 1, allocTick := tick }
  if g.codec = 1 then { g with fidx := g.base + g.rowUnits * unitB } else g

/-- The lowest free segment ID (R145). -/
def State.lowestFreeId (s : State) : Option Nat :=
  let used := s.validSegs.map (·.1)
  (List.range (used.length + 1)).map (· + 1) |>.find? fun i => decide (i ≤ maxSegid) && !used.contains i

/-- Checks 6 and 8 of SEG_ALLOC. -/
def State.allocCheck (s : State) (x : Cmd) : Option Completion :=
  let g := x.allocSeg 0 1 0
  let own := x.allocOwner
  match firstBad (s.allocReqs x) with
  | some e => some (badField e)
  | none =>
    if (s.slc own).st = .failed then some { status := stUncorrectable }
    else if s.segQuotaOf own < (s.slc own).segUsed + 1 ∨ s.overTier own g.tier (g.chargeUnits * unitB) = true then
      some { status := stQuota }
    else if s.freeOffsets g.tiles g.tier g.persistent g.tileUnits = [] ∨ (x.f 4 4 = 0 ∧ s.lowestFreeId = none) then
      some { status := stNoResources }
    else none

/-! ### The persistent directories (R159) -/

/-- The store address of the directory of an expander's persistent region: its first unit (R139). -/
def State.dirBase (s : State) (t k : Nat) : Nat := storeAddr t 2 (((s.tile (tid t)).cxl.getD k default).persAt)

/-- The expander that holds a persistent segment. -/
def State.expanderOf (s : State) (g : Seg) : Nat := ((s.tile (tid (addrTile g.base))).regionAt g.off).getD 0

def dirRecord (g : Seg) (id pasid dseq : Nat) : List Byte :=
  let body := ({ g with dirty := false } : Seg).bytes ++ leBytes 4 id ++ leBytes 4 pasid ++ leBytes 8 dseq ++
    List.replicate 12 0
  body ++ leBytes 4 (crc32c body)

/-- The record at a slot of a directory. -/
def State.dirSlot (s : State) (t k i : Nat) : List Byte := memBytes0 s.mem (s.dirBase t k + 64 * i) 64

def dirRecordOk (r : List Byte) : Bool := crc32c (cut r 0 60) == field r 60 4

/-- The lowest slot of a directory whose record satisfies `p`. -/
def State.dirFind (s : State) (t k : Nat) (p : List Byte → Bool) : Option Nat :=
  (List.range dirMax).find? fun i => p (s.dirSlot t k i)

/-- The PASID field of a record: bit 31 set for slice 0. -/
def State.dirPasid (s : State) (sl : Nat) : Nat := if sl = 0 then 2 ^ 31 else (s.slc sl).pasid

/-- Put a segment's record into a slot of its directory. -/
def State.dirPut (s : State) (id i : Nat) : State :=
  let g := s.seg id
  let r := dirRecord g id (s.dirPasid g.slice) s.dseq
  { s with mem := memWriteBytes s.mem (s.dirBase (addrTile g.base) (s.expanderOf g) + 64 * i) r, dseq := (s.dseq + 1) % 2 ^ 64 }

/-- Take the record of a slot out of a directory. -/
def State.dirTake (s : State) (t k i : Nat) : State := { s with mem := memErase s.mem (s.dirBase t k + 64 * i) 64 }

/-- The slot of a directory is in the persistence domain as it stands (R159, R161). -/
def State.dirDurable (s : State) (t k i : Nat) : State :=
  let lo := s.dirBase t k + 64 * i
  let now := s.mem.filter fun c => decide (lo ≤ c.1 ∧ c.1 < lo + 64)
  { s with durable := now.foldl (fun m c => memWrite m c.1 c.2) (memErase s.durable lo 64) }

/-- Write a segment's record, or take it out, with both GPF phases done in the same step: outside SEG_ALLOC and SEG_FREE (log 73). -/
def State.dirWrite (s : State) (id : Nat) : State :=
  let t := addrTile (s.seg id).base
  let k := s.expanderOf (s.seg id)
  match s.dirFind t k fun r => !dirRecordOk r with
  | none => s
  | some i => ((s.dirPut id i).dirDurable t k i).emitAll [.gpf t k 1, .gpf t k 2]

def State.dirRemove (s : State) (id : Nat) : State :=
  let t := addrTile (s.seg id).base
  let k := s.expanderOf (s.seg id)
  match s.dirFind t k fun r => dirRecordOk r && field r 32 4 == id with
  | none => s
  | some i => ((s.dirTake t k i).dirDurable t k i).emitAll [.gpf t k 1, .gpf t k 2]

/-- The command waits while GPF makes a slot of a directory durable (R159). -/
def State.dirFlush (s : State) (c : CmdRef) (t k i id : Nat) (removal : Bool) (result : List Byte) : State :=
  (s.emit (.gpf t k 1)).onCmd c fun y => { y with
    prog := .dirWait { segid := id, removal := removal, slot := i, phase := { tile := t, expander := k, phase := 1 }, result := result } }

/-- An allocation completes, for a persistent segment once its record is durable (R159). -/
def State.allocated (s : State) (c : CmdRef) (id : Nat) (result : List Byte) : State :=
  let t := addrTile (s.seg id).base
  let k := s.expanderOf (s.seg id)
  match if (s.seg id).persistent then s.dirFind t k (fun r => !dirRecordOk r) else none with
  | some i => (s.dirPut id i).dirFlush c t k i id false result
  | none => s.succeed c result

/-- Allocate: the offset is the device's choice among those free (R141, log 8). -/
def State.allocate (s : State) (x : Cmd) : State :=
  let g0 := x.allocSeg 0 1 0
  match s.pick (s.freeOffsets g0.tiles g0.tier g0.persistent g0.tileUnits),
      (if x.f 4 4 = 0 then s.lowestFreeId else some (x.f 4 4)) with
  | some u, some id =>
    let gen := nextGen (tblGet s.segGen id 0)
    let own := x.allocOwner
    let g := { x.allocSeg u gen s.tick with charged := g0.chargeUnits, ownerPasid := if bit (x.f 20 1) 0 then some (s.dirPasid own) else none }
    let s := (s.bump.forgetSeg g).setSeg id g
    let s : State := { s with segGen := tblSet 0 s.segGen id gen }
    let s := s.onSlc own fun y => ({ y with segUsed := y.segUsed + 1 } : Slice).charge g.tier (· + g.charged * unitB)
    s.revoteAll.allocated x.ref id (leBytes 4 id ++ leBytes 2 gen)
  | _, _ => s.fail x.ref stNoResources 0 0

/-- SEG_ALLOC (R141). -/
def execSegAlloc (c : CmdRef) (s : State) : Res :=
  .next (match s.fresh? c 0x20 with
    | some x =>
      match s.allocCheck x with
      | some k => s.finish c k
      | none => s.allocate x
    | none => s)

/-! ### SEG_FREE (R121, R150) -/

/-- SEG_FREE: from its start no other command that names the segment starts; it waits for those that started before. -/
def execSegFree (c : CmdRef) (s : State) : Res :=
  .next (match s.fresh? c 0x21 with
    | some x =>
      (s.noteSeg (x.f 4 4) fun g => { g with freeing := some c }).onCmd c fun y => { y with prog := .freeWait (x.f 4 4) }
    | none => s)

/-- The store ranges that the copies of a poisoned entry name stay reserved (R150). -/
def State.strand (s : State) (id : Nat) : State :=
  { s with stuck := s.stuck ++ (s.copiesOf id).flatMap fun g =>
      (maskTiles g.tiles).map fun t => (4 * t + g.tier, g.off / unitB, g.tileUnits) }

/-- A command that has not started and names the segment fails, whatever segment the ID names later (R121). -/
def State.goneSeg (s : State) (id : Nat) : State :=
  { s with cmds := s.cmds.map fun y =>
      if y.phase = .fetched ∧ ((y.segFields.map (·.1)).contains id || y.held.contains id) = true then { y with goneSegs := id :: y.goneSegs }
      else y }

/-- Return a segment's charges and clear its entry; a poisoned entry's ranges stay reserved (R144, R150). -/
def State.clearSeg (s : State) (id : Nat) : State :=
  let g := s.seg id
  if !g.valid then s else
  let s := s.onSlc g.slice fun y => ({ y with segUsed := y.segUsed - 1 } : Slice).charge g.tier (· - g.charged * unitB)
  let s := if g.poison then s.strand id else s
  ((s.goneSeg id).setSeg id {}).revoteAll

/-- Free a segment, its directory record with it (R159). -/
def State.freeSeg (s : State) (id : Nat) : State :=
  ((if (s.seg id).valid && (s.seg id).persistent then s.dirRemove id else s) : State).clearSeg id

/-- The free takes effect: a persistent segment's record is taken out first and the removal made durable (R121, R159). -/
def State.freeEffect (s : State) (c : CmdRef) (id : Nat) : State :=
  let t := addrTile (s.seg id).base
  let k := s.expanderOf (s.seg id)
  match if (s.seg id).valid && (s.seg id).persistent then s.dirFind t k (fun r => dirRecordOk r && field r 32 4 == id) else none with
  | some i => (s.dirTake t k i).dirFlush c t k i id true []
  | none => (s.clearSeg id).succeed c []

/-- SEG_FREE_EFFECT (R121): every command that names the segment and started before has completed. -/
def execSegFreeEffect (c : CmdRef) (s : State) : Res :=
  .next (match s.runningOp? c 0x21 with
    | some x =>
      match x.prog with
      | .freeWait id =>
        if s.cmds.any fun y => decide (y.ref ≠ c) && y.named.contains id then s
        else s.freeEffect c id
      | _ => s
    | none => s)

/-- The slot of a record on its way is durable, and a segment whose record was taken out is free (R159). -/
def State.dirSettle (s : State) (w : DirWait) : State :=
  let s := s.dirDurable w.phase.tile w.phase.expander w.slot
  if w.removal then s.clearSeg w.segid else s

/-- Both phases are done: the command completes (R159). -/
def State.dirDone (s : State) (c : CmdRef) (w : DirWait) : State := (s.dirSettle w).succeed c w.result

/-- A phase has failed (log 73): the record is as it was before, an allocation is undone, and the command fails. -/
def State.dirFail (s : State) (c : CmdRef) (w : DirWait) : State :=
  let s := if w.removal then (s.dirPut w.segid w.slot).noteSeg w.segid fun g => { g with freeing := none }
    else (s.dirTake w.phase.tile w.phase.expander w.slot).clearSeg w.segid
  s.finish c { status := stUncorrectable }

/-! ### SEG_WRITE, SEG_READ, SEG_COPY -/

/-- The home tile of a command. -/
def Cmd.t (x : Cmd) : TileId := tid x.home

/-- A started command that reaches a fenced segment fails with UNCORRECTABLE_MEMORY (R164). -/
def State.reachable (s : State) (ids : List Nat) : Bool := ids.all fun i => (s.seg i).valid && !(s.seg i).fenced

/-- SEG_WRITE (R157, R111): on a host error the bytes below FAULT_OFFSET, lowered to a 64 B unit, have been written. -/
def segWriteEff (x : Cmd) (src : HostRead) (s : State) : State :=
  let id := x.f 4 4
  let off := x.f 8 8
  if s.reachable [id] = false then s.failAt x.ref stUncorrectable 0 0 else
  match src.err with
  | some (e, o) =>
    let m := unitFloor off o
    (s.segStore id (s.segFor x id) off (cut src.bytes 0 m)).failHost x.ref e (x.stream 16) o m
  | none =>
    let n := (x.dref 16).total
    (s.segStore id (s.segFor x id) off (cut src.bytes 0 n)).succeed x.ref (leBytes 8 n)

def execSegWrite (c : CmdRef) (src : HostRead) (s : State) : Res :=
  .next (match s.fresh? c 0x22 with
    | some x => segWriteEff x src s
    | none => s)

/-- SEG_READ (R157, R329): the DMA stops before the first poisoned unit. -/
def segReadEff (x : Cmd) (wfail : Option Nat) (s : State) : State :=
  let id := x.f 4 4
  let off := x.f 8 8
  let g := s.segFor x id
  let n := (x.dref 16).total
  if s.reachable [id] = false then s.failAt x.ref stUncorrectable 0 0 else
  let p := s.poisonAt x.home g off n
  let m := p.getD n
  let bs := s.segBytes x.home g off m
  match faultIn m wfail with
  | some o => (s.dmaOut x (x.stream 16) bs (some o)).failHost x.ref .translation (x.stream 16) o o
  | none =>
    let s1 := s.dmaOut x (x.stream 16) bs none
    match p with
    | some o => s1.failPoison x.ref o (s.readLoc x.home g (off + o))
    | none => s1.succeed x.ref (leBytes 8 n)

def execSegRead (c : CmdRef) (wfail : Option Nat) (s : State) : Res :=
  .next (match s.fresh? c 0x23 with
    | some x => segReadEff x wfail s
    | none => s)

/-- A frame and its index entry fit a PFC segment (R154). -/
def State.frameFits (s : State) (t : Nat) (g : Seg) (size : Nat) : Bool :=
  decide (s.fill t g + size ≤ g.length ∧ g.nframes + 1 ≤ g.indexCap)

/-- Store a frame at an offset with its index entry; then NFRAMES counts it (R153, R154). -/
def State.putFrame (s : State) (id : Nat) (g : Seg) (off : Nat) (fr entry : List Byte) : State :=
  let s := s.segStore id g off fr
  let s := s.indexStore g (48 * g.nframes) entry
  s.onSeg id fun h => { h with nframes := g.nframes + 1 }

/-- Append a frame that the codec engine has encoded at the fill of a PFC segment (R154). -/
def State.appendFrame (s : State) (t : TileId) (id : Nat) (fr : List Byte) : State :=
  let g := s.segOn t id
  let at_ := s.fill t.val g
  s.putFrame id g at_ fr (makeIndexEntry at_ fr.length fr)

/-- Copy the frames of a PFC segment one by one, each checked, byte for byte and with its index entry (R154 to R156): `moved` counts
the bytes copied. -/
def copyFrames (x : Cmd) (src dst : Nat) : Nat → Nat → Nat → State → State
  | 0, _, _, s => s.succeed x.ref []
  | n + 1, k, moved, s =>
    let g := s.segFor x src
    let e := s.indexEntry x.home g k
    let fo := field e 0 6
    let fs := field e 6 2
    let fault := moved / 64 * 64
    if s.indexPoison x.home g (48 * k) 48 then s.failPoison x.ref fault (s.indexLoc x.home g (48 * k))
    else if indexEntryOk e = false then s.failAt x.ref stDataCrc 0x0005 fault
    else match s.poisonAt x.home g fo fs with
      | some o => s.failPoison x.ref fault (s.readLoc x.home g (fo + o))
      | none =>
        let fr := s.segBytes x.home g fo fs
        match copyFrameCheck fr fs with
        | some d => s.failAt x.ref stDataCrc d fault
        | none => copyFrames x src dst n (k + 1) (moved + fs) (s.putFrame dst (s.segFor x dst) fo fr e)

/-- SEG_COPY (R155). -/
def segCopyEff (x : Cmd) (s : State) : State :=
  let a := x.f 4 4
  let b := x.f 8 4
  let so := x.f 16 8
  let d := x.f 24 8
  let n := x.f 32 8
  let g := s.segFor x a
  let h := s.segFor x b
  if s.reachable [a, b] = false then s.failAt x.ref stUncorrectable 0 0
  else if h.codec = 1 then copyFrames x a b g.nframes 0 0 s
  else match s.poisonAt x.home g so n with
    | some o =>
      let m := unitFloor d o
      (s.segStore b h d (s.segBytes x.home g so m)).failPoison x.ref m (s.readLoc x.home g (so + o))
    | none => (s.segStore b h d (s.segBytes x.home g so n)).succeed x.ref []

def execSegCopy (c : CmdRef) (s : State) : Res :=
  .next (match s.fresh? c 0x24 with
    | some x => segCopyEff x s
    | none => s)

/-- Check 6 and 7 of SEG_COPY beyond its names (R155). -/
def State.copyCheck (s : State) (x : Cmd) : Option Completion :=
  let g := s.segFor x (x.f 4 4)
  let h := s.segFor x (x.f 8 4)
  let so := x.f 16 8
  let d := x.f 24 8
  let n := x.f 32 8
  firstFail [
    need (h.codec != 1 || g.codec != 1 || s.fillOk x.home g) { status := stDataCrc, detail := 0x0005, result := leBytes 8 0 },
    need (h.codec != 1 || (g.codec == 1 && so == 0 && d == 0 && n == s.fill x.home g && h.nframes == 0)) (badField 8),
    s.rangeStatus g so n, s.rangeStatus h d n,
    need (h.codec != 1 || decide (g.nframes ≤ h.indexCap)) { status := stOutOfRange },
    if h.codec = 1 then firstFail [s.indexStatus g g.nframes, s.indexStatus h g.nframes] else none]

/-! ### SEG_FLUSH (R161, R162) -/

/-- The persistent segments in the scope of a flush. -/
def State.flushScope (s : State) (x : Cmd) : List Nat :=
  if x.f 4 4 ≠ 0 then [x.f 4 4]
  else (s.validSegs.filter fun e => e.2.persistent && !e.2.fenced && (x.slice == 0 || e.2.slice == x.slice)).map (·.1)

/-- A store address lies in a segment's ranges. -/
def Seg.holdsAddr (g : Seg) (a : Nat) : Bool :=
  bit g.tiles (addrTile a) && addrTier a == g.tier && decide (g.off ≤ addrOff a ∧ addrOff a < g.off + g.tileUnits * unitB)

/-- A store address lies in one of a list of segments. -/
def State.inSegs (s : State) (ids : List Nat) (a : Nat) : Bool := ids.any fun i => (s.seg i).holdsAddr a

/-- The bytes that a flush has drained of segments become durable, but for a segment that a flush which started later has already
covered (R134, R161, R162). -/
def State.makeDurable (s : State) (ids : List Nat) (f : Flush) : State :=
  let ids := ids.filter fun i => decide ((s.seg i).flushed ≤ f.began)
  let rest := s.durable.filter fun c => !s.inSegs ids c.1
  let s : State := { s with durable := (f.snap.filter fun c => s.inSegs ids c.1).foldl (fun m c => memWrite m c.1 c.2) rest }
  ids.foldl (fun s i => s.noteSeg i fun g => { g with flushed := f.began }) s

/-- The expanders that hold persistent segments: (tile, expander), each once. -/
def State.expandersOf (s : State) (ids : List Nat) : List (Nat × Nat) :=
  (allTiles.flatMap fun t => (List.range (s.tile t).cxl.length).map fun k => (t.val, k)).filter fun p =>
    ids.any fun i => addrTile (s.seg i).base == p.1 && s.expanderOf (s.seg i) == p.2

/-- SEG_FLUSH: the scope is drained, and the root ports that hold it begin GPF Phase 1 toward each expander that does. -/
def segFlushEff (x : Cmd) (s : State) : State :=
  let ids := s.flushScope x
  let s := s.bump.drainWhere (s.inSegs ids)
  let es := s.expandersOf ids
  if es.isEmpty then s.succeed x.ref (leBytes 4 ids.length)
  else (s.emitAll (es.map fun p => .gpf p.1 p.2 1)).onCmd x.ref fun y =>
    { y with prog := .flush {
        phases := es.map fun p => { tile := p.1, expander := p.2, phase := 1 }, segs := ids, began := s.tick
        snap := s.mem.filter fun c => s.inSegs ids c.1 } }

def execSegFlush (c : CmdRef) (s : State) : Res :=
  .next (match s.fresh? c 0x25 with
    | some x => segFlushEff x s
    | none => s)

/-- A segment of a flush: none of its expanders failed, and no fence has reached it (R162, R164). -/
def State.flushedWell (s : State) (f : Flush) (i : Nat) : Bool :=
  !f.failed.contains (addrTile (s.seg i).base, s.expanderOf (s.seg i)) && s.reachable [i]

/-- The flush goes on, or completes once no phase is outstanding. -/
def State.flushGo (s : State) (c : CmdRef) (f : Flush) : State :=
  if f.phases.isEmpty then
    let good := f.segs.filter (s.flushedWell f)
    let s1 := s.makeDurable good f
    if good.length = f.segs.length then s1.succeed c (leBytes 4 good.length)
    else s1.finish c { status := stUncorrectable, result := leBytes 4 good.length }
  else s.onCmd c fun y => { y with prog := .flush f }

/-- PERSIST_FAILED names the expander (R162). -/
def State.logPersist (s : State) (t : TileId) (expander : Nat) : State :=
  s.logErr t { errRec evPersistFailed 2 with kind := 0x09, index := expander % 256, status := stUncorrectable }

/-- The phase outstanding at an expander. -/
def Flush.at? (f : Flush) (t : TileId) (expander : Nat) : Option GpfPhase :=
  f.phases.find? fun p => decide (p.tile = t.val ∧ p.expander = expander)

/-- The flush without the phase outstanding at an expander. -/
def Flush.drop (f : Flush) (t : TileId) (expander : Nat) : Flush :=
  { f with phases := f.phases.filter fun p => !decide (p.tile = t.val ∧ p.expander = expander) }

/-- The flush with an expander in Phase 2. -/
def Flush.second (f : Flush) (t : TileId) (expander : Nat) : Flush :=
  { f with phases := f.phases.map fun p => if p.tile = t.val ∧ p.expander = expander then { p with phase := 2 } else p }

/-- A phase of an expander has failed: PERSIST_FAILED is logged (R162). -/
def State.gpfFail (s : State) (c : CmdRef) (t : TileId) (expander : Nat) (f : Flush) : State :=
  (s.logPersist t expander).flushGo c { f.drop t expander with failed := f.failed ++ [(t.val, expander)] }

/-- A phase of an expander has ended (R161). -/
def State.flushPhase (s : State) (c : CmdRef) (t : TileId) (expander : Nat) (f : Flush) (p : GpfPhase) (err : Bool) : State :=
  if err then s.gpfFail c t expander f
  else if p.phase = 1 then (s.emit (.gpf t.val expander 2)).flushGo c (f.second t expander)
  else s.flushGo c (f.drop t expander)

/-- A phase that makes a directory record durable has ended (R159). -/
def State.dirPhase (s : State) (c : CmdRef) (t : TileId) (expander : Nat) (w : DirWait) (err : Bool) : State :=
  if w.phase.tile ≠ t.val ∨ w.phase.expander ≠ expander then s
  else if err then (s.logPersist t expander).dirFail c w
  else if w.phase.phase = 1 then
    (s.emit (.gpf t.val expander 2)).onCmd c fun y => { y with prog := .dirWait { w with phase := { w.phase with phase := 2 } } }
  else s.dirDone c w

/-- A GPF phase of an expander for a command has ended, in error or not. -/
def gpfEff (c : CmdRef) (t : TileId) (expander : Nat) (err : Bool) (s : State) : State :=
  match s.running? c with
  | none => s
  | some x =>
    match x.prog with
    | .flush f =>
      match f.at? t expander with
      | some p => s.flushPhase c t expander f p err
      | none => s
    | .dirWait w => s.dirPhase c t expander w err
    | _ => s

/-- GPF_PHASE_DONE (R161). -/
def execGpfPhaseDone (c : CmdRef) (t : TileId) (expander : Nat) (err : Bool) (s : State) : Res :=
  .next (gpfEff c t expander err s)

/-- GPF_TIMEOUT (R162): a phase that exceeds its limit has failed. -/
def execGpfTimeout (c : CmdRef) (t : TileId) (expander : Nat) (s : State) : Res :=
  .next (gpfEff c t expander true s)

/-! ### FENCE (R132, R133) -/

/-- The position of a ring index (R69). -/
def Queue.pos (q : Queue) (ix : Nat) (wrap : Bool) : Nat := ix + (if wrap then 2 ^ q.depthLog2 else 0)

def Queue.depth (q : Queue) : Nat := 2 ^ q.depthLog2

/-- Entries that the head of a FENCE's target is still to advance (R132): none when the position is passed, and none while a reset of
the target runs, which makes the position reached (R133). -/
def Queue.fenceLeft (q : Queue) (x : Cmd) : Nat :=
  let d := (q.pos (x.f 6 2) (bit (x.f 8 1) 0) + 2 * q.depth - q.pos q.headIx q.headWrap) % (2 * q.depth)
  if d ≤ q.depth ∧ q.resetBusy = false then d else 0

/-- What a FENCE waits for, recorded at its start (R132); a target that has never had a ring is waited for (R133). -/
def State.fenceProg (s : State) (x : Cmd) : Prog :=
  let tq := x.f 4 2
  if tq = x.q then .fenceWait 0 [] else
  let q := s.queue tq
  let os := (s.cmds.filter fun y => decide (y.q = tq)).map (·.order)
  if q.enable = false ∧ q.depthLog2 < 4 then .fenceHold os else .fenceWait (q.fenceLeft x) os

/-- A queue that is enabled: the fences that waited for its ring know their position (R133). -/
def State.fenceKnown (s : State) (tq : Nat) : State :=
  { s with cmds := s.cmds.map fun y =>
      match y.prog with
      | .fenceHold os => if y.f 4 2 = tq then { y with prog := .fenceWait ((s.queue tq).fenceLeft y) os } else y
      | _ => y }

/-- A queue's head advances `n` entries with a command fetched: fences that wait for the position count it (R132). -/
def State.fenceAdvance (s : State) (tq n order : Nat) : State :=
  { s with cmds := s.cmds.map fun y =>
      match y.prog with
      | .fenceWait left os =>
        if y.f 4 2 = tq ∧ y.q ≠ tq ∧ 0 < left then { y with prog := .fenceWait (left - n) (os ++ [order]) } else y
      | _ => y }

/-- A queue reset makes the position reached (R133). -/
def State.fenceReached (s : State) (tq : Nat) : State :=
  { s with cmds := s.cmds.map fun y =>
      match y.prog with
      | .fenceWait _ os => if y.f 4 2 = tq then { y with prog := .fenceWait 0 os } else y
      | .fenceHold os => if y.f 4 2 = tq then { y with prog := .fenceWait 0 os } else y
      | _ => y }

/-- FENCE: it completes once the head stands at the position and the commands fetched before have completed. -/
def execFence (c : CmdRef) (s : State) : Res :=
  .next (match s.progOp? c 0x26 with
    | some (.fenceWait 0 os) =>
      if s.cmds.any fun y => decide (y.ref ≠ c) && os.contains y.order then s else s.succeed c []
    | _ => s)

end Sys2Proof.Machine
end

