-- ==== Sys2Proof/Machine/Codec.lean ====
section
/-! DEFINITION. The codec engine: COMPRESS, DECOMPRESS and the frames of their jobs (R126, R310 to R319). -/

namespace Sys2Proof.Machine

/-- The tile whose codec engine serves a tile: its own, else the lowest-numbered tile with one that is not fenced (R319). -/
def State.codecTile (s : State) (t : TileId) : Option TileId :=
  let ok (u : TileId) : Bool := s.live u && !(s.tile u).err.fence.codec
  if ok t then some t else s.liveTiles.find? ok

def State.onCodec (s : State) (t : TileId) (f : List CodecJob → List CodecJob) : State :=
  s.onTile t fun x => { x with codec := f x.codec }

def Cmd.vty (x : Cmd) : Ty := codecTy (x.f 4 1)
def Cmd.srcSeg (x : Cmd) : Nat := x.f 88 4
def Cmd.dstSeg (x : Cmd) : Nat := x.f 92 4
def Cmd.srcOff (x : Cmd) : Nat := x.f 96 8
def Cmd.dstOff (x : Cmd) : Nat := x.f 104 8

/-- Length of the raw blocks of `v` values of the job's type. -/
def Cmd.rawOf (x : Cmd) (v : Nat) : Nat := rawLen (x.vty.width / 8) v

/-- What a search of a frame index ends with. -/
inductive Found where
  | frame (k : Nat)
  | none
  | crc                              -- an entry that was read fails its ICRC (R156)
  deriving DecidableEq, Repr

/-- The number of the frame of a PFC segment that begins at an offset, among `n` frames from `k`. -/
def State.frameAt (s : State) (t : Nat) (g : Seg) (off : Nat) : Nat → Nat → Found
  | 0, _ => .none
  | n + 1, k =>
    let e := s.indexEntry t g k
    if indexEntryOk e = false then .crc
    else if field e 0 6 = off then .frame k else s.frameAt t g off n (k + 1)

/-- The index entry that ends a PFC source fails its ICRC, or one before the named frame (R156). -/
def State.sourceBad (s : State) (x : Cmd) (g : Seg) : Bool :=
  s.frameAt x.home g x.srcOff g.nframes 0 == .crc || !s.fillOk x.home g

/-- Checks 6, 7 and 9 of the codec commands beyond the names of segments (R314, R317). -/
def State.codecCheck (s : State) (x : Cmd) : Option Completion :=
  let enc := x.op == 0x50
  let g := s.segFor x x.srcSeg
  let d := s.segFor x x.dstSeg
  let hs := x.srcSeg == 0
  let hd := x.dstSeg == 0
  let n := x.rawOf (x.f 40 8)
  firstFail [
    need (hs || g.codec == (if enc then 0 else 1)) (badField 88),
    need (hd || d.codec == 0 || (enc && x.dstOff == 0)) (badField (if enc then 104 else 92)),
    need (hs || enc || !s.sourceBad x g) { status := stDataCrc, detail := 0x0005, result := leBytes 8 0 ++ leBytes 8 0 },
    need (hd || d.codec == 0 || s.fillOk x.home d) { status := stDataCrc, detail := 0x0005, result := leBytes 8 0 ++ leBytes 8 0 },
    need (hs || enc || s.frameAt x.home g x.srcOff g.nframes 0 != .none) (badField 96),
    need (hs || enc || !bit x.cflags 0 || decide (x.f 72 8 < s.fill x.home g - x.srcOff)) (badField 72),
    if hs || !enc then none else s.rangeStatus g x.srcOff n,
    need (hd || decide (x.dstOff ≤ d.length)) { status := stOutOfRange },
    if hs || enc then none else firstFail [s.indexStatus g g.nframes, s.rangeStatus g 0 (min g.length (s.fill x.home g))],
    if hd then none else firstFail [s.indexStatus d d.indexCap, s.rangeStatus d 0 d.length],
    need (!hs || !enc || x.f 16 4 == n) { status := stLengthMismatch, errloc := 16 }]

/-- The job of a started command. -/
def State.newCodecJob (s : State) (x : Cmd) : CodecJob :=
  let cont := bit x.cflags 0
  let f (o : Nat) : Nat := if cont then x.f o 8 else 0
  { c := x.ref, enc := x.op == 0x50, inVals := f 64, inBytes := f 72, outBytes := f 80
    nframes := (s.segFor x x.srcSeg).nframes }

/-- A codec command becomes a job of its engine. -/
def State.postCodec (s : State) (x : Cmd) : State :=
  match s.codecTile x.t with
  | none => s.fail x.ref stUnavailable 0 0
  | some t => (s.onCodec t (· ++ [s.newCodecJob x])).onCmd x.ref fun y => { y with prog := .job }

/-- COMPRESS (R316). -/
def execCompress (c : CmdRef) (s : State) : Res :=
  .next (match s.fresh? c 0x50 with
    | some x => s.postCodec x
    | none => s)

/-- DECOMPRESS (R315). -/
def execDecompress (c : CmdRef) (s : State) : Res :=
  .next (match s.fresh? c 0x51 with
    | some x => s.postCodec x
    | none => s)

/-! ### One frame -/

/-- The result fields of a job (R126). -/
def CodecJob.result (j : CodecJob) : List Byte := leBytes 8 j.inVals ++ leBytes 8 j.inBytes ++ leBytes 8 j.outBytes ++ leBytes 4 j.frames

/-- The result fields of a failure: FAULT_OFFSET in the destination, and the input offset of the frame or block (R315). -/
def CodecJob.fault (j : CodecJob) : List Byte := leBytes 8 j.outHere ++ leBytes 8 j.inBytes

/-- What a job meets next in its input. -/
inductive CodecIn where
  | done
  | bytes (bs : List Byte) (vals : Nat)              -- a raw block, or a frame
  | bad (k : Completion) (poison : Option Nat)
  deriving DecidableEq, Repr

/-- `n` bytes of a segment for a job, read by the engine of tile `t`, or the poison or fence that stops it (R143, R164, R330). -/
def State.codecSeg (s : State) (t : TileId) (id off n vals : Nat) (fault : List Byte) : CodecIn :=
  let g := s.segOn t id
  if s.reachable [id] = false then .bad { status := stUncorrectable, result := fault } none
  else match s.poisonAt t.val g off n with
    | some o => .bad { status := stUncorrectable, result := fault } (some (s.readLoc t.val g (off + o)))
    | none => .bytes (s.segBytes t.val g off n) vals

/-- `n` bytes that the host answered. -/
def codecHost (x : Cmd) (src : HostRead) (pos n vals : Nat) (fault : List Byte) : CodecIn :=
  match src.err with
  | some (e, o) =>
    if o < n then .bad { status := hostStatus e, result := fault, faddr := streamAddr (x.stream 8) (pos + o) } none
    else .bytes (cut src.bytes 0 n) vals
  | none => .bytes (cut src.bytes 0 n) vals

/-- The next raw block of a COMPRESS (R313). -/
def State.compressIn (s : State) (t : TileId) (x : Cmd) (j : CodecJob) (src : HostRead) : CodecIn :=
  let left := x.f 40 8 - j.inVals
  let c := min 1024 left
  if left = 0 then .done
  else if x.srcSeg = 0 then codecHost x src j.inBytes (x.rawOf c) c j.fault
  else s.codecSeg t x.srcSeg (x.srcOff + j.inBytes) (x.rawOf c) c j.fault

def crcFail (j : CodecJob) (detail : Nat) : CodecIn := .bad { status := stDataCrc, detail := detail, result := j.fault } none

/-- The next frame of a PFC source: the job's next frame, else the one at the offset where it begins (R314). -/
def State.nextFrame (s : State) (t : TileId) (x : Cmd) (j : CodecJob) : Found :=
  match j.at_ with
  | some k => .frame k
  | none => s.frameAt t.val (s.segOn t x.srcSeg) (x.srcOff + j.inBytes) j.nframes 0

/-- The next frame of a DECOMPRESS (R314, R315). -/
def State.decompressIn (s : State) (t : TileId) (x : Cmd) (j : CodecJob) (src : HostRead) : CodecIn :=
  if x.srcSeg = 0 then
    let left := x.f 16 4 - j.inBytes
    let h := Hdr.ofBytes src.bytes
    let n := h.fsize x.vty.width
    if left = 0 then .done
    else if src.err.any (fun e => decide (e.2 < min 32 left)) then codecHost x src j.inBytes (min 32 left) 0 j.fault
    else if left < 32 ∨ left < n then crcFail j 0x0006
    else codecHost x src j.inBytes n h.vcnt j.fault
  else
    let g := s.segOn t x.srcSeg
    if s.reachable [x.srcSeg] = false then .bad { status := stUncorrectable, result := j.fault } none
    else if j.at_ = some j.nframes then .done
    else match s.nextFrame t x j with
      | .none => crcFail j 0x0006
      | .crc => crcFail j 0x0005
      | .frame k =>
        let e := s.indexEntry t.val g k
        if s.indexPoison t.val g (48 * k) 48 then
          .bad { status := stUncorrectable, result := j.fault } (some (s.indexLoc t.val g (48 * k)))
        else if indexEntryOk e = false then crcFail j 0x0005
        else s.codecSeg t x.srcSeg (field e 0 6) (field e 6 2) (Hdr.ofBytes (cut e 8 32)).vcnt j.fault

/-- The output of one step, or the DETAIL of a frame that fails R309. -/
def codecOut (x : Cmd) (j : CodecJob) (bs : List Byte) (vals : Nat) : Except Nat (List Byte) :=
  if j.enc then .ok (encodeFrame x.vty (x.f 5 1) (rawImages x.vty vals bs))
  else match decodeFrame x.vty bs bs.length with
    | .ok imgs => .ok (rawBlock x.vty imgs)
    | .error d => .error d

/-- An output of `n` bytes fits what is left of the destination (R314, R316). -/
def State.codecRoom (s : State) (x : Cmd) (j : CodecJob) (n : Nat) : Bool :=
  if x.dstSeg = 0 then decide (j.outHere + n ≤ x.f 32 4)
  else if (s.segFor x x.dstSeg).codec = 1 then s.frameFits x.home (s.segFor x x.dstSeg) n
  else decide (x.dstOff + j.outHere + n ≤ (s.segFor x x.dstSeg).length)

/-- The parts of a stream from an offset on. -/
def dropParts : List (Nat × Nat) → Nat → List (Nat × Nat)
  | [], _ => []
  | (a, n) :: r, o => if n ≤ o then dropParts r (o - n) else (a + o, n - o) :: r

/-- Write one output; for a host destination, only the bytes below a fault. -/
def State.codecWrite (s : State) (x : Cmd) (j : CodecJob) (out : List Byte) (wfail : Option Nat) : State :=
  if x.dstSeg = 0 then s.dmaOut x (dropParts (x.stream 24) j.outHere) out wfail
  else if (s.segFor x x.dstSeg).codec = 1 then s.appendFrame (tid x.home) x.dstSeg out
  else s.segStore x.dstSeg (s.segFor x x.dstSeg) (x.dstOff + j.outHere) out

/-- A job with one more output; `at_` is the frame of a PFC source that comes next. -/
def CodecJob.advance (j : CodecJob) (vals inB outB : Nat) (next : Option Nat) : CodecJob :=
  { j with
    inVals := j.inVals + vals, inBytes := j.inBytes + inB, outBytes := j.outBytes + outB, outHere := j.outHere + outB
    frames := j.frames + 1, at_ := next, miss := 0 }

/-- What a job meets next. -/
def State.codecInput (s : State) (t : TileId) (x : Cmd) (j : CodecJob) (src : HostRead) : CodecIn :=
  if j.enc then s.compressIn t x j src else s.decompressIn t x j src

/-- The frame of a PFC source that follows the one a job has read. -/
def State.frameAfter (s : State) (t : TileId) (x : Cmd) (j : CodecJob) : Option Nat :=
  if j.enc ∨ x.srcSeg = 0 then none
  else match s.nextFrame t x j with
    | .frame k => some (k + 1)
    | _ => none

/-- The job is over after its last block or frame (R314). -/
def codecOver (x : Cmd) (j : CodecJob) : Bool :=
  if j.enc then decide (x.f 40 8 ≤ j.inVals)
  else if x.srcSeg = 0 then decide (x.f 16 4 ≤ j.inBytes)
  else j.at_ == some j.nframes

/-- Give jobs to the engine that serves a tile whose own is gone; with none left they fail, an Emit commit at its next frame (R319). -/
def State.moveCodec (s : State) (t : TileId) (jobs : List CodecJob) : State :=
  match s.codecTile t with
  | some u => s.onCodec u (· ++ jobs)
  | none =>
    (jobs.filter fun j => j.emit.isNone).foldl (fun s j => s.finish j.c { status := stUnavailable })
      (s.onCodec t (· ++ jobs.filter fun j => j.emit.isSome))

/-- Fence a tile's codec engine: its jobs go to another engine (R312, R319). -/
def State.fenceCodec (s : State) (t : TileId) : State :=
  if (s.tile t).err.fence.codec then s else
  let jobs := (s.tile t).codec
  let s := s.fenceUnit t 0x04 0 fun f => { f with codec := true }
  (s.onCodec t fun _ => []).moveCodec t jobs

/-- The check decoder disagrees on a frame (R312): it is encoded again, at the second time on the engine that R319 names; none when it
was the third. -/
def State.codecMiss (s : State) (t : TileId) (j : CodecJob) : Option State :=
  if j.miss = 0 then some (s.onCodec t (· ++ [{ j with miss := 1 }]))
  else if j.miss = 1 then some ((s.onCodec t (· ++ [{ j with miss := 2 }])).fenceCodec t)
  else none

/-- One frame of a COMPRESS or DECOMPRESS; the job has been taken off its engine's list. -/
def codecStep (t : TileId) (x : Cmd) (j : CodecJob) (src : HostRead) (wfail : Option Nat) (mismatch : Bool) (s : State) : State :=
  match s.codecInput t x j src with
  | .done => s.finish x.ref { result := j.result }
  | .bad k none => s.finish x.ref k
  | .bad k (some a) => (s.logErr x.t (x.errRecord evEccUncorrectable k.status a)).finish x.ref k
  | .bytes bs vals =>
    if mismatch ∧ j.enc then (s.codecMiss t j).getD (s.finish x.ref { status := stUnverified, result := j.fault })
    else match codecOut x j bs vals with
      | .error d => s.finish x.ref { status := stDataCrc, detail := d, result := j.fault }
      | .ok out =>
        if x.dstSeg ≠ 0 ∧ s.reachable [x.dstSeg] = false then s.finish x.ref { status := stUncorrectable, result := j.fault }
        else if s.codecRoom x j out.length = false then
          if j.frames = 0 then s.fail x.ref stOutputSpace 0 0
          else s.finish x.ref { status := stPartial, result := j.result }
        else match if x.dstSeg = 0 then faultIn out.length wfail else none with
          | some o =>
            (s.codecWrite x j out (some o)).finish x.ref
              { status := stTranslation, result := ({ j with outHere := j.outHere + o } : CodecJob).fault
                faddr := streamAddr (x.stream 24) (j.outHere + o) }
          | none =>
            let j' := j.advance vals bs.length out.length (s.frameAfter t x j)
            let s := s.codecWrite x j out none
            if codecOver x j' then s.finish x.ref { result := j'.result } else s.onCodec t (· ++ [j'])

end Sys2Proof.Machine
end

