-- ==== Sys2Proof/Machine/Hash.lean ====
section
/-! DEFINITION. SHA-2 (FIPS 180-4), SHA-3 (FIPS 202), HMAC (FIPS 198-1), AES-256 decryption and RFC 3394 key unwrap, for the digest
engine and the key store (R127, R422, R428, R456). -/

namespace Sys2Proof.Machine

/-! ### SHA-2 -/

/-- Round constants of SHA-256 (FIPS 180-4). -/
def k256 : List Nat :=
  [0x428A2F98, 0x71374491, 0xB5C0FBCF, 0xE9B5DBA5, 0x3956C25B, 0x59F111F1, 0x923F82A4, 0xAB1C5ED5,
   0xD807AA98, 0x12835B01, 0x243185BE, 0x550C7DC3, 0x72BE5D74, 0x80DEB1FE, 0x9BDC06A7, 0xC19BF174] ++
  [0xE49B69C1, 0xEFBE4786, 0xFC19DC6, 0x240CA1CC, 0x2DE92C6F, 0x4A7484AA, 0x5CB0A9DC, 0x76F988DA,
   0x983E5152, 0xA831C66D, 0xB00327C8, 0xBF597FC7, 0xC6E00BF3, 0xD5A79147, 0x6CA6351, 0x14292967] ++
  [0x27B70A85, 0x2E1B2138, 0x4D2C6DFC, 0x53380D13, 0x650A7354, 0x766A0ABB, 0x81C2C92E, 0x92722C85,
   0xA2BFE8A1, 0xA81A664B, 0xC24B8B70, 0xC76C51A3, 0xD192E819, 0xD6990624, 0xF40E3585, 0x106AA070] ++
  [0x19A4C116, 0x1E376C08, 0x2748774C, 0x34B0BCB5, 0x391C0CB3, 0x4ED8AA4A, 0x5B9CCA4F, 0x682E6FF3,
   0x748F82EE, 0x78A5636F, 0x84C87814, 0x8CC70208, 0x90BEFFFA, 0xA4506CEB, 0xBEF9A3F7, 0xC67178F2]

/-- Round constants of SHA-384 and SHA-512. -/
def k512 : List Nat :=
  [0x428A2F98D728AE22, 0x7137449123EF65CD, 0xB5C0FBCFEC4D3B2F, 0xE9B5DBA58189DBBC,
   0x3956C25BF348B538, 0x59F111F1B605D019, 0x923F82A4AF194F9B, 0xAB1C5ED5DA6D8118,
   0xD807AA98A3030242, 0x12835B0145706FBE, 0x243185BE4EE4B28C, 0x550C7DC3D5FFB4E2,
   0x72BE5D74F27B896F, 0x80DEB1FE3B1696B1, 0x9BDC06A725C71235, 0xC19BF174CF692694] ++
  [0xE49B69C19EF14AD2, 0xEFBE4786384F25E3, 0xFC19DC68B8CD5B5, 0x240CA1CC77AC9C65,
   0x2DE92C6F592B0275, 0x4A7484AA6EA6E483, 0x5CB0A9DCBD41FBD4, 0x76F988DA831153B5,
   0x983E5152EE66DFAB, 0xA831C66D2DB43210, 0xB00327C898FB213F, 0xBF597FC7BEEF0EE4,
   0xC6E00BF33DA88FC2, 0xD5A79147930AA725, 0x6CA6351E003826F, 0x142929670A0E6E70] ++
  [0x27B70A8546D22FFC, 0x2E1B21385C26C926, 0x4D2C6DFC5AC42AED, 0x53380D139D95B3DF,
   0x650A73548BAF63DE, 0x766A0ABB3C77B2A8, 0x81C2C92E47EDAEE6, 0x92722C851482353B,
   0xA2BFE8A14CF10364, 0xA81A664BBC423001, 0xC24B8B70D0F89791, 0xC76C51A30654BE30,
   0xD192E819D6EF5218, 0xD69906245565A910, 0xF40E35855771202A, 0x106AA07032BBD1B8] ++
  [0x19A4C116B8D2D0C8, 0x1E376C085141AB53, 0x2748774CDF8EEB99, 0x34B0BCB5E19B48A8,
   0x391C0CB3C5C95A63, 0x4ED8AA4AE3418ACB, 0x5B9CCA4F7763E373, 0x682E6FF3D6B2B8A3,
   0x748F82EE5DEFB2FC, 0x78A5636F43172F60, 0x84C87814A1F0AB72, 0x8CC702081A6439EC,
   0x90BEFFFA23631E28, 0xA4506CEBDE82BDE9, 0xBEF9A3F7B2C67915, 0xC67178F2E372532B] ++
  [0xCA273ECEEA26619C, 0xD186B8C721C0C207, 0xEADA7DD6CDE0EB1E, 0xF57D4F7FEE6ED178,
   0x6F067AA72176FBA, 0xA637DC5A2C898A6, 0x113F9804BEF90DAE, 0x1B710B35131C471B,
   0x28DB77F523047D84, 0x32CAAB7B40C72493, 0x3C9EBE0A15C9BEBC, 0x431D67C49C100D4C,
   0x4CC5D4BECB3E42B6, 0x597F299CFC657E2A, 0x5FCB6FAB3AD6FAEC, 0x6C44198C4A475817]

/-- Initial hash values. -/
def iv256 : List Nat :=
  [0x6A09E667, 0xBB67AE85, 0x3C6EF372, 0xA54FF53A, 0x510E527F, 0x9B05688C, 0x1F83D9AB, 0x5BE0CD19]

def iv384 : List Nat :=
  [0xCBBB9D5DC1059ED8, 0x629A292A367CD507, 0x9159015A3070DD17, 0x152FECD8F70E5939,
   0x67332667FFC00B31, 0x8EB44A8768581511, 0xDB0C2E0D64F98FA7, 0x47B5481DBEFA4FA4]

def iv512 : List Nat :=
  [0x6A09E667F3BCC908, 0xBB67AE8584CAA73B, 0x3C6EF372FE94F82B, 0xA54FF53A5F1D36F1,
   0x510E527FADE682D1, 0x9B05688C2B3E6C1F, 0x1F83D9ABFB41BD6B, 0x5BE0CD19137E2179]

/-- Round constants of Keccak-f[1600] (FIPS 202). -/
def keccakRc : List Nat :=
  [0x1, 0x8082, 0x800000000000808A, 0x8000000080008000,
   0x808B, 0x80000001, 0x8000000080008081, 0x8000000000008009,
   0x8A, 0x88, 0x80008009, 0x8000000A,
   0x8000808B, 0x800000000000008B, 0x8000000000008089, 0x8000000000008003,
   0x8000000000008002, 0x8000000000000080, 0x800A, 0x800000008000000A,
   0x8000000080008081, 0x8000000000008080, 0x80000001, 0x8000000080008008]

/-- Rotations of lane x + 5 y. -/
def keccakRot : List Nat :=
  [0, 1, 62, 28, 27, 36, 44, 6, 55, 20, 3, 10, 43, 25, 39, 41, 45, 15, 21, 8, 18, 2, 61, 56, 14]

def rotr {w : Nat} (x : BitVec w) (n : Nat) : BitVec w := (x >>> n) ||| (x <<< (w - n))

/-- The rotations and shifts of the four sigma functions. -/
structure Sigmas where
  a0 : Nat
  a1 : Nat
  a2 : Nat
  e0 : Nat
  e1 : Nat
  e2 : Nat
  s0 : Nat
  s1 : Nat
  s2 : Nat
  t0 : Nat
  t1 : Nat
  t2 : Nat

def sigmas256 : Sigmas := ⟨2, 13, 22, 6, 11, 25, 7, 18, 3, 17, 19, 10⟩
def sigmas512 : Sigmas := ⟨28, 34, 39, 14, 18, 41, 1, 8, 7, 19, 61, 6⟩

/-- Message schedule: the last 16 words, newest first, extended `n` times; all words in order. -/
def schedule {w : Nat} (g : Sigmas) : Nat → List (BitVec w) → List (BitVec w) → List (BitVec w)
  | 0, _, acc => acc.reverse
  | n + 1, last, acc =>
    let w2 := last.getD 1 0
    let w7 := last.getD 6 0
    let w15 := last.getD 14 0
    let w16 := last.getD 15 0
    let lo := rotr w15 g.s0 ^^^ rotr w15 g.s1 ^^^ (w15 >>> g.s2)
    let hi := rotr w2 g.t0 ^^^ rotr w2 g.t1 ^^^ (w2 >>> g.t2)
    let x := hi + w7 + lo + w16
    schedule g n (x :: last.take 15) (x :: acc)

/-- One round on the eight working variables. -/
def sha2Round {w : Nat} (g : Sigmas) (v : List (BitVec w)) (kw : BitVec w × BitVec w) : List (BitVec w) :=
  match v with
  | [a, b, c, d, e, f, h, i] =>
    let s1 := rotr e g.e0 ^^^ rotr e g.e1 ^^^ rotr e g.e2
    let ch := (e &&& f) ^^^ (~~~e &&& h)
    let t1 := i + s1 + ch + kw.1 + kw.2
    let s0 := rotr a g.a0 ^^^ rotr a g.a1 ^^^ rotr a g.a2
    let maj := (a &&& b) ^^^ (a &&& c) ^^^ (b &&& c)
    [t1 + (s0 + maj), a, b, c, d + t1, e, f, h]
  | _ => v

/-- One block of 16 words. -/
def sha2Block {w : Nat} (g : Sigmas) (ks : List (BitVec w)) (st : List (BitVec w)) (blk : List Byte) : List (BitVec w) :=
  let ws := (chunks (w / 8) blk).map fun b => BitVec.ofNat w (beNat b)
  let all := schedule g (ks.length - 16) ws.reverse ws.reverse
  (st.zip ((ks.zip all).foldl (sha2Round g) st)).map fun p => p.1 + p.2

/-! ### SHA-3 -/

def lane (st : List (BitVec 64)) (x y : Nat) : BitVec 64 := st.getD (x % 5 + 5 * (y % 5)) 0

/-- One round of Keccak-f[1600]: lane x + 5 y. -/
def keccakRound (st : List (BitVec 64)) (rc : Nat) : List (BitVec 64) :=
  let c := (List.range 5).map fun x => lane st x 0 ^^^ lane st x 1 ^^^ lane st x 2 ^^^ lane st x 3 ^^^ lane st x 4
  let d := (List.range 5).map fun x => c.getD ((x + 4) % 5) 0 ^^^ rotr (c.getD ((x + 1) % 5) 0) 63
  let a := (List.range 25).map fun i => st.getD i 0 ^^^ d.getD (i % 5) 0
  -- rho and pi: B[y, 2x + 3y] = rot(A[x, y]), so B[X, Y] takes x = X + 3Y, y = X
  let b := (List.range 25).map fun i =>
    let j := (i % 5 + 3 * (i / 5)) % 5 + 5 * (i % 5)
    rotr (a.getD j 0) (64 - keccakRot.getD j 0)
  (List.range 25).map fun i =>
    let x := i % 5
    let y := i / 5
    let v := lane b x y ^^^ (~~~(lane b (x + 1) y) &&& lane b (x + 2) y)
    if i = 0 then v ^^^ BitVec.ofNat 64 rc else v

def keccakF (st : List (BitVec 64)) : List (BitVec 64) := keccakRc.foldl keccakRound st

/-! ### The five algorithms (R422), by ALG -/

/-- Block size or rate. -/
def algBlock : Nat → Nat
  | 1 => 64
  | 4 => 136
  | 5 => 72
  | _ => 128

/-- Digest bytes. -/
def algDigest : Nat → Nat
  | 1 | 4 => 32
  | 2 => 48
  | _ => 64

/-- The initial chaining state, as bytes (the STATE of R432). -/
def algInit : Nat → List Byte
  | 1 => iv256.flatMap (beBytes 4)
  | 2 => iv384.flatMap (beBytes 8)
  | 3 => iv512.flatMap (beBytes 8)
  | _ => List.replicate 200 0

def wordsBe (w : Nat) (bs : List Byte) : List (BitVec w) := (chunks (w / 8) bs).map fun b => BitVec.ofNat w (beNat b)

def sha2Step (w : Nat) (g : Sigmas) (ks : List Nat) (st blk : List Byte) : List Byte :=
  (sha2Block g (ks.map (BitVec.ofNat w)) (wordsBe w st) blk).flatMap fun v => beBytes (w / 8) v.toNat

/-- Absorb one block. -/
def algStep (alg : Nat) (st blk : List Byte) : List Byte :=
  match alg with
  | 1 => sha2Step 32 sigmas256 k256 st blk
  | 2 | 3 => sha2Step 64 sigmas512 k512 st blk
  | _ =>
    let mixed := ((cut st 0 200).zip (cut blk 0 (algBlock alg) ++ List.replicate (200 - algBlock alg) 0)).map fun p => p.1 ^^^ p.2
    (keccakF ((chunks 8 mixed).map fun b => BitVec.ofNat 64 (leNat b))).flatMap fun v => leBytes 8 v.toNat

/-- Absorb whole blocks. -/
def algAbsorb (alg : Nat) (st bs : List Byte) : List Byte := (chunks (algBlock alg) bs).foldl (algStep alg) st

/-- The padded tail of a message of `total` bytes. -/
def algPad (alg total : Nat) (tail : List Byte) : List Byte :=
  if alg ≤ 3 then
    let lf := if alg = 1 then 8 else 16
    let n := alignUp (tail.length + 1 + lf) (algBlock alg)
    tail ++ [0x80] ++ List.replicate (n - tail.length - 1 - lf) 0 ++ beBytes lf (8 * total)
  else
    let n := alignUp (tail.length + 1) (algBlock alg)
    if n = tail.length + 1 then tail ++ [0x86]
    else tail ++ [0x06] ++ List.replicate (n - tail.length - 2) 0 ++ [0x80]

/-- Finish a hash: `st` holds what was absorbed, `rest` the remaining bytes, `total` the message length. -/
def algFinish (alg total : Nat) (st rest : List Byte) : List Byte :=
  (algAbsorb alg st (algPad alg total rest)).take (algDigest alg)

def algHash (alg : Nat) (m : List Byte) : List Byte := algFinish alg m.length (algInit alg) m

/-! ### HMAC (R428) -/

/-- K0: a key longer than the block is hashed, then zero-padded to the block (R127, R428). -/
def hmacK0 (alg : Nat) (key : List Byte) : List Byte :=
  cut (if algBlock alg < key.length then algHash alg key else key) 0 (algBlock alg)

def xorPad (k0 : List Byte) (p : Byte) : List Byte := k0.map (· ^^^ p)

/-- The outer pass. -/
def hmacOuter (alg : Nat) (k0 inner : List Byte) : List Byte := algHash alg (xorPad k0 0x5C ++ inner)

/-! ### AES-256 decryption and RFC 3394 -/

def xtime (b : Byte) : Byte := if b.getLsbD 7 then (b <<< 1) ^^^ 0x1B else b <<< 1

def gmulF : Nat → Byte → Byte → Byte
  | 0, _, _ => 0
  | n + 1, a, b => (if b.getLsbD 0 then a else 0) ^^^ gmulF n (xtime a) (b >>> 1)

def gmul (a b : Byte) : Byte := gmulF 8 a b

/-- The inverse in GF(2^8): a^254. -/
def ginv (a : Byte) : Byte :=
  let a2 := gmul a a
  let a3 := gmul a2 a
  let a6 := gmul a3 a3
  let a12 := gmul a6 a6
  let a15 := gmul a12 a3
  let a30 := gmul a15 a15
  let a60 := gmul a30 a30
  let a120 := gmul a60 a60
  let a126 := gmul a120 a6
  let a127 := gmul a126 a
  gmul a127 a127

def rotl8 (b : Byte) (n : Nat) : Byte := (b <<< n) ||| (b >>> (8 - n))

def sbox (b : Byte) : Byte :=
  let i := ginv b
  i ^^^ rotl8 i 1 ^^^ rotl8 i 2 ^^^ rotl8 i 3 ^^^ rotl8 i 4 ^^^ 0x63

def invSbox (b : Byte) : Byte := ginv (rotl8 b 1 ^^^ rotl8 b 3 ^^^ rotl8 b 6 ^^^ 0x05)

/-- Key expansion: the words so far, newest first. -/
def expandF : Nat → Nat → Byte → List (List Byte) → List (List Byte)
  | 0, _, _, ws => ws.reverse
  | n + 1, i, rcon, ws =>
    let prev := ws.headD []
    let old := ws.getD 7 []
    let t := if i % 8 = 0 then
        match (prev.drop 1 ++ prev.take 1).map sbox with
        | b :: r => (b ^^^ rcon) :: r
        | [] => []
      else if i % 8 = 4 then prev.map sbox else prev
    expandF n (i + 1) (if i % 8 = 0 then xtime rcon else rcon) (((old.zip t).map fun p => p.1 ^^^ p.2) :: ws)

/-- The 15 round keys of 16 bytes. -/
def roundKeys (key : List Byte) : List (List Byte) :=
  chunks 16 ((expandF 52 8 1 (chunks 4 (cut key 0 32)).reverse).flatten)

def xorBytes (a b : List Byte) : List Byte := (a.zip b).map fun p => p.1 ^^^ p.2

def invShiftRows (s : List Byte) : List Byte :=
  (List.range 16).map fun i => s.getD ((i + 16 - 4 * (i % 4)) % 16 / 4 * 4 + i % 4) 0

def invMixColumn (c : List Byte) : List Byte :=
  match c with
  | [a, b, d, e] =>
    [gmul a 14 ^^^ gmul b 11 ^^^ gmul d 13 ^^^ gmul e 9, gmul a 9 ^^^ gmul b 14 ^^^ gmul d 11 ^^^ gmul e 13,
     gmul a 13 ^^^ gmul b 9 ^^^ gmul d 14 ^^^ gmul e 11, gmul a 11 ^^^ gmul b 13 ^^^ gmul d 9 ^^^ gmul e 14]
  | _ => c

def aesRoundsD : List (List Byte) → List Byte → List Byte
  | [], s => s
  | [k], s => xorBytes ((invShiftRows s).map invSbox) k
  | k :: ks, s => aesRoundsD ks ((chunks 4 (xorBytes ((invShiftRows s).map invSbox) k)).flatMap invMixColumn)

/-- AES-256 decryption of one block. -/
def aesDecrypt (rks : List (List Byte)) (blk : List Byte) : List Byte :=
  match rks.reverse with
  | [] => blk
  | k :: ks => aesRoundsD ks (xorBytes blk k)

/-- One unwrap pass over the registers, last first: `t` counts down. -/
def unwrapPass (rks : List (List Byte)) : Nat → List Byte → List (List Byte) → List Byte × List (List Byte)
  | _, a, [] => (a, [])
  | t, a, r :: rs =>
    let b := aesDecrypt rks (xorBytes a (beBytes 8 t) ++ r)
    let rest := unwrapPass rks (t - 1) (b.take 8) rs
    (rest.1, b.drop 8 :: rest.2)

def unwrapPasses (rks : List (List Byte)) (n : Nat) : Nat → List Byte → List (List Byte) → List Byte × List (List Byte)
  | 0, a, rs => (a, rs)
  | j + 1, a, rs =>
    let p := unwrapPass rks (n * (j + 1)) a rs
    unwrapPasses rks n j p.1 p.2

/-- RFC 3394 unwrap: the plaintext, or none when the integrity check fails (R127). -/
def keyUnwrap (kek wrapped : List Byte) : Option (List Byte) :=
  let blocks := chunks 8 wrapped
  let rs := (blocks.drop 1).reverse
  let p := unwrapPasses (roundKeys kek) rs.length 6 (blocks.headD []) rs
  if p.1 = List.replicate 8 0xA6 then some p.2.reverse.flatten else none

end Sys2Proof.Machine
end

