-- ==== Sys2Proof/Machine/Digest.lean ====
section
/-! DEFINITION. The digest engine (R422 to R439) and the key store (R127, R128). -/

namespace Sys2Proof.Machine

/-! ### Fragment lists (R424 to R426) -/

/-- The fragments of a list: address, length, segment. -/
def fragsOf (bs : List Byte) : List (Nat × Nat × Nat) := (chunks 16 bs).map fun d => (field d 0 8, field d 8 4, field d 12 4)

/-- Check 1 of R426, with SEGSRC clear and the wrap rule of R109. -/
def fragsFormOk (segsrc : Bool) (msgLen : Nat) (fs : List (Nat × Nat × Nat)) : Bool :=
  fs.all fun f =>
    (decide (f.2.1 ≠ 0) || decide (fs.length = 1 ∧ msgLen = 0)) && (segsrc || f.2.2 == 0) && decide (f.2.2 ≤ maxSegid) &&
    (f.2.2 != 0 || decide (f.1 + f.2.1 ≤ 2 ^ 64))

/-- Check 2 of R426: the segment of each segment fragment. -/
def State.fragsStatus (s : State) (x : Cmd) : List (Nat × Nat × Nat) → Option Completion
  | [] => none
  | (a, n, sg) :: r =>
    if sg = 0 then s.fragsStatus x r
    else match s.segStatus x sg false with
      | some k => some k
      | none =>
        match s.rangeStatus (s.segFor x sg) a n with
        | some k => some k
        | none => s.fragsStatus x r

/-- The fragment list as fetched at check 9 (R426). -/
def State.fragCheck (s : State) (x : Cmd) (r : HostRead) : Option Completion :=
  match r.err with
  | some (e, o) => some { status := hostStatus e, faddr := x.f 16 8 + o }
  | none =>
    let fs := fragsOf (cut r.bytes 0 (16 * x.f 24 2))
    if fragsFormOk (bit x.cflags 0) (x.f 8 8) fs = false then some (badField 16)
    else match s.fragsStatus x fs with
      | some k => some k
      | none => need ((fs.map fun f => f.2.1).sum == x.f 8 8) { status := stLengthMismatch, errloc := 8 }

/-! ### Engines (R436) -/

/-- The tile whose engine serves a home tile: its own, else the lowest-numbered tile with an engine that is not fenced. -/
def State.digestTile (s : State) (t : TileId) : Option TileId :=
  let ok (u : TileId) : Bool := s.live u && !(s.tile u).err.fence.digest
  if ok t then some t else s.liveTiles.find? ok

def State.onDigest (s : State) (t : TileId) (f : Digest → Digest) : State :=
  s.onTile t fun x => { x with digest := f x.digest }

def State.digest (s : State) (t : TileId) : Digest := (s.tile t).digest

def State.lane? (s : State) (t : TileId) (l : Fin 8) : Lane := (s.digest t).lanes.getD l.val {}

def State.setLane (s : State) (t : TileId) (l : Fin 8) (k : Lane) : State :=
  s.onDigest t fun d => { d with lanes := d.lanes.set l.val k }

/-- A slice whose jobs take no lane: frozen, or being frozen (R435). -/
def State.sliceHeld (s : State) (sl : Nat) : Bool := (s.slc sl).st == .frozen || ((s.slc sl).noFetch && sl != 0)

def State.jobEligible (s : State) (j : Job) : Bool := !s.sliceHeld j.slice

/-- The waiting job of the highest class, the oldest within it (R429). -/
def State.nextJob (s : State) (t : TileId) : Option Job :=
  ((s.digest t).waiting.filter s.jobEligible).foldl (fun b j =>
    match b with
    | none => some j
    | some k => if j.cls < k.cls then some j else some k) none

/-- Release a job's save record (R434). -/
def State.releaseRecord (s : State) (j : Job) : State :=
  match j.record with
  | none => s
  | some r => s.onDigest (tid (r / 8)) fun d => { d with records := d.records.filter fun e => decide (e ≠ (j.slice, r)) }

/-- A job takes a lane: restored first if it was saved (R429, R431). -/
def Job.onLane (j : Job) : Lane := { st := if j.saved then .restoring else .hashing, job := some { j with base := j.done } }

/-! ### Job results -/

/-- A job ends with a failure. -/
def State.jobFail (s : State) (j : Job) (k : Completion) : State :=
  let s := s.releaseRecord j
  match j.c with
  | some c => s.finish c k
  | none => s

/-- Where the bytes of a message lie: bytes of host fragments come from what the host answered, the others from the store. -/
def State.gatherMsg (s : State) (t : Nat) (view : Bool) : List (Nat × Nat × Nat) → Nat → List Byte → List Byte
  | [], _, _ => []
  | (a, n, sg) :: r, skip, hb =>
    if n ≤ skip then s.gatherMsg t view r (skip - n) hb
    else
      let m := n - skip
      if view then
        ((List.range m).map fun i => (s.cell? (a + skip + i)).getD (Config.undefByte 0 (a + skip + i))) ++
          s.gatherMsg t view r 0 hb
      else if sg = 0 then cut hb 0 m ++ s.gatherMsg t view r 0 (hb.drop m)
      else s.segBytes t (s.segOn (tid t) sg) (a + skip) m ++ s.gatherMsg t view r 0 hb

/-- The first poisoned byte of `n` bytes from a store address (R330). -/
def State.poisonFrom (s : State) (a n : Nat) : Option Nat :=
  if s.poison.isEmpty then none else (List.range n).find? fun i => s.poison.contains ((a + i) / 64)

/-- A store address range that a register-view job names lies outside a tier (R27). -/
def State.viewBad (s : State) (a n : Nat) : Bool := n != 0 && (s.addrBad a || s.addrBad (a + n - 1))

/-- The first byte of a view job's message in a poisoned unit (R330). -/
def State.viewPoison (s : State) : List (Nat × Nat × Nat) → Bool
  | [] => false
  | (a, n, _) :: r => (s.poisonFrom a n).isSome || s.viewPoison r

/-- The first byte of a message that cannot be read from the store: its offset, its address and whether poison is the cause
(R164, R330). -/
def State.msgBad (s : State) (t : Nat) : List (Nat × Nat × Nat) → Nat → Option (Nat × Nat × Bool)
  | [], _ => none
  | (a, n, sg) :: r, off =>
    if sg = 0 then s.msgBad t r (off + n)
    else if s.reachable [sg] = false then some (off, 0, false)
    else match s.poisonAt t (s.segOn (tid t) sg) a n with
      | some i => some (off + i, s.readLoc t (s.segOn (tid t) sg) (a + i), true)
      | none => s.msgBad t r (off + n)

/-- The first failure of reading a message: a host error (R111) or a store error, whichever lies lower. -/
def State.msgFault (s : State) (j : Job) (t : Nat) (msg : HostRead) : Option (Completion × Option Nat) :=
  let bad := if j.c.isNone then none else (s.msgBad t j.frags 0).filter fun b => decide (j.done ≤ b.1)
  let host : Option (Completion × Option Nat) := msg.err.map fun e =>
    ({ status := hostStatus e.1, result := leBytes 8 e.2, faddr := streamAddr (j.frags.map fun f => (f.1, f.2.1)) e.2 }, none)
  match bad with
  | none => host
  | some b =>
    if msg.err.any fun e => decide (e.2 < b.1) then host
    else some ({ status := stUncorrectable, result := leBytes 8 b.1 }, if b.2.2 then some b.2.1 else none)

/-- A read failure ends a job under R111 and R330. -/
def State.jobReadFail (s : State) (j : Job) (k : Completion) (addr : Option Nat) : State :=
  match addr, j.c with
  | some a, some c => (s.releaseRecord j).failPoison c (leNat k.result) a
  | _, _ => s.jobFail j k

/-- The key block that a job's inner pass begins with. -/
def State.jobKey (s : State) (j : Job) : List Byte := ((s.keySlot j.slot).map (·.k0)).getD []

/-- The chaining state of a job at `done`. -/
def State.jobChain (s : State) (j : Job) : List Byte :=
  if j.done ≠ 0 then j.chain
  else if j.hmac then algStep j.alg (algInit j.alg) (xorPad (s.jobKey j) 0x36)
  else algInit j.alg

/-- The digest of a job, given the rest of its message. -/
def State.jobDigest (s : State) (j : Job) (rest : List Byte) : List Byte :=
  let extra := if j.hmac then algBlock j.alg else 0
  let inner := algFinish j.alg (extra + j.done + rest.length) (s.jobChain j) rest
  if j.hmac then hmacOuter j.alg (s.jobKey j) inner else inner

/-! ### Rows: DIGEST, HMAC and the lanes -/

/-- The job of a started command. -/
def Cmd.job (x : Cmd) (hmac : Bool) : Job :=
  { c := some x.ref, cls := x.cls, slice := x.slice, sgen := x.sgen, qgen := x.qgen, hmac := hmac, alg := x.f 4 1
    slot := if hmac then x.f 5 1 else 0, msgLen := x.f 8 8, frags := fragsOf (cut (x.lists.getD 0 []) 0 (16 * x.f 24 2))
    out := x.f 32 8 }

/-- A DIGEST or HMAC becomes a job of its engine (R429). -/
def State.postJob (s : State) (x : Cmd) (hmac : Bool) : State :=
  match s.digestTile x.t with
  | none => s.fail x.ref stUnavailable 0 0
  | some t =>
    (s.onDigest t fun d => { d with waiting := d.waiting ++ [x.job hmac] }).onCmd x.ref fun y => { y with prog := .job }

/-- DIGEST (R427). -/
def execDigest (c : CmdRef) (s : State) : Res :=
  .next (match s.fresh? c 0x40 with
    | some x => s.postJob x false
    | none => s)

/-- HMAC (R428). -/
def execHmac (c : CmdRef) (s : State) : Res :=
  .next (match s.fresh? c 0x41 with
    | some x => s.postJob x true
    | none => s)

/-- DIGEST_LANE_TAKE (R429). -/
def execDigestLaneTake (t : TileId) (lane : Fin 8) (s : State) : Res :=
  .next (if (s.lane? t lane).st = .idle ∧ s.live t = true ∧ (s.tile t).err.fence.digest = false then
    match s.nextJob t with
    | some j =>
      (s.onDigest t fun d => { d with waiting := d.waiting.erase j }).setLane t lane j.onLane
    | none => s
  else s)

/-- The free save record of a slice on a tile, lowest first (R432). -/
def State.freeRecord (s : State) (t : TileId) (sl : Nat) : Option Nat :=
  ((List.range 8).map (8 * t.val + ·)).find? fun r => !(s.digest t).records.contains (sl, r)

/-- The job for which a running job is preempted: the oldest waiting one of equal or higher class (R430). -/
def State.preemptor (s : State) (t : TileId) (j : Job) (done : Nat) : Option Job :=
  if ((s.digest t).lanes.all fun l => decide (l.st ≠ .idle)) ∧ 1048576 ≤ done - j.base then
    ((s.digest t).waiting.filter s.jobEligible).find? fun w => decide (w.cls ≤ j.cls)
  else none

/-- DIGEST_PREEMPT (R430, R435): at a block boundary the job is saved, for a waiting job or because its slice is being frozen. -/
def digestPreemptEff (t : TileId) (lane : Fin 8) (doneBytes : Nat) (msg : HostRead) (s : State) : State :=
  let l := s.lane? t lane
  match l.job with
  | none => s
  | some j =>
    let w := s.preemptor t j doneBytes
    if l.st ≠ .hashing ∨ j.c = none ∨ doneBytes % algBlock j.alg ≠ 0 ∨ doneBytes ≤ j.done ∨ j.msgLen < doneBytes ∨
        (s.freeRecord t j.slice).isNone ∨ (w = none ∧ s.sliceHeld j.slice = false) then s
    else match s.msgFault j t.val msg with
      | some f => (s.setLane t lane {}).jobReadFail j f.1 f.2
      | none =>
        let part := (s.gatherMsg t.val false j.frags j.done msg.bytes).take (doneBytes - j.done)
        let j' := { j with
          done := doneBytes, chain := algAbsorb j.alg (s.jobChain j) part
          preempt := if w.isSome then j.preempt + 1 else j.preempt }
        let s := s.onDigest t fun d => { d with
          waiting := match w with
            | some k => d.waiting.erase k
            | none => d.waiting
          preempts := if w.isSome then min (2 ^ 32 - 1) (d.preempts + 1) else d.preempts }
        s.setLane t lane { st := .saving, job := some j', next := w }

def execDigestPreempt (t : TileId) (lane : Fin 8) (doneBytes : Nat) (msg : HostRead) (s : State) : Res :=
  .next (digestPreemptEff t lane doneBytes msg s)

/-- The fragment and the byte within it that come next. -/
def fragPos : List (Nat × Nat × Nat) → Nat → Nat → Nat × Nat
  | [], i, _ => (i, 0)
  | (_, n, _) :: r, i, done => if n ≤ done then fragPos r (i + 1) (done - n) else (i, done)

/-- The clear text of a save record, bytes [263:0] (R432). -/
def State.recordText (s : State) (t : TileId) (j : Job) : List Byte :=
  let q := match j.c with
    | some c => c.q.val
    | none => 0
  let cid := match j.c with
    | some c => ((s.cmd? c).map Cmd.cid).getD 0
    | none => 0
  let p := fragPos j.frags 0 j.done
  leBytes 4 0x53444744 ++ leBytes 1 j.alg ++ leBytes 1 j.slot ++ leBytes 1 (boolNat j.hmac) ++ leBytes 1 t.val ++
  leBytes 2 j.slice ++ leBytes 2 j.sgen ++ leBytes 2 q ++ leBytes 2 j.qgen ++ leBytes 2 cid ++ leBytes 2 p.1 ++
  leBytes 4 p.2 ++ leBytes 8 j.done ++ leBytes 8 j.msgLen ++ leBytes 2 j.preempt ++ List.replicate 22 0 ++ cut j.chain 0 200

/-- The port of a job's command, fixed when it was fetched. -/
def State.jobPort (s : State) (j : Job) : Nat := ((j.c.bind s.cmd?).map fun x => x.ring.port).getD 0

/-- The sealed record of 512 B (R433, log 11). -/
def State.sealedRecord (s : State) (t : TileId) (rec : Nat) (j : Job) : List Byte :=
  let n := (s.digest t).ivCount
  let text := s.recordText t j
  (List.range 264).map (Config.sealByte t.val rec n text) ++
  leBytes 1 t.val ++ leBytes 3 rec ++ leBytes 8 n ++
  (List.range 16).map (fun i => Config.sealByte t.val rec n text (264 + i)) ++ List.replicate 220 0

/-- DIGEST_SAVE_DONE (R431, R432): the record is written, the saved job waits at the tail of its class, and the lane takes the job
that preempted it. -/
def digestSaveDoneEff (t : TileId) (lane : Fin 8) (s : State) : State :=
  let l := s.lane? t lane
  match l.st, l.job with
  | .saving, some j =>
    match s.freeRecord t j.slice with
    | none => s
    | some r =>
      let s := if j.slice = 0 then s else
        s.emit (.hostWrite (s.jobPort j) (s.pasidOf j.slice)
          ((s.slc j.slice).ctxAddr + 512 * r) (s.sealedRecord t r j))
      let s := s.onDigest t fun d => { d with
        records := d.records ++ [(j.slice, r)], ivCount := d.ivCount + 1
        waiting := d.waiting ++ [{ j with saved := true, record := some r }] }
      s.setLane t lane (match l.next with
        | some w => w.onLane
        | none => {})
  | _, _ => s

def execDigestSaveDone (t : TileId) (lane : Fin 8) (s : State) : Res := .next (digestSaveDoneEff t lane s)

/-- DIGEST_RESTORE (R433): a record that fails authentication ends its job with HOST_ABORT. -/
def execDigestRestore (t : TileId) (lane : Fin 8) (authentic : Bool) (s : State) : Res :=
  .next (
    let l := s.lane? t lane
    match l.st, l.job with
    | .restoring, some j =>
      if authentic then
        (s.releaseRecord j).setLane t lane { st := .hashing, job := some { j with saved := false, record := none } }
      else (s.setLane t lane {}).jobFail j
        { status := stHostAbort, detail := 0x0010, faddr := (s.slc j.slice).ctxAddr + 512 * j.record.getD 0 }
    | _, _ => s)

/-- The end of a view job that gives no digest (R437). -/
def Digest.viewEnd (d : Digest) (code : Nat) : Digest := { d with viewBusy := false, viewDone := true, viewCode := code }

/-- DIGEST_JOB_DONE (R427): the digest is written, then the completion is formed. -/
def digestJobDoneEff (t : TileId) (lane : Fin 8) (msg : HostRead) (wfail : Bool) (s : State) : State :=
  let l := s.lane? t lane
  match l.st, l.job with
  | .hashing, some j =>
    let s := s.setLane t lane {}
    match s.msgFault j t.val msg with
    | some f => s.jobReadFail j f.1 f.2
    | none =>
      let dig := s.jobDigest j (s.gatherMsg t.val j.c.isNone j.frags j.done msg.bytes)
      match j.c with
      | none =>
        if s.viewPoison j.frags then s.onDigest t fun d => d.viewEnd (if d.early then stEarlyRead else stUncorrectable)
        else s.onDigest t fun d => { d with viewBusy := false, viewDone := true, viewOut := dig }
      | some c =>
        if wfail then s.finish c { status := stTranslation, result := leBytes 8 0, faddr := j.out }
        else (s.emit (.hostWrite (s.jobPort j) (s.pasidOf j.slice) j.out dig)).succeed c
          (leBytes 2 dig.length ++ leBytes 2 j.preempt)
  | _, _ => s

def execDigestJobDone (t : TileId) (lane : Fin 8) (msg : HostRead) (wfail : Bool) (s : State) : Res :=
  .next (digestJobDoneEff t lane msg wfail s)

/-! ### Fencing the engine (R436) -/

/-- A job as another engine takes it: from its save record if it has one, else from the start of its message. -/
def Job.carried (j : Job) : Job := if j.saved then j else { j with done := 0, base := 0, chain := [], record := none }

/-- Give jobs to the digest engine that serves a tile whose own is gone; with none left they complete with UNIT_UNAVAILABLE (R436). -/
def State.moveDigest (s : State) (t : TileId) (jobs : List Job) : State :=
  match s.digestTile t with
  | some u => s.onDigest u fun d => { d with waiting := d.waiting ++ jobs.map Job.carried }
  | none => jobs.foldl (fun s j => s.jobFail j { status := stUnavailable }) s

/-- Fence a tile's digest engine: its jobs go to another engine, or complete with UNIT_UNAVAILABLE. -/
def State.fenceDigest (s : State) (t : TileId) : State :=
  if (s.tile t).err.fence.digest then s else
  let d := s.digest t
  let running := d.lanes.flatMap fun l => l.job.toList ++ l.next.toList
  let jobs := (d.waiting ++ running).filter fun j => j.c.isSome
  let s := s.fenceUnit t 0x05 0 fun f => { f with digest := true }
  let s := s.onDigest t fun d => { d with
    lanes := [{}, {}, {}, {}, {}, {}, {}, {}], waiting := []
    viewDone := d.viewDone || d.viewBusy, viewCode := if d.viewBusy && !d.early then stUnavailable else d.viewCode
    viewBusy := false }
  s.moveDigest t jobs

/-- DIGEST_LANE_ERROR (R436): an uncorrectable error in a lane's state. -/
def execDigestLaneError (t : TileId) (lane : Fin 8) (s : State) : Res :=
  .next (if s.live t = true ∧ (s.lane? t lane).st ≠ .idle then s.fenceDigest t else s)

/-! ### The register view (R437, R438) -/

/-- DIG_VIEW_GO (R437): the descriptor is laid out as bytes [39:4] of a DIGEST entry; addresses are store addresses. -/
def digViewGoEff (t : TileId) (ctl off : Word32) (desc list : List Byte) (s : State) : State :=
  if (s.digest t).viewBusy ∨ s.live t = false then s else
  let hmac := bit ctl.toNat 1
  let slot := bits ctl.toNat 15 8
  let alg := byteAt desc 4
  let fs := fragsOf (cut list 0 (16 * field desc 24 2))
  let s := s.onDigest t fun d => { d with
    viewHmac := hmac, viewSlot := slot, viewDesc := off.toNat, viewDone := false, early := false, viewCode := 0, viewOut := [] }
  if alg = 0 ∨ (if hmac then 3 else 5) < alg ∨ fs.isEmpty ∨ 4096 < fs.length ∨
      fragsFormOk false (field desc 8 8) fs = false then
    s.onDigest t fun d => d.viewEnd stInvalidField
  else if s.viewBad (field desc 16 8) (16 * field desc 24 2) ∨ fs.any (fun f => s.viewBad f.1 f.2.1) = true then
    s.onDigest t fun d => d.viewEnd stOutOfRange
  else if hmac ∧ ((s.keySlot slot).isNone = true ∨ (s.tile t).keyHoles.contains slot = true) then s.onDigest t fun d => d.viewEnd stKeySlotEmpty
  else if hmac ∧ (s.keySlot slot).any (fun k => decide (k.alg ≠ alg)) then s.onDigest t fun d => d.viewEnd stInvalidField
  else if (fs.map fun f => f.2.1).sum ≠ field desc 8 8 then s.onDigest t fun d => d.viewEnd stLengthMismatch
  else if (s.tile t).err.fence.digest then s.onDigest t fun d => d.viewEnd stUnavailable
  else s.onDigest t fun d => { d with
    viewBusy := true
    waiting := d.waiting ++ [{ c := none, cls := 0, slice := 0, sgen := 1, qgen := 0, hmac := hmac, alg := alg, slot := slot
                               msgLen := field desc 8 8, frags := fs, out := 0 }] }

def execDigViewGo (t : TileId) (ctl off : Word32) (desc list : List Byte) (s : State) : Res :=
  .next (digViewGoEff t ctl off desc list s)

/-- DIG_VIEW_EARLY_READ (R438). -/
def execDigViewEarlyRead (t : TileId) (_i : Fin 16) (s : State) : Res :=
  .next (if (s.digest t).viewBusy then s.onDigest t fun d => { d with early := true, viewCode := stEarlyRead } else s)

/-! ### Keys (R127, R128) -/

/-- Checks 6 and 8 of the key commands. -/
def State.keyCheck (s : State) (x : Cmd) : Option Completion :=
  let n := x.f 4 1
  if x.op = 0x61 then s.keyStatus x.slice n
  else if (s.keySlot n).isSome then s.keyStatus x.slice n
  else need (decide ((s.slc x.slice).keyUsed + 1 ≤ s.keyQuotaOf x.slice)) { status := stQuota }

/-- Check 6 of HMAC (R428). -/
def State.hmacCheck (s : State) (x : Cmd) : Option Completion :=
  firstFail [s.keyStatus x.slice (x.f 5 1), need (!(s.tile (tid x.home)).keyHoles.contains (x.f 5 1)) { status := stKeySlotEmpty },
    need ((s.keySlot (x.f 5 1)).any fun k => k.alg == x.f 4 1) (badField 4)]

/-- The package wrapping key (R456, log 10). -/
def State.kek (s : State) : List Byte := List.ofFn (Config.wrapKey s.cfg.record)

/-- The first KEY_LEN bytes of an unwrapped key, or the DETAIL of a failed check (R127). -/
def State.unwrapKey (s : State) (wrapped : List Byte) (keyLen : Nat) : Except Nat (List Byte) :=
  match keyUnwrap s.kek wrapped with
  | none => .error 0x0001
  | some p => if allZero (p.drop keyLen) then .ok (p.take keyLen) else .error 0x0002

/-- KEY_LOAD (R127): the key is unwrapped, and waits for the HMACs that use the slot. -/
def keyLoadEff (x : Cmd) (wrapped : HostRead) (s : State) : State :=
  match wrapped.err with
  | some (e, o) => s.finish x.ref { status := hostStatus e, result := leBytes 8 o, faddr := x.f 8 8 + o }
  | none =>
    let w := cut wrapped.bytes 0 (x.f 16 2)
    match s.unwrapKey w (x.f 6 2) with
    | .error d => s.fail x.ref stInvalidField 8 d
    | .ok k =>
      s.onCmd x.ref fun y => { y with prog := .keySet (x.f 4 1) (x.f 5 1) (x.f 6 2) (hmacK0 (x.f 5 1) k) w }

def execKeyLoad (c : CmdRef) (wrapped : HostRead) (s : State) : Res :=
  .next (match s.fresh? c 0x60 with
    | some x => keyLoadEff x wrapped s
    | none => s)

/-- KEY_CLEAR (R128). -/
def execKeyClear (c : CmdRef) (s : State) : Res :=
  .next (match s.fresh? c 0x61 with
    | some x => s.onCmd c fun y => { y with prog := .keyWait (x.f 4 1) }
    | none => s)

/-- A started HMAC that uses a slot has not completed (R128). -/
def State.slotBusy (s : State) (n : Nat) : Bool :=
  s.cmds.any fun y => y.op == 0x41 && decide (y.phase ≠ .fetched) && y.f 5 1 == n

/-- Clear a key slot and return its charge. -/
def State.clearKey (s : State) (n : Nat) : State :=
  match s.keySlot n with
  | none => s
  | some k =>
    ({ s with keys := tblSet none s.keys n none } : State).onSlc k.slice fun y => { y with keyUsed := y.keyUsed - 1 }

/-- Put a key into a slot, bound to a slice and charged to it. -/
def State.putKey (s : State) (n : Nat) (k : KeySlot) : State :=
  let s := s.presentTiles.foldl (fun s t => s.onTile t fun x => { x with keyHoles := x.keyHoles.filter (· != n) }) (s.clearKey n)
  ({ s with keys := tblSet none s.keys n (some k) } : State).onSlc k.slice fun y => { y with keyUsed := y.keyUsed + 1 }

/-- KEY_CHANGE_EFFECT (R128). -/
def execKeyChangeEffect (c : CmdRef) (s : State) : Res :=
  .next (match s.running? c with
    | some x =>
      match x.prog with
      | .keySet n alg len k0 w =>
        if s.slotBusy n then s
        else match s.keyCheck x with
          | some k => s.finish c k
          | none => (s.putKey n { slice := x.slice, alg := alg, k0 := k0, keyLen := len, wrapped := w }).succeed c []
      | .keyWait n =>
        if s.slotBusy n then s
        else match s.keyCheck x with
          | some k => s.finish c k
          | none => (s.clearKey n).succeed c []
      | _ => s
    | none => s)

end Sys2Proof.Machine
end

