-- ==== Sys2Proof/Machine/Queues.lean ====
section
/-! DEFINITION. Operations over queues that several rows share: enabling and disabling (R84 to R87), ending commands, and the steps
of a queue reset (R91 to R95, R60, R133). -/

namespace Sys2Proof.Machine

/-! ### Ending commands without a completion (R92) -/

/-- A query that is to stop at its morsel boundaries: no token of it is dispatched again (R91 step 3). -/
def State.stopQuery (s : State) (qid : Nat) : State :=
  (s.onQuery qid fun q => { q with failing := true, toPost := [], consWait := none }).discard (fun k => decide (k.qid = qid)) 0x0C

/-- Remove the jobs of a command from every engine, with their save records (R94, R434). -/
def State.removeJobs (s : State) (c : CmdRef) : State :=
  allTiles.foldl (fun s t =>
    let d := s.digest t
    let gone := (d.waiting ++ d.lanes.flatMap fun l => l.job.toList ++ l.next.toList).filter fun j => decide (j.c = some c)
    let s := gone.foldl State.releaseRecord s
    let keep (o : Option Job) : Option Job := o.filter fun j => decide (j.c ≠ some c)
    let s := s.onDigest t fun d => { d with
      waiting := d.waiting.filter fun j => decide (j.c ≠ some c)
      lanes := d.lanes.map fun l =>
        if l.job.any fun j => decide (j.c = some c) then
          (match keep l.next with
            | some w => w.onLane
            | none => {})
        else { l with next := keep l.next } }
    s.onCodec t fun js => js.filter fun j => decide (j.c ≠ c)) s

/-- Cancel an activation whose FW_ACTIVATE a reset of queue 0 stops: the device returns to the service mode (R60). -/
def State.cancelActivation (s : State) (c : CmdRef) : State :=
  if s.dev.activation.any fun a => decide (a.c = c) then
    let s : State := { s with dev := { s.dev with
      activation := none, waiting := s.dev.waiting.filter fun k => decide (k.origin ≠ .activation) } }
    if s.dev.mode = .dusk ∨ s.dev.change.any (fun k => decide (k.origin = .activation)) then
      s.require (modeChange .service .device) else s
  else s

/-- What a command that ends with no completion kept waiting goes on (R92, R121, R122). -/
def State.releaseHeld (s : State) (c : CmdRef) : State :=
  { s with
    segs := s.segs.map fun e => if e.2.freeing = some c then (e.1, { e.2 with freeing := none }) else e
    images := s.images.map fun e => (e.1, e.2.map fun i => { i with unloading := i.unloading.filter fun d => decide (d ≠ c) })
    slices := s.slices.map fun e => if e.2.busy = some c then (e.1, { e.2 with busy := none, noFetch := false }) else e }

/-- Drop a command with no completion: what it held is freed, and result segments of a query are left undefined (R92, R94). A directory
record on its way is made durable all the same (R159, log 73). -/
def State.abortCmd (s : State) (x : Cmd) : State :=
  let s := (s.dropCmd x.ref).releaseHeld x.ref
  match x.prog with
  | .job => s.removeJobs x.ref
  | .query qid =>
    let ids := ((s.query? qid).map (·.results)).getD []
    (ids.foldl State.undefine s).removeQuery qid 0x0C
  | .activate => s.cancelActivation x.ref
  | .dirWait w => s.dirSettle w
  | _ => s

/-! ### Disabling and enabling (R85, R87) -/

/-- The ring as a command's fetch finds it (R79). -/
def Queue.ring (u : Queue) : RingAt := { base := u.base, depthLog2 := u.depthLog2, port := u.port }

/-- Clear ENABLE: read copies are discarded, and the queue's charge is returned (R87, R445). -/
def State.disableQueue (s : State) (q : Nat) : State :=
  let u := s.queue q
  if !u.enable then s else
  (s.setQueue q { u with enable := false, copies := [], stalls := [], turnsLeft := 0 }).onSlc u.slice
    fun y => { y with qUsed := y.qUsed - 1 }

/-- The first enable error of a queue (R85): its code, or none. -/
def State.enableError (s : State) (q : Nat) : Option Nat :=
  let u := s.queue q
  let home := tid u.home
  let port := tid u.port
  let sl := s.slc u.slice
  if u.depthLog2 < 4 ∨ 16 < u.depthLog2 then some 1
  else if u.base % 4096 ≠ 0 then some 2
  else if s.live home = false then some 3
  else if s.portUp port = false then some 4
  else if sl.st = .free ∨ (q = 0 ∧ u.slice ≠ 0) then some 5
  else if s.qQuotaOf u.slice < sl.qUsed + 1 then some 6
  else if u.weight = 0 ∨ u.burst = 0 ∨ 64 < u.burst then some 7
  else none

/-- Set ENABLE: the checks of R85, then the queue starts at index 0 or resumes. -/
def State.enableQueue (s : State) (q : Nat) : State :=
  let u := s.queue q
  if u.enable then s else
  match s.enableError q with
  | some e => s.setQueue q { u with cfgErrV := true, cfgErr := e }
  | none =>
    let u := { u with enable := true, copies := [], stalls := [], turnsLeft := 0, freshStart := false, homeLost := false }
    let u := if (s.queue q).freshStart then { u with headIx := 0, headWrap := false, tailIx := 0, tailWrap := false } else u
    ((s.setQueue q u).onSlc u.slice fun y => { y with qUsed := y.qUsed + 1 }).fenceKnown q

/-! ### Interrupts (R82, R83) -/

/-- Send a queue's interrupt; sent or lost, the coalescing count is cleared. -/
def State.queueIrq (s : State) (q : Nat) : State :=
  let u := s.queue q
  (s.msix u.port u.vector).onQueue q fun u => { u with irqPend := 0, irqStamp := 0 }

/-! ### Queue reset (R91 to R95) -/

/-- The commands of a queue in flight. -/
def State.cmdsOf (s : State) (q : Nat) : List Cmd := s.cmds.filter fun x => decide (x.q = q)

/-- A command whose work goes on after a reset begins, until a boundary or the forced stop: queries at their morsel boundaries, slice
commands and directory records to their end. -/
def Cmd.lingers (x : Cmd) : Bool :=
  x.phase == .started &&
  match x.prog with
  | .query _ => true
  | .sliceWait _ _ => true
  | .dirWait _ => true
  | _ => false

/-- A completion that is formed and not yet written stays until it is written or RESET_DONE (R92). -/
def Cmd.settles (x : Cmd) : Bool := x.phase == .done || x.lingers

/-- Step 3: the commands stop at their boundaries. -/
def State.stopCmd (s : State) (x : Cmd) : State :=
  match x.prog with
  | .query qid => if x.phase = .started then s.stopQuery qid else s
  | _ => s

/-- The end of a reset (steps 4 and 5). -/
def State.resetEnd (s : State) (q : Nat) : State :=
  let s := (s.cmdsOf q).foldl State.abortCmd s
  let s := s.onQueue q fun u => { u with
    headIx := 0, headWrap := false, tailIx := 0, tailWrap := false, resetBusy := false, resetDone := true
    copies := [], stalls := [], ringFault := false }
  (s.fenceReached q).queueIrq q

/-- Steps 1 to 3 of a queue reset; a reset written during a reset is part of it, and a reset of a queue whose home is lost
completes at once on the master (R91, R326). A RESET_DONE left by an earlier reset is cleared (log 76). -/
def State.resetBegin (s : State) (q : Nat) : State :=
  let u := s.queue q
  if u.resetBusy then s else
  let s := s.setQueue q { u with
    resetBusy := true, resetDone := false, gen := nextGen u.gen, copies := [], stalls := [], turnsLeft := 0 }
  let s := s.fenceReached q
  let s := ((s.cmdsOf q).filter fun x => !x.settles).foldl State.abortCmd s
  let s := (s.cmdsOf q).foldl State.stopCmd s
  if u.homeLost then s.resetEnd q else s

/-- The started commands of a queue under reset have stopped. -/
def State.resetSettled (s : State) (q : Nat) : Bool :=
  (s.cmdsOf q).all fun x =>
    match x.prog with
    | .query qid => !s.queryRuns qid
    | .sliceWait _ _ => false
    | .dirWait _ => false
    | _ => true

/-- Forced stop at 1 ms (R93): the units that work for the queue's commands are reset. -/
def State.forceStop (s : State) (q : Nat) : State :=
  ((s.cmdsOf q).filter fun x => x.lingers).foldl State.abortCmd s

end Sys2Proof.Machine
end

