-- ==== Sys2Proof/Machine/Fences.lean ====
section
/-! DEFINITION. The fence of a tile (R326) and of segments with it (R164). -/

namespace Sys2Proof.Machine

/-- A query works on a tile: tokens, partitions, tables, runs or emit areas there, or an exchange that sends to it (R243). -/
def State.queryOn (s : State) (q : Query) (t : TileId) : Bool :=
  ((s.tile t).sched.tokens.any fun k => k.qid == q.qid) ||
  (q.toPost.any fun p => p.1 == t.val) ||
  ((s.tile t).runs.toList.any fun r => r.any fun r => r.qid == q.qid) ||
  (q.masks.any fun m => bit m t.val) ||
  (q.pipes.any fun p => (p.parts.any fun x => x.tile == t.val) || (p.groups.any fun x => x.tile == t.val) ||
    (p.runs.any fun x => x.tile == t.val) || (p.ready.any fun x => x.tile == t.val) || (p.build.any fun x => x.tile == t.val))

/-- What the fencing of a tile does to one segment (R164): LOCAL and STRIPED segments there are fenced; a replicated one loses the
tile, and is fenced when no copy is left. -/
def Seg.loseTile (g : Seg) (t : Nat) : Seg :=
  if !g.valid || !bit g.tiles t then g
  else if g.placement = 2 then
    let m := clearBit g.tiles t
    if m = 0 then { g with fenced := true }
    else
      let low := (maskTiles m).headD 0
      { g with
        tiles := m, base := storeAddr low g.tier g.off
        fidx := if g.codec = 1 then storeAddr low g.tier (addrOff g.fidx) else g.fidx }
  else { g with fenced := true }

/-- Fence or shrink the segments of a tile, or of one tier of it. -/
def State.loseSegs (s : State) (t : Nat) (tier : Option Nat) : State :=
  { s with segs := s.segs.map fun e =>
      if tier.isNone ∨ tier = some e.2.tier then (e.1, e.2.loseTile t) else e }

/-- A queue homed on a fenced tile: disabled, HOME_LOST, the generation incremented (R326). -/
def Queue.loseHome (q : Queue) : Queue :=
  { q with enable := false, homeLost := true, gen := nextGen q.gen, copies := [], stalls := [], resetBusy := false }

/-- Every queue homed on a tile loses its home (R326); a queue that no one has configured has none. -/
def State.loseQueues (s : State) (t : TileId) : State :=
  { s with queues := s.queues.map fun e => if e.2.home = t.val then (e.1, e.2.loseHome) else e }

/-- A queue that was enabled gives its charge back (R445). -/
def State.chargeLost (s : State) (t : TileId) : State :=
  (s.queues.filter fun e => decide (e.2.home = t.val) && e.2.enable).foldl
    (fun s e => s.onSlc e.2.slice fun y => { y with qUsed := y.qUsed - 1 }) s

/-- Commands of the queues homed on a tile never complete: their queries, jobs and held marks end with them (R326). -/
def State.loseCommands (s : State) (t : TileId) : State :=
  let dead := (s.queries.filter fun q => decide (q.home = t.val)).map (·.qid)
  let s := s.discard (fun k => dead.contains k.qid) 0x0D
  ((s.cmds.filter fun c => decide (c.home = t.val)).foldl State.abortCmd (s.chargeLost t)).loseQueues t

/-- The device enters HALT when the fenced tile held the only host-role port whose link was up (R43). -/
def State.lastHostPort (s : State) (t : TileId) : Bool :=
  s.hostRole t && (s.tile t).linkUp && !(s.liveTiles.any fun u => decide (u ≠ t) && s.portUp u)

/-- The pipeline of a query whose exchange sends to a tile, with its operator (R243). -/
def Query.sendsTo (q : Query) (t : TileId) : Option (Nat × Nat) :=
  match (q.masks.zipIdx.find? fun m => bit m.1 t.val).map (·.2) with
  | some k => some (k, (((Img.ofBytes q.image).pipes.find? fun p => p.ix == k).map (·.sinkIx)).getD 0)
  | none => none

/-- The failure of a query that a tile fence brings: rows lost in an exchange name the exchanging pipeline (R243, R326). -/
def State.tileFail (s : State) (q : Query) (t : TileId) : Fail :=
  match q.sendsTo t with
  | some e => { s.failure stUnavailable 0x0001 with pipe := e.1, op := e.2 }
  | none => s.failure stUnavailable 0x0003

/-- What a tile loses with its fence: tokens, runs, and the jobs of its engines, which go to the engines that serve other tiles when
their commands are homed there (R319, R326, R436). -/
def State.dropTile (s : State) (t : TileId) : State :=
  let jobs := (s.tile t).codec.filter fun j => (s.cmd? j.c).isSome
  let dig := s.digest t
  let djobs := ((dig.waiting ++ dig.lanes.flatMap fun l => l.job.toList ++ l.next.toList).filter fun j => j.c.isSome)
  let s := s.onTile t fun x => { x with
    sched := { x.sched with tokens := [], steals := [], offered := none }
    runs := Vector.replicate 16 none, codec := [], prepared := none
    digest := { x.digest with lanes := [{}, {}, {}, {}, {}, {}, {}, {}], waiting := [], viewBusy := false } }
  (s.moveCodec t jobs).moveDigest t djobs

/-- Fence a tile (R326). -/
def State.fenceTile (s : State) (t : TileId) : State :=
  if !s.live t then s else
  let last := s.lastHostPort t
  let s : State := s.logErr t (errRec evTileFenced 4)
  let s : State := { s with dev := { s.dev with
    fenced := setBit s.dev.fenced t.val
    applied := if s.dev.phase = .idle then s.dev.applied else setBit s.dev.applied t.val } }
  let s := { s with dev := { s.dev with master := s.masterTile.val } }
  let hit := s.queries.filter fun q => decide (q.home ≠ t.val) && s.queryOn q t
  let s := (s.loseCommands t).dropTile t
  let s := hit.foldl (fun s q => s.failQuery q.qid (s.tileFail q t)) s
  let s := s.loseSegs t.val none
  if last then s.halt s.masterTile 0x03 else s.degrade

end Sys2Proof.Machine
end

