-- ==== Sys2Proof/Machine/Cinch.lean ====
section
/-! DEFINITION. Operating modes and the Cinch protocol: R34 to R47, the strobe update of a tile (R46, R503, R504), HALT messages
and the Cinch wire (R62, R484), the drain of DUSK and the restart of firmware (R36, R58 to R61). -/

namespace Sys2Proof.Machine

/-! ### Mode transitions (R36) -/

/-- The targets that a Cinch mode change may have from a mode; the target 0x4 resolves to the service mode (R35, R36). -/
def modeAllowed (frm : Mode) (target : Nat) : Bool :=
  match frm, target with
  | .dawn, 2 => true
  | .train, 3 => true
  | .ready, 4 => true
  | .ready, 9 => true
  | .nightwatch, 3 => true
  | .service, 5 => true
  | .service, 6 => true
  | .degraded, 6 => true
  | .dusk, 4 => true
  | .dusk, 3 => true
  | .dusk, 7 => true
  | .dusk, 8 => true
  | .midnight, 4 => true
  | .activate, 4 => true
  | _, _ => false

/-- The mode a change to `target` enters: every transition to SERVICE enters DEGRADED while a fence stands (R35). -/
def State.modeTarget (s : State) (target : Nat) : Mode :=
  if target = 4 then s.serviceMode else (modeOf target).getD s.dev.mode

/-- The change from NIGHTWATCH to READY: links that went down train again (R488), and NW_STATUS.EXITED says whether an EXIT entry made
the change (R513). -/
def State.endNightwatch (s : State) : State :=
  let s : State := { s with nw := { s.nw with exited := (s.dev.change.map (·.origin)) == some .device } }
  s.presentTiles.foldl (fun s t => s.onTile t fun x =>
    { x with edges := x.edges |> vecMap fun e => if e.st = .down then { e with st := .training } else e }) s

/-- Every queue whose PORT is a tile is reset, and ENABLE cleared (R525). -/
def State.resetPort (s : State) (t : Nat) : State :=
  ((List.range 4096).filter fun q => (s.queue q).port == t).foldl (fun s q => (s.resetBegin q).disableQueue q) s

/-- The end of ACTIVATE: queue resets that fell in it take effect (R60, R525). -/
def State.endActivate (s : State) : State :=
  let due := s.dev.perstDue
  let s : State := { s with dev := { s.dev with perstDue := 0 } }
  ((List.range 8).filter (bit due)).foldl State.resetPort s

/-- What the device does when it enters a mode, beside the mode itself: firmware votes (R364, R365, R388), read copies discarded in
ACTIVATE (R59), the Nightwatch counters (R513). MIDNIGHT stops fetch and dispatch of every slice and leaves each slice's STATE
(log 77). -/
def State.enterMode (s : State) (m : Mode) : State :=
  let s : State := { s with dev := { s.dev with was := s.dev.mode, mode := m, drainTo := if m = .dusk then s.dev.drainTo else none } }
  let s := if m = .ready ∧ s.dev.was = .nightwatch then s.endNightwatch else s
  let s := if s.dev.was = .activate then s.endActivate else s
  let s := s.revoteAll
  match m with
  | .activate =>
    let s : State := { s with queues := s.queues.map fun e => (e.1, { e.2 with copies := [] }) }
    s.presentTiles.foldl (fun s t => s.onTile t fun x => { x with large := x.large |> vecMap fun k => { k with code := none } }) s
  | .nightwatch =>
    let s := s.presentTiles.foldl (fun s t => s.dropSchedVotes t) s
    { s with nw := { s.nw with periods := 0, thr := s.nw.thr.map fun e => { e with held := 0 } } }
  | _ => s

/-! ### Cinch messages -/

def cinchTag (change arg epoch : Nat) (op : Nat) : Nat × Nat × Nat × Nat := (op, change, arg, epoch)

/-- A tile records a Cinch message that it sent or received: the last 64 (R63). -/
def State.noteCinch (s : State) (t : TileId) (op change arg epoch : Nat) : State :=
  s.onTile t fun x => { x with history := ringPush 64 x.history (cinchTag change arg epoch op) }

/-- The master sends a Cinch message to each of a list of tiles. -/
def State.cinchTo (s : State) (us : List TileId) (op change arg reason : Nat) : State :=
  let m := s.masterTile
  (us.foldl (fun s _ => s.noteCinch m op change arg s.dev.epoch) s).emitAll
    (us.map fun u => Out.cinch m.val u.val op change arg reason s.dev.epoch 0)

/-- The master sends a Cinch message to every other live tile. -/
def State.cinchToAll (s : State) (op change arg reason : Nat) : State :=
  s.cinchTo (s.liveTiles.filter fun u => decide (u ≠ s.masterTile)) op change arg reason

/-- The master has received a Cinch message about the change in progress (R63). -/
def State.noteMaster (s : State) (op epoch : Nat) : State :=
  s.noteCinch s.masterTile op ((s.dev.change.map (·.code)).getD 0) ((s.dev.change.map (·.arg)).getD 0) epoch

/-! ### Blocks of a strobe group (R499, R504) -/

/-- Register blocks of a tile's window with the power domain that R507 uses; none for the AON blocks (R510). -/
def tileBlocks : List (Nat × Option Nat) :=
  [(0, none), (1, none), (2, none), (3, none), (4, some 46), (5, some 45), (6, some 45), (7, some 32), (8, some 30)]

/-- The number of a tile's register block: BAR0 address ÷ 0x4000 (R493, R510). -/
def blockNo (t k : Nat) : Nat := 1024 + t * 384 + k

/-- The strobe group of a tile's block: 0x1F for STIR (R499). -/
def State.blockGroup (s : State) (t k : Nat) : Nat := if k = 7 then 31 else (s.block (blockNo t k)).group

/-- A block of the group on this tile still holds a write in its buffer (R47, R505). -/
def State.groupBusy (s : State) (t : TileId) (g : Nat) : Bool :=
  tileBlocks.any fun b => s.blockGroup t.val b.1 == g && !(s.block (blockNo t.val b.1)).buffer.isEmpty

/-- Copy shadow to applied in the blocks of a group that hold RWS fields: CMDP_CLASS_WGT, and FAB_ROUTE for group 31 (R503). -/
def State.applyBlock (s : State) (t : TileId) (k : Nat) : State :=
  match k with
  | 5 => s.onTile t fun x => { x with wgt := x.wgtShadow }
  | 7 => s.onTile t fun x => { x with route := x.routeNext }
  | _ => s

/-- A strobe reaches a tile: each block of the group is applied, or latches the strobe as PENDING when its domain is in RET
(R46). -/
def State.strobe (s : State) (t : TileId) (g : Nat) : State :=
  tileBlocks.foldl (fun s b =>
    if s.blockGroup t.val b.1 ≠ g then s else
    match b.2 with
    | none => s
    | some d =>
      match (s.dom t (domN d)).st with
      | .on => s.applyBlock t b.1
      | .ret => s.onDom t (domN d) fun y => { y with pending := insertRising y.pending g }
      | .off => s) s

/-- The PE clock of a DVFS profile in 0.1 GHz (R361); ADAPTIVE starts from the clock in force. -/
def profileFreq (p cur : Nat) : Nat := match p with | 0 => 18 | 1 => 12 | _ => cur

/-! ### Completion of a change (R40 step 5) -/

/-- The old value of a feature that a command returns (R115). -/
def Prog.oldValue : Prog → Nat
  | .change old => old
  | _ => 0

def State.progOf (s : State) (c : CmdRef) : Prog := ((s.cmd? c).map (·.prog)).getD .idle

/-- The change is complete: PHASE returns to IDLE, and its requester learns of it. A fence that fell while the device was entering
SERVICE now takes it to DEGRADED (R35). -/
def State.changeDone (s : State) (ch : Change) : State :=
  let s : State := { s with dev := { s.dev with
    phase := .idle, change := none, ready := 0, resends := 0, reports := []
    prev := if ch.code = 1 then s.dev.was else s.dev.prev
    strobeBusy := if ch.origin = .strobe then false else s.dev.strobeBusy } }
  let s := if s.anyFence then s.degrade else s
  match ch.origin with
  | .feature c order =>
    let old := (s.progOf c).oldValue
    ({ s with feat := { s.feat with profile := ch.arg } } : State).forCmd c order fun s => s.succeed c (leBytes 8 old)
  | _ =>
    match s.dev.activation with
    | some a =>
      if a.restarted ∧ ch.code = 1 ∧ s.dev.mode.serving = true then
        ({ s with dev := { s.dev with activation := none } } : State).succeed a.c (leBytes 4 s.dev.fwVersion)
      else s
    | none => s

/-- APPLIED equals PRESENT, so the change is complete (R40). -/
def State.checkApplied (s : State) : State :=
  match s.dev.change with
  | some ch =>
    if (s.dev.phase = .commit ∨ s.dev.phase = .resend) ∧ s.dev.applied = s.presentMask then s.changeDone ch else s
  | none => s

/-- Once the master itself has taken the update, the tiles that report its own count have applied (R46). -/
def State.countApplied (s : State) : State :=
  let m := s.tile s.masterTile
  if m.taken.any fun k => k.2 == s.dev.epoch then
    let good := s.dev.reports.filter fun r => r.2 == m.strobeSeq && s.live (tid r.1)
    ({ s with dev := { s.dev with applied := good.foldl (fun b r => setBit b r.1) s.dev.applied } } : State).checkApplied
  else s

/-- The master takes APPLIED from a tile: the STROBE_SEQ is compared with its own count after the same update (R46). -/
def State.gotApplied (s : State) (t : TileId) (epoch seq : Nat) : State :=
  if (s.dev.phase = .commit ∨ s.dev.phase = .resend) ∧ epoch = s.dev.epoch ∧ s.live t = true then
    ({ s with dev := { s.dev with
        reports := (t.val, seq) :: s.dev.reports.filter fun r => decide (r.1 ≠ t.val) } } : State).countApplied
  else s

/-! ### A tile applies (R40 step 4) -/

/-- The mode that the change in progress enters, the same on every tile: TARGET as the pulse has fixed it. -/
def State.changeMode (s : State) (arg : Nat) : Mode := (modeOf s.dev.target).getD (s.modeTarget arg)

/-- What a change does on one tile. -/
def State.applyOn (s : State) (t : TileId) (change arg : Nat) : State :=
  match change with
  | 1 =>
    let m := s.changeMode arg
    let s := s.onTile t fun x => { x with mode := m }
    if t = s.masterTile then s.enterMode m else s
  | 2 => (s.strobe t arg).onTile t fun x => { x with strobeSeq := (x.strobeSeq + 1) % 2 ^ 32 }
  | 3 => s.onTile t fun x => { x with sched := { x.sched with profile := arg, peFreq := profileFreq arg x.sched.peFreq } }
  | _ => s

/-- A tile applies its prepared change once and answers APPLIED with its STROBE_SEQ; writes held for the group land after it
(R40, R46, R504). -/
def State.apply (s : State) (t : TileId) (p : Nat × Nat × Nat) : State :=
  let s := s.applyOn t p.1 p.2.1
  let s := s.onTile t fun x => { x with prepared := none, answered := false, taken := some (p.1, p.2.2), heldGroup := none }
  let seq := (s.tile t).strobeSeq
  let s := s.noteCinch t 0x05 p.1 p.2.1 p.2.2
  if t = s.masterTile then s.gotApplied t p.2.2 seq
  else s.emit (.cinch t.val s.masterTile.val 0x05 p.1 p.2.1 0 p.2.2 seq)

/-- Discard the prepared change of a tile. -/
def Tile.unprepare (x : Tile) (epoch : Nat) : Tile :=
  { x with prepared := none, answered := false, heldGroup := none, lastEpoch := epoch }

/-! ### Rollback (R41, R61, R505) -/

/-- The requester of a rolled-back change learns of it; a change of the device is retried after 10 ms (R41). -/
def State.rolledBack (s : State) (ch : Change) (reason : Nat) : State :=
  match ch.origin with
  | .device => { s with dev := { s.dev with retry := s.dev.retry ++ [ch] } }
  | .modeReq => { s with dev := { s.dev with drainTo := if s.dev.mode.serving then none else s.dev.drainTo } }
  | .strobe => { s with dev := { s.dev with strobeBusy := false, strobeRefused := true, strobeReason := reason } }
  | .feature c order => s.forCmd c order fun s => s.fail c stUnavailable 0 reason
  | .activation =>
    match s.dev.activation with
    | none => s
    | some a =>
      let s : State := { s with dev := { s.dev with activation := none } }
      let s := if reason = 0x03 then s.fail a.c stImageMalformed 0 0 else s.fail a.c stUnavailable 0 reason
      if s.dev.mode = .dusk then s.require (modeChange .service .device) else s

/-- Roll the change back everywhere: ABORT, DEV_CINCH_REFUSE, PHASE IDLE (R41). -/
def State.abortChange (s : State) (t : TileId) (reason : Nat) (ch : Change) : State :=
  let s := s.cinchToAll 0x06 ch.code ch.arg reason
  let m := s.masterTile
  let ep := s.dev.epoch
  let s := s.onTile m fun x => x.unprepare ep
  { s with dev := { s.dev with
      refReason := reason, refTile := t.val, refEpoch := ep, phase := .idle, change := none, ready := 0, reports := [] } }

/-! ### READY and REFUSE at the master -/

/-- The TARGET of a change: the mode that it enters, or the mode in force where it is no mode change (log 78). -/
def State.targetOf (s : State) (ch : Change) : Nat := if ch.code = 1 then modeCode (s.modeTarget ch.arg) else modeCode s.dev.mode

/-- Every live tile has answered READY, so the master pulses the wire, sends PULSE and enters COMMIT (R40 step 3). From here the mode
that the change enters is fixed for every tile. -/
def State.pulse (s : State) (ch : Change) : State :=
  let s : State := { s with dev := { s.dev with phase := .commit, resends := 0, was := s.dev.mode, target := s.targetOf ch } }
  (s.emit (.wire s.masterTile.val 200)).cinchToAll 0x04 ch.code ch.arg 0

def State.liveMask (s : State) : Nat := packBits (allTiles.map s.live)

/-- Every live tile has answered READY. -/
def State.allReady (s : State) : Bool := (s.dev.ready &&& s.liveMask) == s.liveMask

/-- A fence may leave only tiles that have answered: the change goes on without the fenced one (R40). -/
def State.afterFence (s : State) : State :=
  match s.dev.change with
  | some ch => if s.dev.phase = .prepare ∧ s.dev.ready ≠ 0 ∧ s.allReady = true then s.pulse ch else s.checkApplied
  | none => s

/-- Fence a tile outside a Cinch timeout (R326). -/
def State.loseTile (s : State) (t : TileId) : State := (s.fenceTile t).afterFence

/-- The master takes READY of a tile. -/
def State.gotReady (s : State) (t : TileId) (epoch : Nat) : State :=
  match s.dev.change with
  | some ch =>
    if s.dev.phase = .prepare ∧ epoch = s.dev.epoch ∧ s.live t = true then
      let s := s.onTile t fun x => { x with timeouts := 0 }
      let s : State := { s with dev := { s.dev with ready := setBit s.dev.ready t.val } }
      if s.allReady then s.pulse ch else s
    else s
  | none => s

/-- The master takes REFUSE of a tile. -/
def State.gotRefuse (s : State) (t : TileId) (epoch reason : Nat) : State :=
  match s.dev.change with
  | some ch =>
    if s.dev.phase = .prepare ∧ epoch = s.dev.epoch ∧ s.live t = true then
      let s := s.onTile t fun x => { x with timeouts := 0 }
      (s.abortChange t reason ch).rolledBack ch reason
    else s
  | none => s

/-! ### Commands -/

/-- The change a DEV_MODE_REQ code asks for in a mode, with what the drain of DUSK leads to (R36, R37). -/
def reqTarget (m : Mode) (code : Nat) : Option (Nat × Option Mode) :=
  match m, code with
  | .ready, 4 => some (4, none)
  | .ready, 9 => some (9, none)
  | .nightwatch, 3 => some (3, none)
  | .service, 6 => some (6, none)
  | .service, 7 => some (6, some .midnight)
  | .service, 3 => some (6, some .ready)
  | .degraded, 6 => some (6, none)
  | .degraded, 7 => some (6, some .midnight)
  | .degraded, 3 => some (6, some .ready)
  | .dusk, 4 => some (4, none)
  | .midnight, 4 => some (4, none)
  | _, _ => none

/-- A waiting change that leaves DUSK for READY or MIDNIGHT. -/
def leavesDusk (c : Change) : Bool := decide (c.code = 1 ∧ c.origin = .device ∧ (c.arg = 3 ∨ c.arg = 7))

/-- A mode request from the host or the BMC (R37). -/
def State.modeRequest (s : State) (code : Nat) : State :=
  match reqTarget s.dev.mode code with
  | some (target, drain) =>
    if s.dev.phase ≠ .idle ∨ s.dev.change ≠ none ∨ s.dev.activation ≠ none then
      { s with dev := { s.dev with rrej := true } }
    else
      let s : State := { s with dev := { s.dev with
        drainTo := drain
        waiting := if s.dev.mode = .dusk then s.dev.waiting.filter (fun c => !leavesDusk c) else s.dev.waiting
        retry := if s.dev.mode = .dusk then s.dev.retry.filter (fun c => !leavesDusk c) else s.dev.retry } }
      s.require { code := 1, arg := target, origin := .modeReq }
  | none => { s with dev := { s.dev with rrej := true } }

/-- Modes in which the DEV block takes writes (R34, R508). -/
def Mode.devWritable : Mode → Bool
  | .ready | .service | .degraded | .dusk | .midnight | .activate | .nightwatch => true
  | _ => false

/-- DEV_MODE_REQ_WRITE (R37). -/
def execDevModeReqWrite (mode : Fin 16) (s : State) : Res :=
  .next (if s.dev.mode.devWritable then s.modeRequest mode.val else s)

/-- A waiting change of the device that is no longer due, since the mode has moved on. -/
def State.stale (s : State) (c : Change) : Bool :=
  c.code == 1 && c.origin == .device && !modeAllowed s.dev.mode c.arg

/-- CINCH_CHANGE_START (R40 step 1, R44). -/
def cinchChangeStartEff (s : State) : State :=
  match s.dev.waiting with
  | [] => s
  | c :: rest =>
    if s.dev.phase ≠ .idle ∨ s.dev.change ≠ none ∨ s.dev.mode = .cold ∨ s.dev.mode = .halt ∨ s.dev.mode = .test then s
    else if s.stale c then { s with dev := { s.dev with waiting := rest } }
    else
      let ep := (s.dev.epoch + 1) % 65536
      let s : State := { s with dev := { s.dev with
        waiting := rest, change := some c, epoch := ep, phase := .prepare, ready := 0, resends := 0, reports := []
        target := s.targetOf c
        applied := s.dev.fenced &&& s.presentMask } }
      let s := s.cinchToAll 0x01 c.code c.arg 0
      s.onTile s.masterTile fun x => { x with prepared := some (c.code, c.arg, ep), answered := false }

def execCinchChangeStart (s : State) : Res := .next (cinchChangeStartEff s)

/-- A tile takes part in Cinch changes: live, and neither in COLD nor in HALT. -/
def State.cinchable (s : State) (t : TileId) : Bool :=
  s.live t && s.dev.mode != .cold && (s.tile t).mode != .halt

/-- CINCH_PREPARE (R40). -/
def execCinchPrepare (t : TileId) (change arg epoch : Nat) (s : State) : Res :=
  .next (if s.cinchable t then
    (s.noteCinch t 0x01 change arg epoch).onTile t fun x =>
      { x with prepared := some (change % 256, arg % 256, epoch % 65536), answered := false }
    else s)

/-- The reason with which a tile refuses at its safe point, if any (R47); of several that hold, the first in this order (log 79). -/
def State.refusal (s : State) (t : TileId) (p : Nat × Nat × Nat) (seen : SafeSeen) : Option Nat :=
  if p.2.2 ≠ ((s.tile t).lastEpoch + 1) % 65536 then some 0x02
  else if p.1 = 0 ∨ 3 < p.1 then some 0x01
  else if p.1 = 1 ∧ modeAllowed (s.tile t).mode p.2.1 = false then some 0x01
  else if p.1 = 1 ∧ s.dev.activation ≠ none ∧ (p.2.1 = 6 ∨ p.2.1 = 8) ∧ seen.imageInvalid = true then some 0x03
  else if p.1 = 2 ∧ s.groupBusy t p.2.1 = true then some 0x04
  else if p.1 = 3 ∧ seen.dfllUnlocked = true then some 0x05
  else if seen.localFault then some 0x06
  else none

/-- CINCH_SAFE_POINT (R40 step 2): the tile answers READY or REFUSE; from READY it holds writes to the blocks of a strobe group
(R504). -/
def cinchSafePointEff (t : TileId) (seen : SafeSeen) (s : State) : State :=
  match (s.tile t).prepared with
  | none => s
  | some p =>
    if (s.tile t).answered ∨ s.cinchable t = false then s else
    let m := s.masterTile
    match s.refusal t p seen with
    | some r =>
      let s := (s.onTile t fun x => { x with lastEpoch := p.2.2, answered := true }).noteCinch t 0x03 p.1 p.2.1 p.2.2
      if t = m then s.gotRefuse t p.2.2 r else s.emit (.cinch t.val m.val 0x03 p.1 p.2.1 r p.2.2 0)
    | none =>
      let s := (s.onTile t fun x => { x with
        lastEpoch := p.2.2, answered := true, heldGroup := if p.1 = 2 then some p.2.1 else none }).noteCinch t 0x02 p.1 p.2.1 p.2.2
      if t = m then s.gotReady t p.2.2 else s.emit (.cinch t.val m.val 0x02 p.1 p.2.1 0 p.2.2 0)

def execCinchSafePoint (t : TileId) (seen : SafeSeen) (s : State) : Res := .next (cinchSafePointEff t seen s)

/-- CINCH_READY (R40 step 3). -/
def execCinchReady (t : TileId) (epoch : Nat) (s : State) : Res := .next ((s.noteMaster 0x02 epoch).gotReady t epoch)

/-- CINCH_REFUSE (R41). -/
def execCinchRefuse (t : TileId) (epoch reason : Nat) (s : State) : Res := .next ((s.noteMaster 0x03 epoch).gotRefuse t epoch reason)

/-- CINCH_ABORT (R41). -/
def execCinchAbort (t : TileId) (epoch : Nat) (s : State) : Res :=
  .next (match (s.tile t).prepared with
    | some p =>
      if p.2.2 = epoch then (s.noteCinch t 0x06 p.1 p.2.1 epoch).onTile t fun x => x.unprepare epoch
      else s.onTile t fun x => { x with lastEpoch := epoch % 65536 }
    | none => s.onTile t fun x => { x with lastEpoch := epoch % 65536 })

/-- The change that a pulse applies on a tile: the prepared one, once READY has been answered. -/
def Tile.applicable (x : Tile) : Option (Nat × Nat × Nat) := if x.answered then x.prepared else none

/-- CINCH_PULSE (R40 step 4): applied at the first of the wire pulse and the message. -/
def execCinchPulse (t : TileId) (epoch : Nat) (s : State) : Res :=
  .next (match (s.tile t).applicable with
    | some p => if p.2.2 = epoch ∧ s.cinchable t = true then (s.noteCinch t 0x04 p.1 p.2.1 epoch).apply t p else s
    | none => s)

/-- CINCH_COMMIT (R42): the tile applies a change it has not applied, or answers APPLIED again; a strobe is counted once (R46). -/
def execCinchCommit (t : TileId) (epoch : Nat) (s : State) : Res :=
  .next (match (s.tile t).prepared with
    | some p => if p.2.2 = epoch ∧ s.cinchable t = true then (s.noteCinch t 0x07 p.1 p.2.1 epoch).apply t p else s
    | none =>
      match (s.tile t).taken with
      | some k =>
        if k.2 = epoch ∧ s.cinchable t = true ∧ t ≠ s.masterTile then
          s.emit (.cinch t.val s.masterTile.val 0x05 k.1 0 0 epoch (s.tile t).strobeSeq)
        else s
      | none => s)

/-- CINCH_APPLIED (R46). -/
def execCinchApplied (t : TileId) (epoch strobeSeq : Nat) (s : State) : Res := .next ((s.noteMaster 0x05 epoch).gotApplied t epoch strobeSeq)

/-- HALT reaches a tile from another: it enters HALT whatever the Cinch phase, and the device is in HALT (R62). -/
def State.hearHalt (s : State) (t : TileId) (src : TileId) (cause : Nat) : State :=
  let s := if s.dev.mode = .halt then s else s.halt src cause
  if s.dev.mode = .halt ∧ s.present t = true then s.haltTile t else s

/-- The HALT message has reached the master: its cause and tile are those of DEV_HALT_CAUSE (R62, R484). -/
def State.haltHeard (s : State) (t src : TileId) (cause : Nat) : State :=
  if t = s.masterTile ∧ s.dev.mode = .halt ∧ s.dev.haltMsg = false then
    { s with dev := { s.dev with haltMsg := true, haltCause := cause % 256, haltTile := src.val } }
  else s

/-- CINCH_HALT (R62). -/
def execCinchHalt (t src : TileId) (cause : Nat) (s : State) : Res :=
  .next (((s.noteCinch t 0x08 0 (cause % 256) s.dev.epoch).hearHalt t src cause).haltHeard t src cause)

/-- A low on the Cinch wire is read as a pulse: 100 ns to 1 us; between 50 and 100 ns and between 1 and 2 us the spec does not say
(R484, log 8). -/
def State.readsPulse (s : State) (ns : Nat) : Bool :=
  if 100 ≤ ns ∧ ns ≤ 1000 then true
  else if (50 ≤ ns ∧ ns < 100) ∨ (1000 < ns ∧ ns ≤ 2000) then Config.freeNat s.tick % 2 == 1
  else false

/-- CINCH_WIRE_PULSE (R484): the pulse applies the prepared change; with none prepared it is counted in SPURIOUS. -/
def execCinchWirePulse (t : TileId) (ns : Nat) (s : State) : Res :=
  .next (
    let yes := s.readsPulse ns
    let s := s.bump
    if yes ∧ s.cinchable t = true then
      match (s.tile t).applicable with
      | some p => s.apply t p
      | none => s.onTile t fun x => { x with spurious := min 255 (x.spurious + 1) }
    else s)

/-- CINCH_WIRE_HALT (R484): a low longer than 2 us is HALT; the cause comes with the HALT message, which has not reached the master
yet. -/
def execCinchWireHalt (t : TileId) (ns : Nat) (s : State) : Res :=
  .next (if 2000 < ns then
    let first := decide (s.dev.mode ≠ .halt)
    let s := s.hearHalt t t 0
    if first && s.dev.mode == .halt then { s with dev := { s.dev with haltMsg := false } } else s
  else s)

/-- HALT_MESSAGE_TIMEOUT (R484): no HALT message reached the master, so the cause is FATAL_FABRIC and TILE names the master. -/
def execHaltMessageTimeout (s : State) : Res :=
  .next (if s.dev.mode = .halt ∧ s.dev.haltMsg = false then
    { s with dev := { s.dev with haltCause := 0x06, haltTile := s.masterTile.val, haltMsg := true } } else s)

/-- Tile 0's own AON domain or supervisor pair has failed, so no copy is made (R63). -/
def State.tile0Dead (s : State) : Bool :=
  decide (s.dev.haltTile = 0 ∧ (s.dev.haltCause = 0x05 ∨ s.dev.haltCause = 0x02)) || bit s.dev.aonDead 0

/-- EVIDENCE_COPY (R63): tile 0 writes the evidence of every tile it reaches to EVIDENCE. -/
def execEvidenceCopy (reach : Byte) (s : State) : Res :=
  .next (if s.dev.mode = .halt ∧ s.tile0Dead = false then
    let ev := (s.presentTiles.filter fun t => bit reach.toNat t.val).flatMap fun t => ((s.tile t).evidence).getD []
    ({ s with flash := { s.flash with evidence := ev }, dev := { s.dev with evCopied := true } } : State).emit (.flash 0x00040000 ev)
    else s)

/-- CINCH_PREPARE_TIMEOUT (R41): every tile silent 10 ms after PREPARE is counted; the change rolls back, REFUSE with reason TIMEOUT
recorded for `t`. A third consecutive timeout fences the tile, and the change is retried without it and not reported. -/
def cinchPrepareTimeoutEff (t : TileId) (s : State) : State :=
  match s.dev.change with
  | some ch =>
    if s.dev.phase = .prepare ∧ s.live t = true ∧ bit s.dev.ready t.val = false then
      let silent := s.liveTiles.filter fun u => !bit s.dev.ready u.val
      let s := silent.foldl (fun s u => s.onTile u fun x => { x with timeouts := x.timeouts + 1 }) s
      let s := s.abortChange t 0x10 ch
      let third := silent.filter fun u => decide (3 ≤ (s.tile u).timeouts)
      if third.isEmpty then s.rolledBack ch 0x10
      else
        let s := third.foldl (fun s u => (s.onTile u fun x => { x with timeouts := 0 }).fenceTile u) s
        if s.dev.mode = .halt then s else { s with dev := { s.dev with waiting := ch :: s.dev.waiting } }
    else s
  | none => s

def execCinchPrepareTimeout (t : TileId) (s : State) : Res := .next (cinchPrepareTimeoutEff t s)

/-- CINCH_RETRY (R41). -/
def execCinchRetry (s : State) : Res :=
  .next (match s.dev.retry with
    | [] => s
    | c :: rest => { s with dev := { s.dev with retry := rest, waiting := s.dev.waiting ++ [c] } })

/-- CINCH_COMMIT_RESEND (R42): at most three, to every tile that has not answered. -/
def execCinchCommitResend (s : State) : Res :=
  .next (match s.dev.change with
    | some ch =>
      if (s.dev.phase = .commit ∨ s.dev.phase = .resend) ∧ s.dev.resends < 3 then
        let m := s.masterTile
        let s : State := { s with dev := { s.dev with phase := .resend, resends := s.dev.resends + 1 } }
        s.cinchTo (s.liveTiles.filter fun u => decide (u ≠ m) && !bit s.dev.applied u.val) 0x07 ch.code ch.arg 0
      else s
    | none => s)

/-- CINCH_APPLY_TIMEOUT (R42, R43): 4 ms after the pulse, past the three resends, the tile is fenced and marked applied. -/
def execCinchApplyTimeout (t : TileId) (s : State) : Res :=
  .next (if (s.dev.phase = .commit ∨ s.dev.phase = .resend) ∧ s.dev.resends = 3 ∧ s.live t = true ∧
      bit s.dev.applied t.val = false then
    (s.fenceTile t).checkApplied else s)

/-- A tile waits for a pulse or an ABORT, or has applied the change in progress (R45). -/
def State.ownsChange (s : State) (t : TileId) : Bool :=
  (s.tile t).answered || (s.dev.phase != .idle && (s.tile t).taken.any fun k => k.2 == s.dev.epoch)

/-- The new master's own part of a change that only rolls forward: it applies it if it has not, and the device is in the mode that it
enters. -/
def State.masterApplies (s : State) (ch : Change) : State :=
  let m := s.masterTile
  match (s.tile m).prepared with
  | some p => if p.2.2 = s.dev.epoch then s.apply m p else s
  | none =>
    let s := if ch.code = 1 ∧ s.dev.mode ≠ s.changeMode ch.arg then s.enterMode (s.changeMode ch.arg) else s
    s.gotApplied m s.dev.epoch (s.tile m).strobeSeq

/-- After the pulse the new master collects APPLIED anew from every tile and resends COMMIT (R42, R45). -/
def State.takeOver (s : State) (old : TileId) (ch : Change) : State :=
  let s := s.fenceTile old
  if s.dev.mode = .halt then s else
  ({ s with dev := { s.dev with
      phase := .commit, resends := 0, reports := [], applied := s.dev.fenced &&& s.presentMask } } : State).masterApplies ch

/-- MASTER_LOST (R45): tile `t`, which answered READY, has waited 10 ms. Before the pulse it rolls the change back, and the next tile
becomes master, fences the silent one and records MASTER_LOST. After the pulse the change only rolls forward under the new
master. -/
def masterLostEff (t : TileId) (s : State) : State :=
  let old := s.masterTile
  if s.ownsChange t = false ∨ t = old ∨ s.live t = false then s else
  match s.dev.change, s.dev.phase with
  | some ch, .prepare =>
    let s := s.onTile t fun x => x.unprepare s.dev.epoch
    let s := s.fenceTile old
    if s.dev.mode = .halt then s else (s.abortChange old 0x11 ch).rolledBack ch 0x11
  | some ch, .commit => s.takeOver old ch
  | some ch, .resend => s.takeOver old ch
  | _, _ => s.onTile t fun x => x.unprepare s.dev.epoch

def execMasterLost (t : TileId) (s : State) : Res := .next (masterLostEff t s)

/-- No command fetched before DUSK still runs; FW_ACTIVATE itself is exempt (R36, R59). -/
def State.drained (s : State) : Bool :=
  s.cmds.all fun c => (s.dev.activation.map (·.c)) == some c.ref

/-- The change that leaves DUSK when the drain is complete (R36, R41). -/
def State.duskExit (s : State) : Option Change :=
  match s.dev.activation with
  | some a => if a.restarted then none else some (modeChange .activate .activation)
  | none => s.dev.drainTo.map fun m => modeChange m .device

/-- DUSK_DRAIN_COMPLETE (R36). -/
def execDuskDrainComplete (s : State) : Res :=
  .next (match s.duskExit with
    | some c =>
      if s.dev.mode = .dusk ∧ s.dev.phase = .idle ∧ s.drained = true ∧ c ∉ s.dev.waiting ∧ c ∉ s.dev.retry then s.require c
      else s
    | none => s)

/-- A configuration record with a new BOOT_SLOT and the next SEQ (R51, R52). -/
def configWith (rec : List Byte) (slot : Nat) : List Byte :=
  let seq := (field rec 4 4 + 1) % 2 ^ 32
  let len := field rec 8 4
  let head := cut rec 0 4 ++ leBytes 4 seq ++ leBytes 4 len
  let rest := leBytes 1 slot ++ (cut rec 17 (len - 17))
  head ++ leBytes 4 (crc32c (head ++ rest)) ++ rest

/-- Write an update to the three copies in order (R52). While the recovery defaults are in force it builds on a record that says what they
say (log 80). -/
def State.updateBootSlot (s : State) (slot : Nat) : State :=
  let rec' := configWith (if s.cfg.recovery then plainRecord s.dev.limitW else s.cfg.record) slot
  ({ s with
    cfg := { s.cfg with bootSlot := slot, seq := field rec' 4 4, record := rec' }
    flash := { s.flash with config := [rec', rec', rec'] } } : State).emitAll
    [.flash 0x00010000 rec', .flash 0x00020000 rec', .flash 0x00030000 rec']

def Flash.slot (f : Flash) (n : Nat) : Slot := if n = 0 then f.slotA else if n = 1 then f.slotB else f.recovery

/-- FIRMWARE_RESTARTED (R58, R59): the new firmware runs on every healthy tile, and the device starts the return to the service
mode; FW_ACTIVATE completes when that change completes. -/
def execFirmwareRestarted (s : State) : Res :=
  .next (match s.dev.activation with
    | some a =>
      if s.dev.mode = .activate ∧ s.dev.phase = .idle ∧ a.restarted = false then
        let k := s.flash.slot a.slot
        let s : State := { s with dev := { s.dev with
          fwVersion := k.version, bootSlot := a.slot, svn := k.svn, activation := some { a with restarted := true } } }
        let s := if a.commit then s.updateBootSlot a.slot else s
        s.require (modeChange .service .device)
      else s
    | none => s)

end Sys2Proof.Machine
end

