-- ==== Sys2Proof/Machine/Admin.lean ====
section
/-! DEFINITION. Admin commands: IDENTIFY, GET_LOG, SET_FEATURE, FW_DOWNLOAD, FW_ACTIVATE, POWER_LIMIT, READ_MONITORS and NOP (R113 to
R117, R129, R130, R57, R58). -/

namespace Sys2Proof.Machine

/-! ### IDENTIFY (R116) -/

def partCode : Part → Nat
  | .zl2 => 2
  | .zl4 => 4
  | .zl8 => 8

def sumOver (s : State) (f : Tile → Nat) : Nat := s.presentTiles.foldl (fun a t => a + f (s.tile t)) 0

def identifyDevice (s : State) : List Byte :=
  leBytes 1 (partCode s.man.part) ++ leBytes 1 s.presentMask ++ leBytes 1 s.dev.fenced ++ leBytes 1 s.dev.hostRole ++
  leBytes 4 s.dev.fwVersion ++ leBytes 1 s.dev.svn ++ leBytes 1 s.man.grade ++ leBytes 2 1024 ++ leBytes 2 4096 ++
  leBytes 4 maxSegid ++ leBytes 4 (sumOver s fun x => x.ddr0Gib + x.ddr1Gib) ++
  leBytes 4 (sumOver s Tile.cxlBytes / gib)

def identifySlice (s : State) (n : Nat) : List Byte :=
  let x := s.slc n
  leBytes 2 n ++ leBytes 2 x.gen ++ leBytes 4 x.segUsed ++ leBytes 4 (s.segQuotaOf n) ++ leBytes 2 x.qUsed ++
  leBytes 2 (s.qQuotaOf n) ++ leBytes 1 (min 255 x.keyUsed) ++ leBytes 1 (min 255 (s.keyQuotaOf n)) ++ leBytes 2 x.keyUsed ++
  leBytes 2 (s.keyQuotaOf n)

/-- The slice that IDENTIFY names exists and may be named (R106, R113). -/
def State.identifyCheck (s : State) (x : Cmd) : Option Completion :=
  let n := x.f 6 2
  if x.f 4 1 = 0 then none
  else need ((s.slc n).st != .free && (x.slice == 0 || n == x.slice)) (badField 6)

/-- IDENTIFY (R116). -/
def execIdentify (c : CmdRef) (s : State) : Res :=
  .next (match s.fresh? c 0x01 with
    | some x => s.succeed c (if x.f 4 1 = 0 then identifyDevice s else identifySlice s (x.f 6 2))
    | none => s)

/-! ### GET_LOG (R114) -/

/-- The statistics page of a slice (R449). -/
def statsPage (s : State) (n : Nat) : List Byte :=
  let x := s.slc n
  let st := match x.st with
    | .free => 0 | .active => 1 | .frozen => 2 | .failed => 3
  let sat (v : Nat) : Nat := min v (2 ^ 64 - 1)
  let handles := (s.images.filter fun e => e.2.any fun i => decide (i.slice = n)).length
  leBytes 2 n ++ leBytes 2 x.gen ++ leBytes 1 st ++ leBytes 3 0 ++ leBytes 8 (sat x.cmdDone) ++ leBytes 8 (sat x.cmdFailed) ++
  leBytes 8 (sat x.stale) ++ leBytes 8 (sat x.morsels) ++ leBytes 8 (sat x.reruns) ++ leBytes 8 (sat (roundFree x.energyNj 1000)) ++
  leBytes 8 x.hbmUsed ++ leBytes 8 x.ddrUsed ++ leBytes 8 x.cxlUsed ++ leBytes 4 x.segUsed ++ leBytes 2 x.qUsed ++
  leBytes 1 (min 255 x.keyUsed) ++ leBytes 1 0 ++ leBytes 4 handles ++ leBytes 36 0

def domCode : DomState → Nat
  | .off => 0 | .ret => 1 | .on => 2

/-- STATE of PD_DOM_STATUS (R392). -/
def Dom.stateCode (y : Dom) : Nat := if y.phase = .entering ∨ y.phase = .waking then 3 else domCode y.st

/-- A domain counter record (R391). -/
def domRecord (d : Nat) (y : Dom) : List Byte :=
  let m (n v : Nat) : List Byte := leBytes n (min v (2 ^ (8 * n) - 1))
  leBytes 1 d ++ leBytes 1 y.stateCode ++ leBytes 1 y.lastReason ++ leBytes 1 y.refuser ++ m 4 y.refused ++ m 4 y.aborted ++
  m 4 y.lateWakes ++ m 4 y.wakes ++ m 4 y.retries ++ leBytes 1 y.failStep ++ [0] ++ m 2 y.lostCnt ++ leBytes 4 0

/-- A ring padded to its log size. -/
def padTo (n : Nat) (bs : List Byte) : List Byte := bs ++ List.replicate (n - bs.length) 0

/-- The EVIDENCE region: what the last copy wrote, and bytes whose content the spec does not state (log 8). -/
def evidenceBytes (s : State) : List Byte :=
  s.flash.evidence.take evidenceSize ++
    (List.range (evidenceSize - s.flash.evidence.length)).map fun i => Config.undefByte 0 (s.flash.evidence.length + i)

/-- The bytes of a log page (table "Log pages"). -/
def logPage (s : State) (x : Cmd) : List Byte :=
  let t := s.tile (tid (x.f 5 1))
  match x.f 4 1 with
  | 1 => padTo 65536 (t.err.ring.flatMap ErrRec.bytes)
  | 2 => padTo 2097152 (t.sched.trace.flatMap Trace.bytes)
  | 3 => evidenceBytes s
  | 4 => statsPage s x.slice
  | _ => (t.doms.toList.zipIdx).flatMap fun e => domRecord e.2 e.1

/-- GET_LOG copies min(TOTAL, size − OFFSET) bytes. -/
def getLogEff (x : Cmd) (wfail : Option Nat) (s : State) : State :=
  let off := x.f 8 8
  let n := min (x.dref 16).total (logSize (x.f 4 1) - off)
  let bs := cut (logPage s x) off n
  match faultIn n wfail with
  | some o => (s.dmaOut x (x.stream 16) bs (some o)).failHost x.ref .translation (x.stream 16) o o
  | none => (s.dmaOut x (x.stream 16) bs none).succeed x.ref (leBytes 4 n ++ leBytes 4 (logSize (x.f 4 1)))

def execGetLog (c : CmdRef) (wfail : Option Nat) (s : State) : Res :=
  .next (match s.fresh? c 0x02 with
    | some x => getLogEff x wfail s
    | none => s)

/-! ### SET_FEATURE (R115) -/

def setFeatureEff (x : Cmd) (s : State) : State :=
  let c := x.ref
  let v := x.f 8 8
  let done (old : Nat) (s : State) : State := s.succeed c (leBytes 8 old)
  match x.f 4 2 with
  | 1 =>
    ({ s with feat := { s.feat with schedNext := some v } } : State).onCmd c fun y =>
      { y with prog := .window s.feat.schedWindow }
  | 2 => done (boolNat s.feat.retSigEn) { s with feat := { s.feat with retSigEn := v == 1 } }
  | 3 => done s.feat.slIdle { s with feat := { s.feat with slIdle := v } }
  | 4 => done s.feat.scrubPeriod { s with feat := { s.feat with scrubPeriod := v } }
  | 5 => (s.onCmd c fun y => { y with prog := .change s.feat.profile }).require { code := 3, arg := v, origin := .feature c x.order }
  | _ => done s.cfg.bootSlot (s.updateBootSlot v)

/-- SET_FEATURE (R115). -/
def execSetFeature (c : CmdRef) (s : State) : Res :=
  .next (match s.fresh? c 0x03 with
    | some x => setFeatureEff x s
    | none => s)

/-! ### Firmware (R49, R57, R58) -/

def slotBase : Nat → Nat
  | 0 => 0x00400000
  | 1 => 0x02C00000
  | _ => 0x05400000

def State.onSlot (s : State) (n : Nat) (f : Slot → Slot) : State :=
  if n = 0 then { s with flash := { s.flash with slotA := f s.flash.slotA } }
  else { s with flash := { s.flash with slotB := f s.flash.slotB } }

/-- The facts of R49 about an image, which its header decides and the spec does not lay out (log 9). -/
def Slot.newFacts (k : Slot) (n : Nat) : Slot :=
  { k with
    magicOk := Config.imageMagic n, length := Config.imageLength n, keyOk := Config.imageKey n, sigOk := Config.imageSig n
    svn := Config.imageSvn n, version := Config.imageVersion n }

/-- An image is valid (R49). -/
def Slot.valid (k : Slot) (minSvn : Nat) : Bool :=
  k.magicOk && decide (k.length ≤ 41943040) && k.keyOk && k.sigOk && decide (minSvn ≤ k.svn)

/-- Write part of an image; an offset of 0 erases the slot first (R113). -/
def State.writeSlot (s : State) (n off : Nat) (bs : List Byte) : State :=
  let s := s.onSlot n fun k => { k with bytes := memWriteBytes (if off = 0 then [] else k.bytes) off bs }
  ((s.onSlot n fun k => k.newFacts s.tick).bump).emit (.flash (slotBase n + off) bs)

def fwDownloadEff (x : Cmd) (src : HostRead) (s : State) : State :=
  match src.err with
  | some (e, o) => (s.writeSlot (x.f 4 1) (x.f 8 4) (cut src.bytes 0 o)).failHost x.ref e (x.stream 16) o o
  | none => (s.writeSlot (x.f 4 1) (x.f 8 4) (cut src.bytes 0 (x.dref 16).total)).succeed x.ref []

/-- FW_DOWNLOAD (R57). -/
def execFwDownload (c : CmdRef) (src : HostRead) (s : State) : Res :=
  .next (match s.fresh? c 0x04 with
    | some x => fwDownloadEff x src s
    | none => s)

def fwActivateEff (x : Cmd) (s : State) : State :=
  if s.dev.mode.serving = false ∨ s.dev.activation ≠ none then s.fail x.ref stUnavailable 0 0
  else if (s.flash.slot (x.f 4 1)).valid s.man.minSvn = false then s.fail x.ref stImageMalformed 0 0
  else
    let s : State := { s with dev := { s.dev with
      activation := some { c := x.ref, slot := x.f 4 1, commit := bit x.cflags 0 } } }
    (s.onCmd x.ref fun y => { y with prog := .activate }).require (modeChange .dusk .activation)

/-- FW_ACTIVATE (R58). -/
def execFwActivate (c : CmdRef) (s : State) : Res :=
  .next (match s.fresh? c 0x05 with
    | some x => fwActivateEff x s
    | none => s)

/-! ### POWER_LIMIT, READ_MONITORS and NOP (R129, R130) -/

/-- POWER_LIMIT (R129): a value of 0 changes nothing. -/
def execPowerLimit (c : CmdRef) (s : State) : Res :=
  .next (match s.fresh? c 0x70 with
    | some x =>
      let old := s.dev.limitW
      let w := if x.f 4 2 = 0 then old else x.f 4 2
      ({ s with dev := { s.dev with limitW := w } } : State).succeed c (leBytes 2 w ++ leBytes 2 old)
    | none => s)

/-- READ_MONITORS results (R130). -/
def monitorBytes (x : Tile) (set : Nat) : List Byte :=
  if set = 1 then (List.range 8).flatMap fun i => leBytes 2 (x.mon.supply.getD i {}).value.toNat
  else
    leBytes 2 (ofSigned 16 x.mon.tjMax) ++ leBytes 1 x.mon.tjSensor ++ [0] ++ leBytes 2 (ofSigned 16 x.mon.hbm) ++
    leBytes 1 (boolNat x.mon.throttle + 2 * boolNat x.sched.ethrottle) ++ [0] ++ leBytes 8 x.mon.sampleAt ++
    leBytes 8 (roundFree x.sched.energyNj 1000) ++ leBytes 4 x.sched.meanMw

/-- READ_MONITORS (R130). -/
def execReadMonitors (c : CmdRef) (s : State) : Res :=
  .next (match s.fresh? c 0x71 with
    | some x => s.succeed c (monitorBytes (s.tile (tid (x.f 4 1))) (x.f 5 1))
    | none => s)

/-- NOP (R130). -/
def execNop (c : CmdRef) (s : State) : Res :=
  .next (match s.fresh? c 0x7F with
    | some _ => s.succeed c []
    | none => s)

end Sys2Proof.Machine
end

