-- ==== Sys2Proof/Machine/Msg.lean ====
section
/-! DEFINITION. Fabric messages and the sending side of a Stirrup edge: message bytes (R480, R481), the routes between tiles (R468), flits
(R472 to R474), credits (R479), the sideband path (R488) and what a lost message does (R490). -/

namespace Sys2Proof.Machine

/-! ### Messages -/

def agCodec : Fin 64 := 29
def agXchg : Fin 64 := 31
def agHost : Fin 64 := 39
def agCtrl : Fin 64 := 40
def agAon : Fin 64 := 41

/-- The VC of a message type (R481); none for an unknown type. -/
def msgVc (mtype : Nat) : Option Nat :=
  if 0x01 ≤ mtype ∧ mtype ≤ 0x04 then some 0
  else if 0x11 ≤ mtype ∧ mtype ≤ 0x14 then some 1
  else if mtype = 0x20 then some 2
  else if (0x30 ≤ mtype ∧ mtype ≤ 0x38) ∨ mtype = 0x3E ∨ mtype = 0x3F then some 3
  else if 0x40 ≤ mtype ∧ mtype ≤ 0x42 then some 4
  else none

/-- The least and greatest LEN of a message type (R481). -/
def msgLen (mtype : Nat) : Nat × Nat :=
  match mtype with
  | 0x01 => (32, 32) | 0x02 => (104, 104) | 0x03 => (24, 24) | 0x04 => (28, 28)
  | 0x11 => (88, 88) | 0x12 => (20, 20) | 0x13 => (24, 24) | 0x14 => (28, 28)
  | 0x20 => (48, 304) | 0x30 => (28, 28) | 0x31 => (24, 24) | 0x32 => (40, 40) | 0x33 => (20, 20) | 0x34 => (32, 32)
  | 0x35 => (28, 28) | 0x36 => (20, 20) | 0x37 => (40, 40) | 0x38 => (20, 20)
  | 0x3E => (32, 512) | 0x3F => (20, 512)
  | _ => (16, 16)

/-- The command that traffic serves (R480): all zero for none. -/
structure MsgCtx where
  slice : Nat := 0
  sgen  : Nat := 0
  queue : Nat := 0
  qgen  : Nat := 0
  deriving DecidableEq, Repr

def Query.ctx (q : Query) : MsgCtx := { slice := q.slice, sgen := q.sgen, queue := q.c.q.val, qgen := q.qgen }

/-- The bytes of a message. -/
def msgBytes (mtype : Nat) (h : MsgHdr) (body : List Byte) : List Byte :=
  leBytes 1 mtype ++ leBytes 1 h.vc ++ leBytes 2 h.len ++ leBytes 1 h.srcTile.val ++ leBytes 1 h.srcAgent.val ++
    leBytes 1 h.dstTile.val ++ leBytes 1 h.dstAgent.val ++
    leBytes 8 (h.slice + 2 ^ 10 * h.sgen + 2 ^ 26 * h.queue + 2 ^ 38 * h.qgen) ++ cut body 0 (h.len - 16)

/-- The header that bytes spell (R480). -/
def readHdr (b : List Byte) : MsgHdr :=
  let c := field b 8 8
  { vc := byteAt b 1, len := field b 2 2, srcTile := tid (byteAt b 4), srcAgent := ⟨byteAt b 5 % 64, Nat.mod_lt _ (by decide)⟩
    dstTile := tid (byteAt b 6), dstAgent := ⟨byteAt b 7 % 64, Nat.mod_lt _ (by decide)⟩
    slice := bits c 9 0, sgen := bits c 25 10, queue := bits c 37 26, qgen := bits c 53 38 }

/-! ### Flits (R472, R473) -/

/-- A flit: SEQ, ACKSEQ, FTYPE, NAK, FOFF, CVC, CCNT and the payload. -/
def flitBytes (seq ack ftype : Nat) (nak : Bool) (foff cvc ccnt : Nat) (payload : List Byte) : List Byte :=
  let b := leBytes 4 (seq + 2 ^ 8 * ack + 2 ^ 16 * ftype + 2 ^ 17 * boolNat nak + 2 ^ 18 * foff + 2 ^ 24 * cvc + 2 ^ 27 * ccnt) ++
    cut payload 0 244
  b ++ leBytes 8 (crc64 b)

/-- The flits of one message: FOFF and payload; the message begins the first (R474). -/
def msgFlits (b : List Byte) : List (Nat × List Byte) := (chunks 244 b).zipIdx.map fun c => (if c.2 = 0 then 0 else 63, c.1)

/-- The units of a VC that the next report covers: at most 31 (R479). -/
def Module.report (m : Module) (v : Nat) : Nat := min 31 (m.owed.getD v 0)

/-- One more flit is sent by a module: its bytes, and the module with the credit report made and moved on (R479). -/
def Module.flit (m : Module) (ftype seq : Nat) (nak : Bool) (foff : Nat) (payload : List Byte) : List Byte × Module :=
  let v := m.vcNext
  let n := m.freed.getD v 0 + m.report v
  (flitBytes seq m.lastAck ftype nak foff v (n % 32) payload,
    { m with vcNext := (v + 1) % 5, freed := m.freed.set v n, owed := m.owed.set v (m.owed.getD v 0 - m.report v) })

/-! ### One edge -/

def Edge.module (e : Edge) (m : Nat) : Module := e.modules.toList.getD m {}

def Edge.onModule (e : Edge) (m : Nat) (f : Module → Module) : Edge :=
  { e with modules := vecOf fun i : Fin 6 => if i.val = m then f e.modules[i] else e.modules[i] }

/-- The active modules, lowest first. -/
def Edge.actives (e : Edge) : List Nat := (List.range 6).filter fun m => (e.module m).active

/-- The bytes that identify a message's stream (R467). -/
def streamKey (b : List Byte) : List Byte :=
  if byteAt b 0 = 0x20 then cut b 4 2 ++ cut b 16 6 else cut b 1 1 ++ cut b 4 4

/-- The module on which a stream travels (R474). -/
def Edge.moduleOf (e : Edge) (b : List Byte) : Option Nat :=
  if e.actives.isEmpty then none else e.actives[crc32c (streamKey b) % e.actives.length]?

/-- Credit units of a message (R479). -/
def msgUnits (b : List Byte) : Nat := ceilDiv b.length 64

/-- A message can be sent: its module has the credits, and room for its flits in the replay buffer (R475, R479). -/
def Edge.canSend (e : Edge) (v : Nat) (b : List Byte) : Bool :=
  match e.moduleOf b with
  | some m =>
    !(e.module m).training && decide (msgUnits b ≤ (e.module m).credits.getD v 0) &&
      decide ((e.module m).replay.length + (msgFlits b).length ≤ 128)
  | none => false

/-- VCs in the order in which the link serves them: CTL and PWR first, then REQ, RSP and XCHG in turn (R466). -/
def Edge.vcOrder (e : Edge) : List Nat := [3, 4, e.rr % 3, (e.rr + 1) % 3, (e.rr + 2) % 3]

/-- The message sent next: the first held of the first VC whose first message can go. -/
def Edge.nextMsg (e : Edge) : Option (Nat × List Byte) :=
  e.vcOrder.findSome? fun v => (e.held.find? fun x => x.1 == v).filter fun x => e.canSend v x.2

/-- Send the flits of one message on a module. -/
def Module.sendFlits (m : Module) (msg : List Byte) : List (Nat × List Byte) → List (List Byte) × Module
  | [] => ([], m)
  | (foff, p) :: r =>
    let f := m.flit 0 m.nextSeq false foff p
    let k : Sent := { seq := m.nextSeq, foff := foff, payload := p, message := msg }
    let m := { f.2 with nextSeq := (m.nextSeq + 1) % 256, replay := m.replay ++ [k], sends := max 1 m.sends }
    let x := m.sendFlits msg r
    (f.1 :: x.1, x.2)

/-- Take the first held message equal to one out of the list. -/
def dropFirst : List (Nat × List Byte) → Nat × List Byte → List (Nat × List Byte)
  | [], _ => []
  | y :: r, x => if y = x then r else y :: dropFirst r x

/-- Send what can be sent: module and bytes of each flit, and the edge. -/
def Edge.pump : Nat → Edge → List (Nat × List Byte) × Edge
  | 0, e => ([], e)
  | fuel + 1, e =>
    if (e.st ≠ .active ∧ e.st ≠ .retrain) ∨ e.stopped = true then ([], e) else
    match e.nextMsg with
    | none => ([], e)
    | some x =>
      match e.moduleOf x.2 with
      | none => ([], e)
      | some m =>
        let f := (e.module m).sendFlits x.2 (msgFlits x.2)
        let e := { e.onModule m fun _ => { f.2 with credits := f.2.credits.set x.1 (f.2.credits.getD x.1 0 - msgUnits x.2) } with
          held := dropFirst e.held x, rr := if x.1 < 3 then (x.1 + 1) % 3 else e.rr }
        let r := Edge.pump fuel e
        (f.1.map (fun b => (m, b)) ++ r.1, r.2)

def Tile.edge (x : Tile) (e : EdgeId) : Edge := x.edges[e]

def State.edge (s : State) (t : TileId) (e : EdgeId) : Edge := (s.tile t).edge e

def State.onEdge (s : State) (t : TileId) (e : EdgeId) (f : Edge → Edge) : State :=
  s.onTile t fun x => { x with edges := x.edges.set e.val (f x.edges[e]) e.isLt }

/-- Send what an edge holds and can send. -/
def State.pumpEdge (s : State) (t : TileId) (e : EdgeId) : State :=
  let r := Edge.pump (s.edge t e).held.length (s.edge t e)
  (s.onEdge t e fun _ => r.2).emitAll (r.1.map fun f => Out.flit t.val e.val f.1 f.2)

/-! ### Loss (R490) -/

/-- The PE whose morsel an XREC or XACK serves, by the message's bytes. -/
def recPe (b : List Byte) : Gpe :=
  if byteAt b 0 = 0x20 then gpeN (16 * byteAt b 4 + byteAt b 5 % 16) else gpeN (byteAt b 18)

/-- The query, morsel and attempt of an XREC, whose record begins at byte 24, or of an XACK (R481). -/
def recRun (b : List Byte) : Nat × Nat × Nat :=
  if byteAt b 0 = 0x20 then (field b 16 2, field b 32 4, byteAt b 37 % 4) else (field b 16 2, field b 20 4, byteAt b 19)

/-- The PE still runs the attempt that the message serves. -/
def State.serving (s : State) (b : List Byte) : Bool := (s.run? (recPe b)).any fun r => (r.qid, r.at_.morsel, r.attempt) == recRun b

/-- What the loss of a message does: the sending morsel of an exchange record is abandoned; a CTL message waits to be sent again. A
request is found lost when its time is up. -/
def State.loseMsg (s : State) (b : List Byte) : State :=
  let ty := byteAt b 0
  if ty = 0x20 ∨ ty = 0x14 then (if s.serving b then s.abandon (recPe b) else s)
  else if msgVc ty = some 3 ∧ ty ≠ 0x30 then
    let h := readHdr b
    let p : CtlPending := { tag := field b 16 2, dst := h.dstTile.val, mtype := ty, h := h, body := b.drop 16 }
    if (s.tile h.srcTile).ctl.any fun x => x.tag == p.tag && x.dst == p.dst && x.mtype == ty && x.body == p.body then s
    else s.onTile h.srcTile fun x => { x with ctl := x.ctl ++ [p] }
  else s

/-! ### Sending -/

/-- A message for a link in L1 wakes it through the FABRIC voter, on each side whose STIRRUP domain is not ON; with both ON the modules
leave L1 (R489). -/
def State.wakeLink (s : State) (t : TileId) (e : EdgeId) : State :=
  match s.partner t e with
  | none => s
  | some u =>
    let f := oppositeEdge e
    let on (v : TileId) (x : EdgeId) : Bool := s.domOn v (domStir x.val)
    if on t e ∧ on u f then
      ((s.onEdge t e fun y => { y with st := .active }).onEdge u f fun y => { y with st := if y.st = .l1 then .active else y.st }).pumpEdge t e
    else
      let call (s : State) (v : TileId) (x : EdgeId) : State := if s.domOn v (domStir x.val) then s else s.castVote v (domN (domStir x.val)) 3 2
      call (call s t e) u f

/-- Put a message on an edge: on the mainband, on the sideband while the mainband is not ACTIVE (R488), or held for a link that
sleeps or trains (R367, R489). -/
def State.sendEdge (s : State) (t : TileId) (e : EdgeId) (vc : Nat) (b : List Byte) : State :=
  let x := s.edge t e
  let hold (s : State) : State := s.onEdge t e fun y => { y with held := y.held ++ [(vc, b)] }
  match x.st with
  | .active => (hold s).pumpEdge t e
  | .fenced | .disabled => s.loseMsg b
  | _ =>
    if vc = 3 ∧ b.length ≤ 64 then s.emit (.sideband t.val e.val 2 b)
    else if x.st = .retrain then (hold s).pumpEdge t e
    else if x.st = .l1 then (hold s).wakeLink t e
    else (hold s).castVote t (domN (domStir e.val)) 3 2

/-- Send a message on from a tile toward its destination by the routes in force (R468, R469). -/
def State.forward (s : State) (t : TileId) (b : List Byte) : State :=
  let r := (s.tile t).route.getD (byteAt b 6 % 8) {}
  if r.none_ then s.loseMsg b
  else s.sendEdge t ⟨r.edge % 4, Nat.mod_lt _ (by decide)⟩ (byteAt b 1 % 8) b

/-- Send a message. -/
def State.sendMsg (s : State) (mtype len : Nat) (src : TileId) (sa : Fin 64) (dst : TileId) (da : Fin 64) (x : MsgCtx)
    (body : List Byte) : State :=
  let h : MsgHdr :=
    { vc := (msgVc mtype).getD 0, len := len, srcTile := src, srcAgent := sa, dstTile := dst, dstAgent := da
      slice := x.slice, sgen := x.sgen, queue := x.queue, qgen := x.qgen }
  let body := cut body 0 (len - 16)
  let s := s.emit (.msg mtype h body)
  if src = dst then s else s.forward src (msgBytes mtype h body)

/-- Send a CTL message of a tile's control agent. -/
def State.sendCtl (s : State) (mtype : Nat) (src dst : TileId) (x : MsgCtx) (body : List Byte) : State :=
  s.sendMsg mtype (msgLen mtype).1 src agCtrl dst agCtrl x body

end Sys2Proof.Machine
end

