-- ==== Sys2Proof/Machine/ImageCheck.lean ====
section
/-! DEFINITION. The image checks of R191, in order, each with the image offset of the first field in error. -/

namespace Sys2Proof.Machine

/-- A requirement with the offset of the field that breaks it. -/
abbrev Need := Bool × Nat

def zerosAt (bs : List Byte) (offs : List Nat) : List Need := offs.map fun o => (byteAt bs o == 0, o)

def span (lo hi : Nat) : List Nat := (List.range (hi + 1 - lo)).map (· + lo)

/-! ### 0x0001 to 0x0007 -/

def maxImage : Nat := 8388608

def chk1 (bs : List Byte) : List Need := [(decide (64 ≤ bs.length ∧ bs.length ≤ maxImage) && field bs 8 4 == bs.length, 8)]

def chk2 (bs : List Byte) : List Need :=
  [(field bs 0 4 == 0x49504C5A, 0), (field bs 4 2 == 1, 4)] ++ zerosAt bs (17 :: span 23 63)

def chk3 (bs : List Byte) : List Need :=
  [(crc32c (bs.take 12 ++ List.replicate 4 0 ++ bs.drop 16) == field bs 12 4, 12)]

/-- The fields of a type in the order of their offsets: code, precision, scale (R172). -/
def Ty.fields (t : Ty) (o : Nat) : List Need :=
  let max := if t.code = tyDec64 then 18 else 38
  if t.isDec then [(decide (1 ≤ t.p ∧ t.p ≤ max), o + 1), (decide (t.s ≤ t.p), o + 2)]
  else [(decide (1 ≤ t.code ∧ t.code ≤ 0x10), o), (t.p == 0, o + 1), (t.s == 0, o + 2)]

/-- The fields of an absent type. -/
def Ty.absent (t : Ty) (o : Nat) : List Need := [(t.code == 0, o), (t.p == 0, o + 1), (t.s == 0, o + 2)]

/-- The BODY_LEN of the first operator header that a walk of a section finds to reach past its end. -/
def walkFault : Nat → Nat → List Byte → Option Nat
  | 0, off, bs => if bs.isEmpty then none else some (off + 2)
  | fuel + 1, off, bs =>
    if bs.isEmpty then none
    else
      let n := field bs 2 2
      if bs.length < 8 + n then some (off + 2) else walkFault fuel (off + 8 + n) (bs.drop (8 + n))

/-- The length that a section's own layout gives (R185). -/
def sectLenOk (i : Img) (e : SectE) : Bool :=
  let bs := sectBytes i.bytes e
  match e.st with
  | 1 => e.len == 16 * i.npipe
  | 2 => e.len == 8 * i.nseg
  | 3 => e.len == 8 * i.nparam
  | 5 => decide (2 ≤ e.len) && e.len == 264 + 8 * byteAt bs 0 + 8 * ceilDiv (byteAt bs 1) 8
  | 6 => e.len != 0 && e.len % 24 == 0
  | 8 => e.len == 16
  | _ => true

/-- Sections that must be there (R185). -/
def sectNeeds (i : Img) : List (Nat × Nat) :=
  [(stPlan, 0xFF)] ++ (if i.nseg = 0 then [] else [(stSlots, 0xFF)]) ++ (if i.nparam = 0 then [] else [(stParams, 0xFF)]) ++
    (List.range i.npipe).map fun p => (stOps, p)

def chk4 (i : Img) : List Need :=
  let bs := i.bytes
  let n := field bs 6 2
  let end_ := 64 + 16 * n
  let all := i.sects
  [(decide (1 ≤ n ∧ end_ ≤ bs.length), 6)] ++
  all.zipIdx.flatMap (fun p =>
    let e := p.1
    [(decide (1 ≤ e.st ∧ e.st ≤ 9), e.at_),
     (e.st == stFormula || !((all.take p.2).any fun o => o.st == e.st && o.pipe == e.pipe), e.at_),
     (!(e.st == stSlots && i.nseg == 0) && !(e.st == stParams && i.nparam == 0), e.at_),
     (if pipeSection e.st then decide (e.pipe < i.npipe) else e.pipe == 0xFF, e.at_ + 2),
     (byteAt bs (e.at_ + 3) == 0, e.at_ + 3),
     (e.off % 8 == 0 && decide (end_ ≤ e.off ∧ e.off + e.len ≤ bs.length), e.at_ + 4), (field bs (e.at_ + 12) 4 == 0, e.at_ + 12)]) ++
  all.zipIdx.map (fun p =>
    let e := p.1
    (e.len == 0 || !((all.take p.2).any fun o => o.len != 0 && decide (o.off < e.off + e.len ∧ e.off < o.off + o.len)),
      e.at_ + 4)) ++
  all.map (fun e => (sectLenOk i e, e.at_ + 8)) ++
  (sectNeeds i).map fun k => ((findSect all k.1 k.2).isSome, 6)

def chk5 (i : Img) : List Need :=
  (decide (1 ≤ i.npipe ∧ i.npipe ≤ 32), 16) :: i.pipes.flatMap fun p =>
    let e := p.plan
    [(decide (1 ≤ e.src ∧ e.src ≤ 4), e.at_),
     (if e.src = 1 then e.prod == 0xFF else decide (e.prod < p.ix), e.at_ + 1),
     (decide (2 ≤ e.nops ∧ e.nops ≤ 8), e.at_ + 2), (decide (e.order ≤ 2), e.at_ + 3),
     (e.wait / 2 ^ p.ix == 0 && (e.src == 1 || bit e.wait e.prod) &&
       (p.op? kProbe).all fun op => !decide (op.b 0 < p.ix) || bit e.wait (op.b 0), e.at_ + 4)] ++ zerosAt i.bytes (span (e.at_ + 8) (e.at_ + 15))

def Ty.noType (t : Ty) : Bool := t.code == 0 && t.p == 0 && t.s == 0

def chk6 (i : Img) : List Need :=
  (i.slots.flatMap fun e =>
    (decide (e.role ≤ 3), e.at_) :: (if e.role = 1 ∨ e.role = 2 then e.ty.absent (e.at_ + 1) else e.ty.fields (e.at_ + 1)) ++
    [(maskOut (byteAt i.bytes (e.at_ + 4)) 3 == 0 && (!e.ty.heap || e.ty.isStr), e.at_ + 4),
     (e.ty.isStr || e.ty.comp == 0xFF, e.at_ + 5)] ++ zerosAt i.bytes [e.at_ + 6, e.at_ + 7]) ++
  i.slots.map fun e =>
    (!e.ty.isStr || (i.slots[e.ty.comp]?).any (fun c => c.role == if e.ty.heap then 2 else 1), e.at_ + 5)

/-- LENGTH of a parameter (R206). -/
def paramLenOk (e : ParamE) : Bool :=
  let lead := boolNat e.ty.nullable
  if e.ty.isStr then decide (2 + lead ≤ e.len ∧ e.len ≤ 976) else e.len == e.ty.bytes + lead

def chk7 (i : Img) : List Need :=
  i.params.zipIdx.flatMap fun p =>
    let e := p.1
    e.ty.fields e.at_ ++ [(maskOut (byteAt i.bytes (e.at_ + 3)) 1 == 0, e.at_ + 3),
     (!paramLenOk e || (decide (e.off + e.len ≤ i.pbytes) &&
       !((i.params.take p.2).any fun o => decide (e.off < o.off + o.len ∧ o.off < e.off + e.len))), e.at_ + 4),
     (paramLenOk e, e.at_ + 6)]

/-! ### 0x0008: operator order, formula numbers, producers -/

def isSink (k : Nat) : Bool := decide (6 ≤ k ∧ k ≤ 12)

/-- The sinks that fill a source (R168). -/
def fills (src sink : Nat) : Bool :=
  match src with
  | 2 => sink == kExchange
  | 3 => sink == kAgg || sink == kWindow
  | 4 => sink == kSort || sink == kTopk
  | _ => true

/-- The first fault of the walk by BODY_LEN over a pipeline's operators. -/
def Pipe.walkFault (p : Pipe) (i : Img) : Option Nat :=
  (findSect i.sects stOps p.ix).bind fun e => Machine.walkFault 4096 e.off (sectBytes i.bytes e)

/-- Check 0x0008. For a thing that is absent the spec names no field: the model reports NSECT for a missing section, the first plan
entry for a plan without EMIT, and the COMPUTE's descriptor for a missing FORMULA (log 90). -/
def chk8 (i : Img) : List Need :=
  (i.pipes.flatMap fun p =>
    let n := p.ops.length
    ((p.walkFault i).isNone, (p.walkFault i).getD 0) :: (n == p.plan.nops, p.plan.at_ + 2) :: p.ops.zipIdx.map fun e =>
      let k := e.1.kind
      (if e.2 = 0 then k == (if p.plan.src = 1 then kScan else kRead)
       else if e.2 + 1 = n then isSink k
       else decide (3 ≤ k ∧ k ≤ 5) && decide ((p.ops.getD (e.2 - 1) default).kind < k), e.1.off)) ++
  [(i.pipes.any fun p => p.sink.kind == kEmit, (i.pipes.headD default).plan.at_)] ++
  (i.pipes.flatMap fun p =>
    let fs := i.sects.filter fun e => e.st == stFormula && e.pipe == p.ix
    match p.op? kCompute with
    | some op => [(fs.length != 0, op.off), (decide (fs.length ≤ 1), (fs.getD 1 default).at_)]
    | none => [(fs.length == 0, (fs.getD 0 default).at_)]) ++
  i.pipes.map fun p => (fills p.plan.src (i.pipes.getD p.plan.prod default).sink.kind, p.plan.at_ + 1)

/-! ### 0x0009: operator bodies -/

/-- A requirement on a body offset. -/
def Op.at_ (op : Op) (o : Nat) (ok : Bool) : Need := (ok, op.off + 8 + o)

def Op.zeros (op : Op) (lo hi : Nat) : List Need := (span lo hi).map fun o => op.at_ o (op.b o == 0)

def Op.unused (op : Op) (lo hi : Nat) : List Need := (span lo hi).map fun o => op.at_ o (op.b o == 0xFF)

def Op.inRange (op : Op) (o n lo hi : Nat) : Need := op.at_ o (decide (lo ≤ op.u o n ∧ op.u o n ≤ hi))

def Op.lenIs (op : Op) (n : Nat) : Need := (op.body.length == n, op.off + 2)

/-- Key entries of 2 B: used ones name a row column and a KFORM, unused ones are 0xFF, 0x00. -/
def Op.keyNeeds (op : Op) (o n ncol : Nat) : List Need :=
  (List.range 8).flatMap fun i =>
    if i < n then [op.at_ (o + 2 * i) (decide (op.b (o + 2 * i) < ncol)), op.at_ (o + 2 * i + 1) (decide (op.b (o + 2 * i + 1) ≤ 1))]
    else [op.at_ (o + 2 * i) (op.b (o + 2 * i) == 0xFF && op.b (o + 2 * i + 1) == 0)]

def Op.colNeeds (op : Op) (o n cap ncol : Nat) : List Need :=
  (List.range n).map (fun i => op.at_ (o + i) (decide (op.b (o + i) < ncol))) ++ op.unused (o + n) (o + cap - 1)

def scanNeeds (i : Img) (op : Op) : List Need :=
  let n := op.b 0
  [op.inRange 0 1 1 8, op.lenIs (8 + 8 * n)] ++ op.zeros 2 7 ++ (List.range (min 8 n)).flatMap fun k =>
    op.at_ (8 + 8 * k) (decide (op.b (8 + 8 * k) ≤ 243) && (i.slots[op.b (8 + 8 * k)]?).any fun e => e.role == 0) :: op.zeros (9 + 8 * k) (15 + 8 * k)

def readNeeds (before : List PInfo) (p : Pipe) (op : Op) : List Need :=
  let n := ((before.getD p.plan.prod default).recs).length
  [op.lenIs 16, op.inRange 0 1 1 8] ++ (List.range (min 8 (op.b 0))).map (fun k => op.at_ (1 + k) (decide (op.b (1 + k) < n))) ++
    op.zeros 9 15

/-- Operands that a comparator takes: none for an unknown OP (R223). -/
def cmpArity (op : Nat) : Option Nat :=
  if op = 7 then some 2
  else if op = 8 ∨ op = 9 ∨ op = 10 then some 0
  else if (1 ≤ op ∧ op ≤ 6) ∨ (0x10 ≤ op ∧ op ≤ 0x12) then some 1
  else none

/-- An operand of a comparator: a constant, at most 32 B if a string, or a parameter (R222, R226). -/
def cmpOpndOk (i : Img) (p : Pipe) (x : Nat) : Bool :=
  if 64 ≤ x ∧ x < 128 then (p.consts[x - 64]?).any fun c => decide (c.slen ≤ 32)
  else decide (128 ≤ x ∧ x < 192 ∧ x - 128 < i.nparam)

/-- The values of an IN list obey R225. -/
def inListOk (aux : List Byte) (t : Ty) (c : Cmp) : Bool :=
  decide (c.inOff + t.inWidth * c.nin ≤ aux.length) && (List.range c.nin).all fun j =>
    let r := cut aux (c.inOff + t.inWidth * j) t.inWidth
    if t.isStr then decide (field r 0 2 ≤ 32) && allZero (r.drop (2 + field r 0 2))
    else if t.code = tyBool then decide (byteAt r 0 ≤ 1)
    else if t.isDec then t.inRange (t.ofFixed r).int!
    else true

def filterNeeds (i : Img) (p : Pipe) (lanes : List Ty) (op : Op) : List Need :=
  let nc := op.b 0
  let nn := op.b 1
  let root := op.b 2
  let end_ := 8 + 16 * nc + 4 * nn
  let child (j c : Nat) : Bool := if c < 16 then decide (c < nc) else decide (16 ≤ c ∧ c - 16 < j)
  let named := op.nodes.flatMap fun d => if d.1 = 3 then [d.2.1] else [d.2.1, d.2.2]
  let uses (c : Nat) : Nat := named.countP (· == c)
  [op.inRange 0 1 1 16, op.inRange 1 1 0 15, op.lenIs (alignUp end_ 8),
   op.at_ 2 (if nn = 0 then decide (root < nc) else root == 15 + nn)] ++ op.zeros 3 7 ++
  op.zeros end_ (alignUp end_ 8 - 1) ++
  (op.cmps.zipIdx.flatMap fun e =>
    let c := e.1
    let o := 8 + 16 * e.2
    let opnd (x : Nat) (used : Bool) : Bool := if used then cmpOpndOk i p x else x == 0xFF
    let ar := (cmpArity c.op).getD 0
    [op.at_ o (decide (c.lane < lanes.length)), op.at_ (o + 1) (cmpArity c.op).isSome,
     op.at_ (o + 2) (opnd c.a (decide (1 ≤ ar))), op.at_ (o + 3) (opnd c.b (decide (ar = 2))),
     op.at_ (o + 4) (if c.op = 8 then decide (1 ≤ c.nin ∧ c.nin ≤ 64) else c.nin == 0)] ++ op.zeros (o + 5) (o + 7) ++
    [op.at_ (o + 8) (if c.op = 8 then c.inOff % 8 == 0 && inListOk i.aux (lanes.getD c.lane default) c else c.inOff == 0)] ++
    op.zeros (o + 12) (o + 15)) ++
  (op.nodes.zipIdx.flatMap fun e =>
    let o := 8 + 16 * nc + 4 * e.2
    let d := e.1
    [op.at_ o (decide (1 ≤ d.1 ∧ d.1 ≤ 3)), op.at_ (o + 1) (child e.2 d.2.1),
     op.at_ (o + 2) (if d.1 = 3 then d.2.2 == 0xFF else child e.2 d.2.2), op.at_ (o + 3) (op.b (o + 3) == 0)]) ++
  (List.range (min 16 nc)).map (fun c => op.at_ (8 + 16 * c) (uses c == if c = root then 0 else 1)) ++
  (List.range (min 15 nn)).map fun j => op.at_ (8 + 16 * nc + 4 * j) (uses (16 + j) == if 16 + j = root then 0 else 1)

def computeNeeds (p : Pipe) (op : Op) : List Need :=
  let f := p.formula.getD default
  [op.lenIs 8, op.at_ 0 (op.b 0 == 0xFF || (f.outs[op.b 0]?).any fun s => (f.stypes.getD s default).code == tyBool)] ++
    op.zeros 1 7

/-- The keys of an EXCHANGE with their types. -/
def keyTypes (cols : List Col) (op : Op) : List (Ty × Nat) := op.keys.map fun k => ((cols.getD k.1 default).ty, k.2)

/-- A splitter's fields are well formed (R242). -/
def splitFieldOk (k : Ty × Nat) (f : List Byte) : Bool :=
  let fl := byteAt f 0
  let b := f.drop 1
  if fl = 1 then allZero b
  else if fl ≠ 0 then false
  else if k.1.isStr ∧ k.2 = 0 then decide (field b 0 2 ≤ 32) && allZero (b.drop (2 + field b 0 2))
  else if k.1.code = tyBool then decide (byteAt b 0 ≤ 1)
  else true

def splitRowOk : List (Ty × Nat) → List Byte → Bool
  | [], pad => allZero pad
  | k :: ks, row =>
    let w := 1 + k.1.splitWidth k.2
    splitFieldOk k (row.take w) && splitRowOk ks (row.drop w)

def risingKeys (ks : List (Ty × Nat)) : List (List Val) → Bool
  | a :: b :: r => cmpKeys plainStr ks a b == .lt && risingKeys ks (b :: r)
  | _ => true

def splittersOk (aux : List Byte) (ks : List (Ty × Nat)) (op : Op) : Bool :=
  let st := splitStride ks
  let off := op.u 8 4
  decide (off + st * op.u 6 2 ≤ aux.length) &&
  ((List.range (op.u 6 2)).all fun k => splitRowOk ks (cut aux (off + st * k) st)) && risingKeys ks (op.splitters aux ks)

def exchangeNeeds (i : Img) (cols : List Col) (op : Op) : List Need :=
  let m := op.b 0
  let hash := m == 1 || m == 2
  let nk := op.b 2
  let ks := keyTypes cols op
  [op.lenIs 48, op.inRange 0 1 1 5, op.at_ 1 (if hash then decide (op.b 1 ≤ 12) else op.b 1 == 0),
   op.at_ 2 (decide (nk ≤ 8) && (nk != 0 || (!hash && m != 3))), op.inRange 3 1 1 16, op.at_ 4 (op.b 4 != 0),
   op.inRange 5 1 0 1, op.at_ 6 (if m = 3 then decide (1 ≤ op.u 6 2 ∧ op.u 6 2 ≤ 4095) else op.u 6 2 == 0)] ++
  op.keyNeeds 16 (min 8 nk) cols.length ++ op.colNeeds 32 (min 16 (op.b 3)) 16 cols.length ++
  [op.at_ 8 (if m = 3 then op.u 8 4 % 8 == 0 && splittersOk i.aux ks op else op.u 8 4 == 0),
   op.at_ 12 (decide (1 ≤ op.b 12 ∧ op.b 12 ≤ 128) &&
     decide (2 * ceilDiv op.npart (popCount 8 (op.b 4)) ≤ op.b 12 * 64)), op.at_ 13 (op.b 13 == 0)]

def buildNeeds (p : Pipe) (cols : List Col) (op : Op) : List Need :=
  [(p.plan.src == 2, op.off), op.lenIs 40, op.inRange 0 1 1 8, op.inRange 1 1 0 8, op.inRange 2 1 10 20, op.inRange 3 1 0 1,
   op.inRange 4 2 1 128] ++ op.zeros 8 15 ++ op.keyNeeds 16 (min 8 (op.b 0)) cols.length ++
  op.colNeeds 32 (min 8 (op.b 1)) 8 cols.length

/-- The EXCHANGE that fills a pipeline's PARTITION source, with its key types. -/
def producerEx (i : Img) (inf : List PInfo) (p : Pipe) : Op × List (Ty × Nat) :=
  let q := i.pipes.getD p.plan.prod default
  (q.sink, keyTypes (inf.getD p.plan.prod default).fin q.sink)

def sameKeys (a b : List (Ty × Nat)) : Bool :=
  a.length == b.length && (a.zip b).all fun e => e.1.1.same e.2.1 && e.1.2 == e.2.2

/-- Key i of an operator traces to key i of its own exchange (R260). -/
def tracesTo (p : Pipe) (cols : List Col) (ex : Op) (i : Nat) (key : Nat × Nat) : Bool :=
  match traceCol p (cols.getD key.1 default) with
  | none => false
  | some j => decide (i < ex.keys.length) && ex.cols.getD j 0xFF == (ex.keys.getD i default).1

/-- R260: build and probe meet on one tile. -/
def coPartitioned (i : Img) (inf : List PInfo) (p : Pipe) (cols : List Col) (op : Op) : Bool :=
  let bp := i.pipes.getD (op.b 0) default
  let (bx, bk) := producerEx i inf bp
  if bx.b 0 = 4 ∧ bx.b 4 = 0xFF then true
  else if p.plan.src ≠ 2 then false
  else
    let (px, pk) := producerEx i inf p
    px.b 0 == bx.b 0 && px.b 1 == bx.b 1 && px.b 2 == bx.b 2 && px.b 4 == bx.b 4 && px.u 6 2 == bx.u 6 2 &&
    sameKeys pk bk &&
    (px.b 0 != 3 || cut i.aux (px.u 8 4) (splitStride pk * px.u 6 2) == cut i.aux (bx.u 8 4) (splitStride bk * bx.u 6 2)) &&
    (op.keys.zipIdx.all fun e => tracesTo p cols px e.2 e.1) &&
    bp.sink.keys.zipIdx.all fun e => tracesTo bp (inf.getD bp.ix default).fin bx e.2 e.1

def probeNeeds (i : Img) (inf : List PInfo) (p : Pipe) (cols : List Col) (op : Op) : List Need :=
  let b := op.b 0
  let bp := i.pipes.getD b default
  [op.lenIs 24, op.at_ 0 (decide (b < p.ix) && bit p.plan.wait b && bp.sink.kind == kBuild), op.inRange 1 1 0 4,
   op.at_ 2 (op.b 2 == bp.sink.b 0)] ++ op.zeros 3 7 ++ op.keyNeeds 8 (min 8 (op.b 2)) cols.length ++
  [op.at_ 0 (coPartitioned i inf p cols op)]

/-- R265: every row of a group reaches one tile. -/
def groupsMeet (i : Img) (inf : List PInfo) (p : Pipe) (cols : List Col) (op : Op) : Bool :=
  if op.phase = 1 then true
  else if p.plan.src ≠ 2 then false
  else
    let (ex, ek) := producerEx i inf p
    if ex.b 0 = 5 then true
    else op.keys.length != 0 && ex.keys.zipIdx.all fun e =>
      let kt := ek.getD e.2 default
      op.keys.any fun g =>
        let c := cols.getD g.1 default
        (traceCol p c).any (fun j => ex.cols.getD j 0xFF == e.1.1) && c.ty.same kt.1 && g.2 == kt.2

def aggNeeds (i : Img) (inf : List PInfo) (p : Pipe) (cols : List Col) (op : Op) : List Need :=
  let o := op.aggBase
  let nfn := op.b (o + 2)
  let col (c : Nat) : Bool := decide (c < cols.length)
  [op.lenIs (o + 32 + 8 * nfn), op.at_ o (if o = 32 then op.b o == 0 else decide (op.b o ≤ 2)), op.inRange (o + 1) 1 0 8,
   op.inRange (o + 2) 1 1 16, op.inRange (o + 3) 1 10 20, op.inRange (o + 4) 1 0 1, op.at_ (o + 5) (op.b (o + 5) == 0),
   op.inRange (o + 6) 2 1 128] ++ op.zeros (o + 10) (o + 15) ++ op.keyNeeds (o + 16) (min 8 (op.b (o + 1))) cols.length ++
  (op.fns.flatMap fun f =>
    [op.at_ f.at_ (decide (1 ≤ f.fn ∧ f.fn ≤ 7)),
     op.at_ (f.at_ + 1) (if f.fn = 1 ∧ op.phase ≠ 2 then f.arg == 0xFF else col f.arg),
     op.at_ (f.at_ + 2) (decide (op.b (f.at_ + 2) < 16) && decide (f.ovf ≤ 1)),
     op.at_ (f.at_ + 6) (if f.fn = 6 ∧ op.phase = 2 then col f.arg2 else f.arg2 == 0xFF),
     op.at_ (f.at_ + 7) (op.b (f.at_ + 7) == 0)]) ++
  [op.at_ o (groupsMeet i inf p cols op)]

def windowNeeds (cols : List Col) (op : Op) : List Need :=
  let w := op.u 16 8
  let h := op.u 24 8
  [op.at_ 0 ((cols[op.b 0]?).any fun c => c.ty.code == tyTime)] ++ op.zeros 1 7 ++
  [op.at_ 16 (decide (1 ≤ w ∧ w ≤ 2 ^ 62)), op.at_ 24 (decide (1 ≤ h ∧ h ≤ 2 ^ 62 ∧ ceilDiv w h ≤ 64))]

def sortNeeds (cols : List Col) (op : Op) : List Need :=
  let nk := op.b 0
  let np := op.b 1
  let top := op.kind == kTopk
  [op.lenIs (if top then 64 else 56), op.inRange 0 1 1 8, op.at_ 1 (decide (np ≤ 16 ∧ nk + np ≤ 24)), op.inRange 2 1 0 1,
   op.inRange 3 1 1 128] ++ op.zeros 6 7 ++
  ((List.range 8).flatMap fun k =>
    let o := 8 + 4 * k
    let t := (cols.getD (op.b o) default).ty
    if k < nk then
      [op.at_ o (decide (op.b o < cols.length)), op.at_ (o + 1) (decide (op.b (o + 1) < 4)), op.at_ (o + 3) (decide (op.b (o + 3) ≤ 1)),
       op.at_ (o + 2) (if t.isStr ∧ op.b (o + 3) = 0 then decide (1 ≤ op.b (o + 2) ∧ op.b (o + 2) ≤ 32) else op.b (o + 2) == 0)]
    else op.at_ o (op.b o == 0xFF) :: op.zeros (o + 1) (o + 3)) ++
  op.colNeeds 40 (min 16 np) 16 cols.length ++
  if top then
    [op.at_ 56 (decide (1 ≤ op.u 56 4 ∧ op.u 56 4 ≤ 65536)), op.at_ 60 (decide (op.u 56 4 + op.u 60 4 ≤ 65536))]
  else []

def emitNeeds (i : Img) (p : Pipe) (cols : List Col) (op : Op) : List Need :=
  let ring := op.b 0 == 1
  [op.lenIs 56, op.inRange 0 1 0 1,
   op.at_ 0 (!ring || !((i.pipes.take p.ix).any fun q => q.sink.kind == kEmit && q.sink.b 0 == 1)),
   op.inRange 1 1 1 16, op.inRange 2 1 0 1, op.at_ 3 (op.b 3 == 0), op.inRange 4 2 1 65535] ++ op.zeros 6 7 ++
  op.colNeeds 16 (min 16 (op.b 1)) 16 cols.length ++
  ((List.range 16).map fun k =>
    let x := op.b (32 + k)
    op.at_ (32 + k) (if !ring && decide (k < op.b 1) then (i.slots[x]?).any fun e => e.role == 3 else x == 0xFF)) ++
  op.zeros 48 55

/-- One operator descriptor. A reserved byte of its header, and a BODY_LEN that is out of range or no multiple of 8 and yet walks, are
refused here, as the spec gives them no check of their own (log 89). -/
def opNeeds (i : Img) (inf : List PInfo) (p : Pipe) (op : Op) : List Need :=
  let f := inf.getD p.ix default
  [(byteAt i.bytes (op.off + 1) == 0, op.off + 1),
   (op.body.length % 8 == 0 && decide (8 ≤ op.body.length ∧ op.body.length ≤ 4096), op.off + 2)] ++
  zerosAt i.bytes (span (op.off + 4) (op.off + 7)) ++
  match op.kind with
  | 1 => scanNeeds i op
  | 2 => readNeeds inf p op
  | 3 => filterNeeds i p f.lanes op
  | 4 => computeNeeds p op
  | 5 => probeNeeds i inf p f.mid op
  | 6 => exchangeNeeds i f.fin op
  | 7 => buildNeeds p f.fin op
  | 8 => aggNeeds i inf p f.fin op
  | 9 | 10 => sortNeeds f.fin op
  | 11 => windowNeeds f.fin op ++ aggNeeds i inf p f.fin op
  | _ => emitNeeds i p f.fin op

def chk9 (i : Img) (inf : List PInfo) : List Need := i.pipes.flatMap fun p => p.ops.flatMap (opNeeds i inf p)

/-! ### 0x000A: formula programs (R193 to R198) -/

def formulaNeeds (i : Img) (lanes : List Ty) (p : Pipe) (f : Formula) : List Need :=
  let o := f.off
  let b (k : Nat) : Nat := byteAt i.bytes (o + k)
  let nl := lanes.length
  let nuops := f.words.length
  let oo := o + 264 + 8 * nuops
  [(decide (1 ≤ b 0 ∧ b 0 ≤ 64), o), (decide (1 ≤ b 1 ∧ b 1 ≤ 16), o + 1)] ++ zerosAt i.bytes (span (o + 2) (o + 7)) ++
  (f.stypes.zipIdx.map fun e =>
    let t := e.1
    let k := e.2
    let lane := lanes.getD k default
    (if t.code = 0 then t.noType && b (11 + 4 * k) == 0 && decide (nl ≤ k)
     else decide (b (11 + 4 * k) ≤ 1) && t.valid &&
       (decide (8 ≤ k) || (decide (k < nl) && t.same lane && (t.nullable || !lane.nullable))), o + 8 + 4 * k)) ++
  (f.words.zipIdx.flatMap fun e =>
    let u := Uop.ofWord e.1
    let at_ := o + 264 + 8 * e.2
    let earlier := (f.words.take e.2).map fun w => (Uop.ofWord w).dst
    let opnd (x : Nat) : Bool :=
      if x < 8 then decide (x < nl)
      else if x < 64 then earlier.contains x
      else if x < 128 then decide (x - 64 < p.consts.length)
      else decide (x < 192 ∧ x - 128 < i.nparam)
    let used (j x : Nat) : Bool :=
      if u.opc = 0x50 then x == 0xFF || opnd x
      else if j < (uopArity u.opc).getD 0 then opnd x else x == 0xFF
    [(uopReservedOk e.1 && (uopArity u.opc).isSome && decide (u.ovf ≤ 2), at_),
     (!(u.opc == 0x14 || u.opc == 0x15) || decide (u.imm ≤ 63), at_ + 6),
     (decide (8 ≤ u.dst ∧ u.dst < 64) && (f.stypes.getD u.dst default).code != 0 && !earlier.contains u.dst, at_ + 1),
     (used 0 u.a, at_ + 2), (used 1 u.b, at_ + 3), (used 2 u.c, at_ + 4)]) ++
  (f.outs.zipIdx.map fun e =>
    (if e.1 < 8 then decide (e.1 < nl) else decide (e.1 < 64) && f.words.any fun w => (Uop.ofWord w).dst == e.1, oo + e.2)) ++
  zerosAt i.bytes (span (oo + f.outs.length) (oo + alignUp f.outs.length 8 - 1))

def chk10 (i : Img) (inf : List PInfo) : List Need :=
  i.pipes.flatMap fun p =>
    match p.formula with
    | some f => formulaNeeds i (inf.getD p.ix default).lanes p f
    | none => []

/-! ### 0x000B: types -/

/-- Descriptor `k` of the UDF section (R204). -/
def udfDesc (i : Img) (k : Nat) : Option (List Byte) :=
  match i.udf with
  | some (_, u) => if k < field u 0 2 ∧ 32 + 16 * k ≤ u.length then some (cut u (16 + 16 * k) 16) else none
  | none => none

/-- Sources and destination of a CALL match its descriptor (R204). -/
def callTypesOk (i : Img) (u : Uop) (srcs : List (Option Ty)) (td : Ty) : Bool :=
  match udfDesc i u.imm with
  | none => false
  | some d =>
    let n := byteAt d 9
    let at_ := field d 14 2
    decide (n ≤ 3) &&
    (srcs.zipIdx.all fun e =>
      match e.1 with
      | some t => decide (e.2 < n) && t.code == at_ / 32 ^ e.2 % 32
      | none => decide (n ≤ e.2)) &&
    td.code == byteAt d 10 && td.p == byteAt d 11 && td.s == byteAt d 12 && (td.nullable || (byteAt d 13 % 2 == 0 && srcs.all fun t => !(t.any (·.nullable))))

def uopNeeds (i : Img) (lanes : List Ty) (p : Pipe) (f : Formula) : List Need :=
  f.words.zipIdx.map fun e =>
    let u := Uop.ofWord e.1
    let td := f.stypes.getD u.dst default
    let o (x : Nat) : Option Ty := operandTy i p f lanes x
    let ts := ([u.a, u.b, u.c].take ((uopArity u.opc).getD 0)).map fun x => (o x).getD default
    (if u.opc = 0x50 then callTypesOk i u [o u.a, o u.b, o u.c] td
     else uopTypesOk u ts td && (td.nullable || !uopMayNull u ts td), f.off + 264 + 8 * e.2)

/-- A pipeline of one type on both sides (R198, R223, R224). -/
def filterTypes (i : Img) (p : Pipe) (lanes : List Ty) (op : Op) : List Need :=
  op.cmps.zipIdx.map fun e =>
    let c := e.1
    let lt := lanes.getD c.lane default
    let fits (x : Nat) : Bool :=
      if x = 0xFF then true
      else match operandTy i p default lanes x with
        | none => false
        | some t => if lt.isStr || t.isStr then lt.isStr && t.isStr else comparable lt t
    op.at_ (16 * e.2 + 8) (!(decide (3 ≤ c.op ∧ c.op ≤ 7) && lt.code == tyBool) && (decide (c.op < 16) || lt.isStr) &&
      fits c.a && fits c.b)

/-- The table "Aggregate functions" (R264). -/
def fnOk (phase : Nat) (cols : List Col) (f : Fn) : Bool :=
  let a := (cols.getD f.arg default).ty
  let count := f.ot.code == tyI64
  let num := a.isNum
  let dec := f.ot.isDec && decide ((if a.isDec then a.s else 0) ≤ f.ot.s)
  let flt := a.isFloat && f.ot.code == tyF64
  f.ot.valid && match f.fn with
  | 1 | 2 => count && (phase != 2 || a.code == tyI64)
  | 3 => (num && (count || dec)) || flt
  | 4 | 5 => f.ot.same a
  | 6 => ((num && dec) || flt) && (phase != 2 || ((cols.getD f.arg2 default).ty.code == tyI64))
  | _ => count && phase == 0

/-- Columns that may not hold a VARCHAR of a parameter or constant (R545). -/
def heldCols (op : Op) : List Nat :=
  (op.keys.map (·.1)) ++ (if op.kind = kEmit ∧ op.b 0 = 1 then [] else op.cols) ++
    (if op.kind = kAgg ∨ op.kind = kWindow then op.fns.flatMap fun f => [f.arg, f.arg2] else [])

def keyFormNeeds (cols : List Col) (op : Op) : List Need :=
  let (o, st) := if op.kind = kSort ∨ op.kind = kTopk then (11, 4)
    else if op.kind = kProbe then (9, 2) else (op.aggBase + 17, 2)
  op.keys.zipIdx.map fun e => op.at_ (o + st * e.2) (e.1.2 == 0 || (cols.getD e.1.1 default).ty.isDict)

def opTypes (i : Img) (inf : List PInfo) (p : Pipe) (op : Op) : List Need :=
  let f := inf.getD p.ix default
  let cols := if op.kind = kProbe then f.mid else f.fin
  keyFormNeeds cols op ++
  (if 5 ≤ op.kind then [op.at_ 0 ((heldCols op).all fun c => !(cols.getD c default).free)] else []) ++
  match op.kind with
  | 3 => filterTypes i p f.lanes op
  | 5 =>
    let bs := (i.pipes.getD (op.b 0) default).sink
    let bt := keyTypes (inf.getD (op.b 0) default).fin bs
    op.keys.zipIdx.map fun e =>
      let t := (cols.getD e.1.1 default).ty
      let b := bt.getD e.2 default
      op.at_ (8 + 2 * e.2) (t.same b.1 && e.1.2 == b.2 && (e.1.2 == 0 || t.comp == b.1.comp))
  | 8 | 11 => op.fns.map fun g => op.at_ (g.at_ + 3) (fnOk op.phase cols g)
  | 12 =>
    if op.b 0 = 1 then [] else op.cols.zipIdx.map fun e =>
      let s := (i.slots.getD (op.b (32 + e.2)) default).ty
      let t := (cols.getD e.1 default).ty
      op.at_ (32 + e.2) (s.same t && s.nullable == t.nullable &&
        (!s.isStr || (s.heap == t.heap && s.comp == t.comp)))
  | _ => []

def chk11 (i : Img) (inf : List PInfo) : List Need :=
  (i.pipes.flatMap fun p =>
    p.consts.zipIdx.map fun e => (e.1.ok, ((findSect i.sects stConsts p.ix).map (·.off)).getD 0 + 24 * e.2)) ++
  i.pipes.flatMap fun p =>
    (match p.formula with
      | some f => uopNeeds i (inf.getD p.ix default).lanes p f
      | none => []) ++ p.ops.flatMap (opTypes i inf p)

/-! ### 0x000C to 0x000E -/

/-- The UDF section (R204, R420). -/
def chk12 (i : Img) : List Need :=
  match i.udf with
  | none => []
  | some (so, u) =>
    let n := field u 0 2
    let dend := 16 + 16 * n
    let ds := (List.range (min 32 n)).map fun k => cut u (16 + 16 * k) 16
    let codeOf (core : Nat) : Nat :=
      (ds.map fun d => if byteAt d 8 = core then alignUp (field d 4 4) 64 else 0).sum
    [(decide (16 ≤ u.length ∧ 1 ≤ n ∧ n ≤ 32 ∧ dend ≤ u.length), so)] ++
    (span 2 15).map (fun k => (byteAt u k == 0, so + k)) ++
    (ds.zipIdx.flatMap fun e =>
      let d := e.1
      let o := so + 16 + 16 * e.2
      let co := field d 0 4
      let cl := field d 4 4
      let na := byteAt d 9
      let at_ := field d 14 2
      let rt := tyAt d 10 false false 0xFF
      [(co % 4 == 0 && cl % 4 == 0 && decide (dend ≤ co ∧ co + cl ≤ u.length) &&
        (ds.take e.2).all fun x => decide (co + cl ≤ field x 0 4 ∨ field x 0 4 + field x 4 4 ≤ co ∨ cl = 0 ∨ field x 4 4 = 0), o),
       (decide (byteAt d 8 ≤ 1), o + 8),
       (decide (na ≤ 3), o + 9), (!rt.isStr && rt.valid, o + 10), (decide (byteAt d 13 ≤ 1), o + 13),
       (decide (at_ < 32768) && (List.range 3).all fun k =>
         let c := at_ / 32 ^ k % 32
         if k < na then decide (1 ≤ c ∧ c ≤ 16) else c == 0, o + 14)]) ++
    [(decide (codeOf 0 ≤ 131072 ∧ codeOf 1 ≤ 1048576), so)]

/-- Cost hints (R205). -/
def chk13 (i : Img) : List Need :=
  i.sects.flatMap fun e =>
    if e.st = stCost then (decide (byteAt i.bytes (e.off + 8) ≤ 7), e.off + 8) :: zerosAt i.bytes (span (e.off + 10) (e.off + 15))
    else []

/-- Working SRAM that an operator reserves on each tile of its set, in bytes (R248, R275). -/
def Op.sramBytes (op : Op) : Nat :=
  let mib := 1048576
  if op.kind = kExchange then op.b 12 * mib
  else if op.kind = kBuild then op.u 4 2 * mib + 64 * 2 ^ op.b 2
  else if op.kind = kAgg ∨ op.kind = kWindow then op.u (op.aggBase + 6) 2 * mib + 64 * 2 ^ op.b (op.aggBase + 3)
  else if op.kind = kSort ∨ op.kind = kTopk then op.b 3 * mib
  else 0

/-- Spill that an operator reserves on each tile of its set: tier and bytes (R248, R275). -/
def Op.spill (op : Op) : Option (Nat × Nat) :=
  let mib := 1048576
  if op.kind = kExchange then some (op.b 5, op.u 14 2 * mib)
  else if op.kind = kBuild then some (op.b 3, op.u 6 2 * mib)
  else if op.kind = kAgg ∨ op.kind = kWindow then some (op.b (op.aggBase + 4), op.u (op.aggBase + 8) 2 * mib)
  else if op.kind = kSort ∨ op.kind = kTopk then some (op.b 2, op.u 4 2 * mib)
  else if op.kind = kEmit then some (op.b 2, op.u 4 2 * mib)
  else none

/-- The tile set of each pipeline's sink (R544): `live` stands for the tiles that can run a SCAN, `within` for those to which DEST is
cut down: at a start both are the present tiles that are not fenced, and at PIPE_LOAD DEST stands as it is. -/
def sinkSets (i : Img) (live within : Nat) : List Nat :=
  i.pipes.foldl (fun acc p =>
    let own := match p.plan.src with
      | 1 => live
      | 2 => (i.pipes.getD p.plan.prod default).sink.b 4 &&& within
      | _ => acc.getD p.plan.prod 0
    acc ++ [if p.sink.kind = kExchange then p.sink.b 4 &&& within else own]) []

def maxSram : Nat := 160 * 1048576

/-- Length of the normalized key of a SORT or TOPK (R272). -/
def sortKeyLen (cols : List Col) (op : Op) : Nat :=
  (op.keys.zipIdx.map fun e => 1 + ((cols.getD e.1.1 default).ty).sortLen e.1.2 (op.plen e.2)).sum

def chk14 (i : Img) (inf : List PInfo) (present : Nat) : List Need :=
  let sets := sinkSets i present 0xFF
  [(decide (field i.bytes 6 2 ≤ 512), 6), (decide (i.nseg ≤ 244), 18), (decide (i.nparam ≤ 64), 22),
   (decide (i.pbytes + 4 * i.nseg ≤ 976), 20)] ++
  (i.sects.map fun e =>
    (!(e.st == stConsts && decide (64 * 24 < e.len)) && !(e.st == stAux && decide (1048576 < e.len)), e.at_ + 8)) ++
  i.pipes.flatMap fun p =>
    let f := inf.getD p.ix default
    let op := p.sink
    [(decide (f.fin.length ≤ 24), op.off),
     (!(op.kind == kSort || op.kind == kTopk) || decide (sortKeyLen f.fin op ≤ 40), op.off),
     ((List.range 8).all fun t =>
        decide (((i.pipes.take (p.ix + 1)).map fun q => if bit (sets.getD q.ix 0) t then q.sink.sramBytes else 0).sum ≤ maxSram),
      op.off)]

/-! ### All of them -/

/-- The first failing check: DETAIL and BAD_OFFSET (R191). A later check is read only when the earlier ones pass. -/
def imageCheck (bs : List Byte) (present : Nat) : Option (Nat × Nat) :=
  let i := Img.ofBytes bs
  let inf := i.info
  let go (d : Nat) (ns : Unit → List Need) (rest : Unit → Option (Nat × Nat)) : Option (Nat × Nat) :=
    match firstBad (ns ()) with
    | some o => some (d, o)
    | none => rest ()
  go 1 (fun _ => chk1 bs) fun _ => go 2 (fun _ => chk2 bs) fun _ => go 3 (fun _ => chk3 bs) fun _ =>
  go 4 (fun _ => chk4 i) fun _ => go 5 (fun _ => chk5 i) fun _ => go 6 (fun _ => chk6 i) fun _ =>
  go 7 (fun _ => chk7 i) fun _ => go 8 (fun _ => chk8 i) fun _ => go 9 (fun _ => chk9 i inf) fun _ =>
  go 10 (fun _ => chk10 i inf) fun _ => go 11 (fun _ => chk11 i inf) fun _ => go 12 (fun _ => chk12 i) fun _ =>
  go 13 (fun _ => chk13 i) fun _ => go 14 (fun _ => chk14 i inf present) fun _ => none

end Sys2Proof.Machine
end

