-- ==== Sys2Proof/Machine/Strings.lean ====
section
/-! DEFINITION. Strings of a run: dictionary segments and their check (R181, R182), and the bytes that a VARCHAR value stands for. -/

namespace Sys2Proof.Machine

/-! ### Dictionary segments (R182) -/

def State.dictMagic (s : State) (t : Nat) (g : Seg) : Nat := leNat (s.segBytes t g 0 4)
def State.dictCount (s : State) (t : Nat) (g : Seg) : Nat := leNat (s.segBytes t g 4 4)
def State.dictSorted (s : State) (t : Nat) (g : Seg) : Bool := bit (leNat (s.segBytes t g 8 1)) 0
def State.dictHeap (s : State) (t : Nat) (g : Seg) : Nat := leNat (s.segBytes t g 16 8)

/-- OFFS[k]. -/
def State.dictOffs (s : State) (t : Nat) (g : Seg) (k : Nat) : Nat := leNat (s.segBytes t g (32 + 4 * k) 4)

/-- Offsets rise by at most 65,535 a string. -/
def offsOk : List Nat → Bool
  | a :: b :: r => decide (a ≤ b ∧ b ≤ a + 65535) && offsOk (b :: r)
  | _ => true

/-- The check of a dictionary in full: its table and its heap area lie inside the segment. -/
def State.dictOk (s : State) (t : Nat) (g : Seg) : Bool :=
  let n := s.dictCount t g
  decide (32 ≤ g.length) && s.dictMagic t g == 0x54434944 && decide (1 ≤ n ∧ n ≤ 16777216) &&
  decide (32 + 4 * (n + 1) ≤ g.length) &&
  (let os := (List.range (n + 1)).map (s.dictOffs t g)
   os.headD 1 == 0 && offsOk os && decide (s.dictHeap t g + os.getLastD 0 ≤ g.length))

/-- String k of a dictionary. -/
def State.dictStr (s : State) (t : Nat) (g : Seg) (k : Nat) : List Byte :=
  let a := s.dictOffs t g k
  s.segBytes t g (s.dictHeap t g + a) (s.dictOffs t g (k + 1) - a)

/-- The bytes of a heap descriptor (R181). -/
def State.heapStr (s : State) (t : Nat) (g : Seg) (d : Nat) : List Byte := s.segBytes t g (bits d 47 0) (bits d 63 48)

/-! ### Strings of a run -/

/-- Why a value has no string: a code or a descriptor out of range (R181), or poisoned data. -/
inductive StrErr where
  | code
  | heap
  | poison (addr : Nat)
  deriving DecidableEq, Repr

/-- The segment bound to a slot of a query. -/
def State.slotSeg (s : State) (q : Query) (k : Nat) : Seg := s.seg (q.segs.getD k 0)

/-- The string of a value as a unit on tile `t` reads it, or why it has none. -/
def State.strOf (s : State) (t : Nat) (q : Query) (v : Val) : Except StrErr (List Byte) :=
  match v with
  | .str b => .ok b
  | .code c k =>
    let g := s.slotSeg q k
    if s.dictCount t g ≤ c then .error .code
    else
      let a := s.dictHeap t g + s.dictOffs t g c
      match s.poisonAt t g a (s.dictOffs t g (c + 1) - s.dictOffs t g c) with
      | some o => .error (.poison (s.readLoc t g (a + o)))
      | none => .ok (s.dictStr t g c)
  | .desc d k =>
    let g := s.slotSeg q k
    if g.length < bits d 47 0 + bits d 63 48 then .error .heap
    else match s.poisonAt t g (bits d 47 0) (bits d 63 48) with
      | some o => .error (.poison (s.readLoc t g (bits d 47 0 + o)))
      | none => .ok (s.heapStr t g d)
  | _ => .ok []

/-- The bytes of a value; nothing where it has none. -/
def State.strBytes (s : State) (t : Nat) (q : Query) (v : Val) : List Byte :=
  match s.strOf t q v with
  | .ok b => b
  | .error _ => []

end Sys2Proof.Machine
end

