-- ==== Sys2Proof/Machine/Buckle.lean ====
section
/-! DEFINITION. The Buckle table (R96 to R98): the ranges of each command, their registration in submission order, and when a
command may start (R97, R98, R131, R453, R121, R122). -/

namespace Sys2Proof.Machine

/-- The installed image of a handle, parsed. -/
def State.img? (s : State) (h : Nat) : Option Img := (tblGet s.images h none).map fun i => Img.ofBytes i.bytes

/-- The ranges of a QUERY_RUN: each result segment written, every other bound segment read, each whole. -/
def queryRanges (i : Img) (ids : List Nat) : List BRange :=
  (i.slots.zip ids).map fun e => { seg := e.2, lo := 0, hi := wholeSeg, write := e.1.role == 3 }

/-- The ranges that a command registers, and whether it registers one whole-queue range instead (R96, R98). Which segments of a
QUERY_RUN are results is not known while its image is not installed: all then count as written (log 82). -/
def State.rangesOf (s : State) (x : Cmd) : List BRange × Bool :=
  let rs := if x.op = 0x32 then
      (match s.img? (x.f 4 4) with
        | some i => queryRanges i (x.segFields.map (·.1))
        | none => (x.segFields.map (·.1)).map fun id => { seg := id, lo := 0, hi := wholeSeg, write := true })
    else x.fixedRanges
  if 64 < rs.length ∨ x.wholeQueue = true then ([], true) else (rs, false)

/-- Ranges that a registered command holds in its home tile's table. -/
def Cmd.rangeCost (x : Cmd) : Nat := if x.registered then (if x.whole then 1 else x.ranges.length) else 0

/-- Ranges in use on a tile. -/
def State.rangesUsed (s : State) (t : Nat) : Nat :=
  ((s.cmds.filter fun y => decide (y.home = t)).map Cmd.rangeCost).sum

/-- The commands of the same queue fetched before a command. -/
def State.earlier (s : State) (x : Cmd) : List Cmd := (s.cmds.takeWhile fun y => decide (y.ref ≠ x.ref)).filter fun y => y.q == x.q

/-- Register a command's ranges, if it is its turn and its home tile's 512 ranges leave room. -/
def State.tryRegister (s : State) (x : Cmd) : State :=
  if x.registered ∨ (s.slc x.slice).st = .frozen ∨ (s.earlier x).any (fun y => !y.registered) then s else
  let r := s.rangesOf x
  let y := { x with ranges := r.1, whole := r.2, registered := true }
  if s.rangesUsed x.home + y.rangeCost ≤ 512 then s.onCmd x.ref fun z => { z with ranges := r.1, whole := r.2, registered := true }
  else s

/-- Commands that wait for registration register in fetch order. -/
def State.registerAll (s : State) : State := s.cmds.foldl State.tryRegister s

/-- An earlier command of the queue keeps a command from starting: a barrier or a whole-queue range of either, or conflicting
ranges. -/
def Cmd.blocks (y x : Cmd) : Bool :=
  x.barrier || x.whole || y.barrier || y.whole || x.ranges.any fun a => y.ranges.any fun b => a.conflicts b

/-- Segments and handle that a command names are not about to go (R121, R122). -/
def State.namesHeld (s : State) (x : Cmd) : Bool :=
  (x.segFields.any fun p => (s.seg p.1).freeing.any fun c => decide (c ≠ x.ref)) ||
  (x.op == 0x32 && (tblGet s.images (x.f 4 4) none).any fun i => !i.unloading.isEmpty)

/-- Modes in which commands that have been fetched start (R34). -/
def Mode.runsCommands : Mode → Bool
  | .ready | .service | .degraded | .dusk => true
  | _ => false

/-- The Buckle table and the barriers admit a fetched command. -/
def State.mayStart (s : State) (x : Cmd) : Bool :=
  x.phase == .fetched && x.registered && s.dev.mode.runsCommands && !s.sliceHeld x.slice && !s.namesHeld x &&
  (s.earlier x).all fun y => !y.blocks x

/-- A command leaves the in-flight count: its ranges are free, and a slice command no longer holds its slice (R442). -/
def State.retire (s : State) (c : CmdRef) : State :=
  let s : State := { s with slices := s.slices.map fun e => if e.2.busy = some c then (e.1, { e.2 with busy := none }) else e }
  (s.dropCmd c).registerAll

/-! ### Field checks of QUERY_RUN that read the image (R123, R207, R292) -/

/-- The bytes of a parameter in the binding area, with the chain offset of its first byte. -/
def Cmd.paramAt (x : Cmd) (e : ParamE) : List Byte := cut x.binding (4 * x.nseg + e.off) e.len

/-- What R207 requires of a parameter, by the offset of the offending byte within it. -/
def paramReqs (e : ParamE) (b : List Byte) : List (Bool × Nat) :=
  let k := boolNat e.ty.nullable
  let v := b.drop k
  (!e.ty.nullable || decide (byteAt b 0 ≤ 1), 0) ::
  if e.ty.nullable ∧ byteAt b 0 = 1 then []
  else if e.ty.code = tyBool then [(decide (byteAt v 0 ≤ 1), k)]
  else if e.ty.isDec then [(e.ty.inRange (toSigned 128 (field v 0 16)), k)]
  else if e.ty.isStr then
    let n := field v 0 2
    (decide (n + 2 ≤ v.length), k) ::
      if n + 2 ≤ v.length then (List.range (v.length - 2 - n)).map fun i => (byteAt v (2 + n + i) == 0, k + 2 + n + i) else []
  else []

/-- An EMIT of the image writes to the host result ring (R292). -/
def Img.hasRing (i : Img) : Bool := i.pipes.any fun p => p.sink.kind == kEmit && p.sink.b 0 == 1

/-- The string operands that a filter comparator reads from parameters. -/
def Pipe.strParams (p : Pipe) : List Nat :=
  ((p.op? kFilter).map Op.cmps).getD [] |>.flatMap fun c => [c.a, c.b].filterMap fun x => if 128 ≤ x ∧ x < 192 then some (x - 128) else none

/-- A VARCHAR parameter that a comparator reads holds at most 32 B (R226). -/
def Cmd.cmpReqs (x : Cmd) (i : Img) : List (Bool × Nat) :=
  (i.params.zipIdx.filter fun e => e.1.ty.isStr && i.pipes.any fun p => p.strParams.contains e.2).map fun e =>
    let b := x.paramAt e.1
    let k := boolNat e.1.ty.nullable
    ((e.1.ty.nullable && byteAt b 0 == 1) || decide (field (b.drop k) 0 2 ≤ 32), bindOff (4 * x.nseg + e.1.off + k))

def Cmd.queryReqs (x : Cmd) (img : Option Img) : List (Bool × Nat) :=
  (x.segFields.map fun p => (decide (1 ≤ p.1 ∧ p.1 ≤ maxSegid), p.2)) ++
  match img with
  | none => []
  | some i =>
    [(x.nseg == i.nseg, 10), (x.paramBytes == i.pbytes, 12),
     (if i.hasRing then decide (8192 ≤ x.f 24 4) else x.f 24 4 == 0, 24)] ++
    (i.params.flatMap fun e => (paramReqs e (x.paramAt e)).map fun r => (r.1, bindOff (4 * x.nseg + e.off + r.2)))
      ++ x.cmpReqs i

/-- Check 5 of QUERY_RUN beyond its own fields: made at fetch when the image is installed, and again when it starts. -/
def State.queryFields (s : State) (x : Cmd) : Option Completion :=
  if x.op ≠ 0x32 then none else
  if x.goneImage then some (badField 4) else
  (firstBad (x.queryReqs ((s.image? x.slice (x.f 4 4)).map fun i => Img.ofBytes i.bytes))).map badField

end Sys2Proof.Machine
end

