-- ==== Sys2Proof/Machine/Pipe.lean ====
section
/-! DEFINITION. PIPE_LOAD and PIPE_UNLOAD (R122, R191, R192), and the image store. -/

namespace Sys2Proof.Machine

/-- The image store of a tile (R192). -/
def imageStore : Nat := 268435456

/-- What an installed image takes of each tile's image store (R192). -/
def imageCost (len : Nat) : Nat := alignUp len 4096 + 65536

def State.imageUsed (s : State) (t : Nat) : Nat :=
  (s.images.map fun e => match e.2 with
    | some i => if bit i.tiles t then imageCost i.bytes.length else 0
    | none => 0).sum

/-- Every live tile can hold an image of a length. -/
def State.imageRoom (s : State) (len : Nat) : Bool :=
  s.liveTiles.all fun t => decide (s.imageUsed t.val + imageCost len ≤ imageStore)

def State.liveBits (s : State) : Nat := packBits (allTiles.map s.live)

/-- The lowest handle that is not in use (log 17). -/
def State.freeHandle (s : State) : Option Nat :=
  let used := s.images.map (·.1)
  ((List.range (used.length + 1)).map (· + 1)).find? fun h => decide (h ≤ 65535) && !used.contains h

/-- Install an image under a handle on every live tile. -/
def State.install (s : State) (h slice : Nat) (bs : List Byte) : State :=
  { s with images := tblSet none s.images h (some { bytes := bs, slice := slice, tiles := s.liveBits }) }

/-- IMAGE_MALFORMED with its check and BAD_OFFSET in RESULT [15:12] (R191). -/
def State.badImage (s : State) (c : CmdRef) (detail off : Nat) : State :=
  s.finish c { status := stImageMalformed, detail := detail, result := leBytes 4 0 ++ leBytes 4 off }

def pipeLoadEff (x : Cmd) (src : HostRead) (s : State) : State :=
  let n := (x.dref 8).total
  if n < 64 ∨ maxImage < n then s.badImage x.ref 0x0001 8
  else match src.err with
    | some (e, o) => s.failHost x.ref e (x.stream 8) o o
    | none =>
      let bs := cut src.bytes 0 n
      match imageCheck bs s.presentMask with
      | some (d, o) => s.badImage x.ref d o
      | none =>
        match s.freeHandle with
        | some h =>
          if s.imageRoom n then (s.install h x.slice bs).succeed x.ref (leBytes 4 h) else s.fail x.ref stNoResources 0 0
        | none => s.fail x.ref stNoResources 0 0

/-- PIPE_LOAD (R191, R192). -/
def execPipeLoad (c : CmdRef) (src : HostRead) (s : State) : Res :=
  .next (match s.fresh? c 0x30 with
    | some x => pipeLoadEff x src s
    | none => s)

/-- A command waits to remove the image (R122). -/
def Image.unloadBy (i : Image) (c : CmdRef) : Image := if i.unloading.contains c then i else { i with unloading := c :: i.unloading }

/-- PIPE_UNLOAD: from its start no QUERY_RUN that names the handle starts (R122). -/
def execPipeUnload (c : CmdRef) (s : State) : Res :=
  .next (match s.fresh? c 0x31 with
    | some x =>
      let h := x.f 4 4
      ({ s with images := s.images.map fun e =>
          if e.1 = h then (e.1, e.2.map fun i => i.unloadBy c) else e } : State).onCmd c
        fun y => { y with prog := .unloadWait h }
    | none => s)

/-- A QUERY_RUN that names the handle has started and not completed. -/
def State.handleBusy (s : State) (h : Nat) : Bool :=
  s.cmds.any fun y => y.op == 0x32 && y.phase != .fetched && y.f 4 4 == h

/-- Remove an image from every tile: no Sumen-L core holds its code any longer, what the schedulers learned of its energy goes with
it (R346), and a QUERY_RUN fetched for it that has not started fails, whatever image the handle names later (R122). -/
def State.uninstall (s : State) (h : Nat) : State :=
  let s : State := { s with
    images := tblSet none s.images h none
    cmds := s.cmds.map fun y => if y.phase = .fetched ∧ y.op = 0x32 ∧ y.f 4 4 = h then { y with goneImage := true } else y }
  allTiles.foldl (fun s t => s.onTile t fun x => { x with
    large := x.large |> vecMap fun k => if k.code = some h then { k with code := none } else k
    sched := { x.sched with ratio := x.sched.ratio.filter fun e => decide (e.1 / 32 ≠ h) } }) s

/-- PIPE_UNLOAD_REMOVE (R122): a handle that another removal has freed is unknown. -/
def execPipeUnloadRemove (c : CmdRef) (s : State) : Res :=
  .next (match s.progOp? c 0x31 with
    | some (.unloadWait h) =>
      if (tblGet s.images h none).all fun i => !i.unloading.contains c then s.finish c (badField 4)
      else if s.handleBusy h then s else (s.uninstall h).succeed c []
    | _ => s)

end Sys2Proof.Machine
end

