-- ==== Sys2Proof/Machine/SliceCmd.lean ====
section
/-! DEFINITION. The slice commands SLICE_CREATE to SLICE_THAW (R118, R119, R441 to R443, R451 to R455), and the state image of
SLICE_SAVE (R456 to R458). -/

namespace Sys2Proof.Machine

/-! ### Turns, states and owners -/

/-- The slice that a slice command names. -/
def Cmd.sl (x : Cmd) : Nat := x.f 4 2

/-- Slice commands that name the same slice run one at a time (R442): a command takes the slice when no other holds it. -/
def State.myTurn (s : State) (x : Cmd) : Bool := (s.slc x.sl).busy.all fun c => decide (c = x.ref)

/-- The states from which a slice command runs (R441). -/
def sliceFrom (op : Nat) (st : SliceState) : Bool :=
  match op with
  | 0x10 => st == .free
  | 0x11 => st != .free
  | 0x15 => st == .free || st == .frozen
  | _ => st == .active || st == .frozen

/-- The state of the named slice (R441, R444). -/
def State.sliceStatus (s : State) (x : Cmd) : Option Completion :=
  let st := (s.slc x.sl).st
  if st = .failed ∧ x.op ≠ 0x11 then some { status := stUncorrectable }
  else need (sliceFrom x.op st) (badField 4)

/-- Run a slice command when it is its turn and the slice is in a state that allows it; it then holds the slice until its completion
is written (R442). -/
def State.sliceRun (s : State) (x : Cmd) (f : State → State) : State :=
  if s.myTurn x then
    let s := s.onSlc x.sl fun y => { y with busy := some x.ref }
    match s.sliceStatus x with
    | some k => s.finish x.ref k
    | none => f s
  else s

/-- A PASID is bound to a slice other than `n`. -/
def State.pasidBound (s : State) (p n : Nat) : Bool :=
  s.slices.any fun e => e.1 != 0 && e.1 != n && e.2.st != .free && e.2.pasid == p

/-- The Slice Table entry that SLICE_CREATE asks for. -/
def Cmd.newSlice (x : Cmd) : Slice :=
  { st := .active, pasid := x.f 8 4, gen := 1, qQuota := x.f 12 2, segQuota := x.f 14 4, keyQuota := x.f 18 1
    weight := x.f 19 1, share := x.f 20 2, hbmQuota := x.f 24 8, ddrQuota := x.f 32 8, cxlQuota := x.f 40 8
    ctxAddr := x.f 64 8, ctxLen := x.f 72 4 }

/-- Checks 6 and 8 of SLICE_CREATE (R118, R119, R446). -/
def State.createCheck (s : State) (x : Cmd) : Option Completion :=
  firstFail [s.sliceStatus x, need (!s.pasidBound (x.f 8 4) x.sl) (badField 8),
    need (s.quotasFit x.newSlice) { status := stNoResources }]

/-- Move a segment and its charges to another owner. -/
def State.giveSeg (s : State) (id newOwner : Nat) : State :=
  let g := s.seg id
  let n := g.charged * unitB
  let s := s.onSlc g.slice fun y => ({ y with segUsed := y.segUsed - 1 } : Slice).charge g.tier (· - n)
  let s := s.onSlc newOwner fun y => ({ y with segUsed := y.segUsed + 1 } : Slice).charge g.tier (· + n)
  s.onSeg id fun g => { g with slice := newOwner }

/-- Persistent segments that slice 0 holds for a PASID pass to the slice that binds it, even beyond its quotas (R160, R452). -/
def State.adopt (s : State) (n pasid : Nat) : State :=
  ((s.validSegs.filter fun e => e.2.persistent && e.2.slice == 0 && e.2.ownerPasid == some pasid).map (·.1)).foldl
    (fun s id => s.giveSeg id n) s

def sliceCreateEff (x : Cmd) (s : State) : State :=
  match s.createCheck x with
  | some k => s.finish x.ref k
  | none => ((s.setSlc x.sl { x.newSlice with busy := some x.ref }).adopt x.sl x.newSlice.pasid).succeed x.ref (leBytes 2 1)

/-- SLICE_CREATE (R118, R443). -/
def execSliceCreate (c : CmdRef) (s : State) : Res :=
  .next (match s.fresh? c 0x10 with
    | some x => s.sliceRun x (sliceCreateEff x)
    | none => s)

/-! ### Freeze, reset and thaw -/

/-- The queues of a slice, in rising order. -/
def State.queuesOf (s : State) (n : Nat) : List Nat := (s.queues.filter fun e => decide (e.2.slice = n)).map (·.1)

/-- No PE, codec job or digest lane works for a slice (R453). -/
def State.sliceQuiet (s : State) (n : Nat) : Bool :=
  allTiles.all fun t =>
    let x := s.tile t
    (x.runs.toList.all fun r => r.all fun r => r.slice != n) &&
    (x.codec.all fun j => (s.cmd? j.c).all fun y => y.slice != n) &&
    (x.digest.lanes.all fun l => l.job.all (fun j => j.slice != n) && l.next.all fun j => j.slice != n)

/-- Started QUERY_RUNs of a slice. -/
def State.startedQueries (s : State) (n : Nat) : Nat :=
  (s.cmds.filter fun y => y.slice == n && y.op == 0x32 && y.phase == .started).length

/-- The freeze completes once the slice is quiet. -/
def State.freezeEnd (s : State) (c : CmdRef) (n : Nat) : State :=
  if s.sliceQuiet n then (s.onSlc n fun y => { y with st := .frozen }).succeed c (leBytes 4 (s.startedQueries n)) else s

/-- Stop fetch of a slice for a slice command, which then waits. -/
def State.holdSlice (s : State) (c : CmdRef) (n : Nat) : State :=
  (s.onSlc n fun y => { y with busy := some c, noFetch := true }).onCmd c fun y => { y with prog := .sliceWait n 0 }

/-- SLICE_FREEZE (R453). -/
def execSliceFreeze (c : CmdRef) (s : State) : Res :=
  .next (match s.runningOp? c 0x13 with
    | some x =>
      match x.prog with
      | .idle => s.sliceRun x fun s =>
        if (s.slc x.sl).st = .frozen then s.succeed c (leBytes 4 0) else (s.holdSlice c x.sl).freezeEnd c x.sl
      | .sliceWait n _ => s.freezeEnd c n
      | _ => s
    | none => s)

/-- Steps 1 to 4 of R451: fetch stops, the generation is incremented, every queue of the slice is reset. -/
def State.resetSlice (s : State) (c : CmdRef) (n : Nat) : State :=
  let s := (s.holdSlice c n).onSlc n fun y => { y with gen := nextGen y.gen }
  ((s.queuesOf n).foldl State.resetBegin s).registerAll

/-- Every queue reset of the slice has set RESET_DONE. -/
def State.resetsDone (s : State) (n : Nat) : Bool := (s.queuesOf n).all fun q => !(s.queue q).resetBusy

/-- The end of SLICE_RESET: the slice is ACTIVE. -/
def State.sliceResetEnd (s : State) (c : CmdRef) (n : Nat) : State :=
  if s.resetsDone n then
    (s.onSlc n fun y => { y with st := .active, noFetch := false }).succeed c (leBytes 2 (s.slc n).gen)
  else s

/-- SLICE_RESET (R451). -/
def execSliceReset (c : CmdRef) (s : State) : Res :=
  .next (match s.runningOp? c 0x12 with
    | some x =>
      match x.prog with
      | .idle => s.sliceRun x fun s => (s.resetSlice c x.sl).sliceResetEnd c x.sl
      | .sliceWait n _ => s.sliceResetEnd c n
      | _ => s
    | none => s)

/-- The commands that a saved state carried with END set complete with RETENTION_LOST (R460). -/
def State.finishLost (s : State) (n : Nat) : State :=
  ((s.cmds.filter fun y => y.lost && y.slice == n && y.phase == .fetched).map (·.ref)).foldl
    (fun s c => s.finish c { status := stRetentionLost, detail := 0x0010 }) s

/-- Queues that a saved state found enabled are enabled again. -/
def State.enableRestored (s : State) (n : Nat) : State :=
  ((s.queuesOf n).filter fun q => (s.queue q).restored).foldl
    (fun s q => (s.enableQueue q).onQueue q fun u => { u with restored := false }) s

/-- SLICE_THAW (R455, R460). -/
def execSliceThaw (c : CmdRef) (s : State) : Res :=
  .next (match s.fresh? c 0x16 with
    | some x => s.sliceRun x fun s =>
        if (s.slc x.sl).st = .active then s.succeed c []
        else
          let s := s.onSlc x.sl fun y => { y with st := .active, noFetch := false }
          (((s.finishLost x.sl).registerAll).enableRestored x.sl).succeed c []
    | none => s)

/-! ### SLICE_DESTROY (R452) -/

/-- Segments of a slice. -/
def State.segsOf (s : State) (n : Nat) : List Nat := (s.validSegs.filter fun e => decide (e.2.slice = n)).map (·.1)

def State.handlesOf (s : State) (n : Nat) : List Nat :=
  (s.images.filter fun e => e.2.any fun i => i.slice == n).map (·.1)

def State.keysOf (s : State) (n : Nat) : List Nat :=
  (s.keys.filter fun e => e.2.any fun k => k.slice == n).map (·.1)

/-- From its start no other command that names a segment or handle of the slice starts (R121, R122). -/
def State.condemn (s : State) (c : CmdRef) (n : Nat) : State :=
  { s with
    segs := s.segs.map fun e =>
      if e.2.valid ∧ e.2.slice = n ∧ e.2.persistent = false then (e.1, { e.2 with freeing := some c }) else e
    images := s.images.map fun e => (e.1, e.2.map fun i => if i.slice = n then i.unloadBy c else i) }

/-- The started commands that name the slice's segments or handles have completed. -/
def State.condemnedIdle (s : State) (c : CmdRef) (n : Nat) : Bool :=
  (s.cmds.all fun y => decide (y.ref = c) || y.named.all fun i => !(s.segsOf n).contains i) &&
  (s.handlesOf n).all fun h => !s.handleBusy h

/-- A persistent segment passes to slice 0, another is freed. -/
def State.leaveSeg (s : State) (id : Nat) : State := if (s.seg id).persistent then s.giveSeg id 0 else s.freeSeg id

/-- A queue of a slice that goes is disabled, and its SLICE field is 0. -/
def State.orphanQueue (s : State) (q : Nat) : State :=
  (s.disableQueue q).onQueue q fun u => { u with slice := 0, freshStart := true }

def State.destroyEnd (s : State) (c : CmdRef) (n : Nat) : State :=
  if s.resetsDone n ∧ s.condemnedIdle c n = true then
    let s := (s.queuesOf n).foldl State.orphanQueue s
    let s := (s.segsOf n).foldl State.leaveSeg s
    let s := (s.handlesOf n).foldl State.uninstall s
    let s := (s.keysOf n).foldl State.clearKey s
    (s.setSlc n { busy := some c }).succeed c []
  else s

/-- SLICE_DESTROY (R452). -/
def execSliceDestroy (c : CmdRef) (s : State) : Res :=
  .next (match s.runningOp? c 0x11 with
    | some x =>
      match x.prog with
      | .idle => s.sliceRun x fun s => ((s.resetSlice c x.sl).condemn c x.sl).destroyEnd c x.sl
      | .sliceWait n _ => s.destroyEnd c n
      | _ => s
    | none => s)

/-! ### The state image (R456) -/

def rtSlice : Nat := 1
def rtSegment : Nat := 2
def rtQueue : Nat := 3
def rtKey : Nat := 4
def rtImage : Nat := 5
def rtCommand : Nat := 6

/-- A record: its bytes, and the segment whose data it holds with the store address and offset of its first poisoned byte. -/
structure SaveRec where
  bytes  : List Byte
  data   : Option Nat := none
  poison : Option (Nat × Nat) := none
  deriving DecidableEq, Repr

/-- A record descriptor with its payload, padded (R456). -/
def saveRec (rtype rflags : Nat) (fields payload : List Byte) : List Byte :=
  let d := leBytes 1 rtype ++ leBytes 1 rflags ++ [0, 0]
  let r := leBytes 8 payload.length ++ cut fields 0 48
  d ++ leBytes 4 (crc32c (d ++ [0, 0, 0, 0] ++ r ++ payload)) ++ r ++ cut payload 0 (alignUp payload.length 64)

def saveSlice (y : Slice) : SaveRec :=
  { bytes := saveRec rtSlice 0
      (leBytes 2 y.qQuota ++ leBytes 4 y.segQuota ++ leBytes 1 y.keyQuota ++ leBytes 1 y.weight ++ leBytes 2 y.share ++
        leBytes 6 0 ++ leBytes 8 y.hbmQuota ++ leBytes 8 y.ddrQuota ++ leBytes 8 y.cxlQuota ++ leBytes 8 0)
      (leBytes 8 y.ctxAddr ++ leBytes 4 y.ctxLen ++ leBytes 52 0) }

/-- The data bytes of a segment in an image: all of a raw segment; the fill and the index of a PFC segment. -/
def State.saveData (s : State) (t : Nat) (g : Seg) : List Byte :=
  if g.codec = 1 then s.segBytes t g 0 (s.fill t g) ++ s.indexBytes t g 0 (48 * g.nframes) else s.segBytes t g 0 g.length

/-- The first poisoned byte among them: its offset and store address. -/
def State.savePoison (s : State) (t : Nat) (g : Seg) : Option (Nat × Nat) :=
  let n := if g.codec = 1 then s.fill t g else g.length
  match s.poisonAt t g 0 n with
  | some o => some (o, s.readLoc t g o)
  | none =>
    if g.codec = 1 ∧ s.poison ≠ [] then
      ((List.range (48 * g.nframes)).find? fun i => s.poison.contains (s.indexLoc t g i / 64)).map fun i => (n + i, s.indexLoc t g i)
    else none

def State.saveSeg (s : State) (t id : Nat) (data : Bool) : SaveRec :=
  let g := s.segOn (tid t) id
  let pay := if data then s.saveData t g else []
  { bytes := saveRec rtSegment (boolNat data)
      (leBytes 4 id ++ leBytes 2 g.gen ++ leBytes 1 g.tier ++ leBytes 1 g.placement ++ leBytes 1 g.tiles ++
        leBytes 1 (boolNat g.persistent) ++ leBytes 1 g.codec ++ [0] ++ leBytes 4 g.nframes ++ leBytes 8 g.length ++ leBytes 24 0)
      pay
    data := if data then some id else none
    poison := if data then (if g.fenced then some (64, g.base) else (s.savePoison t g).map fun p => (64 + p.1, p.2)) else none }

def saveQueue (q : Nat) (u : Queue) : SaveRec :=
  { bytes := saveRec rtQueue 0
      (leBytes 2 q ++ leBytes 1 u.cls ++ leBytes 1 u.weight ++ leBytes 1 u.burst ++ leBytes 1 u.depthLog2 ++ leBytes 1 u.home ++
        leBytes 1 u.port ++ leBytes 1 (boolNat u.enable) ++ leBytes 1 (boolNat u.headWrap + 2 * boolNat u.tailWrap) ++
        leBytes 2 u.gen ++ leBytes 2 u.headIx ++ leBytes 2 u.tailIx ++ leBytes 2 u.vector ++ leBytes 1 u.irqCount ++ [0] ++
        leBytes 2 u.irqTime ++ [0, 0] ++ leBytes 8 u.base ++ leBytes 16 0) [] }

def saveKey (n : Nat) (k : KeySlot) : SaveRec :=
  { bytes := saveRec rtKey 0
      (leBytes 1 n ++ leBytes 1 k.alg ++ leBytes 2 k.keyLen ++ leBytes 2 k.wrapped.length ++ leBytes 42 0) k.wrapped }

def saveImage (h : Nat) (i : Image) : SaveRec :=
  { bytes := saveRec rtImage 0 (leBytes 4 h ++ leBytes 4 i.bytes.length ++ leBytes 40 0) i.bytes }

/-- COMMAND record: END for a paused QUERY_RUN (R457), ORDER the rank within the queue. -/
def saveCmd (x : Cmd) (rank : Nat) : SaveRec :=
  { bytes := saveRec rtCommand (boolNat (x.lost || (x.op == 0x32 && x.phase == .started)))
      (leBytes 2 x.q ++ leBytes 2 (x.ref.ix % 65536) ++ leBytes 1 (boolNat x.wrap) ++ leBytes 1 x.entries.length ++ [0, 0] ++
        leBytes 4 rank ++ leBytes 36 0) x.chain }

/-- The COMMAND records of a queue. -/
def State.saveCmds (s : State) (q : Nat) : List SaveRec :=
  ((s.cmdsOf q).filter fun x => x.phase != .done).zipIdx.map fun e => saveCmd e.1 e.2

/-- Whether a SEGMENT record carries data (R458). -/
def saveHasData (dirtyOnly : Bool) (g : Seg) : Bool := !dirtyOnly || g.dirty

/-- The records of an image: PRECOPY for an ACTIVE slice, FULL for a FROZEN one. -/
def State.saveRecs (s : State) (t n : Nat) (dirtyOnly : Bool) : List SaveRec :=
  let y := s.slc n
  saveSlice y :: ((s.segsOf n).map fun i => s.saveSeg t i (saveHasData dirtyOnly (s.seg i))) ++
  if y.st = .frozen then
    (s.queues.filter fun e => decide (e.2.slice = n)).map (fun e => saveQueue e.1 e.2) ++
    (s.keysOf n).filterMap (fun k => (s.keySlot k).map (saveKey k)) ++
    (s.handlesOf n).filterMap (fun h => (tblGet s.images h none).map (saveImage h)) ++
    (s.queuesOf n).flatMap s.saveCmds
  else []

/-- The image header (R456). -/
def saveHeader (y : Slice) (n nrec len : Nat) : List Byte :=
  let a := leBytes 4 0x53564C53 ++ leBytes 2 1 ++ leBytes 1 (boolNat (y.st == .frozen)) ++ [0] ++ leBytes 2 n ++
    leBytes 2 y.gen ++ leBytes 4 y.pasid ++ leBytes 4 nrec ++ leBytes 4 0 ++ leBytes 8 len
  let z := leBytes 28 0
  a ++ leBytes 4 (crc32c (a ++ [0, 0, 0, 0] ++ z)) ++ z

/-- Offsets of the records in an image, each with the record. -/
def recOffsets : Nat → List SaveRec → List (Nat × SaveRec)
  | _, [] => []
  | o, r :: rs => (o, r) :: recOffsets (o + r.bytes.length) rs

/-- DIRTY is cleared on the segments whose copy begins below an image offset (R163). -/
def State.cleanBelow (s : State) (rs : List (Nat × SaveRec)) (m : Nat) : State :=
  rs.foldl (fun s r => match r.2.data with
    | some i => if r.1 + 64 < m then s.onSeg i fun g => { g with dirty := false } else s
    | none => s) s

/-- SLICE_SAVE (R119, R458): nothing is written when the room is too small. -/
def sliceSaveEff (x : Cmd) (wfail : Option Nat) (s : State) : State :=
  let n := x.sl
  let recs := s.saveRecs x.home n (bit x.cflags 0)
  let rs := recOffsets 64 recs
  let body := recs.flatMap (·.bytes)
  let len := 64 + body.length
  let img := saveHeader (s.slc n) n recs.length len ++ body
  if (x.dref 16).total < len then
    s.finish x.ref { status := stInvalidField, errloc := 24, result := leBytes 8 len }
  else
    let p := rs.findSome? fun r => r.2.poison.map fun q => (r.1 + q.1, q.2)
    let m := match p with
      | some q => q.1
      | none => len
    let parts := x.stream 16
    match faultIn m wfail with
    | some o => ((s.cleanBelow rs (o + 1)).dmaOut x parts (img.take m) (some o)).failHost x.ref .translation parts o o
    | none =>
      let s1 := (s.cleanBelow rs (m + 1)).dmaOut x parts (img.take m) none
      match p with
      | some q => s1.failPoison x.ref q.1 q.2
      | none => s1.succeed x.ref (leBytes 8 len ++ leBytes 4 (recs.filter fun r => byteAt r.bytes 0 == rtSegment).length)

def execSliceSave (c : CmdRef) (wfail : Option Nat) (s : State) : Res :=
  .next (match s.fresh? c 0x14 with
    | some x => s.sliceRun x (sliceSaveEff x wfail)
    | none => s)

end Sys2Proof.Machine
end

