-- ==== Sys2Proof/Machine/SliceRestore.lean ====
section
/-! DEFINITION. SLICE_RESTORE (R459, R460): the state image is checked in full in a first pass, and written in a second. -/

namespace Sys2Proof.Machine

/-! ### Reading a state image -/

/-- A record as read: type, flags, descriptor and payload. -/
structure RestRec where
  rtype : Nat
  flags : Nat
  desc  : List Byte
  pay   : List Byte
  deriving DecidableEq, Repr

/-- A descriptor field. -/
def RestRec.f (r : RestRec) (off n : Nat) : Nat := field r.desc off n

/-- Read `n` records; none when they do not end with the bytes, or when a descriptor's CRC or fixed bytes are wrong. -/
def readRecs : Nat → List Byte → Option (List RestRec)
  | 0, bs => if bs.isEmpty then some [] else none
  | n + 1, bs =>
    let d := cut bs 0 64
    let p := field d 8 8
    let span := 64 + alignUp p 64
    if bs.length < span then none else
    let pay := (bs.drop 64).take p
    if crc32c (cut d 0 4 ++ [0, 0, 0, 0] ++ cut d 8 56 ++ pay) ≠ field d 4 4 ∨ field d 2 2 ≠ 0 then none
    else (readRecs n (bs.drop span)).map fun r => { rtype := byteAt d 0, flags := byteAt d 1, desc := d, pay := pay } :: r

/-- Reserved bytes and lengths of a record (table "Record contents"). -/
def RestRec.ok (r : RestRec) : Bool :=
  let zero (lo hi : Nat) : Bool := allZero (cut r.desc lo (hi + 1 - lo))
  let plen := r.pay.length
  match r.rtype with
  | 1 => r.flags == 0 && zero 26 31 && zero 56 63 && plen == 64 && allZero (cut r.pay 12 52)
  | 2 =>
    decide (r.flags ≤ 1) && zero 27 27 && zero 40 63 && decide (r.f 25 1 ≤ 1 ∧ r.f 26 1 ≤ 1 ∧ r.f 22 1 ≤ 2 ∧ r.f 23 1 ≤ 2) &&
    decide (1 ≤ r.f 16 4 ∧ r.f 16 4 ≤ maxSegid ∧ 1 ≤ r.f 32 8 ∧ r.f 32 8 < 2 ^ 44) &&
    (if r.flags = 0 then plen == 0
     else if r.f 26 1 = 0 then plen == r.f 32 8
     else decide (48 * r.f 28 4 ≤ plen))
  | 3 =>
    r.flags == 0 && zero 35 35 && zero 38 39 && zero 48 63 && plen == 0 && decide (1 ≤ r.f 16 2 ∧ r.f 16 2 < 4096) &&
    decide (r.f 24 1 ≤ 1 ∧ r.f 25 1 ≤ 3)
  | 4 => r.flags == 0 && zero 22 63 && plen == r.f 20 2
  | 5 => r.flags == 0 && zero 24 63 && plen == r.f 20 4 && decide (1 ≤ r.f 16 4 ∧ r.f 16 4 ≤ 65535)
  | 6 =>
    decide (r.flags ≤ 1) && zero 22 23 && zero 28 63 && decide (r.f 20 1 ≤ 1) && plen == 64 * r.f 21 1 &&
    decide (1 ≤ r.f 21 1 ∧ r.f 21 1 ≤ 16) && decide (r.f 16 2 < 4096)
  | _ => false

/-- Records stand in RTYPE order. -/
def rtypesRise : List RestRec → Bool
  | a :: b :: r => decide (a.rtype ≤ b.rtype) && rtypesRise (b :: r)
  | _ => true

/-- The header and records of an image; none when its format is wrong (R459). -/
def readState (bs : List Byte) : Option (List RestRec) :=
  let h := cut bs 0 64
  if field h 0 4 ≠ 0x53564C53 ∨ field h 4 2 ≠ 1 ∨ 1 < byteAt h 6 ∨ byteAt h 7 ≠ 0 ∨ field h 20 4 ≠ 0 ∨
      allZero (cut h 36 28) = false ∨ 2 ^ 20 ≤ field h 12 4 ∨
      crc32c (cut h 0 32 ++ [0, 0, 0, 0] ++ cut h 36 28) ≠ field h 32 4 then none
  else match readRecs (field h 16 4) (bs.drop 64) with
    | none => none
    | some rs =>
      let full := byteAt h 6 == 1
      if rs.all RestRec.ok ∧ rtypesRise rs = true ∧ (rs.headD { rtype := 0, flags := 0, desc := [], pay := [] }).rtype = 1 ∧
          (rs.filter fun r => r.rtype == 1).length = 1 ∧ (full || rs.all fun r => decide (r.rtype ≤ 2)) = true then some rs
      else none

/-! ### First pass (R459) -/

def RestRec.slice (r : RestRec) (pasid gen : Nat) : Slice :=
  { st := .frozen, pasid := pasid, gen := gen, noFetch := true, qQuota := r.f 16 2, segQuota := r.f 18 4, keyQuota := r.f 22 1
    weight := r.f 23 1, share := r.f 24 2, hbmQuota := r.f 32 8, ddrQuota := r.f 40 8, cxlQuota := r.f 48 8
    ctxAddr := field r.pay 0 8, ctxLen := field r.pay 8 4 }

/-- A SEGMENT record describes a segment as the map has it. -/
def RestRec.matches (r : RestRec) (g : Seg) (n : Nat) (gen : Bool) : Bool :=
  g.valid && g.slice == n && (!gen || g.gen == r.f 20 2) && g.length == r.f 32 8 && g.tier == r.f 22 1 &&
  g.placement == r.f 23 1 && g.tiles == r.f 24 1

def State.keyRecBad (s : State) (r : RestRec) : Option Completion :=
  match s.unwrapKey r.pay (r.f 18 2) with
  | .error d => some { status := stInvalidField, errloc := 16, detail := d }
  | .ok _ => none

/-- What a record names is held by another slice, or a queue is enabled. -/
def State.recHeld (s : State) (r : RestRec) (n : Nat) : Bool :=
  match r.rtype with
  | 2 => (s.seg (r.f 16 4)).valid && (s.seg (r.f 16 4)).slice != n
  | 3 => let u := s.queue (r.f 16 2); u.enable || (u.slice != n && u.slice != 0)
  | 4 => (s.keySlot (r.f 16 1)).any fun k => k.slice != n
  | 5 => (tblGet s.images (r.f 16 4) none).any fun i => i.slice != n
  | _ => false

/-- The checks of the first pass but for space. -/
def State.restoreCheck (s : State) (x : Cmd) (rs : List RestRec) : Option Completion :=
  let y := s.slc x.sl
  let p := x.f 8 4
  let of (k : Nat) : List RestRec := rs.filter fun r => r.rtype == k
  firstFail [
    firstFail ((of rtKey).map s.keyRecBad),
    s.sliceStatus x,
    need (y.st != .frozen || y.pasid == p) (badField 8),
    need (!s.pasidBound p x.sl) (badField 8),
    need ((of rtSegment).all fun r => r.flags == 1 || r.matches (s.seg (r.f 16 4)) x.sl true)
      { status := stInvalidField, errloc := 16, detail := 0x0021 },
    need (!rs.any fun r => s.recHeld r x.sl) { status := stNoResources }]

/-! ### Second pass (R460); none when a segment, key or image cannot be placed as saved -/

/-- Drop the slice's commands that the restore replaces. -/
def State.dropSliceCmds (s : State) (n : Nat) : State :=
  (s.cmds.filter fun y => y.slice == n).foldl State.abortCmd s

/-- Allocate a segment as saved (R140, R141). -/
def State.restoreAlloc (s : State) (n pasid : Nat) (r : RestRec) : Option State :=
  let tiles := r.f 24 1
  let ts := maskTiles tiles
  let pl := r.f 23 1
  let tier := r.f 22 1
  let persistent := r.f 25 1 == 1
  let g0 : Seg := { tiles := tiles, length := r.f 32 8, placement := pl, codec := r.f 26 1 }
  let placeOk := !ts.isEmpty && (ts.all fun t => s.live (tid t)) &&
    (if pl = 0 then ts.length == 1 else decide (2 ≤ ts.length)) &&
    (tier != 2 || (pl != 2 && ts.all fun t => s.rootPort (tid t))) && (!persistent || (pl == 0 && tier == 2))
  if placeOk = false ∨ s.segQuotaOf n < (s.slc n).segUsed + 1 ∨ s.overTier n tier (g0.chargeUnits * unitB) = true then none
  else match s.pick (s.freeOffsets tiles tier persistent g0.tileUnits) with
    | none => none
    | some u =>
      let base := storeAddr (ts.headD 0) tier (u * unitB)
      let g : Seg := { g0 with
        base := base, valid := true, persistent := persistent, dirty := true, slice := n, allocTick := s.tick
        fidx := if g0.codec = 1 then base + g0.rowUnits * unitB else 0, charged := g0.chargeUnits
        ownerPasid := if persistent then some pasid else none }
      let s := (s.bump.forgetSeg g).setSeg (r.f 16 4) g
      some (s.onSlc n fun y => ({ y with segUsed := y.segUsed + 1 } : Slice).charge tier (· + g.charged * unitB))

/-- Put a SEGMENT record in place: allocated if new, its data written, GEN as saved. DIRTY is set by the allocation and not by the data
(R163). -/
def State.restoreSeg (s : State) (n pasid : Nat) (r : RestRec) : Option State :=
  let id := r.f 16 4
  let old := s.seg id
  let placed := if r.matches old n false then some s else if old.valid then none else s.restoreAlloc n pasid r
  placed.map fun s =>
    let s : State := { (s.onSeg id fun g => { g with gen := r.f 20 2 }) with segGen := tblSet 0 s.segGen id (r.f 20 2) }
    let s :=
      if r.flags = 0 then s
      else if r.f 26 1 = 1 then
        let ix := 48 * r.f 28 4
        let fill := r.pay.length - ix
        ((s.segPut (s.seg id) 0 (r.pay.take fill)).indexStore (s.seg id) 0 (r.pay.drop fill)).onSeg id fun g =>
          { g with nframes := r.f 28 4 }
      else s.segPut (s.seg id) 0 r.pay
    if old.valid = false ∧ r.f 25 1 = 1 then s.dirWrite id else s

/-- The lowest present, unfenced host-role tile (R460). -/
def State.fallbackTile (s : State) : Nat := ((s.liveTiles.find? s.hostRole).map (·.val)).getD 0

/-- Configure a queue as saved (R460). -/
def State.restoreQueue (s : State) (n : Nat) (r : RestRec) : State :=
  let q := r.f 16 2
  let home := if s.live (tid (r.f 22 1)) ∧ r.f 22 1 < 8 then r.f 22 1 else s.fallbackTile
  let port := if s.portUp (tid (r.f 23 1)) = true ∧ r.f 23 1 < 8 then r.f 23 1 else s.fallbackTile
  s.setQueue q { s.queue q with
    slice := n, cls := r.f 18 1 % 4, weight := r.f 19 1, burst := r.f 20 1, depthLog2 := r.f 21 1, home := home, port := port
    enable := false, restored := r.f 24 1 == 1, headWrap := bit (r.f 25 1) 0, tailWrap := bit (r.f 25 1) 1, gen := r.f 26 2
    headIx := r.f 28 2, tailIx := r.f 30 2, vector := r.f 32 2, irqCount := r.f 34 1, irqTime := r.f 36 2, base := r.f 40 8
    freshStart := false, copies := [], stalls := [], ownStall := false }

def State.restoreKey (s : State) (n : Nat) (r : RestRec) : Option State :=
  let have_ := (s.keySlot (r.f 16 1)).isSome
  if have_ = false ∧ s.keyQuotaOf n < (s.slc n).keyUsed + 1 then none
  else match s.unwrapKey r.pay (r.f 18 2) with
    | .ok k => some (s.putKey (r.f 16 1)
        { slice := n, alg := r.f 17 1, k0 := hmacK0 (r.f 17 1) k, keyLen := r.f 18 2, wrapped := r.pay })
    | .error _ => none

def State.restoreImage (s : State) (n : Nat) (r : RestRec) : Option State :=
  let s := s.uninstall (r.f 16 4)
  if s.imageRoom r.pay.length then some (s.install (r.f 16 4) n r.pay) else none

/-- Hold a COMMAND as fetched, with a fresh generation. -/
def State.restoreCmd (s : State) (n : Nat) (r : RestRec) : State :=
  let q : QueueId := ⟨r.f 16 2 % 4096, Nat.mod_lt _ (by decide)⟩
  let u := s.queue q.val
  let c : Cmd :=
    { ref := { q := q, ix := r.f 18 2 }, wrap := r.f 20 1 == 1, entries := chunks 64 r.pay, home := u.home, order := s.order
      slice := n, sgen := (s.slc n).gen, qgen := u.gen, cls := u.cls, registered := false, lost := bit r.flags 0
      ring := u.ring }
  { s with cmds := s.cmds ++ [c], order := s.order + 1 }

/-- Insert a COMMAND record by its saved order. -/
def insertByOrder (r : RestRec) : List RestRec → List RestRec
  | [] => [r]
  | x :: xs => if r.f 24 4 < x.f 24 4 then r :: x :: xs else x :: insertByOrder r xs

/-- Apply a step to each record in turn. -/
def State.forRecs (s : State) (f : State → RestRec → Option State) (rs : List RestRec) : Option State :=
  rs.foldl (fun o r => o.bind fun s => f s r) (some s)

/-- The second pass. -/
def State.restoreApply (s : State) (x : Cmd) (rs : List RestRec) (sgen : Nat) : Option State :=
  let n := x.sl
  let p := x.f 8 4
  let of (k : Nat) : List RestRec := rs.filter fun r => r.rtype == k
  let old := s.slc n
  let owned := s.segsOf n
  let named := (of rtSegment).map fun r => r.f 16 4
  let y0 := (rs.headD { rtype := 0, flags := 0, desc := [], pay := [] }).slice p (nextGen sgen)
  let y := { y0 with
    busy := some x.ref, qUsed := old.qUsed, segUsed := old.segUsed, hbmUsed := old.hbmUsed, ddrUsed := old.ddrUsed
    cxlUsed := old.cxlUsed, keyUsed := old.keyUsed }
  if (s.setSlc n { old with st := .free }).quotasFit y = false then none else
  let s := (s.dropSliceCmds n).setSlc n y
  let s := (owned.filter fun i => !named.contains i).foldl State.freeSeg s
  (s.forRecs (fun s r => s.restoreSeg n p r) (of rtSegment)).bind fun s =>
  let s := s.adopt n p
  let s := (of rtQueue).foldl (fun s r => s.restoreQueue n r) s
  (s.forRecs (fun s r => s.restoreKey n r) (of rtKey)).bind fun s =>
  (s.forRecs (fun s r => s.restoreImage n r) (of rtImage)).map fun s =>
  (((of rtCommand).foldl (fun l r => insertByOrder r l) []).foldl (fun s r => s.restoreCmd n r) s).revoteAll

def sliceRestoreEff (x : Cmd) (src : HostRead) (s : State) : State :=
  let total := (x.dref 16).total
  let badForm : Completion := { status := stInvalidField, errloc := 16, detail := 0x0020 }
  match src.err with
  | some (e, o) => s.failHost x.ref e (x.stream 16) o o
  | none =>
    let bs := cut src.bytes 0 total
    if field bs 24 8 ≠ total then s.finish x.ref { status := stLengthMismatch, errloc := 24 }
    else match readState bs with
      | none => s.finish x.ref badForm
      | some rs =>
        match s.restoreCheck x rs with
        | some k => s.finish x.ref k
        | none =>
          match s.restoreApply x rs (field bs 10 2) with
          | some s2 => s2.succeed x.ref (leBytes 2 (s2.slc x.sl).gen)
          | none => s.fail x.ref stNoResources 0 0

/-- SLICE_RESTORE (R459, R460). -/
def execSliceRestore (c : CmdRef) (src : HostRead) (s : State) : Res :=
  .next (match s.fresh? c 0x15 with
    | some x => s.sliceRun x (sliceRestoreEff x src)
    | none => s)

end Sys2Proof.Machine
end

