-- ==== Sys2Proof/Machine/Start.lean ====
section
/-! DEFINITION. COMMAND_START: checks 6 to 10 of R107, made when the Buckle table admits a command, and what its start fixes
(R110, R121, R132, R188, R210, R243, R248). -/

namespace Sys2Proof.Machine

/-! ### Check 6: names -/

/-- What a lookup saw of an entry's copies: clean reads where nothing else is said. -/
def seenOf (votes : List VoteSeen) (id : Nat) : VoteSeen :=
  (votes.find? fun v => v.segid == id).getD { segid := id, a := .good, b := .good, c := .good }

/-- SEG_FREE of an entry that is already poisoned succeeds whatever its copies hold (R150). -/
def State.freesPoisoned (s : State) (x : Cmd) (id : Nat) : Bool := x.op == 0x21 && (s.seg id).poison

/-- Look up the segments that a command names, each by the vote of its three copies (R148, R149). -/
def State.lookup (s : State) (x : Cmd) (votes : List VoteSeen) : List (Nat × Nat) → State × Option Completion
  | [] => (s, none)
  | (id, _) :: r =>
    let v := s.vote x.t (seenOf votes id)
    if v.2 = false ∧ s.freesPoisoned x id = false then (v.1, some { status := stMapIncoherent })
    else match v.1.segStatus x id (x.op == 0x21) with
      | some k => (v.1, some k)
      | none => v.1.lookup x votes r

/-- The slots of a QUERY_RUN's image with the bound segment and the chain offset of its ID. -/
def Cmd.bound (x : Cmd) (i : Img) : List (SlotE × Nat × Nat) := (i.slots.zip x.segFields).map fun e => (e.1, e.2.1, e.2.2)

/-- Roles of R188. -/
def State.roleReqs (s : State) (x : Cmd) (i : Img) : List (Bool × Nat) :=
  (x.bound i).map fun e =>
    let pfc := e.1.role == 0 || e.1.role == 3
    (((s.segFor x e.2.1).codec == 1) == pfc &&
      (e.1.role != 3 || ((x.segFields.filter fun p => p.1 == e.2.1).length == 1)), e.2.2)

/-- Equal NFRAMES of the columns of each SCAN (R170). -/
def State.framesReqs (s : State) (x : Cmd) (i : Img) : List (Bool × Nat) :=
  i.pipes.flatMap fun p =>
    let h := p.head
    if h.kind = kScan then
      let slots := (List.range (min 8 (h.b 0))).map fun k => h.b (8 + 8 * k)
      let nf (k : Nat) : Nat := (s.segFor x (x.segFields.getD k (0, 0)).1).nframes
      slots.map fun k => (nf k == nf (slots.headD 0), (x.segFields.getD k (0, 0)).2)
    else []

/-! ### Check 7: dictionaries -/

/-- Slots whose dictionary a KFORM CODE key uses (R238). -/
def Img.codeSlots (i : Img) : List Nat :=
  let inf := i.info
  i.pipes.flatMap fun p =>
    let f := inf.getD p.ix default
    p.ops.flatMap fun op =>
      let cols := if op.kind = kProbe then f.mid else f.fin
      (op.keys.filter fun k => k.2 == 1).map fun k => ((cols.getD k.1 default).ty).comp

/-- The dictionaries of a run (R182, R238). -/
def State.dictStatus (s : State) (x : Cmd) (i : Img) : Option Completion :=
  let codes := i.codeSlots
  firstFail (((x.bound i).zipIdx).map fun e =>
    let g := s.segFor x e.1.2.1
    if e.1.1.role = 1 then
      firstFail [
        need ((s.poisonAt x.home g 0 g.length).isNone) { status := stUncorrectable },
        need (s.dictOk x.home g) { status := stInvalidField, errloc := e.1.2.2, detail := 0x0010 },
        need (!codes.contains e.2 || s.dictSorted x.home g) { status := stInvalidField, errloc := e.1.2.2, detail := 0x0011 }]
    else none)

/-! ### Check 8: reservations of a query (R248, R275, R544) -/

/-- The tile set of each pipeline's sink, and the working SRAM and spill of the image on a tile. -/
def Img.sramOn (i : Img) (sets : List Nat) (t : Nat) : Nat :=
  (i.pipes.map fun p => if bit (sets.getD p.ix 0) t then p.sink.sramBytes else 0).sum

/-- Spill charges: tile, tier, bytes. -/
def Img.spills (i : Img) (sets : List Nat) : List (Nat × Nat × Nat) :=
  i.pipes.flatMap fun p =>
    match p.sink.spill with
    | some sp => (maskTiles (sets.getD p.ix 0)).map fun t => (t, sp.1, sp.2)
    | none => []

/-- The bound of R248 on a tile, lowered by 3 MiB for each retired bank (R328). -/
def State.sramBound (s : State) (t : Nat) : Nat := maxSram - 3 * 1048576 * (s.tile (tid t)).err.retired.length

def State.sramFree (s : State) (t : Nat) : Nat := s.sramBound t - (s.queries.map fun q => q.sram.getD t 0).sum

/-- Spill bytes charged on a tier of a tile. -/
def spillOn (l : List (Nat × Nat × Nat)) (t tier : Nat) : Nat := ((l.filter fun r => r.1 == t && r.2.1 == tier).map fun r => r.2.2).sum

/-- The space of a tier of a tile takes a query's spill beside what segments and other queries hold. -/
def State.spillFits (s : State) (l : List (Nat × Nat × Nat)) (t tier : Nat) : Bool :=
  let held := ((s.usedUnits t tier).map (·.2)).sum * unitB
  let other := (s.queries.map fun q => spillOn q.charged t tier).sum
  spillOn l t tier == 0 || decide (held + other + spillOn l t tier ≤ s.tierTotal t tier * unitB)

def State.spillStatus (s : State) (x : Cmd) (l : List (Nat × Nat × Nat)) : Option Completion :=
  let sum (tier : Nat) : Nat := ((l.filter fun r => r.2.1 == tier).map fun r => r.2.2).sum
  firstFail [
    need (!s.overTier x.slice 0 (sum 0) && !s.overTier x.slice 1 (sum 1)) { status := stQuota },
    need ((List.range 8).all fun t => s.spillFits l t 0 && s.spillFits l t 1) { status := stNoResources }]

/-! ### Checks 5 to 8 by opcode -/

/-- Checks 6 to 8 beyond the names of segments. -/
def State.objectCheck (s : State) (x : Cmd) : Option Completion :=
  let g := s.segFor x (x.f 4 4)
  match x.op with
  | 0x01 => s.identifyCheck x
  | 0x10 => s.createCheck x
  | 0x11 | 0x12 | 0x13 | 0x14 | 0x16 => s.sliceStatus x
  | 0x15 => firstFail [s.sliceStatus x,
      need (!s.pasidBound (x.f 8 4) x.sl && ((s.slc x.sl).st != .frozen || (s.slc x.sl).pasid == x.f 8 4)) (badField 8)]
  | 0x20 => s.allocCheck x
  | 0x22 => firstFail [need (g.codec == 0) (badField 4), s.rangeStatus g (x.f 8 8) (x.dref 16).total]
  | 0x23 => s.rangeStatus g (x.f 8 8) (x.dref 16).total
  | 0x24 => s.copyCheck x
  | 0x25 => need (x.f 4 4 == 0 || g.persistent) (badField 4)
  | 0x26 => s.ownerStatus x.slice (s.queue (x.f 4 2)).slice
  | 0x31 => s.handleStatus x.slice (x.f 4 4) 4
  | 0x41 => s.hmacCheck x
  | 0x50 | 0x51 => s.codecCheck x
  | 0x60 | 0x61 => s.keyCheck x
  | _ => none

/-- Checks 6 to 8 of QUERY_RUN beyond the names of segments. -/
def State.queryObjects (s : State) (x : Cmd) (i : Img) : Option Completion :=
  firstFail [
    (firstBad (s.roleReqs x i)).map badField,
    (firstBad (s.framesReqs x i)).map badField,
    firstFail ((x.bound i).map fun e => let g := s.segFor x e.2.1; s.rangeStatus g 0 g.length),
    firstFail ((x.bound i).map fun e => let g := s.segFor x e.2.1; s.indexStatus g (if e.1.role = 3 then g.indexCap else g.nframes)),
    s.dictStatus x i,
    s.spillStatus x (i.spills (sinkSets i s.liveBits s.liveBits))]

/-! ### Check 9: lists (R110, R292, R426) -/

/-- How many lists a command fetches. -/
def State.listCount (s : State) (x : Cmd) : Nat :=
  match x.op with
  | 0x40 | 0x41 => 1
  | 0x32 => if (s.img? (x.f 4 4)).any Img.hasRing then 1 else 0
  | _ => x.sglFields.length

/-- The control page of the result ring (R292). -/
def ringStatus (x : Cmd) (r : HostRead) : Option Completion :=
  match r.err with
  | some (e, o) => some { status := hostStatus e, faddr := x.f 16 8 + o }
  | none =>
    let p := cut r.bytes 0 4096
    need (field p 0 8 == 0 && field p 64 8 == 0 && allZero (cut p 8 56) && decide (byteAt p 72 ≤ 1) && allZero (cut p 73 4023))
      { status := stInvalidField, errloc := 16, detail := 0x0040 }

def State.listStatus (s : State) (x : Cmd) (fetched : List HostRead) : Option Completion :=
  match x.op with
  | 0x40 | 0x41 => s.fragCheck x (fetched.headD {})
  | 0x32 => if (s.img? (x.f 4 4)).any Img.hasRing then ringStatus x (fetched.headD {}) else none
  | _ => firstFail ((x.sglFields.zip fetched).map fun p => (x.dref p.1).check p.1 p.2)

/-! ### Check 10: units -/

/-- The image calls a UDF on a Sumen-L core (R233). -/
def Img.callsLarge (i : Img) (p : Pipe) : Bool :=
  (p.op? kCompute).isSome && (match p.formula with
    | some f => f.words.any fun w =>
        let u := Uop.ofWord w
        u.opc == 0x50 && ((udfDesc i u.imm).any fun d => byteAt d 8 == 1)
    | none => false)

/-- A live tile has a Sumen-L core that is not fenced. -/
def State.hasLarge (s : State) (t : TileId) : Bool := s.live t && ((s.tile t).err.fence.sl % 16 != 15)

def State.unitOk (s : State) (x : Cmd) : Bool :=
  match x.op with
  | 0x04 => !s.fencedT 0 && !s.update.active
  | 0x05 => s.dev.mode.serving && !s.update.active
  | 0x40 | 0x41 => (s.digestTile x.t).isSome
  | 0x50 | 0x51 => (s.codecTile x.t).isSome
  | 0x32 =>
    match s.img? (x.f 4 4) with
    | none => true
    | some i =>
      (i.pipes.all fun p => p.sink.kind != kExchange || (p.sink.b 4 &&& s.liveBits) != 0) &&
      (!(i.pipes.any fun p => p.sink.kind == kEmit && p.sink.b 0 == 0) || (s.codecTile x.t).isSome) &&
      (!(i.pipes.any i.callsLarge) || s.liveTiles.any s.hasLarge) &&
      (!(i.pipes.any fun p => p.sink.kind == kSort || p.sink.kind == kTopk) ||
        s.liveTiles.any fun t => !(s.tile t).err.fence.sort)
  | _ => true

/-! ### Start -/

/-- The lists that a command keeps, as fetched. -/
def Cmd.keptLists (x : Cmd) (fetched : List HostRead) : List (List Byte) :=
  match x.op with
  | 0x40 | 0x41 => [cut (fetched.headD {}).bytes 0 (16 * x.f 24 2)]
  | 0x32 => [cut (fetched.headD {}).bytes 0 4096]
  | _ => (x.sglFields.zip fetched).map fun p => cut p.2.bytes 0 (16 * (x.dref p.1).ndesc)

/-- Segments named by a command that starts: those of its fields, those of its fragments, the scope of a flush. -/
def State.namedBy (s : State) (x : Cmd) (lists : List (List Byte)) : List Nat :=
  match x.op with
  | 0x40 | 0x41 => ((fragsOf (lists.headD [])).map fun f => f.2.2).filter fun i => i != 0
  | 0x25 => s.flushScope x
  | _ => x.segFields.map (·.1)

/-- The query of a QUERY_RUN as its start fixes it: bindings, frames (R210), effective masks (R243), reservations (R248). -/
def State.newQuery (s : State) (x : Cmd) (i : Img) : Query :=
  let sets := sinkSets i s.liveBits s.liveBits
  { qid := x.qid, c := x.ref, home := x.home, handle := x.f 4 4, image := i.bytes, slice := x.slice, sgen := x.sgen
    qgen := x.qgen, prio := x.f 8 1, segs := x.segFields.map (·.1), params := cut x.binding (4 * x.nseg) x.paramBytes
    frames := x.segFields.map fun p => (s.segFor x p.1).nframes
    results := (x.bound i).filterMap fun e => if e.1.role = 3 then some e.2.1 else none
    sets := sets
    masks := i.pipes.map fun p => if p.sink.kind = kExchange then p.sink.b 4 &&& s.liveBits else 0
    resolved := [], pipes := [], charged := i.spills sets, sram := (List.range 8).map (i.sramOn sets)
    ringAddr := x.f 16 8, ringLen := x.f 24 4 }

def State.startQuery (s : State) (x : Cmd) (i : Img) : State :=
  let q := s.newQuery x i
  let s := q.charged.foldl (fun s r => s.onSlc q.slice fun y => y.charge r.2.1 (· + r.2.2)) s
  ({ s with queries := s.queries ++ [q] } : State).onCmd x.ref fun y => { y with prog := .query q.qid }

/-- The command starts. -/
def State.startCmd (s : State) (x : Cmd) (fetched : List HostRead) : State :=
  let lists := x.keptLists fetched
  let named := s.namedBy x lists
  let s := s.onCmd x.ref fun y => { y with
    phase := .started, lists := lists, named := named, prog := if x.op = 0x26 then s.fenceProg x else .idle }
  match x.op with
  | 0x21 => s.noteSeg (x.f 4 4) fun g => { g with freeing := some x.ref }
  | 0x31 =>
    { s with images := s.images.map fun e =>
        if e.1 = x.f 4 4 then (e.1, e.2.map fun i => i.unloadBy x.ref) else e }
  | 0x32 =>
    match s.img? (x.f 4 4) with
    | some i => (s.startQuery x i).revoteAll
    | none => s
  | _ => s

/-- Segments of the fragments of a digest that a SEG_FREE which has started is about to free: the digest is held (R121). -/
def State.freeingFrags (s : State) (x : Cmd) (fetched : List HostRead) : List Nat :=
  if x.op = 0x40 ∨ x.op = 0x41 then
    (s.namedBy x (x.keptLists fetched)).filter fun id => (s.seg id).freeing.any fun c => decide (c ≠ x.ref)
  else []

/-- Checks 9 and 10, then the start; the command waits while a list that it needs has not been fetched, or a segment of its fragments
is about to go. -/
def State.lastChecks (s : State) (x : Cmd) (fetched : List HostRead) : State :=
  if fetched.length ≠ s.listCount x then s
  else match s.listStatus x fetched with
    | some k => s.finish x.ref k
    | none =>
      let held := s.freeingFrags x fetched
      if held ≠ [] then s.onCmd x.ref fun y => { y with held := held }
      else if s.unitOk x then s.startCmd x fetched else s.fail x.ref stUnavailable 0 0

/-- Checks 6 to 10 of a command that is no QUERY_RUN. -/
def State.plainStart (s : State) (x : Cmd) (fetched : List HostRead) (votes : List VoteSeen) : State :=
  let v := s.lookup x votes x.segFields
  match firstFail [v.2, v.1.objectCheck x] with
  | some k => v.1.finish x.ref k
  | none => v.1.lastChecks x fetched

/-- Checks 5 to 10 of QUERY_RUN; working SRAM that is not free now makes it wait at check 8 (R248). -/
def State.queryStart (s : State) (x : Cmd) (fetched : List HostRead) (votes : List VoteSeen) : State :=
  match s.queryFields x with
  | some k => s.finish x.ref k
  | none =>
    let v := s.lookup x votes x.segFields
    match firstFail [v.2, v.1.handleStatus x.slice (x.f 4 4) 4] with
    | some k => v.1.finish x.ref k
    | none =>
      match v.1.img? (x.f 4 4) with
      | none => v.1
      | some i =>
        match v.1.queryObjects x i with
        | some k => v.1.finish x.ref k
        | none =>
          let sets := sinkSets i v.1.liveBits v.1.liveBits
          if (List.range 8).any fun t => decide (v.1.sramBound t < i.sramOn sets t) then v.1.finish x.ref { status := stNoResources }
          else if (List.range 8).all fun t => decide (i.sramOn sets t ≤ v.1.sramFree t) then v.1.lastChecks x fetched
          else v.1

/-- A pipeline image is withdrawn on a tile until PIPE_UNLOAD (R327). -/
def State.withdraw (s : State) (h t : Nat) : State :=
  { s with images := s.images.map fun e => if e.1 = h then (e.1, e.2.map fun i => { i with withdrawn := i.withdrawn ||| 2 ^ t }) else e }

/-- An ECC error of a structure that a command's start reads (R327): a corrected one is logged; a lost entry of the Buckle table or the
prefetch buffer fails the command, and a lost image is withdrawn on the home tile. The Boolean says whether the command goes on. -/
def State.startEcc (s : State) (x : Cmd) : Option (EccUnit × ScrubResult) → State × Bool
  | some (_, .corrected) => (s.logCorrected (tid x.home) (errRec evEccCorrected 0), true)
  | some (.imageStore, .uncorrectable) =>
    if x.op = 0x32 then
      ((s.logErr (tid x.home) (x.errRecord evEccUncorrectable stUncorrectable 0)).withdraw (x.f 4 4) x.home, true)
    else (s, true)
  | some (_, .uncorrectable) =>
    ((s.logErr (tid x.home) (x.errRecord evEccUncorrectable stUncorrectable 0)).finish x.ref { status := stUncorrectable }, false)
  | _ => (s, true)

/-- COMMAND_START (R107). A command from a queue of a FAILED slice fails with UNCORRECTABLE_MEMORY (R444). -/
def execCommandStart (c : CmdRef) (fetched : List HostRead) (seen : StartSeen) (s : State) : Res :=
  .next (match s.cmd? c with
    | some x =>
      if s.mayStart x then
        let e := s.startEcc x seen.ecc
        if e.2 = false then e.1
        else if (e.1.slc x.slice).st = .failed then e.1.finish c { status := stUncorrectable }
        else if x.op = 0x32 then e.1.queryStart x fetched seen.votes
        else e.1.plainStart x fetched seen.votes
      else s
    | none => s)

end Sys2Proof.Machine
end

