-- ==== Sys2Proof/Machine/QueryEnv.lean ====
section
/-! DEFINITION. What a running pipeline sees: parameters and constants (R195, R206), strings, the resolution of comparators on
dictionary codes (R218, R219), the filter tree (R222 to R228), frame pruning (R214, R215) and COMPUTE (R229 to R233). -/

namespace Sys2Proof.Machine

/-- A failure that a query reports (R231): status, DETAIL, pipeline and operator, the store address
of lost data, and the segment of a frame that fails its checks. -/
structure QFail where
  status : Nat
  detail : Nat
  pipe   : Nat
  op     : Nat
  addr   : Option Nat := none
  seg    : Nat := 0
  deriving DecidableEq, Repr

/-- The surroundings of one morsel: image, pipeline, its columns, its query, and the tile whose unit reads. -/
structure QEnv where
  img    : Img
  p      : Pipe
  info   : PInfo
  q      : Query
  params : List Val
  t      : Nat
  at_    : MorselAt
  deriving DecidableEq, Repr

/-! ### Parameters and operands -/

/-- The value of a parameter (R206, R207). -/
def paramVal (e : ParamE) (b : List Byte) : Val :=
  if e.ty.nullable ∧ byteAt b 0 = 1 then .null
  else
    let v := b.drop (boolNat e.ty.nullable)
    if e.ty.isStr then .str (cut v 2 (field v 0 2)) else e.ty.ofFixed (v.take e.ty.bytes)

def Img.paramVals (i : Img) (params : List Byte) : List Val := i.params.map fun e => paramVal e (cut params e.off e.len)

/-- A constant or a parameter named by an operand byte (R195). -/
def fixedVal (p : Pipe) (params : List Val) (x : Nat) : Val :=
  if x < 128 then ((p.consts[x - 64]?).map (·.val)).getD .null else params.getD (x - 128) .null

def fixedTy (i : Img) (p : Pipe) (x : Nat) : Ty :=
  if x < 128 then ((p.consts[x - 64]?).map (·.ty)).getD default else ((i.params[x - 128]?).map (·.ty)).getD default

/-! ### Resolution (R218) -/

/-- The least code from `lo` on, below `hi`, whose string is not less than `x`, by binary search. -/
def State.lowerF (s : State) (t : Nat) (g : Seg) (x : List Byte) : Nat → Nat → Nat → Nat
  | 0, lo, _ => lo
  | fuel + 1, lo, hi =>
    if hi ≤ lo then lo
    else
      let m := (lo + hi) / 2
      if cmpBytes (s.dictStr t g m) x = .lt then s.lowerF t g x fuel (m + 1) hi else s.lowerF t g x fuel lo m

def State.lowerBound (s : State) (t : Nat) (g : Seg) (x : List Byte) : Nat := s.lowerF t g x 25 0 (s.dictCount t g)

/-- The least code whose string is greater than `x`. -/
def State.upperBound (s : State) (t : Nat) (g : Seg) (x : List Byte) : Nat :=
  let k := s.lowerBound t g x
  if k < s.dictCount t g ∧ s.dictStr t g k = x then k + 1 else k

/-- The codes whose string equals `x`: one at most with SORTED set, all with SORTED clear. -/
def State.codesOf (s : State) (t : Nat) (g : Seg) (x : List Byte) : List Nat :=
  if s.dictSorted t g then
    let k := s.lowerBound t g x
    if k < s.dictCount t g ∧ s.dictStr t g k = x then [k] else []
  else (List.range (s.dictCount t g)).filter fun k => s.dictStr t g k == x

/-- p with trailing FF bytes removed and its last byte then incremented; none when nothing is left. -/
def nextPattern (p : List Byte) : Option (List Byte) :=
  match (p.reverse.dropWhile (· == 0xFF)) with
  | [] => none
  | b :: r => some (((b + 1) :: r).reverse)

/-- Resolve a comparator whose operands are strings `a` and `b` and whose list is `l`. -/
def State.resolveStr (s : State) (t : Nat) (g : Seg) (op : Nat) (a b : List Byte) (l : List (List Byte)) : Resolved :=
  let n := s.dictCount t g
  let sorted := s.dictSorted t g
  match op with
  | 0x01 | 0x02 =>
    let cs := s.codesOf t g a
    if cs.length ≤ 1 then .codes cs else .strings
  | 0x08 =>
    let css := l.map (s.codesOf t g)
    if css.all fun c => decide (c.length ≤ 1) then .codes css.flatten else .strings
  | 0x03 => if sorted then .range 0 (s.lowerBound t g a) else .strings
  | 0x04 => if sorted then .range 0 (s.upperBound t g a) else .strings
  | 0x05 => if sorted then .range (s.upperBound t g a) n else .strings
  | 0x06 => if sorted then .range (s.lowerBound t g a) n else .strings
  | 0x07 => if sorted then .range (s.lowerBound t g a) (s.upperBound t g b) else .strings
  | 0x10 =>
    if sorted then
      .range (s.lowerBound t g a) (match nextPattern a with
        | some p => s.lowerBound t g p
        | none => n)
    else .strings
  | _ => .strings

/-- Resolve one comparator of a pipeline. -/
def State.resolve (s : State) (i : Img) (p : Pipe) (info : PInfo) (q : Query) (params : List Val) (c : Cmp) : Resolved :=
  let t := info.lanes.getD c.lane default
  if !t.isStr || c.op == 0x09 || c.op == 0x0A then .plain
  else if t.heap then .strings
  else
    s.resolveStr q.home (s.slotSeg q t.comp) c.op (plainStr (fixedVal p params c.a)) (plainStr (fixedVal p params c.b))
      ((inList i.aux t c).map plainStr)

def Pipe.cmps (p : Pipe) : List Cmp := ((p.op? kFilter).map Op.cmps).getD []

/-- The resolution of every comparator of every pipeline (R218). -/
def State.resolveAll (s : State) (i : Img) (q : Query) : List (List Resolved) :=
  let ps := i.paramVals q.params
  (i.pipes.zip i.info).map fun e => e.1.cmps.map (s.resolve i e.1 e.2 q ps)

/-! ### Comparators (R219, R223, R224, R228) -/

/-- Where the bytes of a string lie: slot, first byte and length in the segment; none where the value has no string (R219). -/
def State.strPlace (s : State) (t : Nat) (q : Query) : Val → Option (Nat × Nat × Nat)
  | .code c k =>
    let g := s.slotSeg q k
    if s.dictCount t g ≤ c then none
    else some (k, s.dictHeap t g + s.dictOffs t g c, s.dictOffs t g (c + 1) - s.dictOffs t g c)
  | .desc d k => if (s.slotSeg q k).length < bits d 47 0 + bits d 63 48 then none else some (k, bits d 47 0, bits d 63 48)
  | _ => none

/-- Whether `n` bytes of a segment from `off` on are lost to a running query: the segment has been fenced (R164), or a byte is poisoned,
whose store address it gives (R330). -/
def State.lostAt (s : State) (t : Nat) (g : Seg) (off n : Nat) : Option (Option Nat) :=
  if g.fenced then some none else (s.poisonAt t g off n).map fun o => some (s.readLoc t g (off + o))

/-- What is lost among the bytes `[off, off + n)` of a value's string and the dictionary entries that lead to it. -/
def State.strPoison (s : State) (t : Nat) (q : Query) (v : Val) (off n : Nat) : Option (Option Nat) :=
  match v with
  | .code c k =>
    let g := s.slotSeg q k
    ((s.lostAt t g 0 32).orElse fun _ => if s.dictCount t g ≤ c then none else s.lostAt t g (32 + 4 * c) 8).orElse fun _ =>
      match s.strPlace t q v with
      | some (_, a, _) => s.lostAt t g (a + off) n
      | none => none
  | _ => match s.strPlace t q v with
    | some (k, a, _) => s.lostAt t (s.slotSeg q k) (a + off) n
    | none => none

/-- The codes whose strings a binary search for `x` reads. -/
def State.searchF (s : State) (t : Nat) (g : Seg) (x : List Byte) : Nat → Nat → Nat → List Nat
  | 0, _, _ => []
  | fuel + 1, lo, hi =>
    if hi ≤ lo then []
    else
      let m := (lo + hi) / 2
      m :: if cmpBytes (s.dictStr t g m) x = .lt then s.searchF t g x fuel (m + 1) hi else s.searchF t g x fuel lo m

/-- What is lost of the dictionary in slot `k` that the resolution of strings reads (R218, R330): with SORTED set the header and the
strings that the searches visit, with SORTED clear its offsets and heap. -/
def State.dictLost (s : State) (q : Query) (k : Nat) (xs : List (List Byte)) : Option (Option Nat) :=
  let t := q.home
  let g := s.slotSeg q k
  (s.lostAt t g 0 32).orElse fun _ =>
    let n := s.dictCount t g
    if s.dictSorted t g then
      xs.findSome? fun x =>
        (s.searchF t g x 25 0 n ++ [s.lowerBound t g x]).findSome? fun c => s.strPoison t q (.code c k) 0 (s.dictStr t g c).length
    else
      (s.lostAt t g 32 (4 * (n + 1))).orElse fun _ => s.lostAt t g (s.dictHeap t g) (s.dictOffs t g n)

/-- The operands whose strings the resolution of a comparator looks up. -/
def lookedUp (c : Cmp) (a b : List Byte) (l : List (List Byte)) : List (List Byte) :=
  match c.op with
  | 0x07 => [a, b]
  | 0x08 => l
  | 0x10 => a :: (nextPattern a).toList
  | _ => [a]

/-- The failure of a pipeline's resolution that meets lost data. -/
def State.resolveLost (s : State) (i : Img) (p : Pipe) (info : PInfo) (q : Query) (params : List Val) : Option QFail :=
  ((p.op? kFilter).map Op.cmps |>.getD []).findSome? fun c =>
    let t := info.lanes.getD c.lane default
    if !t.isStr || t.heap || c.op == 0x09 || c.op == 0x0A || decide (0x11 ≤ c.op) then none
    else
      (s.dictLost q t.comp (lookedUp c (plainStr (fixedVal p params c.a)) (plainStr (fixedVal p params c.b))
        ((inList i.aux t c).map plainStr))).map fun a =>
          { status := stUncorrectable, detail := 0, pipe := p.ix, op := p.opIx kFilter, addr := a : QFail }

/-- The part of a string of length `n` that the matcher examines against patterns of the given lengths: offset and length (R228). -/
def examined (op n : Nat) (ms : List Nat) : Nat × Nat :=
  match op with
  | 0x01 | 0x02 | 0x08 => (0, if ms.contains n then n else 0)
  | 0x10 => (0, min n (ms.headD 0))
  | 0x11 => (n - min n (ms.headD 0), min n (ms.headD 0))
  | 0x12 => (0, n)
  | _ => (0, min n 33)

def hasSub (a : List Byte) : List Byte → Bool
  | [] => a.isEmpty
  | b :: v => a.isPrefixOf (b :: v) || hasSub a v

/-- A comparison holds on ordered values. -/
def ordHolds (op : Nat) (a : Ordering) (b : Ordering) : Bool :=
  match op with
  | 0x01 => a == .eq
  | 0x02 => a != .eq
  | 0x03 => a == .lt
  | 0x04 => a != .gt
  | 0x05 => a == .gt
  | 0x06 => a != .lt
  | _ => a != .lt && b != .gt

/-- A string comparator on the bytes `v`. -/
def strHolds (op : Nat) (v a b : List Byte) (l : List (List Byte)) : Bool :=
  match op with
  | 0x08 => l.contains v
  | 0x10 => a.isPrefixOf v
  | 0x11 => a.isSuffixOf v
  | 0x12 => hasSub a v
  | _ => ordHolds op (cmpBytes v a) (cmpBytes v b)

/-- A comparator on a code (R219). -/
def codeHolds (op : Nat) (r : Resolved) (c : Nat) : Bool :=
  match r with
  | .codes cs => if op = 0x02 then !cs.contains c else cs.contains c
  | .range lo hi => decide (lo ≤ c ∧ c < hi)
  | _ => false

/-- The three-valued result of a comparator on a lane value; what is lost where its string is. -/
def State.cmpEval (s : State) (e : QEnv) (c : Cmp) (r : Resolved) (v : Val) : Except (Option Nat) (Option Bool) :=
  let t := e.info.lanes.getD c.lane default
  if c.op = 0x09 then .ok (some v.isNull)
  else if c.op = 0x0A then .ok (some (!v.isNull))
  else
    let a := fixedVal e.p e.params c.a
    let b := fixedVal e.p e.params c.b
    if v.isNull ∨ (c.op ≠ 0x08 ∧ a.isNull) ∨ (c.op = 0x07 ∧ b.isNull) then .ok none
    else if !t.isStr then
      let l := if c.op = 0x08 then inList e.img.aux t c else []
      .ok (some (if c.op = 0x08 then l.any fun x => cmpVal t v t x == .eq
        else ordHolds c.op (cmpVal t v (fixedTy e.img e.p c.a) a) (cmpVal t v (fixedTy e.img e.p c.b) b)))
    else match r with
      | .codes _ | .range _ _ => .ok (some (codeHolds c.op r v.int!.toNat))
      | _ =>
        match s.strPlace e.t e.q v with
        | none => .ok none
        | some pl =>
          let l := (inList e.img.aux t c).map plainStr
          let ms := if c.op = 0x08 then l.map (·.length) else [(plainStr a).length]
          let x := examined c.op pl.2.2 ms
          match s.strPoison e.t e.q v x.1 x.2 with
          | some ad => .error ad
          | none => .ok (some (strHolds c.op (s.strBytes e.t e.q v) (plainStr a) (plainStr b) l))

/-- The value of a comparator or node of the tree (R222). -/
def treeVal (cv nv : List (Option Bool)) (x : Nat) : Option Bool :=
  if x < 16 then (cv.getD x none) else nv.getD (x - 16) none

def nodeVals (cv : List (Option Bool)) : List (Nat × Nat × Nat) → List (Option Bool) → List (Option Bool)
  | [], nv => nv
  | (k, a, b) :: r, nv =>
    let x := treeVal cv nv a
    let y := treeVal cv nv b
    nodeVals cv r (nv ++ [match k with
      | 1 => and3 x y
      | 2 => or3 x y
      | _ => not3 x])

/-- Collect results, or the first error. -/
def allOk {α β ε : Type} (f : α → Except ε β) : List α → Except ε (List β)
  | [] => .ok []
  | x :: xs => match f x with
    | .error e => .error e
    | .ok y => match allOk f xs with
      | .error e => .error e
      | .ok ys => .ok (y :: ys)

/-- The predicate of a row (R224, R227): every comparator is evaluated. -/
def State.predicate (s : State) (e : QEnv) (row : Row) : Except (Option Nat) (Option Bool) :=
  match e.p.op? kFilter with
  | none => .ok (some true)
  | some op =>
    let rs := e.q.resolved.getD e.p.ix []
    match allOk (fun (c : Cmp × Nat) => s.cmpEval e c.1 (rs.getD c.2 .plain) (row.getD c.1.lane .null)) op.cmps.zipIdx with
    | .error a => .error a
    | .ok cv => .ok (treeVal cv (nodeVals cv op.nodes []) (op.b 2))

/-! ### Pruning (R214, R215) -/

/-- Comparators reachable from the root through AND nodes only. -/
def andLeaves (nodes : List (Nat × Nat × Nat)) : Nat → Nat → List Nat
  | 0, _ => []
  | fuel + 1, x =>
    if x < 16 then [x]
    else match nodes[x - 16]? with
      | some (1, a, b) => andLeaves nodes fuel a ++ andLeaves nodes fuel b
      | _ => []

/-- The least or greatest value that a header records, as a value of the lane. -/
def hdrVal (t : Ty) (w : Nat) : Val := t.ofImage (if t.width = 128 then ofSigned 128 (s64 w) else w)

/-- The rules that compare with MIN and MAX of a lane whose values order as they are stored. -/
def pruneVal (i : Img) (p : Pipe) (params : List Val) (t : Ty) (c : Cmp) (mn mx : Val) : Bool :=
  let ta := fixedTy i p c.a
  let a := fixedVal p params c.a
  let tb := fixedTy i p c.b
  let b := fixedVal p params c.b
  let lo (x : Val) (tx : Ty) : Ordering := cmpVal t mn tx x
  let hi (x : Val) (tx : Ty) : Ordering := cmpVal t mx tx x
  match c.op with
  | 0x01 => lo a ta == .gt || hi a ta == .lt
  | 0x02 => lo a ta == .eq && hi a ta == .eq
  | 0x03 => lo a ta != .lt
  | 0x04 => lo a ta == .gt
  | 0x05 => hi a ta != .gt
  | 0x06 => hi a ta == .lt
  | 0x07 => cmpVal tb b ta a == .lt || hi a ta == .lt || lo b tb == .gt
  | 0x08 => (inList i.aux t c).all fun x => lo x t == .gt || hi x t == .lt
  | _ => false

/-- The rules on resolved codes. -/
def pruneCode (op : Nat) (r : Resolved) (mn mx : Nat) : Bool :=
  match r with
  | .codes cs => op != 0x02 && cs.all fun c => decide (c < mn ∨ mx < c)
  | .range lo hi => decide (hi ≤ lo ∨ hi ≤ mn ∨ mx < lo)
  | _ => false

/-- The table "Pruning rules" on one header. -/
def pruneCmp (i : Img) (p : Pipe) (params : List Val) (t : Ty) (c : Cmp) (r : Resolved) (h : Hdr) : Bool :=
  let a := fixedVal p params c.a
  let b := fixedVal p params c.b
  if c.op = 0x09 then h.nulls == 0
  else if c.op = 0x0A then h.nulls == h.vcnt
  else if 0x11 ≤ c.op then false
  else if h.nulls = h.vcnt then true
  else if (c.op ≠ 0x08 ∧ a.isNull) ∨ (c.op = 0x07 ∧ b.isNull) then true
  else if h.mm = false then false
  else if t.isStr then pruneCode c.op r (h.min % 2 ^ 32) (h.max % 2 ^ 32)
  else pruneVal i p params t c (hdrVal t h.min) (hdrVal t h.max)

/-- A frame group is skipped: some prunable comparator can be TRUE on no row of it. `hs` are the lane headers. -/
def QEnv.skips (e : QEnv) (hs : List Hdr) : Bool :=
  match e.p.op? kFilter with
  | none => false
  | some op =>
    let rs := e.q.resolved.getD e.p.ix []
    let cs := op.cmps
    (andLeaves op.nodes 32 (op.b 2)).any fun k =>
      match cs[k]? with
      | some c =>
        bit (e.p.head.b 1) c.lane &&
          pruneCmp e.img e.p e.params (e.info.lanes.getD c.lane default) c (rs.getD k .plain) (hs.getD c.lane (Hdr.ofBytes []))
      | none => false

/-! ### Checks on passed rows (R176, R181, R221) -/

/-- The check of one passed value: status and DETAIL of its failure. -/
def State.valCheck (s : State) (e : QEnv) (t : Ty) (v : Val) : Option (Nat × Nat) :=
  match v with
  | .null => none
  | .int i => if t.isDec && !t.inRange i then some (stOverflow, 0x0001) else none
  | .code c k => if s.dictCount e.t (s.slotSeg e.q k) ≤ c then some (stDataCrc, 0x0002) else none
  | .desc _ _ => if (s.strPlace e.t e.q v).isNone then some (stDataCrc, 0x0003) else none
  | _ => none

/-- The first lane that fails. -/
def State.rowCheck (s : State) (e : QEnv) : List (Ty × Val) → Option (Nat × Nat)
  | [] => none
  | (t, v) :: r => match s.valCheck e t v with
    | some x => some x
    | none => s.rowCheck e r

/-! ### COMPUTE (R229 to R233) -/

/-- One row of a block in the compute stage: its position in the block, its row number, its slots, and its first failure: that of the
lowest operator, then of the lowest micro-op (R231). -/
structure CRow where
  pos   : Nat
  num   : Nat
  slots : List Val
  fail  : Option QFail := none
  deriving DecidableEq, Repr

def QEnv.slotVal (e : QEnv) (slots : List Val) (x : Nat) : Val :=
  if x < 64 then slots.getD x .null else fixedVal e.p e.params x

def QEnv.slotTy (e : QEnv) (f : Formula) (x : Nat) : Ty := (operandTy e.img e.p f e.info.lanes x).getD default

/-- A failure that a micro-op raises (R231). -/
def QEnv.uopFail (e : QEnv) (status detail : Nat) : QFail :=
  { status := status, detail := detail, pipe := e.p.ix, op := e.p.opIx kCompute }

/-- One micro-op other than CALL on one row. -/
def State.uopRow (s : State) (e : QEnv) (f : Formula) (k : Nat) (u : Uop) (r : CRow) : CRow :=
  if r.fail.isSome then r else
  let td := f.stypes.getD u.dst default
  match evalUop u td (e.slotTy f u.a) (e.slotTy f u.b) (e.slotVal r.slots u.a) (e.slotVal r.slots u.b) (e.slotVal r.slots u.c)
      (fun v => (s.strBytes e.t e.q v).length) with
  | .val v => { r with slots := r.slots.set u.dst v }
  | .overflow => { r with fail := some (e.uopFail stOverflow (0x0100 + k)) }
  | .divZero => { r with fail := some (e.uopFail stDivZero (0x0100 + k)) }

/-- What a block of COMPUTE comes to: its rows, or the CALL micro-op that has no result yet. -/
inductive BlockRes where
  | rows (rs : List CRow)
  | call (uop : Nat) (rs : List CRow)
  deriving DecidableEq, Repr

/-- The sources of a CALL: as many operands as its UDF takes (R204). -/
def QEnv.callSources (e : QEnv) (u : Uop) : List Nat := [u.a, u.b, u.c].take (byteAt ((udfDesc e.img u.imm).getD []) 9)

/-- The result of a CALL on one row (R200, R233): null with a null source, else what the UDF returned. After a fault the row whose
element faulted fails, and the other rows go on with values that the spec does not state (log 93). -/
def QEnv.callRow (e : QEnv) (f : Formula) (blk k : Nat) (u : Uop) (x : UdfResult) (r : CRow) : CRow :=
  if r.fail.isSome then r else
  let td := f.stypes.getD u.dst default
  let v : Val :=
    if (e.callSources u).any fun o => (e.slotVal r.slots o).isNull then .null
    else if x.fault.isSome then td.ofImage (Config.udfValue blk k r.pos % 2 ^ td.width)
    else x.vals.getD r.pos .null
  match x.fault with
  | some (cause, row) =>
    if r.pos = row then { r with fail := some (e.uopFail stSumenFault cause) } else { r with slots := r.slots.set u.dst v }
  | none => { r with slots := r.slots.set u.dst v }

/-- A fault on a row that is not among those that passed still fails the morsel at that row. -/
def QEnv.strayFault (e : QEnv) (x : UdfResult) (rs : List CRow) : List CRow :=
  match x.fault with
  | some (cause, row) =>
    if rs.any fun r => r.pos == row then []
    else [{ pos := row, num := (rs.map fun r => r.num - r.pos).headD 0 + row, slots := [], fail := some (e.uopFail stSumenFault cause) }]
  | none => []

/-- Run a program on the passed rows of block `blk` (R230, R231, R233): every micro-op is evaluated for every passed row, whatever failed
on other rows, and a CALL is made once for the block. -/
def State.runProgram (s : State) (e : QEnv) (f : Formula) (udf : List UdfResult) (blk : Nat) :
    List (Nat × Nat) → List CRow → BlockRes
  | [], rs => .rows rs
  | (w, k) :: ws, rs =>
    let u := Uop.ofWord w
    if u.opc ≠ 0x50 then s.runProgram e f udf blk ws (rs.map (s.uopRow e f k u))
    else match udf.find? fun x => x.block == blk && x.uop == k with
      | none => .call k rs
      | some x => s.runProgram e f udf blk ws (rs.map (e.callRow f blk k u x) ++ e.strayFault x rs)

/-- The row columns after COMPUTE, none when KEEP drops the row (R229, R232). -/
def QEnv.outRow (e : QEnv) (slots : List Val) : Option Row :=
  match e.p.op? kCompute, e.p.formula with
  | some op, some f =>
    let outs := f.outs.map fun x => slots.getD x .null
    if op.b 0 = 0xFF ∨ (outs.getD (op.b 0) .null).truth = some true then some outs else none
  | _, _ => some (slots.take e.info.lanes.length)

end Sys2Proof.Machine
end

