-- ==== Sys2Proof/Machine/QueryFeed.lean ====
section
/-! DEFINITION. The sources of a pipeline: SCAN with its fetch and decode (R209 to R221), and READ of partitions (R251), tables
(R266, R269, R270) and runs (R281); records (R245, R254) and aggregate read-out (R264, R266). -/

namespace Sys2Proof.Machine

/-! ### Records -/

/-- The bytes of a record's columns from byte 24 on, padded to a multiple of 8 (R245). -/
def recColumns (ts : List Ty) (row : Row) : List Byte :=
  let b := (ts.zip row).foldl (fun acc e => addCol acc e.1.bytes (e.1.recBytes e.2)) (List.replicate 24 0)
  (b ++ List.replicate (alignUp b.length 8 - b.length) 0).drop 24

/-- Length of a record of the given columns. -/
def recLen (ts : List Ty) : Nat := 24 + (recColumns ts (ts.map fun _ => Val.null)).length

/-- The columns of a record (R245, R254). -/
def recRow (ts : List Ty) (nulls : Nat) (b : List Byte) : Row :=
  let os := colOffsets 24 (ts.map Ty.bytes)
  (ts.zip os).zipIdx.map fun e => if bit nulls e.2 then .null else e.1.1.ofRec (b.drop e.1.2)

/-- An exchange record (R245). -/
def exchangeRecord (hash morsel pe attempt : Nat) (ts : List Ty) (row : Row) : List Byte :=
  let cols := recColumns ts row
  leBytes 8 hash ++ leBytes 4 morsel ++ leBytes 1 pe ++ leBytes 1 attempt ++ leBytes 2 (24 + cols.length) ++
    leBytes 2 (nullMask row) ++ List.replicate 6 0 ++ cols

/-- Sender and attempt of a record: global PE, morsel, attempt. -/
def recFrom (r : List Byte) : Nat × Nat × Nat := (byteAt r 12, field r 8 4, byteAt r 13 % 4)

/-- The row hash of R250. -/
def rowHash (r : List Byte) : BitVec 64 := mix64 (r.drop 24)

/-- The attempt of a morsel is its verified attempt (R249). -/
def PipeState.counts (ps : PipeState) (morsel attempt : Nat) : Bool := ps.verified.contains (morsel, attempt)

/-! ### Buffers (R247) -/

/-- The records of a partition in reading order: pages as they were closed, then the open page. -/
def Part_.records (b : Part_) : List (List Byte) :=
  b.closed.flatMap (·.recs) ++ (b.open_.map (·.recs)).getD []

def PipeState.part? (ps : PipeState) (tile part : Nat) : Option Part_ :=
  ps.parts.find? fun b => b.tile == tile && b.part == part

def PipeState.partRecords (ps : PipeState) (tile part : Nat) : List (List Byte) :=
  ((ps.part? tile part).map Part_.records).getD []

/-! ### Aggregate read-out (R264, R266) -/

/-- Result of a read-out of one function: its columns, or the overflow of its fit. -/
def Fn.output (f : Fn) (phase : Nat) (argTy : Ty) (a : AggState) : Option (List Val) :=
  let cnt : Val := .int (toSigned 64 a.cnt)
  let sum : Option Val :=
    if !a.seen then some .null
    else if argTy.isFloat then some (.f64 a.fsum)
    else (f.ot.fit f.ovf (rescale 0 a.sum argTy.scale f.ot.scale)).map .int
  match f.fn with
  | 1 | 2 | 7 => some [cnt]
  | 4 | 5 => some [if a.seen then a.val else .null]
  | 6 =>
    if phase = 1 then sum.map fun v => [v, cnt]
    else if a.cnt = 0 ∨ a.seen = false then some [.null]
    else if argTy.isFloat then some [.f64 (BitVec.ofNat 64 (fmt64.div a.fsum.toNat (fmt64.ofDec a.cnt 0).1).1)]
    else match fitRat f.ot f.ovf f.rnd a.sum a.cnt argTy.scale with
      | .val v => some [v]
      | _ => none
  | _ => sum.map fun v => [v]

/-- The outputs of a group: its keys, then the functions in order; the function whose fit fails (R266). -/
def groupRow (op : Op) (cols : List Col) (g : Group) : Except Nat Row :=
  match allOk (fun (e : (Fn × AggState) × Nat) =>
      match e.1.1.output op.phase ((cols.getD e.1.1.arg default).ty) e.1.2 with
      | some vs => .ok vs
      | none => .error e.2) (op.fns.zip g.states).zipIdx with
  | .ok vs => .ok (g.keys ++ vs.flatten)
  | .error f => .error f

/-! ### Record layouts (R254, R276, R546) -/

/-- A row-store record (R254) of columns that are given as width and bytes: LEN counts the padding to a multiple of 8. -/
def storeRecord (hash next morsel attempt nulls : Nat) (cols : List (Nat × List Byte)) : List Byte :=
  let b := cols.foldl (fun acc c => addCol acc c.1 c.2) (List.replicate 24 0)
  let n := alignUp b.length 8
  leBytes 8 hash ++ leBytes 4 next ++ leBytes 4 morsel ++ leBytes 1 attempt ++ [0] ++ leBytes 2 n ++ leBytes 2 nulls ++ [0, 0] ++
    b.drop 24 ++ List.replicate (n - b.length) 0

/-- The columns of a record that hold values. -/
def valueCols (ts : List Ty) (vals : Row) : List (Nat × List Byte) := (ts.zip vals).map fun e => (e.1.bytes, e.1.recBytes e.2)

/-- NEXTDUP of a record without a successor. -/
def noNext : Nat := 0xFFFFFFFF

/-- The record of a BUILD row: keys, then payload. -/
def BuildRow.bytes (b : BuildRow) (ts : List Ty) : List Byte :=
  storeRecord b.hash.toNat (b.next.getD noNext) b.morsel b.attempt (nullMask (b.keys ++ b.pay)) (valueCols ts (b.keys ++ b.pay))

/-- The state column of one function (R546). -/
def AggState.column (a : AggState) (f : Fn) (t : Ty) : Nat × List Byte :=
  let cnt := leBytes 8 a.cnt
  let sum := leBytes 24 (ofSigned 192 a.sum) ++ leBytes 8 a.res
  match f.fn with
  | 3 => if t.isFloat then (8, leBytes 8 a.fsum.toNat) else (32, sum)
  | 4 | 5 => (t.bytes, t.recBytes a.val)
  | 6 => if t.isFloat then (16, leBytes 8 a.fsum.toNat ++ cnt) else (40, sum ++ cnt)
  | _ => (8, cnt)

/-- The state has seen no argument, and its function's output is then null. -/
def AggState.isNull (a : AggState) (f : Fn) : Bool := !a.seen && [3, 4, 5, 6].contains f.fn

/-- The types of an AGGREGATE's or WINDOW's key columns; WSTART first. -/
def aggKeyTys (op : Op) (cols : List Col) : List Ty :=
  (if op.kind = kWindow then [({ code := tyTime } : Ty)] else []) ++ op.keys.map fun k => (cols.getD k.1 default).ty

/-- The record of a group: keys, then one state column for each function (R546). -/
def Group.bytes (g : Group) (op : Op) (cols : List Col) : List Byte :=
  let ts := aggKeyTys op cols
  let fs := op.fns.zip g.states
  storeRecord (mix64 g.key).toNat noNext 0 0
    (nullMask g.keys + 2 ^ ts.length * packBits (fs.map fun e => e.2.isNull e.1))
    (valueCols ts g.keys ++ fs.map fun e => e.2.column e.1 (cols.getD e.1.arg default).ty)

/-- The record of a distinct entry: keys and value, no state column (R546). -/
def distinctRecord (op : Op) (cols : List Col) (keys : Row) (t : Ty) (v : Val) : List Byte :=
  storeRecord 0 noNext 0 0 (nullMask (keys ++ [v])) (valueCols (aggKeyTys op cols ++ [t]) (keys ++ [v]))

/-- A key record (R276): the normalized key, zero-filled to 40 B, then ROW in bits [39:0]. -/
def SortRec.keyRecord (r : SortRec) : List Byte := cut r.nkey 0 40 ++ leBytes 5 r.row ++ [0, 0, 0]

/-- The row-store record of a sorted row. -/
def SortRec.bytes (r : SortRec) (ts : List Ty) : List Byte :=
  storeRecord 0 noNext r.morsel r.attempt (nullMask r.cols) (valueCols ts r.cols)

/-! ### Pages (R247, R330) -/

def pageBytes : Nat := 16384
def pagesPerMib : Nat := 64

/-- The page in which ROW lies. -/
def rowPage (row : Nat) : Nat := 8 * row / pageBytes

/-- The 16 KiB frame of a tile's 192 MiB of working SRAM in which a page lies. Which one is open (log 95). -/
def sramFrame (qid pipe tile page : Nat) : Nat := Config.pageFrame qid pipe tile page % 12288

/-- A page of an operator's records on a tile is poisoned: in working SRAM, or spilled. Where it lies is open (log 95). -/
def State.pageBad (s : State) (qid pipe tile page : Nat) (spilled : Bool) : Bool :=
  if spilled then s.poison.any fun u => u / 256 == Config.spillFrame qid pipe tile page
  else (s.tile (tid tile)).sramPoison.any fun l => l / 256 == sramFrame qid pipe tile page

/-- A page is written whole: its poison goes (R329). -/
def State.freshPage (s : State) (qid pipe tile page : Nat) (spilled : Bool) : State :=
  if spilled then { s with poison := s.poison.filter fun u => u / 256 != Config.spillFrame qid pipe tile page }
  else s.onTile (tid tile) fun x =>
    { x with sramPoison := x.sramPoison.filter fun l => l / 256 != sramFrame qid pipe tile page }

/-- Pages of row store that a table, SORT or TOPK keeps in SRAM: those after the first lie in spill. -/
def Op.sramPagesFor (op : Op) : Nat :=
  (if op.kind = kBuild then op.u 4 2 else if op.kind = kSort ∨ op.kind = kTopk then op.b 3 else op.u (op.aggBase + 6) 2) * pagesPerMib

/-- A record of a row store lies in a poisoned page. -/
def State.rowBad (s : State) (qid pipe tile : Nat) (op : Op) (row : Nat) : Bool :=
  s.pageBad qid pipe tile (rowPage row) (decide (op.sramPagesFor ≤ rowPage row))

/-! ### Feeds -/

/-- A row that the source hands over: its row number, which orders failures, its block and its position in it (R209). -/
structure FeedRow where
  num  : Nat
  blk  : Nat
  pos  : Nat
  vals : Row
  deriving DecidableEq, Repr

/-- What a source delivers: rows, skipped frames and its tallies, up to the first failure of the source, with the row number that
ranks it. -/
structure Feed where
  rows    : List FeedRow := []
  skipped : Nat := 0
  counts  : Counts := []
  fail    : Option (Nat × QFail) := none
  deriving DecidableEq, Repr

/-- Number rows in blocks of 32. -/
def feedRows (rows : List Row) (base blk : Nat) : List FeedRow :=
  rows.zipIdx.map fun e => { num := base + e.2, blk := blk + e.2 / 32, pos := e.2 % 32, vals := e.1 }

/-- The failure of lost data in the source of a pipeline. -/
def QEnv.lost (e : QEnv) (addr : Option Nat) : QFail :=
  { status := stUncorrectable, detail := 0, pipe := e.p.ix, op := 0, addr := addr }

/-! ### SCAN -/

/-- The segment slots of the lanes. -/
def Pipe.laneSlots (p : Pipe) : List Nat := (List.range (min 8 (p.head.b 0))).map fun k => p.head.b (8 + 8 * k)

/-- Frames of a SCAN pipeline: NFRAMES of its lanes at start (R210). -/
def Query.scanFrames (q : Query) (p : Pipe) : Nat := q.frames.getD (p.laneSlots.headD 0) 0

/-- The frames of morsel `m` (R170). -/
def Query.morselFrames (q : Query) (p : Pipe) (m : Nat) : List Nat :=
  (List.range 64).map (64 * m + ·) |>.filter fun f => decide (f < q.scanFrames p)

/-- A frame check fails on the segment in slot `k`. -/
def QEnv.scanFail (e : QEnv) (k detail : Nat) : QFail :=
  { status := stDataCrc, detail := detail, pipe := e.p.ix, op := 0, seg := e.q.segs.getD k 0 }

/-- The index entries of one frame number on every lane; lost data and a bad ICRC fail (R213, R164). -/
def State.readEntries (s : State) (e : QEnv) (f : Nat) : Except QFail (List (List Byte)) :=
  allOk (fun k =>
    let g := s.slotSeg e.q k
    if g.fenced then .error (e.lost none)
    else if s.indexPoison e.t g (48 * f) 48 then .error (e.lost (some (s.indexLoc e.t g (48 * f))))
    else
      let x := s.indexEntry e.t g f
      if indexEntryOk x then .ok x else .error (e.scanFail k 0x0005)) e.p.laneSlots

/-- One frame of one lane as decode delivers it: its header, and its values with the outcome of check 8 (R213, R309). -/
def State.readFrame (s : State) (e : QEnv) (k : Nat) (t : Ty) (x : List Byte) : Except QFail (Hdr × List (Option (Nat × Bool))) :=
  let g := s.slotSeg e.q k
  let off := field x 0 6
  let n := field x 6 2
  match s.lostAt e.t g off n with
  | some a => .error (e.lost a)
  | none =>
    let b := s.segBytes e.t g off n
    match frameCheck t b n with
    | some d => .error (e.scanFail k d)
    | none => .ok (Hdr.ofBytes (cut b 0 32), frameValues t b)

/-- The frames of one frame group; unequal value counts fail (R170). -/
def State.readGroup (s : State) (e : QEnv) (xs : List (List Byte)) : Except QFail (List (Hdr × List (Option (Nat × Bool)))) :=
  match allOk (fun (y : (Nat × Ty) × List Byte) => s.readFrame e y.1.1 y.1.2 y.2) ((e.p.laneSlots.zip e.info.lanes).zip xs) with
  | .error x => .error x
  | .ok cols =>
    let n := (cols.headD (Hdr.ofBytes [], [])).2.length
    if cols.any fun c => decide (c.2.length ≠ n) then .error (e.scanFail (e.p.laneSlots.headD 0) 0x0004) else .ok cols

/-- Row `i` of a frame group, none where check 8 refuses one of its values. -/
def groupValues (lanes : List Ty) (cols : List (Hdr × List (Option (Nat × Bool)))) (i : Nat) : Option Row :=
  if (cols.zip lanes).any fun c => ((c.1.2[i]?).join).any fun x => !x.2 then none
  else some ((cols.zip lanes).map fun c => match (c.1.2[i]?).join with
    | some x => c.2.ofImage x.1
    | none => .null)

/-- The rows of a frame group in order, to the first value that check 8 refuses: decode delivers value by value (R309). -/
def groupRows (lanes : List Ty) (cols : List (Hdr × List (Option (Nat × Bool)))) : List Nat → List Row × Option Nat
  | [] => ([], none)
  | i :: r => match groupValues lanes cols i with
    | none => ([], some i)
    | some row =>
      let x := groupRows lanes cols r
      (row :: x.1, x.2)

/-- What the fetch and decode stages have counted in a morsel (R234): rows of skipped groups and of groups handed to decode, and for
each lane the nulls that headers tell, the values and the nulls delivered. -/
structure ScanTally where
  pruned : Nat := 0
  deliv  : Nat := 0
  lanes  : List (Nat × Nat × Nat) := List.replicate 8 (0, 0, 0)
  deriving DecidableEq, Repr

/-- Count a frame group handed to decode. -/
def ScanTally.group (c : ScanTally) (cols : List (Hdr × List (Option (Nat × Bool)))) : ScanTally :=
  { c with
    deliv := c.deliv + (cols.headD (Hdr.ofBytes [], [])).1.vcnt
    lanes := c.lanes.zipIdx.map fun x => match cols[x.2]? with
      | some y => (x.1.1 + y.1.nulls, x.1.2.1 + y.2.length, x.1.2.2 + (y.2.filter Option.isNone).length)
      | none => x.1 }

/-- One counter and its value. -/
def ctr (k : Ctr) (v : Nat) : Ctr × Int := (k, v)

/-- The counters of a lane. -/
def laneCounts (l hnull values nulls : Nat) : Counts := [ctr (.fHnull l) hnull, ctr (.dValues l) values, ctr (.dNulls l) nulls]

def ScanTally.counts (c : ScanTally) (nlane rows : Nat) : Counts :=
  [ctr .fRows rows, ctr .fPruned c.pruned, ctr .fDeliv c.deliv] ++
    ((c.lanes.take nlane).zipIdx.flatMap fun x => laneCounts x.2 x.1.1 x.1.2.1 x.1.2.2)

/-- VCNT of the lane 0 index entry. -/
def entryRows (xs : List (List Byte)) : Nat := (Hdr.ofBytes (cut (xs.headD []) 8 32)).vcnt

/-- Frame groups in ascending frame number (R209, R215, R216). -/
def State.scanGroups (s : State) (e : QEnv) : List (Nat × List (List Byte)) → Feed → ScanTally → Feed × ScanTally
  | [], fd, c => (fd, c)
  | (f, xs) :: r, fd, c =>
    if e.skips (xs.map fun x => Hdr.ofBytes (cut x 8 32)) then
      s.scanGroups e r { fd with skipped := fd.skipped + xs.length } { c with pruned := c.pruned + entryRows xs }
    else match s.readGroup e xs with
      | .error x => ({ fd with fail := some (1024 * f, x) }, c)
      | .ok cols =>
        let x := groupRows e.info.lanes cols (List.range (cols.headD (Hdr.ofBytes [], [])).2.length)
        let fd := { fd with rows := fd.rows ++ feedRows x.1 (1024 * f) (32 * (f % 64)) }
        match x.2 with
        | some i => ({ fd with fail := some (1024 * f + i, e.scanFail (e.p.laneSlots.headD 0) 0x0006) }, c)
        | none => s.scanGroups e r fd (c.group cols)

def State.scanFeed (s : State) (e : QEnv) : Feed :=
  match allOk (fun f => (s.readEntries e f).map fun xs => (f, xs)) (e.q.morselFrames e.p e.at_.morsel) with
  | .error x => { fail := some (0, x) }
  | .ok gs =>
    let x := s.scanGroups e gs {} {}
    { x.1 with counts := x.2.counts e.info.lanes.length (gs.map fun g => entryRows g.2).sum }

/-! ### READ -/

/-- The producer of a pipeline and its state. -/
def QEnv.producer (e : QEnv) : Pipe := e.img.pipes.getD e.p.plan.prod default
def QEnv.prodInfo (e : QEnv) : PInfo := e.img.info.getD e.p.plan.prod ⟨[], [], [], []⟩
def QEnv.prodState (e : QEnv) : PipeState := e.q.pipes.getD e.p.plan.prod {}

/-- Lanes of READ: the record columns that LCOL names. -/
def QEnv.laneRow (e : QEnv) (row : Row) : Row := (List.range e.info.lanes.length).map fun i => row.getD (e.p.head.b (1 + i)) .null

/-- The tallies of a READ (R234, R252): `recs` records read, `nulls l` of those handed over with the NULLS bit of lane l's column. -/
def QEnv.readCounts (e : QEnv) (recs : Nat) (rows : List Row) (nulls : Nat → Nat) : Counts :=
  [ctr .fRows rows.length, ctr .fPruned 0, ctr .fDeliv rows.length, ctr .rRec recs, ctr .rValid rows.length,
    ctr .rVoid (recs - rows.length)] ++
    ((List.range e.info.lanes.length).flatMap fun l =>
      laneCounts l (nulls l) rows.length (rows.filter fun r => (r.getD l .null).isNull).length)

/-- Nulls on a lane of rows whose records keep no NULLS field of their own. -/
def nullsOn (rows : List Row) (l : Nat) : Nat := (rows.filter fun r => r.getD l .null == .null).length

/-- Take items while a page can be read: those before the first that lies in a poisoned page, and whether one does (R330). -/
def takeGood {α : Type} (bad : α → Bool) : List α → List α × Bool
  | [] => ([], false)
  | x :: r => if bad x then ([], true) else
    let y := takeGood bad r
    (x :: y.1, y.2)

/-- The records of a partition with their pages, in reading order. -/
def Part_.paged (b : Part_) : List (Page × List Byte) :=
  (b.closed ++ b.open_.toList).flatMap fun p => p.recs.map fun r => (p, r)

/-- Rows of a PARTITION morsel: void records are read and skipped (R249, R251). -/
def State.partFeed (s : State) (e : QEnv) : Feed :=
  let ps := e.prodState
  let all := ((ps.part? e.at_.tile e.at_.part).map Part_.paged).getD []
  let x := takeGood (fun r : Page × List Byte => s.pageBad e.q.qid e.p.plan.prod e.at_.tile r.1.id r.1.spilled)
    ((all.drop e.at_.first).take e.at_.count)
  let good := (x.1.map (·.2)).filter fun r => ps.counts (recFrom r).2.1 (recFrom r).2.2
  let rows := good.map fun r => e.laneRow (recRow e.prodInfo.recs (field r 16 2) r)
  { rows := feedRows rows 0 0
    counts := e.readCounts x.1.length rows fun l => (good.filter fun r => bit (field r 16 2) (e.p.head.b (1 + l))).length
    fail := if x.2 then some (rows.length, e.lost none) else none }

/-- The groups of a table morsel in turn: rows, to the first read-out that overflows. -/
def readOut (op : Op) (cols : List Col) : List Group → List Row × Option Nat
  | [] => ([], none)
  | g :: r => match groupRow op cols g with
    | .error f => ([], some f)
    | .ok row =>
      let x := readOut op cols r
      (row :: x.1, x.2)

/-- Both sides of check 9 for the integer and decimal sums of the groups read (R269). -/
def residueCounts (op : Op) (cols : List Col) (gs : List Group) : Counts :=
  gs.zipIdx.flatMap fun g => (op.fns.zip g.1.states).zipIdx.flatMap fun e =>
    if (e.1.1.fn = 3 ∨ e.1.1.fn = 6) ∧ (cols.getD e.1.1.arg default).ty.isFloat = false then
      [ctr (.rAcc g.2 e.2) (modM e.1.2.sum), ctr (.rRes g.2 e.2) e.1.2.res]
    else []

/-- Rows of a TABLE morsel: a read-out that overflows fails in the AGGREGATE (R266, R269). -/
def State.tableFeed (s : State) (e : QEnv) : Feed :=
  let op := e.producer.sink
  let x := takeGood (fun g : Group => s.rowBad e.q.qid e.p.plan.prod e.at_.tile op g.row)
    (((e.prodState.groups.filter fun g => g.tile == e.at_.tile).drop e.at_.first).take e.at_.count)
  let y := readOut op e.prodInfo.fin x.1
  let rows := y.1.map e.laneRow
  { rows := feedRows rows 0 0
    counts := e.readCounts x.1.length rows (nullsOn rows) ++ residueCounts op e.prodInfo.fin x.1
    fail := match y.2 with
      | some f => some (rows.length,
          { status := stOverflow, detail := 0x0200 + f, pipe := e.p.plan.prod, op := e.producer.ops.length - 1 })
      | none => if x.2 then some (rows.length, e.lost none) else none }

/-- The records that a RUNS source reads of a run: for TOPK from OFFSET on, K of them (R284). -/
def runRecords (op : Op) (recs : List SortRec) : List SortRec :=
  if op.kind = kTopk then (recs.drop (op.u 60 4)).take (op.u 56 4) else recs

def State.runFeed (s : State) (e : QEnv) : Feed :=
  let op := e.producer.sink
  let recs := (e.prodState.runs.filter fun r => r.tile == e.at_.tile && r.group == e.at_.part).flatMap (·.recs)
  let x := takeGood (fun r : SortRec => s.rowBad e.q.qid e.p.plan.prod e.at_.tile op r.row)
    (((runRecords op recs).drop e.at_.first).take e.at_.count)
  let rows := x.1.map fun r => e.laneRow r.cols
  { rows := feedRows rows 0 0, counts := e.readCounts x.1.length rows (nullsOn rows)
    fail := if x.2 then some (rows.length, e.lost none) else none }

/-- What the source of a morsel delivers. -/
def State.feed (s : State) (e : QEnv) : Feed :=
  match e.p.plan.src with
  | 1 => s.scanFeed e
  | 2 => s.partFeed e
  | 3 => s.tableFeed e
  | _ => s.runFeed e

end Sys2Proof.Machine
end

