-- ==== Sys2Proof/Machine/QueryRows.lean ====
section
/-! DEFINITION. The rows of one morsel from its source to its sink: filter and compute by blocks, with the failure that is reported
(R221, R230, R231), key images (R238), and PROBE (R258 to R262). -/

namespace Sys2Proof.Machine

/-! ### Orders that the spec leaves open -/

/-- Insert by a comparison that says whether the first argument may stand before the second. -/
def insertBy {α : Type} (le : α → α → Bool) (x : α) : List α → List α
  | [] => [x]
  | y :: r => if le x y then x :: y :: r else y :: insertBy le x r

def sortBy {α : Type} (le : α → α → Bool) : List α → List α
  | [] => []
  | x :: r => insertBy le x (sortBy le r)

/-- Some order of a list, where the spec leaves it open (log 8). -/
def State.shuffle {α : Type} (s : State) (salt : Nat) (l : List α) : List α :=
  if l.length ≤ 1 then l
  else (sortBy (fun a b => decide (a.1 ≤ b.1)) (l.zipIdx.map fun e => (Config.freeRank s.tick (salt + e.2), e.1))).map (·.2)

/-- The lower-ranked of two values where the spec leaves the choice open. -/
def State.eitherOf {α : Type} (s : State) (salt : Nat) (a b : α) : α := if Config.freeRank s.tick salt % 2 = 0 then a else b

/-! ### Filter and compute -/

/-- Rows that the filter rejected or left unknown, and that compute kept or dropped (R234). -/
structure FrontTally where
  pass : Nat := 0
  rej  : Nat := 0
  unk  : Nat := 0
  keep : Nat := 0
  drop : Nat := 0
  deriving DecidableEq, Repr

def FrontTally.add (a b : FrontTally) : FrontTally :=
  { pass := a.pass + b.pass, rej := a.rej + b.rej, unk := a.unk + b.unk, keep := a.keep + b.keep, drop := a.drop + b.drop }

/-- The counters of the filter and compute stages over `n` delivered rows (R234). -/
def FrontTally.counts (c : FrontTally) (n : Nat) : Counts :=
  [ctr .flIn n, ctr .flPass c.pass, ctr .flRej c.rej, ctr .flUnk c.unk, ctr .cIn (c.keep + c.drop), ctr .cKeep c.keep, ctr .cDrop c.drop]

/-- What became of the front stages of a morsel. -/
inductive Front where
  | wait (blk uop select rows : Nat) (rs : List CRow)   -- a CALL has no result yet: its block, micro-op, selection, rows present
  | fail (f : QFail)
  | rows (rs : List Row) (c : FrontTally)
  deriving DecidableEq, Repr

/-- The failure of the checks of R221 on a passed row. -/
def State.checkFail (s : State) (e : QEnv) (r : FeedRow) : Option QFail :=
  (s.rowCheck e (e.info.lanes.zip r.vals)).map fun x => { status := x.1, detail := x.2, pipe := e.p.ix, op := 0 }

/-- What the filter makes of a block: the passed rows with the failures of their checks (R221), the counts, and the first row whose
predicate needs lost data, with its failure. -/
structure Passed where
  rows : List CRow := []
  c    : FrontTally := {}
  lost : Option (Nat × QFail) := none
  deriving DecidableEq, Repr

/-- A passed row as compute receives it. -/
def State.passedRow (s : State) (e : QEnv) (r : FeedRow) : CRow :=
  { pos := r.pos, num := r.num, slots := r.vals ++ List.replicate (64 - r.vals.length) .null, fail := s.checkFail e r }

/-- The filter on the rows of a block: every delivered row is evaluated (R227). -/
def State.passBlock (s : State) (e : QEnv) : List FeedRow → Passed
  | [] => {}
  | r :: rs =>
    let x := s.passBlock e rs
    match s.predicate e r.vals with
    | .error a =>
      { x with lost := some (r.num, { status := stUncorrectable, detail := 0, pipe := e.p.ix, op := e.p.opIx kFilter, addr := a }) }
    | .ok (some true) => { x with rows := s.passedRow e r :: x.rows, c := { x.c with pass := x.c.pass + 1 } }
    | .ok (some false) => { x with c := { x.c with rej := x.c.rej + 1 } }
    | .ok none => { x with c := { x.c with unk := x.c.unk + 1 } }

/-- The failure of the lowest row (R231). -/
def firstFailure (lost : Option (Nat × QFail)) (rs : List CRow) : Option (Nat × QFail) :=
  rs.foldl (fun best r => match r.fail with
    | none => best
    | some f => match best with
      | none => some (r.num, f)
      | some b => if r.num < b.1 then some (r.num, f) else best) lost

/-- The rows that go on from a block, or the failure of its lowest row. -/
def QEnv.blockEnd (e : QEnv) (x : Passed) (rs : List CRow) : Front :=
  match firstFailure x.lost rs with
  | some f => .fail f.2
  | none =>
    let out := rs.filterMap fun r => e.outRow r.slots
    .rows out { x.c with keep := out.length, drop := rs.length - out.length }

/-- One block (R230): the rows that go on. -/
def State.frontBlock (s : State) (e : QEnv) (udf : List UdfResult) (blk : Nat) (rows : List FeedRow) : Front :=
  let x := s.passBlock e rows
  match e.p.op? kCompute, e.p.formula with
  | some _, some f =>
    if x.rows.isEmpty then e.blockEnd x []
    else match s.runProgram e f udf blk f.words.zipIdx x.rows with
      | .call u rs => .wait blk u (packBits ((List.range 32).map fun i => rs.any fun r => r.pos == i)) rows.length rs
      | .rows rs => e.blockEnd x rs
  | _, _ => e.blockEnd x x.rows

/-- The block numbers of a feed, ascending. -/
def Feed.blocks (fd : Feed) : List Nat := fd.rows.foldl (fun acc r => if acc.getLast? = some r.blk then acc else acc ++ [r.blk]) []

/-- Blocks in ascending order; the first failure ends the morsel (R231). -/
def State.frontGo (s : State) (e : QEnv) (udf : List UdfResult) (fd : Feed) : List Nat → List Row → FrontTally → Front
  | [], acc, c => match fd.fail with
    | some (_, f) => .fail f
    | none => .rows acc c
  | b :: bs, acc, c =>
    match s.frontBlock e udf b (fd.rows.filter fun r => r.blk == b) with
    | .rows rs d => s.frontGo e udf fd bs (acc ++ rs) (c.add d)
    | k => k

/-- The rows that reach the hash/partition stage (R232). -/
def State.front (s : State) (e : QEnv) (udf : List UdfResult) (fd : Feed) : Front := s.frontGo e udf fd fd.blocks [] {}

/-! ### Keys -/

def keyVals (op : Op) (row : Row) : List Val := op.keys.map fun k => row.getD k.1 .null

/-- The key image of a row (R238). -/
def State.keyImage (s : State) (e : QEnv) (ks : List (Ty × Nat)) (vs : List Val) : List Byte :=
  (ks.zip vs).flatMap fun k => k.1.1.keyField k.1.2 (s.strBytes e.t e.q) k.2

/-- What is lost of the strings that BYTES keys read. -/
def State.keyPoison (s : State) (e : QEnv) (ks : List (Ty × Nat)) (vs : List Val) : Option (Option Nat) :=
  (ks.zip vs).findSome? fun k =>
    if k.1.1.isStr && k.1.2 == 0 then s.strPoison e.t e.q k.2 0 ((s.strPlace e.t e.q k.2).map (·.2.2) |>.getD 0) else none

def keyNull (vs : List Val) : Bool := vs.any Val.isNull

/-! ### Hash tables (R240, R253 to R256) -/

/-- TAG of a hash. -/
def hashTag (h : BitVec 64) : Nat := h.toNat / 2 ^ 48

/-- Bucket index of a hash. -/
def hashIx (log2b : Nat) (h : BitVec 64) : Nat := h.toNat % 2 ^ log2b

/-- The 64 bytes of a bucket (R253). -/
def Bucket.bytes (b : Bucket) : List Byte :=
  leBytes 8 (b.entries.length + 8 * boolNat b.next.isSome + 2 ^ 32 * b.next.getD 0) ++
    cut (b.entries.flatMap fun e => leBytes 8 (e.1 + 2 ^ 16 * e.2)) 0 56

def PipeState.table (ps : PipeState) (tile : Nat) : HashTable := (ps.tables.find? fun h => h.tile == tile).getD { tile := tile }

def PipeState.setTable (ps : PipeState) (h : HashTable) : PipeState :=
  if ps.tables.any fun x => x.tile == h.tile then { ps with tables := ps.tables.map fun x => if x.tile = h.tile then h else x }
  else { ps with tables := ps.tables ++ [h] }

/-- The entry of a chain of buckets whose TAG is a hash's and whose record, by `same`, has its key image (R255). -/
def HashTable.walk (h : HashTable) (same : Nat → Bool) (tag : Nat) : Nat → Bucket → Option Nat
  | 0, _ => none
  | fuel + 1, b =>
    match b.entries.find? fun e => e.1 == tag && same e.2 with
    | some e => some e.2
    | none => match b.next with
      | some k => h.walk same tag fuel (h.extra.getD k {})
      | none => none

/-- Lookup: the ROW found. -/
def HashTable.find (h : HashTable) (log2b : Nat) (hash : BitVec 64) (same : Nat → Bool) : Option Nat :=
  h.walk same (hashTag hash) (h.extra.length + 1) (tblGet h.buckets (hashIx log2b hash) {})

/-- The bucket at a place of a chain: the bucket array, or an overflow bucket. -/
def HashTable.bucketAt (h : HashTable) (ix : Nat) : Option Nat → Bucket
  | none => tblGet h.buckets ix {}
  | some k => h.extra.getD k {}

def HashTable.putBucket (h : HashTable) (ix : Nat) (b : Bucket) : Option Nat → HashTable
  | none => { h with buckets := tblSet {} h.buckets ix b }
  | some k => { h with extra := h.extra.set k b }

/-- Put an entry at the end of a chain; a full bucket takes a new overflow bucket (R255). -/
def HashTable.addEntry (h : HashTable) (ix : Nat) (e : Nat × Nat) : Nat → Option Nat → HashTable
  | 0, _ => h
  | fuel + 1, at_ =>
    let b := h.bucketAt ix at_
    if b.entries.length < 7 then h.putBucket ix { b with entries := b.entries ++ [e] } at_
    else match b.next with
      | some k => h.addEntry ix e fuel (some k)
      | none =>
        let k := h.extra.length
        let h := h.putBucket ix { b with next := some k } at_
        { h with extra := h.extra ++ [{ entries := [e] }] }

/-- Insert a record that has been found absent. -/
def HashTable.insert (h : HashTable) (log2b : Nat) (hash : BitVec 64) (row : Nat) : HashTable :=
  h.addEntry (hashIx log2b hash) (hashTag hash, row) (h.extra.length + 1) none

/-- The place of a record of `n` bytes in the row store: records do not span pages (log 94). -/
def HashTable.place (h : HashTable) (n : Nat) : Nat :=
  if pageBytes < h.fill % pageBytes + n then alignUp h.fill pageBytes else h.fill

/-- Take room for a record: its ROW, and the table. -/
def HashTable.alloc (h : HashTable) (n : Nat) : Nat × HashTable := (h.place n / 8, { h with fill := h.place n + n })

/-- A BUILD record by its ROW on a tile. -/
def PipeState.rowAt (ps : PipeState) (tile row : Nat) : Option BuildRow := ps.build.find? fun b => b.tile == tile && b.row == row

/-- The record at ROW has a key image. -/
def PipeState.hasKey (ps : PipeState) (tile : Nat) (key : List Byte) (row : Nat) : Bool := (ps.rowAt tile row).any fun b => b.key == key

/-- The records of a NEXTDUP chain. -/
def PipeState.chain (ps : PipeState) (tile : Nat) : Nat → Option Nat → List BuildRow
  | 0, _ => []
  | _, none => []
  | fuel + 1, some row => match ps.rowAt tile row with
    | some b => b :: ps.chain tile fuel b.next
    | none => []

/-! ### PROBE (R259 to R262) -/

/-- The tile whose tables a morsel meets: its records' owner, or the PE's own tile in a SCAN pipeline. -/
def QEnv.tableTile (e : QEnv) : Nat := if e.p.plan.src = 1 then e.t else e.at_.tile

/-- HAS_ROWS and HAS_NULL of a BUILD (R258). -/
def PipeState.hasRows (ps : PipeState) : Bool := ps.build.any fun b => ps.counts b.morsel b.attempt
def PipeState.hasNull (ps : PipeState) : Bool := ps.buildNull.any fun b => ps.counts b.1 b.2

/-- The chain of build records with a key image that the lookup of R255 finds on a tile. -/
def PipeState.lookup (ps : PipeState) (log2b tile : Nat) (key : List Byte) : List BuildRow :=
  ps.chain tile ps.build.length ((ps.table tile).find log2b (mix64 key) (ps.hasKey tile key))

/-- What the lookup of one probe row finds: a null key, or the non-void records of its chain in an order that is open (R261). -/
structure Matched where
  row : Row
  nul : Bool
  ms  : List BuildRow
  deriving DecidableEq, Repr

/-- The chain that a probe row meets. -/
def State.probeChain (s : State) (e : QEnv) (op : Op) (ps : PipeState) (row : Row) : List BuildRow :=
  let vs := keyVals op row
  if keyNull vs then []
  else ps.lookup ((e.img.pipes.getD (op.b 0) default).sink.b 2) e.tableTile (s.keyImage e (keyTypes e.info.mid op) vs)

def State.matched (s : State) (e : QEnv) (op : Op) (ps : PipeState) (row : Row) (salt : Nat) : Matched :=
  { row := row, nul := keyNull (keyVals op row)
    ms := s.shuffle (65536 * salt) ((s.probeChain e op ps row).filter fun b => ps.counts b.morsel b.attempt) }

/-- The rows that go on for one probe row (R259). -/
def Matched.out (m : Matched) (jtype npay : Nat) (hasRows hasNull : Bool) : List Row :=
  match jtype with
  | 0 => m.ms.map fun b => m.row ++ b.pay
  | 1 => if m.ms.isEmpty then [m.row ++ List.replicate npay .null] else m.ms.map fun b => m.row ++ b.pay
  | 2 => if m.ms.isEmpty then [] else [m.row]
  | 3 => if m.ms.isEmpty then [m.row] else []
  | _ => if !hasRows then [m.row] else if m.nul || hasNull then [] else if m.ms.isEmpty then [m.row] else []

/-- The counters of PROBE (R262). -/
def probeCounts (ms : List Matched) (out : Nat) : Counts :=
  [ctr .pIn ms.length, ctr .pNullkey (ms.filter (·.nul)).length, ctr .pMatch (ms.filter fun m => !m.ms.isEmpty).length,
    ctr .pNomatch (ms.filter fun m => !m.nul && m.ms.isEmpty).length, ctr .pPairs (ms.map fun m => m.ms.length).sum, ctr .pOut out]

/-- The first failure of the lookups: a key string that is lost, or a table page that is poisoned (R330). -/
def State.probeLost (s : State) (e : QEnv) (op : Op) (ps : PipeState) (rows : List Row) : Option (Option Nat) :=
  rows.findSome? fun r => (s.keyPoison e (keyTypes e.info.mid op) (keyVals op r)).orElse fun _ =>
    if (s.probeChain e op ps r).any fun b =>
        s.rowBad e.q.qid (op.b 0) e.tableTile (e.img.pipes.getD (op.b 0) default).sink b.row then some none
    else none

/-- The rows that reach the sink with PROBE's counters, or the failure of data that is lost. -/
def State.probe (s : State) (e : QEnv) (rows : List Row) : Except QFail (List Row × Counts) :=
  match e.p.op? kProbe with
  | none => .ok (rows, [])
  | some op =>
    let ps := e.q.pipes.getD (op.b 0) {}
    match s.probeLost e op ps rows with
    | some a => .error { status := stUncorrectable, detail := 0, pipe := e.p.ix, op := e.p.opIx kProbe, addr := a }
    | none =>
      let npay := (e.img.pipes.getD (op.b 0) default).sink.cols.length
      let ms := rows.zipIdx.map fun r => s.matched e op ps r.1 r.2
      let out := ms.flatMap fun m => m.out (op.b 1) npay ps.hasRows ps.hasNull
      .ok (out, probeCounts ms out.length)

end Sys2Proof.Machine
end

