-- ==== Sys2Proof/Machine/QuerySink.lean ====
section
/-! DEFINITION. The sinks of a morsel: EXCHANGE with its partition buffers and tally (R241 to R250), BUILD (R253 to R258), AGGREGATE and
WINDOW (R263 to R268, R285, R286, R546), SORT and TOPK (R272 to R277, R283), and the emit area (R289), each with the counters that the
end of the morsel checks (R235, R297). -/

namespace Sys2Proof.Machine

def QEnv.sinkFail (e : QEnv) (status detail : Nat) (addr : Option Nat) : QFail :=
  { status := status, detail := detail, pipe := e.p.ix, op := e.p.sinkIx, addr := addr }

/-- What a sink has taken: its state if the morsel passes its tallies, its state if it does not, the counters, and the morsel table's
records that a commit merges (R267). -/
structure Sunk where
  pass   : PipeState
  void   : PipeState
  counts : Counts
  merge  : List Group := []
  deriving DecidableEq, Repr

/-! ### Partition buffers (R247) -/

def Page.bytes (p : Page) : Nat := (p.recs.map (·.length)).sum

def PipeState.putPart (ps : PipeState) (b : Part_) : PipeState :=
  if (ps.part? b.tile b.part).isSome then
    { ps with parts := ps.parts.map fun x => if x.tile = b.tile ∧ x.part = b.part then b else x }
  else { ps with parts := ps.parts ++ [b] }

/-- Pages of a tile's pool in use, and pages of it spilled. -/
def PipeState.sramPages (ps : PipeState) (tile : Nat) : Nat :=
  ((ps.parts.filter fun b => b.tile == tile).map fun b =>
    (b.closed.filter fun p => !p.spilled).length + boolNat b.open_.isSome).sum

def PipeState.spilledPages (ps : PipeState) (tile : Nat) : Nat :=
  ((ps.parts.filter fun b => b.tile == tile).map fun b => (b.closed.filter (·.spilled)).length).sum

/-- The earliest-closed page still in SRAM: partition and closing rank. -/
def PipeState.oldestPage (ps : PipeState) (tile : Nat) : Option (Nat × Nat) :=
  (ps.parts.filter fun b => b.tile == tile).foldl (fun best b =>
    (b.closed.filter fun p => !p.spilled).foldl (fun best p => match best with
      | none => some (b.part, p.stamp)
      | some x => if p.stamp < x.2 then some (b.part, p.stamp) else best) best) none

/-- The open page with the most bytes: its partition. -/
def PipeState.fullestOpen (ps : PipeState) (tile : Nat) : Option Nat :=
  ((ps.parts.filter fun b => b.tile == tile && b.open_.isSome).foldl (fun (best : Option (Nat × Nat)) b =>
    let n := (b.open_.map Page.bytes).getD 0
    match best with
    | none => some (b.part, n)
    | some x => if x.2 < n then some (b.part, n) else best) none).map (·.1)

/-- Close a partition's open page. -/
def PipeState.closePage (ps : PipeState) (tile part : Nat) (spilled : Bool) : PipeState :=
  match ps.part? tile part with
  | some b =>
    match b.open_ with
    | some p =>
      { ps.putPart { b with closed := b.closed ++ [{ p with spilled := spilled, stamp := ps.closes }], open_ := none } with
        closes := ps.closes + 1 }
    | none => ps
  | none => ps

/-- The spill engine frees a page: the earliest-closed one still in SRAM, else the open page with the most bytes (R247). -/
def PipeState.spillOne (ps : PipeState) (tile : Nat) : PipeState :=
  match ps.oldestPage tile with
  | some (part, stamp) =>
    { ps with parts := ps.parts.map fun b =>
        if b.tile = tile ∧ b.part = part then
          { b with closed := b.closed.map fun p => if p.stamp = stamp then { p with spilled := true } else p }
        else b }
  | none =>
    match ps.fullestOpen tile with
    | some part => ps.closePage tile part true
    | none => ps

/-- Make room for a new page; none when the spill reservation is used up (R248). -/
def PipeState.pageRoom (ps : PipeState) (op : Op) (tile : Nat) : Option PipeState :=
  if ps.sramPages tile < op.b 12 * pagesPerMib then some ps
  else if ps.spilledPages tile < op.u 14 2 * pagesPerMib then some (ps.spillOne tile)
  else none

/-- The pages of a tile that have been spilled. -/
def PipeState.spilledIds (ps : PipeState) (tile : Nat) : List Nat :=
  (ps.parts.filter fun b => b.tile == tile).flatMap fun b => (b.closed.filter (·.spilled)).map (·.id)

/-- Count a deposit in the receiver's tallies (R250, R483). -/
def PipeState.countRec (ps : PipeState) (tile : Nat) (r : List Byte) : PipeState :=
  let (pe, m, a) := recFrom r
  let hit (x : XrCount) : Bool := x.tile == tile && x.pe == pe && x.morsel == m && x.attempt == a
  if ps.xr.any hit then
    { ps with xr := ps.xr.map fun x =>
        if hit x then { x with cnt := x.cnt + 1, xor := x.xor ^^^ rowHash r, unacked := x.unacked + 1 } else x }
  else { ps with xr := ps.xr ++ [{ tile := tile, pe := pe, morsel := m, attempt := a, cnt := 1, xor := rowHash r, unacked := 1 }] }

/-- Put a record on a new page of a partition. -/
def PipeState.newPage (ps : PipeState) (tile part : Nat) (r : List Byte) : PipeState :=
  let b := (ps.part? tile part).getD { part := part, tile := tile }
  ({ ps.putPart { b with open_ := some { recs := [r], id := ps.opened } } with opened := ps.opened + 1 } : PipeState).countRec tile r

/-- Deposit a record in its partition buffer (R246, R247); none when no page can be had. -/
def PipeState.deposit (ps : PipeState) (op : Op) (tile part : Nat) (r : List Byte) : Option PipeState :=
  let b := (ps.part? tile part).getD { part := part, tile := tile }
  match b.open_ with
  | some p =>
    if p.bytes + r.length ≤ pageBytes then
      some ((ps.putPart { b with open_ := some { p with recs := p.recs ++ [r] } }).countRec tile r)
    else ((ps.closePage tile part false).pageRoom op tile).map fun ps => ps.newPage tile part r
  | none => (ps.pageRoom op tile).map fun ps => ps.newPage tile part r

def PipeState.depositAll (op : Op) : List (Nat × Nat × List Byte) → PipeState → Option PipeState
  | [], ps => some ps
  | (tile, part, r) :: rs, ps => match ps.deposit op tile part r with
    | some ps => ps.depositAll op rs
    | none => none

/-! ### EXCHANGE (R241 to R246) -/

/-- Partition of a row. -/
def State.partition (s : State) (e : QEnv) (op : Op) (img : List Byte) (vs : List Val) : Nat :=
  match op.b 0 with
  | 1 => (mix64 img).toNat / 2 ^ (48 - op.b 1) % 2 ^ op.b 1
  | 2 => crc32c img / 2 ^ (32 - op.b 1) % 2 ^ op.b 1
  | 3 =>
    let ks := keyTypes e.info.fin op
    ((op.splitters e.img.aux ks).filter fun sp => cmpKeys (s.strBytes e.t e.q) ks sp vs != .gt).length
  | _ => 0

/-- The n-th set bit of a mask, counting from 0. -/
def nthTile (mask n : Nat) : Nat := (maskTiles mask).getD n 0

/-- The tiles that receive a row of partition `p` (R241, R243). -/
def destTiles (op : Op) (mask p : Nat) : List Nat :=
  match op.b 0 with
  | 4 => maskTiles mask
  | 5 => [nthTile mask 0]
  | _ => [nthTile mask (p % max 1 (maskTiles mask).length)]

/-- The records that a morsel sends: tile, partition, record, in row order. -/
def State.sends (s : State) (e : QEnv) (op : Op) (pe attempt : Nat) (rows : List Row) : List (Nat × Nat × List Byte) :=
  let ks := keyTypes e.info.fin op
  let mask := e.q.masks.getD e.p.ix 0
  rows.flatMap fun row =>
    let vs := keyVals op row
    let img := s.keyImage e ks vs
    let h := if op.keys.isEmpty then 0 else (mix64 img).toNat
    let p := s.partition e op img vs
    let r := exchangeRecord h e.at_.morsel pe attempt e.info.recs (op.cols.map fun c => row.getD c .null)
    (destTiles op mask p).map fun t => (t, p, r)

/-- The records of one sender, morsel and attempt that a partition already holds. -/
def PipeState.heldFrom (ps : PipeState) (tile part pe morsel attempt : Nat) : List (List Byte) :=
  (ps.partRecords tile part).filter fun r => recFrom r == (pe, morsel, attempt)

/-- What is still to be deposited of the records sent: those already there arrived in the order sent (R246); none when what is there
is not what was sent. -/
def PipeState.remaining (ps : PipeState) (pe morsel attempt : Nat) (snd : List (Nat × Nat × List Byte)) :
    Option (List (Nat × Nat × List Byte)) :=
  let keys := snd.foldl (fun (acc : List (Nat × Nat)) x => if acc.contains (x.1, x.2.1) then acc else acc ++ [(x.1, x.2.1)]) []
  let held (k : Nat × Nat) : List (List Byte) := ps.heldFrom k.1 k.2 pe morsel attempt
  let sent (k : Nat × Nat) : List (List Byte) := (snd.filter fun x => x.1 == k.1 && x.2.1 == k.2).map (·.2.2)
  let strays := ps.parts.any fun b => !keys.contains (b.tile, b.part) && !(held (b.tile, b.part)).isEmpty
  if strays || !(keys.all fun k => (held k).isPrefixOf (sent k)) then none
  else some (keys.flatMap fun k => ((sent k).drop (held k).length).map fun r => (k.1, k.2, r))

/-- XS_CNT and XS_XOR toward a tile (R250). -/
def sentTally (snd : List (Nat × Nat × List Byte)) (tile : Nat) : Nat × BitVec 64 :=
  let l := snd.filter fun x => x.1 == tile
  (l.length, l.foldl (fun a x => a ^^^ rowHash x.2.2) 0)

/-- XR_CNT and XR_XOR of a tile. -/
def PipeState.recvTally (ps : PipeState) (tile pe morsel attempt : Nat) : Nat × BitVec 64 :=
  match ps.xr.find? fun x => x.tile == tile && x.pe == pe && x.morsel == morsel && x.attempt == attempt with
  | some x => (x.cnt, x.xor)
  | none => (0, 0)

/-- What an EXCHANGE morsel has still to send, with what it keeps for its tallies: the state after the records for the PE's own tile are
deposited, the records for other tiles, and XS_CNT and XS_XOR by tile of E (R250). -/
structure Sending where
  ps     : PipeState
  remote : List (Nat × Nat × List Byte)
  xs     : List (Nat × Nat × BitVec 64)
  deriving DecidableEq, Repr

/-- What is lost of the key strings of rows. -/
def State.keysLost (s : State) (e : QEnv) (op : Op) (rows : List Row) : Option (Option Nat) :=
  rows.findSome? fun r => s.keyPoison e (keyTypes e.info.fin op) (keyVals op r)

/-- The exchange of a morsel: records already deposited are not sent again. -/
def State.sinkExchange (s : State) (e : QEnv) (op : Op) (ps : PipeState) (pe attempt : Nat) (rows : List Row) :
    Except QFail Sending :=
  match s.keysLost e op rows with
  | some a => .error (e.sinkFail stUncorrectable 0 a)
  | none =>
    let snd := s.sends e op pe attempt rows
    let rest := (ps.remaining pe e.at_.morsel attempt snd).getD []
    match ps.depositAll op (rest.filter fun x => x.1 == e.t) with
    | none => .error (e.sinkFail stResultSpace 0x0020 none)
    | some ps =>
      .ok { ps := ps, remote := rest.filter fun x => x.1 != e.t
            xs := (maskTiles (e.q.masks.getD e.p.ix 0)).map fun t => (t, sentTally snd t) }

/-- The counters of an EXCHANGE at the morsel's end: E_IN, what was sent and what each tile has answered (R250). -/
def exchangeCounts (rows : Nat) (xs told : List (Nat × Nat × BitVec 64)) : Counts :=
  let pair (c : Nat → Ctr) (x : Nat → Ctr) (l : List (Nat × Nat × BitVec 64)) : Counts :=
    l.flatMap fun e => [ctr (c e.1) e.2.1, ctr (x e.1) e.2.2.toNat]
  ctr .eIn rows :: (pair .xsCnt .xsXor xs ++ pair .xrCnt .xrXor told)

/-! ### Space of a table -/

/-- Pages that `n` records of a length fill. -/
def pagesFor (n len : Nat) : Nat := ceilDiv n (max 1 (pageBytes / max 1 len))

/-- The DETAIL of RESULT_SPACE_EXHAUSTED when a table does not fit its pages: overflow buckets stay in TBUF pages (R256). -/
def tableSpace (tbuf spill ovf pages : Nat) : Option Nat :=
  if tbuf * pagesPerMib < ceilDiv ovf 256 then some 0x0022
  else if (tbuf + spill) * pagesPerMib < ceilDiv ovf 256 + pages then some 0x0021
  else none

/-- The pages of a table's row store. -/
def HashTable.pages (h : HashTable) : Nat := ceilDiv h.fill pageBytes

/-! ### BUILD (R257, R258) -/

/-- The key and payload types of a BUILD. -/
def QEnv.buildTys (e : QEnv) (op : Op) : List Ty :=
  ((keyTypes e.info.fin op).map (·.1)) ++ op.cols.map fun c => (e.info.fin.getD c default).ty

/-- Insert one record (R255): into its bucket's chain, or behind the first record with an equal key. -/
def PipeState.insertBuild (ps : PipeState) (log2b : Nat) (ts : List Ty) (b : BuildRow) : PipeState :=
  let x := (ps.table b.tile).alloc (b.bytes ts).length
  let b := { b with row := x.1 }
  match x.2.find log2b b.hash (ps.hasKey b.tile b.key) with
  | some r =>
    let linked (y : BuildRow) : BuildRow := if y.tile = b.tile ∧ y.row = r then { y with next := some b.row } else y
    let new : BuildRow := { b with next := (ps.rowAt b.tile r).bind (·.next) }
    ({ ps with build := ps.build.map linked ++ [new] } : PipeState).setTable x.2
  | none => ({ ps with build := ps.build ++ [b] } : PipeState).setTable (x.2.insert log2b b.hash b.row)

def State.sinkBuild (s : State) (e : QEnv) (op : Op) (ps : PipeState) (attempt : Nat) (rows : List Row) : Except QFail Sunk :=
  match s.keysLost e op rows with
  | some a => .error (e.sinkFail stUncorrectable 0 a)
  | none =>
    let tile := e.tableTile
    let good := rows.filter fun r => !keyNull (keyVals op r)
    let recs : List BuildRow := good.map fun r =>
      let img := s.keyImage e (keyTypes e.info.fin op) (keyVals op r)
      { tile := tile, row := 0, hash := mix64 img, key := img, keys := keyVals op r, pay := op.cols.map fun c => r.getD c .null
        morsel := e.at_.morsel, attempt := attempt }
    let ps := recs.foldl (fun ps b => ps.insertBuild (op.b 2) (e.buildTys op) b) { ps with
      buildNull := if good.length < rows.length then ps.buildNull ++ [(e.at_.morsel, attempt)] else ps.buildNull }
    let h := ps.table tile
    match tableSpace (op.u 4 2) (op.u 6 2) h.extra.length h.pages with
    | some d => .error (e.sinkFail stResultSpace d none)
    | none =>
      .ok { pass := ps, void := ps
            counts := [ctr .bIn rows.length, ctr .bIns recs.length, ctr .bNull (rows.filter fun r => keyNull (keyVals op r)).length] }

/-! ### AGGREGATE and WINDOW (R263 to R268, R285, R286) -/

/-- Add an exact argument. -/
def AggState.addInt (a : AggState) (i : Int) : AggState :=
  { a with sum := a.sum + i, res := (a.res + modM i) % resM, seen := true }

def AggState.addFloat (a : AggState) (t : Ty) (v : Val) : AggState :=
  { a with fsum := BitVec.ofNat 64 (fmt64.add a.fsum.toNat (toF64 t v)).1, seen := true }

/-- Order of two non-null values of one type. -/
def State.cmpAny (s : State) (e : QEnv) (t : Ty) (a b : Val) : Ordering :=
  if t.isStr then cmpBytes (s.strBytes e.t e.q a) (s.strBytes e.t e.q b) else cmpVal t a t b

/-- MIN or MAX of the value held and another; which of two values that compare equal stays is open. -/
def State.extreme (s : State) (e : QEnv) (t : Ty) (wantMin : Bool) (salt : Nat) (a : AggState) (v : Val) : AggState :=
  if !a.seen then { a with val := v, seen := true }
  else match s.cmpAny e t v a.val with
    | .lt => if wantMin then { a with val := v } else a
    | .gt => if wantMin then a else { a with val := v }
    | .eq => if v = a.val then a else { a with val := s.eitherOf salt a.val v }

/-- One argument taken into a function's state (R264). -/
def State.aggStep (s : State) (e : QEnv) (f : Fn) (phase : Nat) (row : Row) (salt : Nat) (a : AggState) : AggState :=
  let t := (e.info.fin.getD f.arg default).ty
  let v := row.getD f.arg .null
  let add (a : AggState) : AggState := if t.isFloat then a.addFloat t v else a.addInt v.int!
  match f.fn with
  | 1 => if phase = 2 then { a with cnt := a.cnt + v.int!.toNat } else { a with cnt := a.cnt + 1 }
  | 2 => if v.isNull then a else if phase = 2 then { a with cnt := a.cnt + v.int!.toNat } else { a with cnt := a.cnt + 1 }
  | 3 => if v.isNull then a else add a
  | 4 => if v.isNull then a else s.extreme e t true salt a v
  | 5 => if v.isNull then a else s.extreme e t false salt a v
  | 6 =>
    if phase = 2 then
      let a := { a with cnt := a.cnt + (row.getD f.arg2 .null).int!.toNat }
      if v.isNull then a else add a
    else if v.isNull then a else add { a with cnt := a.cnt + 1 }
  | _ =>
    if v.isNull then a
    else
      let k := t.keyBytes 0 (s.strBytes e.t e.q) v
      if a.distinct.any fun d => d.2 == k then a else { a with distinct := a.distinct ++ [(0, k)], cnt := a.cnt + 1 }

/-- Take one row into the group with a key on a tile. -/
def State.aggRow (s : State) (e : QEnv) (op : Op) (tile salt : Nat) (key : List Byte) (keys row : Row) (gs : List Group) : List Group :=
  let step (sts : List AggState) : List AggState :=
    (op.fns.zip sts).zipIdx.map fun x => s.aggStep e x.1.1 op.phase row (salt + x.2) x.1.2
  if gs.any fun g => g.tile == tile && g.key == key then
    gs.map fun g => if g.tile = tile ∧ g.key = key then { g with states := step g.states } else g
  else gs ++ [{ tile := tile, key := key, keys := keys, states := step (op.fns.map fun _ => {}) }]

/-- The windows of a time (R286): their starts inside the TIMESTAMP64 range. -/
def windowStarts (op : Op) (t : Int) : List Int :=
  let origin := toSigned 64 (op.u 8 8)
  let width := toSigned 64 (op.u 16 8)
  let hop := toSigned 64 (op.u 24 8)
  let d := t - origin
  let hi := d / hop
  let lo := (d - width) / hop + 1
  ((List.range 65).filter fun (k : Nat) => decide (lo + (k : Int) ≤ hi) && fitsSigned 64 (origin + (lo + (k : Int)) * hop)).map fun (k : Nat) =>
    origin + (lo + (k : Int)) * hop

/-- The (leading key bytes, row) pairs that a row contributes: one, or one for each of its windows. -/
def aggTargets (op : Op) (row : Row) : List (List Byte × Row) :=
  if op.kind = kWindow then
    match row.getD (op.b 0) .null with
    | .int t => (windowStarts op t).map fun w => (({ code := tyTime } : Ty).keyField 0 (fun _ => []) (.int w), [.int w])
    | _ => []
  else [([], [])]

/-- The value that the distinct entries of a function hold, as bytes: their record's length does not depend on it. -/
def distinctLen (op : Op) (cols : List Col) (f : Fn) (keys : Row) : Nat :=
  (distinctRecord op cols keys (cols.getD f.arg default).ty .null).length

/-- Bytes of a group's records: its own and those of its distinct entries. -/
def groupBytes (op : Op) (cols : List Col) (g : Group) : Nat :=
  (g.bytes op cols).length + ((op.fns.zip g.states).map fun e => distinctLen op cols e.1 g.keys * e.2.distinct.length).sum

/-- A PE's morsel table, and the staging run to which a full one has moved (R267). -/
structure MorselTable where
  table  : List Group := []
  staged : List Group := []
  deriving DecidableEq, Repr

/-- Bytes of the local buffer that a morsel table may take. -/
def morselTableBytes : Nat := 262144

/-- Take a row into the morsel table; a table that it would overfill moves to the staging run first. -/
def State.morselRow (s : State) (e : QEnv) (op : Op) (salt : Nat) (key : List Byte) (keys row : Row) (m : MorselTable) : MorselTable :=
  let t := s.aggRow e op e.tableTile salt key keys row m.table
  if morselTableBytes < (t.map (groupBytes op e.info.fin)).sum ∧ m.table ≠ [] then
    { table := s.aggRow e op e.tableTile salt key keys row [], staged := m.staged ++ m.table }
  else { m with table := t }

/-- The pairs of key image, key columns and row that a morsel's rows come to: one a row, or one for each of its windows. -/
def State.aggInputs (s : State) (e : QEnv) (op : Op) (rows : List Row) : List (List Byte × Row × Row) :=
  rows.flatMap fun r => (aggTargets op r).map fun w =>
    (w.1 ++ s.keyImage e (keyTypes e.info.fin op) (keyVals op r), w.2 ++ keyVals op r, r)

/-- The counters of one function (R268): `args` are the arguments that it got, `gs` the records of the morsel table and staging run. -/
def fnCounts (f : Nat) (fn : Fn) (t : Ty) (args : List Val) (gs : List Group) : Counts :=
  let good := if fn.fn = 1 then args else args.filter fun v => !v.isNull
  [ctr (.nAgg f) good.length, ctr (.nNull f) (args.length - good.length)] ++
    (if (fn.fn = 3 ∨ fn.fn = 6) ∧ t.isFloat = false then
      [(.aIn f, (good.map fun v => v.int!).sum), (.aTab f, (gs.map fun g => (g.states.getD f {}).sum).sum),
        ctr (.aRes f) ((good.map fun v => modM v.int!).sum % resM)]
    else [])

/-- The counters of a WINDOW's time column (R297). -/
def windowCounts (op : Op) (rows : List Row) : Counts :=
  if op.kind ≠ kWindow then [] else
  let isNull (r : Row) : Bool := (r.getD (op.b 0) .null).isNull
  let n (r : Row) : Nat := (aggTargets op r).length
  [ctr .wIn rows.length, ctr .wNull (rows.filter isNull).length,
    ctr .wNone (rows.filter fun r => !isNull r && n r == 0).length, ctr .wHit (rows.filter fun r => n r != 0).length,
    ctr .wPairs (rows.map n).sum]

/-- What is lost of the strings that keys and arguments read. -/
def State.aggLost (s : State) (e : QEnv) (op : Op) (rows : List Row) : Option (Option Nat) :=
  let args := op.fns.filter fun f => decide (4 ≤ f.fn) && f.fn != 6
  (s.keysLost e op rows).orElse fun _ => rows.findSome? fun r =>
    s.keyPoison e (args.map fun f => ((e.info.fin.getD f.arg default).ty, 0)) (args.map fun f => r.getD f.arg .null)

/-- DETAIL 0x0031 replaces 0x0021 and 0x0022 in a WINDOW (R286). -/
def aggDetail (op : Op) (d : Nat) : Nat := if op.kind = kWindow then 0x0031 else d

/-- Whether the table of a tile with a staging run of given bytes fits its pages. -/
def aggSpace (op : Op) (h : HashTable) (staged : Nat) : Option Nat :=
  (tableSpace (op.u (op.aggBase + 6) 2) (op.u (op.aggBase + 8) 2) h.extra.length (h.pages + ceilDiv staged pageBytes)).map (aggDetail op)

/-- A morsel of AGGREGATE or WINDOW: its morsel table and staging run wait for the commit. -/
def State.sinkAgg (s : State) (e : QEnv) (op : Op) (ps : PipeState) (rows : List Row) : Except QFail Sunk :=
  match s.aggLost e op rows with
  | some a => .error (e.sinkFail stUncorrectable 0 a)
  | none =>
    let ins := s.shuffle 1 (s.aggInputs e op rows)
    let m := ins.zipIdx.foldl (fun m x => s.morselRow e op (64 * x.2) x.1.1 x.1.2.1 x.1.2.2 m) ({} : MorselTable)
    let gs := m.staged ++ m.table
    match aggSpace op (ps.table e.tableTile) ((m.staged.map (groupBytes op e.info.fin)).sum) with
    | some d => .error (e.sinkFail stResultSpace d none)
    | none =>
      .ok { pass := { ps with ran := if ps.ran.contains e.tableTile then ps.ran else ps.ran ++ [e.tableTile] }, void := ps, merge := gs
            counts := ctr .gIn ins.length :: windowCounts op rows ++ op.fns.zipIdx.flatMap fun f =>
              fnCounts f.2 f.1 (e.info.fin.getD f.1.arg default).ty (ins.map fun x => x.2.2.getD f.1.arg .null) gs }

/-! ### The commit of a morsel table (R267) -/

/-- Two states of one function combined; distinct entries apart. -/
def State.mergeAgg (s : State) (e : QEnv) (f : Fn) (salt : Nat) (a b : AggState) : AggState :=
  let t := (e.info.fin.getD f.arg default).ty
  match f.fn with
  | 4 => if b.seen then s.extreme e t true salt a b.val else a
  | 5 => if b.seen then s.extreme e t false salt a b.val else a
  | 7 => a
  | _ =>
    { a with
      cnt := a.cnt + b.cnt, sum := a.sum + b.sum, res := (a.res + b.res) % resM, seen := a.seen || b.seen
      fsum := if !b.seen then a.fsum else if !a.seen then b.fsum else BitVec.ofNat 64 (fmt64.add a.fsum.toNat b.fsum.toNat).1 }

/-- The distinct entries of one function of a group: one that is new to the tile table takes a record and adds one to the count. -/
def HashTable.addDistinct (log2b len : Nat) (key : List Byte) : List (Nat × List Byte) → HashTable → AggState → HashTable × AggState
  | [], h, a => (h, a)
  | (_, v) :: r, h, a =>
    let hash := mix64 (key ++ 0 :: v)
    match h.find log2b hash fun row => a.distinct.contains (row, v) with
    | some _ => HashTable.addDistinct log2b len key r h a
    | none =>
      let x := h.alloc len
      HashTable.addDistinct log2b len key r (x.2.insert log2b hash x.1) { a with distinct := a.distinct ++ [(x.1, v)], cnt := a.cnt + 1 }

/-- The distinct entries of every function of a group. -/
def mergeDistinct (e : QEnv) (op : Op) (g : Group) (h : HashTable) (sts : List AggState) : HashTable × List AggState :=
  (op.fns.zipIdx.zip (sts.zip g.states)).foldl (fun (acc : HashTable × List AggState) x =>
    if x.1.1.fn = 7 then
      let y := HashTable.addDistinct (op.b (op.aggBase + 3)) (distinctLen op e.info.fin x.1.1 g.keys) g.key x.2.2.distinct acc.1 x.2.1
      (y.1, acc.2 ++ [y.2])
    else (acc.1, acc.2 ++ [x.2.1])) (h, [])

/-- Merge one record into the table of its tile (R255, R267). -/
def State.mergeGroup (s : State) (e : QEnv) (op : Op) (salt : Nat) (g : Group) (ps : PipeState) : PipeState :=
  let log2b := op.b (op.aggBase + 3)
  let hash := mix64 g.key
  let h := ps.table g.tile
  let held (row : Nat) : Bool := ps.groups.any fun x => x.tile == g.tile && x.row == row && x.key == g.key
  let combine (sts : List AggState) : List AggState :=
    (op.fns.zipIdx.zip (sts.zip g.states)).map fun x => s.mergeAgg e x.1.1 (salt + x.1.2) x.2.1 x.2.2
  match h.find log2b hash held with
  | some row =>
    let old := (ps.groups.find? fun x => x.tile == g.tile && x.row == row).map (·.states) |>.getD []
    let y := mergeDistinct e op g h (combine old)
    let put (x : Group) : Group := if x.tile = g.tile ∧ x.row = row then { x with states := y.2 } else x
    ({ ps with groups := ps.groups.map put } : PipeState).setTable y.1
  | none =>
    let x := h.alloc (g.bytes op e.info.fin).length
    let y := mergeDistinct e op g (x.2.insert log2b hash x.1) (combine (op.fns.map fun _ => {}))
    ({ ps with groups := ps.groups ++ [{ g with row := x.1, states := y.2 }] } : PipeState).setTable y.1

/-- A record's group in the tile table lies in a poisoned page. -/
def State.groupBad (s : State) (e : QEnv) (op : Op) (ps : PipeState) (g : Group) : Bool :=
  ps.groups.any fun x => x.tile == g.tile && x.key == g.key && s.rowBad e.q.qid e.p.ix x.tile op x.row

/-- The commit: every record of the morsel table and staging run is merged once, in an order that is open. -/
def State.commitAgg (s : State) (e : QEnv) (op : Op) (ps : PipeState) (gs : List Group) : Except QFail PipeState :=
  if gs.any (s.groupBad e op ps) then .error (e.sinkFail stUncorrectable 0 none)
  else
    let ps := (s.shuffle 5 gs).zipIdx.foldl (fun ps g => s.mergeGroup e op (64 * g.2) g.1 ps) ps
    match aggSpace op (ps.table e.tableTile) 0 with
    | some d => .error (e.sinkFail stResultSpace d none)
    | none => .ok ps

/-! ### SORT and TOPK (R272 to R277, R283) -/

/-- The normalized key of a row (R272). -/
def State.sortKey (s : State) (e : QEnv) (op : Op) (row : Row) : List Byte :=
  (op.keys.zipIdx).flatMap fun k =>
    ((e.info.fin.getD k.1.1 default).ty).sortField (op.desc k.2) (op.nullsFirst k.2) k.1.2 (op.plen k.2) (s.strBytes e.t e.q)
      (row.getD k.1.1 .null)

/-- Sort records by key; tied rows stand in an open order (R273). -/
def State.sortRecs (s : State) (salt : Nat) (rs : List SortRec) : List SortRec :=
  sortBy (fun a b => cmpBytes a.nkey b.nkey != .gt) (s.shuffle salt rs)

/-- The run group of a morsel: the partition it read, or its tile (R277). -/
def QEnv.runGroup (e : QEnv) : Nat × Nat := if e.p.plan.src = 2 then (e.at_.tile, e.at_.part) else (e.tableTile, e.tableTile)

/-- KSUM of a normalized key: its five big-endian words, each modulo M (R297). -/
def keySum (nkey : List Byte) : Nat := ((chunks 8 (cut nkey 0 40)).map fun w => leNat w.reverse % resM).sum % resM

def keySums (rs : List SortRec) : Nat := (rs.map fun r => keySum r.nkey).sum % resM

/-- Adjacent pairs whose later key is less (R297). -/
def outOfOrder : List SortRec → Nat
  | a :: b :: r => boolNat (cmpBytes b.nkey a.nkey == .lt) + outOfOrder (b :: r)
  | _ => 0

/-- ROW of the n-th place for records of one length: records do not span pages (log 94). -/
def slotRow (len n : Nat) : Nat := n / (pageBytes / max 1 len) * (pageBytes / 8) + n % (pageBytes / max 1 len) * (len / 8)

/-- The lowest `k` places that are not in use. -/
def freeRows (len : Nat) (used : List Nat) (k : Nat) : List Nat :=
  (((List.range (used.length + k)).map (slotRow len)).filter fun r => !used.contains r).take k

/-- The runs on a tile. -/
def PipeState.tileRecs (ps : PipeState) (tile : Nat) : List SortRec := (ps.runs.filter fun r => r.tile == tile).flatMap (·.recs)

/-- The places of a tile's row store in use, those of void records included. -/
def PipeState.usedRows (ps : PipeState) (tile : Nat) : List Nat :=
  (ps.tileRecs tile).map (·.row) ++ (ps.voidRows.filter fun x => x.1 == tile).map (·.2)

/-- Pages of key records and row-store records. -/
def sortPages (len keys rows : Nat) : Nat := pagesFor keys 48 + pagesFor rows len

/-- The key and payload columns of a SORT or TOPK. -/
def sortCols (op : Op) : List Nat := (op.keys.map (·.1)) ++ op.cols

/-- The records of a morsel's rows, each with its place (R276). -/
def State.sortRows (s : State) (e : QEnv) (op : Op) (len : Nat) (used : List Nat) (attempt : Nat) (rows : List Row) : List SortRec :=
  (rows.zip (freeRows len used rows.length)).map fun r =>
    { nkey := s.sortKey e op r.1, row := r.2, cols := (sortCols op).map fun c => r.1.getD c .null, morsel := e.at_.morsel
      attempt := attempt }

/-- The run group of a morsel, and the run that holds its list, without it. -/
def PipeState.withoutGroup (ps : PipeState) (k : Nat × Nat) : List SRun := ps.runs.filter fun r => !(r.tile == k.1 && r.group == k.2)

/-- TOPK: the list of a run group after a morsel's records have been merged (R283). -/
def State.topList (s : State) (op : Op) (old recs : List SortRec) : List SortRec :=
  (s.sortRecs 65537 (old ++ recs)).take (op.u 56 4 + op.u 60 4)

/-- The counters of TOPK (R297). -/
def topCounts (old recs new : List SortRec) : Counts :=
  let dropped := (old ++ recs).filter fun r => !new.any fun x => x.row == r.row
  [ctr .c0 old.length, ctr .k0 (keySums old), ctr .n recs.length, ctr .kn (keySums recs), ctr .c1 new.length, ctr .k1 (keySums new),
    ctr .cd dropped.length, ctr .kd (keySums dropped), ctr .ord (outOfOrder new)]

/-- The counters of run formation (R297). -/
def sortCounts (rows run : List SortRec) : Counts :=
  [ctr .sIn rows.length, ctr .sOut run.length, ctr .ksIn (keySums rows), ctr .ksOut (keySums run), ctr .ord (outOfOrder run)]

def State.sinkSort (s : State) (e : QEnv) (op : Op) (ps : PipeState) (attempt : Nat) (rows : List Row) : Except QFail Sunk :=
  let ks := op.keys.map fun k => ((e.info.fin.getD k.1 default).ty, k.2)
  match rows.findSome? fun r => s.keyPoison e ks (keyVals op r) with
  | some a => .error (e.sinkFail stUncorrectable 0 a)
  | none =>
    let k := e.runGroup
    let len := recLen ((sortCols op).map fun c => (e.info.fin.getD c default).ty)
    let used := ps.usedRows k.1
    let recs := s.sortRows e op len used attempt rows
    let run := s.sortRecs 1 recs
    let void := { ps with voidRows := ps.voidRows ++ recs.map fun r => (k.1, r.row) }
    if (op.b 3 + op.u 4 2) * pagesPerMib < sortPages len ((ps.tileRecs k.1).length + recs.length) (used.length + recs.length) then
      .error (e.sinkFail stResultSpace 0x0030 none)
    else if op.kind = kTopk then
      let old := (ps.runs.filter fun r => r.tile == k.1 && r.group == k.2).flatMap (·.recs)
      let top := s.topList op old run
      .ok { pass := { ps with runs := ps.withoutGroup k ++ [{ tile := k.1, group := k.2, recs := top }] }, void := void
            counts := topCounts old run top }
    else
      .ok { pass := if run.isEmpty then ps else { ps with runs := ps.runs ++ [{ tile := k.1, group := k.2, recs := run }] }, void := void
            counts := sortCounts recs run }

/-! ### Emit area (R289) -/

/-- Bytes of a row in PE form in the emit area (log 24). -/
def emitRowBytes (e : QEnv) (op : Op) : Nat := recLen (op.cols.map fun c => (e.info.fin.getD c default).ty) - 24

def Op.limit (op : Op) : Nat := op.u 8 8

/-- The rows of a morsel go to the emit area; once LIMIT has been reached, those of a running morsel are dropped (R291). -/
def sinkEmit (e : QEnv) (op : Op) (ps : PipeState) (rows : List Row) : Except QFail Sunk :=
  let tile := e.tableTile
  let full := op.limit != 0 && decide (op.limit ≤ ps.taken)
  let out := if full then [] else rows.map fun r => op.cols.map fun c => r.getD c .null
  let held := ((ps.ready.filter fun x => x.tile == tile).map fun x => x.rows.length).sum
  if op.u 4 2 * 1048576 < (held + out.length) * emitRowBytes e op then .error (e.sinkFail stResultSpace 0x0032 none)
  else
    .ok { pass := { ps with ready := ps.ready ++ [{ seq := e.at_.seq, morsel := e.at_.morsel, tile := tile, rows := out }] }, void := ps
          counts := [ctr .mIn rows.length, ctr .mOut out.length, ctr .mLimit (if full then rows.length else 0)] }

/-! ### All sinks -/

/-- Take the rows of a morsel into the sink of its pipeline; EXCHANGE apart. -/
def State.sink (s : State) (e : QEnv) (attempt : Nat) (rows : List Row) : Except QFail Sunk :=
  let op := e.p.sink
  let ps := e.q.pipes.getD e.p.ix {}
  if op.kind = kBuild then s.sinkBuild e op ps attempt rows
  else if op.kind = kAgg ∨ op.kind = kWindow then s.sinkAgg e op ps rows
  else if op.kind = kSort ∨ op.kind = kTopk then s.sinkSort e op ps attempt rows
  else sinkEmit e op ps rows

end Sys2Proof.Machine
end

