-- ==== Sys2Proof/Machine/Rings.lean ====
section
/-! DEFINITION. Rings: doorbells, reads of entries, arbitration and fetch, completions and interrupts, and the queue registers' events
(R65 to R95, R547, R548). -/

namespace Sys2Proof.Machine

/-! ### Modes and positions -/

/-- Modes in which the host reaches BAR0 and BAR2 in full, writes to firmware's blocks included (R34, R508). -/
def Mode.hostWritable : Mode → Bool
  | .ready | .service | .degraded | .dusk | .midnight => true
  | _ => false

/-- The mode lets a queue be fetched (R34, R86). -/
def Mode.fetches (m : Mode) (q : Nat) : Bool := m.serving || (m == .ready && q == 0)

def Queue.tailPos (u : Queue) : Nat := u.pos u.tailIx u.tailWrap
def Queue.headPos (u : Queue) : Nat := u.pos u.headIx u.headWrap

/-- Entries between head and tail (R69). -/
def Queue.occupancy (u : Queue) : Nat := (u.tailPos + 2 * u.depth - u.headPos) % (2 * u.depth)

/-- The ring index `k` entries past the head. -/
def Queue.ixAt (u : Queue) (k : Nat) : Nat := (u.headIx + k) % u.depth

/-- A queue may be read and fetched: enabled, no reset or ring fault, its tile's mode fetches, its slice is not held. -/
def State.queueLive (s : State) (q : Nat) : Bool :=
  let u := s.queue q
  u.enable && !u.resetBusy && !u.ringFault && s.live (tid u.home) && (s.tile (tid u.home)).mode.fetches q && !s.sliceHeld u.slice &&
  (s.slc u.slice).st == .active

/-! ### DOORBELL (R68, R70, R448) -/

/-- A doorbell write is discarded: its form, its PASID, or the cases of R70. -/
def State.doorbellBad (s : State) (w : DoorbellWrite) : Bool :=
  let u := s.queue w.q.val
  let v := w.value.toNat
  let tail := bits v 15 0
  let d := u.depth
  decide (w.off ≠ 0 ∨ w.size ≠ 4) ||
  (w.pasid.any fun p => u.slice == 0 || (s.slc u.slice).pasid != p) ||
  decide (d ≤ tail) || !u.enable || u.resetBusy ||
  decide (d < (u.pos tail (bit v 16) + 2 * d - u.headPos) % (2 * d))

/-- Modes in which a doorbell reaches the queues (R34). -/
def Mode.doorbells : Mode → Bool
  | .activate => true
  | m => m.hostWritable

def doorbellEff (w : DoorbellWrite) (s : State) : State :=
  if s.dev.mode.doorbells = false ∨ s.portUp w.port = false then s
  else if s.doorbellBad w then s.onQueue w.q.val fun u => { u with dbErr := true }
  else
    let v := w.value.toNat
    s.onQueue w.q.val fun u => { u with tailIx := bits v 15 0, tailWrap := bit v 16, stalls := [] }

/-- DOORBELL (R70). -/
def execDoorbell (w : DoorbellWrite) (s : State) : Res := .next (doorbellEff w s)

/-! ### Reads (R72 to R76, R547) -/

/-- The ring index of a command's FIRST entry. A command fetched while another with the same index is in flight is told from it by a
multiple of 2^16 (log 83). -/
def Cmd.ringIx (x : Cmd) : Nat := x.ref.ix % 65536

/-- Ring indices of the entries of commands in flight, which lie in the ring that the queue has now. -/
def State.heldIxs (s : State) (q : Nat) : List Nat :=
  ((s.cmdsOf q).filter fun x => x.ring.base == (s.queue q).base).flatMap fun x =>
    (List.range x.entries.length).map fun k => (x.ringIx + k) % (s.queue q).depth

/-- The read window: offsets from the head, up to the first entry of a command in flight (R72). -/
def State.window (s : State) (q : Nat) : List Nat :=
  let u := s.queue q
  let held := s.heldIxs q
  (List.range (min 32 u.depth)).takeWhile fun k => !held.contains (u.ixAt k)

/-- An entry was read with OWN clear since the last doorbell (R75). -/
def Queue.stalled (u : Queue) (ix : Nat) : Bool := u.stalls.any fun e => e.ix == ix

/-- The offsets that are read now: no copy held, and no entry that waits to be read again (R73, R75). -/
def State.toRead (s : State) (q : Nat) : List Nat :=
  let u := s.queue q
  (s.window q).filter fun k => !(u.copies.any fun e => e.ix == u.ixAt k) && !u.stalled (u.ixAt k)

/-- OWN of an entry. -/
def ownSet (e : List Byte) : Bool := bit (byteAt e 63) 7
def firstSet (e : List Byte) : Bool := bit (byteAt e 63) 5
def lastSet (e : List Byte) : Bool := bit (byteAt e 63) 4
def irqNow (e : List Byte) : Bool := bit (byteAt e 63) 3

/-- A ring read or a completion write has failed: RING_FAULT and a HOST_FAULT record (R547, R548). -/
def State.faultRing (s : State) (q cid addr status : Nat) : State :=
  let u := s.queue q
  (s.logErr (tid u.home) { errRec evHostFault 2 with slice := u.slice, queue := q, cid := cid, addr := addr, status := status }).onQueue q
    fun u => { u with ringFault := true }

/-- Take one entry as read: a copy with OWN set is kept; a covered entry with OWN clear is to be read again; a failed read of a
covered entry faults the ring. -/
def State.takeEntry (s : State) (q k : Nat) (r : EntryRead) : State :=
  let u := s.queue q
  let covered := decide (k < u.occupancy)
  if u.ringFault then s else
  match r with
  | .ok bs =>
    let e := cut bs 0 64
    if ownSet e then s.onQueue q fun u => { u with copies := u.copies ++ [{ ix := u.ixAt k, bytes := e }] }
    else if covered then s.onQueue q fun u => { u with stalls := u.stalls ++ [{ ix := u.ixAt k }] }
    else s
  | .bad e => if covered then s.faultRing q 0 (u.base + 64 * u.ixAt k) (hostStatus e) else s

/-- RING_ENTRY_READ (R72): the entries of the window that have no copy, in ring order. -/
def execRingEntryRead (q : QueueId) (reads : List EntryRead) (s : State) : Res :=
  .next (if s.queueLive q.val then
    ((s.toRead q.val).zip reads).foldl (fun s p => s.takeEntry q.val p.1 p.2) s
  else s)

/-- The entry that is read again next: the first that has not been read again 8 times. -/
def Queue.rereadNext (u : Queue) : Option Stall := u.stalls.find? fun e => decide (e.reads < 8)

/-- An entry has been read again and is still not owned: counted, and the 8th time sets OWN_STALL. -/
def Queue.countReread (u : Queue) (k : Stall) : Queue :=
  { u with
    stalls := u.stalls.map fun e => if e.ix = k.ix then { e with reads := e.reads + 1 } else e
    ownStall := u.ownStall || decide (8 ≤ k.reads + 1) }

/-- An entry has been read again with OWN set. -/
def Queue.takeReread (u : Queue) (k : Stall) (e : List Byte) : Queue :=
  { u with copies := u.copies ++ [{ ix := k.ix, bytes := e }], stalls := u.stalls.filter fun x => decide (x.ix ≠ k.ix) }

/-- OWN_REREAD (R75): each entry up to 8 times, then OWN_STALL, and no more reads of it until the next doorbell. -/
def ownRereadEff (q : Nat) (r : EntryRead) (s : State) : State :=
  let u := s.queue q
  match u.rereadNext with
  | none => s
  | some k =>
    if s.queueLive q = false then s else
    match r with
    | .ok bs =>
      let e := cut bs 0 64
      s.onQueue q fun u => if ownSet e then u.takeReread k e else u.countReread k
    | .bad e => s.faultRing q 0 (u.base + 64 * k.ix) (hostStatus e)

def execOwnReread (q : QueueId) (r : EntryRead) (s : State) : Res := .next (ownRereadEff q.val r s)

/-! ### Arbitration and fetch (R77, R78, R81, R88 to R90) -/

/-- The usable copy of the entry `k` past the head: covered, and read with OWN set. -/
def Queue.copyAt (u : Queue) (k : Nat) : Option (List Byte) :=
  if k < u.occupancy then (u.copies.find? fun e => e.ix == u.ixAt k).map (·.bytes) else none

/-- The command at the head, from its entry `k` on: how many entries it takes, and the error location of a malformed chain (R78);
none while an entry is missing. -/
def Queue.chainFrom (u : Queue) : Nat → Nat → Option (Nat × Option Nat)
  | 0, _ => some (16, some 1023)
  | fuel + 1, k =>
    match u.copyAt k with
    | none => none
    | some e =>
      if k = 0 ∧ firstSet e = false then some (1, some 63)
      else if k ≠ 0 ∧ firstSet e = true then some (k, some (64 * k + 63))
      else if lastSet e then some (k + 1, none)
      else u.chainFrom fuel (k + 1)

def Queue.headChain (u : Queue) : Option (Nat × Option Nat) := u.chainFrom 16 0

/-- The class in force: queue 0 is always URGENT (R86). -/
def State.classOf (s : State) (q : Nat) : Nat := if q = 0 then 0 else (s.queue q).cls

/-- A queue of tile `t` is ready (R81, R88). -/
def State.ready (s : State) (t : TileId) (q : Nat) : Bool :=
  let u := s.queue q
  u.home == t.val && s.queueLive q && decide ((s.cmdsOf q).length < 256) &&
  decide ((s.cmds.filter fun x => x.home == t.val).length < 2048) && u.headChain.isSome

/-- The queues of tile `t` in a class that are ready, in queue-number order. -/
def State.readyIn (s : State) (t : TileId) (c : Nat) : List Nat :=
  (s.queues.map (·.1)).filter fun q => decide (q < 4096) && s.classOf q == c && s.ready t q

/-- The reference of a command fetched at a ring index: the index itself, unless a command in flight bears it. -/
def State.newRef (s : State) (q : QueueId) (ix : Nat) : CmdRef :=
  let used := (s.cmdsOf q.val).map (·.ref.ix)
  { q := q, ix := (((List.range (used.length + 1)).map fun n => ix + 65536 * n).find? fun i => !used.contains i).getD ix }

/-- The query identifier after the last one given that no running query and no fetched QUERY_RUN bears (R337). -/
def State.nextQid (s : State) : Nat :=
  let used := s.queries.map (·.qid) ++ (s.cmds.filter fun x => x.op == 0x32).map (·.qid)
  ((List.range (used.length + 1)).map fun k => (s.qidNext + 1 + k) % 65536).find? (fun k => !used.contains k) |>.getD 0

/-- A fetched QUERY_RUN takes its query identifier. -/
def State.giveQid (s : State) (x : Cmd) : State :=
  if x.op = 0x32 then { s with cmds := s.cmds ++ [{ x with qid := s.qidNext }], order := s.order + 1, qidNext := s.nextQid }
  else { s with cmds := s.cmds ++ [x], order := s.order + 1 }

/-- Fetch the command at the head of a queue (R77, R78, R96, R107 checks 1 to 5). The Boolean of R82 rides in its entries. -/
def State.fetchOne (s : State) (q : QueueId) : State :=
  let u := s.queue q.val
  match u.headChain with
  | none => s
  | some (n, bad) =>
    let ents := (List.range n).filterMap u.copyAt
    let x : Cmd :=
      { ref := s.newRef q u.headIx, wrap := u.headWrap, entries := ents, home := u.home, order := s.order, slice := u.slice
        sgen := (s.slc u.slice).gen, qgen := u.gen, cls := s.classOf q.val, registered := false
        ring := u.ring }
    let gone := (List.range n).map u.ixAt
    let s := s.setQueue q.val { u with
      copies := u.copies.filter fun e => !gone.contains e.ix
      headIx := u.ixAt n, headWrap := u.headWrap != decide (u.depth ≤ u.headIx + n) }
    let s := s.fenceAdvance q.val n x.order
    let s := s.giveQid x
    match bad with
    | some e => s.finish x.ref { status := stChainMalformed, errloc := e }
    | none =>
      match firstFail [s.fetchCheck x, s.queryFields x] with
      | some k => s.finish x.ref k
      | none => s.registerAll

/-- One turn of a queue: commands until the entries fetched reach BURST (R88, R89). -/
def State.serveTurn (s : State) (t : TileId) (q : QueueId) (burst : Nat) : Nat → Nat → State
  | 0, _ => s
  | fuel + 1, n =>
    if n < burst ∧ s.ready t q.val = true then
      (s.fetchOne q).serveTurn t q burst fuel (n + (((s.queue q.val).headChain).map (·.1)).getD 1)
    else s

def qid (n : Nat) : QueueId := ⟨n % 4096, Nat.mod_lt _ (by decide)⟩

/-- The queues of a class on a tile that forfeit their remaining turns: reached and not ready (R88). -/
def State.forfeit (s : State) (t : TileId) (c upTo : Nat) : State :=
  { s with queues := s.queues.map fun e =>
      if e.2.home = t.val ∧ s.classOf e.1 = c ∧ e.1 < upTo then (e.1, { e.2 with turnsLeft := 0 }) else e }

/-- The next queue of a class by weighted round robin, with its turn taken (R88). A new round gives every ready queue WEIGHT
turns. -/
def State.nextWrr (s : State) (t : TileId) (c : Nat) : Option (Nat × State) :=
  match (s.readyIn t c).find? fun q => 0 < (s.queue q).turnsLeft with
  | some q => some (q, (s.forfeit t c q).onQueue q fun u => { u with turnsLeft := u.turnsLeft - 1 })
  | none =>
    let rs := s.readyIn t c
    match rs.head? with
    | none => none
    | some q =>
      let s := s.forfeit t c 4096
      let s := rs.foldl (fun s q => s.onQueue q fun u => { u with turnsLeft := u.weight }) s
      some (q, s.onQueue q fun u => { u with turnsLeft := u.turnsLeft - 1 })

/-- The next class among HIGH, MEDIUM and LOW, with its turn taken: a round gives each class its weight, 0 counting as 1 (R88, R89). -/
def State.nextClass (s : State) (t : TileId) : Option (Nat × State) :=
  let rdy := [1, 2, 3].filter fun c => !(s.readyIn t c).isEmpty
  let left := (s.tile t).classLeft
  let take (c : Nat) (l : List Nat) : Nat × State :=
    (c, s.onTile t fun x => { x with classLeft := l.set (c - 1) (l.getD (c - 1) 0 - 1) })
  match rdy.find? fun c => 0 < left.getD (c - 1) 0 with
  | some c => some (take c left)
  | none =>
    match rdy.head? with
    | some c => some (take c ((s.tile t).wgt.map (max 1)))
    | none => none

/-- ARBITRATE (R88): one turn. -/
def arbitrateEff (t : TileId) (s : State) : State :=
  let turn (r : Option (Nat × State)) (s : State) : State :=
    match r with
    | some (q, s') => s'.serveTurn t (qid q) (s'.queue q).burst 64 0
    | none => s
  if (s.readyIn t 0).isEmpty then
    match s.nextClass t with
    | some (c, s') => turn (s'.nextWrr t c) s
    | none => s
  else turn (s.nextWrr t 0) s

def execArbitrate (t : TileId) (s : State) : Res := .next (arbitrateEff t s)

/-! ### COMMAND_COMPLETE (R79, R82, R83, R102, R103, R548) -/

/-- The completion written over the FIRST entry (R102). -/
def Cmd.completion (x : Cmd) : List Byte :=
  let e := x.entries.headD []
  let k := x.comp
  leBytes 1 x.op ++ [0] ++ leBytes 2 x.cid ++ leBytes 2 k.status ++ [0, 0] ++ cut k.result 0 40 ++ leBytes 8 k.tstamp ++
  leBytes 2 k.errloc ++ leBytes 2 k.detail ++ [0, 0, 0] ++
  leBytes 1 (0x60 + 16 * boolNat (lastSet e) + 8 * boolNat (irqNow e))

/-- A continuation entry as completed (R103). -/
def Cmd.contEntry (x : Cmd) (e : List Byte) : List Byte :=
  [0, 0] ++ leBytes 2 x.cid ++ leBytes 2 stContinuation ++ leBytes 57 0 ++ leBytes 1 (0x40 + 16 * boolNat (lastSet e))

/-- The ring writes of a completion in order: the continuation entries, then the FIRST entry, in the ring that the command was fetched
from (R79). -/
def Cmd.ringWrites (x : Cmd) : List (Nat × List Byte) :=
  ((x.entries.drop 1).zipIdx.map fun e => (x.ring.base + 64 * ((x.ringIx + 1 + e.2) % 2 ^ x.ring.depthLog2), x.contEntry e.1)) ++
  [(x.ring.base + 64 * x.ringIx, x.completion)]

/-- The coalescing timer has run out (R82, R83), under the time that the last completion took (R84). -/
def State.irqDue (s : State) (q : Nat) : Bool :=
  let u := s.queue q
  u.irqPend != 0 && u.irqTimeEff != 0 && decide (u.irqStamp + 1000 * u.irqTimeEff ≤ s.now)

/-- Count a completion for the queue's interrupt and send the interrupt that it makes due. The Q_IRQ fields are taken as they stand
now (R84). -/
def State.countIrq (s : State) (q : Nat) (nowBit : Bool) : State :=
  let s := if s.irqDue q then s.queueIrq q else s
  let s := s.onQueue q fun u =>
    { u with irqPend := u.irqPend + 1, irqTimeEff := u.irqTime, irqStamp := if u.irqPend = 0 then s.now else u.irqStamp }
  let u := s.queue q
  if nowBit ∨ (u.irqCount ≠ 0 ∧ u.irqCount ≤ u.irqPend) then s.queueIrq q else s

/-- The command's FIRST entry asks for its interrupt at once; in an entry that is no FIRST entry the bit is ignored (R66). -/
def Cmd.irqNow (x : Cmd) : Bool := Machine.irqNow (x.entries.headD []) && firstSet (x.entries.headD [])

/-- Statistics of R449. -/
def Slice.count (y : Slice) (status : Nat) : Slice :=
  if status < 256 then { y with cmdDone := y.cmdDone + 1 } else { y with cmdFailed := y.cmdFailed + 1 }

def commandCompleteEff (x : Cmd) (failAt : Option Nat) (s : State) : State :=
  let q := x.q
  let u := s.queue q
  if x.sgen ≠ (s.slc x.slice).gen ∨ (x.qgen ≠ u.gen ∧ u.resetBusy = false) then
    ((s.onQueue q fun u => { u with staleDrops := min 0xFFFFFFFF (u.staleDrops + 1) }).onSlc x.slice fun y =>
      { y with stale := y.stale + 1 }).retire x.ref
  else
    let ws := x.ringWrites
    let outs (l : List (Nat × List Byte)) : List Out := l.map fun w => Out.hostWrite x.ring.port (s.pasidOf x.slice) w.1 w.2
    match failAt.filter fun k => decide (k < ws.length) with
    | some k => ((s.emitAll (outs (ws.take k))).faultRing q x.cid ((ws.getD k (0, [])).1) stTranslation).retire x.ref
    | none =>
      let s := (s.emitAll (outs ws)).onSlc x.slice fun y => y.count x.comp.status
      (s.countIrq q x.irqNow).retire x.ref

/-- COMMAND_COMPLETE (R79). -/
def execCommandComplete (c : CmdRef) (failAt : Option Nat) (s : State) : Res :=
  .next (match s.cmd? c with
    | some x => if x.phase = .done ∧ s.dev.mode.runsCommands = true then commandCompleteEff x failAt s else s
    | none => s)

/-- QUEUE_IRQ_TIMER (R83). -/
def execQueueIrqTimer (q : QueueId) (s : State) : Res := .next (if s.irqDue q.val then s.queueIrq q.val else s)

/-! ### Events of the queue registers (R84 to R95) -/

/-- Hold a write in a block's buffer; a full buffer drops it and sets WDROP (R500, R501). -/
def State.bufferWrite (s : State) (b : Nat) (w : BufWrite) : State :=
  let k := s.block b
  if k.buffer.length < 8 then s.setBlock b { k with buffer := k.buffer ++ [w] } else s.setBlock b { k with wdrop := true }

/-- The number of the package block that holds a queue's registers (R509). -/
def queueBlock (q : Nat) : Nat := 256 + q / 16

/-- A write of a queue register lands; during ACTIVATE it is held (R508), behind earlier writes it waits (R500), and where the host
has no access it is discarded. -/
def State.queueWrite (s : State) (q : QueueId) (off value : Nat) (f : State → State) : State :=
  if (s.liveTiles.any s.portUp) = false then s
  else if s.dev.mode.hostWritable = true ∧ (s.block (queueBlock q.val)).buffer = [] then f s
  else if s.dev.mode.hostWritable = true ∨ s.dev.mode = .activate then
    s.bufferWrite (queueBlock q.val) { port := (s.queue q.val).port, off := q.val % 16 * 128 + off, value := BitVec.ofNat 32 value }
  else s

/-- QUEUE_ENABLE (R85). -/
def execQueueEnable (q : QueueId) (s : State) : Res := .next (s.queueWrite q 0x18 1 fun s => s.enableQueue q.val)

/-- QUEUE_DISABLE (R87). -/
def execQueueDisable (q : QueueId) (s : State) : Res := .next (s.queueWrite q 0x18 0 fun s => s.disableQueue q.val)

/-- QUEUE_RESET (R91, R60). -/
def execQueueReset (q : QueueId) (s : State) : Res :=
  .next (s.queueWrite q 0x18 2 fun s => (s.resetBegin q.val).registerAll)

/-- QUEUE_RESET_FORCE_STOP (R93). -/
def execQueueResetForceStop (q : QueueId) (s : State) : Res :=
  .next (if (s.queue q.val).resetBusy then (s.forceStop q.val).registerAll else s)

/-- QUEUE_RESET_DONE (R91 steps 4 and 5). -/
def execQueueResetDone (q : QueueId) (s : State) : Res :=
  .next (if (s.queue q.val).resetBusy ∧ s.resetSettled q.val = true then (s.resetEnd q.val).registerAll else s)

/-- RING_FAULT_CLEAR (R547). -/
def execRingFaultClear (q : QueueId) (s : State) : Res :=
  .next (s.queueWrite q 0x1C 0x40 fun s => s.onQueue q.val fun u => { u with ringFault := false })

end Sys2Proof.Machine
end

