-- ==== Sys2Proof/Machine/QueryPlan.lean ====
section
/-! DEFINITION. QUERY_RUN from its start to its completion: the plan of its morsels and tokens (R251, R269, R281, R282, R338, R339), the
barrier, when a pipeline and the query have completed (R169, R124), and what ends a query. -/

namespace Sys2Proof.Machine

/-! ### Queries and pipelines -/

def Query.img (q : Query) : Img := Img.ofBytes q.image

def Query.pipe (q : Query) (i : Nat) : PipeState := q.pipes.getD i {}

def State.onPipe (s : State) (qid i : Nat) (f : PipeState → PipeState) : State :=
  s.onQuery qid fun q => { q with pipes := q.pipes.set i (f (q.pipe i)) }

/-- The pages that a pipeline's sink holds: tile, page, and whether it lies in the spill area (log 95). -/
def PipeState.pages (op : Op) (ps : PipeState) : List (Nat × Nat × Bool) :=
  let rows := (ps.runs.flatMap fun r => r.recs.map fun x => (r.tile, x.row)) ++ ps.voidRows
  (ps.parts.flatMap fun b => (b.closed ++ b.open_.toList).map fun p => (b.tile, p.id, p.spilled)) ++
    (ps.tables.flatMap fun h => (List.range h.pages).map fun k => (h.tile, k, decide (op.sramPagesFor ≤ k))) ++
    (rows.map fun x => (x.1, rowPage x.2, decide (op.sramPagesFor ≤ rowPage x.2))) ++
    (ps.ready.map fun x => (x.tile, x.morsel, true))

/-- A pipeline's new state: the pages that it takes into use are written whole (R329). -/
def State.putPipe (s : State) (q : Query) (k : Nat) (ps : PipeState) : State :=
  let op := (q.img.pipes.getD k default).sink
  let old := (q.pipe k).pages op
  ((ps.pages op).filter fun x => !old.contains x).foldl (fun s x => s.freshPage q.qid k x.1 x.2.1 x.2.2) (s.onPipe q.qid k fun _ => ps)

/-- The surroundings of a morsel that a unit on tile `t` works on. -/
def Query.env (q : Query) (pipe t : Nat) (m : MorselAt) : QEnv :=
  let i := q.img
  { img := i, p := i.pipes.getD pipe default, info := i.info.getD pipe default, q := q, params := i.paramVals q.params, t := t, at_ := m }

/-- A morsel of the pipeline is verified (R249). -/
def PipeState.isVerified (ps : PipeState) (m : MorselAt) : Bool := ps.verified.any fun v => v.1 == m.morsel

def PipeState.allVerified (ps : PipeState) : Bool := ps.morsels.all ps.isVerified

/-- The lowest sequence number not verified. -/
def PipeState.lowest (ps : PipeState) : Option Nat :=
  (ps.morsels.filter fun m => !ps.isVerified m).foldl (fun b m => match b with
    | none => some m.seq
    | some x => some (min x m.seq)) none

/-- The run groups with more than one run (R278). -/
def PipeState.unmerged (ps : PipeState) : List (Nat × Nat) :=
  (ps.runs.map fun r => (r.tile, r.group)).filter fun k =>
    decide (1 < (ps.runs.filter fun r => r.tile == k.1 && r.group == k.2).length)

/-- A pipeline has completed (R169): every morsel verified, and a SORT's runs merged (R278). -/
def pipeDone (p : Pipe) (ps : PipeState) : Bool :=
  ps.released && ps.planned && ps.allVerified && (p.sink.kind != kSort || ps.unmerged.isEmpty)

def Query.done (q : Query) (i : Img) (k : Nat) : Bool := pipeDone (i.pipes.getD k default) (q.pipe k)

/-- The pipelines that a barrier waits for have completed (R339). -/
def Query.barrierMet (q : Query) (i : Img) (k : Nat) : Bool :=
  let w := (i.pipes.getD k default).plan.wait
  (List.range i.npipe).all fun j => !bit w j || q.done i j

/-! ### Cost hints (R205, R346) -/

def Pipe.pjRow (p : Pipe) : Nat := field p.cost 0 4
def Pipe.pjKib (p : Pipe) : Nat := field p.cost 4 4
def Pipe.eclass (p : Pipe) : Nat := if p.cost.isEmpty then 3 else byteAt p.cost 8 % 8

/-- Input rows and stored bytes of a morsel. -/
def State.morselSize (s : State) (e : QEnv) : Nat × Nat :=
  match e.p.plan.src with
  | 1 =>
    let es := (e.q.morselFrames e.p e.at_.morsel).map fun f => e.p.laneSlots.map fun k => s.indexEntry e.t (s.slotSeg e.q k) f
    ((es.map fun x => (Hdr.ofBytes (cut (x.headD []) 8 32)).vcnt).sum, (es.map fun x => (x.map fun y => field y 6 2).sum).sum)
  | 2 =>
    let rs := ((e.prodState.partRecords e.at_.tile e.at_.part).drop e.at_.first).take e.at_.count
    (rs.length, (rs.map List.length).sum)
  | _ => (e.at_.count, e.at_.count * recLen e.prodInfo.recs)

/-- The first estimate H of a morsel, in pJ (R205). -/
def State.firstEst (s : State) (e : QEnv) : Nat :=
  let n := s.morselSize e
  n.1 * e.p.pjRow + ceilDiv n.2 1024 * e.p.pjKib

/-! ### Plans -/

/-- Runs of morsels on one tile with consecutive sequence numbers, each one token entry (R337). -/
def groupMorsels : List MorselAt → List (List MorselAt)
  | [] => []
  | m :: r =>
    match groupMorsels r with
    | (n :: g) :: gs => if n.tile = m.tile ∧ n.seq = m.seq + 1 ∧ g.length < 65535 then (m :: n :: g) :: gs else [m] :: (n :: g) :: gs
    | gs => [m] :: gs

/-- The tokens of a pipeline's morsels, with the tile of each. -/
def Query.tokens (q : Query) (p : Pipe) (ms : List MorselAt) : List (Nat × Token) :=
  (groupMorsels ms).map fun g =>
    ((g.headD { tile := 0, morsel := 0, seq := 0 }).tile,
      { qid := q.qid, home := q.home, pipe := p.ix, morsels := g, slice := q.slice, sgen := q.sgen, qgen := q.qgen, prio := q.prio
        order := p.plan.order, eclass := p.eclass })

/-- The tile that holds frame 64 × m of the morsel's lane 0 (R338). -/
def State.scanTile (s : State) (q : Query) (p : Pipe) (m : Nat) : Nat :=
  let g := s.slotSeg q (p.laneSlots.headD 0)
  if g.placement = 2 then
    let ts := (maskTiles g.tiles).filter fun t => s.live (tid t)
    ts.getD (m % max 1 ts.length) 0
  else if g.placement = 1 then addrTile (g.stripeAddr (field (s.indexEntry q.home g (64 * m)) 0 6))
  else addrTile g.base

/-- The morsels of a SCAN pipeline (R170, R282, R338). -/
def State.scanMorsels (s : State) (q : Query) (p : Pipe) : List MorselAt :=
  (List.range (ceilDiv (q.scanFrames p) 64)).map fun m => { tile := s.scanTile q p m, morsel := m, seq := m }

/-- Morsels of up to 65,536 records of one partition, table or run; an empty one yields one morsel (R251, R269, R281). -/
def cutMorsels (tile part n : Nat) : List MorselAt :=
  (List.range (max 1 (ceilDiv n 65536))).map fun k =>
    { tile := tile, morsel := 0, seq := 0, part := part, first := 65536 * k, count := min 65536 (n - 65536 * k) }

/-- Ranks in order: sequence numbers, and morsel numbers with them (R282). -/
def rankMorsels (ms : List MorselAt) : List MorselAt := ms.zipIdx.map fun e => { e.1 with morsel := e.2, seq := e.2 }

/-- The partitions of an EXCHANGE with their owners (R241, R243). -/
def ownedParts (op : Op) (mask : Nat) : List (Nat × Nat) :=
  (List.range op.npart).flatMap fun p => (destTiles op mask p).map fun t => (p, t)

def Query.partMorsels (q : Query) (i : Img) (prod : Nat) : List MorselAt :=
  let op := (i.pipes.getD prod default).sink
  (ownedParts op (q.masks.getD prod 0)).flatMap fun e => cutMorsels e.2 e.1 ((q.pipe prod).partRecords e.2 e.1).length

def Query.tableMorsels (q : Query) (prod : Nat) : List MorselAt :=
  (maskTiles (q.sets.getD prod 0)).flatMap fun t => cutMorsels t 0 ((q.pipe prod).groups.filter fun g => g.tile == t).length

/-- R280 holds for a SORT on a SPLITTER exchange through keys that are DESC with NULLS_FIRST set. -/
def Img.descending (i : Img) (p : Pipe) : Bool :=
  let x := i.pipes.getD p.plan.prod default
  let cols := (i.info.getD p.ix default).fin
  let op := p.sink
  let xs := x.sink
  xs.b 0 == 3 && decide (xs.keys.length ≤ op.keys.length) && !xs.keys.isEmpty &&
  (xs.keys.zipIdx.all fun k =>
    let sk := op.keys.getD k.2 (0, 0)
    (match traceCol p (cols.getD sk.1 default) with
      | some c => xs.cols.getD c 0xFF == k.1.1
      | none => false) && sk.2 == k.1.2 && op.desc k.2 && op.nullsFirst k.2)

def Query.runMorsels (q : Query) (i : Img) (prod : Nat) : List MorselAt :=
  let p := i.pipes.getD prod default
  let n (t g : Nat) : Nat :=
    (runRecords p.sink (((q.pipe prod).runs.filter fun r => r.tile == t && r.group == g).flatMap (·.recs))).length
  if p.plan.src = 2 then
    let ps := ownedParts (i.pipes.getD p.plan.prod default).sink (q.masks.getD p.plan.prod 0)
    (if i.descending p then ps.reverse else ps).flatMap fun e => cutMorsels e.2 e.1 (n e.2 e.1)
  else (maskTiles (q.sets.getD prod 0)).flatMap fun t => cutMorsels t t (n t t)

/-- The tables of an AGGREGATE or WINDOW as they are read: the groups in an open order (R269), and the one group of a scalar aggregate
that got no row (R270). -/
def State.fixTable (s : State) (op : Op) (ps : PipeState) : PipeState :=
  if ps.fixed then ps else
  let gs := s.shuffle 7 ps.groups
  let extra : List Group :=
    if op.kind = kAgg ∧ op.keys.isEmpty = true then
      (ps.ran.filter fun t => !(gs.any fun g => g.tile == t)).map fun t =>
        { tile := t, key := [], keys := [], states := op.fns.map fun _ => {} }
    else []
  { ps with groups := gs ++ extra, fixed := true }

/-- The morsels of a pipeline whose source is not a SCAN, once its barrier is released. -/
def Query.readMorsels (q : Query) (i : Img) (p : Pipe) : List MorselAt :=
  rankMorsels (match p.plan.src with
    | 2 => q.partMorsels i p.plan.prod
    | 3 => q.tableMorsels p.plan.prod
    | _ => q.runMorsels i p.plan.prod)

/-! ### QUERY_RUN starts (R218, R338, R339) -/

/-- A pipeline at the start of its query. -/
def State.startPipe (s : State) (q : Query) (p : Pipe) : PipeState × List (Nat × Token) :=
  if p.plan.src = 1 then
    let ms := s.scanMorsels q p
    ({ planned := true, released := decide (p.plan.wait = 0), morsels := ms }, q.tokens p ms)
  else ({}, [])

/-! ### The end of a query (R104, R124, R231, R325) -/

/-- Every pipeline has completed and every row has been committed. -/
def Query.over (q : Query) : Bool :=
  let i := q.img
  !q.pipes.isEmpty && (List.range i.npipe).all fun k => q.done i k && (q.pipe k).ready.isEmpty && (q.pipe k).carry.isEmpty

/-- Complete a query that is over, or that fails and has no morsel running (R124, R325). -/
def State.settleQuery (s : State) (qid : Nat) : State :=
  match s.query? qid with
  | none => s
  | some q =>
    if q.failing then s.settleFailing qid
    else if q.over ∧ s.queryRuns qid = false then ((s.finish q.c { result := q.result none }).removeQuery qid 0x0B).revoteAll
    else s

/-- A failure with its error record where data was lost (R330, R333). -/
def State.queryFault (s : State) (q : Query) (m : Nat) (f : QFail) : State :=
  let s := match f.addr with
    | some a => s.logErr (tid q.home)
        { errRec evEccUncorrectable 2 with
          slice := q.slice, queue := q.c.q.val, cid := s.cidOf q, morsel := m, addr := a
          segid := ((s.segAt a).map Prod.fst).getD 0, status := f.status, pipe := f.pipe }
    | none => s
  s.failQuery q.qid
    { status := f.status, detail := f.detail, pipe := f.pipe, op := f.op, morsel := m, time := s.now, segid := f.seg }

/-- The image has been withdrawn on a tile (R327). -/
def State.imageLost (s : State) (h : Nat) : Bool := (tblGet s.images h none).any fun i => i.withdrawn != 0

/-- The failure of a resolution that meets lost data, in the order of the pipelines (R218, R330). -/
def State.startLost (s : State) (i : Img) (q : Query) : Option QFail :=
  (i.pipes.zip i.info).findSome? fun e => s.resolveLost i e.1 e.2 q (i.paramVals q.params)

def queryRunEff (q : Query) (s : State) : State :=
  if s.imageLost q.handle then ((s.failQuery q.qid (s.failure stUncorrectable 0)).settleQuery q.qid)
  else match s.startLost q.img q with
  | some f => (s.queryFault q 0xFFFFFFFF f).settleQuery q.qid
  | none =>
    let i := q.img
    let ps := i.pipes.map (s.startPipe q)
    (s.onQuery q.qid fun y => { y with
      resolved := s.resolveAll i q, pipes := ps.map (·.1), toPost := ps.flatMap (·.2) }).settleQuery q.qid

/-- QUERY_RUN: the command that COMMAND_START has started resolves its comparators and plans its first tokens (R218, R338, R339). -/
def execQueryRun (c : CmdRef) (s : State) : Res :=
  .next (match s.progOp? c 0x32 with
    | some (.query qid) =>
      match s.query? qid with
      | some q => if q.pipes.isEmpty ∧ q.failing = false then queryRunEff q s else s
      | none => s
    | _ => s)

/-! ### BARRIER_RELEASE (R339) -/

/-- The home tile frees its own tokens of a pipeline and writes the trace record. -/
def State.freeTokens (s : State) (t : TileId) (qid pipe slice : Nat) : State :=
  (s.onTile t fun x => { x with sched := { x.sched with
    tokens := x.sched.tokens.map fun k => if k.qid = qid ∧ k.pipe = pipe then { k with barrier := false } else k } }).trace t
      { tstamp := 0, type := trBarrier, qid := qid, slice := slice, pipe := pipe }

def barrierEff (q : Query) (i : Img) (k : Nat) (s : State) : State :=
  let p := i.pipes.getD k default
  let s := if p.plan.src = 3 then (s.onPipe q.qid p.plan.prod (s.fixTable (i.pipes.getD p.plan.prod default).sink)).bump else s
  let s := match s.query? q.qid with
    | some q =>
      if p.plan.src = 1 then s
      else
        let ms := q.readMorsels i p
        (s.onPipe q.qid k fun ps => { ps with planned := true, morsels := ms }).onQuery q.qid fun y =>
          { y with toPost := y.toPost ++ q.tokens p ms }
    | none => s
  let s := s.onPipe q.qid k fun ps => { ps with released := true }
  let s := s.freeTokens (tid q.home) q.qid k q.slice
  let s := (s.liveTiles.filter fun t => decide (t.val ≠ q.home)).foldl (fun s t =>
    s.sendCtl 0x33 (tid q.home) t q.ctx (leBytes 2 q.qid ++ leBytes 1 k)) s
  s.settleQuery q.qid

/-- BARRIER_RELEASE. -/
def execBarrierRelease (qid : Nat) (pipe : Fin 32) (s : State) : Res :=
  .next (match s.query? qid with
    | some q =>
      let i := q.img
      if q.failing = false ∧ pipe.val < q.pipes.length ∧ (q.pipe pipe.val).released = false ∧ q.barrierMet i pipe.val = true then
        barrierEff q i pipe.val s
      else s
    | none => s)

end Sys2Proof.Machine
end

