-- ==== Sys2Proof/Machine/Sched.lean ====
section
/-! DEFINITION. The scheduler of a tile: eligibility (R340, R341), the votes of R360, posting (R338), estimates (R346), offers (R356) and
bases (R342). -/

namespace Sys2Proof.Machine

def onSched (f : Sched → Sched) (x : Tile) : Tile := { x with sched := f x.sched }

def State.sched (s : State) (t : TileId) : Sched := (s.tile t).sched

def State.onSched (s : State) (t : TileId) (f : Sched → Sched) : State := s.onTile t (Machine.onSched f)

/-! ### Eligibility -/

/-- Modes in which morsels are dispatched (R340, R359). -/
def Mode.dispatches : Mode → Bool
  | .service | .degraded | .dusk => true
  | _ => false

/-- A token's generations are current (R340). -/
def State.tokenCurrent (s : State) (k : Token) : Bool :=
  match s.query? k.qid with
  | none => false
  | some q => k.sgen == (s.slc k.slice).gen && k.qgen == (s.queue q.c.q.val).gen

def Token.seq (k : Token) : Nat := (k.morsels.headD { tile := 0, morsel := 0, seq := 0 }).seq

/-- The base of an ordering domain (R341): none when nothing is left to wait for. -/
def Query.base (q : Query) (i : Img) (k : Nat) : Option Nat :=
  if (i.pipes.getD k default).sink.kind = kEmit then some (q.pipe k).nextSeq else (q.pipe k).lowest

/-- A morsel of the domain runs somewhere. -/
def State.domainRuns (s : State) (qid pipe : Nat) : Bool :=
  (List.range 128).any fun n => (s.run? (gpeN n)).any fun r => r.qid == qid && r.pipe == pipe

/-- The ordering domain allows a token (R341); tiles other than the home tile go by the base they hold (R342). -/
def State.orderOk (s : State) (t : TileId) (q : Query) (i : Img) (k : Token) : Bool :=
  match k.order with
  | 0 => true
  | 1 => !s.domainRuns k.qid k.pipe && (q.pipe k.pipe).lowest == some k.seq
  | _ =>
    if t.val = q.home then (match q.base i k.pipe with
      | some b => decide (k.seq < b + 1024)
      | none => true)
    else decide (k.seq < tblGet (s.sched t).bases (k.qid * 32 + k.pipe) 0 + 1024)

/-- A token is eligible for PE `n` (R340). -/
def State.eligible (s : State) (n : Nat) (k : Token) : Bool :=
  let t := tid (n / 16)
  match s.query? k.qid with
  | none => false
  | some q =>
    let i := q.img
    !k.barrier && s.orderOk t q i k && !s.sliceHeld k.slice && s.tokenCurrent k && (s.tile t).mode.dispatches &&
    (k.target == 0xFF || k.target == n) && s.peOk n && (!(i.callsLarge (i.pipes.getD k.pipe default)) || s.hasLarge t)

/-! ### SCHEDULER votes (R360) -/

/-- Vote ON for each PE of a tile that runs a morsel or that an eligible token of the tile can use. -/
def State.wantPes (s : State) (t : TileId) : State :=
  let ts := (s.sched t).tokens
  let want (l : Nat) : Bool :=
    ((s.tile t).runs.toList.getD l none).isSome || ts.any (s.eligible (16 * t.val + l))
  s.onTile t fun x =>
    { x with doms := vecOf fun d : Fin 56 =>
        if d.val < 16 ∧ want d.val = true then (x.dom d).vote 2 2 else x.dom d }.settle

def State.wantAll (s : State) : State := s.liveTiles.foldl (fun s t => s.wantPes t) s

/-! ### TOKEN_POST (R338, R339) -/

/-- Take the first planned token of a tile out of its query. -/
def takePost (t : Nat) : List (Nat × Token) → Option (Token × List (Nat × Token))
  | [] => none
  | e :: r =>
    if e.1 = t then some (e.2, r)
    else (takePost t r).map fun x => (x.1, e :: x.2)

def postEff (t : TileId) (s : State) : State :=
  if 16384 ≤ (s.sched t).tokens.length then s else
  match s.queries.findSome? fun q => (takePost t.val q.toPost).map fun x => (q, x) with
  | none => s
  | some (q, k, rest) =>
    let k := { k with barrier := !(q.pipe k.pipe).released }
    ((s.onQuery q.qid fun y => { y with toPost := rest }).onSched t fun c => { c with tokens := c.tokens ++ [k] }).wantPes t

/-- TOKEN_POST. -/
def execTokenPost (t : TileId) (s : State) : Res :=
  .next (if s.live t = true ∧ s.dev.mode.runsCommands = true then postEff t s else s)

/-! ### Estimates (R346) -/

/-- First estimate and estimate in nJ of a morsel that tile `t` would run; without TELEM the class mean stands (R379). -/
def State.estimate (s : State) (t : TileId) (q : Query) (pipe eclass : Nat) (m : MorselAt) : Nat × Nat :=
  let h := s.firstEst (q.env pipe t.val m)
  if h = 0 ∨ (s.dom t (domN 52)).wakeFail = true then (h, (s.sched t).cm.getD eclass 0)
  else (h, roundFree (h * tblGet (s.sched t).ratio (ratioKey q.handle pipe) 256) 256000)

def State.tokenEst (s : State) (t : TileId) (k : Token) : Nat × Nat :=
  match s.query? k.qid with
  | some q => s.estimate t q k.pipe k.eclass (k.morsels.headD { tile := 0, morsel := 0, seq := 0 })
  | none => (0, 0)

/-! ### Offers (R356) -/

/-- What a tile offers: its level, and the estimate of the oldest token skipped there (R356, R358). -/
def State.offerEst (s : State) (t : TileId) (lvl : Nat) : Nat :=
  match (s.sched t).tokens.find? fun k => k.skipped && k.prio == lvl with
  | some k => (s.tokenEst t k).2
  | none => 0

/-- The hottest sensor reading that takes part in TJ_MAX (R383, R392). -/
def State.tjMax (s : State) (t : TileId) : Int := (s.tile t).mon.tjMax

/-- Send the state message of R356 to every other present tile. -/
def State.sendState (s : State) (t : TileId) : State :=
  let c := s.sched t
  let est := match c.offered with
    | some l => s.offerEst t l
    | none => 0
  let body := leBytes 1 (c.offered.getD 0xFF) ++ [0] ++ leBytes 2 (ofSigned 16 (s.tjMax t)) ++ leBytes 4 (ofSigned 32 c.credit) ++
    leBytes 4 est
  (s.presentTiles.filter fun u => decide (u ≠ t)).foldl (fun s u => s.sendCtl 0x35 t u {} body) s

/-- Change the offer of a tile; a change is told (R356). -/
def State.offer (s : State) (t : TileId) (lvl : Option Nat) : State :=
  if (s.sched t).offered = lvl then s
  else
    let s := s.onSched t fun c => { c with offered := lvl }
    if (s.sched t).stealEn then s.sendState t else s

/-- The highest level with a skipped token is what a tile offers (R356). -/
def State.reoffer (s : State) (t : TileId) : State :=
  let ls := ((s.sched t).tokens.filter (·.skipped)).map (·.prio)
  if (s.sched t).stealEn then s.offer t (if ls.isEmpty then none else some (ls.foldl max 0)) else s

/-! ### Bases (R342) -/

/-- Send the base of an ordered-emit domain to the tiles that hold its tokens. -/
def State.sendBase (s : State) (q : Query) (i : Img) (k : Nat) : State :=
  match q.base i k with
  | none => s
  | some b =>
    let ts := s.liveTiles.filter fun t => decide (t.val ≠ q.home) && (s.sched t).tokens.any fun x => x.qid == q.qid && x.pipe == k
    let s := ts.foldl (fun s t => s.sendCtl 0x34 (tid q.home) t q.ctx (leBytes 2 q.qid ++ leBytes 1 k ++ List.replicate 5 0 ++ leBytes 8 b)) s
    s.onPipe q.qid k fun ps => { ps with sentBase := b }

/-- Send the base of a domain when it has advanced by 64 or more since it was last sent. -/
def State.tellBase (s : State) (qid k : Nat) : State :=
  match s.query? qid with
  | none => s
  | some q =>
    let i := q.img
    if (i.pipes.getD k default).plan.order = 2 ∧ (q.base i k).any (fun b => decide ((q.pipe k).sentBase + 64 ≤ b)) = true then s.sendBase q i k
    else s

end Sys2Proof.Machine
end

