-- ==== Sys2Proof/Machine/Windows.lean ====
section
/-! DEFINITION. Scheduler windows (R343 to R345, R348, R353, R355, R360, R361), budget epochs and the package split (R343, R350), verification
windows (R322) and error coalescing windows (R334). -/

namespace Sys2Proof.Machine

def epochNs : Nat := 1000000

/-- The length in ns of the scheduler window that holds a time (R343). -/
def windowLen (now windowUs : Nat) : Nat :=
  let off := now % epochNs
  let w := max 1 (1000 * windowUs)
  let start := off / w * w
  min w (epochNs - start)

/-- REF (R345): budget in mW, length in ns, energy not charged to morsels in nJ. -/
def refillOf (mw lenNs otherNj : Nat) : Nat := mw * lenNs / 1000 - otherNj

/-! ### SCHED_WINDOW_START -/

/-- Ageing (R354, R355). -/
def State.ageToken (s : State) (t : TileId) (k : Token) : Token :=
  let ages := k.skipped && !k.dispatched && (s.tile t).mode.dispatches && !s.sliceHeld k.slice
  { k with age := if ages then min 16 (k.age + 1) else k.age, skipped := false, dispatched := false }

/-- S of R353: the shares of the slices that hold eligible tokens on a tile. -/
def State.shareSum (s : State) (t : TileId) : Nat :=
  let sls := ((s.sched t).tokens.filter fun k => (pesOf t.val).any fun n => s.eligible n k).foldl (fun l k => insertRising l k.slice) []
  (sls.map fun x => (s.slc x).share).sum

/-- The ADAPTIVE profile at a window start (R361), in 0.1 GHz. -/
def adaptFreq (freq : Nat) (credit : Int) (skipped : Bool) : Nat :=
  if skipped then max 6 (freq - 1) else if 0 < credit then min 22 (freq + 1) else freq

/-- The SCHEDULER vote of a PE that was idle for a full window is withdrawn when the tile holds no eligible token (R360). -/
def State.dropIdle (s : State) (t : TileId) : State :=
  let held := (s.sched t).tokens.any fun k => (pesOf t.val).any fun n => s.eligible n k
  if held then s
  else
    let busy (l : Nat) : Bool := (s.sched t).idleWin.contains l || ((s.tile t).runs.toList.getD l none).isSome
    s.onTile t fun x =>
      { x with doms := vecOf fun d : Fin 56 => if d.val < 16 ∧ busy d.val = false then (x.dom d).vote 2 0 else x.dom d }.settle

/-- What the start of a window does on a tile; `otherNj` is the energy of the previous window in the domains not charged to morsels. -/
def windowEff (t : TileId) (otherNj : Nat) (s : State) : State :=
  let c := s.sched t
  let ref := refillOf c.budgetMw (windowLen s.now c.windowUs) otherNj
  let shares := s.shareSum t
  let s := (s.dropIdle t).onSched t fun c => { c with
    tokens := c.tokens.map (s.ageToken t)
    credit := clampCredit (min c.credit 0 + ref), refill := ref, used := [], shares := shares
    ethrottle := c.skipWin, skipWin := false, offered := none
    peFreq := if c.profile = 2 then adaptFreq c.peFreq c.credit c.skipWin else c.peFreq
    idleWin := (List.range 16).filter fun l => ((s.tile t).runs.toList.getD l none).isSome
    energyNj := c.energyNj + otherNj, epochNj := c.epochNj + otherNj }
  let s := s.trace t { tstamp := 0, type := trWindow, est := ref % 2 ^ 32 }
  let s := if c.stealEn then s.sendState t else s
  let s := (s.queries.filter fun q => q.home == t.val && !q.failing).foldl (fun s q =>
    let i := q.img
    (i.pipes.filter fun p => p.plan.order == 2).foldl (fun s p => s.sendBase q i p.ix) s) s
  s.wantPes t

/-! ### BUDGET_EPOCH_START (R343, R344, R350) -/

/-- The budget of a tile for the epoch that starts; the previous one stands when none has come. -/
def State.epochTile (s : State) (t : TileId) : State :=
  let c := s.sched t
  let mw := c.nextMw.getD c.budgetMw
  let s := s.onSched t fun c => { c with
    budgetMw := mw, nextMw := none, meanMw := roundFree c.epochNj 1000, epochNj := 0, windowUs := s.feat.schedWindow }
  s.trace t { tstamp := 0, type := trEpoch, reason := if c.nextMw.isNone then 0x07 else 0x00, tile := t.val, est := mw }

/-- A SET_FEATURE SCHED_WINDOW that has been fetched and not completed (R344). -/
def Cmd.setsWindow (x : Cmd) : Bool := x.op == 0x03 && x.f 4 2 == 1 && x.phase != .done

/-- The SCHED_WINDOW that the next epoch start puts in force: that of the command fetched last. -/
def State.nextWindow (s : State) : Nat :=
  match (s.cmds.filter Cmd.setsWindow).getLast? with
  | some x => x.f 8 8
  | none => s.feat.schedNext.getD s.feat.schedWindow

/-- A SET_FEATURE SCHED_WINDOW fetched before the epoch start takes effect and completes, whether or not it has started (R344). -/
def State.takeWindow (s : State) : State :=
  (s.cmds.filter Cmd.setsWindow).foldl (fun s' x => s'.succeed x.ref (leBytes 8 s.feat.schedWindow))
    { s with feat := { s.feat with schedWindow := s.nextWindow, schedNext := none } }

/-- What the start of a budget epoch does. The package limit as it stands is the one that the split made in this epoch takes (R350). -/
def epochEff (s : State) : State :=
  let s := s.takeWindow
  let s := s.liveTiles.foldl State.epochTile s
  { s with dev := { s.dev with
      meanW := roundFree ((s.liveTiles.map fun t => (s.sched t).meanMw).sum + s.otherMw) 1000, limitAt := some s.dev.limitW } }

/-! ### Time passes a boundary (R9, R343)

An event belongs to the window and the epoch that hold its time. So before an event takes effect, the windows and epochs that have begun
since the last one are started, whether or not their rows have come; such a row then adds only the energy that it carries (log 96). -/

/-- An effect at an earlier time. -/
def State.atTime (s : State) (b : Nat) (f : State → State) : State := { f { s with now := b } with now := s.now }

/-- Start the window that begins at time `b` on a tile. -/
def State.openWindow (s : State) (t : TileId) (b otherNj : Nat) (charged : Bool) : State :=
  s.atTime b fun s => (windowEff t otherNj s).onSched t fun c => { c with windowEnd := some (b + windowLen b c.windowUs), otherIn := charged }

/-- Start the windows of a tile that begin before time `end_`; at most `n` of them. -/
def State.rollWindows (s : State) (t : TileId) (end_ : Nat) : Nat → State
  | 0 => s
  | n + 1 =>
    match (s.sched t).windowEnd with
    | none => s
    | some b => if b < end_ then (s.openWindow t b 0 false).rollWindows t end_ n else s

/-- Start budget epoch `k`, after the windows that begin before it. -/
def State.openEpoch (s : State) (k : Nat) : State :=
  let b := k * epochNs
  (s.liveTiles.foldl (fun s t => s.rollWindows t b (epochNs / 1000)) s).atTime b fun s =>
    let s := epochEff s
    { s with dev := { s.dev with epochEnd := some (b + epochNs) } }

/-- Start the epochs that have begun; at most `n` of them. -/
def State.rollEpochs (s : State) : Nat → State
  | 0 => s
  | n + 1 =>
    match s.dev.epochEnd with
    | none => s
    | some b => if b ≤ s.now then (s.openEpoch (b / epochNs)).rollEpochs n else s

/-- Every epoch that has begun, and every window of a tile that has begun, is started. -/
def State.rollSched (s : State) (t : TileId) : State :=
  let s := s.rollEpochs (s.now / epochNs + 1)
  s.rollWindows t (s.now + 1) (epochNs / 1000)

/-! ### SCHED_WINDOW_START (R345, R355) -/

/-- The energy not charged to morsels comes off the refill of a window that has already started. -/
def chargeOther (otherNj : Nat) (c : Sched) : Sched :=
  { c with
    refill := c.refill - otherNj, credit := clampCredit (c.credit - ((c.refill - (c.refill - otherNj) : Nat) : Int)), otherIn := true
    energyNj := c.energyNj + otherNj, epochNj := c.epochNj + otherNj }

/-- The start of the last of several boundaries that have passed; the others carry no energy of their own. -/
def windowRow (t : TileId) (otherNj : Nat) (s : State) : State :=
  match (s.sched t).windowEnd with
  | none => s.openWindow t (s.now - s.now % epochNs % max 1 (1000 * (s.sched t).windowUs)) otherNj true
  | some _ =>
    let s := s.rollEpochs (s.now / epochNs + 1)
    let last := s.now - s.now % epochNs % max 1 (1000 * (s.sched t).windowUs)
    let s := s.rollWindows t last (epochNs / 1000)
    match (s.sched t).windowEnd with
    | some b =>
      if b ≤ s.now then s.openWindow t b otherNj true
      else if (s.sched t).otherIn then s else s.onSched t (chargeOther otherNj)
    | none => s

/-- SCHED_WINDOW_START. `otherNj` is the energy of the previous window in the domains not charged to morsels. -/
def execSchedWindowStart (t : TileId) (otherNj : Nat) (s : State) : Res := .next (if s.live t then windowRow t otherNj s else s)

/-- BUDGET_EPOCH_START. -/
def execBudgetEpochStart (s : State) : Res :=
  .next (if s.dev.mode.runsCommands then
    (match s.dev.epochEnd with
      | none => s.openEpoch (s.now / epochNs)
      | some _ => s.rollEpochs (s.now / epochNs + 1)) else s)

/-! ### POWER_SPLIT (R350) -/

/-- One pass of the split: shares of the rest to the open tiles (tile, headroom, budget), those above 150 W cut off. -/
def splitPass (l : List (Nat × Nat × Nat × Bool)) (rest : Nat) : List (Nat × Nat × Nat × Bool) × Nat :=
  let hs := ((l.filter fun x => x.2.2.2).map fun x => x.2.1).sum
  let l := l.map fun x => if x.2.2.2 then (x.1, x.2.1, x.2.2.1 + rest * x.2.1 / hs, true) else x
  (l.map fun x => if 150000 < x.2.2.1 then (x.1, x.2.1, 150000, false) else x,
    (l.map fun x => if x.2.2.2 then x.2.2.1 - 150000 else 0).sum)

def splitLoop : Nat → List (Nat × Nat × Nat × Bool) → Nat → List (Nat × Nat × Nat × Bool)
  | 0, l, _ => l
  | n + 1, l, rest =>
    let x := splitPass l rest
    if x.2 = 0 ∨ !(x.1.any fun y => y.2.2.2) then x.1 else splitLoop n x.1 x.2

/-- The split: tiles with their headroom in °C, to budgets in mW. -/
def powerSplit (limitMw otherMw : Nat) (tiles : List (Nat × Nat)) : List (Nat × Nat) :=
  let avail := limitMw - otherMw
  let n := tiles.length
  if avail < n * 25000 then tiles.map fun t => (t.1, avail / n)
  else (splitLoop 9 (tiles.map fun t => (t.1, t.2, 25000, true)) (avail - n * 25000)).map fun x => (x.1, x.2.2.1)

/-- Headroom in whole °C below 105 °C, at least 1. -/
def headroom (tj : Int) : Nat := max 1 ((840 - tj) / 8).toNat

/-- The split takes the limit as it stood at the last epoch start, so a new one is enforced from the second epoch start on (R350). -/
def splitEff (otherMw : Nat) (s : State) : State :=
  let s := s.rollEpochs (s.now / epochNs + 1)
  let s : State := { s with otherMw := otherMw }
  let ps := powerSplit (s.dev.limitAt.getD s.dev.limitW * 1000) otherMw (s.liveTiles.map fun t => (t.val, headroom (s.tjMax t)))
  ps.foldl (fun s p => s.onSched (tid p.1) fun c => { c with nextMw := some p.2 }) s

/-- POWER_SPLIT: the master computes the budgets of the next epoch and sends them. -/
def execPowerSplit (otherMw : Nat) (s : State) : Res := .next (if s.dev.mode.runsCommands then splitEff otherMw s else s)

/-! ### Other windows -/

/-- VERIFICATION_WINDOW_START (R322). -/
def execVerificationWindowStart (s : State) : Res := .next (s.presentTiles.foldl State.rollVerify s)

/-- ERROR_COALESCE_WINDOW_END (R334). -/
def execErrorCoalesceWindowEnd (t : TileId) (s : State) : Res := .next (if s.live t then s.rollCoalesce t else s)

end Sys2Proof.Machine
end

