-- ==== Sys2Proof/Machine/Serve.lean ====
section
/-! DEFINITION. Dispatch by age, level, slice share and credit (R352 to R355), steals (R356 to R358), and the messages of the scheduler. -/

namespace Sys2Proof.Machine

/-! ### Dispatch (R352) -/

/-- PE_WEIGHT of a slice; slice 0 takes 255. -/
def State.peWeight (s : State) (sl : Nat) : Nat := if sl = 0 then 255 else (s.slc sl).weight

/-- R353: the slice's use and a further estimate stay within its entitlement of the window. -/
def State.withinShare (s : State) (t : TileId) (sl est : Nat) : Bool :=
  let c := s.sched t
  sl == 0 ||
    decide ((tblGet c.used sl 0 + est) * c.shares ≤ c.refill * (s.slc sl).share) && decide (0 < c.shares)

/-- Key of a slice's turns at a level. -/
def turnKey (lvl sl : Nat) : Nat := lvl * 1024 + sl

/-- Slices in the order of their turns at a level: those with turns left in its round, then the others. -/
def State.sliceOrder (s : State) (t : TileId) (lvl : Nat) (sls : List Nat) : List Nat :=
  let left (sl : Nat) : Bool := decide (tblGet (s.sched t).turns (turnKey lvl sl) 0 < s.peWeight sl)
  let l := sls.foldl insertRising []
  l.filter left ++ l.filter fun x => !left x

/-- Count a dispatch of a slice; when no slice of those that wait at the level has a turn left, the level's next round begins. -/
def State.countTurn (s : State) (t : TileId) (lvl : Nat) (sls : List Nat) (sl : Nat) : State :=
  let c := s.sched t
  let turns := tblSet 0 c.turns (turnKey lvl sl) (tblGet c.turns (turnKey lvl sl) 0 + 1)
  let full := sls.all fun x => decide (s.peWeight x ≤ tblGet turns (turnKey lvl x) 0)
  s.onSched t fun c => { c with turns := if full then turns.filter fun e => e.1 / 1024 != lvl else turns }

/-- A token entry after its lowest morsel has been taken. -/
def Token.rest (k : Token) : List Token :=
  match k.morsels with
  | _ :: m :: r => [{ k with morsels := m :: r, age := 0, dispatched := true }]
  | _ => []

/-- Replace the token at a place of the store by others. -/
def replaceAt (l : List Token) (ix : Nat) (new : List Token) : List Token := l.take ix ++ new ++ l.drop (ix + 1)

/-- Put a morsel on a PE: its tally counters start at zero (R234). -/
def State.startRun (s : State) (n : Nat) (k : Token) (m : MorselAt) (first est : Nat) : State :=
  let r : Run :=
    { qid := k.qid, pipe := k.pipe, at_ := m, slice := k.slice, sgen := k.sgen, qgen := k.qgen, attempt := k.attempt, prio := k.prio
      order := k.order, eclass := k.eclass, est := est, first := first, used := k.used }
  ((s.setRun (gpeN n) (some r)).onTile (tid (n / 16)) fun x => { x with tally := x.tally.set (n % 16) [] }).onSched (tid (n / 16)) fun c =>
    { c with idleWin := if c.idleWin.contains (n % 16) then c.idleWin else c.idleWin ++ [n % 16] }

/-- issue of R352: debit, count, take the lowest morsel, trace. -/
def State.issue (s : State) (t : TileId) (n ix : Nat) (k : Token) (type reason : Nat) : State :=
  let e := s.tokenEst t k
  let s := s.onSched t fun c => { c with
    credit := clampCredit (c.credit - e.2)
    used := tblSet 0 c.used k.slice (tblGet c.used k.slice 0 + e.2)
    tokens := replaceAt c.tokens ix k.rest }
  let s := s.startRun n k (k.morsels.headD { tile := 0, morsel := 0, seq := 0 }) e.1 e.2
  s.trace t { k.trace type reason with pe := n, est := e.2 }

/-- Mark the eligible tokens of a blocked level skipped, each traced once a window, and offer the level (R352, R356). -/
def State.blockLevel (s : State) (t : TileId) (n lvl : Nat) : State :=
  let hit (k : Token) : Bool := k.prio == lvl && s.eligible n k
  let fresh := (s.sched t).tokens.filter fun k => hit k && !k.skipped
  let s' := s.onSched t fun c => { c with
    tokens := c.tokens.map fun k => if hit k then { k with skipped := true } else k, skipWin := true }
  (fresh.foldl (fun s' k => s'.trace t { k.trace trSkipEnergy 0x01 with est := (s.tokenEst t k).2 }) s').reoffer t

/-- The first entry of a list that satisfies `p`, by least key. -/
def minBy {α : Type} (key : α → Nat) : List α → Option α
  | [] => none
  | x :: r => match minBy key r with
    | none => some x
    | some y => if key y < key x then some y else some x

/-- The aged token of R352: AGE 16, the highest PRIO, then the oldest. -/
def agedToken (l : List (Nat × Token)) : Option (Nat × Token) := minBy (fun e => 31 - e.2.prio) (l.filter fun e => e.2.age == 16)

/-- A token of a level for a PE by slice turns, share and credit; `true`: by the relaxed pass. -/
def State.levelToken (s : State) (t : TileId) (lvl : Nat) (c : List (Nat × Token)) : Option (Nat × Token × Bool) :=
  let fits (e : Nat × Token) : Bool := decide (((s.tokenEst t e.2).2 : Int) ≤ (s.sched t).credit)
  let ofSlice (sl : Nat) : Option (Nat × Token) :=
    minBy (fun e => e.2.seq) (c.filter fun e => e.2.slice == sl && fits e && s.withinShare t sl (s.tokenEst t e.2).2)
  match (s.sliceOrder t lvl (c.map fun e => e.2.slice)).findSome? ofSlice with
  | some e => some (e.1, e.2, false)
  | none => (minBy (fun e => (s.tokenEst t e.2).2) (c.filter fits)).map fun e => (e.1, e.2, true)

/-- What dispatch finds for a PE: nothing eligible, a token to issue, or a level that energy blocks. -/
inductive Pick where
  | nothing
  | token (ix : Nat) (k : Token) (type reason : Nat) (sls : List Nat)
  | blocked (lvl : Nat)
  deriving DecidableEq, Repr

/-- Levels from the highest down (R354). -/
def State.findLevel (s : State) (t : TileId) (es : List (Nat × Token)) : Nat → Pick
  | 0 => .nothing
  | l + 1 =>
    let c := es.filter fun e => e.2.prio == l
    if c.isEmpty then s.findLevel t es l
    else match s.levelToken t l c with
      | some (ix, k, relaxed) => .token ix k trDispatch (if relaxed then 0x02 else 0x00) (c.map fun e => e.2.slice)
      | none => .blocked l

/-- dispatch of R352 for PE `n`. -/
def State.findToken (s : State) (t : TileId) (n : Nat) : Pick :=
  let es := ((s.sched t).tokens.zipIdx.map fun e => (e.2, e.1)).filter fun e => s.eligible n e.2
  match agedToken es with
  | some e => .token e.1 e.2 trDispatchAged 0x08 []
  | none => s.findLevel t es 32

/-- A PE that steals reserve is not idle (R357). -/
def Sched.reserves (c : Sched) (n : Nat) : Bool := c.steals.any fun x => x.pe == n

/-- The PEs to which a tile may dispatch: idle, not reserved, ON and not entering; when no PE of the tile is ON, those that are not
(R360). -/
def State.idlePes (s : State) (t : TileId) : List Nat :=
  let free := (pesOf t.val).filter fun n => s.peOk n && (s.run? (gpeN n)).isNone && !(s.sched t).reserves n
  let on (n : Nat) : Bool := s.domOn t (n % 16)
  if (pesOf t.val).any fun n => s.peOk n && on n then
    free.filter fun n => on n && ((s.tile t).dom (domN (n % 16))).phase != .entering
  else free

/-- The level at which energy blocks a PE. -/
def Pick.blockedAt : Pick → Option Nat
  | .blocked lvl => some lvl
  | _ => none

/-- The highest level that energy blocks for an idle PE: no lower level is served on the tile (R354). -/
def State.blockedFloor (s : State) (t : TileId) (ns : List Nat) : Nat := (ns.filterMap fun n => (s.findToken t n).blockedAt).foldl max 0

/-- Serve the idle PEs, lowest first, until one gets a morsel; an aged token is dispatched whatever its level (R355). -/
def State.serve (s : State) (t : TileId) (floor : Nat) : List Nat → State
  | [] => s
  | n :: r =>
    match s.findToken t n with
    | .token ix k type reason sls =>
      if type = trDispatchAged then (s.issue t n ix k type reason).wantPes t
      else if floor ≤ k.prio then ((s.issue t n ix k type reason).countTurn t k.prio sls k.slice).wantPes t
      else s.serve t floor r
    | .blocked lvl => (if lvl = floor then s.blockLevel t n lvl else s).serve t floor r
    | .nothing => s.serve t floor r

/-! ### Taking a steal (R357) -/

/-- A tile may steal from an offer: no PE of it has an eligible token at the offered level or above. -/
def State.mayTake (s : State) (t : TileId) (o : Offer) : Bool :=
  let c := s.sched t
  s.live (tid o.tile) && decide (s.tjMax t + 16 ≤ o.tj) && decide ((o.est : Int) ≤ c.credit) && decide (c.steals.length < 4) &&
    !(c.tokens.any fun k => decide (o.level ≤ k.prio) && (pesOf t.val).any fun n => s.eligible n k)

/-- Among several offers, the highest level, then the hottest tile. -/
def bestOffer : List Offer → Option Offer
  | [] => none
  | o :: r => match bestOffer r with
    | none => some o
    | some b => some (if o.level < b.level ∨ (o.level = b.level ∧ o.tj < b.tj) then b else o)

/-- A tag that no steal request of the tile holds. -/
def Sched.freeTag (c : Sched) : Nat := ((List.range 5).find? fun k => !(c.steals.any fun x => x.tag == k)).getD 0

/-- Reserve an idle PE that is ON, debit the estimate and ask. -/
def State.askSteal (s : State) (t : TileId) : State :=
  let c := s.sched t
  if !c.stealEn ∨ (s.tile t).mode.dispatches = false then s else
  match (s.idlePes t).find? fun n => s.domOn t (n % 16), bestOffer (c.offers.filter (s.mayTake t)) with
  | some n, some o =>
    let tag := c.freeTag
    let s := s.onSched t fun c => { c with
      credit := clampCredit (c.credit - o.est), steals := c.steals ++ [{ tag := tag, tile := o.tile, pe := n, est := o.est }] }
    s.sendCtl 0x36 t (tid o.tile) {} (leBytes 2 tag ++ leBytes 1 o.level)
  | _, _ => s

/-- An ECC error of the token store (R327): a corrected one is logged; a lost entry fails its query. Which entry the error lies in is
open (log 8). -/
def State.storeEcc (s : State) (t : TileId) : ScrubResult → State
  | .clean => s
  | .corrected => s.logCorrected t (errRec evEccCorrected 0)
  | .uncorrectable =>
    let ks := (s.sched t).tokens
    match ks[Config.freeNat s.tick % ks.length]? with
    | none => s
    | some k => match s.query? k.qid with
      | none => s
      | some q => (((s.bump).logErr t { errRec evEccUncorrectable 2 with
          slice := q.slice, queue := q.c.q.val, cid := s.cidOf q, status := stUncorrectable, pipe := k.pipe }).failQuery q.qid
            (s.failure stUncorrectable 0))

/-- What a dispatch finds on a tile: the window in force has begun, an error of the store is handled, stale tokens are discarded (R340). -/
def State.forDispatch (s : State) (t : TileId) (store : ScrubResult) : State :=
  let s := (s.rollSched t).storeEcc t store
  s.discardOn t (fun k => !s.tokenCurrent k) 0x0D

/-- TOKEN_DISPATCH (R352): an eligible token is issued, or a steal is asked for. -/
def dispatchEff (t : TileId) (store : ScrubResult) (s : State) : State :=
  let s := s.forDispatch t store
  let s' := s.serve t (s.blockedFloor t (s.idlePes t)) (s.idlePes t)
  if (List.range 16).all fun l => decide ((s.tile t).runs.toList.getD l none = (s'.tile t).runs.toList.getD l none) then s'.askSteal t
  else s'

/-- TOKEN_DISPATCH. -/
def execTokenDispatch (d : DispatchSeen) (s : State) : Res :=
  .next (if s.live d.tile = true ∧ (s.tile d.tile).mode.dispatches = true then dispatchEff d.tile d.store s else s)

/-! ### Messages of the scheduler -/

/-- BARRIER (R339): a release reaches a tile. -/
def execBarrier (h : MsgHdr) (qid : Nat) (pipe : Fin 32) (s : State) : Res :=
  .next (match s.query? qid with
    | some q => if s.live h.dstTile = true ∧ (q.pipe pipe.val).released = true then
        (s.freeTokens h.dstTile qid pipe.val q.slice).wantPes h.dstTile else s
    | none => s)

/-- EMIT_BASE (R342). A base only advances. -/
def execEmitBase (h : MsgHdr) (qid : Nat) (pipe : Fin 32) (base : Nat) (s : State) : Res :=
  .next (match s.query? qid with
    | some _ => if s.live h.dstTile then
        (s.onSched h.dstTile fun c =>
          { c with bases := tblSet 0 c.bases (qid * 32 + pipe.val) (max (tblGet c.bases (qid * 32 + pipe.val) 0) base) }).wantPes h.dstTile
        else s
    | none => s)

/-- SCHED_STATE (R356): keep the last state of each offering tile. -/
def execSchedState (h : MsgHdr) (level : Nat) (tj credit : Int) (est : Nat) (s : State) : Res :=
  .next (if s.live h.dstTile ∧ h.dstTile ≠ h.srcTile then
      s.onSched h.dstTile fun c =>
        { c with offers := (c.offers.filter fun o => decide (o.tile ≠ h.srcTile.val)) ++
            (if level < 32 then [{ tile := h.srcTile.val, level := level, tj := tj, credit := credit, est := est : Offer }] else []) }
    else s)

/-- A tile can run a pipeline of a query: a pipeline that calls a CORE 1 UDF needs a Sumen-L core (R233, R340). -/
def State.canRun (s : State) (t : TileId) (q : Query) (pipe : Nat) : Bool :=
  let i := q.img
  !(i.callsLarge (i.pipes.getD pipe default)) || s.hasLarge t

/-- A token that may be granted to tile `thief` at a level (R358). -/
def State.grantable (s : State) (t thief : TileId) (lvl : Nat) (k : Token) : Bool :=
  k.skipped && k.prio == lvl && k.target == 0xFF && k.order != 1 && k.age != 16 && s.tokenCurrent k && !s.sliceHeld k.slice && !k.barrier &&
    (match s.query? k.qid with
      | some q => !q.failing && s.orderOk t q q.img k && s.canRun thief q k.pipe
      | none => false)

/-- STEAL_REQ (R358): the oldest skipped morsel at the level is split off and granted, or the request is refused. -/
def stealReqEff (h : MsgHdr) (tag level : Nat) (s : State) : State :=
  let t := h.dstTile
  match (s.sched t).tokens.zipIdx.find? fun e => s.grantable t h.srcTile level e.1 with
  | none => s.sendCtl 0x38 t h.srcTile {} (leBytes 2 tag)
  | some (k, ix) =>
    let est := (s.tokenEst t k).2
    let m := k.morsels.headD { tile := 0, morsel := 0, seq := 0 }
    let left : List Token := match k.morsels with
      | _ :: m :: r => [{ k with morsels := m :: r }]
      | _ => []
    let s := s.onSched t fun c => { c with tokens := replaceAt c.tokens ix left }
    let s := s.trace t { k.trace trStealOut 0x09 with tile := h.srcTile.val, est := est }
    let x : MsgCtx := { slice := k.slice, sgen := k.sgen, queue := ((s.query? k.qid).map fun q => q.c.q.val).getD 0, qgen := k.qgen }
    (s.sendCtl 0x37 t h.srcTile x
      (leBytes 2 tag ++ leBytes 2 k.qid ++ leBytes 1 k.pipe ++ leBytes 1 k.prio ++ leBytes 1 (k.order + 4 * k.eclass + 32 * k.attempt) ++
        leBytes 1 (k.age + 32 * k.home) ++ leBytes 4 m.morsel ++ leBytes 8 m.seq ++ leBytes 4 est)).reoffer t

/-- A message with a TAG is acted on once (R490): the mark of the receiver. -/
def State.seen (s : State) (t : TileId) (src mtype tag : Nat) : Bool := (s.tile t).seenCtl.contains (src, mtype, tag)

def State.markSeen (s : State) (t : TileId) (src mtype tag : Nat) : State :=
  s.onTile t fun x => { x with seenCtl := x.seenCtl ++ [(src, mtype, tag)] }

/-- The TAG is free again once the sender has its answer. -/
def State.unmark (s : State) (t : TileId) (src mtype tag : Nat) : State :=
  s.onTile t fun x => { x with seenCtl := x.seenCtl.filter fun k => decide (k ≠ (src, mtype, tag)) }

def execStealReq (h : MsgHdr) (tag level : Nat) (s : State) : Res :=
  .next (if s.live h.dstTile = true ∧ h.srcTile ≠ h.dstTile ∧ s.seen h.dstTile h.srcTile.val 0x36 tag = false then
    stealReqEff h tag level ((s.rollSched h.dstTile).markSeen h.dstTile h.srcTile.val 0x36 tag) else s)

/-- End a steal request: its PE is free, and the debit is restored when nothing came of it. -/
def State.endSteal (s : State) (t : TileId) (x : Steal) (restore : Bool) : State :=
  s.onSched t fun c => { c with
    steals := c.steals.filter fun y => decide (y ≠ x)
    credit := if restore then clampCredit (c.credit + x.est) else c.credit }

/-- STEAL_GRANT (R358): the morsel goes to the reserved PE; of a failing query or with a stale generation it is discarded. -/
def stealGrantEff (h : MsgHdr) (x : Steal) (g : GrantBody) (s : State) : State :=
  let t := h.dstTile
  match s.query? g.qid with
  | none => s.endSteal t x true
  | some q =>
    let k : Token :=
      { qid := g.qid, home := g.home, pipe := g.pipe, slice := h.slice, sgen := h.sgen, qgen := h.qgen, prio := g.prio, order := g.order
        eclass := g.eclass, attempt := g.attempt, age := g.age
        morsels := (q.pipe g.pipe).morsels.filter fun m => m.morsel == g.morsel && m.seq == g.seq }
    if q.failing || !s.tokenCurrent k then
      (s.endSteal t x true).trace t (k.trace trDiscard (if q.failing then 0x0A else 0x0D))
    else match k.morsels with
      | [] => s.endSteal t x true
      | m :: _ =>
        if !s.peOk x.pe ∨ (s.run? (gpeN x.pe)).isSome ∨ s.canRun t q g.pipe = false then
          (s.endSteal t x true).onQuery q.qid fun y => { y with
            toPost := y.toPost ++ [(((s.liveTiles.find? fun u => s.canRun u q g.pipe && (pesOf u.val).any s.peOk).getD t).val, { k with morsels := [m] })] }
        else
          let first := (s.estimate t q g.pipe g.eclass m).1
          let s := (s.endSteal t x false).startRun x.pe k m first x.est
          (s.trace t { k.trace trStealIn 0x00 with pe := x.pe, tile := h.srcTile.val, est := x.est }).wantPes t

def execStealGrant (h : MsgHdr) (tag : Nat) (g : GrantBody) (s : State) : Res :=
  .next (match (s.sched h.dstTile).steals.find? fun x => x.tag == tag && x.tile == h.srcTile.val with
    | some x => if s.live h.dstTile then stealGrantEff h x g ((s.rollSched h.dstTile).unmark h.srcTile h.dstTile.val 0x36 tag) else s
    | none => s)

/-- STEAL_REFUSE (R358). -/
def execStealRefuse (h : MsgHdr) (tag : Nat) (s : State) : Res :=
  .next (match (s.sched h.dstTile).steals.find? fun x => x.tag == tag && x.tile == h.srcTile.val with
    | some x => ((s.rollSched h.dstTile).unmark h.srcTile h.dstTile.val 0x36 tag).endSteal h.dstTile x true
    | none => s)

end Sys2Proof.Machine
end

