-- ==== Sys2Proof/Machine/SumenCore.lean ====
section
/-! DEFINITION. The Sumen cores: the core a command names, its address map and memory accesses (R397, R398), the window cache
(R411), faults and their rows (R409 to R413), and how one instruction runs on a core (R394). The instruction comes with its
command; what the core checks of the fetch is its address (log 22). -/

namespace Sys2Proof.Machine

/-! ### Cores -/

def coreLarge : CoreId → Bool
  | .small _ => false
  | .large _ => true

def coreTile : CoreId → TileId
  | .small g => gpeTile g
  | .large k => ⟨k.val / 4, by omega⟩

def slLocal (k : Fin 32) : Fin 4 := ⟨k.val % 4, Nat.mod_lt _ (by decide)⟩

def State.sumen (s : State) : CoreId → Core
  | .small g => (s.tile (gpeTile g)).small[gpeLocal g]
  | .large k => (s.tile (coreTile (.large k))).large[slLocal k]

def State.setSumen (s : State) : CoreId → Core → State
  | .small g, c => s.onTile (gpeTile g) fun x => { x with small := x.small.set (gpeLocal g).val c (gpeLocal g).isLt }
  | .large k, c => s.onTile (coreTile (.large k)) fun x =>
      { x with large := x.large.set (slLocal k).val c (slLocal k).isLt }

/-- The power domain of a core: that of its PE, or SLk (R393). -/
def coreDom : CoreId → Nat
  | .small g => (gpeLocal g).val
  | .large k => 16 + (slLocal k).val

/-- The core's unit is fenced. -/
def State.sumenFenced (s : State) : CoreId → Bool
  | .small g => bit (s.tile (gpeTile g)).err.fence.pe (gpeLocal g).val
  | .large k => bit (s.tile (coreTile (.large k))).err.fence.sl (slLocal k).val

/-- A core runs: its tile is live and not halted, the core is not fenced and its domain is ON (R416). -/
def State.sumenOn (s : State) (k : CoreId) : Bool :=
  s.live (coreTile k) && (s.tile (coreTile k)).evidence.isNone && !s.sumenFenced k && s.domOn (coreTile k) (coreDom k)

/-! ### What a call sees (R397) -/

/-- VLEN (R393). -/
def vlen (large : Bool) : Nat := if large then 2048 else 128

/-- The code of a UDF, its result type and flags, and the windows of its call. -/
structure UdfCtx where
  large  : Bool
  entry  : Nat
  code   : List Byte
  rty    : Ty
  mayNull : Bool
  aux    : List Byte
  str    : List Byte
  deriving DecidableEq, Repr

/-- Descriptors of a UDF section (R204). -/
def udfDescs (u : List Byte) : List (List Byte) := (List.range (min 32 (field u 0 2))).map fun k => cut u (16 + 16 * k) 16

/-- The entry address of UDF `k`: the code of every UDF of one CORE lies in descriptor order at 64 B boundaries (R397). -/
def udfEntry (ds : List (List Byte)) (k : Nat) : Nat :=
  let core := byteAt (ds.getD k []) 8
  ((ds.take k).map fun d => if byteAt d 8 = core then alignUp (field d 4 4) 64 else 0).sum

def udfCtx (img : Img) (large : Bool) (c : Call) : UdfCtx :=
  let u := (img.udf.map (·.2)).getD []
  let d := (udfDescs u).getD c.udf []
  { large := large, entry := c.entry, code := cut u (field d 0 4) (field d 4 4)
    rty := { code := byteAt d 10, p := byteAt d 11, s := byteAt d 12 }, mayNull := bit (byteAt d 13) 0
    aux := img.aux, str := c.strings }

/-- Why an instruction stops: a fault with its cause (R410), at an element or not, or a window line that is not resident (R411). -/
inductive Stop where
  | fault (cause : Nat) (elem : Bool)
  | miss (line : Nat)
  deriving DecidableEq, Repr

def fIllegal : Nat := 0x0001
def fAccess : Nat := 0x0002
def fAlign : Nat := 0x0003
def fWriteRo : Nat := 0x0004
def fDivide : Nat := 0x0005
def fFixed : Nat := 0x0006
def fOperand : Nat := 0x0007
def fBreak : Nat := 0x0008
def fResult : Nat := 0x0009

/-- The ranges of the call address map. -/
inductive Win where
  | code | frame | data | aux | str
  deriving DecidableEq, Repr

/-- The range that holds all `n` bytes at `a`; none outside the part of a range that the map makes available. -/
def UdfCtx.range (m : UdfCtx) (a n : Nat) : Option Win :=
  if m.entry ≤ a ∧ a + n ≤ m.entry + m.code.length then some .code
  else if 0x400000 ≤ a ∧ a + n ≤ 0x401000 then some .frame
  else if 0x401000 ≤ a ∧ a + n ≤ dataEnd m.large then some .data
  else if auxBase ≤ a ∧ a + n ≤ auxBase + m.aux.length then some .aux
  else if strBase ≤ a ∧ a + n ≤ strBase + m.str.length then some .str
  else none

/-- The cause of an access that is both misaligned and outside the map is one of the two; the spec ranks neither (log 8). -/
def accessCause (m : UdfCtx) (a n : Nat) : Option Nat :=
  match (m.range a n).isNone, a % n != 0 with
  | false, false => none
  | true, false => some fAccess
  | false, true => some fAlign
  | true, true => some (if Config.freeRank a n % 2 = 0 then fAccess else fAlign)

/-- The line of the window cache that holds an address (R398). -/
def lineOf (a : Nat) : Nat := alignDown a 256

/-- Frame bytes that a UDF may write: the result area and the result validity word (R418). -/
def frameWritable (a n : Nat) : Bool :=
  decide (0x400600 ≤ a ∧ a + n ≤ 0x400800) || decide (0x40080C ≤ a ∧ a + n ≤ 0x400810)

/-- Read `n` bytes. A byte of the data region that nothing has written is a free value (R398, log 13). -/
def Core.load (m : UdfCtx) (c : Core) (elem : Bool) (a n : Nat) : Except Stop (List Byte) :=
  match accessCause m a n with
  | some cause => .error (.fault cause elem)
  | none =>
    match m.range a n with
    | some .code => .ok (cut m.code (a - m.entry) n)
    | some .frame => .ok ((List.range n).map fun i => (memRead c.frame (a - 0x400000 + i)).getD 0)
    | some .data =>
      .ok ((List.range n).map fun i => (memRead c.data (a + i)).getD (if c.dataZero then 0 else Config.scratchByte c.dataTick (a + i)))
    | some .aux => if c.lines.contains (lineOf a) then .ok (cut m.aux (a - auxBase) n) else .error (.miss (lineOf a))
    | some .str => if c.lines.contains (lineOf a) then .ok (cut m.str (a - strBase) n) else .error (.miss (lineOf a))
    | none => .error (.fault fAccess elem)

/-- A frame byte: the frame lists no zero. -/
def frameWrite (f : Mem) (a : Nat) (b : Byte) : Mem := if b = 0 then tblDel f a else memWrite f a b

def frameWriteBytes (f : Mem) : Nat → List Byte → Mem
  | _, [] => f
  | a, b :: bs => frameWriteBytes (frameWrite f a b) (a + 1) bs

/-- Write bytes: the data region, and the writable part of the frame. -/
def Core.store (m : UdfCtx) (c : Core) (elem : Bool) (a : Nat) (bs : List Byte) : Except Stop Core :=
  match accessCause m a bs.length with
  | some cause => .error (.fault cause elem)
  | none =>
    match m.range a bs.length with
    | some .data => .ok { c with data := memWriteBytes c.data a bs }
    | some .frame =>
      if frameWritable a bs.length then .ok { c with frame := frameWriteBytes c.frame (a - 0x400000) bs }
      else .error (.fault fWriteRo elem)
    | _ => .error (.fault fWriteRo elem)

/-! ### Registers (R395, R396) -/

def Core.getX (c : Core) (r : RegNo) : Word64 := if r = 0 then 0 else c.x[r]

/-- A write to X0 is discarded. -/
def Core.setX (c : Core) (r : RegNo) (v : Word64) : Core := if r = 0 then c else { c with x := c.x.set r.val v r.isLt }

def Core.setV (c : Core) (r : RegNo) (v : BitVec 2048) : Core := { c with v := c.v.set r.val v r.isLt }

/-- Bits [63:0] of Vn (R395). -/
def Core.getF (c : Core) (r : RegNo) : Nat := c.v[r].toNat % 2 ^ 64

/-- The operand of a scalar floating-point instruction: a binary32 lies in bits [31:0]. -/
def Core.getFp (c : Core) (dbl : Bool) (r : RegNo) : Nat := if dbl then c.getF r else c.getF r % 2 ^ 32

/-- A scalar floating-point write clears every bit above 63, and bits [63:32] for binary32 (R395). -/
def Core.setF (c : Core) (r : RegNo) (v : Nat) : Core := c.setV r (BitVec.ofNat 2048 (v % 2 ^ 64))

def Core.rmode (c : Core) : Nat := c.fxcsr.toNat % 4
def Core.trap (c : Core) : Bool := c.fxcsr.getLsbD 3

def Core.setSat (c : Core) : Core := { c with fxcsr := c.fxcsr ||| 4 }

/-- FFLAGS are sticky: NV, DZ, OF, UF, NX from bit 4 upward. -/
def Core.orFlags (c : Core) (f : FFlags) : Core :=
  { c with fxcsr := c.fxcsr ||| BitVec.ofNat 64 (packBits [false, false, false, false, f.nv, f.dz, f.of, f.uf, f.nx]) }

/-- Element width of the current code (R401). -/
def Core.ew (c : Core) : Nat := 8 * 2 ^ c.vshape

/-- CSR number, read value; none for an unlisted number (R396). -/
def Core.csr (c : Core) (n : Nat) : Option Word64 :=
  match n with
  | 1 => some c.fxcsr
  | 2 => some (BitVec.ofNat 64 c.vact)
  | 3 => some (BitVec.ofNat 64 c.vshape)
  | 4 => some c.vresume
  | 5 => some c.rowbase
  | 6 => some (BitVec.ofNat 64 c.vrem)
  | _ => none

/-- A write to a read-only CSR is discarded; bits [63:9] of FXCSR read 0. -/
def Core.setCsr (c : Core) (n : Nat) (v : Word64) : Core :=
  match n with
  | 1 => { c with fxcsr := v &&& 0x1FF }
  | 4 => { c with vresume := v }
  | 5 => { c with rowbase := v }
  | _ => c

def Core.next (c : Core) : Core := { c with pc := c.pc + 4 }

/-! ### End of a call (R412, R413, R419) -/

/-- The row of a fault (R413). -/
def faultRow (c : Core) (select : Nat) (elem : Bool) : Nat :=
  let r := (if elem then c.rowbase + c.vresume else c.rowbase).toNat
  if r ≤ 31 then r else (lowBitFrom 32 select 0).getD 0

/-- Hand the result of the running call to its PE's run, and start the next queued call (R233, R394). -/
def State.endCall (s : State) (k : CoreId) (c : Core) (call : Call) (r : UdfResult) : State :=
  let c := { c with
    call := none, miss := none, idleAt := s.now
    faults := if r.fault.isSome then min 0xFFFFFFFF (c.faults + 1) else c.faults }
  (s.setSumen k c.serve).onRun call.pe fun x =>
    if x.qid = call.qid then
      { x with udf := x.udf ++ [r], calls := x.calls.filter fun y => decide (y ≠ (call.block, call.uop)) }
    else x

def State.faultCall (s : State) (k : CoreId) (c : Core) (call : Call) (cause row : Nat) : State :=
  s.endCall k c call { block := call.block, uop := call.uop, vals := [], fault := some (cause, row) }

/-- Bytes per element of a result or argument array (R418). -/
def Ty.es (t : Ty) : Nat := if t.isDec ∨ t.isStr = true then 16 else t.bytes

/-- The value that an element of the result area returns; none where it breaks R419. -/
def resultVal (m : UdfCtx) (frame : Mem) (r : Nat) : Option Val :=
  let t := m.rty
  if !bit (leNat (memBytes0 frame 0x80C 4)) r then (if m.mayNull then some .null else none) else
  let x := leNat (memBytes0 frame (0x600 + r * t.es) t.es)
  if t.code = tyBool then (if x ≤ 1 then some (.bool (x == 1)) else none)
  else if t.isFloat then some (t.float (t.fmt.canon x))
  else if t.isDec then (if t.inRange (toSigned 128 x) then some (.int (toSigned 128 x)) else none)
  else some (.int (if t.signed then toSigned t.width x else x))

/-- RET (R419): the results of the selected rows, or RESULT_RANGE at the lowest row that breaks it. -/
def State.retCall (s : State) (k : CoreId) (c : Core) (call : Call) (m : UdfCtx) : State :=
  let vs := (List.range 32).map fun r => if bit call.select r then resultVal m c.frame r else some .null
  match (List.range 32).find? (fun r => (vs.getD r (some .null)).isNone) with
  | some r => s.faultCall k c call fResult r
  | none => s.endCall k c call { block := call.block, uop := call.uop, vals := vs.map (·.getD .null), fault := none }

/-! ### One instruction -/

/-- The core and its context when an instruction of its running call can run: none when the core runs no call, waits for a window
line, or its unit does not run (log 1). -/
def State.coreReady (s : State) (k : CoreId) : Option (Call × UdfCtx) :=
  let c := s.sumen k
  match c.call with
  | none => none
  | some call =>
    if c.miss.isSome || !s.sumenOn k then none else
    match s.query? call.qid with
    | none => none
    | some q => some (call, udfCtx (Img.ofBytes q.image) (coreLarge k) call)

/-- A fetch outside the UDF's code or off a word boundary faults (R397, R398). -/
def fetchCause (m : UdfCtx) (pc : Nat) : Option Nat :=
  let out := decide (pc < m.entry ∨ m.entry + m.code.length < pc + 4)
  match out, pc % 4 != 0 with
  | false, false => none
  | true, false => some fAccess
  | false, true => some fAlign
  | true, true => some (if Config.freeRank pc 4 % 2 = 0 then fAccess else fAlign)

/-- Take what an instruction did: its new core, or a miss that the core waits for, or a fault that ends the call (R411, R412). -/
def State.landOn (s : State) (k : CoreId) (call : Call) : Core × Option Stop → State
  | (c, none) => s.setSumen k c
  | (c, some (.miss l)) => s.setSumen k { c with miss := some l, wmiss := min 0xFFFFFFFF (c.wmiss + 1) }
  | (c, some (.fault cause elem)) => s.faultCall k c call cause (faultRow c call.select elem)

/-- Run one instruction on a core. -/
def State.sumenRun (s : State) (k : CoreId) (f : UdfCtx → Core → Core × Option Stop) : State :=
  match s.coreReady k with
  | none => s
  | some (call, m) =>
    let c := s.sumen k
    match fetchCause m c.pc.toNat with
    | some cause => s.faultCall k c call cause (faultRow c call.select false)
    | none => s.landOn k call (f m c)

/-- An instruction that cannot stop. -/
def pureOp (f : Core → Core) (_ : UdfCtx) (c : Core) : Core × Option Stop := ((f c).next, none)

/-- An instruction whose fault leaves the core unchanged. -/
def tryOp (f : UdfCtx → Core → Except Stop Core) (m : UdfCtx) (c : Core) : Core × Option Stop :=
  match f m c with
  | .ok d => (d.next, none)
  | .error e => (c, some e)

end Sys2Proof.Machine
end

