-- ==== Sys2Proof/Machine/QueryEnd.lean ====
section
/-! DEFINITION. The end of a morsel (R235, R320 to R325), merge passes (R278), the spill engine (R247) and UDF calls (R233, R417, R418). -/

namespace Sys2Proof.Machine

/-! ### Ends -/

/-- Take a morsel off its PE: its energy is settled and its end traced (R347, R362). -/
def State.endRun (s : State) (pe : Gpe) (r : Run) (energy reason : Nat) : State :=
  let t := gpeTile pe
  let s := ((s.setRun pe none).stopCalls pe).settleEnergy t (s.handleOf r.qid) r energy
  s.trace t
    { tstamp := 0, type := trComplete, reason := reason, pe := pe.val, prio := r.prio, attempt := r.attempt, eclass := r.eclass
      qid := r.qid, slice := r.slice, pipe := r.pipe, seq := r.at_.seq % 2 ^ 32, est := energy }

/-- What follows every end: the query may be over, its base may have advanced, other tokens may be eligible. -/
def State.afterEnd (s : State) (r : Run) : State := (((s.tellBase r.qid r.pipe).settleQuery r.qid).wantAll).bump

/-- A failure that is not rerun ends the morsel (R231, R324, R325). -/
def State.failEnd (s : State) (pe : Gpe) (r : Run) (q : Query) (energy : Nat) (f : QFail) : State :=
  ((s.endRun pe r energy 0x00).queryFault q r.at_.morsel f).afterEnd r

/-! ### Tally checks (R235, R250, R252, R258, R262, R268, R269, R297) -/

/-- One check of a tally: the operator and the number that its TALLY_MISMATCH record gives (log 97), and the two sides. -/
structure Check where
  op    : Nat
  num   : Nat
  left  : Int
  right : Int
  ok    : Bool := left == right
  deriving DecidableEq, Repr

def eqCheck (op num : Nat) (left right : Int) : Check := { op := op, num := num, left := left, right := right }

/-- What a counter holds. -/
def Counts.val (cs : Counts) (k : Ctr) : Int := ((cs.find? fun e => e.1 == k).map (·.2)).getD 0

/-- Counters as the end of a morsel finds them: those that an upset names hold another value. -/
def Counts.upset (cs : Counts) (u : List (Ctr × Int)) : Counts :=
  cs.map fun e => (e.1, ((u.find? fun x => x.1 == e.1).map (·.2)).getD e.2)

/-- Index of an operator of the pipeline; an absent one stands at 0. -/
def Pipe.opOr (p : Pipe) (kind : Nat) : Nat := if (p.op? kind).isSome then p.opIx kind else 0

/-- Checks 1 to 7 of R235 with checks 8 (R252) and 9 (R269) of a READ. -/
def Pipe.frontChecks (p : Pipe) (nlane : Nat) (cs : Counts) : List Check :=
  let v := cs.val
  let fl := p.opOr kFilter
  let co := p.opOr kCompute
  let lanes := List.range nlane
  [eqCheck 0 1 (v .fRows) (v .fPruned + v .fDeliv)] ++ lanes.map (fun l => eqCheck 0 2 (v (.dValues l)) (v .fDeliv)) ++
    lanes.map (fun l => eqCheck 0 3 (v (.dNulls l)) (v (.fHnull l))) ++
    [eqCheck fl 4 (v .flIn) (v .fDeliv), eqCheck fl 5 (v .flIn) (v .flPass + v .flRej + v .flUnk), eqCheck co 6 (v .cIn) (v .flPass),
      eqCheck co 7 (v .cIn) (v .cKeep + v .cDrop)] ++
    (if p.plan.src = 1 then [] else [eqCheck 0 8 (v .rRec) (v .rValid + v .rVoid)]) ++
    cs.filterMap fun e => match e.1 with
      | .rAcc g k => some (eqCheck 0 9 e.2 (v (.rRes g k)))
      | _ => none

/-- P_OUT by JTYPE (R262). -/
def joinOut (v : Ctr → Int) (jtype : Nat) (hasRows hasNull : Bool) : Int :=
  match jtype with
  | 0 => v .pPairs
  | 1 => v .pPairs + v .pNomatch + v .pNullkey
  | 2 => v .pMatch
  | 3 => v .pNomatch + v .pNullkey
  | _ => if !hasRows then v .pNomatch + v .pNullkey else if !hasNull then v .pNomatch else 0

/-- The checks of PROBE: what it got is what compute kept, and those of R262. -/
def QEnv.probeChecks (e : QEnv) (op : Op) (v : Ctr → Int) : List Check :=
  let ix := e.p.opIx kProbe
  let ps := e.q.pipes.getD (op.b 0) {}
  [eqCheck ix 10 (v .pIn) (v .cKeep), eqCheck ix 1 (v .pIn) (v .pNullkey + v .pMatch + v .pNomatch),
    eqCheck ix 2 (v .pOut) (joinOut v (op.b 1) ps.hasRows ps.hasNull)]

/-- The checks of the functions of an aggregate over `g` inputs (R268), numbered from `n`. -/
def fnChecks (ix n : Nat) (v : Ctr → Int) (g : Int) (f : Nat) : List Check :=
  [eqCheck ix n (v (.aIn f)) (v (.aTab f)), eqCheck ix (n + 1) (v (.aIn f) % resM) (v (.aRes f)),
    eqCheck ix (n + 2) (v (.nAgg f) + v (.nNull f)) g]

/-- The rows that a sink got. -/
def sinkIn (kind : Nat) : Ctr :=
  if kind = kExchange then .eIn else if kind = kBuild then .bIn else if kind = kAgg then .gIn else if kind = kWindow then .wIn
  else if kind = kSort then .sIn else if kind = kTopk then .n else .mIn

/-- The checks of the sink: what it got is what the stage before it gave, and its own. -/
def QEnv.sinkChecks (e : QEnv) (v : Ctr → Int) : List Check :=
  let op := e.p.sink
  let ix := e.p.sinkIx
  let fns := List.range op.fns.length
  let tiles := maskTiles (e.q.masks.getD e.p.ix 0)
  let head := eqCheck ix 10 (v (sinkIn op.kind)) (if (e.p.op? kProbe).isSome then v .pOut else v .cKeep)
  let ord (n : Nat) := eqCheck ix n (v .ord) 0
  head :: (
    if op.kind = kExchange then
      eqCheck ix 1 ((tiles.map fun t => v (.xsCnt t)).sum) (v .eIn * (if op.b 0 = 4 then tiles.length else 1)) ::
        (tiles.flatMap fun t => [eqCheck ix 2 (v (.xrCnt t)) (v (.xsCnt t)), eqCheck ix 2 (v (.xrXor t)) (v (.xsXor t))])
    else if op.kind = kBuild then [eqCheck ix 1 (v .bIn) (v .bIns + v .bNull)]
    else if op.kind = kAgg then fns.flatMap (fnChecks ix 1 v (v .gIn))
    else if op.kind = kWindow then
      [eqCheck ix 1 (v .wIn) (v .wNull + v .wNone + v .wHit),
        { op := ix, num := 2, left := v .wPairs, right := v .wHit, ok := decide (v .wHit ≤ v .wPairs) }] ++
        fns.flatMap (fnChecks ix 3 v (v .wPairs))
    else if op.kind = kSort then [eqCheck ix 1 (v .sIn) (v .sOut), eqCheck ix 2 (v .ksIn) (v .ksOut), ord 3]
    else if op.kind = kTopk then
      [eqCheck ix 1 (v .c0 + v .n) (v .c1 + v .cd), eqCheck ix 2 ((v .k0 + v .kn) % resM) ((v .k1 + v .kd) % resM), ord 3]
    else [eqCheck ix 1 (v .mIn) (v .mOut + v .mLimit)])

/-- Every check of a morsel's end, in the order of its stages. -/
def QEnv.checks (e : QEnv) (cs : Counts) : List Check :=
  e.p.frontChecks e.info.lanes.length cs ++
    (match e.p.op? kProbe with
      | some op => e.probeChecks op cs.val
      | none => []) ++ e.sinkChecks cs.val

/-- The first check that fails. -/
def firstWrong (l : List Check) : Option Check := l.find? fun c => !c.ok

/-- The tally counters of a PE as a morsel's end leaves them (R234). -/
def State.setTally (s : State) (pe : Gpe) (cs : Counts) : State :=
  s.onTile (gpeTile pe) fun x => { x with tally := x.tally.set (gpeLocal pe).val cs }

/-! ### Mismatches (R320 to R322) -/

/-- The TALLY_MISMATCH record (R332, R333). -/
def tallyRec (q : Query) (r : Run) (pe : Nat) (c : Check) : ErrRec :=
  { errRec evTally 1 with
    kind := 0x01, index := pe, slice := r.slice, queue := q.c.q.val, morsel := r.at_.morsel, attempt := r.attempt, pipe := r.pipe
    data := leBytes 1 c.op ++ leBytes 1 c.num ++ leBytes 6 (ofSigned 48 c.left) ++ leBytes 6 (ofSigned 48 c.right) ++ leBytes 1 pe }

/-- A mismatch counts against its PE in the verification window that holds its time; the second in it, or of the morsel, fences the PE
(R321, R322). -/
def State.countMiss (s : State) (pe : Gpe) (attempt : Nat) : State :=
  let t := gpeTile pe
  let l := (gpeLocal pe).val
  let s := s.rollVerify t
  let n := (s.tile t).err.peMiss.getD l 0 + 1
  let s := s.onTile t fun x => { x with err := { x.err with peMiss := x.err.peMiss.set l n } }
  if 2 ≤ n ∨ attempt = 1 then s.fencePe pe else s

/-- A tally mismatch: the attempt's effects are void and the morsel reruns, but in a query that fails (R321, R325). -/
def State.mismatch (s : State) (pe : Gpe) (r : Run) (q : Query) (energy : Nat) (c : Check) : State :=
  let t := gpeTile pe
  let s := (s.endRun pe r energy 0x04).logErr t { tallyRec q r pe.val c with cid := s.cidOf q }
  let s := s.countMiss pe r.attempt
  let used := r.used ++ [pe.val]
  let s :=
    if 2 ≤ r.attempt then
      s.failQuery r.qid { status := stUnverified, detail := 0, pipe := r.pipe, op := c.op, morsel := r.at_.morsel, time := s.now }
    else if q.failing then s
    else match s.rerunTarget r.at_ r.attempt used with
      | some n => s.plan r.qid (n / 16) (r.again q.home n used)
      | none => s.failQuery r.qid { s.failure stUnavailable 0x0002 with pipe := r.pipe, morsel := r.at_.morsel }
  s.afterEnd r

/-- A morsel passes its tallies (R249): its sink takes effect and it counts; in a query that fails its output is discarded (R325). -/
def State.verify (s : State) (pe : Gpe) (r : Run) (q : Query) (energy skipped : Nat) (ps : PipeState) : State :=
  if q.failing then s.endRun pe r energy 0x06
  else
    let s := (s.endRun pe r energy 0x06).putPipe q r.pipe { ps with verified := ps.verified ++ [(r.at_.morsel, r.attempt)] }
    let s := s.onQuery r.qid fun q => { q with morsels := q.morsels + 1, skipped := q.skipped + skipped }
    s.onSlc r.slice fun y => { y with morsels := y.morsels + 1 }

/-- A morsel that works: its PE is ON, and its query is known. -/
def State.working? (s : State) (pe : Gpe) : Option (Run × Query) :=
  match s.run? pe with
  | none => none
  | some r =>
    if s.live (gpeTile pe) = true ∧ s.domOn (gpeTile pe) (gpeLocal pe).val = true then (s.query? r.qid).map fun q => (r, q) else none

/-- What happens to a morsel that works falls into the scheduler window that holds its time. -/
def State.onWork (s : State) (pe : Gpe) (f : Run → Query → State → State) : State :=
  match s.working? pe with
  | none => s
  | some _ =>
    let s := s.rollSched (gpeTile pe)
    match s.working? pe with
    | some x => f x.1 x.2 s
    | none => s

/-! ### The stages of a morsel -/

/-- What a morsel's stages before its sink come to. -/
inductive Staged where
  | wait                               -- a UDF call has no result yet
  | fail (f : QFail)
  | rows (rs : List Row) (cs : Counts)
  deriving DecidableEq, Repr

/-- The rows of a morsel that reach its sink with the counters of its stages, or why it has none. -/
def State.stages (s : State) (e : QEnv) (r : Run) (fd : Feed) : Staged :=
  match s.front e r.udf fd with
  | .wait _ _ _ _ _ => .wait
  | .fail f => .fail f
  | .rows rs c => match s.probe e rs with
    | .ok x => .rows x.1 (fd.counts ++ c.counts fd.rows.length ++ x.2)
    | .error f => .fail f

/-! ### The sort unit (R279) -/

/-- The tile whose sort unit serves tile `t` (R279). -/
def State.sortTile (s : State) (t : TileId) : Option TileId :=
  if s.live t && !(s.tile t).err.fence.sort then some t else s.liveTiles.find? fun u => !(s.tile u).err.fence.sort

/-! ### Morsels of an EXCHANGE (R246, R250, R483) -/

/-- The tiles of E other than a morsel's own. -/
def QEnv.remotes (e : QEnv) : List Nat := (maskTiles (e.q.masks.getD e.p.ix 0)).filter fun t => t != e.t

/-- Every record toward every other tile of E is acknowledged. -/
def Run.allAcked (r : Run) (e : QEnv) : Bool :=
  e.remotes.all fun t => ((r.acked.find? fun a => a.1 == t).map (·.2)).getD 0 ==
    (((r.xs.getD []).find? fun x => x.1 == t).map (·.2.1)).getD 0

/-- The sender asks every other tile of E for its tally once all its records are acknowledged. -/
def State.askTallies (s : State) (pe : Gpe) (r : Run) (e : QEnv) : State :=
  if r.xs.isSome ∧ r.allAcked e = true then
    e.remotes.foldl (fun s t => s.sendMsg 0x31 24 (gpeTile pe) agCtrl (tid t) agXchg e.q.ctx
      (leBytes 2 r.qid ++ leBytes 1 pe.val ++ leBytes 1 r.attempt ++ leBytes 4 r.at_.morsel)) s
  else s

/-- Send the records of a morsel for other tiles. -/
def State.sendRecords (s : State) (pe : Gpe) (r : Run) (q : Query) (l : List (Nat × Nat × List Byte)) : State :=
  l.foldl (fun s x => s.sendMsg 0x20 (24 + x.2.2.length) (gpeTile pe) ⟨(gpeLocal pe).val, by omega⟩ (tid x.1) agXchg q.ctx
    (leBytes 2 r.qid ++ leBytes 1 r.pipe ++ [0] ++ leBytes 2 x.2.1 ++ [0, 0] ++ x.2.2)) s

/-- The counts of the receivers: a PE's own tile holds its own. -/
def Run.told (r : Run) (e : QEnv) (ps : PipeState) (pe : Gpe) : List (Nat × Nat × BitVec 64) :=
  (e.t, ps.recvTally e.t pe.val r.at_.morsel r.attempt) :: r.tallies.filter fun x => x.1 != e.t

/-- Every other tile of E has answered. -/
def Run.answered (r : Run) (e : QEnv) : Bool := e.remotes.all fun t => r.tallies.any fun x => x.1 == t

/-- The end of an EXCHANGE morsel whose records have all been sent: it waits for the tallies of the receivers, then is checked (R250). -/
def State.exchangeEnd (s : State) (pe : Gpe) (r : Run) (q : Query) (energy : Nat) (u : Upset) : State :=
  let e := q.env r.pipe (gpeTile pe).val r.at_
  if r.answered e = false then s.askTallies pe r e
  else
    let told := (r.told e (q.pipe r.pipe) pe).filter fun x => (maskTiles (q.masks.getD r.pipe 0)).contains x.1
    let cs := (r.counts ++ exchangeCounts (r.counts.val .eIn).toNat (r.xs.getD []) told).upset u.counters
    let s := s.setTally pe cs
    match firstWrong (e.checks cs) with
    | some c => s.mismatch pe r q energy c
    | none => (s.verify pe r q energy (s.feed e).skipped (q.pipe r.pipe)).afterEnd r

/-- The records of an EXCHANGE morsel are sent; what is left waits for acknowledgements and tallies. -/
def State.exchangeSend (s : State) (pe : Gpe) (r : Run) (q : Query) (energy : Nat) (u : Upset) (rows : List Row) (cs : Counts) : State :=
  let e := q.env r.pipe (gpeTile pe).val r.at_
  match s.sinkExchange e e.p.sink (q.pipe r.pipe) pe.val r.attempt rows with
  | .error f => s.failEnd pe r q energy f
  | .ok x =>
    if q.failing then (s.endRun pe r energy 0x00).afterEnd r
    else
      let r := { r with xs := some x.xs, counts := cs ++ [ctr .eIn rows.length] }
      let s := ((s.putPipe q r.pipe x.ps).sendRecords pe r q x.remote).setRun pe (some r)
      match s.query? r.qid with
      | some q => s.exchangeEnd pe r q energy u
      | none => s

/-! ### Commits of morsel tables (R267, R268) -/

/-- The COMMIT_RESIDUE record of a table update whose residue check failed (R268, R333). -/
def residueRec (q : Query) (r : Run) (pe : Nat) : ErrRec :=
  { errRec evCommitResidue 1 with
    kind := 0x01, index := pe, slice := r.slice, queue := q.c.q.val, morsel := r.at_.morsel, attempt := r.attempt, pipe := r.pipe }

/-- What failed updates of a commit leave behind (R268): each is logged, and the second fences the PE. Another PE of the tile has then
merged what was left (R267); where the tile has none, the query fails. -/
def State.commitUpset (s : State) (pe : Gpe) (r : Run) (q : Query) (n : Nat) : State :=
  let t := gpeTile pe
  let log (s : State) : State := s.logErr t { residueRec q r pe.val with cid := s.cidOf q }
  if n = 0 then s
  else if n = 1 then log s
  else
    let s := (log (log s)).fencePe pe
    if (pesOf t.val).any s.peOk then s
    else s.failQuery r.qid { s.failure stUnavailable 0x0002 with pipe := r.pipe, morsel := r.at_.morsel }

/-- A morsel that has passed its tallies is committed to its sink. -/
def State.commitSink (s : State) (pe : Gpe) (r : Run) (q : Query) (e : QEnv) (energy skipped : Nat) (u : Upset) (k : Sunk) : State :=
  if e.p.sink.kind = kAgg ∨ e.p.sink.kind = kWindow then
    match s.commitAgg e e.p.sink k.pass k.merge with
    | .error f => s.failEnd pe r q energy f
    | .ok ps => ((s.verify pe r q energy skipped ps).commitUpset pe r q (if k.merge.isEmpty then 0 else u.commit)).afterEnd r
  else (s.verify pe r q energy skipped k.pass).afterEnd r

/-! ### MORSEL_END -/

/-- A sort or top-k morsel needs a sort unit (R277, R279). -/
def State.sinkReady (s : State) (e : QEnv) : Bool :=
  !(e.p.sink.kind == kSort || e.p.sink.kind == kTopk) || (s.sortTile (tid e.t)).isSome

/-- The sink of a morsel other than an EXCHANGE takes its rows; its tallies decide what becomes of them. -/
def State.sinkEnd (s : State) (pe : Gpe) (r : Run) (q : Query) (energy skipped : Nat) (u : Upset) (rows : List Row) (cs : Counts) : State :=
  let e := q.env r.pipe (gpeTile pe).val r.at_
  if s.sinkReady e = false then s.failEnd pe r q energy { status := stUnavailable, detail := 0, pipe := r.pipe, op := e.p.sinkIx } else
  match s.sink e r.attempt rows with
  | .error f => s.failEnd pe r q energy f
  | .ok k =>
    let cs := (cs ++ k.counts).upset u.counters
    let s := s.setTally pe cs
    match firstWrong (e.checks cs) with
    | some c => (if q.failing then s else s.putPipe q r.pipe k.void).mismatch pe r q energy c
    | none => s.commitSink pe r q e energy skipped u k

def morselEndEff (pe : Gpe) (r : Run) (q : Query) (energy : Nat) (u : Upset) (s : State) : State :=
  if r.xs.isSome then
    if q.failing then (s.endRun pe r energy 0x00).afterEnd r else s.exchangeEnd pe r q energy u
  else
    let e := q.env r.pipe (gpeTile pe).val r.at_
    let fd := s.feed e
    match s.stages e r fd with
    | .wait => s
    | .fail f => s.failEnd pe r q energy f
    | .rows rows cs =>
      if e.p.sink.kind = kExchange then s.exchangeSend pe r q energy u rows cs
      else s.sinkEnd pe r q energy fd.skipped u rows cs

/-- MORSEL_END (R235): the morsel runs from its source to its sink and its tallies are checked; `upset` is what upset the checked logic.
A morsel whose UDF call has no result yet is not at its end. An EXCHANGE morsel sends its records at its first MORSEL_END, and ends at
one that finds the tallies of all their receivers (log 98). -/
def execMorselEnd (pe : Gpe) (energyNj : Nat) (upset : Upset) (s : State) : Res :=
  .next (s.onWork pe fun r q s => morselEndEff pe r q energyNj upset s)

/-- The check that an error which a PE finds in its own state stands for (R320). -/
def Pipe.selfCheck (p : Pipe) : Check := { op := p.sinkIx, num := 0, left := 0, right := 0, ok := false }

/-- PE_INTERNAL_ERROR (R320): as a tally mismatch with CHECK 0. -/
def execPeInternalError (pe : Gpe) (energyNj : Nat) (s : State) : Res :=
  .next (s.onWork pe fun r q s => s.mismatch pe r q energyNj (q.env r.pipe 0 r.at_).p.selfCheck)

/-- QUERY_FORCE_STOP (R93, R325): the morsels and commits of a failing query stop where they are. -/
def forceStopEff (qid : Nat) (s : State) : State :=
  let pes := (List.range 128).filter fun n => (s.run? (gpeN n)).any fun r => r.qid == qid
  let s := pes.foldl (fun s n => match s.run? (gpeN n) with
    | some r => ((s.rollSched (gpeTile (gpeN n))).bump).endRun (gpeN n) r (Config.freeNat s.tick) 0x05
    | none => s) s
  let s := allTiles.foldl (fun s t => s.onTile t fun x => { x with codec := x.codec.filter fun j => !j.isOf qid }) s
  ((s.settleQuery qid).wantAll).bump

def execQueryForceStop (qid : Nat) (s : State) : Res :=
  .next (if (s.query? qid).any (·.failing) then forceStopEff qid s else s)

/-! ### MERGE_PASS_END (R278, R279) -/

/-- Runs of a group, and the others. -/
def splitRuns (rs : List SRun) (k : Nat × Nat) : List SRun × List SRun :=
  (rs.filter fun r => r.tile == k.1 && r.group == k.2, rs.filter fun r => !(r.tile == k.1 && r.group == k.2))

/-- The runs that a pass over a group merges: up to 64, oldest first. -/
def PipeState.passRuns (ps : PipeState) (k : Nat × Nat) : List SRun := (splitRuns ps.runs k).1.take 64

/-- The run that a pass over a group makes. -/
def State.passOut (s : State) (ps : PipeState) (k : Nat × Nat) : List SortRec := s.sortRecs 3 ((ps.passRuns k).flatMap (·.recs))

/-- One merge pass: up to 64 runs of the group become one new run. -/
def PipeState.mergeRuns (ps : PipeState) (k : Nat × Nat) (out : List SortRec) : PipeState :=
  let x := splitRuns ps.runs k
  { ps with
    runs := x.2 ++ x.1.drop 64 ++ [{ tile := k.1, group := k.2, recs := out }]
    mergeFails := ps.mergeFails.filter fun m => !(m.1 == k.1 && m.2.1 == k.2) }

/-- The counters of a merge pass (R297). -/
def passCounts (runs : List SRun) (out : List SortRec) : Counts :=
  (runs.zipIdx.flatMap fun r => [ctr (.passIn r.2) r.1.recs.length, ctr (.passKs r.2) (keySums r.1.recs)]) ++
    [ctr .sOut out.length, ctr .ksOut (keySums out), ctr .ord (outOfOrder out)]

/-- The checks of a merge pass over `n` runs (R297). -/
def passChecks (op n : Nat) (v : Ctr → Int) : List Check :=
  [eqCheck op 1 (((List.range n).map fun i => v (.passIn i)).sum) (v .sOut),
    eqCheck op 2 (((List.range n).map fun i => v (.passKs i)).sum % resM) (v .ksOut), eqCheck op 3 (v .ord) 0]

/-- How often the pass over a group has failed. -/
def PipeState.passFails (ps : PipeState) (k : Nat × Nat) : Nat :=
  ((ps.mergeFails.find? fun m => m.1 == k.1 && m.2.1 == k.2).map (·.2.2)).getD 0

def PipeState.setFails (ps : PipeState) (k : Nat × Nat) (n : Nat) : PipeState :=
  { ps with mergeFails := (ps.mergeFails.filter fun m => !(m.1 == k.1 && m.2.1 == k.2)) ++ [(k.1, k.2, n)] }

/-- A pass whose tally fails: it is run again; a second failure fences the sort unit, and a third fails the query (R278). -/
def State.mergeMiss (s : State) (unit : TileId) (q : Query) (pipe : Nat) (k : Nat × Nat) (c : Check) : State :=
  let n := (q.pipe pipe).passFails k + 1
  let s := s.logErr (tid k.1) { errRec evTally 1 with
    kind := 0x03, slice := q.slice, queue := q.c.q.val, cid := s.cidOf q, attempt := n - 1, pipe := pipe
    data := leBytes 1 c.op ++ leBytes 1 c.num ++ leBytes 6 (ofSigned 48 c.left) ++ leBytes 6 (ofSigned 48 c.right) ++ [0xFF] }
  let s := s.onPipe q.qid pipe (·.setFails k n)
  if n = 1 then s
  else if n = 2 then s.fenceUnit unit 0x03 0 fun f => { f with sort := true }
  else s.failQuery q.qid { status := stUnverified, detail := 0, pipe := pipe, op := c.op, morsel := 0, time := s.now }

/-- The pass that the sort unit of `unit` makes over a group. -/
def State.mergePass (s : State) (unit : TileId) (q : Query) (pipe : Nat) (k : Nat × Nat) (u : Upset) : State :=
  let ps := q.pipe pipe
  let p := q.img.pipes.getD pipe default
  let out := s.passOut ps k
  let cs := (passCounts (ps.passRuns k) out).upset u.counters
  if out.any fun r => s.rowBad q.qid pipe k.1 p.sink r.row then
    s.queryFault q 0xFFFFFFFF { status := stUncorrectable, detail := 0, pipe := pipe, op := p.sinkIx }
  else
    let s := s.onTile unit fun x => { x with sortTally := cs }
    match firstWrong (passChecks p.sinkIx (ps.passRuns k).length cs.val) with
    | some c => s.mergeMiss unit q pipe k c
    | none => s.putPipe q pipe (ps.mergeRuns k out)

/-- A query fails whose runs no sort unit is left to merge (R279, log 99). -/
def State.noSortUnit (s : State) (q : Query) (pipe : Nat) : State :=
  s.failQuery q.qid { s.failure stUnavailable 0 with pipe := pipe }

def mergeEff (t : TileId) (q : Query) (pipe : Nat) (u : Upset) (s : State) : State :=
  match (q.pipe pipe).unmerged.find? fun k => k.1 == t.val with
  | none => s
  | some k =>
    let s := match s.sortTile t with
      | some unit => s.mergePass unit q pipe k u
      | none => s.noSortUnit q pipe
    ((s.settleQuery q.qid).wantAll).bump

/-- MERGE_PASS_END: the sort unit that serves a tile ends a pass over the first of its run groups that has more than one run. -/
def execMergePassEnd (t : TileId) (qid : Nat) (pipe : Fin 32) (upset : Upset) (s : State) : Res :=
  .next (match s.query? qid with
    | some q =>
      let ps := q.pipe pipe
      if q.failing = false ∧ ps.planned = true ∧ ps.allVerified = true ∧ (q.img.pipes.getD pipe.val default).sink.kind = kSort then
        mergeEff t q pipe.val upset s
      else s
    | none => s)

/-! ### SPILL_PAGE (R247) -/

/-- SPILL_PAGE: with no page free, the spill engine writes one to the spill area. -/
def execSpillPage (t : TileId) (qid : Nat) (pipe : Fin 32) (s : State) : Res :=
  .next (match s.query? qid with
    | some q =>
      let op := (q.img.pipes.getD pipe.val default).sink
      let ps := q.pipe pipe.val
      if q.failing = false ∧ op.kind = kExchange ∧ op.b 12 * pagesPerMib ≤ ps.sramPages t.val ∧ ps.spilledPages t.val < op.u 14 2 * pagesPerMib
      then s.putPipe q pipe.val (ps.spillOne t.val) else s
    | none => s)

/-! ### UDF_CALL (R233, R417, R418) -/

/-- The value bytes of an argument element that is no string. -/
def argBytes (t : Ty) (v : Val) : List Byte :=
  match v with
  | .null => List.replicate t.es 0
  | .bool b => leBytes t.es (boolNat b)
  | .f32 b => leBytes t.es b.toNat
  | .f64 b => leBytes t.es b.toNat
  | v => leBytes t.es (ofSigned (8 * t.es) v.int!)

/-- One argument array: element bytes and validity bits by row; `str` gives the bytes of a string and `at_` counts the string window used
so far. Rows that did not pass hold free bytes. -/
def argArray (blk off : Nat) (t : Ty) (str : Val → List Byte) (vals : List (Option Val)) (at_ : Nat) : List Byte × Nat × List Byte :=
  let x := vals.zipIdx.foldl (fun (a : List Byte × List Byte) e => match e.1 with
    | none => (a.1 ++ (List.range t.es).map fun i => Config.frameByte blk (off + t.es * e.2 + i), a.2)
    | some v =>
      if t.isStr ∧ v ≠ .null then
        let b := str v
        (a.1 ++ leBytes 8 (strBase + at_ + a.2.length) ++ leBytes 2 b.length ++ List.replicate 6 0, a.2 ++ b)
      else (a.1 ++ argBytes t v, a.2)) ([], [])
  let valid := packBits (vals.zipIdx.map fun e => match e.1 with
    | none => (Config.frameByte blk (0x800 + off / 128 + e.2 / 8)).getLsbD (e.2 % 8)
    | some v => !v.isNull)
  (cut x.1 0 512, valid, x.2)

/-- The arguments of a call: their types and their values by row. A row that has failed has no values that the spec states. -/
def callArgs (e : QEnv) (f : Formula) (u : Uop) (nargs : Nat) (rs : List CRow) : List (Ty × List (Option Val)) :=
  ([u.a, u.b, u.c].take nargs).map fun x =>
    (e.slotTy f x, (List.range 32).map fun i =>
      (rs.find? fun r => r.pos == i && r.fail.isNone).map fun r => e.slotVal r.slots x)

/-- The frame and the string window of a call. -/
def State.callFrame (s : State) (e : QEnv) (blk : Nat) (args : List (Ty × List (Option Val))) : Mem × List Byte :=
  let x := args.zipIdx.foldl (fun (a : List (List Byte) × List Nat × List Byte) g =>
    let y := argArray blk (512 * g.2) g.1.1 (s.strBytes e.t e.q) g.1.2 a.2.2.length
    (a.1 ++ [y.1], a.2.1 ++ [y.2.1], a.2.2 ++ y.2.2)) ([], [], [])
  let bytes := cut (x.1.flatMap fun b => cut b 0 512) 0 0x800 ++ x.2.1.flatMap fun v => leBytes 4 v
  ((bytes.zipIdx.filter fun b => b.1 != 0).map fun b => (b.2, b.1), x.2.2)

/-- What is lost of the argument strings. -/
def State.argPoison (s : State) (e : QEnv) (args : List (Ty × List (Option Val))) : Option (Option Nat) :=
  args.findSome? fun g => if g.1.isStr then
    g.2.findSome? fun v => v.bind fun v => s.strPoison e.t e.q v 0 (((s.strPlace e.t e.q v).map (·.2.2)).getD 0) else none

/-- Blocks in flight and queued on a Sumen-L core. -/
def Core.load_ (k : Core) : Nat := k.queue.length + boolNat k.call.isSome

/-- The Sumen-L core that takes a call (R233): among the cores that are ON the one with the fewest blocks, then one that holds the
image's code, then the lowest; with none ON the lowest in RET, else the lowest that is not fenced. -/
def State.largeFor (s : State) (t : TileId) (handle : Nat) : Option Nat :=
  let x := s.tile t
  let ok := (List.range 4).filter fun k => !bit x.err.fence.sl k
  let core (k : Nat) : Core := x.large.toList.getD k {}
  match minBy (fun k => 8 * (core k).load_ + (if (core k).code = some handle then 0 else 4)) (ok.filter fun k => x.domOn (16 + k)) with
  | some k => some k
  | none => match ok.find? fun k => (x.dom (domN (16 + k))).st == .ret with
    | some k => some k
    | none => ok.head?

/-- A call is given to its core: Sumen-S of the PE, or a Sumen-L core of the tile, which the FIRMWARE voter votes ON (R416). -/
def State.placeCall (s : State) (pe : Gpe) (large : Bool) (c : Call) : State :=
  let t := gpeTile pe
  if large then
    match s.largeFor t c.handle with
    | none => s
    | some k =>
      let id : CoreId := .large ⟨(t.val * 4 + k) % 32, Nat.mod_lt _ (by decide)⟩
      let x := s.sumen id
      ((s.setSumen id ({ x with queue := x.queue ++ [c] } : Core).serve).castVote t (domN (16 + k)) 1 2).onRun pe fun r =>
        { r with calls := r.calls ++ [(c.block, c.uop)] }
  else
    let id : CoreId := .small pe
    if (s.sumen id).call.isSome then s
    else (s.setSumen id (Core.begin false (s.sumen id) c)).onRun pe fun r => { r with calls := r.calls ++ [(c.block, c.uop)] }

/-- The blocks before a block are done or wait for calls in flight: the block may start (R233). -/
def State.blocksBefore (s : State) (e : QEnv) (r : Run) (fd : Feed) (large : Bool) (block : Nat) : Bool :=
  (fd.blocks.takeWhile fun b => b != block).all fun b =>
    match s.frontBlock e r.udf b (fd.rows.filter fun x => x.blk == b) with
    | .wait _ u _ _ _ => large && r.calls.contains (b, u)
    | .rows _ _ => true
    | .fail _ => false

/-- SCRATCH_ECC, a fault cause of R412. -/
def fScratchEcc : Nat := 0x000A

/-- An uncorrectable error in the scratch of the Sumen-L core that takes a call (R330, R412): the call faults at its lowest selected row,
and the second such error in a verification window fences the core. -/
def State.largeEcc (s : State) (pe : Gpe) (k block uop select : Nat) : State :=
  let t := gpeTile pe
  let id : CoreId := .large ⟨(t.val * 4 + k) % 32, Nat.mod_lt _ (by decide)⟩
  let s := (s.logErr t { errRec evEccUncorrectable 2 with kind := 0x02, index := k }).rollVerify t
  let c := s.sumen id
  let s := (s.setSumen id { c with eccHits := c.eccHits + 1, faults := min 0xFFFFFFFF (c.faults + 1) }).onRun pe fun r =>
    { r with udf := r.udf ++ [{ block := block, uop := uop, vals := [], fault := some (fScratchEcc, (lowBitFrom 32 select 0).getD 0) }] }
  if 2 ≤ (s.sumen id).eccHits then s.fenceLarge t k else s

/-- What an error of the scratch that a call uses does to it (R327, R330): the state, and whether the call is still to be made. -/
def State.scratchEcc (s : State) (pe : Gpe) (r : Run) (q : Query) (e : QEnv) (large : Bool) (block uop select : Nat) :
    ScrubResult → State × Bool
  | .clean => (s, true)
  | .corrected =>
    let k := if large then (s.largeFor (gpeTile pe) q.handle).getD 0 else pe.val
    (s.logCorrected (gpeTile pe) { errRec evEccCorrected 0 with kind := if large then 0x02 else 0x01, index := k }, true)
  | .uncorrectable =>
    if large then match s.largeFor (gpeTile pe) q.handle with
      | some k => (s.largeEcc pe k block uop select, false)
      | none => (s, false)
    else (s.bump.mismatch pe r q (Config.freeNat s.tick) e.p.selfCheck, false)

def udfCallEff (pe : Gpe) (block uop : Nat) (scratch : ScrubResult) (r : Run) (q : Query) (s : State) : State :=
  let e := q.env r.pipe (gpeTile pe).val r.at_
  let fd := s.feed e
  match e.p.formula, s.frontBlock e r.udf block (fd.rows.filter fun x => x.blk == block) with
  | some f, .wait _ u select rows rs =>
    let w := Uop.ofWord (f.words.getD u 0)
    let ds := udfDescs ((e.img.udf.map (·.2)).getD [])
    let d := ds.getD w.imm []
    let large := byteAt d 8 == 1
    if u ≠ uop ∨ r.calls.contains (block, uop) = true ∨ 8 ≤ r.calls.length ∨ s.blocksBefore e r fd large block = false then s
    else
      let args := callArgs e f w (byteAt d 9) rs
      match s.argPoison e args with
      | some a =>
        s.failEnd pe r q (Config.freeNat s.tick)
          { status := stUncorrectable, detail := 0, pipe := r.pipe, op := e.p.opIx kCompute, addr := a }
      | none =>
        let fr := s.callFrame e block args
        let x := s.scratchEcc pe r q e large block uop select scratch
        if x.2 = false then x.1 else x.1.placeCall pe large
          { pe := pe, qid := r.qid, handle := q.handle, block := block, uop := uop, udf := w.imm, rows := rows, select := select
            nargs := byteAt d 9, entry := udfEntry ds w.imm, frame := fr.1, strings := fr.2 }
  | _, _ => s

/-- UDF_CALL. -/
def execUdfCall (pe : Gpe) (block : Nat) (call : CallSeen) (s : State) : Res :=
  .next (match s.working? pe with
    | some (r, q) => udfCallEff pe block call.uop.val call.scratch r q s
    | none => s)

end Sys2Proof.Machine
end

