-- ==== Sys2Proof/Machine/Emit.lean ====
section
/-! DEFINITION. Commits of emitted rows (R289 to R296): PFC frames of RESULT segments with their carry, made by a codec engine as jobs beside
those of commands (R318), and batches of the host result ring. -/

namespace Sys2Proof.Machine

/-! ### Which morsel commits (R289) -/

/-- The ready morsel of the lowest sequence number. -/
def lowestReady : List EmitReady → Option EmitReady
  | [] => none
  | x :: r => match lowestReady r with
    | none => some x
    | some y => some (if y.seq < x.seq then y else x)

/-- The morsel that commits next: in sequence order with ORDER serial or ordered-emit, else in the order asked. -/
def PipeState.nextCommit (ps : PipeState) (order : Nat) : Option EmitReady :=
  if order = 0 then ps.ready.head?
  else (lowestReady ps.ready).filter fun x => ps.morsels.all fun m => decide (x.seq ≤ m.seq) || ps.isVerified m

/-! ### How a commit ends -/

/-- How a step of a commit ends: it goes on, it fails, or it waits for CONS. -/
inductive Commit where
  | done
  | fail (status detail : Nat) (addr : Option Nat) (past : Nat := 0)
  | wait
  deriving DecidableEq, Repr

/-- The commit of an EMIT that has begun and not ended; commits of one EMIT run one at a time. -/
def PipeState.begun? (ps : PipeState) : Option EmitReady := ps.ready.find? (·.begun)

/-- No morsel of the pipeline is left to commit. -/
def PipeState.drained (ps : PipeState) : Bool := ps.planned && ps.released && ps.allVerified && ps.ready.isEmpty

/-- A commit fails: the query fails, with the EMIT named (R295, R296); of a host access the offset in the ring's stream lies `past` bytes
beyond PROD (R111, log 74). -/
def State.commitFail (s : State) (q : Query) (e : QEnv) (m status detail : Nat) (addr : Option Nat) (past : Nat := 0) : State :=
  (if status = stUncorrectable then s.queryFault q m { status := status, detail := detail, pipe := e.p.ix, op := e.p.sinkIx, addr := addr }
    else s.failQuery q.qid
      { status := status, detail := detail, pipe := e.p.ix, op := e.p.sinkIx, morsel := m, time := s.now, off := q.prod + past
        addr := addr.getD 0 }).bump

/-- LIMIT reached (R291): tokens of the pipeline that have not been dispatched go, and with them their morsels. -/
def State.limitStop (s : State) (qid pipe : Nat) : State :=
  let s := s.discard (fun k => k.qid == qid && k.pipe == pipe) 0x0B
  let s := s.onQuery qid fun q => { q with toPost := q.toPost.filter fun p => p.2.pipe != pipe }
  let busy (m : MorselAt) : Bool :=
    (List.range 128).any fun n => (s.run? (gpeN n)).any fun r => r.qid == qid && r.pipe == pipe && r.at_.morsel == m.morsel
  s.onPipe qid pipe fun ps => { ps with morsels := ps.morsels.filter fun m => ps.isVerified m || busy m }

/-- Post an Emit commit as a job of the codec engine of its tile (R290, R318); with no engine left the query fails (R319). -/
def State.postCommit (s : State) (q : Query) (e : QEnv) (m : Nat) : State :=
  match s.codecTile (tid e.t) with
  | some t => s.onCodec t (· ++ [{ c := q.c, enc := true, emit := some (q.qid, e.p.ix) }])
  | none => s.commitFail q e m stUnavailable 0 none

/-- After a commit: the morsel leaves the list, LIMIT may be reached, the carry goes to the engine after the last commit, the base
advances. -/
def State.commitEnd (s : State) (qid : Nat) (e : QEnv) (x : EmitReady) : State :=
  let op := e.p.sink
  let k := e.p.ix
  let s := s.onPipe qid k fun ps => { ps with
    ready := ps.ready.filter (fun y => decide (y.morsel ≠ x.morsel)), nextSeq := max ps.nextSeq (x.seq + 1) }
  let s := s.onQuery qid fun q => { q with consWait := q.consWait.filter fun w => w.1 != k }
  let s := match s.query? qid with
    | some q => if op.limit ≠ 0 ∧ op.limit ≤ (q.pipe k).taken then s.limitStop qid k else s
    | none => s
  let s := match s.query? qid with
    | some q => if (q.pipe k).drained ∧ (q.pipe k).carry ≠ [] then s.postCommit q { e with q := q } x.morsel else s
    | none => s
  (((s.tellBase qid k).settleQuery qid).wantAll).bump

/-! ### RESULT frames (R290, R318) -/

/-- The segment and the type of each emitted column. -/
def QEnv.emitCols (e : QEnv) : List (Nat × Ty) :=
  let op := e.p.sink
  op.cols.zipIdx.map fun c => (e.q.segs.getD (op.b (32 + c.2)) 0, (e.info.fin.getD c.1 default).ty)

/-- One frame on every column. -/
def frameGroup (cols : List (Nat × Ty)) (rows : List Row) : List (Nat × List Byte) :=
  cols.zipIdx.map fun c =>
    (c.1.1, encodeFrame c.1.2 0 (rows.map fun r =>
      let v := r.getD c.2 .null
      if v.isNull then none else some (c.1.2.image v)))

/-- Append a frame to every RESULT segment; a group that does not fit on every column fails the query (R154). -/
def State.writeGroup (s : State) (e : QEnv) (rows : List Row) : State × Commit :=
  let home := tid e.q.home
  let fs := frameGroup e.emitCols rows
  if !s.reachable (fs.map (·.1)) then (s, .fail stUncorrectable 0 none)
  else if fs.all fun f => s.frameFits e.q.home (s.segOn home f.1) f.2.length then
    ((fs.foldl (fun s f => s.appendFrame home f.1 f.2) s).onQuery e.q.qid fun q => { q with rowsOut := q.rowsOut + rows.length }, .done)
  else (s, .fail stResultSpace 0 none)

/-- A commit whose carry fills no further frame ends, but at the end of the pipeline. -/
def State.framesLeft (s : State) (q : Query) (e : QEnv) (t : TileId) (j : CodecJob) : State :=
  let ps := q.pipe e.p.ix
  if 1024 ≤ ps.carry.length then s.onCodec t (· ++ [{ j with miss := 0, frames := j.frames + 1 }])
  else match ps.begun? with
    | some x => s.commitEnd q.qid e x
    | none => ((s.settleQuery q.qid).wantAll).bump

/-- One frame of an Emit commit; the job has been taken off its engine's list. The check decoder's second disagreement fences the engine
and its third fails the query (R312). -/
def emitFrame (t : TileId) (j : CodecJob) (k : Nat) (mismatch : Bool) (q : Query) (s : State) : State :=
  let ps := q.pipe k
  let m := (ps.begun?.map (·.morsel)).getD 0xFFFFFFFF
  let e := q.env k ((ps.begun?.map (·.tile)).getD t.val) { tile := t.val, morsel := m, seq := 0 }
  if q.failing then ((s.settleQuery q.qid).wantAll).bump
  else if (s.tile t).err.fence.codec then s.commitFail q e m stUnavailable 0 none
  else if mismatch then (s.codecMiss t j).getD (s.commitFail q e m stUnverified 0 none)
  else
    let w := s.writeGroup e (ps.carry.take 1024)
    match w.2 with
    | .fail st d a past => w.1.commitFail q e m st d a past
    | _ =>
      let s := w.1.onPipe q.qid k fun ps => { ps with carry := ps.carry.drop 1024 }
      match s.query? q.qid with
      | some q => s.framesLeft q { e with q := q } t j
      | none => s

/-- One frame of the job at the front of a codec engine's list, which then goes behind the others (R318). -/
def codecFrameEff (t : TileId) (src : HostRead) (wfail : Option Nat) (mismatch : Bool) (s : State) : State :=
  match (s.tile t).codec with
  | [] => s
  | j :: rest =>
    let s' := s.onCodec t fun _ => rest
    match j.emit with
    | some (qid, k) =>
      match s'.query? qid with
      | some q => emitFrame t j k mismatch q s'
      | none => s'
    | none =>
      match s.running? j.c with
      | some x => codecStep t x j src wfail mismatch s'
      | none => s'

/-- CODEC_FRAME (R290, R312, R318): the codec engine of a tile does one frame of its next job. -/
def execCodecFrame (t : TileId) (src : HostRead) (wfail : Option Nat) (mismatch : Bool) (s : State) : Res :=
  .next (if s.live t then codecFrameEff t src wfail mismatch s else s)

/-! ### Host result ring (R293, R294) -/

/-- The bytes of one row; `str` gives the bytes of a string. -/
def ringRow (str : Val → List Byte) (tys : List Ty) (row : Row) : List Byte :=
  let cols := (tys.zip row).foldl (fun acc c =>
    if c.1.isStr then addCol acc 4 (let b := str c.2; leBytes 4 b.length ++ b)
    else addCol acc c.1.bytes (c.1.recBytes c.2)) (List.replicate 8 0)
  let n := alignUp cols.length 8
  leBytes 4 n ++ leBytes 2 (nullMask row) ++ [0, 0] ++ cut (cols.drop 8) 0 (n - 8)

/-- Whole rows packed from the first on into batches of at most 64 KiB and of at most the data area, or one larger
row alone (R293, R295; log 34); `cur` is the batch being packed. -/
def packBatches (cap : Nat) : List (List Byte) → List (List Byte) → List (List (List Byte))
  | [], cur => if cur.isEmpty then [] else [cur]
  | r :: rs, cur =>
    if cur.isEmpty = false ∧ min 65536 cap < 16 + r.length + (cur.map List.length).sum then cur :: packBatches cap rs [r]
    else packBatches cap rs (cur ++ [r])

def batchHead (rows bytes seq : Nat) : List Byte := leBytes 4 0x42544C52 ++ leBytes 4 rows ++ leBytes 4 bytes ++ leBytes 4 seq

/-- The ring while a commit writes: PROD, CONS as last read, rows written, outputs, host writes made. -/
structure RingSt where
  prod : Nat
  cons : Nat
  rows : Nat := 0
  outs : List Out := []
  n    : Nat := 0
  deriving DecidableEq, Repr

/-- The addresses of the ring: data area, its size, control page, port and PASID. -/
structure RingDest where
  addr  : Nat
  size  : Nat
  port  : Nat
  pasid : Option Nat
  deriving DecidableEq, Repr

/-- Room for `n` bytes: as it stands, after CONS has been read again, or why not (R295). -/
def ringRoom (a : RingDest) (st : RingSt) (cons : HostRead) (n : Nat) : RingSt × Commit :=
  if n + (st.prod - st.cons) ≤ a.size then (st, .done)
  else match cons.err with
    | some (e, o) => (st, .fail (hostStatus e) 0 (some (a.addr + 64 + o)))
    | none =>
      let c := field cons.bytes 0 8
      if st.prod < c ∨ a.size < st.prod - c then (st, .fail stResultSpace 0x0042 none)
      else
        let st := { st with cons := c }
        if n + (st.prod - c) ≤ a.size then (st, .done)
        else if bit (byteAt cons.bytes 8) 0 then (st, .wait)
        else (st, .fail stResultSpace 0x0041 none)

/-- Write one batch, then PROD; `wfail` is the number of the host write that fails in translation, and how many bytes of it were moved
before (R111). -/
def ringPut (a : RingDest) (st : RingSt) (b : List Byte) (rows : Nat) (wfail : Option (Nat × Nat)) : RingSt × Commit :=
  let at_ := a.addr + 4096 + st.prod % a.size
  let prod := st.prod + b.length
  let failed := wfail.map (·.1)
  let m := min ((wfail.map (·.2)).getD 0) (b.length - 1)
  let part := if m = 0 then [] else [Out.hostWrite a.port a.pasid at_ (cut b 0 m)]
  if failed = some st.n then ({ st with outs := st.outs ++ part }, .fail stTranslation 0 (some (at_ + m)) m)
  else if failed = some (st.n + 1) then
    ({ st with outs := st.outs ++ [.hostWrite a.port a.pasid at_ b] }, .fail stTranslation 0 (some a.addr) b.length)
  else
    ({ st with
      prod := prod, rows := st.rows + rows, n := st.n + 2
      outs := st.outs ++ [.hostWrite a.port a.pasid at_ b, .hostWrite a.port a.pasid a.addr (leBytes 8 prod)] }, .done)

/-- Fill the rest of the data area when a batch of `n` bytes would pass its end: a pad batch, or 8 bytes that are not written. -/
def ringPad (a : RingDest) (st : RingSt) (cons : HostRead) (seq n : Nat) (wfail : Option (Nat × Nat)) : RingSt × Commit :=
  let rest := a.size - st.prod % a.size
  if n ≤ rest then (st, .done)
  else match ringRoom a st cons rest with
    | (st, .done) =>
      if rest < 16 then ({ st with prod := st.prod + rest }, .done)
      else ringPut a st (batchHead 0 rest seq ++ List.replicate (rest - 16) 0) 0 wfail
    | x => x

/-- Write batches in turn. -/
def ringGo (a : RingDest) (cons : HostRead) (seq : Nat) (wfail : Option (Nat × Nat)) : List (List (List Byte)) → RingSt → RingSt × Commit
  | [], st => (st, .done)
  | b :: r, st =>
    let n := 16 + (b.map List.length).sum
    if b.any fun x => decide (a.size - 16 < x.length) then (st, .fail stResultSpace 0x0043 none)
    else match ringPad a st cons seq n wfail with
      | (st, .done) =>
        match ringRoom a st cons n with
        | (st, .done) =>
          match ringPut a st (batchHead b.length n seq ++ b.flatten) b.length wfail with
          | (st, .done) => ringGo a cons seq wfail r st
          | x => x
        | x => x
      | x => x

/-- What is lost of the strings of rows. -/
def State.rowPoison (s : State) (e : QEnv) (tys : List Ty) (rows : List Row) : Option (Option Nat) :=
  rows.findSome? fun r => (tys.zip r).findSome? fun c =>
    if c.1.isStr then s.strPoison e.t e.q c.2 0 (((s.strPlace e.t e.q c.2).map (·.2.2)).getD 0) else none

/-- Commit rows to the host result ring. The Nat counts the rows written. -/
def State.commitRing (s : State) (e : QEnv) (x : EmitReady) (cons : HostRead) (wfail : Option (Nat × Nat)) : State × Commit × Nat :=
  let tys := e.emitCols.map (·.2)
  match s.rowPoison e tys x.rows with
  | some a => (s, .fail stUncorrectable 0 a, 0)
  | none =>
    let q := e.q
    let a : RingDest :=
      { addr := q.ringAddr, size := q.ringLen - 4096, port := ((s.cmd? q.c).map (·.ring.port)).getD 0, pasid := s.pasidOf q.slice }
    let r := ringGo a cons (x.seq % 2 ^ 32) wfail (packBatches a.size (x.rows.map (ringRow (s.strBytes e.t q) tys)) []) { prod := q.prod, cons := q.cons }
    ((s.emitAll r.1.outs).onQuery q.qid fun q =>
      { q with prod := r.1.prod, cons := r.1.cons, rowsOut := q.rowsOut + r.1.rows }, r.2, r.1.rows)

/-! ### EMIT_COMMIT (R289, R291) -/

/-- LIMIT (R291): the rows that a commit may still take. -/
def takeRows (limit taken : Nat) (rows : List Row) : List Row := if limit = 0 then rows else rows.take (limit - taken)

/-- A commit to RESULT segments: its rows join the carry, whose frames a codec engine makes. -/
def State.commitFrames (s : State) (q : Query) (e : QEnv) (x : EmitReady) : State :=
  let k := e.p.ix
  let s := s.onPipe q.qid k fun ps => { ps with
    carry := ps.carry ++ x.rows, ready := ps.ready.map fun y => if y.morsel = x.morsel then { y with rows := [] } else y }
  if 1024 ≤ (q.pipe k).carry.length + x.rows.length then s.postCommit q e x.morsel else s.commitEnd q.qid e x

/-- A commit to the host ring: it ends unless it fails or waits. -/
def State.commitBatches (s : State) (q : Query) (e : QEnv) (x : EmitReady) (cons : HostRead) (wfail : Option (Nat × Nat)) : State :=
  let w := s.commitRing e x cons wfail
  match w.2.1 with
  | .done => w.1.commitEnd q.qid e x
  | .fail st d a past => w.1.commitFail ((w.1.query? q.qid).getD q) e x.morsel st d a past
  | .wait =>
    (w.1.onPipe q.qid e.p.ix fun ps => { ps with
      ready := ps.ready.map fun y => if y.morsel = x.morsel then { y with rows := y.rows.drop w.2.2 } else y }).onQuery q.qid
        fun q => { q with consWait := some (e.p.ix, x.seq) }

/-- The surroundings of a commit. -/
def Query.commitEnv (q : Query) (k : Nat) (x : EmitReady) : QEnv := q.env k x.tile { tile := x.tile, morsel := x.morsel, seq := x.seq }

/-- A commit begins: it takes the rows that LIMIT allows. -/
def PipeState.begin (ps : PipeState) (limit : Nat) (x : EmitReady) : PipeState :=
  let rows := takeRows limit ps.taken x.rows
  { ps with
    taken := ps.taken + rows.length
    ready := ps.ready.map fun y => if y = x then { y with rows := rows, begun := true } else y }

def emitCommitEff (q : Query) (k : Nat) (cons : HostRead) (wfail : Option (Nat × Nat)) (s : State) : State :=
  let p := q.img.pipes.getD k default
  let ps := q.pipe k
  if ps.begun?.isSome then s else
  match ps.nextCommit p.plan.order with
  | none => s
  | some x =>
    if s.pageBad q.qid k x.tile x.morsel true then s.commitFail q (q.commitEnv k x) x.morsel stUncorrectable 0 none
    else
      let s := s.onPipe q.qid k fun ps => ps.begin p.sink.limit x
      match s.query? q.qid with
      | none => s
      | some q => match (q.pipe k).begun? with
        | none => s
        | some x =>
          if p.sink.b 0 = 0 then s.commitFrames q (q.commitEnv k x) x else s.commitBatches q (q.commitEnv k x) x cons wfail

/-- EMIT_COMMIT (R289): the next verified morsel of an EMIT commits. While a batch waits for CONS, no EMIT of the query commits to the
ring. `cons` is what the ring's CONS and RMODE read as, `wfail` the host write that fails and `moved` the bytes of it that were
moved before. -/
def execEmitCommit (qid : Nat) (pipe : Fin 32) (cons : HostRead) (wfail : Option Nat) (moved : Nat) (s : State) : Res :=
  .next (match s.query? qid with
    | some q =>
      let op := (q.img.pipes.getD pipe.val default).sink
      if q.failing = false ∧ op.kind = kEmit ∧ (q.consWait = none ∨ op.b 0 = 0) then
        emitCommitEff q pipe.val cons (wfail.map fun n => (n, moved)) s
      else s
    | none => s)

/-- CONS_POLL (R295): a batch that waits is tried again. -/
def execConsPoll (qid : Nat) (seen : RingSeen) (s : State) : Res :=
  .next (match s.query? qid with
    | some q =>
      match q.consWait with
      | some (k, seq) =>
        match (q.pipe k).ready.find? fun x => x.seq == seq with
        | some x => if q.failing then s else s.commitBatches q (q.commitEnv k x) x seen.cons seen.wfail
        | none => s
      | none => s
    | none => s)

end Sys2Proof.Machine
end

