-- ==== Sys2Proof/Machine/Link.lean ====
section
/-! DEFINITION. The modules of a Stirrup edge: resending, retraining, disabling, and the fencing of a link (R475 to R478, R490). -/

namespace Sys2Proof.Machine

/-- A 32-bit counter that saturates. -/
def satInc (n : Nat) : Nat := min 0xFFFFFFFF (n + 1)

/-- The messages of the flits that no ACKSEQ has covered. -/
def Module.unacked (m : Module) : List (List Byte) :=
  m.replay.foldl (fun l k => if l.getLast? = some k.message then l else l ++ [k.message]) []

/-- Every unacknowledged flit is sent again, in order, with the current ACKSEQ and credit report (R475, R476). -/
def Module.resendF (m : Module) : List Sent → List (List Byte) × Module
  | [] => ([], m)
  | k :: r =>
    let f := m.flit 0 k.seq false k.foff k.payload
    let x := f.2.resendF r
    (f.1 :: x.1, x.2)

/-- Replace one module of an edge. -/
def State.setModule (s : State) (t : TileId) (e : EdgeId) (i : Nat) (m : Module) : State :=
  s.onEdge t e fun x => x.onModule i fun _ => m

/-- Resend from the oldest unacknowledged flit. -/
def State.resend (s : State) (t : TileId) (e : EdgeId) (i : Nat) : State :=
  let m := (s.edge t e).module i
  let f := m.resendF m.replay
  (s.setModule t e i f.2).emitAll (f.1.map fun b => Out.flit t.val e.val i b)

/-- An edge that carries mainband traffic, some of its modules perhaps in retrain. -/
def Edge.up (e : Edge) : Bool := e.st == .active || e.st == .retrain

/-- A retrain of a module starts (R477); the 16th of a verification window leads to its being disabled. -/
def State.startRetrain (s : State) (t : TileId) (e : EdgeId) (i : Nat) : State :=
  let s := s.rollVerify t
  let x := s.edge t e
  let m := x.module i
  if m.active = false ∨ m.training = true ∨ x.up = false then s else
  s.onEdge t e fun x =>
    { x.onModule i fun m =>
        { m with training := true, retrains := m.retrains + 1, sends := 0, doomed := m.doomed || decide (16 ≤ m.retrains + 1) } with
      st := .retrain, retrain := satInc x.retrain, stopped := x.stopped || decide (16 ≤ m.retrains + 1) }

/-- A module is to be disabled: two failed retrains in a row, or 16 in the window (R477). -/
def Module.spent (m : Module) : Bool := m.active && m.doomed

/-- The edge on the other side of a link. -/
def State.far (s : State) (t : TileId) (e : EdgeId) : Option (TileId × EdgeId) := (s.partner t e).map fun u => (u, oppositeEdge e)

/-- Fence one side of a link: its record, and the loss of what it held (R478, R490). -/
def State.fenceSide (s : State) (t : TileId) (e : EdgeId) : State :=
  if (s.edge t e).st = .fenced ∨ s.present t = false then s else
  let x := s.edge t e
  let lost := x.held.map (·.2) ++ x.modules.toList.flatMap Module.unacked
  let s := s.onEdge t e fun x => { x with st := .fenced, modules := Vector.replicate 6 {}, held := [], sleeping := false, stopped := false }
  let s := s.fenceUnit t 0x0A e.val fun f => { f with stirrup := setBit f.stirrup e.val }
  (lost.foldl State.loseMsg s).revote t

/-- Fence a link on both tiles (R478, R485). An edge without a partner raises no error and is not fenced (R15). -/
def State.fenceEdge (s : State) (t : TileId) (e : EdgeId) : State :=
  match s.far t e with
  | some p => (s.fenceSide t e).fenceSide p.1 p.2
  | none => s

/-- The state of an edge by its modules: RETRAIN while one of them retrains. -/
def Edge.settled (e : Edge) : Edge :=
  if e.up then { e with st := if e.modules.toList.any fun m => m.active && m.training then .retrain else .active } else e

/-- Disable a module: its unacknowledged messages are lost, streams are remapped, and an edge with no module left is fenced (R478). -/
def State.disableModule (s : State) (t : TileId) (e : EdgeId) (i : Nat) : State :=
  let lost := ((s.edge t e).module i).unacked
  let s := s.onEdge t e fun x =>
    let y := x.onModule i fun _ => {}
    ({ y with stopped := y.modules.toList.any Module.spent } : Edge).settled
  let s := lost.foldl State.loseMsg s
  if (s.edge t e).actives.isEmpty then s.fenceEdge t e else s.pumpEdge t e

end Sys2Proof.Machine
end

