-- ==== Sys2Proof/Machine/Regs.lean ====
section
/-! DEFINITION. The register interface (R492 to R513): the blocks and their registers, reads with forwarding, posted writes with their
buffers, the SET, CLR and TGL regions, strobe groups, and the rows of single registers. -/

namespace Sys2Proof.Machine

/-! ### Blocks (R493, R509, R510) -/

/-- The register blocks: block `k` of a tile is numbered as in `tileBlocks`. -/
inductive Blk where
  | dev | nw | slc
  | queues (k : Nat)
  | tile (t : TileId) (k : Nat)
  deriving DecidableEq, Repr

/-- The block at a block number, BAR0 address ÷ 0x4000. -/
def blkOf (n : Nat) : Option Blk :=
  if n = 0 then some .dev
  else if n = 2 then some .nw
  else if n = 4 then some .slc
  else if 256 ≤ n ∧ n < 512 then some (.queues (n - 256))
  else if 1024 ≤ n ∧ n < 4096 ∧ (n - 1024) % 384 < 9 then some (.tile (tid ((n - 1024) / 384)) ((n - 1024) % 384))
  else none

def Blk.no : Blk → Nat
  | .dev => 0
  | .nw => 2
  | .slc => 4
  | .queues k => 256 + k
  | .tile t k => blockNo t.val k

/-- Entries of a block's write buffer (R500, R509, R510). -/
def Blk.depth : Blk → Nat
  | .tile _ 7 => 1
  | .tile _ 8 => 1
  | _ => 8

/-- Owner FW in the tables "Package blocks" and "Tile blocks" (R508). -/
def Blk.fwOwned : Blk → Bool
  | .slc => true
  | .queues _ => true
  | .tile _ k => decide (4 ≤ k ∧ k ≤ 7)
  | _ => false

/-- The block's power domain is ON; the AON blocks have none (R507). -/
def State.blkOn (s : State) : Blk → Bool
  | .tile t k =>
    match (tileBlocks.find? fun b => b.1 == k).bind (·.2) with
    | some d => s.domOn t d
    | none => true
  | _ => true

/-- The block's tile is present; package blocks are on every tile (R4). -/
def State.blkPresent (s : State) : Blk → Bool
  | .tile t _ => s.present t
  | _ => true

/-- The strobe group of a block; package blocks have none (R499). -/
def State.grpOf (s : State) : Blk → Option Nat
  | .tile t k => some (s.blockGroup t.val k)
  | _ => none

/-- A write to the block is held: the strobe group between READY and APPLIED (R504), a domain that is not ON (R507), or ACTIVATE for a
firmware-owned block (R508). -/
def State.heldBlk (s : State) (b : Blk) : Bool :=
  (match b with
    | .tile t _ => (s.tile t).heldGroup.isSome && (s.tile t).heldGroup == s.grpOf b
    | _ => false) ||
  !s.blkOn b || (s.dev.mode == .activate && b.fwOwned)

/-! ### Register values -/

def phaseCode : Phase → Nat
  | .idle => 0 | .prepare => 1 | .commit => 2 | .resend => 3

def u16 (i : Int) : Nat := ofSigned 16 i

/-- DEV (R38, R62, R363, R494, R505). -/
def State.devReg (s : State) (port r : Nat) : Nat :=
  let d := s.dev
  match r with
  | 0x00 => partCode s.man.part + 256 * (s.man.grade % 2) + 4096 * (s.man.step % 16) + 65536 * 0x5A4C
  | 0x10 => s.presentMask + 256 * d.hostRole
  | 0x18 => s.now % 2 ^ 32
  | 0x1C => d.tbLatch.getD port 0
  | 0x20 => modeCode d.mode + 16 * modeCode d.prev
  | 0x24 => d.target + 16 * phaseCode d.phase + 128 * boolNat d.rrej + 256 * d.applied + 65536 * d.epoch
  | 0x2C => d.refReason + 256 * d.refTile + 65536 * d.refEpoch
  | 0x30 => d.fenced + 256 * d.master
  | 0x34 => d.bootSlot + 4 * d.cfgResult + 16 * boolNat d.aFail + 32 * boolNat d.bFail + 256 * (d.svn % 256)
  | 0x38 => d.haltCause + 256 * d.haltTile
  | 0x40 => d.limitW % 2048 + 65536 * (d.meanW % 2048)
  | 0x44 => 256 * boolNat d.strobeBusy + 512 * boolNat d.strobeRefused + 1024 * boolNat d.strobeRej + 65536 * d.strobeReason
  | _ => 0

/-- The two words of a Nightwatch threshold entry (R390, R513). -/
def NwThr.wordA (e : NwThr) : Nat :=
  boolNat e.en + 2 * e.src + 8 * e.index + 256 * e.tile + 2048 * boolNat e.below + 4096 * e.persist + 65536 * e.action

def State.nwReg (s : State) (r : Nat) : Nat :=
  let n := s.nw
  match r with
  | 0x04 => n.periodMs
  | 0x08 => boolNat (s.dev.mode == .nightwatch) + 2 * boolNat n.alert + 4 * boolNat n.exited + 256 * n.cause
  | 0x0C => n.periods % 2 ^ 32
  | _ =>
    if 0x100 ≤ r ∧ r < 0x180 then
      let e := n.thr.getD ((r - 0x100) / 8) {}
      if r % 8 = 0 then e.wordA else e.level
    else 0

def sliceCode : SliceState → Nat
  | .free => 0 | .active => 1 | .frozen => 2 | .failed => 3

/-- SLC (R461). -/
def State.slcReg (s : State) (r : Nat) : Nat :=
  let y := s.slc s.slcSel
  match r with
  | 0x00 => s.slcSel
  | 0x04 => sliceCode y.st + 65536 * (if y.st = .free then 0 else y.gen)
  | 0x08 => if y.st = .free then 0 else y.pasid % 2 ^ 20
  | _ => 0

/-- The registers of a queue (R511). -/
def State.queueReg (s : State) (q r : Nat) : Nat :=
  let u := s.queue q
  match r with
  | 0x00 => u.base % 2 ^ 32
  | 0x04 => u.base / 2 ^ 32
  | 0x08 => u.depthLog2 + 256 * u.slice + 2 ^ 20 * u.home + 2 ^ 24 * u.port
  | 0x0C => (if q = 0 then 0 else u.cls) + 256 * u.weight + 65536 * u.burst
  | 0x10 => u.irqCount + 256 * u.irqTime
  | 0x14 => u.vector
  | 0x18 => boolNat u.enable
  | 0x1C => boolNat u.dbErr + 2 * boolNat u.ownStall + 4 * boolNat u.resetBusy + 8 * boolNat u.resetDone + 16 * boolNat u.homeLost +
      32 * boolNat u.cfgErrV + 64 * boolNat u.ringFault + 256 * u.cfgErr
  | 0x20 => u.headIx + 65536 * boolNat u.headWrap
  | 0x24 => u.tailIx + 65536 * boolNat u.tailWrap
  | 0x28 => (s.cmdsOf q).length
  | 0x2C => u.gen
  | 0x30 => u.staleDrops
  | _ => 0

/-- The index of a register array: `n` words from `base`. -/
def arrIx (r base n : Nat) : Option Nat := if base ≤ r ∧ r < base + 4 * n then some ((r - base) / 4) else none

def domPhaseCode : DomPhase → Nat
  | .stable => 0 | .entering => 1 | .waking => 2 | .retryWait => 3 | .failed => 4

/-- PD_DOM_STATUS (R392). -/
def Dom.statusWord (y : Dom) : Nat :=
  y.stateCode + 4 * domPhaseCode y.phase + 32 * boolNat y.wakeFail + 64 * boolNat y.retLost + 128 * boolNat (!y.pending.isEmpty) +
  256 * ((y.votes.zipIdx.map fun v => v.1 * 4 ^ v.2).sum) + 2 ^ 24 * y.refuser

/-- The DEBUG voter acts (R368, R512). -/
def State.debugActs (s : State) : Bool := s.man.debugEn || s.dev.mode == .test

def State.pdReg (s : State) (t : TileId) (r : Nat) : Nat :=
  let x := s.tile t
  if r = 0 then x.maxRamps + 8 * boolNat s.feat.retSigEn
  else match arrIx r 0x100 56, arrIx r 0x200 56, arrIx r 0x300 56, arrIx r 0x400 56 with
    | some d, _, _, _ => boolNat (x.dom (domN d)).idleOff + 2 * boolNat (x.dom (domN d)).dbgHold
    | _, some d, _, _ => (x.dom (domN d)).statusWord
    | _, _, some d, _ => (x.dom (domN d)).votes.getD 0 0
    | _, _, _, some d => if s.debugActs then (x.dom (domN d)).votes.getD 5 0 + 4 * boolNat (x.dom (domN d)).dbgHold else 0
    | _, _, _, _ => 0

def Reading.word (v : Reading) : Nat := u16 v.value + 65536 * boolNat v.valid

def Mon.reg (m : Mon) (r : Nat) : Nat :=
  match r with
  | 0x00 => m.thrFreq + 32 * boolNat m.thrEn + 64 * boolNat m.alertEn + 256 * m.avgMs
  | 0x04 => u16 m.thrHi + 65536 * u16 m.thrLo
  | 0x08 => u16 m.alertT
  | 0x0C => boolNat m.throttle + 2 * boolNat m.alert + 4 * boolNat m.trip + 256 * m.tjSensor + 65536 * u16 m.tjMax
  | 0x10 => m.droopLvl + 16 * boolNat m.droopEn
  | 0x14 => u16 m.avgTj
  | _ =>
    match arrIx r 0x100 24, arrIx r 0x180 8, arrIx r 0x1C0 16, arrIx r 0x200 32 with
    | some i, _, _, _ => (m.temps.getD i {}).word
    | _, some i, _, _ => (m.supply.getD i {}).word
    | _, _, some i, _ => (m.proc.getD i {}).word
    | _, _, _, some i => m.droops.getD i 0
    | _, _, _, _ => 0

/-- ERR_FENCE (R336). -/
def FenceBits.word (f : FenceBits) : Nat :=
  f.pe + 2 ^ 16 * f.sl + 2 ^ 20 * boolNat f.sort + 2 ^ 21 * boolNat f.codec + 2 ^ 22 * boolNat f.digest + 2 ^ 23 * boolNat f.hbm +
  2 ^ 24 * f.ddr + 2 ^ 26 * boolNat f.cxl + 2 ^ 27 * boolNat f.host + 2 ^ 28 * f.stirrup

def Err.reg (e : Err) (r : Nat) : Nat :=
  match r with
  | 0x00 => e.irqSev + 8 * boolNat e.irqEn + 16 * e.vector + 2 ^ 15 * boolNat e.alertEn
  | 0x04 => boolNat e.pending + 2 * boolNat e.alert + 65536 * e.overrun
  | 0x08 => if e.ring.isEmpty then 0 else e.lastSeq
  | 0x10 => e.fence.word
  | _ => 0

def State.cinchReg (s : State) (t : TileId) (r : Nat) : Nat :=
  let x := s.tile t
  match r with
  | 0x00 => boolNat x.wire + 2 * boolNat x.prepared.isSome + 256 * x.spurious
  | 0x04 => x.strobeSeq
  | _ => 0

def Sched.reg (c : Sched) (r : Nat) : Nat :=
  match r with
  | 0x00 => boolNat c.stealEn + 2 * boolNat c.traceEn + 65536 * c.mask
  | 0x04 => c.tokens.length % 32768 + 2 ^ 15 * boolNat c.ethrottle + 65536 * c.profile + 2 ^ 20 * c.peFreq
  | 0x08 => ofSigned 32 c.credit
  | 0x0C => c.budgetMw % 2 ^ 20 + 2 ^ 20 * (c.windowUs % 1024)
  | 0x10 => c.traceCnt
  | _ => 0

def wgtWord (l : List Nat) : Nat := l.getD 0 0 + 256 * l.getD 1 0 + 65536 * l.getD 2 0

def State.sumReg (s : State) (t : TileId) (r : Nat) : Nat :=
  let x := s.tile t
  match arrIx r 0 4, arrIx r 0x100 20, arrIx r 0x180 20 with
  | some k, _, _ =>
    let c := x.large.toList.getD k {}
    (x.dom (domN (16 + k))).stateCode + 4 * boolNat (bit x.err.fence.sl k) + 8 * boolNat c.call.isSome + 256 * c.queue.length
  | _, some c, _ => ((if c < 16 then x.small.toList.getD c {} else x.large.toList.getD (c - 16) {}).faults)
  | _, _, some c => ((if c < 16 then x.small.toList.getD c {} else x.large.toList.getD (c - 16) {}).wmiss)
  | _, _, _ => if r = 0x10 then s.feat.slIdle % 2 ^ 20 else 0

def edgeCode : EdgeState → Nat
  | .disabled => 0 | .boot => 1 | .training => 2 | .active => 3 | .retrain => 4 | .l1 => 5 | .down => 6 | .fenced => 7

def Route.word (r : Route) : Nat := r.edge + 4 * boolNat r.local_ + 8 * boolNat r.none_ + 16 * boolNat r.updown

/-- STIR (R492); FAB_ROUTE reads its shadow, or the route in force in the ACTIVE view (R497). -/
def Tile.stirReg (x : Tile) (r : Nat) (active : Bool) : Nat :=
  let e (i : Nat) : Edge := x.edges.toList.getD i {}
  match arrIx r 0 4, arrIx r 0x20 4, arrIx r 0x30 4, arrIx r 0x40 4, arrIx r 0x50 4, arrIx r 0x100 8 with
  | some i, _, _, _, _, _ =>
    edgeCode (e i).st + 8 * packBits ((e i).modules.toList.map (·.active)) + 512 * (e i).partner + 4096 * (e i).kind + 65536 * (e i).rate
  | _, some i, _, _, _, _ => (e i).crc
  | _, _, some i, _, _, _ => (e i).replay
  | _, _, _, some i, _, _ => (e i).retrain
  | _, _, _, _, some i, _ => (e i).drop
  | _, _, _, _, _, some d => ((if active then x.route else x.routeNext).getD d {}).word
  | _, _, _, _, _, _ => 0

def laneCode : LaneState → Nat
  | .idle => 0 | .hashing => 1 | .saving => 2 | .restoring => 3

/-- DIG (R439). -/
def Digest.reg (d : Digest) (r : Nat) : Nat :=
  match arrIx r 0 8 with
  | some i =>
    let l := d.lanes.getD i {}
    laneCode l.st + match l.job with
      | some j => 4 * boolNat j.c.isNone + 256 * j.alg + 65536 * j.slice
      | none => 0
  | none => if r = 0x20 then min d.preempts 0xFFFFFFFF else 0

/-- BLK_STATUS (R499). -/
def State.blkStatus (s : State) (b : Blk) : Nat :=
  let k := s.block b.no
  let pend : Bool := match b with
    | .tile t n =>
      match (tileBlocks.find? fun x => x.1 == n).bind (·.2) with
      | some d => (s.dom t (domN d)).pending.contains (s.blockGroup t.val n)
      | none => false
    | _ => false
  boolNat (decide (b.depth ≤ k.buffer.length)) + 2 * boolNat k.wdrop + 4 * boolNat pend + 8 * boolNat (!s.blkOn b) +
  16 * boolNat (!k.buffer.isEmpty && s.heldBlk b) + 256 * k.buffer.length

/-- BLK_CTL (R499). -/
def State.blkCtl (s : State) (b : Blk) : Nat :=
  match b with
  | .tile _ 7 => boolNat (s.block b.no).applyMode + 16 * 31
  | .tile _ _ => boolNat (s.block b.no).applyMode + 16 * (s.block b.no).group
  | _ => 0

/-- The value of a register as it stands: the shadow, or the value in force, of RWS fields (R497). -/
def State.reg (s : State) (port : Nat) (b : Blk) (r : Nat) (active : Bool) : Nat :=
  if r = 0x7F8 then s.blkCtl b
  else if r = 0x7FC then s.blkStatus b
  else match b with
    | .dev => s.devReg port r
    | .nw => s.nwReg r
    | .slc => s.slcReg r
    | .queues k => s.queueReg (16 * k + r / 0x80) (r % 0x80)
    | .tile t 0 => s.pdReg t r
    | .tile t 1 => (s.tile t).mon.reg r
    | .tile t 2 => (s.tile t).err.reg r
    | .tile t 3 => s.cinchReg t r
    | .tile t 4 => (s.tile t).sched.reg r
    | .tile t 5 => if r = 0 then wgtWord (if active then (s.tile t).wgt else (s.tile t).wgtShadow) else 0
    | .tile t 6 => s.sumReg t r
    | .tile t 7 => (s.tile t).stirReg r active
    | .tile t 8 => (s.tile t).digest.reg r
    | .tile _ _ => 0

/-! ### Writes as they land -/

/-- The RW and RWS bits of a register (R498). -/
def Blk.rwMask (b : Blk) (r : Nat) : Nat :=
  if r = 0x7F8 then
    (match b with
      | .tile _ 7 => 0x001
      | .tile _ _ => 0x1F1
      | _ => 0)
  else match b with
    | .nw =>
      if r = 0x04 then 0x3FFF
      else if 0x100 ≤ r ∧ r < 0x180 then (if r % 8 = 0 then 0x3FFFF else 0xFFFF)
      else 0
    | .slc => if r = 0 then 0x3FF else 0
    | .queues _ =>
      (match r % 0x80 with
        | 0x00 => 0xFFFFFFFF
        | 0x04 => 0xFFFFFFFF
        | 0x08 => 0x0773FF1F
        | 0x0C => 0x007FFF03
        | 0x10 => 0x00FFFFFF
        | 0x14 => 0x7FF
        | 0x18 => 0x1
        | _ => 0)
    | .tile _ 0 =>
      if r = 0 then 0x7
      else if (arrIx r 0x100 56).isSome then 0x1
      else if (arrIx r 0x300 56).isSome then 0x3
      else if (arrIx r 0x400 56).isSome then 0x7
      else 0
    | .tile _ 1 =>
      (match r with
        | 0x00 => 0x7F7F
        | 0x04 => 0xFFFFFFFF
        | 0x08 => 0xFFFF
        | 0x10 => 0x1F
        | _ => 0)
    | .tile _ 2 => if r = 0 then 0xFFFF else 0
    | .tile _ 4 => if r = 0 then 0xFFFF0003 else 0
    | .tile _ 5 => if r = 0 then 0x00FFFFFF else 0
    | _ => 0

def State.drop (s : State) (b : Blk) : State := s.setBlock b.no { s.block b.no with wdrop := true }

/-- BLK_CTL: a write that would leave STROBE_GROUP at 0x1F is discarded whole; clearing APPLY_MODE applies every shadow of the block
(R499, R503). -/
def State.writeCtl (s : State) (b : Blk) (v : Nat) : State :=
  match b with
  | .tile t k =>
    let old := s.block b.no
    let g := bits v 8 4
    if k ≠ 7 ∧ g = 31 then s.drop b
    else
      let s := s.setBlock b.no { old with applyMode := bit v 0, group := if k = 7 then old.group else g }
      if old.applyMode ∧ bit v 0 = false then s.applyBlock t k else s
  | _ => s

/-- A write of UPDATE_STROBE (R504, R505). -/
def State.writeStrobe (s : State) (v : Nat) : State :=
  if bit v 10 then { s with dev := { s.dev with strobeRej := false } }
  else if v % 32 = 31 ∨ s.dev.strobeBusy = true ∨ s.dev.change ≠ none ∨ s.dev.phase ≠ .idle ∨ s.dev.activation ≠ none then
    { s with dev := { s.dev with strobeRej := true } }
  else
    ({ s with dev := { s.dev with strobeBusy := true, strobeRefused := false } } : State).require
      { code := 2, arg := v % 32, origin := .strobe }

/-- NW_CTL: requests, or both at once (R513). -/
def State.writeNwCtl (s : State) (v : Nat) : State :=
  if bit v 0 ∧ bit v 1 = true then { s with dev := { s.dev with rrej := true } }
  else if bit v 0 then s.modeRequest 9
  else if bit v 1 then s.modeRequest 3
  else s

def State.writeDev (s : State) (r v : Nat) : State :=
  match r with
  | 0x24 => if bit v 7 then { s with dev := { s.dev with rrej := false } } else s
  | 0x28 => s.modeRequest (v % 16)
  | 0x44 => s.writeStrobe v
  | _ => s

def NwThr.writeA (e : NwThr) (v : Nat) : NwThr :=
  { e with
    en := bit v 0, src := bits v 2 1, index := bits v 7 3, tile := bits v 10 8, below := bit v 11, persist := bits v 15 12
    action := bits v 17 16 }

def State.writeNw (s : State) (r v : Nat) : State :=
  match r with
  | 0x00 => s.writeNwCtl v
  | 0x04 => { s with nw := { s.nw with periodMs := bits v 13 0 } }
  | 0x08 => { s with nw := { s.nw with alert := s.nw.alert && !bit v 1, exited := s.nw.exited && !bit v 2 } }
  | _ =>
    if 0x100 ≤ r ∧ r < 0x180 then
      let i := (r - 0x100) / 8
      let e := s.nw.thr.getD i {}
      { s with nw := { s.nw with thr := s.nw.thr.set i (if r % 8 = 0 then e.writeA v else { e with level := v % 65536 }) } }
    else s

/-- A write to a register that holds only fields marked "No" is discarded while ENABLE is set (R84, R511); otherwise the queue's next
enable starts at index 0 (R85). -/
def State.writeCfg (s : State) (q : Nat) (f : Queue → Queue) : State :=
  let u := s.queue q
  if u.enable then s.setQueue q { u with cfgErrV := true, cfgErr := 8 }
  else s.setQueue q { f u with freshStart := true }

/-- Q_CTL (R85, R87, R91, R511): a write that sets RESET ignores ENABLE. -/
def State.writeQctl (s : State) (q v : Nat) : State :=
  if bit v 1 then (s.resetBegin q).registerAll
  else if bit v 0 then s.enableQueue q
  else s.disableQueue q

/-- Q_STATUS: write 1 to clear (R511). -/
def Queue.clearBits (u : Queue) (v : Nat) : Queue :=
  { u with
    dbErr := u.dbErr && !bit v 0, ownStall := u.ownStall && !bit v 1, resetDone := u.resetDone && !bit v 3
    cfgErrV := u.cfgErrV && !bit v 5, cfgErr := if bit v 5 then 0 else u.cfgErr, ringFault := u.ringFault && !bit v 6 }

def State.writeQueue (s : State) (q r v : Nat) : State :=
  match r with
  | 0x00 => s.writeCfg q fun u => { u with base := u.base / 2 ^ 32 * 2 ^ 32 + v }
  | 0x04 => s.writeCfg q fun u => { u with base := u.base % 2 ^ 32 + 2 ^ 32 * v }
  | 0x08 => s.writeCfg q fun u =>
      { u with depthLog2 := bits v 4 0, slice := bits v 17 8, home := bits v 22 20, port := bits v 26 24 }
  | 0x0C => s.onQueue q fun u => { u with cls := bits v 1 0, weight := bits v 15 8, burst := bits v 22 16 }
  | 0x10 => s.onQueue q fun u => { u with irqCount := bits v 7 0, irqTime := bits v 23 8 }
  | 0x14 => s.onQueue q fun u => { u with vector := bits v 10 0 }
  | 0x18 => s.writeQctl q v
  | 0x1C => s.onQueue q fun u => u.clearBits v
  | _ => s

/-- PD_VOTE_DBG: the vote and the hold; a write of 0b11 is discarded (R368, R512). -/
def State.writeDbg (s : State) (t : TileId) (d : DomId) (v : Nat) : State :=
  if s.debugActs = false ∨ v % 4 = 3 then s
  else (s.castVote t d 5 (v % 4)).onDom t d fun y => { y with dbgHold := bit v 2 }

def State.writePd (s : State) (t : TileId) (r v : Nat) : State :=
  if r = 0 then s.onTile t fun x => { x with maxRamps := v % 8 }
  else match arrIx r 0x100 56, arrIx r 0x200 56, arrIx r 0x300 56, arrIx r 0x400 56 with
    | some d, _, _, _ => s.onTile t fun x => (x.onDom (domN d) fun y => { y with idleOff := bit v 0 }).settle
    | _, some d, _, _ => s.onDom t (domN d) fun y => { y with retLost := y.retLost && !bit v 6 }
    | _, _, some d, _ => s.castVote t (domN d) 0 (v % 4)
    | _, _, _, some d => s.writeDbg t (domN d) v
    | _, _, _, _ => s

/-- The PE clock that throttling sets ends with THR_EN (R384). -/
def Mon.write (m : Mon) (r v : Nat) : Mon :=
  match r with
  | 0x00 =>
    let en := bit v 5
    { m with
      thrFreq := bits v 4 0, thrEn := en, alertEn := bit v 6, avgMs := bits v 14 8
      throttle := m.throttle && en, clock := if en then m.clock else 0 }
  | 0x04 => { m with thrHi := toSigned 16 (bits v 15 0), thrLo := toSigned 16 (bits v 31 16) }
  | 0x08 => { m with alertT := toSigned 16 (bits v 15 0) }
  | 0x0C => { m with alert := m.alert && !bit v 1 }
  | 0x10 => { m with droopLvl := bits v 3 0, droopEn := bit v 4 }
  | _ => m

def Err.write (e : Err) (r v : Nat) : Err :=
  match r with
  | 0x00 => { e with irqSev := bits v 2 0, irqEn := bit v 3, vector := bits v 14 4, alertEn := bit v 15 }
  | 0x04 => { e with pending := e.pending && !bit v 0, alert := e.alert && !bit v 1 }
  | _ => e

/-- CMDP_CLASS_WGT: the shadow, and in immediate mode the value in force with it (R503). -/
def State.writeWgt (s : State) (t : TileId) (v : Nat) : State :=
  let l := [bits v 7 0, bits v 15 8, bits v 23 16]
  let s := s.onTile t fun x => { x with wgtShadow := l }
  if (s.block (blockNo t.val 5)).applyMode then s else s.applyBlock t 5

/-- Retrain every active module of an edge (R477). -/
def State.retrainEdge (s : State) (t : TileId) (e : EdgeId) : State :=
  (s.edge t e).actives.foldl (fun s i => s.startRetrain t e i) s

/-- A write lands in a register (R497 to R513); RO and RSV fields, and offsets that hold no register, discard it. -/
def State.writeReg (s : State) (b : Blk) (r v : Nat) : State :=
  if r = 0x7F8 then s.writeCtl b v
  else if r = 0x7FC then (if bit v 1 then s.setBlock b.no { s.block b.no with wdrop := false } else s)
  else match b with
    | .dev => s.writeDev r v
    | .nw => s.writeNw r v
    | .slc => if r = 0 then { s with slcSel := bits v 9 0 } else s
    | .queues k => s.writeQueue (16 * k + r / 0x80) (r % 0x80) v
    | .tile t 0 => s.writePd t r v
    | .tile t 1 => s.onTile t fun x => { x with mon := x.mon.write r v }
    | .tile t 2 => s.onTile t fun x => { x with err := x.err.write r v }
    | .tile t 4 =>
      if r = 0 then s.onSched t fun c => { c with stealEn := bit v 0, traceEn := bit v 1, mask := bits v 31 16 } else s
    | .tile t 5 => if r = 0 then s.writeWgt t v else s
    | .tile t 7 =>
      (match arrIx r 0x10 4 with
        | some e => if bit v 0 then s.retrainEdge t ⟨e % 4, Nat.mod_lt _ (by decide)⟩ else s
        | none => s)
    | .tile _ _ => s

/-- The value that a SET, CLR or TGL write leaves in the RW and RWS fields (R497, R498). -/
def regionValue (region cur v mask : Nat) : Nat :=
  let c := cur &&& mask
  let w := v &&& mask
  match region with
  | 2 => c ||| w
  | 4 => maskOut c w
  | _ => c ^^^ w

/-- A write at a block offset lands, by its region (R497). -/
def State.land (s : State) (port : Nat) (b : Blk) (off v : Nat) : State :=
  let r := off % 0x800
  match off / 0x800 with
  | 0 => s.writeReg b r v
  | 2 | 4 | 6 =>
    let mask := b.rwMask r
    if mask = 0 then s
    else s.writeReg b r (regionValue (off / 0x800) (s.reg port b r false) v mask)
  | _ => s

/-! ### Posting a write (R494, R500 to R508) -/

/-- Add a write to the block's buffer, or drop it when the buffer is full (R501). The FABRIC voter wakes a block's domain (R507). -/
def State.pushWrite (s : State) (b : Blk) (w : BufWrite) : State :=
  let k := s.block b.no
  if b.depth ≤ k.buffer.length then s.drop b
  else
    let s := s.setBlock b.no { k with buffer := k.buffer ++ [w] }
    match b with
    | .tile t n =>
      if s.blkOn b then s
      else match (tileBlocks.find? fun x => x.1 == n).bind (·.2) with
        | some d => s.castVote t (domN d) 3 2
        | none => s
    | _ => s

/-- The mode lets BAR0 writes reach a block (R34, R508). -/
def Mode.takesWrites (m : Mode) (b : Blk) : Bool :=
  match m with
  | .nightwatch => decide (b = .dev ∨ b = .nw)
  | .activate | .test => true
  | m => m.hostWritable

/-- Post one aligned 32-bit write. `direct` lands it at once when nothing is before it and nothing holds it. -/
def State.post32 (s : State) (port addr v : Nat) (direct : Bool) : State :=
  match blkOf (addr / 0x4000) with
  | none => s
  | some b =>
    if s.blkPresent b = false ∨ s.dev.mode.takesWrites b = false then s
    else if direct ∧ (s.block b.no).buffer = [] ∧ s.heldBlk b = false then s.land port b (addr % 0x4000) v
    else s.pushWrite b { port := port, off := addr % 0x4000, value := BitVec.ofNat 32 v }

/-- A write of a wrong size or alignment is discarded with WDROP (R494). -/
def State.postBad (s : State) (addr : Nat) : State :=
  match blkOf (addr / 0x4000) with
  | none => s
  | some b => if s.blkPresent b = false ∨ s.dev.mode.takesWrites b = false then s else s.drop b

/-- Post a BAR0 write: an aligned 8 B write is two, the lower address first (R494). -/
def State.post (s : State) (w : RegWrite) (direct : Bool) : State :=
  let v := w.value.toNat
  if s.portUp w.port = false ∨ 2 ^ 26 ≤ w.addr then s
  else if w.size = 4 ∧ w.addr % 4 = 0 then s.post32 w.port.val w.addr (v % 2 ^ 32) direct
  else if w.size = 8 ∧ w.addr % 8 = 0 then
    (s.post32 w.port.val w.addr (v % 2 ^ 32) direct).post32 w.port.val (w.addr + 4) (v / 2 ^ 32) direct
  else s.postBad w.addr

/-- The port through which a row that names none writes: that of queue 0 (log 28). -/
def State.anyPort (s : State) : Nat := (s.queue 0).port

/-- A host port is up. -/
def State.hostThere (s : State) : Bool := s.liveTiles.any s.portUp

/-- Write one register from the host by block and offset. -/
def State.postTo (s : State) (b : Blk) (r v : Nat) : State :=
  if s.hostThere then s.post32 s.anyPort (b.no * 0x4000 + r) v true else s

/-! ### Reads (R494, R495, R502, R507, R508) -/

/-- The mode lets a block be read: DEV in HALT, DEV and NW in NIGHTWATCH (R34, R508). -/
def Mode.readable (m : Mode) (b : Blk) : Bool :=
  match m with
  | .halt => decide (b = .dev)
  | .nightwatch => decide (b = .dev ∨ b = .nw)
  | .cold | .dawn | .train => false
  | _ => true

/-- The pending writes of a port to one register applied in order: what a read through that port sees (R502). -/
def State.forwarded (s : State) (port : Nat) (b : Blk) (r : Nat) : State :=
  ((s.block b.no).buffer.filter fun w => w.port == port && w.off % 0x800 == r).foldl
    (fun s w => s.land port b w.off w.value.toNat) s

/-- A read of an aligned 32-bit word of a block. -/
def State.readBlk (s : State) (port : Nat) (b : Blk) (off : Nat) : Nat :=
  let r := off % 0x800
  if s.blkPresent b = false ∨ s.dev.mode.readable b = false then 0
  else if s.blkOn b = false then (if r = 0x7FC ∧ [0, 1, 2, 4, 6].contains (off / 0x800) = true then s.blkStatus b else 0)
  else match off / 0x800 with
    | 1 => s.reg port b r true
    | 0 | 2 | 4 | 6 => if r = 0x7FC then s.blkStatus b else (s.forwarded port b r).reg port b r false
    | _ => 0

/-- A read of the aligned 32-bit word at a BAR0 address. -/
def State.read32 (s : State) (port addr : Nat) : Nat :=
  match blkOf (addr / 0x4000) with
  | some b => s.readBlk port b (addr % 0x4000) % 2 ^ 32
  | none => 0

/-! ### Rows -/

/-- UPDATE_STROBE (R504, R505). -/
def execUpdateStrobe (value : Word32) (s : State) : Res := .next (s.postTo .dev 0x44 value.toNat)

/-- UPDATE_STROBE_CLEAR_REJ (R505): a write with bit 10 set. -/
def execUpdateStrobeClearRej (value : Word32) (s : State) : Res :=
  .next (if bit value.toNat 10 then s.postTo .dev 0x44 value.toNat else s)

/-- APPLY_MODE_CLEAR (R503): a write to BLK_CTL that leaves APPLY_MODE clear. -/
def execApplyModeClear (w : RegWrite) (s : State) : Res :=
  .next (if w.addr % 0x4000 = 0x7F8 ∧ bit w.value.toNat 0 = false then s.post w true else s)

/-- STIR_RETRAIN (R477, R492). -/
def execStirRetrain (t : TileId) (e : EdgeId) (s : State) : Res := .next (s.postTo (.tile t 7) (0x10 + 4 * e.val) 1)

/-- PD_VOTE_HOST_WRITE (R512). -/
def execPdVoteHostWrite (t : TileId) (d : DomId) (value : Word32) (s : State) : Res :=
  .next (s.postTo (.tile t 0) (0x300 + 4 * d.val) value.toNat)

/-- A JTAG write reaches the PD block through the DEBUG domain, in the order in which the block receives it (R512, R532). -/
def State.jtagDbg (s : State) (t : TileId) (d : DomId) (v : Nat) : State :=
  let b := Blk.tile t 0
  if s.present t = false ∨ s.debugActs = false ∨ s.dev.mode = .cold then s
  else if (s.block b.no).buffer = [] ∧ s.heldBlk b = false then s.writeDbg t d v
  else s.pushWrite b { port := 8, off := 0x400 + 4 * d.val, value := BitVec.ofNat 32 v }

/-- PD_VOTE_DBG_WRITE (R512): discarded without WDROP unless the DEBUG voter acts. -/
def execPdVoteDbgWrite (t : TileId) (d : DomId) (value : Word32) (jtag : Bool) (s : State) : Res :=
  .next (if jtag then s.jtagDbg t d value.toNat
    else if s.debugActs then s.postTo (.tile t 0) (0x400 + 4 * d.val) value.toNat
    else s)

/-- TIMEBASE_LO_READ (R494): the high bits are latched for the port that reads. -/
def execTimebaseLoRead (port : TileId) (s : State) : Res :=
  .next (if s.portUp port = true ∧ s.dev.mode.readable .dev = true then
    { s with dev := { s.dev with tbLatch := s.dev.tbLatch.set port.val (s.now / 2 ^ 32) } } else s)

/-- ALIAS_WRITE (R498): a write in a SET, CLR or TGL region. -/
def execAliasWrite (w : RegWrite) (s : State) : Res :=
  .next (if [2, 4, 6].contains (w.addr % 0x4000 / 0x800) then s.post w true else s)

/-- REGISTER_WRITE (R500): the write enters the block's buffer, to land by REGISTER_WRITE_LAND. -/
def execRegisterWrite (w : RegWrite) (s : State) : Res := .next (s.post w false)

/-- The write at the head of a block's buffer lands, unless it is held; HALT discards it (R500, R508). -/
def landEff (b : Blk) (s : State) : State :=
  let k := s.block b.no
  match k.buffer with
  | [] => s
  | w :: rest =>
    let s' := s.setBlock b.no { k with buffer := rest }
    if s.dev.mode = .halt then s'
    else if s.heldBlk b then s
    else s'.land w.port b w.off w.value.toNat

/-- REGISTER_WRITE_LAND (R500). -/
def execRegisterWriteLand (block : Nat) (s : State) : Res :=
  .next (match blkOf block with
    | some b => landEff b s
    | none => s)

end Sys2Proof.Machine
end

