-- ==== Sys2Proof/Machine/Fabric.lean ====
section
/-! DEFINITION. Messages at their destination (R367, R450, R464, R481, R483, R487, R490): line and register requests with their responses,
the acknowledgement and tally of exchange records, boot and firmware messages, and lost messages. -/

namespace Sys2Proof.Machine

/-! ### Destinations -/

/-- The power domain of an agent (R364, R463); the AON agent has none. -/
def agentDom (a : Fin 64) : Option Nat :=
  let a := a.val
  if a < 32 then some a
  else if a < 36 then some (a + 4)
  else if a < 39 then some (a + 4)
  else if a = 39 then some 43
  else if a = 40 then some 45
  else if a = 42 then some 54
  else none

/-- A message carries the generations of a command that are no longer current (R92, R450, R480). -/
def State.stale? (s : State) (h : MsgHdr) : Bool :=
  h.sgen != 0 && (h.sgen != (s.slc h.slice).gen || h.qgen != (s.queue h.queue).gen)

/-- A stale item is dropped and counted (R92, R450). -/
def State.dropItem (s : State) (h : MsgHdr) : State :=
  (s.onQueue h.queue fun u => { u with staleDrops := min 0xFFFFFFFF (u.staleDrops + 1) }).onSlc h.slice fun y => { y with stale := y.stale + 1 }

/-- A request or exchange record at its destination: lost on a fenced tile, held at the port of a domain that is not ON (R367),
dropped when stale, else delivered. -/
def State.arrive (s : State) (h : MsgHdr) (b : List Byte) (go : State → State) : State :=
  if s.live h.dstTile = false then s.loseMsg b
  else match agentDom h.dstAgent with
    | some d =>
      if s.domOn h.dstTile d then (if s.stale? h then s.dropItem h else go s)
      else (s.onTile h.dstTile fun x => { x with portHeld := x.portHeld ++ [(d, b)] }).castVote h.dstTile (domN d) 3 2
    | none => if s.stale? h then s.dropItem h else go s

/-- The context of a header. -/
def ctxOf (h : MsgHdr) : MsgCtx := { slice := h.slice, sgen := h.sgen, queue := h.queue, qgen := h.qgen }

/-- Answer a request (R481). -/
def State.answer (s : State) (h : MsgHdr) (mtype : Nat) (body : List Byte) : State :=
  s.sendMsg mtype (msgLen mtype).1 h.dstTile h.dstAgent h.srcTile h.srcAgent (ctxOf h) body

/-! ### Requests outstanding (R481, R490) -/

/-- The command that a message's context names: the oldest started one of its queue. -/
def State.cmdOfCtx (s : State) (h : MsgHdr) : Option Cmd :=
  if h.sgen = 0 then none
  else (s.cmdsOf h.queue).find? fun x => x.phase == .started && x.slice == h.slice

/-- A request is outstanding at its source until its response or its loss. -/
def State.addReq (s : State) (h : MsgHdr) (mtype tag : Nat) : State :=
  let x := if h.srcAgent.val < 16 then none else s.cmdOfCtx h
  let p : Pending :=
    { agent := h.srcAgent.val, dst := h.dstTile.val, tag := tag, mtype := mtype
      c := x.map (·.ref), order := (x.map (·.order)).getD 0
      pe := if h.srcAgent.val < 16 then some (gpeN (16 * h.srcTile.val + h.srcAgent.val)) else none }
  if (s.tile h.srcTile).reqs.any fun x => x.agent == p.agent && x.dst == p.dst && x.tag == tag then s
  else s.onTile h.srcTile fun x => { x with reqs := x.reqs ++ [p] }

/-- The request that a response answers. -/
def State.req? (s : State) (h : MsgHdr) (tag : Nat) : Option Pending :=
  (s.tile h.dstTile).reqs.find? fun x => x.agent == h.dstAgent.val && x.dst == h.srcTile.val && x.tag == tag

def State.dropReq (s : State) (t : TileId) (p : Pending) : State :=
  s.onTile t fun x => { x with reqs := x.reqs.filter fun y => decide (y ≠ p) }

/-- End a started command with a status: a query fails at its morsel boundaries, a job leaves its engine. -/
def State.endCmd (s : State) (c : CmdRef) (status detail : Nat) : State :=
  match s.running? c with
  | none => s
  | some x =>
    match x.prog with
    | .query qid => s.failQuery qid (s.failure status detail)
    | .job => (s.removeJobs c).fail c status 0 detail
    | _ => s.fail c status 0 detail

/-- A lost request or response (R490): the morsel is abandoned, or the command fails; a register access just ends. -/
def State.loseReq (s : State) (p : Pending) : State :=
  if p.mtype = 0x03 ∨ p.mtype = 0x04 then s
  else match p.pe, p.c with
    | some g, _ => s.abandon g
    | none, some c => s.forCmd c p.order (·.endCmd c stUnavailable 0x0004)
    | none, none => s

/-- Poison reaches its consumer (R329, R330). -/
def State.poisonReq (s : State) (p : Pending) : State :=
  match p.pe, p.c with
  | some g, _ =>
    (match s.run? g with
      | some r => s.failQuery r.qid { s.failure stUncorrectable 0 with pipe := r.pipe, op := 0, morsel := r.at_.morsel }
      | none => s)
  | none, some c => s.forCmd c p.order (·.endCmd c stUncorrectable 0)
  | none, none => s

/-- A response arrives: it ends its request; one without a request is dropped. -/
def State.respond (s : State) (h : MsgHdr) (tag : Nat) (kinds : List Nat) (rstat : Nat) : State :=
  match s.req? h tag with
  | none => s
  | some p =>
    if !kinds.contains p.mtype then s
    else
      let s := s.dropReq h.dstTile p
      if s.stale? h then s.dropItem h
      else if rstat = 1 then s.poisonReq p
      else s

/-! ### Lines (R26, R158, R481) -/

/-- The memory tier whose port an agent is. -/
def agentTier (a : Fin 64) : Option Nat :=
  match a.val with
  | 36 => some 0 | 37 => some 1 | 38 => some 1 | 39 => some 2
  | _ => none

/-- The line of a tile's working SRAM that an address names to the agent of a bank group. -/
def sramLineOf (h : MsgHdr) (a : Nat) : Nat := ((h.dstAgent.val - 20) * 25165824 + a) / 64

/-- RSTAT of a line access (R481): 2 UNMAPPED, 3 FENCED, 1 POISON, 0 OK. Each working SRAM agent answers for the 24 MiB of its group. -/
def State.lineStat (s : State) (h : MsgHdr) (a : Nat) : Nat :=
  match agentTier h.dstAgent with
  | none => if 25165824 ≤ a then 2 else if (s.tile h.dstTile).sramPoison.contains (sramLineOf h a) then 1 else 0
  | some tier =>
    if addrTier a ≠ tier ∨ addrTile a ≠ h.dstTile.val ∨ s.addrBad a = true then 2
    else if (s.segAt a).any fun e => e.2.fenced then 3
    else if s.poison.contains (a / 64) then 1
    else 0

/-- The bytes of a line: store memory, or working SRAM, whose lines hold records that the spec addresses by page only (log 29). -/
def State.lineBytes (s : State) (h : MsgHdr) (a : Nat) : List Byte :=
  (List.range 64).map fun i =>
    match agentTier h.dstAgent with
    | none => Config.undefByte s.tick (a + i)
    | some _ =>
      match s.segAt a with
      | some e => s.storeByte e.2 (a + i)
      | none => (s.cell? (a + i)).getD (Config.undefByte 0 (a + i))

def lineBase (addr : Nat) : Nat := addr / 64 * 64

def readLine (h : MsgHdr) (tag addr : Nat) (s : State) : State :=
  let a := lineBase addr
  let st := s.lineStat h a
  s.answer h 0x11 (leBytes 2 tag ++ leBytes 1 st ++ leBytes 5 0 ++ (if st = 0 then s.lineBytes h a else (List.range 64).map fun i => Config.undefByte s.tick (a + i)))

/-- The cells that a masked line write stores. -/
def maskedCells (a : Nat) (mask : BitVec 64) (data : List Byte) : List Host.Cell :=
  ((cut data 0 64).zipIdx.filter fun p => mask.getLsbD p.2).map fun p => (a + p.2, p.1)

def writeLine (h : MsgHdr) (tag addr : Nat) (mask : BitVec 64) (data : List Byte) (s : State) : State :=
  let a := lineBase addr
  let st := s.lineStat h a
  let ok := (agentTier h.dstAgent).isSome && (st == 0 || st == 1)
  let s := if (agentTier h.dstAgent).isNone ∧ mask = BitVec.allOnes 64 then
      s.onTile h.dstTile fun x => { x with sramPoison := x.sramPoison.filter (· ≠ sramLineOf h a) }
    else s
  let cells := maskedCells a mask data
  let s := if ok then ((s.stage cells).cleanse cells).drainFull else s
  let s := if ok = true ∧ cells ≠ [] then
      match s.segAt a with
      | some e => s.onSeg e.1 fun g => { g with dirty := true }
      | none => s
    else s
  s.answer h 0x12 (leBytes 2 tag ++ leBytes 1 (if st = 1 then 0 else st))

/-- RD_LINE (R481). -/
def execRdLine (h : MsgHdr) (tag addr : Nat) (s : State) : Res :=
  .next ((s.addReq h 0x01 tag).arrive h (msgBytes 0x01 h (leBytes 2 tag ++ leBytes 6 0 ++ leBytes 8 addr)) (readLine h tag addr))

/-- WR_LINE (R481). -/
def execWrLine (h : MsgHdr) (tag addr : Nat) (mask : BitVec 64) (data : List Byte) (s : State) : Res :=
  .next ((s.addReq h 0x02 tag).arrive h
    (msgBytes 0x02 h (leBytes 2 tag ++ leBytes 6 0 ++ leBytes 8 addr ++ leBytes 8 mask.toNat ++ cut data 0 64)) (writeLine h tag addr mask data))

/-- A register access reaches its tile, whatever its block's domain: the block's port answers (R507). -/
def State.regReach (s : State) (h : MsgHdr) : Bool := s.live h.dstTile || s.present h.dstTile

/-- REG_RD (R481): a BAR0 read on behalf of the port of the source tile. A misaligned read returns 0 (R494). -/
def execRegRd (h : MsgHdr) (tag off : Nat) (s : State) : Res :=
  .next (
    let s := s.addReq h 0x03 tag
    if s.regReach h then
      s.answer h 0x13 (leBytes 2 tag ++ [0, 0] ++ leBytes 4 (if off % 4 = 0 then s.read32 h.srcTile.val off else 0))
    else s)

/-- REG_WR (R481). -/
def execRegWr (h : MsgHdr) (tag off : Nat) (data : Word32) (s : State) : Res :=
  .next (
    let s := s.addReq h 0x04 tag
    if s.regReach h then
      let s := if off % 4 = 0 then s.post32 h.srcTile.val off data.toNat true else s.postBad off
      s.answer h 0x12 (leBytes 2 tag)
    else s)

/-- RD_DATA (R481). -/
def execRdData (h : MsgHdr) (tag rstat : Nat) (data : List Byte) (s : State) : Res :=
  .next (if data.length ≤ 64 then s.respond h tag [0x01] rstat else s)

/-- WR_ACK (R481). -/
def execWrAck (h : MsgHdr) (tag rstat : Nat) (s : State) : Res := .next (s.respond h tag [0x02, 0x04] rstat)

/-- REG_DATA (R481): a register read ends, whatever the word it carries. -/
def execRegData (h : MsgHdr) (tag rstat : Nat) (_data : Word32) (s : State) : Res := .next (s.respond h tag [0x03] rstat)

/-- REQ_TIMEOUT (R490): no response within the bound, so the request is lost. -/
def execReqTimeout (t : TileId) (agent : Fin 64) (tag : Nat) (s : State) : Res :=
  .next (match (s.tile t).reqs.find? fun x => x.agent == agent.val && x.tag == tag with
    | some p => (s.dropReq t p).loseReq p
    | none => s)

/-! ### Exchange records (R246, R250, R483) -/

/-- A run named by query, PE, morsel and attempt. -/
def State.runOf? (s : State) (qid : Nat) (pe : Gpe) (morsel attempt : Nat) : Option Run :=
  (s.run? pe).filter fun r => r.qid == qid && r.at_.morsel == morsel && r.attempt == attempt

/-- Send XACK for the records of one sender that a tile has deposited since its last (R483). -/
def State.sendXack (s : State) (q : Query) (pipe : Nat) (x : XrCount) : State :=
  let s := s.onPipe q.qid pipe fun ps => { ps with xr := ps.xr.map fun y => if y = x then { y with unacked := 0 } else y }
  s.sendMsg 0x14 28 (tid x.tile) agXchg (tid (x.pe / 16)) ⟨x.pe % 16, by omega⟩ q.ctx
    (leBytes 2 q.qid ++ leBytes 1 x.pe ++ leBytes 1 x.attempt ++ leBytes 4 x.morsel ++ leBytes 4 x.unacked)

/-- A record is deposited; every 64 are acknowledged (R247, R483). -/
def depositRec (h : MsgHdr) (qid pipe part : Nat) (rec : List Byte) (s : State) : State :=
  match s.query? qid with
  | none => s
  | some q =>
    let p := q.img.pipes.getD pipe default
    if q.failing ∨ p.sink.kind ≠ kExchange ∨ bit (q.masks.getD pipe 0) h.dstTile.val = false then s
    else match (q.pipe pipe).deposit p.sink h.dstTile.val part (cut rec 0 (field rec 14 2)) with
      | none =>
        s.failQuery qid { s.failure stResultSpace 0x0020 with pipe := pipe, op := p.sinkIx, morsel := (recFrom rec).2.1 }
      | some ps =>
        let s := s.putPipe q pipe ps
        match ps.xr.find? fun x => x.tile == h.dstTile.val && (x.pe, x.morsel, x.attempt) == recFrom rec with
        | some x => if 64 ≤ x.unacked then s.sendXack q pipe x else s
        | none => s

/-- XREC (R246). -/
def execXrec (h : MsgHdr) (qid : Nat) (pipe : Fin 32) (part : Nat) (record : List Byte) (s : State) : Res :=
  .next (s.arrive h (msgBytes 0x20 h (leBytes 2 qid ++ leBytes 1 pipe.val ++ [0] ++ leBytes 2 part ++ [0, 0] ++ record))
    (depositRec h qid pipe.val part record))

/-- XACK_TIMER (R483): the records of one sender that are not yet acknowledged. -/
def execXackTimer (t : TileId) (qid : Nat) (srcPe : Gpe) (morsel attempt : Nat) (s : State) : Res :=
  .next (match s.query? qid with
    | none => s
    | some q =>
      if s.live t = false then s else
      ((List.range q.pipes.length).flatMap fun k =>
        ((q.pipe k).xr.filter fun x => x.tile == t.val && x.pe == srcPe.val && x.morsel == morsel && x.attempt == attempt &&
          decide (0 < x.unacked)).map fun x => (k, x)).foldl (fun s e => s.sendXack q e.1 e.2) s)

/-- The sender takes an acknowledgement, and asks the tiles of E for their tallies once all are acknowledged (R483). -/
def ackEff (h : MsgHdr) (qid : Nat) (pe : Gpe) (attempt morsel count : Nat) (s : State) : State :=
  match s.query? qid, s.runOf? qid pe morsel attempt with
  | some q, some r =>
    let old := ((r.acked.find? fun a => a.1 == h.srcTile.val).map (·.2)).getD 0
    let r' := { r with acked := (r.acked.filter fun a => decide (a.1 ≠ h.srcTile.val)) ++ [(h.srcTile.val, old + count)] }
    (s.setRun pe (some r')).askTallies pe r' (q.env r.pipe (gpeTile pe).val r.at_)
  | _, _ => s

/-- XACK (R483). -/
def execXack (h : MsgHdr) (qid : Nat) (srcPe : Gpe) (attempt morsel count : Nat) (s : State) : Res :=
  .next (if s.live h.dstTile = false then s.loseMsg (msgBytes 0x14 h (leBytes 2 qid ++ leBytes 1 srcPe.val))
    else if s.stale? h then s.dropItem h
    else ackEff h qid srcPe attempt morsel count s)

/-- XTALLY_REQ (R483): the receiver's counts, over the pipelines of the query that exchange. -/
def execXtallyReq (h : MsgHdr) (qid : Nat) (srcPe : Gpe) (attempt morsel : Nat) (s : State) : Res :=
  .next (match s.query? qid, s.runOf? qid srcPe morsel attempt with
    | some q, some r =>
      if s.live h.dstTile = false ∨ s.stale? h = true then s else
      let x := (q.pipe r.pipe).recvTally h.dstTile.val srcPe.val morsel attempt
      s.sendMsg 0x32 40 h.dstTile agXchg h.srcTile h.srcAgent (ctxOf h)
        (leBytes 2 qid ++ leBytes 1 srcPe.val ++ leBytes 1 attempt ++ leBytes 4 morsel ++ leBytes 8 x.1 ++ leBytes 8 x.2.toNat)
    | _, _ => s)

/-- XCHG_TALLY (R250): the counts wait for the morsel's end, which checks them. -/
def execXchgTally (h : MsgHdr) (qid : Nat) (srcPe : Gpe) (attempt morsel cnt xorHash : Nat) (s : State) : Res :=
  .next (match s.runOf? qid srcPe morsel attempt with
    | some _ =>
      if s.live h.dstTile = false ∨ s.stale? h = true then s else
      s.onRun srcPe fun r =>
        { r with tallies := (r.tallies.filter fun x => decide (x.1 ≠ h.srcTile.val)) ++ [(h.srcTile.val, cnt, BitVec.ofNat 64 xorHash)] }
    | none => s)

/-! ### Boot and firmware messages (R481, R487, R490) -/

/-- BOOT_DATA (R487): a piece of the image reaches a tile in boot mode. -/
def execBootData (h : MsgHdr) (off : Nat) (data : List Byte) (s : State) : Res :=
  .next (if s.dev.mode = .dawn ∧ s.live h.dstTile = true then
    s.onTile h.dstTile fun x => { x with image := memWriteBytes x.image off data } else s)

/-- FW_MSG (R481, R490): acted on once for each TAG; what it means belongs to supervisor firmware. -/
def execFwMsg (h : MsgHdr) (tag kind : Nat) (data : List Byte) (s : State) : Res :=
  .next (if s.live h.dstTile = true ∧ kind < 65536 ∧ data.length ≤ 492 ∧ s.seen h.dstTile h.srcTile.val 0x3F tag = false then
    s.markSeen h.dstTile h.srcTile.val 0x3F tag else s)

/-! ### Lost control messages (R490) -/

/-- A message from a tile toward another would be lost now: no route, or a fenced edge. -/
def State.lostNow (s : State) (t : TileId) (dst : Nat) : Bool :=
  let r := (s.tile t).route.getD dst {}
  let e := (s.tile t).edges.toList.getD r.edge {}
  r.none_ || e.st == .fenced || e.st == .disabled

/-- CTL_RESEND (R490): sent again up to three times, then the destination is fenced by the master. -/
def execCtlResend (t : TileId) (tag : Nat) (s : State) : Res :=
  .next (match (s.tile t).ctl.find? fun x => x.tag == tag with
    | none => s
    | some p =>
      let others (s : State) : State := s.onTile t fun x => { x with ctl := x.ctl.filter fun y => decide (y ≠ p) }
      if 3 ≤ p.tries then (others s).loseTile (tid p.dst)
      else if s.lostNow t p.dst then
        s.onTile t fun x => { x with ctl := x.ctl.map fun y => if y = p then { p with tries := p.tries + 1 } else y }
      else (others s).forward t (msgBytes p.mtype p.h p.body))

/-! ### MESH_FLIT_ERROR (R464) -/

/-- A tile whose mesh or Girth has failed is fenced and removed from routing. -/
def State.cutOff (s : State) (t : TileId) : State := (s.onTile t fun x => { x with relays := false }).loseTile t

/-- MESH_FLIT_ERROR: a payload error poisons the unit carried; header, router and Girth errors fence the tile. -/
def execMeshFlitError (t : TileId) (f : MeshFault) (s : State) : Res :=
  .next (if s.live t = false then s
    else match f with
      | .payload a => s.poisonUnit a
      | .header => s.cutOff t
      | .router => s.cutOff t
      | .girth => s.cutOff t)

end Sys2Proof.Machine
end

