-- ==== Sys2Proof/Machine/Upkeep.lean ====
section
/-! DEFINITION. Upkeep of stored state: the draining of staged writes (R157), patrol scrub (R165, R166, R328), the scrub of the Segment Map
(R167), lost channels and ports (R138, R164), and the Slice Table (R444). -/

namespace Sys2Proof.Machine

/-- Modes in which the tiers are in use. -/
def Mode.storeUp : Mode → Bool
  | .ready | .service | .degraded | .dusk | .midnight | .activate => true
  | _ => false

/-- STAGING_DRAIN (R157): the staged bytes of one 64 B line go to the tier. A fenced tile drains nothing. -/
def execStagingDrain (t : TileId) (line : Nat) (s : State) : Res :=
  .next (if s.live t = true ∧ s.dev.mode.storeUp = true then s.drainWhere fun a => a / 64 == line && addrTile a == t.val else s)

/-! ### Patrol scrub -/

/-- UNIT_KIND and UNIT_INDEX of a scrubbed address (R332). -/
def scrubKind : ScrubUnit → Nat
  | .hbm => 0x07 | .ddr => 0x08 | .sram => 0x06 | .staging => 0x00

/-- The bank of a working SRAM address: banks of 3 MiB, eight to a group (R328). -/
def sramBank (addr : Nat) : Nat := addr / 3145728

/-- Working SRAM of a tile: 64 banks (R247, R328). -/
def sramSize : Nat := 64 * 3145728

def State.scrubIndex (s : State) (t : TileId) (w : ScrubUnit) (addr : Nat) : Nat :=
  match w with
  | .sram => sramBank addr % 256
  | .ddr => (s.tile t).ddrChannel (addrOff addr)
  | _ => 0

/-- The unit's power domain is ON (R165): that of the channel or the bank group which holds the address. -/
def State.scrubOn (s : State) (t : TileId) (w : ScrubUnit) (addr : Nat) : Bool :=
  match w with
  | .hbm => s.domOn t 40
  | .ddr => s.domOn t (41 + (s.tile t).ddrChannel (addrOff addr))
  | .sram => s.domOn t (20 + sramBank addr / 8)
  | .staging => true

/-- The address is one that the tile scrubs in the unit: a store address of its own tier, an address of its working SRAM, or one that
its staging buffer holds (R165). CXL is not scrubbed. -/
def State.scrubs (s : State) (t : TileId) (w : ScrubUnit) (addr : Nat) : Bool :=
  let mine (tier : Nat) : Bool := addrTile addr == t.val && addrTier addr == tier && decide (addrOff addr < s.tierCap t.val tier)
  match w with
  | .hbm => mine 0
  | .ddr => mine 1
  | .sram => decide (addr < sramSize)
  | .staging => (memRead (s.tile t).staging addr).isSome

/-- The place of an address in the pass of its unit. -/
def scrubPos (w : ScrubUnit) (addr : Nat) : Nat :=
  match w with
  | .hbm | .ddr => addrOff addr
  | _ => addr

/-- The pass of a unit has read all of it. -/
def State.scrubDone (s : State) (t : TileId) (w : ScrubUnit) (k : Scrub) : Bool :=
  match w with
  | .hbm => decide (s.tierCap t.val 0 ≤ k.next)
  | .ddr => decide (s.tierCap t.val 1 ≤ k.next)
  | .sram => decide (sramSize ≤ k.next)
  | .staging => (s.tile t).staging.all fun c => decide (c.1 < k.next)

def scrubSlot : ScrubUnit → Nat
  | .hbm => 0 | .ddr => 1 | .sram => 2 | .staging => 3

def State.scrubOf (s : State) (t : TileId) (w : ScrubUnit) : Scrub := (s.tile t).scrub.getD (scrubSlot w) {}

def State.setScrub (s : State) (t : TileId) (w : ScrubUnit) (k : Scrub) : State :=
  s.onTile t fun x => { x with scrub := x.scrub.set (scrubSlot w) k }

/-- SCRUB_PERIOD in ns (R165). -/
def State.scrubNs (s : State) : Nat := s.feat.scrubPeriod * 3600000000000

/-- A period that has run out ends its pass: one that has not read the whole unit is logged once as SCRUB_LATE, and scrub goes on with the
next (R166, log 85). -/
def State.rollScrub (s : State) (t : TileId) (w : ScrubUnit) : State :=
  let k := s.scrubOf t w
  if s.scrubNs = 0 ∨ s.now < k.began + s.scrubNs then s
  else
    let s1 := if s.scrubDone t w k then s else s.logErr t { errRec evScrubLate 0 with kind := scrubKind w }
    s1.setScrub t w { began := s.now / s.scrubNs * s.scrubNs, next := 0 }

/-- Retire a bank: a SEV 3 event, which takes the device to DEGRADED (R328, R331). -/
def State.retireBank (s : State) (t : TileId) (bank : Nat) : State :=
  if (s.tile t).err.retired.contains bank then s
  else ((s.onTile t fun x => { x with err := { x.err with retired := insertRising x.err.retired bank } }).logErr t
    { errRec evBankRetired 3 with kind := 0x06, index := bank }).degrade

/-- An uncorrectable word of a bank: two different ones in a verification window retire it (R328). -/
def State.badSram (s : State) (t : TileId) (addr : Nat) : State :=
  let s := s.rollVerify t
  let bank := sramBank addr
  let word := addr / 8 + 1
  let first := tblGet (s.tile t).err.badWord bank 0
  if first = 0 then s.onTile t fun x => { x with err := { x.err with badWord := tblSet 0 x.err.badWord bank word } }
  else if first = word then s
  else s.retireBank t bank

/-- A bad working SRAM line is poisoned until it is written whole (R329), and its bank may be retired (R328). -/
def State.poisonSram (s : State) (t : TileId) (addr : Nat) : State :=
  (s.onTile t fun x => { x with sramPoison := insertRising x.sramPoison (addr / 64) }).badSram t addr

/-- What a scrub read has found is corrected or poisoned, and logged (R166). -/
def scrubEff (t : TileId) (w : ScrubUnit) (addr : Nat) (res : ScrubResult) (s : State) : State :=
  let ix := s.scrubIndex t w addr
  match res with
  | .clean => s
  | .corrected => s.logCorrected t { errRec evScrubCorrected 0 with kind := scrubKind w, index := ix, addr := addr }
  | .uncorrectable =>
    let s := s.logErr t { errRec evScrubUncorrectable 1 with kind := scrubKind w, index := ix, addr := addr }
    match w with
    | .sram => s.poisonSram t addr
    | _ => s.poisonUnit addr

/-- PATROL_SCRUB (R165, R166): the pass has read up to the 64 B unit of an address, each unit once in a period (log 85). -/
def patrolEff (t : TileId) (w : ScrubUnit) (addr : Nat) (res : ScrubResult) (s : State) : State :=
  let s := s.rollScrub t w
  let k := s.scrubOf t w
  if s.scrubOn t w addr = false ∨ scrubPos w addr < k.next then s
  else (scrubEff t w addr res s).setScrub t w { k with next := scrubPos w addr / 64 * 64 + 64 }

def execPatrolScrub (t : TileId) (w : ScrubUnit) (addr : Nat) (res : ScrubResult) (s : State) : Res :=
  .next (if s.live t = true ∧ s.dev.mode.storeUp = true ∧ s.feat.scrubPeriod ≠ 0 ∧ s.scrubs t w addr = true then
    patrolEff t w addr res s else s)

/-- SCRUB_LATE (R166). -/
def execScrubLate (t : TileId) (w : ScrubUnit) (s : State) : Res :=
  .next (if s.live t = true ∧ s.dev.mode.storeUp = true ∧ s.feat.scrubPeriod ≠ 0 then s.rollScrub t w else s)

/-! ### Segment Map scrub -/

def mapPeriodNs : Nat := 10000000000
def mapEntries : Nat := 262144

/-- The entry that a tile votes next is due: no earlier than its place in the period (R167). -/
def State.mapDue (s : State) (t : TileId) : Bool :=
  let x := s.tile t
  if x.mapScrub = 0 then x.mapPeriod != some (s.now / mapPeriodNs)
  else decide (x.mapScrub * mapPeriodNs ≤ s.now % mapPeriodNs * mapEntries ∨ x.mapPeriod ≠ some (s.now / mapPeriodNs))

/-- MAP_SCRUB_VOTE (R167). -/
def execMapScrubVote (t : TileId) (seen : VoteSeen) (s : State) : Res :=
  .next (if s.live t = true ∧ s.dev.mode.storeUp = true ∧ seen.segid = (s.tile t).mapScrub ∧ s.mapDue t = true then
    (s.vote t seen).1.onTile t fun x =>
      { x with
        mapScrub := (x.mapScrub + 1) % mapEntries
        mapPeriod := if x.mapScrub = 0 then some (s.now / mapPeriodNs) else x.mapPeriod }
    else s)

/-! ### Lost channels and ports -/

/-- A DDR5 channel is lost after TRAIN: fenced, and every segment of the tier with bytes on the tile with it (R138, R164). -/
def State.loseDdr (s : State) (t : TileId) (ch : Nat) : State :=
  if bit (s.tile t).err.fence.ddr ch then s
  else (s.loseSegs t.val (some 1)).fenceUnit t 0x08 ch fun f => { f with ddr := setBit f.ddr ch }

/-- DDR_CHANNEL_LOST. -/
def execDdrChannelLost (t : TileId) (ch : Fin 2) (s : State) : Res :=
  .next (if s.live t = true ∧ s.dev.mode.storeUp = true then s.loseDdr t ch.val else s)

/-- CXL_PORT_LOST (R164): the root port is fenced, with the segments on its tier. -/
def execCxlPortLost (t : TileId) (s : State) : Res :=
  .next (if s.live t = true ∧ s.dev.mode.storeUp = true ∧ s.hostRole t = false ∧ (s.tile t).err.fence.cxl = false then
    (s.loseSegs t.val (some 2)).fenceUnit t 0x09 0 fun f => { f with cxl := true } else s)

/-! ### Slice Table -/

/-- A slice whose entry no tile holds: FAILED, its queues reset and disabled, its tokens discarded (R444). -/
def State.failSlice (s : State) (n : Nat) : State :=
  let s := s.onSlc n fun y => { y with st := .failed }
  let qs := (s.queues.filter fun e => e.2.slice = n).map (·.1)
  let s := qs.foldl (fun s q => (s.resetBegin q).disableQueue q) s
  (s.discard (fun k => decide (k.slice = n)) 0x0D).registerAll

/-- SLICE_TABLE_ECC (R444): the copy of tile `t` is uncorrectable. -/
def execSliceTableEcc (t : TileId) (slice : Fin 1024) (s : State) : Res :=
  .next (if s.live t = false ∨ s.dev.mode = .cold then s
    else if s.liveTiles.any fun u => decide (u ≠ t) then
      s.logErr t { errRec evEccUncorrectable 1 with slice := slice.val }
    else if (s.slc slice.val).st = .free then s
    else s.failSlice slice.val)

end Sys2Proof.Machine
end

