-- ==== Sys2Proof/Machine/PowerCore.lean ====
section
/-! DEFINITION. Power domains in motion: the refusal checks and the end of an entry (R372 to R375), what OFF loses (R366), what a wake
finds lost (R381), failed wakes (R379), and the STIRRUP handshake's local effects (R489). -/

namespace Sys2Proof.Machine

def domRank : DomState → Nat
  | .off => 0 | .ret => 1 | .on => 2

/-- The target of a domain lies below its state: an entry is due (R372). -/
def Dom.entryDue (y : Dom) : Bool := decide (domRank y.target < domRank y.st) && (y.phase == .stable || y.phase == .failed)

/-- The sequencer runs: the AON domain is up (R365). -/
def State.seqOn (s : State) (t : TileId) : Bool := s.present t && s.dev.mode != .cold

/-! ### Refusal (R373) -/

/-- Register blocks of a domain. -/
def domBlocks (d : Nat) : List Nat := (tileBlocks.filter fun b => b.2 == some d).map (·.1)

/-- A block of the domain holds a write that has not landed. -/
def State.domPosted (s : State) (t : TileId) (d : Nat) : Bool := (domBlocks d).any fun k => !(s.block (blockNo t.val k)).buffer.isEmpty

/-- The lowest child that is ON or waking. -/
def Tile.childUp (x : Tile) (d : Nat) : Option Nat :=
  (domChildren d).find? fun c => (x.dom (domN c)).st == .on || (x.dom (domN c)).phase == .waking

/-- The agent of a domain with a request outstanding in the fabric. -/
def Tile.agentBusy (x : Tile) (d : Nat) : Option Nat :=
  (x.reqs.find? fun p => agentDom ⟨p.agent % 64, Nat.mod_lt _ (by decide)⟩ == some d).map (·.agent)

/-- The reason and the agent ID with which an entry is refused, if it is. -/
def State.entryRefusal (s : State) (t : TileId) (d : DomId) (busy : Option (Fin 64)) : Option (Nat × Nat) :=
  let x := s.tile t
  let fab := (busy.map (·.val)).orElse fun _ => x.agentBusy d.val
  match fab, x.childUp d.val with
  | some a, _ => some (0x01, 0x40 + a)
  | none, some c => some (0x02, c)
  | none, none =>
    if (x.dom d).dbgHold then some (0x03, 0x80)
    else if s.domPosted t d.val then some (0x04, 0xC0)
    else none

/-- Count a refusal. -/
def State.refuseEntry (s : State) (t : TileId) (d : DomId) (reason agent : Nat) : State :=
  s.onDom t d fun y => { y with phase := .stable, refused := satInc y.refused, lastReason := reason, refuser := agent }

/-! ### Contents lost in OFF (R366) -/

/-- Forget what a tier of a tile holds: its bytes, its poison and, for new reads, what was zeroed before. -/
def State.forgetTier (s : State) (t : TileId) (tier : Nat) : State :=
  let here (a : Nat) : Bool := addrTile a == t.val && addrTier a == tier
  let s := s.bump
  { s with
    mem := s.mem.filter fun c => !here c.1
    poison := s.poison.filter fun u => !here (64 * u)
    segs := s.segs.map fun e =>
      if e.2.tier = tier ∧ bit e.2.tiles t.val = true then (e.1, { e.2 with zeroFill := false, allocTick := s.tick }) else e }

/-- The reset state of an idle core's registers and regions. -/
def Core.lose (k : Core) (tick : Nat) : Core :=
  { k with
    x := Vector.replicate 32 0, v := Vector.replicate 32 0, pc := 0, fxcsr := 0, vact := 0, vshape := 0, vresume := 0, rowbase := 0
    vrem := 0, frame := [], data := [], code := none, lines := [], miss := none, dataTick := tick, dataZero := false }

/-- Its local memory zeroed with fresh ECC: firmware reloads the code before the next call (R381). -/
def Core.zeroed (k : Core) : Core := { k with frame := [], data := [], code := none, lines := [], miss := none, dataZero := true }

/-- One core of a tile: 0 to 15 the Sumen-S cores, 16 to 19 the Sumen-L cores. -/
def Tile.onCore (x : Tile) (n : Nat) (f : Core → Core) : Tile :=
  if n < 16 then { x with small := vecOf fun i : Fin 16 => if i.val = n then f x.small[i] else x.small[i] }
  else { x with large := vecOf fun i : Fin 4 => if i.val + 16 = n then f x.large[i] else x.large[i] }

/-- BLK_CTL of the blocks of a domain returns to reset. -/
def State.resetCtl (s : State) (t : TileId) (d : Nat) : State :=
  (domBlocks d).foldl (fun s k =>
    let b := blockNo t.val k
    s.setBlock b { s.block b with applyMode := false, group := 0 }) s

/-- The slots that hold keys. -/
def State.loadedKeys (s : State) : List Nat := s.keys.map (·.1)

def Digest.loseView (d : Digest) : Digest :=
  { d with
    viewHmac := false, viewSlot := 0, viewDesc := 0, viewBusy := false, viewDone := false, early := false, viewCode := 0, viewOut := []
    preempts := 0 }

/-! ### Working SRAM pages that are lost (R381) -/

/-- The bank of working SRAM in which a page lies: banks of 3 MiB hold 192 pages. -/
def pageBank (qid pipe tile page : Nat) : Nat := sramFrame qid pipe tile page / 192

/-- A page of a pipeline's sink on the tile lies in a lost bank. A page that holds records of attempts not verified only is none: their
morsels are run again. -/
def PipeState.lostPage (ps : PipeState) (op : Op) (qid k t : Nat) (lost : Nat → Bool) : Bool :=
  let gone (page : Nat) : Bool := lost (pageBank qid k t page)
  let known (r : List Byte) : Bool := ps.verified.contains ((recFrom r).2.1, (recFrom r).2.2)
  let bad (p : Page) : Bool := !p.spilled && gone p.id && p.recs.any known
  (ps.parts.any fun b => b.tile == t && (b.closed ++ b.open_.toList).any bad) ||
    ((({ ps with parts := [] } : PipeState).pages op).any fun x => x.1 == t && !x.2.2 && gone x.2.1)

/-- The first pipeline of a query that owns verified pages in the lost banks of a tile. -/
def Query.lostPipe (q : Query) (t : Nat) (lost : Nat → Bool) : Option Nat :=
  (List.range q.pipes.length).find? fun k => (q.pipe k).lostPage (q.img.pipes.getD k default).sink q.qid k t lost

/-- A page of records that the run's attempt has left in a partition buffer of the tile lies in a lost bank. -/
def PipeState.lostPart (ps : PipeState) (r : Run) (pe t : Nat) (lost : Nat → Bool) : Bool :=
  ps.parts.any fun b => b.tile == t && (b.closed ++ b.open_.toList).any fun p =>
    !p.spilled && lost (pageBank r.qid r.pipe t p.id) && p.recs.any fun x => recFrom x == (pe, r.at_.morsel, r.attempt)

/-- The page of a running morsel's own table and staging, which the spec does not number (log 95). -/
def stagingPage (m : Nat) : Nat := 2 ^ 40 + m

/-- A PE's morsel has pages in the lost banks of a tile: its own, on its tile, or records that it has sent to the tile. -/
def State.lostRun (s : State) (t : TileId) (lost : Nat → Bool) (g : Gpe) : Bool :=
  match s.run? g with
  | none => false
  | some r =>
    (gpeTile g == t && lost (pageBank r.qid r.pipe t.val (stagingPage r.at_.morsel))) ||
    ((s.query? r.qid).any fun q => (q.pipe r.pipe).lostPart r g.val t.val lost)

/-- Queries with verified pages in lost banks fail with RETENTION_LOST; morsels with pages there that are not verified are abandoned.
Where pages lie is open (log 95). -/
def State.losePages (s : State) (t : TileId) (lost : Nat → Bool) : State :=
  let s := (s.queries.filter fun q => !q.failing).foldl (fun s q => match q.lostPipe t.val lost with
    | some k => s.failQuery q.qid { s.failure stRetentionLost 0 with pipe := k, op := (q.img.pipes.getD k default).sinkIx }
    | none => s) s
  let gone := (List.range 128).filter fun n => s.lostRun t lost (gpeN n)
  gone.foldl (fun s n => s.abandon (gpeN n)) s

/-- Some query has verified pages in the lost banks of a tile: a command fails (R381). -/
def State.pagesHit (s : State) (t : TileId) (lost : Nat → Bool) : Bool := s.queries.any fun q => !q.failing && (q.lostPipe t.val lost).isSome

/-- The poison of lost banks goes with their contents. -/
def State.freshBanks (s : State) (t : TileId) (lost : Nat → Bool) : State :=
  s.onTile t fun x => { x with sramPoison := x.sramPoison.filter fun l => !lost (sramBank (64 * l)) }

/-! ### Segment Map copies that are lost (R381) -/

/-- An entry of a lost copy is written from the other two, or poisoned when they differ (R148). -/
def State.rebuildEntry (s : State) (t : TileId) (ix id : Nat) : State :=
  let a := s.copyBytes t ((ix + 1) % 3) id
  if a = s.copyBytes t ((ix + 2) % 3) id then s.setCopy t ix id a
  else (s.setCopy t ix id (leBytes 32 0)).poisonEntry t id

/-- The entries of a tile whose copies differ. -/
def State.splitEntries (s : State) (t : TileId) : List Nat :=
  ((s.mapCopies.filter fun e => e.1 / 262144 / 3 == t.val).map fun e => e.1 % 262144).eraseDups

/-- One copy is rewritten from the other two by the vote. -/
def State.rebuildCopy (s : State) (t : TileId) (ix : Nat) : State := (s.splitEntries t).foldl (fun s id => s.rebuildEntry t ix id) s

/-- One copy starts from reset: zeros. -/
def State.clearCopy (s : State) (t : TileId) (ix : Nat) : State :=
  let ids := ((s.segs.map (·.1)) ++ s.splitEntries t).eraseDups
  ids.foldl (fun s id => s.setCopy t ix id (leBytes 32 0)) s

/-! ### What a domain loses -/

/-- The banks of a bank group. -/
def groupBanks (d : Nat) (b : Nat) : Bool := b / 8 + 20 == d

/-- The contents that a mismatching bank, zeroed with fresh ECC, takes with it (R381). -/
def State.loseSram (s : State) (t : TileId) (d : DomId) : State :=
  let n := d.val
  if n < 20 then s.onTile t fun x => x.onCore n Core.zeroed
  else match n with
    | 47 => s.rebuildCopy t 0
    | 48 => s.rebuildCopy t 1
    | 49 => s.rebuildCopy t 2
    | 50 => s.onTile t fun x => { x with keyHoles := s.loadedKeys }
    | 51 => s.onSched t fun c => { c with trace := [] }
    | _ => s

/-- Counters that a domain holds return to reset. -/
def Tile.loseCounts (x : Tile) (d : Nat) : Tile :=
  match d with
  | 32 => { x with edges := x.edges |> vecMap fun e => { e with crc := 0, replay := 0, retrain := 0, drop := 0 } }
  | 45 => { x with
      classLeft := [0, 0, 0]
      small := x.small |> vecMap fun c => { c with faults := 0, wmiss := 0 }
      large := x.large |> vecMap fun c => { c with faults := 0, wmiss := 0 } }
  | _ => x

/-- Configuration that a domain holds returns to reset, its counters with it. -/
def Tile.loseRegs (x : Tile) (d : Nat) : Tile :=
  match d with
  | 43 => { x with msixMask := [], msixPend := [] }
  | 45 => { x.loseCounts d with wgt := [0x10, 4, 1], wgtShadow := [0x10, 4, 1] }
  | _ => x.loseCounts d

/-- Everything a domain loses in OFF: a wake starts it from reset values (R366). -/
def State.loseDom (s : State) (t : TileId) (d : DomId) : State :=
  let s := (s.resetCtl t d.val).onTile t fun x => x.loseRegs d.val
  if d.val < 20 then (s.bump).onTile t fun x => x.onCore d.val fun k => k.lose s.tick
  else if d.val < 28 then (s.losePages t (groupBanks d.val)).freshBanks t (groupBanks d.val)
  else match d.val with
  | 30 => s.onDigest t Digest.loseView
  | 40 => s.forgetTier t 0
  | 41 => s.forgetTier t 1
  | 42 => s.forgetTier t 1
  | 47 => s.clearCopy t 0
  | 48 => s.clearCopy t 1
  | 49 => s.clearCopy t 2
  | 50 => s.onTile t fun x => { x with keyHoles := s.loadedKeys }
  | 51 => s.onSched t fun c => { c with trace := [] }
  | 46 => s.onSched t fun c => { c with stealEn := true, traceEn := true, mask := 0x07FE, offers := [], offered := none }
  | _ => s

/-! ### The end of an entry (R372) -/

/-- Isolation to rail-down: the domain is in RET or OFF, with signatures taken when RET_SIG_EN asks for them (R380). -/
def State.commitEntry (s : State) (t : TileId) (d : DomId) (toOff : Bool) : State :=
  let sig := s.feat.retSigEn && !toOff && (s.dom t d).st == .on
  let s := s.onTile t fun x => (x.onDom d fun y =>
    { y with st := if toOff then .off else .ret, phase := if y.wakeFail then .failed else .stable, entered := true, sigTaken := sig
             pending := if toOff then [] else y.pending }).settle
  if toOff then s.loseDom t d else s

/-- The edge of a STIRRUP domain. -/
def domEdge (d : DomId) : Option EdgeId := if h : 36 ≤ d.val ∧ d.val < 40 then some ⟨d.val - 36, by omega⟩ else none

/-- Send a link power message to the partner of an edge (R481, R489). -/
def State.sendPwr (s : State) (t : TileId) (e : EdgeId) (mtype : Nat) : State :=
  match s.far t e with
  | some p => s.sendEdge t e 4 (msgBytes mtype
      { vc := 4, len := 16, srcTile := t, srcAgent := ⟨32 + e.val, by omega⟩, dstTile := p.1, dstAgent := ⟨32 + p.2.val, by omega⟩
        slice := 0, sgen := 0, queue := 0, qgen := 0 } [])
  | none => s

/-- An entry after its checks. A STIRRUP domain asks its partner first to enter RET, and tells it that the link goes down before OFF
(R489). -/
def State.enterDom (s : State) (t : TileId) (d : DomId) : State :=
  let toOff := (s.dom t d).target == .off
  match domEdge d with
  | some e =>
    if (s.edge t e).up then
      if toOff then
        ((s.emit (.sideband t.val e.val 0 [])).onEdge t e fun x => { x with st := .down }).commitEntry t d true
      else
        ((s.sendPwr t e 0x40).onEdge t e fun x => { x with sleeping := true }).onDom t d fun y => { y with phase := .entering }
    else if toOff ∧ (s.edge t e).st = .l1 then
      ((s.emit (.sideband t.val e.val 0 [])).onEdge t e fun x => { x with st := .down }).commitEntry t d true
    else s.commitEntry t d toOff
  | none => s.commitEntry t d toOff

/-- One try of an entry: the checks, then the entry or its refusal (R372, R373). -/
def State.tryEntry (s : State) (t : TileId) (d : DomId) (busy : Option (Fin 64)) : State :=
  if s.seqOn t = false ∨ (s.dom t d).entryDue = false then s
  else match s.entryRefusal t d busy with
    | some r => s.refuseEntry t d r.1 r.2
    | none => s.enterDom t d

/-! ### Failed wakes (R379) -/

/-- The function of a domain is lost on the tile and logged as a unit fence (R379). -/
def State.fenceFunc (s : State) (t : TileId) (d kind index : Nat) : State :=
  s.fenceUnit t kind index fun f => { f with funcs := insertRising f.funcs d }

/-- The effect of a domain that stays OFF (table "Wake failure effects"). -/
def State.failUnit (s : State) (t : TileId) (d : DomId) : State :=
  let n := d.val
  if n < 16 then s.fencePe (gpeN (16 * t.val + n))
  else if n < 20 then s.fenceLarge t (n - 16)
  else if n < 28 then ((List.range 8).foldl (fun s i => s.retireBank t (8 * (n - 20) + i)) s).losePages t (groupBanks n)
  else if 32 ≤ n ∧ n < 36 then s.cutOff t
  else if 36 ≤ n ∧ n < 40 then s.fenceEdge t ⟨(n - 36) % 4, Nat.mod_lt _ (by decide)⟩
  else match n with
    | 28 => s.fenceUnit t 0x03 0 fun f => { f with sort := true }
    | 29 => s.fenceCodec t
    | 30 => s.fenceDigest t
    | 41 => s.loseDdr t 0
    | 42 => s.loseDdr t 1
    | 47 => s.fenceFunc t 47 0x0B 0
    | 48 => s.fenceFunc t 48 0x0B 1
    | 49 => s.fenceFunc t 49 0x0B 2
    | 51 | 52 | 54 | 55 => s.fenceFunc t n 0x00 0
    | _ => s.loseTile t

/-! ### Retention losses (R381) -/

/-- A retention loss of a domain: RET_LOST, its count and its record. -/
def State.lostRet (s : State) (t : TileId) (d : DomId) (kind bank sev : Nat) : State :=
  (s.onDom t d fun y => { y with retLost := true, lostCnt := min 0xFFFF (y.lostCnt + 1) }).logErr t
    { errRec evRetentionLost sev with data := leBytes 1 d.val ++ leBytes 1 kind ++ leBytes 1 bank }

/-- One bank of a bank group is lost. -/
def State.loseBank (s : State) (t : TileId) (d : DomId) (b : Nat) : State :=
  let lost (x : Nat) : Bool := x == 8 * (d.val - 20) + b
  let s := s.lostRet t d 0 b (if s.pagesHit t lost then 2 else 1)
  (s.losePages t lost).freshBanks t lost

/-- The loss of the banks whose signature does not match (table "Retention loss"): SEV 2 where a command fails. HMACs that start later
fail with the keys of a key store. -/
def State.loseBanks (s : State) (t : TileId) (d : DomId) (banks : List Nat) : State :=
  if banks.isEmpty then s
  else if 20 ≤ d.val ∧ d.val < 28 then (banks.filter (· < 8)).foldl (fun s b => s.loseBank t d b) s
  else (banks.foldl (fun s b => s.lostRet t d 0 b (if d.val = 50 then 2 else 1)) s).loseSram t d

/-- A strobe that a block of the domain latched is applied when the domain wakes (R46). -/
def State.applyPending (s : State) (t : TileId) (d : DomId) : State :=
  let gs := (s.dom t d).pending
  let s := (domBlocks d.val).foldl (fun s k => if gs.contains (s.blockGroup t.val k) then s.applyBlock t k else s) s
  s.onDom t d fun y => { y with pending := [] }

/-- A link leaves L1 once the STIRRUP domains of both its sides are ON (R489); a side that is not is woken by the FABRIC voter. -/
def State.leaveL1 (s : State) (t : TileId) (e : EdgeId) : State :=
  match s.far t e with
  | none => s
  | some p =>
    if (s.edge t e).st ≠ .l1 ∨ (s.edge p.1 p.2).st ≠ .l1 then s
    else if s.domOn p.1 (domStir p.2.val) = false then s.castVote p.1 (domN (domStir p.2.val)) 3 2
    else
      let up (s : State) (u : TileId) (f : EdgeId) : State := s.onEdge u f fun x => ({ x with st := .active } : Edge).settled
      ((up (up s t e) p.1 p.2).pumpEdge t e).pumpEdge p.1 p.2

end Sys2Proof.Machine
end

