-- ==== Sys2Proof/Machine/Flits.lean ====
section
/-! DEFINITION. Stirrup links: messages as they leave the link layer (R480 to R482), flits with acknowledgement, replay and credits
(R472 to R479), training and link states (R485 to R489), and routes (R468, R469). -/

namespace Sys2Proof.Machine

/-! ### Delivery -/

def fin32 (n : Nat) : Fin 32 := ⟨n % 32, Nat.mod_lt _ (by decide)⟩

/-- A CINCH message at its tile (R481). -/
def State.deliverCinch (s : State) (h : MsgHdr) (b : List Byte) : State :=
  let ep := field b 20 2
  match byteAt b 16 with
  | 1 => resState (execCinchPrepare h.dstTile (byteAt b 17) (byteAt b 18) ep s) s
  | 2 => resState (execCinchReady h.srcTile ep s) s
  | 3 => resState (execCinchRefuse h.srcTile ep (byteAt b 19) s) s
  | 4 => resState (execCinchPulse h.dstTile ep s) s
  | 5 => resState (execCinchApplied h.srcTile ep (field b 24 4) s) s
  | 6 => resState (execCinchAbort h.dstTile ep s) s
  | 7 => resState (execCinchCommit h.dstTile ep s) s
  | 8 => resState (execCinchHalt h.dstTile h.srcTile (byteAt b 18) s) s
  | _ => s

/-- The fields of STEAL_GRANT (R481). -/
def grantOf (b : List Byte) : GrantBody :=
  { qid := field b 18 2, pipe := byteAt b 20, prio := byteAt b 21, order := byteAt b 22 % 4, eclass := byteAt b 22 / 4 % 8
    attempt := byteAt b 22 / 32 % 4, age := byteAt b 23 % 32, home := byteAt b 23 / 32, morsel := field b 24 4, seq := field b 28 8
    est := field b 36 4 }

/-- A message reaches its destination tile (R481): what its row does. -/
def State.deliver (s : State) (b : List Byte) : State :=
  let h := readHdr b
  let tag := field b 16 2
  let pe := gpeN (byteAt b 18)
  match byteAt b 0 with
  | 0x01 => resState (execRdLine h tag (field b 24 8) s) s
  | 0x02 => resState (execWrLine h tag (field b 24 8) (BitVec.ofNat 64 (field b 32 8)) (cut b 40 64) s) s
  | 0x03 => resState (execRegRd h tag (field b 20 4) s) s
  | 0x04 => resState (execRegWr h tag (field b 20 4) (BitVec.ofNat 32 (field b 24 4)) s) s
  | 0x11 => resState (execRdData h tag (byteAt b 18) (cut b 24 64) s) s
  | 0x12 => resState (execWrAck h tag (byteAt b 18) s) s
  | 0x13 => resState (execRegData h tag (byteAt b 18) (BitVec.ofNat 32 (field b 20 4)) s) s
  | 0x14 => resState (execXack h tag pe (byteAt b 19) (field b 20 4) (field b 24 4) s) s
  | 0x20 => resState (execXrec h tag (fin32 (byteAt b 18)) (field b 20 2) (b.drop 24) s) s
  | 0x30 => s.deliverCinch h b
  | 0x31 => resState (execXtallyReq h tag pe (byteAt b 19) (field b 20 4) s) s
  | 0x32 => resState (execXchgTally h tag pe (byteAt b 19) (field b 20 4) (field b 24 8) (field b 32 8) s) s
  | 0x33 => resState (execBarrier h tag (fin32 (byteAt b 18)) s) s
  | 0x34 => resState (execEmitBase h tag (fin32 (byteAt b 18)) (field b 24 8) s) s
  | 0x35 => resState (execSchedState h (byteAt b 16) (toSigned 16 (field b 18 2)) (toSigned 32 (field b 20 4)) (field b 24 4) s) s
  | 0x36 => resState (execStealReq h tag (byteAt b 18) s) s
  | 0x37 => resState (execStealGrant h tag (grantOf b) s) s
  | 0x38 => resState (execStealRefuse h tag s) s
  | 0x3E => resState (execBootData h (field b 16 8) (b.drop 24) s) s
  | 0x3F => resState (execFwMsg h tag (field b 18 2) (b.drop 20) s) s
  | _ => s

/-! ### Sleep (R489) -/

/-- The edge holds no message for the link and no unacknowledged flit. -/
def Edge.quiet (e : Edge) : Bool := e.held.isEmpty && e.modules.toList.all fun m => m.replay.isEmpty

/-- SLEEP_REQ: answered with SLEEP_ACK and L1, or SLEEP_NAK. -/
def sleepReqEff (t : TileId) (e : EdgeId) (s : State) : State :=
  if (s.edge t e).up = false then s
  else if (s.edge t e).quiet then (s.sendPwr t e 0x41).onEdge t e fun x => { x with st := .l1 }
  else s.sendPwr t e 0x42

/-- SLEEP_ACK: the modules go to L1, and the entry runs to its end. -/
def sleepAckEff (t : TileId) (e : EdgeId) (s : State) : State :=
  if (s.edge t e).sleeping then
    (s.onEdge t e fun x => { x with sleeping := false, st := .l1 }).commitEntry t (domN (domStir e.val)) false
  else s

/-- SLEEP_NAK, or no answer: the entry is refused with FABRIC_OUTSTANDING and the edge's agent ID. -/
def sleepNoEff (t : TileId) (e : EdgeId) (s : State) : State :=
  if (s.edge t e).sleeping then
    (s.onEdge t e fun x => { x with sleeping := false }).refuseEntry t (domN (domStir e.val)) 0x01 (0x40 + 32 + e.val)
  else s

/-! ### Messages that leave the link layer (R482) -/

/-- A message passes the receiving edge's checks. -/
def State.msgOk (s : State) (b : List Byte) : Bool :=
  let ty := byteAt b 0
  let len := field b 2 2
  (msgVc ty == some (byteAt b 1) || (0x40 ≤ ty && ty ≤ 0x42 && byteAt b 1 == 4)) &&
  decide ((msgLen ty).1 ≤ len ∧ len ≤ (msgLen ty).2 ∧ len % 4 = 0 ∧ len ≤ 512) && s.presentNo (byteAt b 6)

/-- A message is dropped: STIR_DROP and a LINK_ERROR record (R482). What its loss does follows R490. -/
def State.dropMsg (s : State) (t : TileId) (e : EdgeId) (b : List Byte) : State :=
  ((s.onEdge t e fun x => { x with drop := satInc x.drop }).logErr t { errRec evLinkError 1 with kind := 0x0A, index := e.val }).loseMsg b

/-- A good message: transit traffic goes on, the rest is delivered here. -/
def State.takeMsg (s : State) (t : TileId) (e : EdgeId) (b : List Byte) : State :=
  if byteAt b 6 ≠ t.val then (if (s.tile t).relays then s.forward t b else s.loseMsg b)
  else match byteAt b 0 with
    | 0x40 => sleepReqEff t e s
    | 0x41 => sleepAckEff t e s
    | 0x42 => sleepNoEff t e s
    | _ => s.deliver b

/-- Cut received bytes into messages (R474): whole messages, whether one could not be read, and what is left. A byte 0x00 where a
message would begin pads the rest. -/
def splitMsgs (ok : List Byte → Bool) : Nat → List Byte → List (List Byte) × Option (List Byte) × List Byte
  | 0, _ => ([], none, [])
  | fuel + 1, bs =>
    match bs with
    | [] => ([], none, [])
    | b :: _ =>
      if b = 0 then ([], none, [])
      else if bs.length < 8 then ([], none, bs)
      else if ok bs = false then ([], some bs, [])
      else
        let len := field bs 2 2
        if bs.length < len then ([], none, bs)
        else
          let r := splitMsgs ok fuel (bs.drop len)
          (bs.take len :: r.1, r.2)

/-! ### Flits (R472 to R479) -/

/-- A flit as its fields. -/
structure Flit where
  seq     : Nat
  ack     : Nat
  idle    : Bool
  nak     : Bool
  foff    : Nat
  cvc     : Nat
  ccnt    : Nat
  payload : List Byte
  deriving DecidableEq, Repr

/-- Read a flit; none when its CRC fails (R473). -/
def readFlit (b : List Byte) : Option Flit :=
  if b.length ≠ 256 ∨ crc64 (b.take 248) ≠ field b 248 8 then none
  else
    let w := field b 0 4
    some
      { seq := bits w 7 0, ack := bits w 15 8, idle := bit w 16, nak := bit w 17, foff := bits w 23 18, cvc := bits w 26 24
        ccnt := bits w 31 27, payload := cut b 4 244 }

/-- The flits that an ACKSEQ covers are released (R475). -/
def Module.acked (m : Module) (ack : Nat) : Module :=
  match m.replay.findIdx? fun k => k.seq == ack with
  | some i =>
    let r := m.replay.drop (i + 1)
    { m with replay := r, sends := if r.isEmpty then 0 else 1 }
  | none => m

/-- Credits that a flit returns (R479). -/
def Module.credit (m : Module) (v ccnt : Nat) : Module :=
  if 4 < v then m
  else
    { m with
      credits := m.credits.set v (m.credits.getD v 0 + (ccnt + 32 - m.lastCcnt.getD v 0) % 32), lastCcnt := m.lastCcnt.set v ccnt }

/-- Replay starts, or the module is retrained when its oldest flit has been sent four times (R475, R477). -/
def State.replayAgain (s : State) (t : TileId) (e : EdgeId) (i : Nat) : State :=
  let m := (s.edge t e).module i
  if m.replay.isEmpty then s
  else if 4 ≤ m.sends then s.startRetrain t e i
  else
    (s.onEdge t e fun x => { x.onModule i fun m => { m with sends := m.sends + 1 } with replay := satInc x.replay }).resend t e i

/-- Send an IDLE flit: an acknowledgement, or one with NAK (R475, R476). -/
def State.sendIdle (s : State) (t : TileId) (e : EdgeId) (i : Nat) (nak : Bool) : State :=
  let f := ((s.edge t e).module i).flit 1 0 nak 63 []
  (s.setModule t e i f.2).emit (.flit t.val e.val i f.1)

/-- The first flit that cannot be accepted is answered with NAK, once (R475). -/
def State.sendNak (s : State) (t : TileId) (e : EdgeId) (i : Nat) : State :=
  if ((s.edge t e).module i).nakSent then s
  else (s.onEdge t e fun x => x.onModule i fun m => { m with nakSent := true }).sendIdle t e i true

/-- Credit units to report back for the receive buffer that a message frees, taken or dropped (R479). -/
def freeUnits (owed : List Nat) (b : List Byte) : List Nat :=
  owed.set (byteAt b 1) (owed.getD (byteAt b 1) 0 + ceilDiv (field b 2 2) 64)

/-- The payload of an accepted flit: whole messages are taken, the rest waits for the next flit (R474, R482). A dropped message gives its
buffer units back too, as a drop never stops the link. -/
def State.takePayload (s : State) (t : TileId) (e : EdgeId) (i foff : Nat) (payload : List Byte) : State :=
  let m := (s.edge t e).module i
  if m.skip ∧ foff = 63 then s
  else
    let data := if m.skip then payload.drop (4 * foff) else m.partial_ ++ payload
    let r := splitMsgs s.msgOk (data.length / 16 + 1) data
    let owed := (r.1 ++ r.2.1.toList).foldl freeUnits m.owed
    let s := s.onEdge t e fun x => x.onModule i fun m => { m with partial_ := r.2.2, skip := r.2.1.isSome, owed := owed }
    let s := r.1.foldl (fun s b => s.takeMsg t e b) s
    match r.2.1 with
    | some b => s.dropMsg t e b
    | none => s

/-- A received flit. -/
def flitEff (t : TileId) (e : EdgeId) (i : Nat) (bytes : List Byte) (s : State) : State :=
  match readFlit bytes with
  | none => (s.onEdge t e fun x => { x with crc := satInc x.crc }).sendNak t e i
  | some f =>
    let s := s.onEdge t e fun x => x.onModule i fun m => (m.acked f.ack).credit f.cvc f.ccnt
    let s := if f.nak then s.replayAgain t e i else s
    let m := (s.edge t e).module i
    let s :=
      if f.idle then s
      else if f.seq ≠ (m.lastAck + 1) % 256 then s.sendNak t e i
      else
        let s := s.onEdge t e fun x => x.onModule i fun m => { m with lastAck := f.seq, nakSent := false }
        (s.takePayload t e i f.foff f.payload).sendIdle t e i false
    s.pumpEdge t e

/-- A module receives flits: its edge is up, and it is active and not in retrain. -/
def State.modUp (s : State) (t : TileId) (e : EdgeId) (m : ModuleId) : Bool :=
  s.present t && s.dev.mode != .cold && (s.edge t e).up && ((s.edge t e).module m.val).active && !((s.edge t e).module m.val).training

/-- DATA_FLIT (R475). -/
def execDataFlit (t : TileId) (e : EdgeId) (m : ModuleId) (bytes : List Byte) (s : State) : Res :=
  .next (if s.modUp t e m then flitEff t e m.val bytes s else s)

/-- IDLE_FLIT (R472). -/
def execIdleFlit (t : TileId) (e : EdgeId) (m : ModuleId) (bytes : List Byte) (s : State) : Res :=
  .next (if s.modUp t e m = true ∧ ((readFlit bytes).all (·.idle)) = true then flitEff t e m.val bytes s else s)

/-- REPLAY_TIMEOUT (R475). -/
def execReplayTimeout (t : TileId) (e : EdgeId) (m : ModuleId) (s : State) : Res :=
  .next (if s.modUp t e m then s.replayAgain t e m.val else s)

/-- A retrain that succeeds: credits are set again, and the module resumes from its oldest unacknowledged flit (R477, R479). -/
def retrainDone (t : TileId) (e : EdgeId) (i : Nat) (s : State) : State :=
  let s := s.onEdge t e fun x => (x.onModule i fun m =>
    { m with
      training := false, failed := 0, credits := x.cred, lastCcnt := [0, 0, 0, 0, 0], freed := [0, 0, 0, 0, 0], owed := [0, 0, 0, 0, 0]
      nakSent := false, sends := if m.replay.isEmpty then 0 else 1 }).settled
  (s.resend t e i).pumpEdge t e

/-- A retrain that fails: it runs again, or after the second in a row the module is to be disabled (R477). -/
def retrainFailed (t : TileId) (e : EdgeId) (i : Nat) (s : State) : State :=
  (s.rollVerify t).onEdge t e fun x =>
    let y := x.onModule i fun m =>
      { m with
        failed := m.failed + 1, retrains := m.retrains + 1
        doomed := m.doomed || decide (2 ≤ m.failed + 1) || decide (16 ≤ m.retrains + 1) }
    { y with stopped := y.modules.toList.any Module.spent, retrain := if (y.module i).failed < 2 then satInc x.retrain else x.retrain }

/-- MODULE_RETRAIN (R477): the retrain in progress on a module ends. -/
def execModuleRetrain (t : TileId) (e : EdgeId) (m : ModuleId) (ok : Bool) (s : State) : Res :=
  .next (if ((s.edge t e).module m.val).training = true ∧ (s.edge t e).up = true then
    (if ok then retrainDone t e m.val s else retrainFailed t e m.val s) else s)

/-- MODULE_DISABLE (R478): once every other module's replay buffer is empty. -/
def execModuleDisable (t : TileId) (e : EdgeId) (m : ModuleId) (s : State) : Res :=
  .next (
    let x := s.edge t e
    let idle := (List.range 6).all fun i => i == m.val || (x.module i).replay.isEmpty
    if x.up = true ∧ (x.module m.val).spent = true ∧ idle = true then s.disableModule t e m.val else s)

/-! ### Routes (R468, R469) -/

/-- The neighbour over an edge whose link is in use for routing: neither side fenced, and both tiles relay. -/
def State.linkTo (s : State) (t e : Nat) : Option Nat :=
  let te : EdgeId := ⟨e % 4, Nat.mod_lt _ (by decide)⟩
  match s.partner (tid t) te with
  | some u =>
    if (s.edge (tid t) te).st = .fenced ∨ (s.edge u (oppositeEdge te)).st = .fenced ∨ (s.tile (tid t)).relays = false ∨
      (s.tile u).relays = false then none else some u.val
  | none => none

/-- Neighbours of a tile with their edges. -/
def State.links (s : State) (t : Nat) : List (Nat × Nat) := (List.range 4).filterMap fun e => (s.linkTo t e).map fun u => (e, u)

/-- Tiles reached from a set, one hop further. -/
def State.spread (s : State) (l : List Nat) : List Nat := l.foldl (fun a t => (s.links t).foldl (fun a p => insertRising a p.2) a) l

/-- Hops from the root, by levels of the breadth-first search. -/
def State.levelF (s : State) (t : Nat) : Nat → Nat → List Nat → Nat
  | 0, n, _ => n
  | fuel + 1, n, l => if l.contains t then n else s.levelF t fuel (n + 1) (s.spread l)

/-- The place of a tile in the up*/down* order rooted at the master: its level, then its number. -/
def State.updownRank (s : State) (root t : Nat) : Nat := 8 * s.levelF t 8 0 [root] + t

/-- Hops from a tile to another over links that all lead down; 8 or more when there is no such way. -/
def State.downHops (s : State) (root : Nat) : Nat → Nat → Nat → Nat
  | 0, a, b => if a = b then 0 else 9
  | fuel + 1, a, b =>
    if a = b then 0
    else ((s.links a).filter fun p => s.updownRank root a < s.updownRank root p.2).foldl
      (fun m p => min m (1 + s.downHops root fuel p.2 b)) 9

/-- The up*/down* route from a tile: down when a way down exists, by the fewest hops, else up to the neighbour first in the order
(log 31). -/
def State.updownEdge (s : State) (root a b : Nat) : Option Nat :=
  let down := (s.links a).filter fun p => s.updownRank root a < s.updownRank root p.2 && decide (s.downHops root 7 p.2 b < 8)
  match minBy (fun (p : Nat × Nat) => s.downHops root 7 p.2 b) down with
  | some p => some p.1
  | none => (minBy (fun (p : Nat × Nat) => s.updownRank root p.2)
      ((s.links a).filter fun p => s.updownRank root p.2 < s.updownRank root a)).map (·.1)

/-- Tiles that the links join to the root. -/
def State.reached (s : State) (root : Nat) : List Nat := (List.range 8).foldl (fun l _ => s.spread l) [root]

/-- A tile's new table. -/
def State.updownTable (s : State) (root a : Nat) : List Route :=
  (List.range 8).map fun b =>
    if a = b then { local_ := true, updown := true }
    else if !(s.reached root).contains a || !(s.reached root).contains b then { none_ := true, updown := true }
    else match s.updownEdge root a b with
      | some e => { edge := e, updown := true }
      | none => { none_ := true, updown := true }

/-- Column-first routes: along the row to the destination's column, then N or S (R468). -/
def columnTable (present : Nat) (a : Nat) : List Route :=
  (List.range 8).map fun b =>
    if a = b then { local_ := true }
    else if !bit present b then { none_ := true }
    else { edge := if a % 4 < b % 4 then 1 else if b % 4 < a % 4 then 3 else if a < b then 2 else 0 }

/-- The Cinch change that applies new routes. -/
def routeChange : Change := { code := 2, arg := 31, origin := .device }

/-- New routes over the links that remain: the tiles that they leave unreachable from the master are fenced, and the tables go out by
strobe group 31. -/
def routeEff (s : State) : State :=
  let root := s.masterTile.val
  let cut := s.liveTiles.filter fun t => !(s.reached root).contains t.val
  let s := cut.foldl State.loseTile s
  if s.dev.mode = .halt then s
  else
    let s' := s.presentTiles.foldl (fun s' t => s'.onTile t fun x => { x with routeNext := s.updownTable root t.val }) s
    if routeChange ∈ s'.dev.waiting then s' else s'.require routeChange

/-- A link is fenced, or a tile no longer relays. -/
def State.routesBroken (s : State) : Bool :=
  s.presentTiles.any fun t => !(s.tile t).relays || (s.tile t).edges.toList.any fun e => e.st == .fenced

/-- ROUTE_UPDATE (R468). -/
def execRouteUpdate (s : State) : Res :=
  .next (if s.dev.mode ≠ .cold ∧ s.dev.mode ≠ .halt ∧ s.dev.mode ≠ .test ∧ s.routesBroken = true then routeEff s else s)

/-! ### Training and link states (R485 to R489) -/

/-- An incompatible partner (R486). -/
def State.paramsBad (s : State) (t : TileId) (e : EdgeId) (b : List Byte) : Bool :=
  field b 0 2 != 1 || (s.partner t e).any (fun u => u.val != byteAt b 2) ||
  (List.range 5).any (fun v => decide (field b (8 + 2 * v) 2 < 8)) || (byteAt b 5 != 0 && s.dev.mode != .test)

/-- LINK_PARAMS (R486), while the link is not in use. -/
def execLinkParams (t : TileId) (e : EdgeId) (body : List Byte) (s : State) : Res :=
  .next (
    if s.seqOn t = false ∨ (s.partner t e).isNone = true ∨ (s.edge t e).up = true ∨ (s.edge t e).st = .l1 ∨ (s.edge t e).st = .fenced then s
    else if s.paramsBad t e body then s.fenceEdge t e
    else s.onEdge t e fun x =>
      { x with partner := byteAt body 2, kind := byteAt body 5 % 2, cred := (List.range 5).map fun v => field body (8 + 2 * v) 2 })

/-- A module as training leaves it (R485 step 6). -/
def freshModule (cred : List Nat) : Module := { active := true, credits := cred }

/-- A link has trained with the given modules (R485): it is ACTIVE, or fenced with no module left. -/
def State.linkUp (s : State) (t : TileId) (e : EdgeId) (mods : List Bool) : State :=
  let s := s.onEdge t e fun x =>
    { x with
      st := .active, rate := 32, stopped := false, sleeping := false, partner := ((s.partner t e).map (·.val)).getD 0
      modules := vecOf fun i : Fin 6 => if mods.getD i.val false then freshModule x.cred else {} }
  if (s.edge t e).actives.isEmpty then s.fenceEdge t e else (s.revote t).pumpEdge t e

/-- LINK_TRAINED (R488): a link trains again after NIGHTWATCH or a LINK_DOWN, and its held traffic is released. -/
def execLinkTrained (t : TileId) (e : EdgeId) (modules : List Bool) (s : State) : Res :=
  .next (if s.seqOn t = true ∧ (s.partner t e).isSome = true ∧ ((s.edge t e).st = .down ∨ (s.edge t e).st = .training) ∧
      s.domOn t (domStir e.val) = true then s.linkUp t e modules else s)

/-- LINK_DOWN (R489). -/
def execLinkDown (t : TileId) (e : EdgeId) (s : State) : Res :=
  .next (if s.seqOn t = true ∧ (s.edge t e).trained = true then
    (s.onEdge t e fun x => { x with st := .down, sleeping := false }).revote t else s)

/-- SIDEBAND_CTL (R488): a CTL message of up to 64 B. -/
def execSidebandCtl (t : TileId) (e : EdgeId) (msg : List Byte) (s : State) : Res :=
  .next (
    if s.seqOn t = false ∨ (s.partner t e).isNone = true ∨ (s.edge t e).st = .active ∨ 64 < msg.length then s
    else if s.msgOk msg = true ∧ byteAt msg 1 = 3 ∧ msg.length = field msg 2 2 then s.takeMsg t e msg
    else s.dropMsg t e msg)

/-- SLEEP_REQ (R489). -/
def execSleepReq (t : TileId) (e : EdgeId) (s : State) : Res := .next (sleepReqEff t e s)

/-- SLEEP_ACK (R489). -/
def execSleepAck (t : TileId) (e : EdgeId) (s : State) : Res := .next (sleepAckEff t e s)

/-- SLEEP_NAK (R489). -/
def execSleepNak (t : TileId) (e : EdgeId) (s : State) : Res := .next (sleepNoEff t e s)

/-- SLEEP_TIMEOUT (R489): no answer within 10 µs, as a refusal. -/
def sleepTimeoutEff (t : TileId) (e : EdgeId) (s : State) : State := sleepNoEff t e s

def execSleepTimeout (t : TileId) (e : EdgeId) (s : State) : Res := .next (sleepTimeoutEff t e s)

/-- LEAVE_L1 (R489): the partner wakes the link, so the FABRIC voter wakes the STIRRUP domain. -/
def execLeaveL1 (t : TileId) (e : EdgeId) (s : State) : Res :=
  .next (
    let d := domN (domStir e.val)
    if (s.edge t e).st = .l1 then (if s.domOn t d.val then s.leaveL1 t e else s.castVote t d 3 2) else s)

end Sys2Proof.Machine
end

