-- ==== Sys2Proof/Machine/Power.lean ====
section
/-! DEFINITION. Commands of the power domains: entry and its refusal (R372 to R375), ramp slots and wakes (R376, R377), failed wakes (R379),
and the votes that end by themselves (R368, R415). -/

namespace Sys2Proof.Machine

/-! ### Entry -/

/-- DOMAIN_ENTRY (R372). -/
def execDomainEntry (t : TileId) (d : DomId) (busy : Option (Fin 64)) (s : State) : Res := .next (s.tryEntry t d busy)

/-- ENTRY_RECHECK (R373). -/
def execEntryRecheck (t : TileId) (d : DomId) (busy : Option (Fin 64)) (s : State) : Res := .next (s.tryEntry t d busy)

/-- The traffic held at a domain's mesh port is released (R367, R376 step 7). -/
def State.release (s : State) (t : TileId) (d : DomId) : State :=
  let mine := (s.tile t).portHeld.filter fun p => p.1 == d.val
  let s := s.onTile t fun x => { x with portHeld := x.portHeld.filter fun p => p.1 != d.val }
  mine.foldl (fun s p => s.deliver p.2) s

/-- QUIESCE_TIMEOUT (R374): the entry aborts, counted with reason FABRIC_OUTSTANDING, and the domain stays ON. -/
def execQuiesceTimeout (t : TileId) (d : DomId) (agent : Fin 64) (s : State) : Res :=
  .next (if s.seqOn t = true ∧ (s.dom t d).st = .on ∧ (s.dom t d).entryDue = true then
    (s.onDom t d fun y =>
      { y with phase := .stable, aborted := satInc y.aborted, lastReason := 0x01, refuser := 0x40 + agent.val }).release t d
    else s)

/-- LATE_WAKE (R375): the target returned to ON while the entry ran. -/
def execLateWake (t : TileId) (d : DomId) (s : State) : Res :=
  .next (
    let y := s.dom t d
    if s.seqOn t = true ∧ y.entered = true ∧ y.st ≠ .on ∧ y.target = .on ∧ y.wakeFail = false then
      s.onDom t d fun y => { y with phase := .waking, lateWakes := satInc y.lateWakes, entered := false }
    else s)

/-! ### Wake -/

/-- Every parent of a domain is ON (R364). -/
def Tile.parentsOn (x : Tile) (d : Nat) : Bool := (domParents d).all x.domOn

/-- A domain waits for a ramp slot (R376 step 1, R377). -/
def State.wantsRamp (s : State) (t : TileId) (d : DomId) : Bool :=
  let y := s.dom t d
  y.st != .on && !y.ramping && !y.wakeFail && (y.phase == .waking || (y.phase == .stable && y.target == .on)) &&
  !s.domNever t d && (s.tile t).parentsOn d.val

/-- PD_CTL.MAX_RAMPS as it acts: 0 is taken as 1, values above 4 as 4 (R392). -/
def Tile.ramps (x : Tile) : Nat := max 1 (min 4 x.maxRamps)

/-- RAMP_SLOT (R377): the lowest waiting domain starts its ramp while fewer than MAX_RAMPS run. No vote is met in HALT (R370). -/
def execRampSlot (t : TileId) (d : DomId) (s : State) : Res :=
  .next (
    let running := ((s.tile t).doms.toList.filter (·.ramping)).length
    if s.seqOn t = true ∧ s.dev.mode ≠ .halt ∧ s.wantsRamp t d = true ∧ (allDoms.all fun c => decide (d ≤ c) || !s.wantsRamp t c) = true ∧
        running < (s.tile t).ramps then
      (s.onTile t fun x => (x.onDom d fun y => { y with phase := .waking, ramping := true, entered := false }).settle)
    else s)

/-- The registers of a domain at reset values after a parity error; firmware rewrites its configuration (R381). -/
def Core.resetRegs (k : Core) : Core :=
  { k with
    x := Vector.replicate 32 0, v := Vector.replicate 32 0, pc := 0, fxcsr := 0, vact := 0, vshape := 0, vresume := 0, rowbase := 0
    vrem := 0, miss := none }

def State.resetRegs (s : State) (t : TileId) (d : DomId) : State :=
  let n := d.val
  if n < 20 then s.onTile t fun x => x.onCore n Core.resetRegs
  else
    match n with
    | 30 => s.onDigest t Digest.loseView
    | 46 => s.onSched t fun c => { c with offers := [], offered := none }
    | _ => s.onTile t fun x => x.loseCounts n

/-- What the wake finds lost (R381): parity of the retention latches, then the signatures taken at the entry. -/
def State.checkRetention (s : State) (t : TileId) (d : DomId) (parityError : Bool) (badBanks : List Nat) : State :=
  let y := s.dom t d
  if y.st ≠ .ret then s
  else
    let s := if parityError then (s.resetRegs t d).lostRet t d 1 0 1 else s
    if y.sigTaken then s.loseBanks t d badBanks else s

def domainWakeEff (t : TileId) (d : DomId) (parityError : Bool) (badBanks : List Nat) (s : State) : State :=
  let s := s.checkRetention t d parityError badBanks
  let s := s.onTile t fun x => (x.onDom d fun y =>
    { y with
      st := .on, phase := .stable, ramping := false, tries := 0, wakes := satInc y.wakes, entered := false, sigTaken := false }).settle
  let s := s.applyPending t d
  let s := match domEdge d with
    | some e => s.leaveL1 t e
    | none => s
  s.release t d

/-- DOMAIN_WAKE (R376). -/
def execDomainWake (t : TileId) (d : DomId) (parityError : Bool) (badBanks : List Nat) (s : State) : Res :=
  .next (
    let y := s.dom t d
    if s.seqOn t = true ∧ y.phase = .waking ∧ y.ramping = true ∧ (s.tile t).parentsOn d.val = true then
      domainWakeEff t d parityError badBanks s
    else s)

/-! ### Failed wakes (R379) -/

/-- Domains held OFF with a failed one: its children, and theirs. -/
def domBelow (d : Nat) : List Nat := (domChildren d).flatMap fun c => c :: domChildren c

/-- A child of a failed domain is held OFF, and its unit is treated as failed. -/
def State.holdOff (s : State) (t : TileId) (c : Nat) : State :=
  let d := domN c
  let s := if (s.dom t d).st = .off then s else s.loseDom t d
  (s.onDom t d fun y => { y with st := .off, phase := .stable, ramping := false, entered := false }).failUnit t d

/-- After the second retry the domain stays OFF; a record of SEV 3 takes the device to DEGRADED (R331). -/
def State.wakeFailed (s : State) (t : TileId) (d : DomId) (step : Nat) : State :=
  let s := s.onTile t fun x => (x.onDom d fun y => { y with wakeFail := true, phase := .failed }).settle
  let s := (s.logErr t { errRec evWakeFail 3 with data := [BitVec.ofNat 8 d.val, BitVec.ofNat 8 step, 3] }).degrade
  (domBelow d.val).foldl (fun s c => s.holdOff t c) (s.failUnit t d)

def wakeStepTimeoutEff (t : TileId) (d : DomId) (step : Nat) (s : State) : State :=
  let s := if (s.dom t d).st = .ret then s.loseDom t d else s
  let tries := (s.dom t d).tries + 1
  let s := s.onDom t d fun y =>
    { y with st := .off, phase := .retryWait, ramping := false, tries := tries, failStep := step, sigTaken := false, pending := [] }
  if 3 ≤ tries then s.wakeFailed t d step else s

/-- WAKE_STEP_TIMEOUT (R379): the steps that wait are 2, 4 and 6. -/
def execWakeStepTimeout (t : TileId) (d : DomId) (step : Fin 8) (s : State) : Res :=
  .next (if s.seqOn t = true ∧ (s.dom t d).phase = .waking ∧ (s.dom t d).ramping = true ∧
      (step.val = 2 ∨ step.val = 4 ∨ step.val = 6) then
    wakeStepTimeoutEff t d step.val s else s)

/-- WAKE_RETRY (R379): the wake runs again from step 2. -/
def execWakeRetry (t : TileId) (d : DomId) (s : State) : Res :=
  .next (if s.seqOn t = true ∧ (s.dom t d).phase = .retryWait then
    s.onTile t fun x => (x.onDom d fun y => { y with phase := .waking, retries := satInc y.retries }).settle
    else s)

/-! ### Votes that end by themselves -/

/-- The fabric holds traffic for a domain: at its mesh port, at its edge, or as a write to one of its blocks. -/
def State.fabricHas (s : State) (t : TileId) (d : DomId) : Bool :=
  ((s.tile t).portHeld.any fun p => p.1 == d.val) || s.domPosted t d.val || ((domEdge d).any fun e => !(s.edge t e).held.isEmpty)

/-- FABRIC_VOTE_WITHDRAW (R368). -/
def execFabricVoteWithdraw (t : TileId) (d : DomId) (s : State) : Res :=
  .next (if s.fabricHas t d then s else s.castVote t d 3 0)

/-- SL_IDLE_EXPIRY (R415): in ACTIVATE the core is held at at-least-RET (R365). -/
def execSlIdleExpiry (t : TileId) (k : Fin 4) (s : State) : Res :=
  .next (
    let c := (s.tile t).large[k]
    if c.call = none ∧ c.queue = [] ∧ c.idleAt + 1000 * s.feat.slIdle ≤ s.now then
      s.castVote t (domN (16 + k.val)) 1 (if s.dev.mode = .activate then 1 else 0)
    else s)

end Sys2Proof.Machine
end

