-- ==== Sys2Proof/Machine/Monitors.lean ====
section
/-! DEFINITION. Monitors (R383 to R387), the rails of R519, and Nightwatch (R388 to R390, R513). -/

namespace Sys2Proof.Machine

/-- The AON domain of a tile runs (R364, R365). -/
def State.aonUp (s : State) (t : TileId) : Bool := s.present t && s.dev.mode != .cold

/-! ### Thermal samples (R383 to R385) -/

/-- Sensors 0 to 3 lie in the AON domain, 4 to 23 in MON_EXT. -/
def Tile.sensorOn (x : Tile) (i : Nat) : Bool := decide (i < 4) || x.domOn 55

/-- A reading after a sample: without its domain, VALID is clear and the last value stays. -/
def Reading.take (r : Reading) (on : Bool) (v : Option Int) : Reading :=
  match v with
  | some i => if on then { value := toSigned 16 (ofSigned 16 i), valid := true } else { r with valid := false }
  | none => { r with valid := false }

/-- The highest valid sample with its sensor, the lowest number first. -/
def hottest (l : List Reading) : Option (Nat × Int) :=
  l.zipIdx.foldl (fun m r =>
    if r.1.valid = false then m
    else match m with
      | none => some (r.2, r.1.value)
      | some b => if b.2 < r.1.value then some (r.2, r.1.value) else m) none

/-- THR_HI as it acts: values above 110.0 °C are taken as 110.0 °C (R392). -/
def Mon.hi (m : Mon) : Int := min m.thrHi 880

/-- THR_FREQ as it acts, 6 to 22 (R392). -/
def Mon.freq (m : Mon) : Nat := max 6 (min 22 m.thrFreq)

/-- 115.0 °C in units of 0.125 °C (R385). -/
def tripLevel : Int := 920

def Mon.anyAt (m : Mon) (level : Int) : Bool := m.temps.any fun r => r.valid && decide (level ≤ r.value)

/-- The mean of a window; its rounding is not stated (log 32). -/
def Mon.mean (m : Mon) : Int :=
  if m.winSum < 0 then -(roundFree (-m.winSum).toNat m.winCnt : Int) else (roundFree m.winSum.toNat m.winCnt : Int)

/-- An averaging window ends (R387): the mean, and the end of a throttle when every valid sample was below THR_LO (R384). -/
def Mon.endWindow (m : Mon) : Mon :=
  if m.winCnt = 0 then m
  else
    let m := { m with avgTj := m.mean }
    let m := if m.throttle ∧ m.winCool then { m with throttle := false, clock := 0 } else m
    { m with winSum := 0, winCnt := 0, winCool := true }

/-- The length of an averaging window, ns (R387). -/
def Mon.avgNs (m : Mon) : Nat := max 1 (min 100 m.avgMs) * 1000000

/-- The averaging window that holds a time is in force: an earlier one ends first (R9, R387). -/
def Mon.roll (m : Mon) (now : Nat) : Mon := if m.winAt = now / m.avgNs then m else { m.endWindow with winAt := now / m.avgNs }

/-- One sample set: readings, TJ_MAX, the averaging window, the throttle and the alert. `setting` is the clock of the DVFS profile. -/
def Mon.sample (m : Mon) (now setting : Nat) (temps : List Reading) : Mon :=
  let m := { m.roll now with temps := temps, sampleAt := now / 10000 * 10000 }
  let m := match hottest temps with
    | some h => { m with tjSensor := h.1, tjMax := h.2, winSum := m.winSum + h.2, winCnt := m.winCnt + 1 }
    | none => m
  let m := { m with winCool := m.winCool && temps.all fun r => !r.valid || decide (r.value < m.thrLo) }
  let m := if m.thrEn ∧ m.anyAt m.hi = true then
      { m with throttle := true, clock := min (if m.clock = 0 then setting else m.clock) (min setting m.freq) }
    else m
  if m.alertEn ∧ m.anyAt m.alertT = true then { m with alert := true } else m

/-- A sensor has two consecutive valid samples at the trip level. -/
def Mon.trips (m : Mon) (temps : List Reading) : Bool :=
  temps.zipIdx.any fun r => r.1.valid && decide (tripLevel ≤ r.1.value) && m.tripped.getD r.2 false

/-- THERMTRIP_N goes low: HALT with cause 0x04, and every head switch of every tile opens (R385). -/
def State.thermtrip (s : State) (t : TileId) : State :=
  let s := s.onTile t fun x => { x with mon := { x.mon with trip := true } }
  let s : State := { s with pins := { s.pins with thermtripN := false } }
  (s.halt t 0x04).presentTiles.foldl (fun s u => s.onTile u Tile.openAll) (s.halt t 0x04)

def thermalEff (t : TileId) (temps : List Int) (s : State) : State :=
  let x := s.tile t
  let rs := x.mon.temps.zipIdx.map fun r => r.1.take (x.sensorOn r.2) temps[r.2]?
  let trip := x.mon.trips rs
  let tripped := x.mon.tripped.zipIdx.map fun b =>
    let r := rs.getD b.2 {}
    if r.valid then decide (tripLevel ≤ r.value) else b.1
  let s := s.onTile t fun x => { x with mon := { x.mon.sample s.now x.sched.peFreq rs with tripped := tripped } }
  if trip then s.thermtrip t else s

/-- THERMAL_SAMPLE (R383). -/
def execThermalSample (t : TileId) (temps : List Int) (s : State) : Res := .next (if s.aonUp t then thermalEff t temps s else s)

/-- THROTTLE_STEP (R384): 0.1 GHz lower while a sample stays at or above THR_HI, down to 0.6 GHz. -/
def execThrottleStep (t : TileId) (s : State) : Res :=
  .next (
    let m := (s.tile t).mon
    if s.aonUp t = true ∧ m.throttle = true ∧ m.anyAt m.hi = true then
      s.onTile t fun x => { x with mon := { x.mon with clock := max 6 (x.mon.clock - 1) } }
    else s)

/-- MONITOR_AVERAGE_WINDOW_END (R387). -/
def execMonitorAverageWindowEnd (t : TileId) (s : State) : Res :=
  .next (if s.aonUp t then s.onTile t fun x => { x with mon := x.mon.roll s.now } else s)

/-- The level of ALERT_N: low while the ERR or MON block of any tile, or the NW block, drives it (R336, R384, R389); COLD releases it. -/
def State.alertN (s : State) : Bool :=
  s.dev.mode == .cold || !(s.nw.alert || s.presentTiles.any fun t => (s.tile t).err.alert || (s.tile t).mon.alert)

/-! ### Other monitors -/

/-- Take readings, valid while their domain is ON. -/
def takeAll (on : Bool) (old : List Reading) (vs : List (Option Int)) : List Reading :=
  old.zipIdx.map fun r => r.1.take on (vs.getD r.2 none)

def natReadings (l : List Nat) : List (Option Int) := l.map fun (n : Nat) => some (n : Int)

/-- SUPPLY_SAMPLE (R383): the eight channels of MON_EXT in mV. -/
def execSupplySample (t : TileId) (mv : List Nat) (s : State) : Res :=
  .next (if s.aonUp t then
    s.onTile t fun x => { x with mon := { x.mon with supply := takeAll (x.domOn 55) x.mon.supply (natReadings mv) } }
    else s)

/-- PROCESS_MONITOR_SAMPLE (R383): the sixteen oscillators of MON_EXT. -/
def execProcessMonitorSample (t : TileId) (counts : List Nat) (s : State) : Res :=
  .next (if s.aonUp t then
    s.onTile t fun x => { x with mon := { x.mon with proc := takeAll (x.domOn 55) x.mon.proc (natReadings counts) } }
    else s)

/-- HBM_TEMPERATURE_READ (R383), while the HBM domain is ON. -/
def execHbmTemperatureRead (t : TileId) (c8 : Int) (s : State) : Res :=
  .next (if s.aonUp t = true ∧ s.domOn t 40 = true then s.onTile t fun x => { x with mon := { x.mon with hbm := c8 } } else s)

/-- DROOP (R386): two detectors to a PE island. -/
def execDroop (t : TileId) (det : Fin 32) (s : State) : Res :=
  .next (if s.aonUp t = true ∧ (s.tile t).mon.droopEn = true ∧ s.domOn t (det.val / 2) = true then
    s.onTile t fun x => { x with mon := { x.mon with
      droops := x.mon.droops.set det.val (satInc (x.mon.droops.getD det.val 0)), stretched := x.mon.stretched.set det.val true } }
    else s)

/-- DROOP_RELEASE (R386). -/
def execDroopRelease (t : TileId) (det : Fin 32) (s : State) : Res :=
  .next (s.onTile t fun x => { x with mon := { x.mon with stretched := x.mon.stretched.set det.val false } })

/-! ### Regulators (R519) -/

/-- The rails of the part (R518): VDD_Tt by tile, 8 VDD_FAB, 9 VDDQ_DDR, 10 + n VDD_HBMn, 18 + n VDDQ_HBMn, then the PCIe analog rails,
VDD_AON and VDD_IO. -/
def State.railsOf (s : State) : List Nat :=
  let ts := s.presentTiles.map (·.val)
  ts ++ [8, 9] ++ ts.map (10 + ·) ++ ts.map (18 + ·) ++ [26, 27, 28, 29]

/-- Tile 0 is the PMBus master while its AON domain runs. -/
def State.pmbusUp (s : State) : Bool := s.aonUp 0

/-- PMB_ALERT (R519): tile 0 reads STATUS_WORD from every regulator; `status` holds the answers in rail order. -/
def execPmbAlert (status : List Nat) (s : State) : Res :=
  .next (if s.pmbusUp then
    let s' := s.emitAll (s.railsOf.map Out.pmbusStatus)
    (s.railsOf.zip status).foldl (fun s r =>
      { s with rails := tblSet {} s.rails r.1 { tblGet s.rails r.1 {} with status := r.2 % 65536 } }) s'
    else s)

/-- PMBUS_READING (R519): the last pair of readings of a rail, for the calibration of R347. -/
def execPmbusReading (rail mv ma : Nat) (s : State) : Res :=
  .next (if s.pmbusUp = true ∧ s.railsOf.contains rail = true then
    { s with rails := tblSet {} s.rails rail { tblGet s.rails rail {} with mv := mv, ma := ma } }
    else s)

/-! ### Nightwatch -/

/-- The value that a threshold entry compares, in its source's units (R390). -/
def NwThr.value (e : NwThr) (x : NwSample) : Option Int :=
  match e.src with
  | 0 => x.temps.getD e.index none
  | 1 => (x.supply.getD e.index none).map fun (n : Nat) => (n : Int)
  | 2 => (x.rings.getD e.index none).map fun (n : Nat) => (n : Int)
  | _ => (x.temps.filterMap id).foldl (fun m v => some (match m with | none => v | some w => max w v)) none

/-- The entry's condition against one sample (R390). -/
def NwThr.met (e : NwThr) (x : NwSample) : Bool :=
  let level : Int := if e.src = 0 ∨ e.src = 3 then toSigned 16 e.level else (e.level : Int)
  (e.value x).any fun v => if e.below then decide (v < level) else decide (level ≤ v)

/-- An entry after a period: how many consecutive periods its condition has held. -/
def NwThr.after (e : NwThr) (samples : List NwSample) : NwThr :=
  let hit := e.en && samples.any fun x => x.tile.val == e.tile && e.met x
  { e with held := if hit then min 15 (e.held + 1) else 0 }

/-- The condition has held for PERSIST consecutive periods; 0 is taken as 1 (R389, R390). -/
def NwThr.trips (e : NwThr) : Bool := e.en && decide (max 1 e.persist ≤ e.held)

/-- The monitors of a tile after its Nightwatch sample: a source without a reading was not sampled. -/
def Mon.nwSample (m : Mon) (x : NwSample) : Mon :=
  { m with
    temps := takeAll true m.temps x.temps
    supply := takeAll true m.supply (x.supply.map fun v => v.map fun (n : Nat) => (n : Int))
    proc := takeAll true m.proc (x.rings.map fun v => v.map fun (n : Nat) => (n : Int)) }

/-- One tile's sequence of a period (R389): the vote on MON_EXT, its wake, the sample, and the vote withdrawn. -/
def State.nwTile (s : State) (x : NwSample) : State :=
  let t := x.tile
  let on := s.domOn t 55
  let s := s.castVote t (domN 55) 7 2
  let s := if on || (s.dom t (domN 55)).wakeFail then s
    else s.onDom t (domN 55) fun y => { y with st := .on, phase := .stable, ramping := false, entered := false, wakes := satInc y.wakes }
  (s.onTile t fun y => { y with mon := y.mon.nwSample x }).castVote t (domN 55) 7 0

/-- The change to READY that a tripped EXIT entry starts. -/
def nwExitChange : Change := modeChange .ready .device

/-- Without MON_EXT only sensors 0 to 3 are sampled (R379, R389). -/
def State.nwSeen (s : State) (x : NwSample) : NwSample :=
  if s.domOn x.tile 55 = true ∨ (s.dom x.tile (domN 55)).wakeFail = false then x
  else { x with temps := x.temps.zipIdx.map fun v => if v.2 < 4 then v.1 else none, supply := [], rings := [] }

def nightwatchEff (samples : List NwSample) (s : State) : State :=
  let samples := (samples.filter fun x => s.live x.tile).map s.nwSeen
  let s := samples.foldl State.nwTile s
  let thr := s.nw.thr.map fun e => e.after samples
  let trips := thr.zipIdx.filter fun e => e.1.trips
  let exits := trips.filter fun e => bit e.1.action 1
  let s : State := { s with nw := { s.nw with
    thr := thr, periods := (s.nw.periods + 1) % 2 ^ 32, alert := s.nw.alert || trips.any fun e => bit e.1.action 0 } }
  match exits with
  | [] => s
  | e :: _ =>
    if nwExitChange ∈ s.dev.waiting ∨ nwExitChange ∈ s.dev.retry ∨ s.dev.change ≠ none then s
    else ({ s with nw := { s.nw with cause := e.2 } } : State).require nwExitChange

/-- NIGHTWATCH_PERIOD (R389). -/
def execNightwatchPeriod (samples : List NwSample) (s : State) : Res :=
  .next (if s.dev.mode = .nightwatch then nightwatchEff samples s else s)

/-- NW_ENTER (R513): a write of NW_CTL that sets ENTER. -/
def execNwEnter (exitToo : Bool) (s : State) : Res := .next (s.postTo .nw 0x00 (if exitToo then 3 else 1))

/-- NW_EXIT (R513): a write of NW_CTL that sets EXIT. -/
def execNwExit (enterToo : Bool) (s : State) : Res := .next (s.postTo .nw 0x00 (if enterToo then 3 else 2))

end Sys2Proof.Machine
end

