-- ==== Sys2Proof/Machine/Reset.lean ====
section
/-! DEFINITION. Reset inputs, boot and host ports: COLD (R521, R523), DAWN (R48 to R54, R524), TRAIN (R55, R56, R137 to R139, R160),
PERST_N and host links (R525), and the fatal conditions of a tile (R62, R327). -/

namespace Sys2Proof.Machine

/-! ### COLD -/

/-- A store address of a persistent region of an expander (R139). -/
def State.persistentAddr (s : State) (a : Nat) : Bool :=
  addrTier a == 2 && ((s.tile (tid (addrTile a))).regionAt (addrOff a)).isSome

/-- What the persistent regions hold after power is lost: what a SEG_FLUSH has covered stands; of later writes each aligned 64 B unit
survives whole or not at all (R162, log 33). -/
def State.survivors (s : State) : Mem :=
  let which (a : Nat) : Nat := Config.freeRank s.tick (a / 64) % 3
  let keep (m : Mem) (p : Nat → Bool) : Mem := m.filter fun c => s.persistentAddr c.1 && p (which c.1)
  let staged := allTiles.flatMap fun t => keep (s.tile t).staging fun k => k == 2
  ((keep s.durable fun k => k == 0) ++ (keep s.mem fun k => k != 0) ++ staged).foldl (fun m c => memWrite m c.1 c.2) []

/-- EVIDENCE after a reset: a copy that had not ended leaves it empty (R522). -/
def State.evidenceLeft (s : State) : List Byte :=
  if s.dev.mode = .halt ∧ s.dev.evCopied = false ∧ s.tile0Dead = false then [] else s.flash.evidence

/-- A slot that an update had written in part fails R49 at the next boot (R521). -/
def State.flashLeft (s : State) : Flash :=
  let f := { s.flash with evidence := s.evidenceLeft }
  let bad (k : Slot) : Slot := { k with sigOk := false }
  if s.update.active ∧ s.update.written ∧ s.update.verified = false then
    (if s.update.slot = 0 then { f with slotA := bad f.slotA } else { f with slotB := bad f.slotB })
  else f

/-- Every tile enters COLD: volatile state is lost and every register is at its reset value (R36, R521). The expanders keep what they
hold, so the model keeps where each lay. -/
def State.cold (s : State) (pins : Pins) : State :=
  let left := s.survivors
  { State.reset with
    tiles := vecOf fun t : TileId => { resetTile with cxl := (s.tile t).cxl }
    pending := s.pending, man := s.man, tick := s.tick + 1, out := s.out, flash := s.flashLeft, mem := left, durable := left
    poison := s.poison.filter fun u => s.persistentAddr (64 * u)
    pins := { pins with
      pkgResetN := false, xspiResetN := false, dnrstN := List.replicate 8 false, gpioOut := 0xFF } }

/-- PWROK_LOW (R521, R523). -/
def execPwrokLow (ns : Nat) (s : State) : Res :=
  .next (if ns < 50 then s else s.cold { s.pins with pwrok := false, thermtripN := true })

/-- PKG_RESET_N_LOW (R523): THERMTRIP_N stays as it is until PWROK falls (R385). -/
def execPkgResetNLow (ns : Nat) (s : State) : Res :=
  .next (if ns < 50 then s
    else if s.pins.pwrok then s.cold s.pins
    else { s with pins := { s.pins with pkgResetN := false } })

/-! ### The configuration record (R51, R53) -/

def cfgLength (c : List Byte) : Nat := field c 8 4

/-- A copy is valid (R51). -/
def cfgValid (c : List Byte) : Bool :=
  field c 0 4 == 0x5A434647 && decide (16 ≤ cfgLength c ∧ cfgLength c ≤ 65536 ∧ cfgLength c ≤ c.length) &&
  crc32c (cut c 0 12 ++ cut c 16 (cfgLength c - 16)) == field c 12 4

/-- The record of a copy. -/
def cfgRecord (c : List Byte) : List Byte := c.take (cfgLength c)

/-- The copy that wins at boot, if any (R53). -/
def cfgWinner (copies : List (List Byte)) : Option (List Byte) :=
  let ok := (copies.filter cfgValid).map cfgRecord
  let top := ok.foldl (fun m c => max m (field c 4 4)) 0
  let best := ok.filter fun c => field c 4 4 == top
  match best with
  | [] => none
  | [c] => some c
  | a :: b :: r => if a = b ∨ a ∈ r then some a else if b ∈ r then some b else none

/-- CFG_RESULT (R53). -/
def cfgResultOf (copies : List (List Byte)) : Nat :=
  match cfgWinner copies with
  | none => 2
  | some w => if copies.all fun c => c.take w.length == w then 0 else 1

/-- The fields of a winning record (R51, R534). -/
def cfgOf (w : List Byte) : CfgInForce :=
  { seq := field w 4 4, bootSlot := byteAt w 16 % 2, portRole := byteAt w 17, pkgLimit := field w 18 2, ioSlew := byteAt w 64
    gpioOe := byteAt w 65, portCc := byteAt w 66, recovery := false, record := w }

/-- The package limit at boot (R349). -/
def State.bootLimit (s : State) (c : CfgInForce) : Nat :=
  let r := limitRange s.man.part
  if c.recovery = false ∧ r.1 ≤ c.pkgLimit ∧ c.pkgLimit ≤ r.2 then c.pkgLimit else r.1

/-- DAWN step 3: the configuration in force. -/
def State.readConfig (s : State) : State :=
  let copies := s.flash.config
  let c := match cfgWinner copies with
    | some w => cfgOf w
    | none => {}
  let s : State := { s with cfg := c, dev := { s.dev with cfgResult := cfgResultOf copies, limitW := s.bootLimit c } }
  if c.recovery then s.logErr 0 (errRec evCfgRecovery 1) else s

/-! ### DAWN -/

/-- The supervisor pair or the AON state of a tile has failed (R63). -/
def State.markDead (s : State) (t : TileId) : State := { s with dev := { s.dev with aonDead := setBit s.dev.aonDead t.val } }

/-- Slots in the order in which the boot ROM tries them (R50). -/
def bootOrder (recStrap : Bool) (slot : Nat) : List Nat :=
  let ab := [slot % 2, 1 - slot % 2]
  if recStrap then 2 :: ab else ab ++ [2]

/-- The first valid slot, and those that failed before it. -/
def State.trySlots (s : State) : List Nat → List Nat × Option Nat
  | [] => ([], none)
  | k :: r =>
    if (s.flash.slot k).valid s.man.minSvn then ([], some k)
    else
      let x := s.trySlots r
      (k :: x.1, x.2)

/-- Straps as sampled; undefined after a reset shorter than 1 µs (R523, R524, log 8). -/
def State.sampleStraps (s : State) (b : BootSeen) : State :=
  let n := Config.freeNat s.tick
  let free := decide (b.lowNs < 1000)
  { s with
    tick := s.tick + 1
    pins := { s.pins with
      pwrok := true, pkgResetN := true
      testStrap := if free then bit n 0 else b.test, recStrap := if free then bit n 1 else b.recovery
      smbAddr := if free then bits n 4 2 else b.smbAddr.val, boardId := if free then bits n 12 5 else b.gpio.toNat } }

/-- Fence the present tiles of a mask. -/
def State.fenceMask (s : State) (m : Nat) : State :=
  ((s.presentTiles.filter fun t => bit m t.val)).foldl (fun s t => s.fenceTile t) s

/-- Every tile is in a mode. -/
def State.allIn (s : State) (m : Mode) : State :=
  s.presentTiles.foldl (fun s t => s.onTile t fun x => { x with mode := m })
    { s with dev := { s.dev with mode := m, prev := .cold, target := modeCode m } }

/-- DAWN step 5: edges in boot mode, and the image on every tile (R487). -/
def State.bootLinks (s : State) (k : Slot) : State :=
  s.liveTiles.foldl (fun s t =>
    s.onTile t fun x =>
      { x with
        image := k.bytes
        edges := vecOf fun e : Fin 4 =>
          if (s.partner t e).any s.live then { x.edges[e] with st := .boot } else x.edges[e] }) s

def trainChange : Change := modeChange .train .device

/-- DAWN steps 4 to 7. -/
def State.loadImage (s : State) (b : BootSeen) : State :=
  let tried := s.trySlots (bootOrder s.pins.recStrap s.cfg.bootSlot)
  let s : State := { s with dev := { s.dev with aFail := tried.1.contains 0, bFail := tried.1.contains 1 } }
  match tried.2 with
  | none => s.halt 0 0x01
  | some k =>
    let sl := s.flash.slot k
    let s : State := { s with dev := { s.dev with bootSlot := k, svn := sl.svn, fwVersion := sl.version } }
    ((s.bootLinks sl).fenceMask b.imageFail.toNat).require trainChange

/-- The domains for which firmware votes ON are brought up (R365, log 14). -/
def State.wakeVoted (s : State) : State := s.revoteAll.presentTiles.foldl (fun s t => s.wakeTile t) s.revoteAll

/-- DAWN (R54). -/
def dawnEff (b : BootSeen) (s : State) : State :=
  let s := (s.allIn .dawn).wakeVoted
  if bit b.selfTestFail.toNat 0 then (s.markDead 0).halt 0 0x01
  else
    let s := s.fenceMask b.selfTestFail.toNat
    let s : State := { s with pins := { s.pins with xspiResetN := true } }
    s.readConfig.loadImage b

/-- PKG_RESET_N_RISE (R36, R524): TEST with the strap high, else DAWN. -/
def execPkgResetNRise (b : BootSeen) (s : State) : Res :=
  .next (if s.dev.mode = .cold ∧ 1000 ≤ b.highNs then
    let s := s.sampleStraps b
    if s.pins.testStrap then s.allIn .test else dawnEff b s
    else s)

/-! ### TRAIN (R55) -/

/-- Port roles (R17): the recovery defaults give tile 0 the host role and hold the other ports in reset (R53). -/
def State.takeRoles (s : State) : State :=
  { s with dev := { s.dev with hostRole := s.cfg.portRole &&& s.presentMask } }

/-- The port of a tile is a CXL root port. -/
def State.cxlRoot (s : State) (t : TileId) : Bool := s.present t && !s.cfg.recovery && !s.hostRole t

def trainSeen (seen : List TileTrain) (t : TileId) : TileTrain := seen.getD t.val default

/-- Modules of a link that trained on both sides (R485). -/
def trainedMods (seen : List TileTrain) (t : TileId) (e : EdgeId) (u : TileId) : List Bool :=
  (List.range 6).map fun m =>
    (((trainSeen seen t).modules.getD e.val []).getD m false) && (((trainSeen seen u).modules.getD (oppositeEdge e).val []).getD m false)

/-- Step 2: train one link from its north or west side. -/
def State.trainLink (s : State) (seen : List TileTrain) (t : TileId) (e : EdgeId) : State :=
  match s.partner t e with
  | none => s
  | some u =>
    if (s.edge t e).st = .fenced then s
    else
      let mods := trainedMods seen t e u
      if mods.any id then (s.linkUp t e mods).linkUp u (oppositeEdge e) mods else s.fenceEdge t e

def State.trainLinks (s : State) (seen : List TileTrain) : State :=
  s.presentTiles.foldl (fun s t => (s.trainLink seen t 1).trainLink seen t 2) s

/-- Routes in force from TRAIN: column first, or up*/down* once a link is fenced (R468). -/
def State.setRoutes (s : State) : State :=
  let root := s.masterTile.val
  s.presentTiles.foldl (fun s' t =>
    let l := if s.routesBroken then s.updownTable root t.val else columnTable s.presentMask t.val
    s'.onTile t fun x => { x with route := l, routeNext := l }) s

/-- Where a byte of a tile's CXL tier lies once its expanders are mapped anew: with the expander that holds it, unless another stands in
its place. -/
def movedTo (old new : List Expander) (seen : List ExpanderSeen) (off : Nat) : Option Nat :=
  match (old.zipIdx).find? fun e => decide (e.1.persAt ≤ off ∧ off < e.1.persAt + e.1.persB) with
  | none => none
  | some e =>
    match seen[e.2]?, new[e.2]? with
    | some v, some n =>
      if v.brought.isNone ∧ off - e.1.persAt < n.persB then some (n.persAt + (off - e.1.persAt)) else none
    | _, _ => none

/-- The bytes of the records that an expander from another device brings in its directory (R159, R160). -/
def broughtCells (t : TileId) (new : List Expander) (seen : List ExpanderSeen) : List Host.Cell :=
  (new.zip seen).flatMap fun e =>
    let at_ := storeAddr t.val 2 e.1.persAt
    ((e.2.brought.getD []).flatMap fun r => cut r 0 64).zipIdx.map fun b => (at_ + b.2, b.1)

/-- A memory as the expanders of a tile hold it once they are mapped anew. -/
def remapMem (t : TileId) (old new : List Expander) (seen : List ExpanderSeen) (m : Mem) : Mem :=
  let mine (c : Host.Cell) : Bool := addrTile c.1 == t.val && addrTier c.1 == 2
  let moved := (m.filter mine).filterMap fun c => (movedTo old new seen (addrOff c.1)).map fun o => (storeAddr t.val 2 o, c.2)
  (moved ++ broughtCells t new seen).foldl (fun m c => memWrite m c.1 c.2) (m.filter fun c => !mine c)

/-- TRAIN maps a tile's expanders (R139): what they hold lies where they are mapped now. -/
def State.insertExpanders (s : State) (t : TileId) (seen : List ExpanderSeen) : State :=
  let old := (s.tile t).cxl
  let new := mapExpanders seen
  let mine (u : Nat) : Bool := addrTile (64 * u) == t.val && addrTier (64 * u) == 2
  let bad := (s.poison.filter mine).filterMap fun u => (movedTo old new seen (addrOff (64 * u))).map fun o => storeAddr t.val 2 o / 64
  ({ s with
    mem := remapMem t old new seen s.mem, durable := remapMem t old new seen s.durable
    poison := bad.foldl insertRising (s.poison.filter fun u => !mine u) } : State).onTile t fun x => { x with cxl := new }

/-- Step 3 on one tile: DDR5 channels and CXL devices (R137 to R139). -/
def State.trainMemory (s : State) (seen : List TileTrain) (t : TileId) : State :=
  let v := trainSeen seen t
  let bad0 := bit v.ddrFail.val 0
  let bad1 := bit v.ddrFail.val 1
  let s := if bad0 then s.fenceUnit t 0x08 0 fun f => { f with ddr := setBit f.ddr 0 } else s
  let s := if bad1 then s.fenceUnit t 0x08 1 fun f => { f with ddr := setBit f.ddr 1 } else s
  let root := s.cxlRoot t
  let s := if root ∧ v.cxlFail then s.fenceUnit t 0x09 0 fun f => { f with cxl := true } else s
  let s : State := { s with pins := { s.pins with dnrstN := s.pins.dnrstN.set t.val root } }
  let s := s.insertExpanders t (if root && !v.cxlFail then v.expanders else [])
  s.onTile t fun x =>
    { x with
      ddr0Gib := if bad0 then 0 else v.dimm0Gib, ddr1Gib := if bad1 then 0 else v.dimm1Gib
      linkUp := s.hostRole t && v.hostTrained && s.pins.perstN.getD t.val false }

/-- Step 2's tile fences: a failed supervisor or HBM stack (R56). -/
def State.fenceFailed (s : State) (seen : List TileTrain) (t : TileId) : State :=
  let v := trainSeen seen t
  let s := if v.hbmFail then s.fenceUnit t 0x07 0 fun f => { f with hbm := true } else s
  if v.supervisorFail || v.hbmFail then s.fenceTile t else s

/-! ### Step 5: the Segment Map (R160) -/

/-- A directory record with the tile, region and slot that hold it. -/
structure DirAt where
  tile  : Nat
  reg   : Nat
  slot  : Nat
  bytes : List Byte
  deriving DecidableEq, Repr

def DirAt.segid (r : DirAt) : Nat := field r.bytes 32 4
def DirAt.seqNo (r : DirAt) : Nat := field r.bytes 40 8

/-- The slots of a directory in which something stands, in order. -/
def State.dirSlots (s : State) (t k : Nat) : List Nat :=
  let base := s.dirBase t k
  ((s.mem.filter fun c => decide (base ≤ c.1 ∧ c.1 < base + 64 * dirMax)).map fun c => (c.1 - base) / 64).foldl insertRising []

/-- The records that stand in the directory of a region. -/
def State.dirRecords (s : State) (t k : Nat) : List DirAt :=
  (s.dirSlots t k).map fun i => { tile := t, reg := k, slot := i, bytes := s.dirSlot t k i }

/-- Every record of a tile's directories. -/
def State.tileRecords (s : State) (t : TileId) : List DirAt :=
  ((s.tile t).cxl.zipIdx.filter fun e => decide (0 < e.1.persB)).flatMap fun e => s.dirRecords t.val e.2

/-- The record of a segment with the higher DSEQ; of equal ones the first in tile, region and slot order (log 87). -/
def dirBest (l : List DirAt) (id : Nat) : Option DirAt :=
  (l.filter fun r => r.segid == id).foldl (fun m r =>
    match m with
    | none => some r
    | some b => if b.seqNo < r.seqNo then some r else m) none

/-- Load the segment of a record to slice 0; it is charged there even beyond the quota (R160, R446). BASE is taken as it stands, whichever
tile's directory holds the record (log 88). -/
def State.loadSeg (s : State) (r : DirAt) : State :=
  let id := r.segid
  let g0 := Seg.ofBytes {} r.bytes
  let g := { g0 with
    slice := 0, dirty := false, fenced := false, allocTick := s.tick, ownerPasid := some (field r.bytes 36 4), charged := g0.chargeUnits }
  let s := s.setSeg id g
  let s : State := { s with segGen := tblSet 0 s.segGen id g.gen, dseq := max s.dseq ((r.seqNo + 1) % 2 ^ 64) }
  s.onSlc 0 fun y => ({ y with segUsed := y.segUsed + 1 } : Slice).charge g.tier (· + g.charged * unitB)

/-- A record is removed from its directory, and the removal is in the persistence domain. -/
def State.dropRecord (s : State) (r : DirAt) : State :=
  let s := s.logErr (tid r.tile) { errRec evDirConflict 1 with kind := 0x09, segid := r.segid }
  (s.dirTake r.tile r.reg r.slot).dirDurable r.tile r.reg r.slot

/-- A bad record is logged and ignored; of two records of one segment, the one with the lower DSEQ is removed and logged. -/
def State.readDirs (s : State) : State :=
  let all := s.liveTiles.flatMap s.tileRecords
  let s := (all.filter fun r => !dirRecordOk r.bytes).foldl (fun s r =>
    s.logErr (tid r.tile) { errRec evDirCrc 1 with kind := 0x09 }) s
  let ok := all.filter fun r => dirRecordOk r.bytes
  let good := ok.filter fun r => dirBest ok r.segid == some r
  let s := (ok.filter fun r => !good.contains r).foldl State.dropRecord s
  let s := good.foldl State.loadSeg s
  ((s.presentTiles.filter s.fencedT)).foldl (fun s t => s.loseSegs t.val none) s

/-- Copies that differ from the winner are rewritten during TRAIN (R53). -/
def State.rewriteConfig (s : State) : State :=
  if s.dev.cfgResult ≠ 1 then s
  else
    let w := s.cfg.record
    let outs := (s.flash.config.zip [0x00010000, 0x00020000, 0x00030000]).filter fun c => c.1.take w.length != w
    let s := s.emitAll (outs.map fun c => Out.flash c.2 w)
    ({ s with flash := { s.flash with config := s.flash.config.map fun c => if c.take w.length = w then c else w } } : State).logErr
      s.masterTile (errRec evCfgRewritten 1)

/-! ### The end of TRAIN -/

def readyChange : Change := modeChange .ready .device

/-- A host-role port of a live tile has trained. -/
def State.hostTrained (s : State) : Bool := s.liveTiles.any s.portUp

/-- Step 6, once a host-role port has trained (R55, R525). -/
def State.finishTrain (s : State) : State :=
  if s.dev.mode = .train ∧ s.dev.trained = true ∧ s.hostTrained = true ∧ readyChange ∉ s.dev.waiting ∧ readyChange ∉ s.dev.retry ∧
      s.dev.change ≠ some readyChange then s.require readyChange
  else s

def trainEff (seen : List TileTrain) (s : State) : State :=
  let s := s.takeRoles.wakeVoted
  let s := s.presentTiles.foldl (fun s t => s.fenceFailed seen t) s
  let s := s.trainLinks seen
  let cutOff := s.liveTiles.filter fun t => !(s.reached s.masterTile.val).contains t.val
  let s := (cutOff.foldl (fun s t => s.fenceTile t) s).setRoutes
  let s := s.liveTiles.foldl (fun s t => s.trainMemory seen t) s
  let s := s.readDirs.rewriteConfig
  ({ s with dev := { s.dev with trained := true } } : State).finishTrain

/-- TRAIN_SEQUENCE (R55). With no host-role port trained the device stays in TRAIN (R17). -/
def execTrainSequence (seen : List TileTrain) (s : State) : Res :=
  .next (if s.dev.mode = .train ∧ s.dev.phase = .idle ∧ s.dev.trained = false then trainEff seen s else s)

/-! ### Host ports (R525) -/

/-- The link of a host-role port goes up or down; firmware votes follow it (R364). -/
def State.setHostLink (s : State) (t : TileId) (up : Bool) : State := (s.onTile t fun x => { x with linkUp := up }).revote t

/-- The queues of a port are reset; in ACTIVATE after the return to the service mode (R60). -/
def State.portQueues (s : State) (t : TileId) : State :=
  if s.dev.mode = .activate then { s with dev := { s.dev with perstDue := setBit s.dev.perstDue t.val } }
  else if s.dev.mode = .halt then s
  else (s.resetPort t.val).registerAll

/-- PERST_N resets the MSI-X table of a port: no pending bit survives, and no vector is masked (R83, R525, log 84). -/
def State.resetMsix (s : State) (t : TileId) : State := s.onTile t fun x => { x with msixMask := [], msixPend := [] }

/-- The host has set the mask bits of a port's MSI-X table: a pending vector that is not masked any longer is sent (R83). -/
def State.maskMsix (s : State) (t : TileId) (masked : List Nat) : State :=
  let due := (s.tile t).msixPend.filter fun v => !masked.contains v
  due.foldl (fun s v => s.msix t.val v)
    (s.onTile t fun x => { x with msixMask := masked, msixPend := x.msixPend.filter fun v => masked.contains v })

/-- PERST_N_LOW: ignored on a tile that is absent or whose port is a CXL root port. -/
def execPerstNLow (t : TileId) (ns : Nat) (s : State) : Res :=
  .next (if ns < 50 ∨ s.present t = false then s
    else
      let s : State := { s with pins := { s.pins with perstN := s.pins.perstN.set t.val false } }
      if s.hostRole t then ((s.setHostLink t false).resetMsix t).portQueues t else s)

/-- PERST_N_RISE: the port may train again. -/
def execPerstNRise (t : TileId) (s : State) : Res :=
  .next (if s.present t then { s with pins := { s.pins with perstN := s.pins.perstN.set t.val true } } else s)

/-- HOST_LINK_UP: a host-role port with PERST_N high has trained, and the host has configured it, its MSI-X table included (log 84). -/
def execHostLinkUp (up : LinkSeen) (s : State) : Res :=
  .next (if s.live up.tile = true ∧ s.hostRole up.tile = true ∧ s.pins.perstN.getD up.tile.val false = true ∧ s.dev.mode ≠ .cold then
    ((s.setHostLink up.tile true).maskMsix up.tile up.masked).finishTrain else s)

/-- HOST_LINK_DOWN (R83, R364). -/
def execHostLinkDown (t : TileId) (s : State) : Res :=
  .next (if s.hostRole t = true ∧ (s.tile t).linkUp = true then s.setHostLink t false else s)

/-! ### Fatal conditions (R62, R327) -/

/-- Modes in which tiles run firmware. -/
def Mode.runs : Mode → Bool
  | .cold | .test | .halt => false
  | _ => true

/-- LOCKSTEP (R327): HALT with cause 0x02 on a healthy master, else the tile is fenced. -/
def execLockstep (t : TileId) (s : State) : Res :=
  .next (if s.dev.mode.runs = false ∨ s.present t = false then s
    else if s.live t = false then s.markDead t
    else if t = s.masterTile then ((s.logErr t { errRec evLockstep 5 with kind := 0x0E }).markDead t).halt t 0x02
    else ((s.logErr t { errRec evLockstep 4 with kind := 0x0E }).markDead t).loseTile t)

/-- AON_UNCORRECTABLE (R62). -/
def execAonUncorrectable (t : TileId) (s : State) : Res :=
  .next (if s.dev.mode.runs = true ∧ s.present t = true then (s.markDead t).halt t 0x05 else s)

end Sys2Proof.Machine
end

