-- ==== Sys2Proof/Machine/Mgmt.lean ====
section
/-! DEFINITION. The management endpoint (R63, R64, R527 to R530): MCTP control, PLDM sensors and effecters, the OEM commands and firmware
update. -/

namespace Sys2Proof.Machine

/-! ### The endpoint (R527) -/

/-- The tile that serves in place of tile 0: the master, the lowest live tile whose own AON domain and supervisor pair work (R43, R63). -/
def State.servingTile (s : State) : TileId := (s.liveTiles.find? fun t => !bit s.dev.aonDead t.val).getD 0

/-- The endpoint takes requests of a binding: tile 0 serves SMBus and every host-role port whose link is up; when tile 0's own AON domain or
supervisor pair has failed in HALT, the master serves its host-role port alone (R63). -/
def State.serves (s : State) (b : MgmtBinding) : Bool :=
  s.dev.mode != .cold &&
  match b with
  | .smbus => !(s.dev.mode == .halt && s.tile0Dead)
  | .vdm p => s.portUp p && (!(s.dev.mode == .halt && s.tile0Dead) || p == s.servingTile)

def State.reply (s : State) (b : MgmtBinding) (c : Code) (body : List Byte) : State := s.emit (.reply b c (.bytes body))

/-- Serve a command that HALT does not allow: there it is answered with ERROR_NOT_READY (R529). -/
def State.served (s : State) (b : MgmtBinding) (f : State → State) : State :=
  if s.serves b = false then s
  else if s.dev.mode = .halt then s.reply b .notReady []
  else f s

/-- Keep the endpoint ID that a control request assigns on its binding. -/
def Endpoint.assign (e : Endpoint) (b : MgmtBinding) (v : Byte) : Endpoint :=
  match b with
  | .smbus => { e with smbus := v }
  | .vdm p => { e with vdm := e.vdm.set p.val v }

/-- MCTP_CONTROL (R527, log 12). -/
def execMctpControl (b : MgmtBinding) (req : List Byte) (s : State) : Res :=
  .next (if s.serves b = false then s
    else
      let s := match Config.mctpEid req with
        | some v => { s with eid := s.eid.assign b v }
        | none => s
      s.reply b .success ((List.range (Config.mctpLen req)).map (Config.mctpReply req)))

/-! ### Sensors and effecters (R528) -/

/-- A sensor of a tile: none for an absent tile, and unavailable for a fenced one. -/
def State.tileSensor (s : State) (n : Nat) (f : Tile → Int) : Option (Option Int) :=
  if s.presentNo n = false then none
  else if s.fencedT (tid n) then some none
  else some (some (f (s.tile (tid n))))

/-- The sensors of the table "PLDM sensors and effecters": none where there is no such sensor. -/
def State.sensor (s : State) (id : Nat) : Option (Option Int) :=
  if 0x01 ≤ id ∧ id ≤ 0x08 then s.tileSensor (id - 0x01) fun x => x.mon.tjMax
  else if 0x11 ≤ id ∧ id ≤ 0x18 then s.tileSensor (id - 0x11) fun x => x.mon.hbm
  else if id = 0x20 then some (some (s.dev.meanW : Int))
  else if id = 0x21 then some (some (modeCode s.dev.mode : Int))
  else none

/-- PLDM_SENSOR_READ, answered in HALT too (R529). -/
def execPldmSensorRead (b : MgmtBinding) (id : Nat) (s : State) : Res :=
  .next (if s.serves b = false then s
    else match s.sensor id with
      | some v => s.emit (.reply b .success (.reading v))
      | none => s.reply b .invalidData [])

/-- POWER_LIMIT_EFFECTER (R349). -/
def execPowerLimitEffecter (b : MgmtBinding) (watts : Nat) (s : State) : Res :=
  .next (s.served b fun s =>
    let r := limitRange s.man.part
    if r.1 ≤ watts ∧ watts ≤ r.2 then ({ s with dev := { s.dev with limitW := watts } } : State).reply b .success []
    else s.reply b .invalidData [])

/-- MODE_EFFECTER (R528, R37). -/
def execModeEffecter (b : MgmtBinding) (mode : Nat) (s : State) : Res :=
  .next (s.served b fun s => if mode < 16 then (s.modeRequest mode).reply b .success [] else s.reply b .invalidData [])

/-! ### OEM commands (R529) -/

/-- The evidence that READ_EVIDENCE returns: the region, or, when tile 0 can make no copy, the frozen evidence of the tiles (R63). -/
def State.evidenceRead (s : State) : List Byte :=
  if s.dev.mode = .halt ∧ s.tile0Dead = true then
    ((s.presentTiles.filter fun t => (s.reached s.masterTile.val).contains t.val && !bit s.dev.aonDead t.val).flatMap fun t =>
      ((s.tile t).evidence).getD [])
  else s.flash.evidence

/-- A byte of the EVIDENCE region; past the copy its content is not stated (log 8). -/
def State.evidenceByte (s : State) (i : Nat) : Byte := s.evidenceRead.getD i (Config.undefByte 0 i)

/-- READ_EVIDENCE: LENGTH 1 to 1,024, within the region. -/
def execReadEvidence (b : MgmtBinding) (off len : Nat) (s : State) : Res :=
  .next (if s.serves b = false then s
    else if len = 0 ∨ 1024 < len ∨ evidenceSize < off + len then s.reply b .invalidData []
    else s.reply b .success ((List.range len).map fun i => s.evidenceByte (off + i)))

/-- SET_MGMT_VOTE (R368). -/
def execSetMgmtVote (b : MgmtBinding) (tile domain vote : Nat) (s : State) : Res :=
  .next (s.served b fun s =>
    if s.presentNo tile = false ∨ 56 ≤ domain ∨ 3 ≤ vote then s.reply b .invalidData []
    else
      let old := (s.dom (tid tile) (domN domain)).votes.getD 6 0
      (s.castVote (tid tile) (domN domain) 6 vote).reply b .success [BitVec.ofNat 8 old])

/-- GPIO_OE as it acts: from TRAIN onward (R534). -/
def State.gpioOe (s : State) : Nat :=
  match s.dev.mode with
  | .cold | .dawn | .test => 0
  | _ => s.cfg.gpioOe

/-- GET_GPIO, answered in HALT too. -/
def execGetGpio (b : MgmtBinding) (levels : Byte) (s : State) : Res :=
  .next (if s.serves b then s.reply b .success [levels, BitVec.ofNat 8 s.cfg.gpioOe, BitVec.ofNat 8 s.pins.boardId] else s)

/-- SET_GPIO: `levels` are the pin levels after the write. -/
def execSetGpio (b : MgmtBinding) (mask value levels : Byte) (s : State) : Res :=
  .next (s.served b fun s =>
    let m := mask.toNat &&& s.gpioOe
    ({ s with pins := { s.pins with gpioOut := maskOut s.pins.gpioOut m ||| (value.toNat &&& m) } } : State).reply b .success [levels])

/-! ### Firmware update (R530) -/

/-- A FW_DOWNLOAD or FW_ACTIVATE is in flight. -/
def State.fwInFlight (s : State) : Bool := s.dev.activation.isSome || s.cmds.any fun x => x.op == 0x04 || x.op == 0x05

/-- The slot that is not running; with RECOVERY running either may be taken (log 8). -/
def State.updateSlot (s : State) : Nat :=
  match s.dev.bootSlot with
  | 0 => 1
  | 1 => 0
  | _ => Config.freeNat s.tick % 2

/-- Note that the update agent has sent a command. -/
def State.agentSpoke (s : State) : State := { s with update := { s.update with lastAt := s.now } }

/-- REQUEST_UPDATE. -/
def execRequestUpdate (b : MgmtBinding) (s : State) : Res :=
  .next (s.served b fun s =>
    if s.fwInFlight then s.reply b .retryRequestUpdate []
    else if s.update.active then s.agentSpoke.reply b .refused []
    else
      ({ s.bump with update := { active := true, slot := s.updateSlot, lastAt := s.now } } : State).reply b .success [])

/-- FIRMWARE_COMPONENT_TRANSFER, with the checks of R57; the last piece ends the transfer, and its success says that the image passes
R49. -/
def execFirmwareComponentTransfer (b : MgmtBinding) (off : Nat) (data : List Byte) (last : Bool) (s : State) : Res :=
  .next (s.served b fun s =>
    if s.update.active = false then s.reply b .refused []
    else if s.fencedT 0 = true ∨ 41943040 < off + data.length then s.agentSpoke.reply b .refused []
    else
      let s := (s.agentSpoke).writeSlot s.update.slot off data
      let ok := (s.flash.slot s.update.slot).valid s.man.minSvn
      let s : State := { s with update := { s.update with written := true, verified := last && ok } }
      s.reply b (if last = true ∧ ok = false then .refused else .success) [])

/-- ACTIVATE_FIRMWARE: BOOT_SLOT for the next package reset (R52), and update mode ends; self-contained activation is refused. -/
def execActivateFirmware (b : MgmtBinding) (selfContained : Bool) (s : State) : Res :=
  .next (s.served b fun s =>
    if s.update.active = false then s.reply b .refused []
    else if selfContained = true ∨ s.update.verified = false then s.agentSpoke.reply b .refused []
    else ({ s.updateBootSlot s.update.slot with update := {} } : State).reply b .success [])

/-- CANCEL_UPDATE. -/
def execCancelUpdate (b : MgmtBinding) (s : State) : Res :=
  .next (s.served b fun s =>
    if s.update.active then ({ s with update := {} } : State).reply b .success [] else s.reply b .refused [])

/-- UPDATE_MODE_TIMEOUT: 120 s without a command from the update agent. -/
def execUpdateModeTimeout (s : State) : Res :=
  .next (if s.update.active = true ∧ s.update.lastAt + 120000000000 ≤ s.now then { s with update := {} } else s)

end Sys2Proof.Machine
end

