-- ==== Sys2Proof/Machine/SumenScalar.lean ====
section
/-! DEFINITION. The scalar instructions of the Sumen cores: integer, branch, memory, floating point and control registers
(R400, R401, R407). -/

namespace Sys2Proof.Machine

/-! ### Integer (major 0x01 to 0x06) -/

/-- RD := f of Xa and Xb. -/
def State.xOp (s : State) (k : CoreId) (rd ra rb : RegNo) (f : Word64 → Word64 → Word64) : Res :=
  .next (s.sumenRun k (pureOp fun c => c.setX rd (f (c.getX ra) (c.getX rb))))

/-- RD := f of Xa and Xb; a zero divisor faults. -/
def State.xDiv (s : State) (k : CoreId) (rd ra rb : RegNo) (f : Word64 → Word64 → Word64) : Res :=
  .next (s.sumenRun k (tryOp fun _ c =>
    if c.getX rb = 0 then .error (.fault fDivide false) else .ok (c.setX rd (f (c.getX ra) (c.getX rb)))))

/-- RD := f of Xa and an immediate. -/
def State.xImm (s : State) (k : CoreId) (rd ra : RegNo) (v : Word64) (f : Word64 → Word64 → Word64) : Res :=
  .next (s.sumenRun k (pureOp fun c => c.setX rd (f (c.getX ra) v)))

/-- A shift; the spec states no result for an amount of 64 or more (log 23). -/
def shift64 (fn : Nat) (f : Word64 → Nat → Word64) (a b : Word64) : Word64 :=
  if b.toNat < 64 then f a b.toNat else BitVec.ofNat 64 (Config.sumenVal fn a.toNat b.toNat)

def flag64 (b : Bool) : Word64 := if b then 1 else 0

def execAdd (k : CoreId) (rd ra rb : RegNo) (s : State) : Res := s.xOp k rd ra rb (· + ·)
def execSub (k : CoreId) (rd ra rb : RegNo) (s : State) : Res := s.xOp k rd ra rb (· - ·)
def execAnd (k : CoreId) (rd ra rb : RegNo) (s : State) : Res := s.xOp k rd ra rb (· &&& ·)
def execOr (k : CoreId) (rd ra rb : RegNo) (s : State) : Res := s.xOp k rd ra rb (· ||| ·)
def execXor (k : CoreId) (rd ra rb : RegNo) (s : State) : Res := s.xOp k rd ra rb (· ^^^ ·)
def execSll (k : CoreId) (rd ra rb : RegNo) (s : State) : Res := s.xOp k rd ra rb (shift64 0x106 (· <<< ·))
def execSrl (k : CoreId) (rd ra rb : RegNo) (s : State) : Res := s.xOp k rd ra rb (shift64 0x107 (· >>> ·))
def execSra (k : CoreId) (rd ra rb : RegNo) (s : State) : Res := s.xOp k rd ra rb (shift64 0x108 BitVec.sshiftRight)
def execSlt (k : CoreId) (rd ra rb : RegNo) (s : State) : Res := s.xOp k rd ra rb fun a b => flag64 (a.slt b)
def execSltu (k : CoreId) (rd ra rb : RegNo) (s : State) : Res := s.xOp k rd ra rb fun a b => flag64 (a.ult b)
def execMul (k : CoreId) (rd ra rb : RegNo) (s : State) : Res := s.xOp k rd ra rb (· * ·)
def execMulh (k : CoreId) (rd ra rb : RegNo) (s : State) : Res :=
  s.xOp k rd ra rb fun a b => BitVec.ofInt 64 (a.toInt * b.toInt / 2 ^ 64)
def execMulhu (k : CoreId) (rd ra rb : RegNo) (s : State) : Res :=
  s.xOp k rd ra rb fun a b => BitVec.ofNat 64 (a.toNat * b.toNat / 2 ^ 64)
/-- The quotient rounds toward zero; −2^63 by −1 gives −2^63. -/
def execDiv (k : CoreId) (rd ra rb : RegNo) (s : State) : Res := s.xDiv k rd ra rb BitVec.sdiv
def execDivu (k : CoreId) (rd ra rb : RegNo) (s : State) : Res := s.xDiv k rd ra rb (· / ·)
def execRem (k : CoreId) (rd ra rb : RegNo) (s : State) : Res := s.xDiv k rd ra rb BitVec.srem
def execRemu (k : CoreId) (rd ra rb : RegNo) (s : State) : Res := s.xDiv k rd ra rb (· % ·)

def execAddi (k : CoreId) (rd ra : RegNo) (imm : BitVec 16) (s : State) : Res := s.xImm k rd ra (imm.signExtend 64) (· + ·)
def execAndi (k : CoreId) (rd ra : RegNo) (imm : BitVec 16) (s : State) : Res := s.xImm k rd ra (imm.zeroExtend 64) (· &&& ·)
def execOri (k : CoreId) (rd ra : RegNo) (imm : BitVec 16) (s : State) : Res := s.xImm k rd ra (imm.zeroExtend 64) (· ||| ·)
def execXori (k : CoreId) (rd ra : RegNo) (imm : BitVec 16) (s : State) : Res := s.xImm k rd ra (imm.zeroExtend 64) (· ^^^ ·)

/-- RD = sext(IMM16 << 16). -/
def execLui (k : CoreId) (rd : RegNo) (imm : BitVec 16) (s : State) : Res :=
  .next (s.sumenRun k (pureOp fun c => c.setX rd ((imm ++ (0 : BitVec 16)).signExtend 64)))

/-! ### Jumps and branches -/

/-- Jump to `f c`, the address of the next instruction to RD. The link is written after the target is read. -/
def State.jump (s : State) (k : CoreId) (rd : Option RegNo) (f : Core → Word64) : Res :=
  .next (s.sumenRun k fun _ c =>
    let d := match rd with
      | some r => c.setX r (c.pc + 4)
      | none => c
    ({ d with pc := f c }, none))

def State.branch (s : State) (k : CoreId) (ra rb : RegNo) (off : BitVec 16) (p : Word64 → Word64 → Bool) : Res :=
  .next (s.sumenRun k fun _ c =>
    ({ c with pc := if p (c.getX ra) (c.getX rb) then c.pc + 4 * off.signExtend 64 else c.pc + 4 }, none))

def execJr (k : CoreId) (rd ra : RegNo) (s : State) : Res := s.jump k (some rd) fun c => c.getX ra
def execJmp (k : CoreId) (off : BitVec 26) (s : State) : Res := s.jump k none fun c => c.pc + 4 * off.signExtend 64
def execJal (k : CoreId) (off : BitVec 26) (s : State) : Res := s.jump k (some 31) fun c => c.pc + 4 * off.signExtend 64
def execBeq (k : CoreId) (ra rb : RegNo) (off : BitVec 16) (s : State) : Res := s.branch k ra rb off (· == ·)
def execBne (k : CoreId) (ra rb : RegNo) (off : BitVec 16) (s : State) : Res := s.branch k ra rb off (· != ·)
def execBlt (k : CoreId) (ra rb : RegNo) (off : BitVec 16) (s : State) : Res := s.branch k ra rb off BitVec.slt
def execBge (k : CoreId) (ra rb : RegNo) (off : BitVec 16) (s : State) : Res := s.branch k ra rb off fun a b => !a.slt b
def execBltu (k : CoreId) (ra rb : RegNo) (off : BitVec 16) (s : State) : Res := s.branch k ra rb off BitVec.ult
def execBgeu (k : CoreId) (ra rb : RegNo) (off : BitVec 16) (s : State) : Res := s.branch k ra rb off fun a b => !a.ult b

/-! ### Loads and stores -/

/-- The address of an I-format access. -/
def Core.addr (c : Core) (ra : RegNo) (imm : BitVec 16) : Nat := (c.getX ra + imm.signExtend 64).toNat

/-- Load `n` bytes to RD, sign-extended or not. -/
def State.xLoad (s : State) (k : CoreId) (rd ra : RegNo) (imm : BitVec 16) (n : Nat) (sign : Bool) : Res :=
  .next (s.sumenRun k (tryOp fun m c =>
    match c.load m false (c.addr ra imm) n with
    | .error e => .error e
    | .ok bs => .ok (c.setX rd (if sign then BitVec.ofInt 64 (toSigned (8 * n) (leNat bs)) else BitVec.ofNat 64 (leNat bs)))))

def State.xStore (s : State) (k : CoreId) (rd ra : RegNo) (imm : BitVec 16) (n : Nat) : Res :=
  .next (s.sumenRun k (tryOp fun m c => c.store m false (c.addr ra imm) (leBytes n (c.getX rd).toNat)))

def execLb (k : CoreId) (rd ra : RegNo) (imm : BitVec 16) (s : State) : Res := s.xLoad k rd ra imm 1 true
def execLh (k : CoreId) (rd ra : RegNo) (imm : BitVec 16) (s : State) : Res := s.xLoad k rd ra imm 2 true
def execLw (k : CoreId) (rd ra : RegNo) (imm : BitVec 16) (s : State) : Res := s.xLoad k rd ra imm 4 true
def execLd (k : CoreId) (rd ra : RegNo) (imm : BitVec 16) (s : State) : Res := s.xLoad k rd ra imm 8 true
def execLbu (k : CoreId) (rd ra : RegNo) (imm : BitVec 16) (s : State) : Res := s.xLoad k rd ra imm 1 false
def execLhu (k : CoreId) (rd ra : RegNo) (imm : BitVec 16) (s : State) : Res := s.xLoad k rd ra imm 2 false
def execLwu (k : CoreId) (rd ra : RegNo) (imm : BitVec 16) (s : State) : Res := s.xLoad k rd ra imm 4 false
def execSb (k : CoreId) (rd ra : RegNo) (imm : BitVec 16) (s : State) : Res := s.xStore k rd ra imm 1
def execSh (k : CoreId) (rd ra : RegNo) (imm : BitVec 16) (s : State) : Res := s.xStore k rd ra imm 2
def execSw (k : CoreId) (rd ra : RegNo) (imm : BitVec 16) (s : State) : Res := s.xStore k rd ra imm 4
def execSd (k : CoreId) (rd ra : RegNo) (imm : BitVec 16) (s : State) : Res := s.xStore k rd ra imm 8

/-! ### Floating point (major 0x20 to 0x22, R407) -/

/-- Fd := f of Fa and Fb, with the flags that the operation sets. -/
def State.fOp (s : State) (k : CoreId) (dbl : Bool) (rd ra rb : RegNo) (f : Fmt → Nat → Nat → Nat × FFlags) : Res :=
  .next (s.sumenRun k (pureOp fun c =>
    let r := f (fmtOf dbl) (c.getFp dbl ra) (c.getFp dbl rb)
    (c.setF rd r.1).orFlags r.2))

/-- A comparison in the order of R177, its result in Xd. -/
def State.fCmp (s : State) (k : CoreId) (dbl : Bool) (rd ra rb : RegNo) (quiet : Bool) (p : Nat → Nat → Bool) : Res :=
  .next (s.sumenRun k (pureOp fun c =>
    let f := fmtOf dbl
    let a := c.getFp dbl ra
    let b := c.getFp dbl rb
    let nv := if quiet then f.isSnan a || f.isSnan b else f.isNan a || f.isNan b
    (c.setX rd (flag64 (p (f.rank a) (f.rank b)))).orFlags { nv := nv }))

def execFadd (k : CoreId) (dbl : Bool) (rd ra rb : RegNo) (s : State) : Res := s.fOp k dbl rd ra rb Fmt.add
def execFsub (k : CoreId) (dbl : Bool) (rd ra rb : RegNo) (s : State) : Res := s.fOp k dbl rd ra rb Fmt.sub
def execFmul (k : CoreId) (dbl : Bool) (rd ra rb : RegNo) (s : State) : Res := s.fOp k dbl rd ra rb Fmt.mul
def execFdiv (k : CoreId) (dbl : Bool) (rd ra rb : RegNo) (s : State) : Res := s.fOp k dbl rd ra rb Fmt.div
def execFsqrt (k : CoreId) (dbl : Bool) (rd ra : RegNo) (s : State) : Res := s.fOp k dbl rd ra ra fun f a _ => f.sqrt a
def execFmin (k : CoreId) (dbl : Bool) (rd ra rb : RegNo) (s : State) : Res := s.fOp k dbl rd ra rb Fmt.min
def execFmax (k : CoreId) (dbl : Bool) (rd ra rb : RegNo) (s : State) : Res := s.fOp k dbl rd ra rb Fmt.max
def execFeq (k : CoreId) (dbl : Bool) (rd ra rb : RegNo) (s : State) : Res := s.fCmp k dbl rd ra rb true (· == ·)
def execFlt (k : CoreId) (dbl : Bool) (rd ra rb : RegNo) (s : State) : Res :=
  s.fCmp k dbl rd ra rb false fun a b => decide (a < b)
def execFle (k : CoreId) (dbl : Bool) (rd ra rb : RegNo) (s : State) : Res :=
  s.fCmp k dbl rd ra rb false fun a b => decide (a ≤ b)

/-- To INT64 (R407): rounded with RMODE and fitted under R404; a NaN gives 0 and SAT. With OVFTRAP a value that does not fit faults. -/
def execFcvti (k : CoreId) (dbl : Bool) (rd ra : RegNo) (s : State) : Res :=
  .next (s.sumenRun k (tryOp fun _ c =>
    let f := fmtOf dbl
    let a := c.getFp dbl ra
    let bad (v : Int) : Except Stop Core :=
      if c.trap then .error (.fault fFixed true)
      else .ok ((c.setX rd (BitVec.ofInt 64 v)).setSat.orFlags { nv := true })
    match f.toDec c.rmode a 0 with
    | some (i, exact_) =>
      if fitsSigned 64 i then .ok ((c.setX rd (BitVec.ofInt 64 i)).orFlags { nx := !exact_ })
      else bad (if i < 0 then -(2 ^ 63) else 2 ^ 63 - 1)
    | none => bad (if f.isNan a then 0 else if a.testBit (f.eb + f.mb) then -(2 ^ 63) else 2 ^ 63 - 1)))

/-- From INT64 in Xa. -/
def execFcvtf (k : CoreId) (dbl : Bool) (rd ra : RegNo) (s : State) : Res :=
  .next (s.sumenRun k (pureOp fun c =>
    let r := (fmtOf dbl).ofDec (c.getX ra).toInt 0
    (c.setF rd r.1).orFlags r.2))

/-- Move to Xd; the upper half of a binary32 is not stated (log 23). -/
def execFmvx (k : CoreId) (dbl : Bool) (rd ra : RegNo) (s : State) : Res :=
  .next (s.sumenRun k (pureOp fun c =>
    let a := c.getFp dbl ra
    c.setX rd (BitVec.ofNat 64 (if dbl then a else a + 2 ^ 32 * Config.sumenVal 0x200D a 0))))

/-- Move from Xa. -/
def execFmvf (k : CoreId) (dbl : Bool) (rd ra : RegNo) (s : State) : Res :=
  .next (s.sumenRun k (pureOp fun c => c.setF rd (if dbl then (c.getX ra).toNat else (c.getX ra).toNat % 2 ^ 32)))

/-- To the other width: FN[10] names the width of the operand. -/
def execFcvtw (k : CoreId) (dbl : Bool) (rd ra : RegNo) (s : State) : Res :=
  .next (s.sumenRun k (pureOp fun c =>
    let r := (fmtOf dbl).convert (fmtOf !dbl) (c.getFp dbl ra)
    (c.setF rd r.1).orFlags r.2))

/-- IMM16[0] selects binary64; the offset takes that bit as 0. -/
def fImm (imm : BitVec 16) : BitVec 16 := imm &&& 0xFFFE

def execFld (k : CoreId) (rd ra : RegNo) (imm : BitVec 16) (s : State) : Res :=
  .next (s.sumenRun k (tryOp fun m c =>
    match c.load m false (c.addr ra (fImm imm)) (if imm.getLsbD 0 then 8 else 4) with
    | .error e => .error e
    | .ok bs => .ok (c.setF rd (leNat bs))))

def execFsd (k : CoreId) (rd ra : RegNo) (imm : BitVec 16) (s : State) : Res :=
  .next (s.sumenRun k (tryOp fun m c =>
    c.store m false (c.addr ra (fImm imm)) (leBytes (if imm.getLsbD 0 then 8 else 4) (c.getF rd))))

/-! ### Control registers and strips -/

/-- RD = CSR[IMM16]; then, if RA ≠ 0, CSR[IMM16] = Xa, as it was before the instruction. -/
def execCsr (k : CoreId) (rd ra : RegNo) (imm : BitVec 16) (s : State) : Res :=
  .next (s.sumenRun k (tryOp fun _ c =>
    match c.csr imm.toNat with
    | none => .error (.fault fIllegal false)
    | some v =>
      let d := c.setX rd v
      .ok (if ra = 0 then d else d.setCsr imm.toNat (c.getX ra))))

/-- Elements of a register at the current width (R401). -/
def Core.vcap (m : UdfCtx) (c : Core) : Nat := vlen m.large / c.ew

/-- VSETL (R401). -/
def execVsetl (k : CoreId) (rd ra : RegNo) (imm : BitVec 16) (s : State) : Res :=
  .next (s.sumenRun k (tryOp fun m c =>
    if 4 < imm.toNat then .error (.fault fIllegal false)
    else
      let n := (c.getX ra).toNat
      let d := { c with vshape := imm.toNat, vrem := n }
      let d := { d with vact := min n (d.vcap m) }
      .ok (d.setX rd (BitVec.ofNat 64 d.vact))))

/-- VSTEP (R401). -/
def execVstep (k : CoreId) (rd : RegNo) (s : State) : Res :=
  .next (s.sumenRun k fun m c =>
    if c.vrem = 0 then ((c.setX rd 0).next, none)
    else
      let left := c.vrem - c.vact
      let d := { c with rowbase := c.rowbase + BitVec.ofNat 64 c.vact, vrem := left, vact := min left (c.vcap m) }
      ((d.setX rd (BitVec.ofNat 64 d.vact)).next, none))

/-! ### End of a call, undefined words, window fills -/

/-- RET ends the call (R419). -/
def execRet (k : CoreId) (s : State) : Res :=
  .next (match s.coreReady k with
    | none => s
    | some (call, m) =>
      let c := s.sumen k
      match fetchCause m c.pc.toNat with
      | some cause => s.faultCall k c call cause (faultRow c call.select false)
      | none => s.retCall k c call m)

/-- BREAK faults (R410). -/
def execBrk (k : CoreId) (s : State) : Res := .next (s.sumenRun k fun _ c => (c, some (.fault fBreak false)))

/-- The word is a defined encoding whose fields that must be 0 are 0 (R399, R400). What depends on the core's state, such as the
element width, is left to the instruction. -/
def wordDefined (w : Nat) : Bool := (decodeSumen (.large 0) w).isSome

/-- An undefined word faults with ILLEGAL; a defined one has its own command (log 1). -/
def execIllegal (k : CoreId) (word : Word32) (s : State) : Res :=
  .next (if wordDefined word.toNat then s else s.sumenRun k fun _ c => (c, some (.fault fIllegal false)))

/-- Lines that the window cache holds (R398). -/
def windowLines (large : Bool) : Nat := if large then 512 else 64

/-- Which resident line a fill replaces is left open (log 8). -/
def Core.fill (large : Bool) (tick : Nat) (c : Core) : Core :=
  match c.miss with
  | none => c
  | some l =>
    let ls := if c.lines.length < windowLines large then c.lines else c.lines.eraseIdx (Config.freeNat tick % c.lines.length)
    { c with miss := none, lines := ls ++ [l] }

/-- A line fill ends and the core executes the same instruction again (R411). -/
def execWindowMissFill (k : CoreId) (s : State) : Res :=
  .next (if (s.sumen k).miss.isNone then s else (s.setSumen k ((s.sumen k).fill (coreLarge k) s.tick)).bump)

end Sys2Proof.Machine
end

