-- ==== Sys2Proof/Machine/SumenVector.lean ====
section
/-! DEFINITION. The vector instructions of the Sumen cores: elements and active elements (R395, R402), integer and floating point,
fixed point (R403, R404), reductions (R406), memory (R408, R409) and moves (R400). -/

namespace Sys2Proof.Machine

/-! ### Elements -/

/-- Element `e` of Vn at width `w` (R395), unsigned. -/
def Core.elemW (c : Core) (w : Nat) (r : RegNo) (e : Nat) : Nat := c.v[r].toNat / 2 ^ (w * e) % 2 ^ w

def Core.elem (c : Core) (r : RegNo) (e : Nat) : Nat := c.elemW c.ew r e

/-- Element `e` as a signed integer. -/
def Core.selem (c : Core) (r : RegNo) (e : Nat) : Int := toSigned c.ew (c.elem r e)

/-- Replace element `e`; the other bits of the register stay. -/
def Core.setElem (c : Core) (r : RegNo) (e v : Nat) : Core :=
  let old := c.v[r].toNat
  let sh := 2 ^ (c.ew * e)
  c.setV r (BitVec.ofNat 2048 (old - c.elem r e * sh + v % 2 ^ c.ew * sh))

/-- Element `e` takes part: below VACT and, with M set, nonzero in V31 (R402). -/
def Core.active (c : Core) (m : Bool) (e : Nat) : Bool := decide (e < c.vact) && (!m || c.elem 31 e != 0)

/-- Take the elements from `e` on in ascending order; a stop leaves VRESUME at its element (R402, R409). -/
def vecLoop (act : Core → Nat → Bool) (step : Core → Nat → Except Stop Core) : Nat → Nat → Core → Core × Option Stop
  | 0, _, c => ({ c with vresume := 0 }.next, none)
  | n + 1, e, c =>
    if act c e then
      match step c e with
      | .ok d => vecLoop act step n (e + 1) d
      | .error x => ({ c with vresume := BitVec.ofNat 64 e }, some x)
    else vecLoop act step n (e + 1) c

/-- The element loop of a vector instruction from VRESUME to VACT. -/
def Core.elements (c : Core) (act : Core → Nat → Bool) (step : Core → Nat → Except Stop Core) : Core × Option Stop :=
  vecLoop act step (c.vact - c.vresume.toNat) c.vresume.toNat c

/-- Run a vector instruction: ILLEGAL where `ok` fails, else its elements. -/
def State.vRun (s : State) (k : CoreId) (m : Bool) (ok : Core → Bool) (step : UdfCtx → Core → Nat → Except Stop Core) : Res :=
  .next (s.sumenRun k fun u c =>
    if ok c then c.elements (fun d e => d.active m e) (step u) else (c, some (.fault fIllegal false)))

/-- Element by element, no element stops. -/
def State.vMap (s : State) (k : CoreId) (m : Bool) (vd : RegNo) (f : Core → Nat → Nat) : Res :=
  s.vRun k m (fun _ => true) fun _ c e => .ok (c.setElem vd e (f c e))

/-- Both operands unsigned, the width first. -/
def State.vBin (s : State) (k : CoreId) (m : Bool) (vd va vb : RegNo) (f : Nat → Nat → Nat → Nat) : Res :=
  s.vMap k m vd fun c e => f c.ew (c.elem va e) (c.elem vb e)

/-- Both operands signed. -/
def State.vSig (s : State) (k : CoreId) (m : Bool) (vd va vb : RegNo) (f : Int → Int → Int) : Res :=
  s.vMap k m vd fun c e => ofSigned c.ew (f (c.selem va e) (c.selem vb e))

/-- A compare writes all ones where it holds and 0 elsewhere (R400). -/
def State.vCmp (s : State) (k : CoreId) (m : Bool) (vd : RegNo) (p : Core → Nat → Bool) : Res :=
  s.vMap k m vd fun c e => if p c e then 2 ^ c.ew - 1 else 0

/-- A shift; the spec states no result for an amount of the width or more (log 23). -/
def vshift (fn : Nat) (f : Nat → Nat → Nat → Nat) (w a b : Nat) : Nat :=
  if b < w then f w a b else Config.sumenVal (fn + w) a b

/-! ### Integer (major 0x30) -/

def execVadd (k : CoreId) (vd va vb : RegNo) (m : Bool) (s : State) : Res := s.vBin k m vd va vb fun _ a b => a + b
def execVsub (k : CoreId) (vd va vb : RegNo) (m : Bool) (s : State) : Res := s.vBin k m vd va vb fun w a b => a + 2 ^ w - b
def execVmul (k : CoreId) (vd va vb : RegNo) (m : Bool) (s : State) : Res := s.vBin k m vd va vb fun _ a b => a * b
def execVand (k : CoreId) (vd va vb : RegNo) (m : Bool) (s : State) : Res := s.vBin k m vd va vb fun _ a b => a &&& b
def execVor (k : CoreId) (vd va vb : RegNo) (m : Bool) (s : State) : Res := s.vBin k m vd va vb fun _ a b => a ||| b
def execVxor (k : CoreId) (vd va vb : RegNo) (m : Bool) (s : State) : Res := s.vBin k m vd va vb fun _ a b => a ^^^ b
def execVsll (k : CoreId) (vd va vb : RegNo) (m : Bool) (s : State) : Res :=
  s.vBin k m vd va vb (vshift 0x300700 fun _ a b => a * 2 ^ b)
def execVsrl (k : CoreId) (vd va vb : RegNo) (m : Bool) (s : State) : Res :=
  s.vBin k m vd va vb (vshift 0x300800 fun _ a b => a / 2 ^ b)
def execVsra (k : CoreId) (vd va vb : RegNo) (m : Bool) (s : State) : Res :=
  s.vBin k m vd va vb (vshift 0x300900 fun w a b => ofSigned w (toSigned w a / 2 ^ b))
def execVmin (k : CoreId) (vd va vb : RegNo) (m : Bool) (s : State) : Res := s.vSig k m vd va vb min
def execVmax (k : CoreId) (vd va vb : RegNo) (m : Bool) (s : State) : Res := s.vSig k m vd va vb max
def execVminu (k : CoreId) (vd va vb : RegNo) (m : Bool) (s : State) : Res := s.vBin k m vd va vb fun _ a b => min a b
def execVmaxu (k : CoreId) (vd va vb : RegNo) (m : Bool) (s : State) : Res := s.vBin k m vd va vb fun _ a b => max a b
def execVseq (k : CoreId) (vd va vb : RegNo) (m : Bool) (s : State) : Res :=
  s.vCmp k m vd fun c e => c.elem va e == c.elem vb e
def execVslt (k : CoreId) (vd va vb : RegNo) (m : Bool) (s : State) : Res :=
  s.vCmp k m vd fun c e => decide (c.selem va e < c.selem vb e)
def execVsltu (k : CoreId) (vd va vb : RegNo) (m : Bool) (s : State) : Res :=
  s.vCmp k m vd fun c e => decide (c.elem va e < c.elem vb e)
/-- VA where element e of V31 is nonzero, else VB. -/
def execVmerge (k : CoreId) (vd va vb : RegNo) (m : Bool) (s : State) : Res :=
  s.vMap k m vd fun c e => if c.elem 31 e ≠ 0 then c.elem va e else c.elem vb e

/-! ### Floating point (EW 32 or 64) -/

def Core.fpWidth (c : Core) : Bool := c.ew == 32 || c.ew == 64

def Core.vfmt (c : Core) : Fmt := fmtOf (c.ew == 64)

def State.vFloat (s : State) (k : CoreId) (m : Bool) (vd va vb : RegNo) (f : Fmt → Nat → Nat → Nat × FFlags) : Res :=
  s.vRun k m Core.fpWidth fun _ c e =>
    let r := f c.vfmt (c.elem va e) (c.elem vb e)
    .ok ((c.setElem vd e r.1).orFlags r.2)

def execVfadd (k : CoreId) (vd va vb : RegNo) (m : Bool) (s : State) : Res := s.vFloat k m vd va vb Fmt.add
def execVfsub (k : CoreId) (vd va vb : RegNo) (m : Bool) (s : State) : Res := s.vFloat k m vd va vb Fmt.sub
def execVfmul (k : CoreId) (vd va vb : RegNo) (m : Bool) (s : State) : Res := s.vFloat k m vd va vb Fmt.mul
def execVfdiv (k : CoreId) (vd va vb : RegNo) (m : Bool) (s : State) : Res := s.vFloat k m vd va vb Fmt.div
def execVfmin (k : CoreId) (vd va vb : RegNo) (m : Bool) (s : State) : Res := s.vFloat k m vd va vb Fmt.min
def execVfmax (k : CoreId) (vd va vb : RegNo) (m : Bool) (s : State) : Res := s.vFloat k m vd va vb Fmt.max

/-! ### Fixed point (R403 to R405) -/

/-- Fit an exact value to [lo, hi]: the nearer bound and SAT, or FIXED_OVERFLOW with OVFTRAP (R404). -/
def Core.fit (c : Core) (lo hi v : Int) : Except Stop (Core × Int) :=
  if lo ≤ v ∧ v ≤ hi then .ok (c, v)
  else if c.trap then .error (.fault fFixed true)
  else .ok (c.setSat, if v < lo then lo else hi)

/-- The range of EW bits. -/
def ewBounds (w : Nat) : Int × Int := (-((2 ^ (w - 1) : Nat) : Int), ((2 ^ (w - 1) : Nat) : Int) - 1)

/-- Fit and write element `e`. -/
def Core.fitElem (c : Core) (vd : RegNo) (e : Nat) (b : Int × Int) (v : Int) : Except Stop Core :=
  match c.fit b.1 b.2 v with
  | .ok (d, i) => .ok (d.setElem vd e (ofSigned c.ew i))
  | .error x => .error x

def State.vFixed (s : State) (k : CoreId) (m : Bool) (vd : RegNo) (ok : Core → Bool) (f : Core → Nat → Int) : Res :=
  s.vRun k m ok fun _ c e => c.fitElem vd e (ewBounds c.ew) (f c e)

def execVsadd (k : CoreId) (vd va vb : RegNo) (m : Bool) (s : State) : Res :=
  s.vFixed k m vd (fun _ => true) fun c e => c.selem va e + c.selem vb e
def execVssub (k : CoreId) (vd va vb : RegNo) (m : Bool) (s : State) : Res :=
  s.vFixed k m vd (fun _ => true) fun c e => c.selem va e - c.selem vb e
/-- s = Xb[6:0]. -/
def Core.shiftBy (c : Core) (xb : RegNo) : Nat := 2 ^ ((c.getX xb).toNat % 128)
def execVrshr (k : CoreId) (vd va xb : RegNo) (m : Bool) (s : State) : Res :=
  s.vFixed k m vd (fun _ => true) fun c e => roundInt c.rmode (c.selem va e) (c.shiftBy xb)
def execVmulhr (k : CoreId) (vd va vb : RegNo) (m : Bool) (s : State) : Res :=
  s.vFixed k m vd (fun _ => true) fun c e => roundInt c.rmode (c.selem va e * c.selem vb e) (2 ^ (c.ew - 1))

/-- Element `e`, of width 2 × EW, of the register pair (VA, VA + 1). -/
def Core.pairElem (m : UdfCtx) (c : Core) (va : RegNo) (e : Nat) : Int :=
  let n := vlen m.large / (2 * c.ew)
  toSigned (2 * c.ew) (if e < n then c.elemW (2 * c.ew) va e else c.elemW (2 * c.ew) (va + 1) (e - n))

def execVnarrows (k : CoreId) (vd va xb : RegNo) (m : Bool) (s : State) : Res :=
  s.vRun k m (fun c => va.val % 2 == 0 && c.ew != 128) fun u c e =>
    c.fitElem vd e (ewBounds c.ew) (roundInt c.rmode (c.pairElem u va e) (c.shiftBy xb))

/-- The bounds of VSCALE10 (R404). -/
def scaleBounds (w p : Nat) : Int × Int :=
  if p = 0 then ewBounds w else (-((10 ^ p - 1 : Nat) : Int), ((10 ^ p - 1 : Nat) : Int))

/-- VSCALE10 (R403): |k| above 38 faults before any element is written. -/
def execVscale10 (k : CoreId) (vd va xb : RegNo) (m : Bool) (p : Fin 64) (s : State) : Res :=
  .next (s.sumenRun k fun _ c =>
    let x := (c.getX xb).toInt
    if 38 < p.val ∨ c.ew < 64 then (c, some (.fault fIllegal false))
    else if 38 < x.natAbs then (c, some (.fault fOperand false))
    else c.elements (fun d e => d.active m e) fun d e =>
      d.fitElem vd e (scaleBounds d.ew p.val)
        (if 0 ≤ x then d.selem va e * 10 ^ x.toNat else roundInt d.rmode (d.selem va e) (10 ^ x.natAbs)))

/-! ### Reductions (R406) -/

/-- The active elements from VRESUME on, in ascending order. -/
def Core.activeFrom (c : Core) (m : Bool) : List Nat :=
  (List.range c.vact).filter fun e => decide (c.vresume.toNat ≤ e) && c.active m e

/-- A reduction: with VRESUME at or above VACT it only clears VRESUME (R402); a fault writes nothing and leaves VRESUME 0. -/
def State.vReduce (s : State) (k : CoreId) (m : Bool) (ok : Core → Bool) (f : Core → List Nat → Except Stop Core) : Res :=
  .next (s.sumenRun k fun _ c =>
    if ok c = false then (c, some (.fault fIllegal false))
    else if c.vact ≤ c.vresume.toNat then ({ c with vresume := 0 }.next, none)
    else match f c (c.activeFrom m) with
      | .ok d => ({ d with vresume := 0 }.next, none)
      | .error x => ({ c with vresume := 0 }, some x))

/-- Element 0 of VD takes the result; its other elements stay. -/
def State.vFold (s : State) (k : CoreId) (m : Bool) (vd va vb : RegNo) (f : Core → Nat → Nat → Nat) : Res :=
  s.vReduce k m (fun _ => true) fun c es => .ok (c.setElem vd 0 (es.foldl (fun a e => f c a (c.elem va e)) (c.elem vb 0)))

def sgnMin (w a b : Nat) : Nat := if toSigned w b < toSigned w a then b else a
def sgnMax (w a b : Nat) : Nat := if toSigned w a < toSigned w b then b else a

/-- The exact sum, then the fit of R404. -/
def execVredsum (k : CoreId) (vd va vb : RegNo) (m : Bool) (s : State) : Res :=
  s.vReduce k m (fun _ => true) fun c es =>
    c.fitElem vd 0 (ewBounds c.ew) ((es.map fun e => c.selem va e).sum + c.selem vb 0)
def execVredmin (k : CoreId) (vd va vb : RegNo) (m : Bool) (s : State) : Res := s.vFold k m vd va vb fun c => sgnMin c.ew
def execVredmax (k : CoreId) (vd va vb : RegNo) (m : Bool) (s : State) : Res := s.vFold k m vd va vb fun c => sgnMax c.ew
def execVredminu (k : CoreId) (vd va vb : RegNo) (m : Bool) (s : State) : Res := s.vFold k m vd va vb fun _ => min
def execVredmaxu (k : CoreId) (vd va vb : RegNo) (m : Bool) (s : State) : Res := s.vFold k m vd va vb fun _ => max

/-- Ascending order from element 0 of VB, rounded after each step, with the flags of every step. -/
def State.vFloatFold (s : State) (k : CoreId) (m : Bool) (vd va vb : RegNo) (f : Fmt → Nat → Nat → Nat × FFlags) : Res :=
  s.vReduce k m Core.fpWidth fun c es =>
    let r := es.foldl (fun (a : Core × Nat) e =>
      let y := f c.vfmt a.2 (c.elem va e)
      (a.1.orFlags y.2, y.1)) (c, c.elem vb 0)
    .ok (r.1.setElem vd 0 r.2)

def execVfredsum (k : CoreId) (vd va vb : RegNo) (m : Bool) (s : State) : Res := s.vFloatFold k m vd va vb Fmt.add
def execVfredmin (k : CoreId) (vd va vb : RegNo) (m : Bool) (s : State) : Res := s.vFloatFold k m vd va vb Fmt.min
def execVfredmax (k : CoreId) (vd va vb : RegNo) (m : Bool) (s : State) : Res := s.vFloatFold k m vd va vb Fmt.max

/-! ### Memory (R400, R408, R409) -/

/-- Load element `e` of VD from an address. -/
def Core.loadElem (u : UdfCtx) (c : Core) (vd : RegNo) (e a : Nat) : Except Stop Core :=
  match c.load u true a (c.ew / 8) with
  | .ok bs => .ok (c.setElem vd e (leNat bs))
  | .error x => .error x

def Core.storeElem (u : UdfCtx) (c : Core) (vd : RegNo) (e a : Nat) : Except Stop Core :=
  c.store u true a (leBytes (c.ew / 8) (c.elem vd e))

/-- Address of element `e` of a unit-stride access. -/
def Core.unitAddr (c : Core) (xa : RegNo) (imm : BitVec 16) (e : Nat) : Nat := (c.addr xa imm + e * (c.ew / 8)) % 2 ^ 64

/-- Address of element `e` of a gather or scatter: the index is an unsigned byte offset of width EW (R408). -/
def Core.gatherAddr (c : Core) (xa vb : RegNo) (e : Nat) : Nat := ((c.getX xa).toNat + c.elem vb e) % 2 ^ 64

def execVld (k : CoreId) (vd xa : RegNo) (imm : BitVec 16) (s : State) : Res :=
  s.vRun k false (fun _ => true) fun u c e => c.loadElem u vd e (c.unitAddr xa imm e)
def execVst (k : CoreId) (vd xa : RegNo) (imm : BitVec 16) (s : State) : Res :=
  s.vRun k false (fun _ => true) fun u c e => c.storeElem u vd e (c.unitAddr xa imm e)
def execVldx (k : CoreId) (vd xa vb : RegNo) (m : Bool) (s : State) : Res :=
  s.vRun k m (fun _ => true) fun u c e => c.loadElem u vd e (c.gatherAddr xa vb e)
def execVstx (k : CoreId) (vd xa vb : RegNo) (m : Bool) (s : State) : Res :=
  s.vRun k m (fun _ => true) fun u c e => c.storeElem u vd e (c.gatherAddr xa vb e)

/-! ### Moves (major 0x39) -/

/-- Xa sign-extended to every active element. -/
def execVbcast (k : CoreId) (vd xa : RegNo) (m : Bool) (s : State) : Res :=
  s.vMap k m vd fun c _ => ofSigned c.ew (c.getX xa).toInt

/-- Bits [63:0] of element Xb of VA to Xd; an element outside the register is not stated (log 23). -/
def execVext (k : CoreId) (rd va xb : RegNo) (_m : Bool) (s : State) : Res :=
  .next (s.sumenRun k fun u c =>
    if c.vact ≤ c.vresume.toNat then ({ c with vresume := 0 }.next, none)
    else
      let e := (c.getX xb).toNat
      let v := if e < c.vcap u then c.elem va e else Config.sumenVal 0x3902 c.v[va].toNat e
      (({ c with vresume := 0 }.setX rd (BitVec.ofNat 64 v)).next, none))

/-- Xa sign-extended into element Xb of VD, when that element is active. -/
def execVins (k : CoreId) (vd xa xb : RegNo) (m : Bool) (s : State) : Res :=
  s.vMap k m vd fun c e => if (c.getX xb).toNat = e then ofSigned c.ew (c.getX xa).toInt else c.elem vd e

/-- Element e = e. -/
def execVidx (k : CoreId) (vd : RegNo) (m : Bool) (s : State) : Res := s.vMap k m vd fun _ e => e

end Sys2Proof.Machine
end

