-- ==== Sys2Proof/Machine/Dispatch.lean ====
section
/-! DEFINITION. One arm per command: the meaning it calls. -/

namespace Sys2Proof.Machine

def exec (i : Instr) (s : State) : Host.Outcome State Fault Refusal :=
  match i with
  | .pwrokLow ns => Sys2Proof.Machine.execPwrokLow ns s
  | .pkgResetNLow ns => Sys2Proof.Machine.execPkgResetNLow ns s
  | .pkgResetNRise b => Sys2Proof.Machine.execPkgResetNRise b s
  | .trainSequence seen => Sys2Proof.Machine.execTrainSequence seen s
  | .perstNLow t ns => Sys2Proof.Machine.execPerstNLow t ns s
  | .perstNRise t => Sys2Proof.Machine.execPerstNRise t s
  | .pmbAlert status => Sys2Proof.Machine.execPmbAlert status s
  | .pmbusReading rail mv ma => Sys2Proof.Machine.execPmbusReading rail mv ma s
  | .thermalSample t temps => Sys2Proof.Machine.execThermalSample t temps s
  | .throttleStep t => Sys2Proof.Machine.execThrottleStep t s
  | .monitorAverageWindowEnd t => Sys2Proof.Machine.execMonitorAverageWindowEnd t s
  | .supplySample t mv => Sys2Proof.Machine.execSupplySample t mv s
  | .processMonitorSample t counts => Sys2Proof.Machine.execProcessMonitorSample t counts s
  | .hbmTemperatureRead t c8 => Sys2Proof.Machine.execHbmTemperatureRead t c8 s
  | .droop t det => Sys2Proof.Machine.execDroop t det s
  | .droopRelease t det => Sys2Proof.Machine.execDroopRelease t det s
  | .devModeReqWrite mode => Sys2Proof.Machine.execDevModeReqWrite mode s
  | .cinchChangeStart => Sys2Proof.Machine.execCinchChangeStart s
  | .cinchPrepare t change arg epoch => Sys2Proof.Machine.execCinchPrepare t change arg epoch s
  | .cinchSafePoint t seen => Sys2Proof.Machine.execCinchSafePoint t seen s
  | .cinchReady t epoch => Sys2Proof.Machine.execCinchReady t epoch s
  | .cinchRefuse t epoch reason => Sys2Proof.Machine.execCinchRefuse t epoch reason s
  | .cinchAbort t epoch => Sys2Proof.Machine.execCinchAbort t epoch s
  | .cinchPulse t epoch => Sys2Proof.Machine.execCinchPulse t epoch s
  | .cinchCommit t epoch => Sys2Proof.Machine.execCinchCommit t epoch s
  | .cinchApplied t epoch strobeSeq => Sys2Proof.Machine.execCinchApplied t epoch strobeSeq s
  | .cinchHalt t src cause => Sys2Proof.Machine.execCinchHalt t src cause s
  | .cinchWirePulse t ns => Sys2Proof.Machine.execCinchWirePulse t ns s
  | .cinchWireHalt t ns => Sys2Proof.Machine.execCinchWireHalt t ns s
  | .haltMessageTimeout => Sys2Proof.Machine.execHaltMessageTimeout s
  | .evidenceCopy reach => Sys2Proof.Machine.execEvidenceCopy reach s
  | .cinchPrepareTimeout t => Sys2Proof.Machine.execCinchPrepareTimeout t s
  | .cinchRetry => Sys2Proof.Machine.execCinchRetry s
  | .cinchCommitResend => Sys2Proof.Machine.execCinchCommitResend s
  | .cinchApplyTimeout t => Sys2Proof.Machine.execCinchApplyTimeout t s
  | .masterLost t => Sys2Proof.Machine.execMasterLost t s
  | .duskDrainComplete => Sys2Proof.Machine.execDuskDrainComplete s
  | .firmwareRestarted => Sys2Proof.Machine.execFirmwareRestarted s
  | .identify c => Sys2Proof.Machine.execIdentify c s
  | .getLog c wfail => Sys2Proof.Machine.execGetLog c wfail s
  | .setFeature c => Sys2Proof.Machine.execSetFeature c s
  | .fwDownload c src => Sys2Proof.Machine.execFwDownload c src s
  | .fwActivate c => Sys2Proof.Machine.execFwActivate c s
  | .sliceCreate c => Sys2Proof.Machine.execSliceCreate c s
  | .sliceDestroy c => Sys2Proof.Machine.execSliceDestroy c s
  | .sliceReset c => Sys2Proof.Machine.execSliceReset c s
  | .sliceFreeze c => Sys2Proof.Machine.execSliceFreeze c s
  | .sliceSave c wfail => Sys2Proof.Machine.execSliceSave c wfail s
  | .sliceRestore c src => Sys2Proof.Machine.execSliceRestore c src s
  | .sliceThaw c => Sys2Proof.Machine.execSliceThaw c s
  | .segAlloc c => Sys2Proof.Machine.execSegAlloc c s
  | .segFree c => Sys2Proof.Machine.execSegFree c s
  | .segFreeEffect c => Sys2Proof.Machine.execSegFreeEffect c s
  | .segWrite c src => Sys2Proof.Machine.execSegWrite c src s
  | .segRead c wfail => Sys2Proof.Machine.execSegRead c wfail s
  | .segCopy c => Sys2Proof.Machine.execSegCopy c s
  | .segFlush c => Sys2Proof.Machine.execSegFlush c s
  | .gpfPhaseDone c t expander err => Sys2Proof.Machine.execGpfPhaseDone c t expander err s
  | .gpfTimeout c t expander => Sys2Proof.Machine.execGpfTimeout c t expander s
  | .fence c => Sys2Proof.Machine.execFence c s
  | .pipeLoad c src => Sys2Proof.Machine.execPipeLoad c src s
  | .pipeUnload c => Sys2Proof.Machine.execPipeUnload c s
  | .pipeUnloadRemove c => Sys2Proof.Machine.execPipeUnloadRemove c s
  | .queryRun c => Sys2Proof.Machine.execQueryRun c s
  | .digest c => Sys2Proof.Machine.execDigest c s
  | .hmac c => Sys2Proof.Machine.execHmac c s
  | .compress c => Sys2Proof.Machine.execCompress c s
  | .decompress c => Sys2Proof.Machine.execDecompress c s
  | .keyLoad c wrapped => Sys2Proof.Machine.execKeyLoad c wrapped s
  | .keyClear c => Sys2Proof.Machine.execKeyClear c s
  | .keyChangeEffect c => Sys2Proof.Machine.execKeyChangeEffect c s
  | .powerLimit c => Sys2Proof.Machine.execPowerLimit c s
  | .readMonitors c => Sys2Proof.Machine.execReadMonitors c s
  | .nop c => Sys2Proof.Machine.execNop c s
  | .doorbell w => Sys2Proof.Machine.execDoorbell w s
  | .ringEntryRead q reads => Sys2Proof.Machine.execRingEntryRead q reads s
  | .ownReread q r => Sys2Proof.Machine.execOwnReread q r s
  | .arbitrate t => Sys2Proof.Machine.execArbitrate t s
  | .commandStart c fetched seen => Sys2Proof.Machine.execCommandStart c fetched seen s
  | .commandComplete c failAt => Sys2Proof.Machine.execCommandComplete c failAt s
  | .queueIrqTimer q => Sys2Proof.Machine.execQueueIrqTimer q s
  | .queueEnable q => Sys2Proof.Machine.execQueueEnable q s
  | .queueDisable q => Sys2Proof.Machine.execQueueDisable q s
  | .queueReset q => Sys2Proof.Machine.execQueueReset q s
  | .queueResetForceStop q => Sys2Proof.Machine.execQueueResetForceStop q s
  | .queueResetDone q => Sys2Proof.Machine.execQueueResetDone q s
  | .ringFaultClear q => Sys2Proof.Machine.execRingFaultClear q s
  | .stagingDrain t line => Sys2Proof.Machine.execStagingDrain t line s
  | .patrolScrub t where_ addr res => Sys2Proof.Machine.execPatrolScrub t where_ addr res s
  | .scrubLate t where_ => Sys2Proof.Machine.execScrubLate t where_ s
  | .mapScrubVote t seen => Sys2Proof.Machine.execMapScrubVote t seen s
  | .ddrChannelLost t ch => Sys2Proof.Machine.execDdrChannelLost t ch s
  | .cxlPortLost t => Sys2Proof.Machine.execCxlPortLost t s
  | .sliceTableEcc t slice => Sys2Proof.Machine.execSliceTableEcc t slice s
  | .tokenPost t => Sys2Proof.Machine.execTokenPost t s
  | .tokenDispatch d => Sys2Proof.Machine.execTokenDispatch d s
  | .barrierRelease qid pipe => Sys2Proof.Machine.execBarrierRelease qid pipe s
  | .morselEnd pe energyNj upset => Sys2Proof.Machine.execMorselEnd pe energyNj upset s
  | .peInternalError pe energyNj => Sys2Proof.Machine.execPeInternalError pe energyNj s
  | .queryForceStop qid => Sys2Proof.Machine.execQueryForceStop qid s
  | .mergePassEnd t qid pipe upset => Sys2Proof.Machine.execMergePassEnd t qid pipe upset s
  | .emitCommit qid pipe cons wfail moved => Sys2Proof.Machine.execEmitCommit qid pipe cons wfail moved s
  | .consPoll qid seen => Sys2Proof.Machine.execConsPoll qid seen s
  | .spillPage t qid pipe => Sys2Proof.Machine.execSpillPage t qid pipe s
  | .udfCall pe block call => Sys2Proof.Machine.execUdfCall pe block call s
  | .windowMissFill core => Sys2Proof.Machine.execWindowMissFill core s
  | .codecFrame t src wfail mismatch => Sys2Proof.Machine.execCodecFrame t src wfail mismatch s
  | .digestLaneTake t lane => Sys2Proof.Machine.execDigestLaneTake t lane s
  | .digestPreempt t lane doneBytes msg => Sys2Proof.Machine.execDigestPreempt t lane doneBytes msg s
  | .digestSaveDone t lane => Sys2Proof.Machine.execDigestSaveDone t lane s
  | .digestRestore t lane authentic => Sys2Proof.Machine.execDigestRestore t lane authentic s
  | .digestJobDone t lane msg wfail => Sys2Proof.Machine.execDigestJobDone t lane msg wfail s
  | .digViewGo t ctl off desc list => Sys2Proof.Machine.execDigViewGo t ctl off desc list s
  | .digViewEarlyRead t ix => Sys2Proof.Machine.execDigViewEarlyRead t ix s
  | .schedWindowStart t otherNj => Sys2Proof.Machine.execSchedWindowStart t otherNj s
  | .budgetEpochStart => Sys2Proof.Machine.execBudgetEpochStart s
  | .powerSplit otherMw => Sys2Proof.Machine.execPowerSplit otherMw s
  | .verificationWindowStart => Sys2Proof.Machine.execVerificationWindowStart s
  | .errorCoalesceWindowEnd t => Sys2Proof.Machine.execErrorCoalesceWindowEnd t s
  | .domainEntry t d busy => Sys2Proof.Machine.execDomainEntry t d busy s
  | .entryRecheck t d busy => Sys2Proof.Machine.execEntryRecheck t d busy s
  | .quiesceTimeout t d agent => Sys2Proof.Machine.execQuiesceTimeout t d agent s
  | .lateWake t d => Sys2Proof.Machine.execLateWake t d s
  | .rampSlot t d => Sys2Proof.Machine.execRampSlot t d s
  | .domainWake t d parityError badBanks => Sys2Proof.Machine.execDomainWake t d parityError badBanks s
  | .wakeStepTimeout t d step => Sys2Proof.Machine.execWakeStepTimeout t d step s
  | .wakeRetry t d => Sys2Proof.Machine.execWakeRetry t d s
  | .fabricVoteWithdraw t d => Sys2Proof.Machine.execFabricVoteWithdraw t d s
  | .slIdleExpiry t k => Sys2Proof.Machine.execSlIdleExpiry t k s
  | .nightwatchPeriod samples => Sys2Proof.Machine.execNightwatchPeriod samples s
  | .nwEnter exitToo => Sys2Proof.Machine.execNwEnter exitToo s
  | .nwExit enterToo => Sys2Proof.Machine.execNwExit enterToo s
  | .updateStrobe value => Sys2Proof.Machine.execUpdateStrobe value s
  | .updateStrobeClearRej value => Sys2Proof.Machine.execUpdateStrobeClearRej value s
  | .applyModeClear w => Sys2Proof.Machine.execApplyModeClear w s
  | .stirRetrain t e => Sys2Proof.Machine.execStirRetrain t e s
  | .pdVoteHostWrite t d value => Sys2Proof.Machine.execPdVoteHostWrite t d value s
  | .pdVoteDbgWrite t d value jtag => Sys2Proof.Machine.execPdVoteDbgWrite t d value jtag s
  | .timebaseLoRead port => Sys2Proof.Machine.execTimebaseLoRead port s
  | .aliasWrite w => Sys2Proof.Machine.execAliasWrite w s
  | .registerWrite w => Sys2Proof.Machine.execRegisterWrite w s
  | .registerWriteLand block => Sys2Proof.Machine.execRegisterWriteLand block s
  | .dataFlit t e m bytes => Sys2Proof.Machine.execDataFlit t e m bytes s
  | .idleFlit t e m bytes => Sys2Proof.Machine.execIdleFlit t e m bytes s
  | .replayTimeout t e m => Sys2Proof.Machine.execReplayTimeout t e m s
  | .moduleRetrain t e m ok => Sys2Proof.Machine.execModuleRetrain t e m ok s
  | .moduleDisable t e m => Sys2Proof.Machine.execModuleDisable t e m s
  | .routeUpdate => Sys2Proof.Machine.execRouteUpdate s
  | .meshFlitError t f => Sys2Proof.Machine.execMeshFlitError t f s
  | .reqTimeout t agent tag => Sys2Proof.Machine.execReqTimeout t agent tag s
  | .ctlResend t tag => Sys2Proof.Machine.execCtlResend t tag s
  | .linkParams t e body => Sys2Proof.Machine.execLinkParams t e body s
  | .linkDown t e => Sys2Proof.Machine.execLinkDown t e s
  | .sidebandCtl t e msg => Sys2Proof.Machine.execSidebandCtl t e msg s
  | .sleepReq t e => Sys2Proof.Machine.execSleepReq t e s
  | .sleepAck t e => Sys2Proof.Machine.execSleepAck t e s
  | .sleepNak t e => Sys2Proof.Machine.execSleepNak t e s
  | .sleepTimeout t e => Sys2Proof.Machine.execSleepTimeout t e s
  | .rdLine h tag addr => Sys2Proof.Machine.execRdLine h tag addr s
  | .wrLine h tag addr mask data => Sys2Proof.Machine.execWrLine h tag addr mask data s
  | .regRd h tag off => Sys2Proof.Machine.execRegRd h tag off s
  | .regWr h tag off data => Sys2Proof.Machine.execRegWr h tag off data s
  | .rdData h tag rstat data => Sys2Proof.Machine.execRdData h tag rstat data s
  | .wrAck h tag rstat => Sys2Proof.Machine.execWrAck h tag rstat s
  | .regData h tag rstat data => Sys2Proof.Machine.execRegData h tag rstat data s
  | .xack h qid srcPe attempt morsel count => Sys2Proof.Machine.execXack h qid srcPe attempt morsel count s
  | .xrec h qid pipe part record => Sys2Proof.Machine.execXrec h qid pipe part record s
  | .xackTimer t qid srcPe morsel attempt => Sys2Proof.Machine.execXackTimer t qid srcPe morsel attempt s
  | .xtallyReq h qid srcPe attempt morsel => Sys2Proof.Machine.execXtallyReq h qid srcPe attempt morsel s
  | .xchgTally h qid srcPe attempt morsel cnt xorHash => Sys2Proof.Machine.execXchgTally h qid srcPe attempt morsel cnt xorHash s
  | .barrier h qid pipe => Sys2Proof.Machine.execBarrier h qid pipe s
  | .emitBase h qid pipe base => Sys2Proof.Machine.execEmitBase h qid pipe base s
  | .schedState h level tj credit est => Sys2Proof.Machine.execSchedState h level tj credit est s
  | .stealReq h tag level => Sys2Proof.Machine.execStealReq h tag level s
  | .stealGrant h tag g => Sys2Proof.Machine.execStealGrant h tag g s
  | .stealRefuse h tag => Sys2Proof.Machine.execStealRefuse h tag s
  | .bootData h off data => Sys2Proof.Machine.execBootData h off data s
  | .fwMsg h tag kind data => Sys2Proof.Machine.execFwMsg h tag kind data s
  | .mctpControl b req => Sys2Proof.Machine.execMctpControl b req s
  | .pldmSensorRead b id => Sys2Proof.Machine.execPldmSensorRead b id s
  | .powerLimitEffecter b watts => Sys2Proof.Machine.execPowerLimitEffecter b watts s
  | .modeEffecter b mode => Sys2Proof.Machine.execModeEffecter b mode s
  | .readEvidence b off len => Sys2Proof.Machine.execReadEvidence b off len s
  | .setMgmtVote b tile domain vote => Sys2Proof.Machine.execSetMgmtVote b tile domain vote s
  | .getGpio b levels => Sys2Proof.Machine.execGetGpio b levels s
  | .setGpio b mask value levels => Sys2Proof.Machine.execSetGpio b mask value levels s
  | .requestUpdate b => Sys2Proof.Machine.execRequestUpdate b s
  | .firmwareComponentTransfer b off data last => Sys2Proof.Machine.execFirmwareComponentTransfer b off data last s
  | .activateFirmware b selfContained => Sys2Proof.Machine.execActivateFirmware b selfContained s
  | .cancelUpdate b => Sys2Proof.Machine.execCancelUpdate b s
  | .updateModeTimeout => Sys2Proof.Machine.execUpdateModeTimeout s
  | .add k rd ra rb => Sys2Proof.Machine.execAdd k rd ra rb s
  | .sub k rd ra rb => Sys2Proof.Machine.execSub k rd ra rb s
  | .and k rd ra rb => Sys2Proof.Machine.execAnd k rd ra rb s
  | .or k rd ra rb => Sys2Proof.Machine.execOr k rd ra rb s
  | .xor k rd ra rb => Sys2Proof.Machine.execXor k rd ra rb s
  | .sll k rd ra rb => Sys2Proof.Machine.execSll k rd ra rb s
  | .srl k rd ra rb => Sys2Proof.Machine.execSrl k rd ra rb s
  | .sra k rd ra rb => Sys2Proof.Machine.execSra k rd ra rb s
  | .slt k rd ra rb => Sys2Proof.Machine.execSlt k rd ra rb s
  | .sltu k rd ra rb => Sys2Proof.Machine.execSltu k rd ra rb s
  | .mul k rd ra rb => Sys2Proof.Machine.execMul k rd ra rb s
  | .mulh k rd ra rb => Sys2Proof.Machine.execMulh k rd ra rb s
  | .mulhu k rd ra rb => Sys2Proof.Machine.execMulhu k rd ra rb s
  | .div k rd ra rb => Sys2Proof.Machine.execDiv k rd ra rb s
  | .divu k rd ra rb => Sys2Proof.Machine.execDivu k rd ra rb s
  | .rem k rd ra rb => Sys2Proof.Machine.execRem k rd ra rb s
  | .remu k rd ra rb => Sys2Proof.Machine.execRemu k rd ra rb s
  | .jr k rd ra => Sys2Proof.Machine.execJr k rd ra s
  | .addi k rd ra imm => Sys2Proof.Machine.execAddi k rd ra imm s
  | .andi k rd ra imm => Sys2Proof.Machine.execAndi k rd ra imm s
  | .ori k rd ra imm => Sys2Proof.Machine.execOri k rd ra imm s
  | .xori k rd ra imm => Sys2Proof.Machine.execXori k rd ra imm s
  | .lui k rd imm => Sys2Proof.Machine.execLui k rd imm s
  | .lb k rd ra imm => Sys2Proof.Machine.execLb k rd ra imm s
  | .lh k rd ra imm => Sys2Proof.Machine.execLh k rd ra imm s
  | .lw k rd ra imm => Sys2Proof.Machine.execLw k rd ra imm s
  | .ld k rd ra imm => Sys2Proof.Machine.execLd k rd ra imm s
  | .lbu k rd ra imm => Sys2Proof.Machine.execLbu k rd ra imm s
  | .lhu k rd ra imm => Sys2Proof.Machine.execLhu k rd ra imm s
  | .lwu k rd ra imm => Sys2Proof.Machine.execLwu k rd ra imm s
  | .sb k rd ra imm => Sys2Proof.Machine.execSb k rd ra imm s
  | .sh k rd ra imm => Sys2Proof.Machine.execSh k rd ra imm s
  | .sw k rd ra imm => Sys2Proof.Machine.execSw k rd ra imm s
  | .sd k rd ra imm => Sys2Proof.Machine.execSd k rd ra imm s
  | .beq k ra rb off => Sys2Proof.Machine.execBeq k ra rb off s
  | .bne k ra rb off => Sys2Proof.Machine.execBne k ra rb off s
  | .blt k ra rb off => Sys2Proof.Machine.execBlt k ra rb off s
  | .bge k ra rb off => Sys2Proof.Machine.execBge k ra rb off s
  | .bltu k ra rb off => Sys2Proof.Machine.execBltu k ra rb off s
  | .bgeu k ra rb off => Sys2Proof.Machine.execBgeu k ra rb off s
  | .jmp k off => Sys2Proof.Machine.execJmp k off s
  | .jal k off => Sys2Proof.Machine.execJal k off s
  | .fadd k dbl rd ra rb => Sys2Proof.Machine.execFadd k dbl rd ra rb s
  | .fsub k dbl rd ra rb => Sys2Proof.Machine.execFsub k dbl rd ra rb s
  | .fmul k dbl rd ra rb => Sys2Proof.Machine.execFmul k dbl rd ra rb s
  | .fdiv k dbl rd ra rb => Sys2Proof.Machine.execFdiv k dbl rd ra rb s
  | .fsqrt k dbl rd ra => Sys2Proof.Machine.execFsqrt k dbl rd ra s
  | .fmin k dbl rd ra rb => Sys2Proof.Machine.execFmin k dbl rd ra rb s
  | .fmax k dbl rd ra rb => Sys2Proof.Machine.execFmax k dbl rd ra rb s
  | .feq k dbl rd ra rb => Sys2Proof.Machine.execFeq k dbl rd ra rb s
  | .flt k dbl rd ra rb => Sys2Proof.Machine.execFlt k dbl rd ra rb s
  | .fle k dbl rd ra rb => Sys2Proof.Machine.execFle k dbl rd ra rb s
  | .fcvti k dbl rd ra => Sys2Proof.Machine.execFcvti k dbl rd ra s
  | .fcvtf k dbl rd ra => Sys2Proof.Machine.execFcvtf k dbl rd ra s
  | .fmvx k dbl rd ra => Sys2Proof.Machine.execFmvx k dbl rd ra s
  | .fmvf k dbl rd ra => Sys2Proof.Machine.execFmvf k dbl rd ra s
  | .fcvtw k dbl rd ra => Sys2Proof.Machine.execFcvtw k dbl rd ra s
  | .fld k rd ra imm => Sys2Proof.Machine.execFld k rd ra imm s
  | .fsd k rd ra imm => Sys2Proof.Machine.execFsd k rd ra imm s
  | .csr k rd ra imm => Sys2Proof.Machine.execCsr k rd ra imm s
  | .vadd k vd va vb m => Sys2Proof.Machine.execVadd k vd va vb m s
  | .vsub k vd va vb m => Sys2Proof.Machine.execVsub k vd va vb m s
  | .vmul k vd va vb m => Sys2Proof.Machine.execVmul k vd va vb m s
  | .vand k vd va vb m => Sys2Proof.Machine.execVand k vd va vb m s
  | .vor k vd va vb m => Sys2Proof.Machine.execVor k vd va vb m s
  | .vxor k vd va vb m => Sys2Proof.Machine.execVxor k vd va vb m s
  | .vsll k vd va vb m => Sys2Proof.Machine.execVsll k vd va vb m s
  | .vsrl k vd va vb m => Sys2Proof.Machine.execVsrl k vd va vb m s
  | .vsra k vd va vb m => Sys2Proof.Machine.execVsra k vd va vb m s
  | .vmin k vd va vb m => Sys2Proof.Machine.execVmin k vd va vb m s
  | .vmax k vd va vb m => Sys2Proof.Machine.execVmax k vd va vb m s
  | .vminu k vd va vb m => Sys2Proof.Machine.execVminu k vd va vb m s
  | .vmaxu k vd va vb m => Sys2Proof.Machine.execVmaxu k vd va vb m s
  | .vseq k vd va vb m => Sys2Proof.Machine.execVseq k vd va vb m s
  | .vslt k vd va vb m => Sys2Proof.Machine.execVslt k vd va vb m s
  | .vsltu k vd va vb m => Sys2Proof.Machine.execVsltu k vd va vb m s
  | .vmerge k vd va vb m => Sys2Proof.Machine.execVmerge k vd va vb m s
  | .vfadd k vd va vb m => Sys2Proof.Machine.execVfadd k vd va vb m s
  | .vfsub k vd va vb m => Sys2Proof.Machine.execVfsub k vd va vb m s
  | .vfmul k vd va vb m => Sys2Proof.Machine.execVfmul k vd va vb m s
  | .vfdiv k vd va vb m => Sys2Proof.Machine.execVfdiv k vd va vb m s
  | .vfmin k vd va vb m => Sys2Proof.Machine.execVfmin k vd va vb m s
  | .vfmax k vd va vb m => Sys2Proof.Machine.execVfmax k vd va vb m s
  | .vsadd k vd va vb m => Sys2Proof.Machine.execVsadd k vd va vb m s
  | .vssub k vd va vb m => Sys2Proof.Machine.execVssub k vd va vb m s
  | .vrshr k vd va xb m => Sys2Proof.Machine.execVrshr k vd va xb m s
  | .vmulhr k vd va vb m => Sys2Proof.Machine.execVmulhr k vd va vb m s
  | .vnarrows k vd va xb m => Sys2Proof.Machine.execVnarrows k vd va xb m s
  | .vscale10 k vd va xb m p => Sys2Proof.Machine.execVscale10 k vd va xb m p s
  | .vredsum k vd va vb m => Sys2Proof.Machine.execVredsum k vd va vb m s
  | .vredmin k vd va vb m => Sys2Proof.Machine.execVredmin k vd va vb m s
  | .vredmax k vd va vb m => Sys2Proof.Machine.execVredmax k vd va vb m s
  | .vredminu k vd va vb m => Sys2Proof.Machine.execVredminu k vd va vb m s
  | .vredmaxu k vd va vb m => Sys2Proof.Machine.execVredmaxu k vd va vb m s
  | .vfredsum k vd va vb m => Sys2Proof.Machine.execVfredsum k vd va vb m s
  | .vfredmin k vd va vb m => Sys2Proof.Machine.execVfredmin k vd va vb m s
  | .vfredmax k vd va vb m => Sys2Proof.Machine.execVfredmax k vd va vb m s
  | .vld k vd xa imm => Sys2Proof.Machine.execVld k vd xa imm s
  | .vst k vd xa imm => Sys2Proof.Machine.execVst k vd xa imm s
  | .vldx k vd xa vb m => Sys2Proof.Machine.execVldx k vd xa vb m s
  | .vstx k vd xa vb m => Sys2Proof.Machine.execVstx k vd xa vb m s
  | .vsetl k rd ra imm => Sys2Proof.Machine.execVsetl k rd ra imm s
  | .vstep k rd => Sys2Proof.Machine.execVstep k rd s
  | .vbcast k vd xa m => Sys2Proof.Machine.execVbcast k vd xa m s
  | .vext k rd va xb m => Sys2Proof.Machine.execVext k rd va xb m s
  | .vins k vd xa xb m => Sys2Proof.Machine.execVins k vd xa xb m s
  | .vidx k vd m => Sys2Proof.Machine.execVidx k vd m s
  | .ret k => Sys2Proof.Machine.execRet k s
  | .brk k => Sys2Proof.Machine.execBrk k s
  | .hostLinkUp up => Sys2Proof.Machine.execHostLinkUp up s
  | .hostLinkDown t => Sys2Proof.Machine.execHostLinkDown t s
  | .lockstep t => Sys2Proof.Machine.execLockstep t s
  | .aonUncorrectable t => Sys2Proof.Machine.execAonUncorrectable t s
  | .digestLaneError t lane => Sys2Proof.Machine.execDigestLaneError t lane s
  | .illegal k word => Sys2Proof.Machine.execIllegal k word s
  | .leaveL1 t e => Sys2Proof.Machine.execLeaveL1 t e s
  | .linkTrained t e modules => Sys2Proof.Machine.execLinkTrained t e modules s

end Sys2Proof.Machine
end

