-- ==== Sys2Proof/Safety.lean ====
section
/-! DEFINITION. What counts as a safe state, the canonical forms that every step keeps, and the words in which the obligations speak. -/

namespace Sys2Proof.Machine

/-- The store memory and the durable copies of persistent bytes are in canonical form (R26, R161). -/
def State.memOk (s : State) : Bool := Memory.wf s.mem && Memory.wf s.durable

/-- A step that does not stop. -/
def runs (o : Host.Outcome State Fault Refusal) : Prop := ∃ s, o = .next s

/-- The state with the completion of a command formed as `k` and stamped with the timebase (R79, R102): the command waits for its
write, and nothing else changes. -/
def State.formed (s : State) (c : CmdRef) (k : Completion) : State :=
  s.onCmd c fun y => { y with phase := .done, prog := .idle, comp := { k with tstamp := s.now } }

/-- What a segment asks of its entry for its bytes to lie apart: a tile to lie on, and rows that end inside a tier's address space (R26, R141). -/
def Seg.laid (g : Seg) : Prop :=
  (g.placement = 1 ∨ g.placement = 2 → maskTiles g.tiles ≠ []) ∧ g.off + g.rowUnits * unitB ≤ 2 ^ 47

/-- From `s` to `t` the bytes `bs` were stored at offset `off` of the segment, at every address that holds them, and every byte at any other
address reads as before (R142, R143, R157). -/
def storedIn (s t : State) (g : Seg) (off : Nat) (bs : List Byte) : Prop :=
  (∀ i, (h : i < bs.length) → ∀ a ∈ g.locs (off + i), t.cell? a = some bs[i]) ∧
  ∀ a, (∀ i < bs.length, a ∉ g.locs (off + i)) → t.cell? a = s.cell? a

/-- The rows whose commands can change the store memory: they write a segment, whose full staging buffers drain, or drain one; they
allocate or free a segment, write a persistent directory, or lose a tier, an expander or the power. -/
def touchesMemory : Instr → Bool
  | .pwrokLow _ | .pkgResetNLow _ | .trainSequence _ | .sliceDestroy _ | .sliceRestore _ _ | .segAlloc _ | .segFreeEffect _
  | .segWrite _ _ | .segCopy _ | .segFlush _ | .gpfPhaseDone _ _ _ _ | .gpfTimeout _ _ _ | .stagingDrain _ _
  | .codecFrame _ _ _ _ | .domainEntry _ _ _ | .entryRecheck _ _ _ | .quiesceTimeout _ _ _ | .domainWake _ _ _ _
  | .wakeStepTimeout _ _ _ | .dataFlit _ _ _ _ | .idleFlit _ _ _ _ | .sidebandCtl _ _ _ | .sleepAck _ _ | .wrLine _ _ _ _ _ => true
  | _ => false

/-- The rows whose commands can change what the persistence domain holds: they end a flush, allocate a segment, settle a directory record
when its command is stopped, or lose the power. -/
def touchesDurable : Instr → Bool
  | .pwrokLow _ | .pkgResetNLow _ | .pkgResetNRise _ | .trainSequence _ | .perstNLow _ _ | .cinchPulse _ _ | .cinchCommit _ _
  | .cinchWirePulse _ _ | .cinchPrepareTimeout _ | .cinchApplyTimeout _ | .masterLost _ | .sliceDestroy _ | .sliceReset _
  | .sliceRestore _ _ | .segAlloc _ | .gpfPhaseDone _ _ _ _ | .gpfTimeout _ _ _ | .queueReset _ | .queueResetForceStop _
  | .queueResetDone _ | .sliceTableEcc _ _ | .quiesceTimeout _ _ _ | .domainWake _ _ _ _ | .wakeStepTimeout _ _ _ | .nwEnter _
  | .nwExit _ | .updateStrobe _ | .updateStrobeClearRej _ | .applyModeClear _ | .stirRetrain _ _ | .pdVoteHostWrite _ _ _
  | .pdVoteDbgWrite _ _ _ _ | .aliasWrite _ | .registerWrite _ | .registerWriteLand _ | .dataFlit _ _ _ _ | .idleFlit _ _ _ _
  | .routeUpdate | .meshFlitError _ _ | .ctlResend _ _ | .sidebandCtl _ _ _ | .regWr _ _ _ _ | .lockstep _ => true
  | _ => false

/-- The command has ended with the status and the result bytes and waits for its completion to be written (R79, R102). -/
def endedIn (t : State) (c : CmdRef) (status : Nat) (result : List Byte) : Prop :=
  ∃ y, t.cmd? c = some y ∧ y.phase = .done ∧ y.comp.status = status ∧ y.comp.result = result

/-- The flush ended because the expander did not answer in time or answered that it failed (R162). -/
def persistFailed (s : State) (c : CmdRef) (k : TileId) (n : Nat) (t : State) : Prop :=
  (∃ y, t.cmd? c = some y ∧ y.phase = .done ∧ y.comp.status = stUncorrectable) ∧
  ((t.tile k).err.ring.getLast?).any (fun r => r.event == evPersistFailed && r.index == n % 256) = true ∧ t.queues = s.queues ∧ t.mem = s.mem

/-- Slice command `x` acts now: it is its turn and the slice is in a state that allows it (R441, R442). -/
def sliceReady (s : State) (x : Cmd) : Prop := s.myTurn x = true ∧ s.sliceStatus x = none

/-- A queue register write lands now: the host reaches the block and no write is held before it (R34, R500, R508). -/
def queueWritable (s : State) (q : QueueId) : Prop :=
  s.liveTiles.any s.portUp = true ∧ s.dev.mode.hostWritable = true ∧ (s.block (queueBlock q.val)).buffer = []

/-- Tile `u` is as before, but for an interrupt that waits for its vector's mask (R83). -/
def sameTile (s t : State) (u : TileId) : Prop := t.tile u = { s.tile u with msixPend := (t.tile u).msixPend }

/-- The patrol scrub of a unit reads the address now: the tile and the unit's domain are up, its period runs and its pass has come so far (R165, log 85). -/
def scrubbing (s : State) (t : TileId) (w : ScrubUnit) (a : Nat) : Prop :=
  s.live t = true ∧ s.dev.mode.storeUp = true ∧ s.feat.scrubPeriod ≠ 0 ∧ s.scrubs t w a = true ∧ s.scrubOn t w a = true ∧
  s.now < (s.scrubOf t w).began + s.scrubNs ∧ (s.scrubOf t w).next ≤ scrubPos w a

/-- Segments and every stored byte, drained or staged, are as before. -/
def sameStore (s t : State) : Prop := t.mem = s.mem ∧ t.segs = s.segs ∧ ∀ u, (t.tile u).staging = (s.tile u).staging

/-- A write of the host to the block lands at once: a host port is up, the mode and the block take it, nothing waits before it and nothing holds it
(R34, R500, R504, R507, R508). -/
def regOpen (s : State) (b : Blk) : Prop :=
  s.hostThere = true ∧ s.blkPresent b = true ∧ s.dev.mode.takesWrites b = true ∧ (s.block b.no).buffer = [] ∧ s.heldBlk b = false

/-- A request is served where it arrives: the tile is live, the agent's domain is ON, and its generations are current (R92, R367, R450). -/
def served (s : State) (h : MsgHdr) : Prop :=
  s.live h.dstTile = true ∧ (∀ d, agentDom h.dstAgent = some d → s.domOn h.dstTile d = true) ∧ s.stale? h = false

/-- The answer to a request: its type, the sender and receiver exchanged, its body, and whatever follows it out. -/
def answers (s t : State) (h : MsgHdr) (mtype : Nat) (body : List Byte) : Prop :=
  ∃ (h' : MsgHdr) (more : List Out), h'.dstTile = h.srcTile ∧ h'.dstAgent = h.srcAgent ∧ h'.srcTile = h.dstTile ∧ h'.srcAgent = h.dstAgent ∧
    t.out = s.out ++ .msg mtype h' body :: more

/-- `t` is COLD after `s`: everything is as reset leaves it but the flash, what the persistent regions of the expanders hold and where these lie, the command
queue and what manufacture fixed; the flash keeps its configuration, its slots, RECOVERY and DESC (R36, R162, R521). -/
def inCold (s t : State) : Prop :=
  t = { State.reset with
    tiles := vecOf fun u : TileId => { resetTile with cxl := (s.tile u).cxl }
    pending := s.pending, man := s.man, tick := s.tick + 1, out := s.out, flash := t.flash, mem := t.mem, durable := t.mem, poison := t.poison
    pins := t.pins } ∧
  t.flash.config = s.flash.config ∧ t.flash.recovery = s.flash.recovery ∧ t.flash.slotA.bytes = s.flash.slotA.bytes ∧
  t.flash.slotB.bytes = s.flash.slotB.bytes ∧ t.flash.desc = s.flash.desc ∧ t.pins.pkgResetN = false ∧
  (∀ a, s.persistentAddr a = false → memRead t.mem a = none) ∧ ∀ u, u ∈ t.poison ↔ u ∈ s.poison ∧ s.persistentAddr (64 * u) = true

/-- The state with one reply of the endpoint. -/
def replied (s : State) (b : MgmtBinding) (c : Code) (body : List Byte) : State := { s with out := s.out ++ [.reply b c (.bytes body)] }

/-- A tile's Cinch message to the master. -/
def toMaster (s : State) (t : TileId) (op change arg reason epoch seq : Nat) : Out := .cinch t.val s.masterTile.val op change arg reason epoch seq

/-- A tile other than the master has applied the change it had prepared and answers APPLIED with its count (R40, R46). -/
def appliedOn (s s' : State) (t : TileId) (p : Nat × Nat × Nat) : Prop :=
  (s'.tile t).prepared = none ∧ (s'.tile t).heldGroup = none ∧ (s'.tile t).taken = some (p.1, p.2.2) ∧
  (p.1 = 1 → (s'.tile t).mode = s.changeMode p.2.1) ∧ (p.1 = 2 → (s'.tile t).strobeSeq = ((s.tile t).strobeSeq + 1) % 2 ^ 32) ∧
  (p.1 = 3 → (s'.tile t).sched.profile = p.2.1) ∧
  s'.out = s.out ++ [toMaster s t 0x05 p.1 p.2.1 0 p.2.2 (s'.tile t).strobeSeq] ∧ ∀ u, u ≠ t → s'.tile u = s.tile u

/-- A core runs a call and its next word may be fetched (R397, R398). -/
def sumenReady (s : State) (k : CoreId) (call : Call) (m : UdfCtx) : Prop :=
  s.coreReady k = some (call, m) ∧ fetchCause m (s.sumen k).pc.toNat = none

/-- The instruction completed on core `k` with core `d`: nothing outside the core changed, and the core stands at the next word. -/
def coreStep (s : State) (k : CoreId) (d : Core) (t : State) : Prop :=
  t = s.setSumen k { d with pc := (s.sumen k).pc + 4 }

/-- The core with `v` in integer register `rd` and every other one kept; a write to X0 is discarded (R395). -/
def withX (c : Core) (rd : RegNo) (v : Word64) : Core :=
  { c with x := Vector.ofFn fun r => if r = rd ∧ rd ≠ 0 then v else c.x[r] }

/-- The core with `v` in Fd, every bit of Vd above bit 63 then 0, and every other register kept (R395). -/
def withF (c : Core) (rd : RegNo) (v : Nat) : Core :=
  { c with v := Vector.ofFn fun r => if r = rd then BitVec.ofNat 2048 (v % 2 ^ 64) else c.v[r] }

/-- The device after an instruction that wrote `v` to RD and nothing else. -/
def putX (s : State) (k : CoreId) (rd : RegNo) (v : Word64) : State := s.setSumen k (withX (s.sumen k) rd v).next

/-- The device after an instruction that wrote `r.1` to Fd and ORed `r.2` into FFLAGS. -/
def putF (s : State) (k : CoreId) (rd : RegNo) (r : Nat × FFlags) : State := s.setSumen k (withF ((s.sumen k).orFlags r.2) rd r.1).next

/-- The device after a comparison or a conversion that wrote `v` to Xd and left FXCSR `x`. -/
def putXf (s : State) (k : CoreId) (rd : RegNo) (v x : Word64) : State :=
  s.setSumen k { (withX (s.sumen k) rd v).next with fxcsr := x }

/-- The device after an access that stopped: the core waits for the line, or the call ends with the fault (R411, R412). -/
def stoppedAt (s : State) (k : CoreId) (call : Call) : Stop → State
  | .miss l => s.setSumen k { s.sumen k with miss := some l, wmiss := min 0xFFFFFFFF ((s.sumen k).wmiss + 1) }
  | .fault cause _ => s.faultCall k (s.sumen k) call cause (faultRow (s.sumen k) call.select false)

/-- From `c` to `d` the active elements of Vd from VRESUME on took `f`, every other element and register stays, and VRESUME is 0 (R402). -/
def wroteElems (c : Core) (m : Bool) (vd : RegNo) (f : Nat → Nat) (d : Core) : Prop :=
  (∀ e, (e + 1) * c.ew ≤ 2048 → d.elem vd e = if c.vresume.toNat ≤ e ∧ c.active m e = true then f e % 2 ^ c.ew else c.elem vd e) ∧
  (∀ r : RegNo, r ≠ vd → d.v[r] = c.v[r]) ∧ d = { c with v := d.v, vresume := 0 }

/-- The device after an element instruction that left `f` in the active elements of Vd (R402). -/
def vecDone (s : State) (k : CoreId) (m : Bool) (vd : RegNo) (f : Nat → Nat) (t : State) : Prop :=
  ∃ d : Core, coreStep s k d t ∧ wroteElems (s.sumen k) m vd f d

/-- The same with the flags of every element it computed ORed into FFLAGS (R407). -/
def vecFloat (s : State) (k : CoreId) (m : Bool) (vd : RegNo) (r : Nat → Nat × FFlags) (t : State) : Prop :=
  ∃ d : Core, wroteElems (s.sumen k) m vd (fun e => (r e).1) d ∧ coreStep s k { d with
    fxcsr := (((s.sumen k).activeFrom m).foldl (fun (x : Core) (e : Nat) => x.orFlags (r e).2) (s.sumen k)).fxcsr } t

/-- The nearer end of the range, or the value itself (R404). -/
def clampTo (b : Int × Int) (v : Int) : Int := if v < b.1 then b.1 else if b.2 < v then b.2 else v

/-- FXCSR with SAT set where `p` holds. -/
def satIf (p : Prop) [Decidable p] (x : Word64) : Word64 := if p then x ||| 4 else x

/-- The device after a fixed-point instruction: each active element is its exact value or the nearer bound, and SAT is set where one lay outside (R404). -/
def vecFixed (s : State) (k : CoreId) (m : Bool) (vd : RegNo) (b : Int × Int) (f : Nat → Int) (t : State) : Prop :=
  ∃ d : Core, wroteElems (s.sumen k) m vd (fun e => ofSigned (s.sumen k).ew (clampTo b (f e))) d ∧ coreStep s k { d with
    fxcsr := satIf (((s.sumen k).activeFrom m).any (fun e => decide (f e < b.1 ∨ b.2 < f e)) = true) (s.sumen k).fxcsr } t

/-- The device after a reduction: element 0 of Vd is `v`, its other elements and the other registers stay, VRESUME is 0 and FXCSR `x` (R406). -/
def vecFolded (s : State) (k : CoreId) (vd : RegNo) (v : Nat) (x : Word64) (t : State) : Prop :=
  let c := s.sumen k
  ∃ d : Core, (∀ e, (e + 1) * c.ew ≤ 2048 → d.elem vd e = if e = 0 then v % 2 ^ c.ew else c.elem vd e) ∧ (∀ r : RegNo, r ≠ vd → d.v[r] = c.v[r]) ∧
    d = { c with v := d.v } ∧ coreStep s k { d with fxcsr := x, vresume := 0 } t

/-- The fields that the encoding restricts: a CSR number, a width code, and P (R396, R401, R403). -/
def sumenFields : Instr → Bool
  | .csr _ _ _ imm => decide (1 ≤ imm.toNat ∧ imm.toNat ≤ 6)
  | .vsetl _ _ _ imm => decide (imm.toNat ≤ 4)
  | .vscale10 _ _ _ _ _ p => decide (p.val ≤ 38)
  | _ => true

end Sys2Proof.Machine
end

