-- ==== Sys2Proof/Certificates/Slice0/Obligations.lean ====
section
/-! DEFINITION. The obligations of this model: what each family of commands does, from the rules of spec/. A statement holds for every state
and operand that meets its hypotheses. -/

open Sys2Proof Sys2Proof.Machine

/-- O1. A step runs the command at the front of the queue on the state with the queue's rest. -/
def Obligations.StepRunsTheFrontCommand : Prop :=
  ∀ (c : Instr) (rest : List Instr) (s : State), step { s with pending := c :: rest } = exec c { s with pending := rest }

/-- O2. With no command waiting the timebase counts one nanosecond, modulo 2^64, unless the device is in COLD, where it stands; nothing else
changes (the model's choice, log 2). -/
def Obligations.EmptyQueueCountsTheTimebase : Prop :=
  ∀ s : State, s.pending = [] →
    (s.dev.mode = .cold → step s = .next s) ∧
    (s.dev.mode ≠ .cold → step s = .next { s with now := (s.now + 1) % 2 ^ 64 })

/-- O3. Every command, with every operand, in every state, answers a next state: no operand and no state stops the block. -/
def Obligations.EveryCommandAnswersANextState : Prop :=
  ∀ (c : Instr) (s : State), ∃ t, exec c s = .next t

/-- O4. No command touches the queue of waiting commands, and none changes what manufacture fixed: the part, its grade and step, MIN_SVN and the
debug fuse. -/
def Obligations.CommandsLeaveQueueAndManufacture : Prop :=
  ∀ (c : Instr) (s t : State), exec c s = .next t → t.pending = s.pending ∧ t.man = s.man

/-- O5. Every step keeps the store memory and the durable copies of persistent bytes in canonical form: addresses strictly rising. -/
def Obligations.StepKeepsMemoryCanonical : Prop :=
  ∀ s t : State, s.memOk = true → step s = .next t → t.memOk = true

/-- O6. Every command but those of `touchesMemory` leaves every byte of the store memory as it was, and every command but those of
`touchesDurable` every durable copy. -/
def Obligations.OtherCommandsLeaveMemory : Prop :=
  ∀ (c : Instr) (s t : State), exec c s = .next t →
    (touchesMemory c = false → ∀ a, memRead t.mem a = memRead s.mem a) ∧
    (touchesDurable c = false → ∀ a, memRead t.durable a = memRead s.durable a)

/-- O7. IDENTIFY, GET_LOG, READ_MONITORS and NOP complete with SUCCESS and their results, and change nothing but their own command; GET_LOG also
writes min(TOTAL, size − OFFSET) bytes of the page to its destination, and where the host refuses a byte of them ends with TRANSLATION_FAULT
at the first byte not written (R111, R114). What SET_FEATURE sets, feature by feature: each completes with the value in force before, but
for SCHED_WINDOW, which completes when the next window has started, and DVFS_PROFILE, which completes with the Cinch change it requires.
POWER_LIMIT sets the package limit unless its value is 0, FW_DOWNLOAD writes its bytes into the named slot alone, and FW_ACTIVATE of a valid
image in a service mode requires DUSK. -/
def Obligations.AdminCommandsComplete : Prop :=
  (
  (∀ s c x, s.fresh? c 0x01 = some x → x.f 4 1 = 0 →
    let r := leBytes 1 (partCode s.man.part) ++ leBytes 1 s.presentMask ++ leBytes 1 s.dev.fenced ++ leBytes 1 s.dev.hostRole ++
      leBytes 4 s.dev.fwVersion ++ leBytes 1 s.dev.svn ++ leBytes 1 s.man.grade ++ leBytes 2 1024 ++ leBytes 2 4096 ++ leBytes 4 262143 ++
      leBytes 4 (sumOver s fun y => y.ddr0Gib + y.ddr1Gib) ++ leBytes 4 (sumOver s Tile.cxlBytes / 2 ^ 30)
    exec (.identify c) s = .next (s.formed c { result := r })) ∧
  (∀ s c x, s.fresh? c 0x01 = some x → x.f 4 1 = 1 →
    let n := x.f 6 2
    let r := leBytes 2 n ++ leBytes 2 (s.slc n).gen ++ leBytes 4 (s.slc n).segUsed ++ leBytes 4 (s.segQuotaOf n) ++ leBytes 2 (s.slc n).qUsed ++
      leBytes 2 (s.qQuotaOf n) ++ leBytes 1 (min 255 (s.slc n).keyUsed) ++ leBytes 1 (min 255 (s.keyQuotaOf n)) ++
      leBytes 2 (s.slc n).keyUsed ++ leBytes 2 (s.keyQuotaOf n)
    exec (.identify c) s = .next (s.formed c { result := r })) ∧
  (∀ s c x, s.fresh? c 0x02 = some x →
    let size := logSize (x.f 4 1)
    let n := min (x.dref 16).total (size - x.f 8 8)
    let sent := fun (bs : List Byte) => ({ s with
      out := s.out ++ (scatter (x.stream 16) bs).map fun p => Out.hostWrite x.ring.port (s.pasidOf x.slice) p.1 p.2 } : State)
    (∀ wfail, (∀ o, wfail = some o → n ≤ o) → exec (.getLog c wfail) s = .next
      ((sent (cut (logPage s x) (x.f 8 8) n)).formed c { result := leBytes 4 n ++ leBytes 4 size })) ∧
    (∀ o, o < n → ∃ t : State, exec (.getLog c (some o)) s = .next t ∧ endedIn t c 0x0901 (leBytes 8 o) ∧
      ∃ more, t.out = (sent ((cut (logPage s x) (x.f 8 8) n).take o)).out ++ more)) ∧
  (∀ s c x, s.fresh? c 0x71 = some x → exec (.readMonitors c) s =
    .next (s.formed c { result := monitorBytes (s.tile (tid (x.f 4 1))) (x.f 5 1) })) ∧
  (∀ s c x, s.fresh? c 0x7F = some x → exec (.nop c) s = .next (s.formed c {}))) ∧
  (
  ∀ s c x, s.fresh? c 0x03 = some x →
    let v := x.f 8 8
    (x.f 4 2 = 1 → exec (.setFeature c) s =
      .next (State.onCmd { s with feat := { s.feat with schedNext := some v } } c fun y => { y with prog := .window s.feat.schedWindow })) ∧
    (x.f 4 2 = 2 → exec (.setFeature c) s =
      .next (State.formed { s with feat := { s.feat with retSigEn := v == 1 } } c { result := leBytes 8 (boolNat s.feat.retSigEn) })) ∧
    (x.f 4 2 = 3 → exec (.setFeature c) s =
      .next (State.formed { s with feat := { s.feat with slIdle := v } } c { result := leBytes 8 s.feat.slIdle })) ∧
    (x.f 4 2 = 4 → exec (.setFeature c) s =
      .next (State.formed { s with feat := { s.feat with scrubPeriod := v } } c { result := leBytes 8 s.feat.scrubPeriod })) ∧
    (x.f 4 2 = 5 → exec (.setFeature c) s =
      .next ((s.onCmd c fun y => { y with prog := .change s.feat.profile }).require { code := 3, arg := v, origin := .feature c x.order })) ∧
    (x.f 4 2 = 6 →
      let r := configWith (if s.cfg.recovery then plainRecord s.dev.limitW else s.cfg.record) v
      exec (.setFeature c) s = .next (State.formed
        { s with
          cfg := { s.cfg with bootSlot := v, seq := field r 4 4, record := r }
          flash := { s.flash with config := [r, r, r] }
          out := s.out ++ [.flash 0x00010000 r, .flash 0x00020000 r, .flash 0x00030000 r] }
        c { result := leBytes 8 s.cfg.bootSlot }))) ∧
  (
  (∀ s c x, s.fresh? c 0x70 = some x → x.f 4 2 = 0 →
    exec (.powerLimit c) s = .next (s.formed c { result := leBytes 2 s.dev.limitW ++ leBytes 2 s.dev.limitW })) ∧
  (∀ s c x, s.fresh? c 0x70 = some x → x.f 4 2 ≠ 0 →
    exec (.powerLimit c) s = .next (State.formed { s with dev := { s.dev with limitW := x.f 4 2 } } c
      { result := leBytes 2 (x.f 4 2) ++ leBytes 2 s.dev.limitW })) ∧
  (∀ s c x src, s.fresh? c 0x04 = some x → src.err = none →
    let bs := cut src.bytes 0 (x.dref 16).total
    let off := x.f 8 4
    ∃ t : State, exec (.fwDownload c src) s = .next (t.formed c {}) ∧
      t = { s with tick := s.tick + 1, out := s.out ++ [.flash (slotBase (x.f 4 1) + off) bs], flash := t.flash } ∧
      t.flash.config = s.flash.config ∧ t.flash.recovery = s.flash.recovery ∧ t.flash.evidence = s.flash.evidence ∧
      (x.f 4 1 = 0 → t.flash.slotB = s.flash.slotB ∧
        t.flash.slotA.bytes = memWriteBytes (if off = 0 then [] else s.flash.slotA.bytes) off bs) ∧
      (x.f 4 1 ≠ 0 → t.flash.slotA = s.flash.slotA ∧
        t.flash.slotB.bytes = memWriteBytes (if off = 0 then [] else s.flash.slotB.bytes) off bs)) ∧
  (∀ s c x, s.fresh? c 0x05 = some x → s.dev.mode.serving = true → s.dev.activation = none →
    (s.flash.slot (x.f 4 1)).valid s.man.minSvn = true →
    exec (.fwActivate c) s = .next (State.onCmd
      { s with dev := { s.dev with
          activation := some { c := c, slot := x.f 4 1, commit := bit x.cflags 0 }
          waiting := s.dev.waiting ++ [{ code := 1, arg := 6, origin := .activation }] } }
      c fun y => { y with prog := .activate })))

/-- O8. SEG_ALLOC gives the lowest free ID, or the one asked for, and the ID's next generation; no other entry and no other generation changes;
a persistent segment's command waits until its directory record is durable (R145, R159). -/
def Obligations.SegAllocGivesIdAndGeneration : Prop :=
  (∀ id, tblGet State.reset.segGen id 0 = 0) ∧
  ∀ s c x, s.fresh? c 0x20 = some x → s.allocCheck x = none →
    ∃ (t : State) (id : Nat), exec (.segAlloc c) s = .next t ∧
      (x.f 4 4 = 0 → 1 ≤ id ∧ (s.seg id).valid = false ∧ ∀ j, 1 ≤ j → j < id → ∃ g, (j, g) ∈ s.validSegs) ∧
      (x.f 4 4 ≠ 0 → id = x.f 4 4) ∧
      tblGet t.segGen id 0 = (if (tblGet s.segGen id 0 + 1) % 2 ^ 16 = 0 then 1 else (tblGet s.segGen id 0 + 1) % 2 ^ 16) ∧
      (t.seg id).gen = tblGet t.segGen id 0 ∧ (t.seg id).gen ≠ 0 ∧ (t.seg id).valid = true ∧
      (∀ j, j ≠ id → tblGet t.segGen j 0 = tblGet s.segGen j 0 ∧ t.seg j = s.seg j) ∧
      let result := leBytes 4 id ++ leBytes 2 (tblGet t.segGen id 0)
      (bit (x.f 20 1) 0 = false → endedIn t c stSuccess result) ∧
      (bit (x.f 20 1) 0 = true → ∃ y, t.cmd? c = some y ∧
        ((∃ i, y.phase = .started ∧
          y.prog = .dirWait ⟨id, false, i, ⟨addrTile (t.seg id).base, s.expanderOf (t.seg id), 1⟩, result⟩) ∨
          y.phase = .done ∧ y.comp.status = stSuccess ∧ y.comp.result = result))

/-- O9. SEG_ALLOC writes the entry as it was asked for, on units that were free on every tile of it, charges the owner, and leaves the reserved
bytes of the data area holding nothing (R141, R144, R146). SEG_FREE holds the segment from its start; its effect comes once no other command
in flight names the segment: the entry is cleared, the charges return, and no other entry changes; of a persistent segment the directory
record goes first, and its removal becomes durable before the entry is cleared (R121, R144, R159). -/
def Obligations.SegAllocAndFreeKeepTheCharges : Prop :=
  (
  ∀ s c x, s.fresh? c 0x20 = some x → s.allocCheck x = none → x.f 16 1 ≤ 2 →
    ∃ (t : State) (id u : Nat), exec (.segAlloc c) s = .next t ∧
      (t.seg id).base = storeAddr ((maskTiles x.allocTiles).headD 0) (x.f 16 1) (u * unitB) ∧
      (t.seg id).tiles = x.allocTiles ∧ (t.seg id).length = x.f 8 8 ∧ (t.seg id).placement = x.f 17 1 ∧ (t.seg id).codec = x.f 21 1 ∧
      (t.seg id).slice = x.allocOwner ∧ (t.seg id).nframes = 0 ∧ (t.seg id).dirty = true ∧
      (x.f 21 1 = 1 → (t.seg id).fidx = (t.seg id).base + (t.seg id).rowUnits * 2 ^ 21) ∧
      (t.seg id).persistent = bit (x.f 20 1) 0 ∧ (t.seg id).zeroFill = bit (x.f 20 1) 1 ∧
      (∀ k ∈ maskTiles x.allocTiles, s.unitsFree k (x.f 16 1) (bit (x.f 20 1) 0) u (t.seg id).tileUnits = true) ∧
      (t.slc x.allocOwner).segUsed = (s.slc x.allocOwner).segUsed + 1 ∧
      tierUsed (t.seg id).tier (t.slc x.allocOwner) =
        tierUsed (t.seg id).tier (s.slc x.allocOwner) + (t.seg id).tileUnits * (maskTiles x.allocTiles).length * 2 ^ 21 ∧
      (∀ j, j ≠ x.allocOwner → t.slc j = s.slc j) ∧
      (bit (x.f 20 1) 0 = false → ∀ k ∈ maskTiles x.allocTiles, ∀ o < (t.seg id).tileUnits * unitB, (t.seg id).off + o < 2 ^ 47 →
        t.cell? (storeAddr k (t.seg id).tier ((t.seg id).off + o)) = none)) ∧
  (
  (∀ s c x, s.fresh? c 0x21 = some x →
    exec (.segFree c) s = .next ((s.noteSeg (x.f 4 4) fun g => { g with freeing := some c }).onCmd c fun y => { y with prog := .freeWait (x.f 4 4) })) ∧
  (∀ s c id, s.progOp? c 0x21 = some (.freeWait id) → (∃ y ∈ s.cmds, y.ref ≠ c ∧ id ∈ y.named) → exec (.segFreeEffect c) s = .next s) ∧
  ∀ s c id, s.progOp? c 0x21 = some (.freeWait id) → (s.seg id).valid = true → (∀ y ∈ s.cmds, y.ref = c ∨ id ∉ y.named) →
    let a := addrTile (s.seg id).base
    let k := s.expanderOf (s.seg id)
    let rec? := s.dirFind a k fun r => dirRecordOk r && field r 32 4 == id
    ((s.seg id).persistent = false ∨ rec? = none → ∃ t : State, exec (.segFreeEffect c) s = .next t ∧
      (t.seg id).valid = false ∧ (∀ j, j ≠ id → t.seg j = s.seg j) ∧
      (t.slc (s.seg id).slice).segUsed = (s.slc (s.seg id).slice).segUsed - 1 ∧
      tierUsed (s.seg id).tier (t.slc (s.seg id).slice) =
        tierUsed (s.seg id).tier (s.slc (s.seg id).slice) - (s.seg id).charged * 2 ^ 21 ∧
      t.cmds = ((s.goneSeg id).formed c {}).cmds ∧ t.queues = s.queues ∧ t.keys = s.keys ∧ t.mem = s.mem ∧ ∀ b, t.cell? b = s.cell? b) ∧
    (∀ i, (s.seg id).persistent = true → rec? = some i → exec (.segFreeEffect c) s = .next (State.onCmd
      { s with mem := memErase s.mem (s.dirBase a k + 64 * i) 64, out := s.out ++ [.gpf a k 1] } c fun y =>
        { y with prog := .dirWait { segid := id, removal := true, slot := i, phase := { tile := a, expander := k, phase := 1 }, result := [] } })))

/-- O10. SEG_WRITE stores the bytes of its stream, or after a host error those before the 64 B unit of the first one refused, at every place
that holds them and nothing anywhere else, and a read of the range by a unit on any tile then gives those bytes; only the staging buffers
and what they drain to, the poison marks, the segment's DIRTY bit and the command change (R111, R143, R157, R163). -/
def Obligations.SegWriteStoresItsBytes : Prop :=
  ∀ s c x src, s.fresh? c 0x22 = some x → s.reachable [x.f 4 4] = true →
    let id := x.f 4 4
    let off := x.f 8 8
    let g := s.segFor x id
    g.laid →
    (src.err = none →
      let bs := cut src.bytes 0 (x.dref 16).total
      off + bs.length ≤ g.length →
      ∃ t : State, exec (.segWrite c src) s = .next (t.formed c { result := leBytes 8 (x.dref 16).total }) ∧ storedIn s t g off bs ∧
        (∀ h < 8, t.segBytes h g off bs.length = bs) ∧
        t.seg id = { s.seg id with dirty := (s.seg id).dirty || !bs.isEmpty } ∧ (∀ j, j ≠ id → t.seg j = s.seg j) ∧
        t = { s with tiles := t.tiles, poison := t.poison, segs := t.segs, mem := t.mem, mapCopies := t.mapCopies } ∧
        (∀ u, t.tile u = { s.tile u with staging := (t.tile u).staging })) ∧
    (∀ e o, src.err = some (e, o) →
      let m := unitFloor off o
      off + m ≤ g.length →
      ∃ t : State, exec (.segWrite c src) s = .next t ∧ endedIn t c (hostStatus e) (leBytes 8 m) ∧ storedIn s t g off (cut src.bytes 0 m) ∧
        (∀ j, j ≠ id → t.seg j = s.seg j) ∧ t.queues = s.queues)

/-- O11. SEG_READ of a range without poison writes the segment's bytes to its destination and changes nothing else but its own command; at a
poisoned byte or one the host refuses it ends with that byte's offset (R111, R158). SEG_COPY into a raw segment stores at the destination
the bytes that the source held when it ran, at every place that holds them, and nothing anywhere else; at a poisoned byte it stores those
before that byte's 64 B unit and ends (R155, R158). -/
def Obligations.SegReadAndCopyMoveTheBytes : Prop :=
  (
  ∀ s c x, s.fresh? c 0x23 = some x → s.reachable [x.f 4 4] = true →
    let g := s.segFor x (x.f 4 4)
    let n := (x.dref 16).total
    let sent := fun (bs : List Byte) => ({ s with
      out := s.out ++ (scatter (x.stream 16) bs).map fun p => Out.hostWrite x.ring.port (s.pasidOf x.slice) p.1 p.2 } : State)
    (s.poisonAt x.home g (x.f 8 8) n = none → ∀ wfail, (∀ o, wfail = some o → n ≤ o) → exec (.segRead c wfail) s = .next
      ((sent (s.segBytes x.home g (x.f 8 8) n)).formed c { result := leBytes 8 n })) ∧
    (s.poisonAt x.home g (x.f 8 8) n = none → ∀ o, o < n → ∃ t : State, exec (.segRead c (some o)) s = .next t ∧
      endedIn t c stTranslation (leBytes 8 o) ∧ (∃ more, t.out = (sent ((s.segBytes x.home g (x.f 8 8) n).take o)).out ++ more) ∧
      t.mem = s.mem ∧ t.segs = s.segs) ∧
    (∀ p, s.poisonAt x.home g (x.f 8 8) n = some p → ∃ t : State, exec (.segRead c none) s = .next t ∧
      endedIn t c stUncorrectable (leBytes 8 p) ∧ (∃ more, t.out = (sent (s.segBytes x.home g (x.f 8 8) p)).out ++ more) ∧
      t.mem = s.mem ∧ t.segs = s.segs)) ∧
  (
  ∀ s c x, s.fresh? c 0x24 = some x → s.reachable [x.f 4 4, x.f 8 4] = true →
    let g := s.segFor x (x.f 4 4)
    let h := s.segFor x (x.f 8 4)
    h.codec ≠ 1 → h.laid → x.f 24 8 + x.f 32 8 ≤ h.length →
    (s.poisonAt x.home g (x.f 16 8) (x.f 32 8) = none →
      let bs := s.segBytes x.home g (x.f 16 8) (x.f 32 8)
      ∃ t : State, exec (.segCopy c) s = .next (t.formed c {}) ∧ storedIn s t h (x.f 24 8) bs ∧
        t.seg (x.f 8 4) = { s.seg (x.f 8 4) with dirty := (s.seg (x.f 8 4)).dirty || !bs.isEmpty } ∧ (∀ j, j ≠ x.f 8 4 → t.seg j = s.seg j) ∧
        t = { s with tiles := t.tiles, poison := t.poison, segs := t.segs, mem := t.mem, mapCopies := t.mapCopies }) ∧
    (∀ o, s.poisonAt x.home g (x.f 16 8) (x.f 32 8) = some o →
      let m := unitFloor (x.f 24 8) o
      ∃ t : State, exec (.segCopy c) s = .next t ∧ endedIn t c stUncorrectable (leBytes 8 m) ∧
        storedIn s t h (x.f 24 8) (s.segBytes x.home g (x.f 16 8) m) ∧ (∀ j, j ≠ x.f 8 4 → t.seg j = s.seg j)))

/-- O12. STAGING_DRAIN moves one line from the staging buffer to the tier: no read sees a difference, the line's bytes leave the buffer, and
nothing but the store memory and the buffers changes (R157). SEG_FLUSH completes at once where no expander holds data in scope, and
otherwise drains the scope and begins Phase 1 at each expander that does; a phase done moves its expander on; the last one makes the scope's
bytes durable and completes the command with FLUSHED; an error or a timeout is logged with the expander and ends the command as failed. The
two phases of a directory record end the allocation or the free that waits for it (R134, R159, R161, R162). FENCE completes once the head
stands at the position and every command it waits for has left, and changes nothing else; until then it waits (R132, R133). -/
def Obligations.StagingDrainsFlushesAndFences : Prop :=
  (
  ∀ s t line, s.live t = true → s.dev.mode.storeUp = true →
    ∃ s' : State, exec (.stagingDrain t line) s = .next s' ∧
      (∀ a, s'.cell? a = s.cell? a) ∧
      (∀ a, a / 64 = line → addrTile a = t.val → memRead (s'.tile t).staging a = none) ∧
      (∀ a, (a / 64 ≠ line ∨ addrTile a ≠ t.val) → memRead s'.mem a = memRead s.mem a) ∧
      s' = { s with mem := s'.mem, tiles := s'.tiles } ∧ (∀ u, s'.tile u = { s.tile u with staging := (s'.tile u).staging })) ∧
  (
  (∀ s c x, s.fresh? c 0x25 = some x → s.expandersOf (s.flushScope x) = [] →
    ∃ t : State, exec (.segFlush c) s = .next (t.formed c { result := leBytes 4 (s.flushScope x).length }) ∧
      t = { s with mem := t.mem, tiles := t.tiles, tick := s.tick + 1 } ∧ ∀ a, t.cell? a = s.cell? a) ∧
  (∀ s c x, s.fresh? c 0x25 = some x → s.expandersOf (s.flushScope x) ≠ [] →
    let es := s.expandersOf (s.flushScope x)
    ∃ t : State, exec (.segFlush c) s = .next (t.onCmd c fun y => { y with prog := .flush {
          phases := es.map fun p => { tile := p.1, expander := p.2, phase := 1 }, segs := s.flushScope x, began := s.tick + 1
          snap := t.mem.filter fun e => s.inSegs (s.flushScope x) e.1 } }) ∧
      t = { s with mem := t.mem, tiles := t.tiles, tick := s.tick + 1, out := s.out ++ es.map fun p => .gpf p.1 p.2 1 } ∧
      (∀ a, t.cell? a = s.cell? a) ∧ (∀ a, s.inSegs (s.flushScope x) a = true → addrTile a < 8 → memRead t.mem a = s.cell? a)) ∧
  (∀ (s : State) c x (k : TileId) n f p, s.running? c = some x → x.prog = .flush f → f.at? k n = some p →
    (p.phase = 1 → exec (.gpfPhaseDone c k n false) s = .next (State.onCmd { s with out := s.out ++ [.gpf k.val n 2] } c fun y =>
      { y with prog := .flush (f.second k n) })) ∧
    (p.phase ≠ 1 → (f.drop k n).phases ≠ [] → exec (.gpfPhaseDone c k n false) s = .next (s.onCmd c fun y =>
      { y with prog := .flush (f.drop k n) })) ∧
    (p.phase ≠ 1 → (f.drop k n).phases = [] → (∀ i ∈ f.segs, s.flushedWell f i = true) → Memory.wf f.snap = true →
      ∃ t : State, exec (.gpfPhaseDone c k n false) s = .next (t.formed c { result := leBytes 4 f.segs.length }) ∧
        t = { s with durable := t.durable, segs := t.segs } ∧ (∀ i, t.seg i = { s.seg i with flushed := (t.seg i).flushed }) ∧
        (∀ a, s.inSegs f.segs a = false → memRead t.durable a = memRead s.durable a) ∧
        ((∀ i ∈ f.segs, (s.seg i).flushed ≤ f.began) → ∀ a, s.inSegs f.segs a = true → memRead t.durable a = memRead f.snap a)) ∧
    ((f.drop k n).phases = [] → (∃ i ∈ f.segs, (addrTile (s.seg i).base, s.expanderOf (s.seg i)) = (k.val, n)) → (s.tile k).evidence = none →
      (∃ t, exec (.gpfPhaseDone c k n true) s = .next t ∧ persistFailed s c k n t) ∧ ∃ t, exec (.gpfTimeout c k n) s = .next t ∧ persistFailed s c k n t)) ∧
  (∀ (s : State) c x (k : TileId) n (w : DirWait), s.running? c = some x → x.prog = .dirWait w → w.phase.tile = k.val → w.phase.expander = n →
    (w.phase.phase = 1 → exec (.gpfPhaseDone c k n false) s = .next (State.onCmd { s with out := s.out ++ [.gpf k.val n 2] } c fun y =>
      { y with prog := .dirWait { w with phase := { w.phase with phase := 2 } } })) ∧
    (w.phase.phase ≠ 1 → s.memOk = true →
      let lo := s.dirBase k.val n + 64 * w.slot
      ∃ t : State, exec (.gpfPhaseDone c k n false) s = .next t ∧ endedIn t c stSuccess w.result ∧ t.mem = s.mem ∧
        (w.removal = true → (t.seg w.segid).valid = false) ∧ (w.removal = false → t.segs = s.segs) ∧
        ∀ a, memRead t.durable a = if lo ≤ a ∧ a < lo + 64 then memRead s.mem a else memRead s.durable a))) ∧
  (
  (∀ s c os, s.progOp? c 0x26 = some (.fenceWait 0 os) →
    ((∀ y ∈ s.cmds, y.ref = c ∨ y.order ∉ os) → exec (.fence c) s = .next (s.formed c {})) ∧
    ((∃ y ∈ s.cmds, y.ref ≠ c ∧ y.order ∈ os) → exec (.fence c) s = .next s)) ∧
  (∀ s c n os, s.progOp? c 0x26 = some (.fenceWait (n + 1) os) ∨ s.progOp? c 0x26 = some (.fenceHold os) → exec (.fence c) s = .next s))

/-- O13. COMMAND_START of a command that names no segment, passes its checks and finds its unit there marks it as started, keeps its lists and,
for FENCE, records what it waits for; nothing else changes but the record of an error that was corrected. One whose Buckle or prefetch entry
is lost ends with UNCORRECTABLE_MEMORY (R107, R132, R327). A command does not start while an earlier command of its queue blocks it: a
barrier or a whole-queue range of either, or ranges of the two that overlap in a segment with a write among them; COMMAND_START then changes
nothing (R97, R98, R131). -/
def Obligations.CommandsStartInOrder : Prop :=
  (
  ∀ (s : State) c x fetched votes ecc, s.cmd? c = some x → s.mayStart x = true →
    let u := (s.startEcc x ecc).1
    ((s.startEcc x ecc).2 = true → (u.slc x.slice).st ≠ .failed → x.op ≠ 0x21 → x.op ≠ 0x31 → x.op ≠ 0x32 → x.segFields = [] →
      u.objectCheck x = none → fetched.length = u.listCount x → u.listStatus x fetched = none → u.freeingFrags x fetched = [] →
      u.unitOk x = true →
      exec (.commandStart c fetched ⟨votes, ecc⟩) s = .next (u.onCmd c fun y => { y with
        phase := .started, lists := x.keptLists fetched, named := u.namedBy x (x.keptLists fetched)
        prog := if x.op = 0x26 then u.fenceProg x else .idle })) ∧
    (ecc = none ∨ (∃ e, ecc = some (e, .clean)) → u = s ∧ (s.startEcc x ecc).2 = true) ∧
    (∀ e, e ≠ EccUnit.imageStore → ecc = some (e, .uncorrectable) →
      ∃ t : State, exec (.commandStart c fetched ⟨votes, ecc⟩) s = .next t ∧ endedIn t c stUncorrectable [])) ∧
  (
  ∀ s c x y fetched votes ecc, s.cmd? c = some x → y ∈ s.earlier x →
    (x.barrier = true ∨ y.barrier = true ∨ x.whole = true ∨ y.whole = true ∨
      ∃ a ∈ x.ranges, ∃ b ∈ y.ranges, a.seg = b.seg ∧ (∃ o, a.lo ≤ o ∧ o < a.hi ∧ b.lo ≤ o ∧ o < b.hi) ∧ (a.write = true ∨ b.write = true)) →
    exec (.commandStart c fetched ⟨votes, ecc⟩) s = .next s)

/-- O14. SLICE_CREATE makes the slice ACTIVE with generation 1 and what it asked for, and no other slice changes, where slice 0 holds no
persistent segment for its PASID. SLICE_FREEZE of an ACTIVE slice that is quiet makes it FROZEN with fetch stopped and counts the queries
that paused; of a FROZEN one it only answers 0; while a unit works for the slice it stops fetch and waits (R453). SLICE_RESET gives the
slice its next generation before anything else and, once every queue of it has been reset, ends with the slice ACTIVE and the generation as
its result (R451). SLICE_THAW makes the slice ACTIVE and lets it fetch again; of an ACTIVE slice it only completes (R455). SLICE_DESTROY,
once the queues of the slice have been reset and nothing uses its objects, leaves the slice FREE, with no queue, no key, no image and no
segment of its own (R452). -/
def Obligations.SliceCommandsMoveTheirSlice : Prop :=
  (
  ∀ s c x, s.fresh? c 0x10 = some x → sliceReady s x → s.createCheck x = none →
    (∀ e ∈ s.segs, e.2.valid = true → e.2.persistent = true → e.2.slice = 0 → e.2.ownerPasid ≠ some (x.f 8 4)) →
    ∃ t : State, exec (.sliceCreate c) s = .next t ∧
      t.slc x.sl = { st := .active, pasid := x.f 8 4, gen := 1, qQuota := x.f 12 2, segQuota := x.f 14 4, keyQuota := x.f 18 1,
                     weight := x.f 19 1, share := x.f 20 2, hbmQuota := x.f 24 8, ddrQuota := x.f 32 8, cxlQuota := x.f 40 8,
                     ctxAddr := x.f 64 8, ctxLen := x.f 72 4, busy := some c } ∧
      (∀ n, n ≠ x.sl → t.slc n = s.slc n) ∧ t.cmds = (s.formed c { result := leBytes 2 1 }).cmds ∧
      t = { s with slices := t.slices, cmds := t.cmds }) ∧
  (
  (∀ s c x, s.fresh? c 0x13 = some x → sliceReady s x → (s.slc x.sl).st = .active → s.sliceQuiet x.sl = true →
    ∃ t : State, exec (.sliceFreeze c) s = .next t ∧
      t.slc x.sl = { s.slc x.sl with st := .frozen, noFetch := true, busy := some c } ∧ (∀ n, n ≠ x.sl → t.slc n = s.slc n) ∧
      t.cmds = (s.formed c { result := leBytes 4 (s.startedQueries x.sl) }).cmds ∧ t = { s with slices := t.slices, cmds := t.cmds }) ∧
  (∀ s c x, s.fresh? c 0x13 = some x → sliceReady s x → (s.slc x.sl).st = .frozen →
    exec (.sliceFreeze c) s = .next ((s.onSlc x.sl fun y => { y with busy := some c }).formed c { result := leBytes 4 0 })) ∧
  (∀ s c x, s.fresh? c 0x13 = some x → sliceReady s x → (s.slc x.sl).st = .active → s.sliceQuiet x.sl = false →
    ∃ t : State, exec (.sliceFreeze c) s = .next t ∧
      t.slc x.sl = { s.slc x.sl with noFetch := true, busy := some c } ∧ (∀ n, n ≠ x.sl → t.slc n = s.slc n) ∧
      t.cmds = (s.onCmd c fun y => { y with prog := .sliceWait x.sl 0 }).cmds ∧ t = { s with slices := t.slices, cmds := t.cmds })) ∧
  (
  (∀ s c x, s.fresh? c 0x12 = some x → sliceReady s x → s.queuesOf x.sl = [] →
    ∃ (t : State) (y : Cmd), exec (.sliceReset c) s = .next t ∧
      t.slc x.sl = { s.slc x.sl with st := .active, noFetch := false, busy := some c, gen := nextGen (s.slc x.sl).gen } ∧
      (∀ n, n ≠ x.sl → t.slc n = s.slc n) ∧ t.cmd? c = some y ∧ y.phase = .done ∧ y.comp.status = stSuccess ∧
      y.comp.result = leBytes 2 (nextGen (s.slc x.sl).gen) ∧ t.segs = s.segs ∧ t.keys = s.keys ∧ t.images = s.images) ∧
  (∀ s c n k, s.progOp? c 0x12 = some (.sliceWait n k) → s.resetsDone n = true →
    exec (.sliceReset c) s = .next ((s.onSlc n fun y => { y with st := .active, noFetch := false }).formed c { result := leBytes 2 (s.slc n).gen }))) ∧
  (
  (∀ s c x, s.fresh? c 0x16 = some x → sliceReady s x → (s.slc x.sl).st = .active →
    exec (.sliceThaw c) s = .next ((s.onSlc x.sl fun y => { y with busy := some c }).formed c {})) ∧
  (∀ s c x, s.fresh? c 0x16 = some x → sliceReady s x → (s.slc x.sl).st = .frozen → (∀ e ∈ s.queues, e.2.slice ≠ x.sl) →
    (∀ y ∈ s.cmds, y.slice ≠ x.sl ∨ y.lost = false) →
    ∃ (t : State) (y : Cmd), exec (.sliceThaw c) s = .next t ∧
      t.slc x.sl = { s.slc x.sl with st := .active, noFetch := false, busy := some c } ∧ (∀ n, n ≠ x.sl → t.slc n = s.slc n) ∧
      t.cmd? c = some y ∧ y.phase = .done ∧ y.comp.status = stSuccess ∧ t = { s with slices := t.slices, cmds := t.cmds })) ∧
  (
  ∀ s c n k, n ≠ 0 → s.progOp? c 0x11 = some (.sliceWait n k) → s.resetsDone n = true → s.condemnedIdle c n = true →
    ∃ (t : State) (y : Cmd), exec (.sliceDestroy c) s = .next t ∧ (t.slc n).st = .free ∧ t.slc n = { busy := some c } ∧
      t.cmd? c = some y ∧ y.phase = .done ∧ y.comp.status = stSuccess ∧
      (∀ id, (t.seg id).valid = true → (t.seg id).slice ≠ n) ∧
      (∀ q, (t.queue q).slice ≠ n) ∧
      (∀ h i, tblGet t.images h none = some i → i.slice ≠ n) ∧ (∀ m, (t.keySlot m).all (fun k => k.slice != n) = true))

/-- O15. SLICE_SAVE with room and no poison writes the header and the records of the slice to its destination, clears DIRTY on the segments it
copied, and reports length and segment count; with too little room it writes nothing and reports the length it needs; where the host refuses
a byte it ends at that byte (R111, R456, R458). SLICE_RESTORE of an image that both passes accept ends with the slice FROZEN under the PASID
asked for and the generation after the saved one; an image in error, or one that the host does not deliver, changes nothing but its own
command and completion (R111, R459, R460). -/
def Obligations.SlicesAreSavedAndRestored : Prop :=
  (
  ∀ s c x, s.fresh? c 0x14 = some x → sliceReady s x →
    let recs := s.saveRecs x.home x.sl (bit x.cflags 0)
    let img := saveHeader (s.slc x.sl) x.sl recs.length (64 + (recs.flatMap (·.bytes)).length) ++ recs.flatMap (·.bytes)
    let sent := fun (bs : List Byte) => (scatter (x.stream 16) bs).map fun p => Out.hostWrite x.ring.port (s.pasidOf x.slice) p.1 p.2
    (img.length ≤ (x.dref 16).total → (∀ r ∈ recs, r.poison = none) → ∀ wfail, (∀ o, wfail = some o → img.length ≤ o) →
      ∃ t : State, exec (.sliceSave c wfail) s = .next t ∧ t.out = s.out ++ sent img ∧
        (∀ id, (∃ r ∈ recs, r.data = some id) → (t.seg id).dirty = false) ∧
        (∀ id, (∀ r ∈ recs, r.data ≠ some id) → t.seg id = s.seg id) ∧
        (∃ y, t.cmd? c = some y ∧ y.phase = .done ∧ y.comp.status = stSuccess ∧
          y.comp.result = leBytes 8 img.length ++ leBytes 4 (recs.filter fun r => byteAt r.bytes 0 == rtSegment).length) ∧
        t = { s with out := t.out, segs := t.segs, mapCopies := t.mapCopies, slices := t.slices, cmds := t.cmds }) ∧
    (img.length ≤ (x.dref 16).total → (∀ r ∈ recs, r.poison = none) → ∀ o, o < img.length →
      ∃ t : State, exec (.sliceSave c (some o)) s = .next t ∧ endedIn t c stTranslation (leBytes 8 o) ∧
        ∃ more, t.out = s.out ++ sent (img.take o) ++ more) ∧
    ((x.dref 16).total < img.length → ∀ wfail, exec (.sliceSave c wfail) s =
      .next ((s.onSlc x.sl fun y => { y with busy := some c }).formed c
        { status := stInvalidField, errloc := 24, result := leBytes 8 img.length }))) ∧
  (
  (∀ s c x src rs s2, s.fresh? c 0x15 = some x → sliceReady s x → src.err = none →
    let bs := cut src.bytes 0 (x.dref 16).total
    let s1 := s.onSlc x.sl fun y => { y with busy := some c }
    field bs 24 8 = (x.dref 16).total → readState bs = some rs → s1.restoreCheck x rs = none →
    s1.restoreApply x rs (field bs 10 2) = some s2 → s2.cmd? c = some x →
    exec (.sliceRestore c src) s = .next (s2.formed c { result := leBytes 2 (s2.slc x.sl).gen })) ∧
  (∀ (s : State) (x : Cmd) rs sgen (s2 : State), s.restoreApply x rs sgen = some s2 → x.sl ≠ 0 →
    (s2.slc x.sl).st = .frozen ∧ (s2.slc x.sl).gen = nextGen sgen ∧ (s2.slc x.sl).pasid = x.f 8 4 ∧ (s2.slc x.sl).noFetch = true) ∧
  (∀ s c x src, s.fresh? c 0x15 = some x → sliceReady s x → src.err = none →
    readState (cut src.bytes 0 (x.dref 16).total) = none → field (cut src.bytes 0 (x.dref 16).total) 24 8 = (x.dref 16).total →
    exec (.sliceRestore c src) s = .next ((s.onSlc x.sl fun y => { y with busy := some c }).formed c
      { status := stInvalidField, errloc := 16, detail := 0x0020 })) ∧
  (∀ s c x src e o, s.fresh? c 0x15 = some x → sliceReady s x → src.err = some (e, o) →
    ∃ t : State, exec (.sliceRestore c src) s = .next t ∧ endedIn t c (hostStatus e) (leBytes 8 o) ∧ t.segs = s.segs ∧ t.queues = s.queues ∧
      t.keys = s.keys ∧ t.images = s.images ∧ t.mem = s.mem))

/-- O16. PIPE_LOAD of a sound image that fits installs it under a handle not in use, on every live tile; PIPE_UNLOAD holds the handle from its
start; PIPE_UNLOAD_REMOVE removes the image once no started query names it, and a query fetched for it does not run on another image (R122,
R191, R192). KEY_LOAD of a key that unwraps and KEY_CLEAR wait for the HMACs that use the slot, and a key that does not unwrap ends
KEY_LOAD; once none does, the change takes effect: the slot holds the new key, bound and charged to the slice, or nothing; no other slot
changes. -/
def Obligations.ImageAndKeyCommandsChangeTheirEntry : Prop :=
  (
  (∀ s c x src, s.fresh? c 0x30 = some x → src.err = none → 64 ≤ (x.dref 8).total → (x.dref 8).total ≤ maxImage →
    let bs := cut src.bytes 0 (x.dref 8).total
    imageCheck bs s.presentMask = none → s.imageRoom (x.dref 8).total = true → s.images.length < 65535 →
    ∃ h, 1 ≤ h ∧ h ≤ 65535 ∧ tblGet s.images h none = none ∧
      exec (.pipeLoad c src) s = .next (State.formed
        { s with images := tblSet none s.images h (some { bytes := bs, slice := x.slice, tiles := s.liveBits }) }
        c { result := leBytes 4 h })) ∧
  (∀ s c x src d o, s.fresh? c 0x30 = some x → src.err = none → 64 ≤ (x.dref 8).total → (x.dref 8).total ≤ maxImage →
    imageCheck (cut src.bytes 0 (x.dref 8).total) s.presentMask = some (d, o) →
    exec (.pipeLoad c src) s = .next (s.formed c
      { status := stImageMalformed, detail := d, result := leBytes 4 0 ++ leBytes 4 o })) ∧
  (∀ s c x, s.fresh? c 0x31 = some x →
    let held := s.images.map fun e => if e.1 = x.f 4 4 then (e.1, e.2.map fun i => i.unloadBy c) else e
    exec (.pipeUnload c) s = .next (State.onCmd { s with images := held } c fun y => { y with prog := .unloadWait (x.f 4 4) })) ∧
  (∀ s c h, s.progOp? c 0x31 = some (.unloadWait h) →
    (∀ i, tblGet s.images h none = some i → c ∈ i.unloading → (∀ y ∈ s.cmds, y.op = 0x32 → y.phase ≠ .fetched → y.f 4 4 ≠ h) →
      ∃ t : State, exec (.pipeUnloadRemove c) s = .next t ∧ tblGet t.images h none = none ∧
        (∀ k, k ≠ h → tblGet t.images k none = tblGet s.images k none) ∧ t.cmds = ((s.uninstall h).formed c {}).cmds ∧
        (∀ y ∈ s.cmds, y.phase = .fetched → y.op = 0x32 → y.f 4 4 = h → { y with goneImage := true } ∈ t.cmds) ∧
        t = { s with images := t.images, tiles := t.tiles, cmds := t.cmds }) ∧
    (∀ i, tblGet s.images h none = some i → c ∈ i.unloading → (∃ y ∈ s.cmds, y.op = 0x32 ∧ y.phase ≠ .fetched ∧ y.f 4 4 = h) →
      exec (.pipeUnloadRemove c) s = .next s) ∧
    (tblGet s.images h none = none → exec (.pipeUnloadRemove c) s = .next (s.formed c { status := stInvalidField, errloc := 4 })))) ∧
  (
  (∀ s c x wrapped, s.fresh? c 0x60 = some x → wrapped.err = none →
    let w := cut wrapped.bytes 0 (x.f 16 2)
    exec (.keyLoad c wrapped) s = .next (match s.unwrapKey w (x.f 6 2) with
      | .ok k => s.onCmd c fun y => { y with prog := .keySet (x.f 4 1) (x.f 5 1) (x.f 6 2) (hmacK0 (x.f 5 1) k) w }
      | .error d => s.formed c { status := stInvalidField, errloc := 8, detail := d })) ∧
  (∀ s c x wrapped e o, s.fresh? c 0x60 = some x → wrapped.err = some (e, o) →
    ∃ t : State, exec (.keyLoad c wrapped) s = .next t ∧ endedIn t c (hostStatus e) (leBytes 8 o) ∧ t.keys = s.keys) ∧
  (∀ s c x, s.fresh? c 0x61 = some x →
    exec (.keyClear c) s = .next (s.onCmd c fun y => { y with prog := .keyWait (x.f 4 1) })) ∧
  (∀ s c x n alg len k0 w, s.running? c = some x → x.prog = .keySet n alg len k0 w →
    (∀ y ∈ s.cmds, y.op = 0x41 → y.phase ≠ .fetched → y.f 5 1 ≠ n) → s.keyCheck x = none →
    ∃ t : State, exec (.keyChangeEffect c) s = .next t ∧
      t.keySlot n = some { slice := x.slice, alg := alg, k0 := k0, keyLen := len, wrapped := w } ∧
      (∀ m, m ≠ n → t.keySlot m = s.keySlot m) ∧ t.cmds = (s.formed c {}).cmds ∧
      (s.keySlot n = none → (t.slc x.slice).keyUsed = (s.slc x.slice).keyUsed + 1) ∧
      t = { s with keys := t.keys, slices := t.slices, tiles := t.tiles, cmds := t.cmds }) ∧
  (∀ s c x n, s.running? c = some x → x.prog = .keyWait n →
    (∀ y ∈ s.cmds, y.op = 0x41 → y.phase ≠ .fetched → y.f 5 1 ≠ n) → s.keyCheck x = none →
    ∃ t : State, exec (.keyChangeEffect c) s = .next t ∧
      t.keySlot n = none ∧ (∀ m, m ≠ n → t.keySlot m = s.keySlot m) ∧ t.cmds = (s.formed c {}).cmds ∧
      t = { s with keys := t.keys, slices := t.slices, cmds := t.cmds }))

/-- O17. DIGEST and HMAC become jobs of the engine that serves their home tile, behind those that wait. A free lane takes a waiting job that no
waiting job of a slice it may serve outranks: none is of a higher class, and none of its class stands before it (R429). -/
def Obligations.DigestJobsWaitForLanes : Prop :=
  (
  (∀ s c x u, s.fresh? c 0x40 = some x → s.digestTile x.t = some u →
    exec (.digest c) s = .next ((s.onTile u fun y => { y with digest := { y.digest with waiting := y.digest.waiting ++ [x.job false] } }).onCmd c
      fun y => { y with prog := .job })) ∧
  (∀ s c x u, s.fresh? c 0x41 = some x → s.digestTile x.t = some u →
    exec (.hmac c) s = .next ((s.onTile u fun y => { y with digest := { y.digest with waiting := y.digest.waiting ++ [x.job true] } }).onCmd c
      fun y => { y with prog := .job }))) ∧
  (
  ∀ s t lane, (s.lane? t lane).st = .idle → s.live t = true → (s.tile t).err.fence.digest = false →
    (∃ j ∈ (s.digest t).waiting, s.jobEligible j = true) →
    ∃ j before after s', (s.digest t).waiting = before ++ j :: after ∧ s.jobEligible j = true ∧
      (∀ k ∈ before, s.jobEligible k = true → j.cls < k.cls) ∧ (∀ k ∈ after, s.jobEligible k = true → j.cls ≤ k.cls) ∧
      exec (.digestLaneTake t lane) s = .next s' ∧
      s' = s.onTile t fun y => { y with digest := { y.digest with
        waiting := y.digest.waiting.erase j
        lanes := y.digest.lanes.set lane.val { st := if j.saved then .restoring else .hashing, job := some { j with base := j.done } } } })

/-- O18. The end of a job writes its digest to the destination and forms its completion with the digest's length and the preemption count; the
lane is free; a destination that the host refuses ends the command at byte 0 (R111, R427). Preemption: a running job of a class that a
waiting one equals or outranks is saved at a block boundary after 1 MiB, waits at the tail with its record, and goes on from where it
stopped when its record has come back; a record that fails authentication ends it with HOST_ABORT (R430 to R433). An uncorrectable error in
a lane fences the engine and takes its jobs off it (R436); the register view takes a job of its own, ends it at once with the code of a
failed check, and is marked when a result register is read early (R437, R438). -/
def Obligations.DigestJobsEndAndAreSaved : Prop :=
  (
  ∀ s t lane msg c j x, (s.lane? t lane) = { st := .hashing, job := some j, next := (s.lane? t lane).next } → j.c = some c →
    s.cmd? c = some x → (s.setLane t lane {}).msgFault j t.val msg = none →
    let s1 := s.setLane t lane {}
    let dig := s1.jobDigest j (s1.gatherMsg t.val false j.frags j.done msg.bytes)
    exec (.digestJobDone t lane msg false) s = .next (State.formed
      { s1 with out := s.out ++ [.hostWrite x.ring.port (s.pasidOf j.slice) j.out dig] }
      c { result := leBytes 2 dig.length ++ leBytes 2 j.preempt }) ∧
    ∃ t' : State, exec (.digestJobDone t lane msg true) s = .next t' ∧ endedIn t' c stTranslation (leBytes 8 0) ∧ t'.mem = s.mem ∧
      (t'.tile t).digest = (s1.tile t).digest) ∧
  (
  (∀ s t lane done msg j w, (s.lane? t lane).st = .hashing → (s.lane? t lane).job = some j → j.c ≠ none →
    done % algBlock j.alg = 0 → j.done < done → done ≤ j.msgLen → (s.freeRecord t j.slice).isSome = true →
    s.preemptor t j done = some w → s.msgFault j t.val msg = none →
    ∃ ch s', exec (.digestPreempt t lane done msg) s = .next s' ∧
      s' = s.onTile t fun y => { y with digest := { y.digest with
        waiting := y.digest.waiting.erase w
        preempts := min (2 ^ 32 - 1) (y.digest.preempts + 1)
        lanes := y.digest.lanes.set lane.val
          { st := .saving, job := some { j with done := done, chain := ch, preempt := j.preempt + 1 }, next := some w } } }) ∧
  (∀ s t lane j w r, s.lane? t lane = { st := .saving, job := some j, next := some w } → s.freeRecord t j.slice = some r →
    let sealed : State := { s with out := s.out ++ if j.slice = 0 then [] else
      [.hostWrite (s.jobPort j) (s.pasidOf j.slice) ((s.slc j.slice).ctxAddr + 512 * r) (s.sealedRecord t r j)] }
    exec (.digestSaveDone t lane) s = .next (sealed.onTile t fun y => { y with digest := { y.digest with
        records := y.digest.records ++ [(j.slice, r)], ivCount := y.digest.ivCount + 1
        waiting := y.digest.waiting ++ [{ j with saved := true, record := some r }]
        lanes := y.digest.lanes.set lane.val { st := if w.saved then .restoring else .hashing, job := some { w with base := w.done } } } })) ∧
  (∀ s t lane j r nx, s.lane? t lane = { st := .restoring, job := some j, next := nx } → j.record = some r → r / 8 = t.val →
    exec (.digestRestore t lane true) s = .next (s.onTile t fun y => { y with digest := { y.digest with
        records := y.digest.records.filter fun e => decide (e ≠ (j.slice, r))
        lanes := y.digest.lanes.set lane.val { st := .hashing, job := some { j with saved := false, record := none } } } })) ∧
  (∀ s t lane j c x nx, s.lane? t lane = { st := .restoring, job := some j, next := nx } → j.c = some c → s.cmd? c = some x →
    ∃ (s' : State) (y : Cmd), exec (.digestRestore t lane false) s = .next s' ∧ s'.cmd? c = some y ∧ y.phase = .done ∧
      y.comp.status = stHostAbort ∧ y.comp.detail = 0x0010)) ∧
  (
  (∀ s t lane, s.live t = true → (s.lane? t lane).st ≠ .idle → (s.tile t).err.fence.digest = false →
    ∃ s' : State, exec (.digestLaneError t lane) s = .next s' ∧ (s'.tile t).err.fence.digest = true ∧
      (s'.digest t).waiting = [] ∧ (s'.digest t).lanes = [{}, {}, {}, {}, {}, {}, {}, {}]) ∧
  (∀ s t off desc list, (s.digest t).viewBusy = false → s.live t = true →
    let fs := fragsOf (cut list 0 (16 * field desc 24 2))
    1 ≤ byteAt desc 4 → byteAt desc 4 ≤ 5 → fs ≠ [] → fs.length ≤ 4096 → fragsFormOk false (field desc 8 8) fs = true →
    s.viewBad (field desc 16 8) (16 * field desc 24 2) = false → (∀ f ∈ fs, s.viewBad f.1 f.2.1 = false) →
    (fs.map fun f => f.2.1).sum = field desc 8 8 → (s.tile t).err.fence.digest = false →
    exec (.digViewGo t 0 off desc list) s = .next (s.onTile t fun y => { y with digest := { y.digest with
        viewHmac := false, viewSlot := 0, viewDesc := off.toNat, viewDone := false, early := false, viewCode := 0, viewOut := [], viewBusy := true
        waiting := y.digest.waiting ++ [{ c := none, cls := 0, slice := 0, sgen := 1, qgen := 0, hmac := false, alg := byteAt desc 4, slot := 0
                                          msgLen := field desc 8 8, frags := fs, out := 0 }] } })) ∧
  (∀ s t ix, (s.digest t).viewBusy = true →
    exec (.digViewEarlyRead t ix) s = .next (s.onTile t fun y => { y with digest := { y.digest with early := true, viewCode := stEarlyRead } })))

/-- O19. COMPRESS and DECOMPRESS become jobs of the engine that serves their home tile. CODEC_FRAME takes the engine's first job by one frame:
its output goes to the destination where the job's output stands, its totals grow by the frame, and the job goes to the end of the round or,
after its last frame, forms its completion; where the host refuses a byte the job ends at that byte, and a frame on which the check decoder
disagrees is encoded again (R111, R312, R315, R318). -/
def Obligations.CodecJobsMoveByFrames : Prop :=
  (
  (∀ s c x u, s.fresh? c 0x50 = some x → s.codecTile x.t = some u →
    exec (.compress c) s = .next ((s.onTile u fun y => { y with codec := y.codec ++ [s.newCodecJob x] }).onCmd c fun y => { y with prog := .job })) ∧
  (∀ s c x u, s.fresh? c 0x51 = some x → s.codecTile x.t = some u →
    exec (.decompress c) s = .next ((s.onTile u fun y => { y with codec := y.codec ++ [s.newCodecJob x] }).onCmd c fun y => { y with prog := .job }))) ∧
  (
  ∀ s t src j rest x bs vals out, (s.tile t).codec = j :: rest → s.live t = true → j.emit = none → s.running? j.c = some x → x.dstSeg = 0 →
    let s1 := s.onTile t fun y => { y with codec := rest }
    s1.codecInput t x j src = .bytes bs vals →
    (∀ mismatch : Bool, (mismatch = true → j.enc = false) → codecOut x j bs vals = .ok out → j.outHere + out.length ≤ x.f 32 4 →
      let j' : CodecJob := { j with
        inVals := j.inVals + vals, inBytes := j.inBytes + bs.length, outBytes := j.outBytes + out.length
        outHere := j.outHere + out.length, frames := j.frames + 1, at_ := s1.frameAfter t x j, miss := 0 }
      let sent := fun (l : List Byte) =>
        (scatter (dropParts (x.stream 24) j.outHere) l).map fun p => Out.hostWrite x.ring.port (s.pasidOf x.slice) p.1 p.2
      let s2 : State := { s1 with out := s.out ++ sent out }
      (∀ wfail, (∀ o, wfail = some o → out.length ≤ o) →
        (codecOver x j' = false → exec (.codecFrame t src wfail mismatch) s =
          .next (s2.onTile t fun y => { y with codec := y.codec ++ [j'] })) ∧
        (codecOver x j' = true → exec (.codecFrame t src wfail mismatch) s =
          .next (s2.formed j.c { result := leBytes 8 j'.inVals ++ leBytes 8 j'.inBytes ++ leBytes 8 j'.outBytes ++ leBytes 4 j'.frames }))) ∧
      (∀ o, o < out.length → ∃ t' : State, exec (.codecFrame t src (some o) mismatch) s = .next t' ∧
        endedIn t' j.c stTranslation (leBytes 8 (j.outHere + o) ++ leBytes 8 j.inBytes) ∧ ∃ more, t'.out = s.out ++ sent (out.take o) ++ more)) ∧
    (j.enc = true → j.miss = 0 → ∀ wfail, exec (.codecFrame t src wfail true) s =
      .next (s1.onTile t fun y => { y with codec := y.codec ++ [{ j with miss := 1 }] })))

/-- O20. The layout of striped segments: byte `b` lies on the tile of the (k mod n)-th set bit of TILES, at row k ÷ n of that tile's range,
where k is the number of its 2 MiB stripe and n the number of tiles (R142). -/
def Obligations.StripedBytesLieByRows : Prop :=
  ∀ (g : Seg) (b : Nat), g.placement = 1 →
    let tiles := (List.range 8).filter fun t => bit g.tiles t
    let k := b / 2 ^ 21
    let off := addrOff g.base + k / tiles.length * 2 ^ 21 + b % 2 ^ 21
    g.locs b = [tiles.getD (k % tiles.length) 0 * 2 ^ 49 + addrTier g.base * 2 ^ 47 + off]

/-- O21. Positions and occupancy (R69): position = index + D × wrap, occupancy = (tail − head) mod 2D; equal index and wrap give 0, equal index
and different wraps give D; an entry is used only if the doorbell covers it. -/
def Obligations.OccupancyCountsTheCoveredEntries : Prop :=
  ∀ u : Queue, u.headIx < 2 ^ u.depthLog2 → u.tailIx < 2 ^ u.depthLog2 →
    let d := 2 ^ u.depthLog2
    let head := u.headIx + d * (if u.headWrap then 1 else 0)
    let tail := u.tailIx + d * (if u.tailWrap then 1 else 0)
    (u.occupancy : Int) = ((tail : Int) - (head : Int)) % (2 * d : Int) ∧
    (u.headIx = u.tailIx → u.headWrap = u.tailWrap → u.occupancy = 0) ∧
    (u.headIx = u.tailIx → u.headWrap ≠ u.tailWrap → u.occupancy = d) ∧
    (∀ k, u.occupancy ≤ k → u.copyAt k = none)

/-- O22. A doorbell that arrives is accepted, and becomes the recorded tail, exactly when it is a 4 B write at offset 0 with no PASID but the
slice's, its TAIL is below D, the occupancy stays within D, the queue is enabled and no reset runs; otherwise it sets DB_ERR and leaves the
tail (R68, R70, R448). An entry that is read with OWN set is kept as a copy; a covered entry read with OWN clear is to be read again, and
nothing past it is fetched; a covered entry whose read fails stops the ring with RING_FAULT (R73, R75, R547). A covered entry that waits for
OWN is read again up to 8 times: with OWN set it is kept, otherwise the count rises, and the eighth read without OWN sets OWN_STALL; with
every stalled entry read 8 times nothing is read before the next doorbell (R75). -/
def Obligations.DoorbellsAndRingReads : Prop :=
  (
  ∀ (s : State) (w : DoorbellWrite), s.dev.mode.doorbells = true → s.portUp w.port = true →
    let u := s.queue w.q.val
    let d := 2 ^ u.depthLog2
    let tail := w.value.toNat % 65536
    let good := w.off = 0 ∧ w.size = 4 ∧ (∀ p, w.pasid = some p → u.slice ≠ 0 ∧ (s.slc u.slice).pasid = p) ∧ tail < d ∧ u.enable = true ∧
      u.resetBusy = false ∧ (u.pos tail (bit w.value.toNat 16) + 2 * d - u.headPos) % (2 * d) ≤ d
    (good → exec (.doorbell w) s = .next (s.onQueue w.q.val fun v =>
      { v with tailIx := tail, tailWrap := bit w.value.toNat 16, stalls := [] })) ∧
    (¬ good → exec (.doorbell w) s = .next (s.onQueue w.q.val fun v => { v with dbErr := true }))) ∧
  (
  ∀ (s : State) (q : QueueId) (k : Nat) (ks : List Nat), s.queueLive q.val = true → s.toRead q.val = k :: ks →
    let u := s.queue q.val
    (∀ bs, bit (byteAt (cut bs 0 64) 63) 7 = true →
      exec (.ringEntryRead q [.ok bs]) s = .next (s.onQueue q.val fun v => { v with copies := v.copies ++ [{ ix := u.ixAt k, bytes := cut bs 0 64 }] })) ∧
    (∀ bs, bit (byteAt (cut bs 0 64) 63) 7 = false → exec (.ringEntryRead q [.ok bs]) s = .next
      (if k < u.occupancy then s.onQueue q.val fun v => { v with stalls := v.stalls ++ [{ ix := u.ixAt k }] } else s)) ∧
    (∀ e, k < u.occupancy → ∃ t : State, exec (.ringEntryRead q [.bad e]) s = .next t ∧ t.queue q.val = { u with ringFault := true } ∧
      (∀ p, p ≠ q.val → t.queue p = s.queue p) ∧ t.cmds = s.cmds ∧ t.slices = s.slices ∧ t.segs = s.segs)) ∧
  (
  (∀ (s : State) (q : QueueId) (k : Stall) (bs : List Byte), (s.queue q.val).rereadNext = some k → s.queueLive q.val = true →
    k ∈ (s.queue q.val).stalls ∧ k.reads < 8 ∧
    (bit (byteAt (cut bs 0 64) 63) 7 = true → exec (.ownReread q (.ok bs)) s = .next (s.onQueue q.val fun v =>
      { v with copies := v.copies ++ [{ ix := k.ix, bytes := cut bs 0 64 }], stalls := v.stalls.filter fun e => decide (e.ix ≠ k.ix) })) ∧
    (bit (byteAt (cut bs 0 64) 63) 7 = false → exec (.ownReread q (.ok bs)) s = .next (s.onQueue q.val fun v =>
      { v with
        stalls := v.stalls.map fun e => if e.ix = k.ix then { e with reads := e.reads + 1 } else e
        ownStall := v.ownStall || decide (k.reads = 7) })) ∧
    (∀ e, ∃ t : State, exec (.ownReread q (.bad e)) s = .next t ∧ t.queue q.val = { s.queue q.val with ringFault := true } ∧ t.cmds = s.cmds)) ∧
  (∀ (s : State) (q : QueueId) (r : EntryRead), (∀ k ∈ (s.queue q.val).stalls, 8 ≤ k.reads) → exec (.ownReread q r) s = .next s))

/-- O23. URGENT is strict: while an URGENT queue of the tile is ready, ARBITRATE fetches at least one command, from one URGENT queue, and no
other queue's head moves; with none ready it serves one queue of a class that has a ready queue (R88, R90). -/
def Obligations.UrgentQueuesAreServedFirst : Prop :=
  ∀ (s : State) (t : TileId), (∀ e ∈ s.queues, 1 ≤ (s.queue e.1).burst) →
    (s.readyIn t 0 ≠ [] → ∃ (s' : State) (q : Nat), exec (.arbitrate t) s = .next s' ∧ q ∈ s.readyIn t 0 ∧ s.order < s'.order ∧
      (∀ p, p ≠ q → (s'.queue p).headIx = (s.queue p).headIx ∧ (s'.queue p).headWrap = (s.queue p).headWrap)) ∧
    (s.readyIn t 0 = [] → (∃ c ∈ [1, 2, 3], s.readyIn t c ≠ []) →
      ∃ (s' : State) (q c : Nat), exec (.arbitrate t) s = .next s' ∧ q ∈ s.readyIn t c ∧ s.order < s'.order ∧
        (∀ p, p ≠ q → (s'.queue p).headIx = (s.queue p).headIx ∧ (s'.queue p).headWrap = (s.queue p).headWrap))

/-- O24. The completion of a command that is not stale is written in order: each continuation entry with bytes [3:2] CID, bytes [5:4] 0x0002, a
flag byte with OWN 0, DONE 1, FIRST 0 and LAST as submitted, and 0 elsewhere; then the FIRST entry, with OWN clear and DONE set; the command
is then gone and counted; a write that the host refuses stops the ring with RING_FAULT (R79, R102, R103, R547). -/
def Obligations.CompletionsAreWrittenInOrder : Prop :=
  (∀ (x : Cmd) (e : List Byte),
    (x.contEntry e).length = 64 ∧ field (x.contEntry e) 2 2 = x.cid ∧ field (x.contEntry e) 4 2 = 0x0002 ∧
    (∀ i < 63, i ≠ 2 → i ≠ 3 → i ≠ 4 → i ≠ 5 → byteAt (x.contEntry e) i = 0) ∧
    bit (byteAt (x.contEntry e) 63) 7 = false ∧ bit (byteAt (x.contEntry e) 63) 6 = true ∧ bit (byteAt (x.contEntry e) 63) 5 = false ∧
    bit (byteAt (x.contEntry e) 63) 4 = bit (byteAt e 63) 4 ∧ (∀ i < 4, bit (byteAt (x.contEntry e) 63) i = false)) ∧
  ∀ (s : State) (c : CmdRef) (x : Cmd), s.cmd? c = some x → x.phase = .done → s.dev.mode.runsCommands = true →
    x.sgen = (s.slc x.slice).gen → x.qgen = (s.queue x.q).gen →
    let u := s.queue x.q
    let port := x.ring.port
    let ix := c.ix % 65536
    let last := Out.hostWrite port (s.pasidOf x.slice) (x.ring.base + 64 * ix) x.completion
    let conts := (x.entries.drop 1).zipIdx.map fun e =>
      Out.hostWrite port (s.pasidOf x.slice) (x.ring.base + 64 * ((ix + 1 + e.2) % 2 ^ x.ring.depthLog2)) (x.contEntry e.1)
    (∀ fault, (∀ k, fault = some k → conts.length < k) → ∃ (t : State) (irqs : List Out), exec (.commandComplete c fault) s = .next t ∧
      t.out = s.out ++ conts ++ [last] ++ irqs ∧ (∀ o ∈ irqs, o = .msix u.port u.vector) ∧ t.cmd? c = none ∧ t.segs = s.segs ∧
      (∀ v, t.tile v = { s.tile v with msixPend := (t.tile v).msixPend }) ∧ (∀ p, p ≠ x.q → t.queue p = s.queue p) ∧
      (t.queue x.q).headIx = u.headIx ∧ (t.queue x.q).tailIx = u.tailIx ∧
      (t.slc x.slice).cmdDone + (t.slc x.slice).cmdFailed = (s.slc x.slice).cmdDone + (s.slc x.slice).cmdFailed + 1) ∧
    (∀ k, k ≤ conts.length → ∃ t : State, exec (.commandComplete c (some k)) s = .next t ∧ t.cmd? c = none ∧ (t.queue x.q).ringFault = true ∧
      (∃ more, t.out = s.out ++ (conts ++ [last]).take k ++ more) ∧ t.segs = s.segs)

/-- O25. A completion of an older slice generation, or of an older queue generation once the reset has ended, is not written: nothing goes to
the host, the command is gone and the drop is counted (R92). ENABLE set on a queue that passes the checks starts it: at index 0 after a
change of its ring, else where it stood; a failed check leaves it disabled and reports the code. ENABLE cleared discards the copies and
keeps head and tail (R85, R87). A queue reset raises the generation, drops the copies and every command not yet started; the forced stop
drops what still runs; at its end head and tail stand at 0, RESET_DONE is set and no command of the queue is left; ENABLE stays as it was
(R91 to R95). The coalescing timer sends the queue's interrupt, on its PORT tile, and clears the count; a masked vector keeps it pending;
while the port's link is down the interrupt is lost and the count cleared all the same; before its time the timer does nothing.
RING_FAULT_CLEAR clears the fault (R82, R83, R547). -/
def Obligations.QueuesStopAndEmpty : Prop :=
  (
  ∀ (s : State) (c : CmdRef) (x : Cmd) (f : Option Nat), s.cmd? c = some x → x.phase = .done → s.dev.mode.runsCommands = true →
    (x.sgen ≠ (s.slc x.slice).gen ∨ (x.qgen ≠ (s.queue x.q).gen ∧ (s.queue x.q).resetBusy = false)) →
    ∃ t : State, exec (.commandComplete c f) s = .next t ∧ t.out = s.out ∧ t.cmd? c = none ∧
      (t.queue x.q).staleDrops = min 0xFFFFFFFF ((s.queue x.q).staleDrops + 1) ∧ (t.slc x.slice).stale = (s.slc x.slice).stale + 1 ∧
      (∀ p, p ≠ x.q → t.queue p = s.queue p) ∧ t.tiles = s.tiles ∧ t.segs = s.segs) ∧
  (
  (∀ (s : State) (q : QueueId), queueWritable s q → (s.queue q.val).enable = false → s.enableError q.val = none →
    ∃ t : State, exec (.queueEnable q) s = .next t ∧ (t.queue q.val).enable = true ∧ (t.queue q.val).copies = [] ∧
      ((s.queue q.val).freshStart = true → (t.queue q.val).headPos = 0 ∧ (t.queue q.val).tailPos = 0) ∧
      ((s.queue q.val).freshStart = false → (t.queue q.val).headPos = (s.queue q.val).headPos ∧ (t.queue q.val).tailPos = (s.queue q.val).tailPos) ∧
      (t.slc (s.queue q.val).slice).qUsed = (s.slc (s.queue q.val).slice).qUsed + 1 ∧
      (∀ p, p ≠ q.val → t.queue p = s.queue p) ∧ t = { s with queues := t.queues, slices := t.slices, cmds := t.cmds } ∧
      ((∀ y ∈ s.cmds, ∀ os, y.prog ≠ .fenceHold os) → t.cmds = s.cmds)) ∧
  (∀ (s : State) (q : QueueId) (e : Nat), queueWritable s q → (s.queue q.val).enable = false → s.enableError q.val = some e →
    exec (.queueEnable q) s = .next (s.onQueue q.val fun u => { u with cfgErrV := true, cfgErr := e })) ∧
  (∀ (s : State) (q : QueueId), queueWritable s q → (s.queue q.val).enable = true →
    exec (.queueDisable q) s = .next ((s.onQueue q.val fun u =>
      { u with enable := false, copies := [], stalls := [], turnsLeft := 0 }).onSlc (s.queue q.val).slice fun y =>
        { y with qUsed := y.qUsed - 1 }))) ∧
  (
  (∀ (s : State) (q : QueueId), queueWritable s q → (s.queue q.val).resetBusy = false → (s.queue q.val).homeLost = false →
    ∃ t : State, exec (.queueReset q) s = .next t ∧ (t.queue q.val).resetBusy = true ∧ (t.queue q.val).resetDone = false ∧
      (t.queue q.val).gen = nextGen (s.queue q.val).gen ∧ (t.queue q.val).copies = [] ∧ (t.queue q.val).enable = (s.queue q.val).enable ∧
      (∀ y ∈ t.cmds, y.q = q.val → y.phase ≠ .fetched)) ∧
  (∀ (s : State) (q : QueueId), queueWritable s q → (s.queue q.val).resetBusy = false → (s.queue q.val).homeLost = true →
    ∃ t : State, exec (.queueReset q) s = .next t ∧ (t.queue q.val).resetBusy = false ∧ (t.queue q.val).resetDone = true ∧
      (t.queue q.val).gen = nextGen (s.queue q.val).gen ∧ (t.queue q.val).headPos = 0 ∧ (t.queue q.val).tailPos = 0 ∧
      ∀ y ∈ t.cmds, y.q ≠ q.val) ∧
  (∀ (s : State) (q : QueueId), (s.queue q.val).resetBusy = true →
    ∃ t : State, exec (.queueResetForceStop q) s = .next t ∧ ∀ y ∈ t.cmds, y.q = q.val → y.lingers = false) ∧
  (∀ (s : State) (q : QueueId), (s.queue q.val).resetBusy = true → s.resetSettled q.val = true →
    ∃ t : State, exec (.queueResetDone q) s = .next t ∧ (t.queue q.val).headPos = 0 ∧ (t.queue q.val).tailPos = 0 ∧
      (t.queue q.val).resetBusy = false ∧ (t.queue q.val).resetDone = true ∧ (t.queue q.val).copies = [] ∧
      (t.queue q.val).enable = (s.queue q.val).enable ∧ (t.queue q.val).gen = (s.queue q.val).gen ∧ ∀ y ∈ t.cmds, y.q ≠ q.val)) ∧
  (
  (∀ (s : State) (q : QueueId), s.irqDue q.val = true →
    let u := s.queue q.val
    let p := tid u.port
    let sent := fun (t : State) => t.onQueue q.val fun v => { v with irqPend := 0, irqStamp := 0 }
    (s.dev.mode ≠ .halt → s.portUp p = true → u.vector ∉ (s.tile p).msixMask →
      exec (.queueIrqTimer q) s = .next (sent { s with out := s.out ++ [.msix u.port u.vector] })) ∧
    (s.dev.mode ≠ .halt → s.portUp p = true → u.vector ∈ (s.tile p).msixMask →
      ∃ t : State, exec (.queueIrqTimer q) s = .next (sent t) ∧ (∀ v, v ∈ (t.tile p).msixPend ↔ v = u.vector ∨ v ∈ (s.tile p).msixPend) ∧
        (∀ k, k ≠ p → t.tile k = s.tile k) ∧ t = { s with tiles := t.tiles }) ∧
    (s.portUp p = false → exec (.queueIrqTimer q) s = .next (sent s))) ∧
  (∀ (s : State) (q : QueueId), s.irqDue q.val = false → exec (.queueIrqTimer q) s = .next s) ∧
  (∀ (s : State) (q : QueueId), queueWritable s q →
    exec (.ringFaultClear q) s = .next (s.onQueue q.val fun u => { u with ringFault := false })))

/-- O26. A clean scrub only moves the pass of its unit on, and an address that the pass has read is not read again in the period (log 85); an
uncorrectable unit of HBM, DDR or the staging buffers is logged and poisoned, a line of SRAM likewise; the second bad word of an SRAM bank
within a verification window retires the bank; the first corrected one of a window is logged with COUNT 1; a period that ends before its
pass is logged once with SCRUB_LATE; a vote with a majority leaves the three copies equal to it, and one without poisons and fences the
entry (R148, R149, R165 to R167, R328, R329). A lost DDR channel or CXL port fences the unit, with UNIT_FENCED, and every LOCAL or STRIPED
segment of its tier with bytes on the tile; other segments keep their entries. A slice entry that no other tile holds makes the slice FAILED
and disables its queues; one that another tile holds is only logged (R138, R164, R444). -/
def Obligations.ScrubsAndLostUnits : Prop :=
  (
  (∀ s t w a, scrubbing s t w a → exec (.patrolScrub t w a .clean) s =
    .next (s.setScrub t w { s.scrubOf t w with next := scrubPos w a / 64 * 64 + 64 })) ∧
  (∀ s t w a r, s.now < (s.scrubOf t w).began + s.scrubNs → scrubPos w a < (s.scrubOf t w).next → exec (.patrolScrub t w a r) s = .next s) ∧
  (∀ s t w a, scrubbing s t w a → w ≠ .sram → (s.tile t).evidence = none →
    ∃ (s' : State) (r : ErrRec), exec (.patrolScrub t w a .uncorrectable) s = .next s' ∧ (s'.tile t).err.ring.getLast? = some r ∧
      r.event = evScrubUncorrectable ∧ r.sev = 1 ∧ r.addr = a ∧ r.tstamp = s.now ∧ (∀ u, u ∈ s'.poison ↔ u = a / 64 ∨ u ∈ s.poison) ∧
      s' = { s with tiles := s'.tiles, out := s'.out, poison := s'.poison } ∧ ∀ u, u ≠ t → sameTile s s' u) ∧
  (∀ s t a, scrubbing s t .sram a →
    let first := tblGet (s.tile t).err.badWord (sramBank a) 0
    ∃ s' : State, exec (.patrolScrub t .sram a .uncorrectable) s = .next s' ∧ a / 64 ∈ (s'.tile t).sramPoison ∧
      ((s.tile t).err.verifyAt = s.now / verifyNs → first ≠ 0 → first ≠ a / 8 + 1 → sramBank a ∈ (s'.tile t).err.retired) ∧
      ((s.tile t).err.verifyAt = s.now / verifyNs → first = 0 ∨ first = a / 8 + 1 → (s'.tile t).err.retired = (s.tile t).err.retired) ∧
      s' = { s with tiles := s'.tiles, out := s'.out, dev := { s.dev with waiting := s'.dev.waiting } } ∧ ∀ u, u ≠ t → sameTile s s' u) ∧
  (∀ s t w a, scrubbing s t w a → (s.tile t).evidence = none → (s.tile t).err.counts = [] →
    ∃ (s' : State) (r : ErrRec), exec (.patrolScrub t w a .corrected) s = .next s' ∧ (s'.tile t).err.ring.getLast? = some r ∧
      r.event = evScrubCorrected ∧ r.sev = 0 ∧ r.addr = a ∧ r.data = leBytes 4 1 ∧ s' = { s with tiles := s'.tiles, out := s'.out } ∧
      ∀ u, u ≠ t → sameTile s s' u) ∧
  (∀ s t w, s.live t = true → s.dev.mode.storeUp = true → s.feat.scrubPeriod ≠ 0 →
    let k := s.scrubOf t w
    let moved := fun (u : State) => u.setScrub t w { began := s.now / s.scrubNs * s.scrubNs, next := 0 }
    (s.now < k.began + s.scrubNs → exec (.scrubLate t w) s = .next s) ∧
    (k.began + s.scrubNs ≤ s.now → s.scrubDone t w k = true → exec (.scrubLate t w) s = .next (moved s)) ∧
    (k.began + s.scrubNs ≤ s.now → s.scrubDone t w k = false → (s.tile t).evidence = none →
      ∃ (u : State) (r : ErrRec), exec (.scrubLate t w) s = .next (moved u) ∧ (u.tile t).err.ring.getLast? = some r ∧
        r.event = evScrubLate ∧ r.sev = 0 ∧ u = { s with tiles := u.tiles, out := u.out } ∧ ∀ v, v ≠ t → sameTile s u v)) ∧
  (∀ s t v, s.live t = true → s.dev.mode.storeUp = true → s.mapDue t = true → v.segid = (s.tile t).mapScrub →
    let id := v.segid
    let seen := fun (ix : Nat) (c : CopySeen) => copyValue (s.copyBytes t ix id) (s.copyThere t ix c)
    let found := majority (seen 0 v.a) (seen 1 v.b) (seen 2 v.c)
    (∀ w, found = some w → ∃ s' : State, exec (.mapScrubVote t v) s = .next s' ∧ (∀ ix < 3, s'.copyBytes t ix id = w) ∧
      (s'.tile t).mapScrub = (id + 1) % 262144 ∧
      s' = { s with mapCopies := s'.mapCopies, tiles := s'.tiles, out := s'.out } ∧ ∀ u, u ≠ t → sameTile s s' u) ∧
    (found = none → ∃ s' : State, exec (.mapScrubVote t v) s = .next s' ∧
      s'.seg id = { s.seg id with poison := true, fenced := true } ∧ (∀ j, j ≠ id → s'.seg j = s.seg j) ∧
      (s'.tile t).mapScrub = (id + 1) % 262144 ∧
      s' = { s with segs := s'.segs, mapCopies := s'.mapCopies, tiles := s'.tiles, out := s'.out } ∧ ∀ u, u ≠ t → sameTile s s' u))) ∧
  (
  (∀ (s : State) (t : TileId) (ch : Fin 2), s.live t = true → s.dev.mode.storeUp = true → bit (s.tile t).err.fence.ddr ch.val = false →
    ∃ s' : State, exec (.ddrChannelLost t ch) s = .next s' ∧ bit (s'.tile t).err.fence.ddr ch.val = true ∧
      (∀ id, (s.seg id).valid = true → (s.seg id).tier = 1 → bit (s.seg id).tiles t.val = true → (s.seg id).placement ≠ 2 →
        s'.seg id = { s.seg id with fenced := true }) ∧
      (∀ id, (s.seg id).valid = false ∨ (s.seg id).tier ≠ 1 ∨ bit (s.seg id).tiles t.val = false → s'.seg id = s.seg id) ∧
      s' = { s with segs := s'.segs, tiles := s'.tiles, out := s'.out, dev := { s.dev with waiting := s'.dev.waiting } }) ∧
  (∀ (s : State) (t : TileId), s.live t = true → s.dev.mode.storeUp = true → s.hostRole t = false → (s.tile t).err.fence.cxl = false →
    ∃ s' : State, exec (.cxlPortLost t) s = .next s' ∧ (s'.tile t).err.fence.cxl = true ∧
      (∀ id, (s.seg id).valid = true → (s.seg id).tier = 2 → bit (s.seg id).tiles t.val = true → (s.seg id).placement ≠ 2 →
        s'.seg id = { s.seg id with fenced := true }) ∧
      (∀ id, (s.seg id).valid = false ∨ (s.seg id).tier ≠ 2 ∨ bit (s.seg id).tiles t.val = false → s'.seg id = s.seg id) ∧
      s' = { s with segs := s'.segs, tiles := s'.tiles, out := s'.out, dev := { s.dev with waiting := s'.dev.waiting } }) ∧
  (∀ (s : State) (t u : TileId) (n : Fin 1024), s.live t = true → s.dev.mode ≠ .cold → s.live u = true → u ≠ t → (s.tile t).evidence = none →
    ∃ (s' : State) (r : ErrRec), exec (.sliceTableEcc t n) s = .next s' ∧ (s'.tile t).err.ring.getLast? = some r ∧
      r.event = evEccUncorrectable ∧ r.slice = n.val ∧ s' = { s with tiles := s'.tiles, out := s'.out }) ∧
  (∀ (s : State) (t : TileId) (n : Fin 1024), s.live t = true → s.dev.mode ≠ .cold → (∀ u, u ≠ t → s.live u = false) → (s.slc n.val).st ≠ .free →
    ∃ s' : State, exec (.sliceTableEcc t n) s = .next s' ∧ (s'.slc n.val).st = .failed ∧
      (∀ q, (s.queue q).slice = n.val → (s'.queue q).enable = false) ∧ s'.mem = s.mem ∧ s'.keys = s.keys))

/-- O27. QUERY_RUN resolves its comparators and plans each SCAN pipeline: one morsel for each 64 frames, numbered from 0, released where it
waits for nothing; the other pipelines are not planned yet. TOKEN_POST moves the first planned token of a tile into its store, barred while
its pipeline is not released; a full store takes none. A query whose image has been withdrawn fails (R218, R327, R338, R339). -/
def Obligations.QueriesPlanAndPostTheirTokens : Prop :=
  (∀ (s : State) (c : CmdRef) (qid : Nat) (q : Query), s.progOp? c 0x32 = some (.query qid) → s.query? qid = some q → q.pipes = [] →
    q.failing = false → s.imageLost q.handle = false → s.startLost q.img q = none →
    (∃ k < q.img.npipe, let p := q.img.pipes.getD k default; p.plan.src ≠ 1 ∨ p.plan.wait ≠ 0 ∨ q.scanFrames p ≠ 0) →
    ∃ (t : State) (y : Query), exec (.queryRun c) s = .next t ∧ t.query? qid = some y ∧ y.resolved = s.resolveAll q.img q ∧
      y.pipes.length = q.img.pipes.length ∧
      (∀ k p, q.img.pipes[k]? = some p → p.plan.src = 1 →
        (y.pipe k).planned = true ∧ ((y.pipe k).released = true ↔ p.plan.wait = 0) ∧
        (y.pipe k).morsels.length = ceilDiv (q.scanFrames p) 64 ∧
        ∀ n m, (y.pipe k).morsels[n]? = some m → m.morsel = n ∧ m.seq = n ∧ m.tile = s.scanTile q p n) ∧
      (∀ k p, q.img.pipes[k]? = some p → p.plan.src ≠ 1 → y.pipe k = {}) ∧ t = { s with queries := t.queries }) ∧
  (∀ (s : State) (c : CmdRef) (qid : Nat) (q : Query), s.progOp? c 0x32 = some (.query qid) → s.query? qid = some q → q.pipes = [] →
    q.failing = false → q.fails = [] → s.imageLost q.handle = true → s.queryRuns qid = false →
    ∃ t : State, exec (.queryRun c) s = .next t ∧ t.query? qid = none ∧
      ∀ x, t.cmd? q.c = some x → x.phase = .done ∧ x.comp.status = stUncorrectable ∧ x.comp.tstamp = s.now) ∧
  (∀ (s : State) (t : TileId) (q : Query) (k : Token) (rest : List (Nat × Token)), s.live t = true → s.dev.mode.runsCommands = true →
    (s.sched t).tokens.length < 16384 →
    s.queries.findSome? (fun q => (takePost t.val q.toPost).map fun x => (q, x)) = some (q, k, rest) →
    ∃ s' : State, exec (.tokenPost t) s = .next s' ∧
      (s'.sched t).tokens = (s.sched t).tokens ++ [{ k with barrier := !(q.pipe k.pipe).released }] ∧
      (∀ y, s'.query? q.qid = some y → y.toPost = rest) ∧ (∀ u, u ≠ t → s'.tile u = s.tile u) ∧
      s' = { s with queries := s'.queries, tiles := s'.tiles }) ∧
  (∀ (s : State) (t : TileId), 16384 ≤ (s.sched t).tokens.length → exec (.tokenPost t) s = .next s)

/-- O28. BARRIER_RELEASE of a pipeline whose barrier is met releases it and frees its tokens on the home tile; BARRIER frees them on the tile
that the message reaches; EMIT_BASE only moves a base forward (R339, R342). A merge pass that passes its tally makes one sorted run of up to
64 of the oldest runs of a group and leaves the others; a spilled page leaves the tile's SRAM pages; a UDF call starts on the PE's own
Sumen-S core at the entry of its descriptor and is listed with the morsel, and an error of that core's scratch ends the morsel (R233, R247,
R278, R320, R327, R417, R418). -/
def Obligations.BarriersMergesSpillsAndCalls : Prop :=
  (
  (∀ (s : State) (qid : Nat) (pipe : Fin 32) (q : Query), s.query? qid = some q → q.failing = false → pipe.val < q.pipes.length →
    (q.pipe pipe.val).released = false → q.barrierMet q.img pipe.val = true →
    ∃ t : State, exec (.barrierRelease qid pipe) s = .next t ∧
      (∀ y, t.query? qid = some y → (y.pipe pipe.val).released = true) ∧
      (∀ k ∈ (t.sched (tid q.home)).tokens, k.qid = qid → k.pipe = pipe.val → k.barrier = false) ∧
      sameStore s t ∧ t.queues = s.queues ∧ t.keys = s.keys) ∧
  (∀ (s : State) (h : MsgHdr) (qid : Nat) (pipe : Fin 32) (q : Query), s.query? qid = some q → s.live h.dstTile = true →
    (q.pipe pipe.val).released = true →
    ∃ t : State, exec (.barrier h qid pipe) s = .next t ∧
      (t.sched h.dstTile).tokens = (s.sched h.dstTile).tokens.map
        (fun k => if k.qid = qid ∧ k.pipe = pipe.val then { k with barrier := false } else k) ∧
      (∀ u, u ≠ h.dstTile → t.tile u = s.tile u) ∧ t = { s with tiles := t.tiles }) ∧
  (∀ (s : State) (h : MsgHdr) (qid : Nat) (pipe : Fin 32) (base : Nat) (q : Query), s.query? qid = some q → s.live h.dstTile = true →
    ∃ t : State, exec (.emitBase h qid pipe base) s = .next t ∧
      tblGet (t.sched h.dstTile).bases (qid * 32 + pipe.val) 0 = max (tblGet (s.sched h.dstTile).bases (qid * 32 + pipe.val) 0) base ∧
      (∀ j, j ≠ qid * 32 + pipe.val → tblGet (t.sched h.dstTile).bases j 0 = tblGet (s.sched h.dstTile).bases j 0) ∧
      (∀ u, u ≠ h.dstTile → t.tile u = s.tile u) ∧ t = { s with tiles := t.tiles })) ∧
  (
  (∀ (s : State) (t : TileId) (qid : Nat) (pipe : Fin 32) (u : Upset) (q : Query) (k : Nat × Nat), s.query? qid = some q → q.failing = false →
    let ps := q.pipe pipe.val
    let p := q.img.pipes.getD pipe.val default
    ps.planned = true → ps.allVerified = true → p.sink.kind = kSort → (s.sortTile t).isSome = true → pipe.val < q.pipes.length →
    ps.unmerged.find? (fun k => k.1 == t.val) = some k →
    let mine := ps.runs.filter fun r => r.tile == k.1 && r.group == k.2
    let out := s.sortRecs 3 ((mine.take 64).flatMap (·.recs))
    (∀ r ∈ out, s.rowBad q.qid pipe.val k.1 p.sink r.row = false) →
    (∀ c ∈ passChecks p.sinkIx (mine.take 64).length ((passCounts (mine.take 64) out).upset u.counters).val, c.ok = true) →
    ∃ s' : State, exec (.mergePassEnd t qid pipe u) s = .next s' ∧
      (∀ y, s'.query? qid = some y → (y.pipe pipe.val).runs = (ps.runs.filter fun r => !(r.tile == k.1 && r.group == k.2)) ++ mine.drop 64 ++
        [{ tile := k.1, group := k.2, recs := out }]) ∧
      sameStore s s' ∧ s'.queues = s.queues ∧ s'.keys = s.keys) ∧
  (∀ (s : State) (t : TileId) (qid : Nat) (pipe : Fin 32) (q : Query), s.query? qid = some q → q.failing = false →
    (q.img.pipes.getD pipe.val default).sink.kind = kExchange →
    let op := (q.img.pipes.getD pipe.val default).sink
    op.b 12 * pagesPerMib ≤ (q.pipe pipe.val).sramPages t.val → (q.pipe pipe.val).spilledPages t.val < op.u 14 2 * pagesPerMib →
    exec (.spillPage t qid pipe) s = .next (s.putPipe q pipe.val ((q.pipe pipe.val).spillOne t.val))) ∧
  (∀ (s : State) (pe : Gpe) (block : Nat) (uop : Fin 64) (r : Run) (q : Query) (f : Formula) (select rows : Nat) (rs : List CRow),
    s.working? pe = some (r, q) → q.failing = false →
    let e := q.env r.pipe (gpeTile pe).val r.at_
    let fd := s.feed e
    let ds := udfDescs ((e.img.udf.map (·.2)).getD [])
    let imm := (Uop.ofWord (f.words.getD uop.val 0)).imm
    e.p.formula = some f → s.frontBlock e r.udf block (fd.rows.filter fun x => x.blk == block) = .wait block uop.val select rows rs →
    r.calls.contains (block, uop.val) = false → r.calls.length < 8 → s.blocksBefore e r fd false block = true → byteAt (ds.getD imm []) 8 = 0 →
    s.argPoison e (callArgs e f (Uop.ofWord (f.words.getD uop.val 0)) (byteAt (ds.getD imm []) 9) rs) = none →
    ((s.sumen (.small pe)).call = none →
      ∃ (t : State) (c : Call), exec (.udfCall pe block ⟨uop, .clean⟩) s = .next t ∧ (t.sumen (.small pe)).call = some c ∧ c.pe = pe ∧ c.qid = r.qid ∧
        c.block = block ∧ c.uop = uop.val ∧ (t.sumen (.small pe)).pc = BitVec.ofNat 64 (udfEntry ds imm) ∧
        t.run? pe = some { r with calls := r.calls ++ [(block, uop.val)] } ∧ (∀ p, p ≠ pe → t.run? p = s.run? p) ∧ t = { s with tiles := t.tiles }) ∧
    ∃ t : State, exec (.udfCall pe block ⟨uop, .uncorrectable⟩) s = .next t ∧ t.run? pe = none ∧ t.keys = s.keys ∧ t.queues = s.queues))

/-- O29. TOKEN_DISPATCH gives a morsel to at most one PE: an idle one of the tile, and the morsel is the lowest of a token of the tile that is
eligible for that PE once the windows that have begun are started and stale tokens discarded; every other PE keeps what it runs. An aged
token goes first, whatever the credit (R340, R343, R352). -/
def Obligations.DispatchGivesOneEligibleMorsel : Prop :=
  (∀ (s : State) (t : TileId) (ecc : ScrubResult), s.live t = true → (s.tile t).mode.dispatches = true →
    let w := s.forDispatch t ecc
    ∃ s' : State, exec (.tokenDispatch ⟨t, ecc⟩) s = .next s' ∧
      (∀ p, s'.run? p = w.run? p ∨ (gpeTile p = t ∧ w.run? p = none ∧ ∃ k ∈ (w.sched t).tokens, w.eligible p.val k = true ∧
        ∃ r, s'.run? p = some r ∧ r.qid = k.qid ∧ r.pipe = k.pipe ∧ r.slice = k.slice ∧ r.attempt = k.attempt ∧
          r.at_ = k.morsels.headD { tile := 0, morsel := 0, seq := 0 })) ∧
      (∀ p p', s'.run? p ≠ w.run? p → s'.run? p' ≠ w.run? p' → p = p') ∧
      (ecc ≠ .uncorrectable → (∀ p, w.run? p = s.run? p) ∧ sameStore s w ∧ w.keys = s.keys) ∧
      sameStore w s' ∧ s'.queues = w.queues ∧ s'.cmds = w.cmds ∧ s'.queries = w.queries) ∧
  (∀ (s : State) (t : TileId) (ecc : ScrubResult) (n : Nat) (rest : List Nat) (ix : Nat) (k : Token), s.live t = true →
    (s.tile t).mode.dispatches = true →
    let w := s.forDispatch t ecc
    w.idlePes t = n :: rest →
    agedToken (((w.sched t).tokens.zipIdx.map fun e => (e.2, e.1)).filter fun e => w.eligible n e.2) = some (ix, k) →
    ∃ (s' : State) (r : Run), exec (.tokenDispatch ⟨t, ecc⟩) s = .next s' ∧ s'.run? (gpeN n) = some r ∧ k.age = 16 ∧ r.qid = k.qid ∧
      r.pipe = k.pipe ∧ r.at_ = k.morsels.headD { tile := 0, morsel := 0, seq := 0 } ∧
      (s'.sched t).credit = clampCredit ((w.sched t).credit - (w.tokenEst t k).2))

/-- O30. A tile keeps the last state of each tile that offers; a steal request that finds no skipped morsel is refused; one that finds one
splits its first morsel off; a grant puts it on the reserved PE; a refusal gives the PE and its estimate back. Each falls into the scheduler
window that holds its time (R343, R356, R358, R490). -/
def Obligations.StealsMoveOneMorsel : Prop :=
  (∀ (s : State) (h : MsgHdr) (level : Nat) (tj credit : Int) (est : Nat), s.live h.dstTile = true → h.dstTile ≠ h.srcTile →
    exec (.schedState h level tj credit est) s = .next (s.onTile h.dstTile fun x => { x with sched := { x.sched with
      offers := (x.sched.offers.filter fun o => decide (o.tile ≠ h.srcTile.val)) ++
        (if level < 32 then [{ tile := h.srcTile.val, level := level, tj := tj, credit := credit, est := est }] else []) } })) ∧
  (∀ (s : State) (h : MsgHdr) (tag level : Nat), s.live h.dstTile = true → h.srcTile ≠ h.dstTile →
    s.seen h.dstTile h.srcTile.val 0x36 tag = false →
    let w := (s.rollSched h.dstTile).markSeen h.dstTile h.srcTile.val 0x36 tag
    (∀ k ∈ (w.sched h.dstTile).tokens, k.prio = level → k.skipped = false) →
    exec (.stealReq h tag level) s = .next (w.sendCtl 0x38 h.dstTile h.srcTile {} (leBytes 2 tag))) ∧
  (∀ (s : State) (h : MsgHdr) (tag level : Nat) (before after : List Token) (k : Token) (m : MorselAt) (ms : List MorselAt), s.live h.dstTile = true →
    h.srcTile ≠ h.dstTile → s.seen h.dstTile h.srcTile.val 0x36 tag = false →
    let w := (s.rollSched h.dstTile).markSeen h.dstTile h.srcTile.val 0x36 tag
    (w.sched h.dstTile).tokens = before ++ k :: after → (∀ j ∈ before, w.grantable h.dstTile h.srcTile level j = false) →
    w.grantable h.dstTile h.srcTile level k = true → k.morsels = m :: ms →
    ∃ t : State, exec (.stealReq h tag level) s = .next t ∧
      (t.sched h.dstTile).tokens = before ++ (if ms.isEmpty then [] else [{ k with morsels := ms }]) ++ after ∧
      (∀ p, t.run? p = s.run? p) ∧ t.queries = w.queries ∧ sameStore s t) ∧
  (∀ (s : State) (h : MsgHdr) (tag level : Nat), s.seen h.dstTile h.srcTile.val 0x36 tag = true → exec (.stealReq h tag level) s = .next s) ∧
  (∀ (s : State) (h : MsgHdr) (tag : Nat) (x : Steal),
    (s.sched h.dstTile).steals.find? (fun x => x.tag == tag && x.tile == h.srcTile.val) = some x →
    let w := s.rollSched h.dstTile
    ∃ t : State, exec (.stealRefuse h tag) s = .next t ∧ x ∉ (t.sched h.dstTile).steals ∧
      (t.sched h.dstTile).credit = clampCredit ((w.sched h.dstTile).credit + x.est) ∧ (∀ p, t.run? p = s.run? p) ∧ t = { w with tiles := t.tiles }) ∧
  (∀ (s : State) (h : MsgHdr) (tag : Nat) (g : GrantBody) (x : Steal) (q : Query) (m : MorselAt) (ms : List MorselAt),
    (s.sched h.dstTile).steals.find? (fun x => x.tag == tag && x.tile == h.srcTile.val) = some x → s.live h.dstTile = true →
    let w := s.rollSched h.dstTile
    w.query? g.qid = some q → q.failing = false → h.sgen = (w.slc h.slice).gen → h.qgen = (w.queue q.c.q.val).gen →
    ((q.pipe g.pipe).morsels.filter fun m => m.morsel == g.morsel && m.seq == g.seq) = m :: ms →
    w.peOk x.pe = true → w.run? (gpeN x.pe) = none → w.canRun h.dstTile q g.pipe = true →
    ∃ (t : State) (r : Run), exec (.stealGrant h tag g) s = .next t ∧ t.run? (gpeN x.pe) = some r ∧ r.qid = g.qid ∧ r.pipe = g.pipe ∧ r.at_ = m ∧
      r.est = x.est ∧ x ∉ (t.sched h.dstTile).steals ∧ (∀ p, p ≠ gpeN x.pe → t.run? p = w.run? p) ∧ t = { w with tiles := t.tiles })

/-- O31. MORSEL_END of a morsel that passes its tallies takes it off its PE, verifies and counts it, and charges its energy to its slice; the
records of an EXCHANGE go first, and its end waits for the tallies of their receivers; a check that fails or a PE's internal error makes the
morsel rerun on another PE, logged as a tally mismatch; the forced stop takes a failing query off every PE and every codec engine and
completes it (R235, R249, R250, R320, R321, R325, R347). -/
def Obligations.MorselEndsAreSettled : Prop :=
  (∀ (s : State) (pe : Gpe) (nj : Nat) (u : Upset) (r : Run) (q : Query) (rows : List Row) (cs : Counts) (k : Sunk) (ps : PipeState),
    s.working? pe ≠ none →
    let w := s.rollSched (gpeTile pe)
    w.working? pe = some (r, q) → q.failing = false → r.xs = none → r.pipe < q.pipes.length →
    let e := q.env r.pipe (gpeTile pe).val r.at_
    e.p.sink.kind ≠ kExchange → w.sinkReady e = true → w.stages e r (w.feed e) = .rows rows cs → w.sink e r.attempt rows = .ok k →
    let all := (cs ++ k.counts).upset u.counters
    (∀ c ∈ e.checks all, c.ok = true) → (k.merge.isEmpty = true ∨ u.commit = 0) →
    (if e.p.sink.kind = kAgg ∨ e.p.sink.kind = kWindow then (w.setTally pe all).commitAgg e e.p.sink k.pass k.merge else .ok k.pass) = .ok ps →
    ∃ t : State, exec (.morselEnd pe nj u) s = .next t ∧ t.run? pe = none ∧
      (t.slc r.slice).morsels = (s.slc r.slice).morsels + 1 ∧ (t.slc r.slice).energyNj = (s.slc r.slice).energyNj + nj ∧
      (∀ y, t.query? r.qid = some y → (y.pipe r.pipe).verified = ps.verified ++ [(r.at_.morsel, r.attempt)] ∧ y.morsels = q.morsels + 1) ∧
      sameStore s t ∧ t.queues = s.queues ∧ t.keys = s.keys) ∧
  (∀ (s : State) (pe : Gpe) (nj : Nat) (u : Upset) (r : Run) (q : Query), s.working? pe ≠ none →
    let w := s.rollSched (gpeTile pe)
    w.working? pe = some (r, q) → q.failing = false → r.xs.isSome = true → r.pipe < q.pipes.length →
    let e := q.env r.pipe (gpeTile pe).val r.at_
    let told := (r.told e (q.pipe r.pipe) pe).filter fun x => (maskTiles (q.masks.getD r.pipe 0)).contains x.1
    let all := (r.counts ++ exchangeCounts (r.counts.val .eIn).toNat (r.xs.getD []) told).upset u.counters
    (r.answered e = false → exec (.morselEnd pe nj u) s = .next (w.askTallies pe r e) ∧ (w.askTallies pe r e).run? pe = some r) ∧
    (r.answered e = true → (∀ c ∈ e.checks all, c.ok = true) →
      ∃ t : State, exec (.morselEnd pe nj u) s = .next t ∧ t.run? pe = none ∧
        (∀ y, t.query? r.qid = some y →
          (y.pipe r.pipe).verified = (q.pipe r.pipe).verified ++ [(r.at_.morsel, r.attempt)] ∧ y.morsels = q.morsels + 1) ∧ sameStore s t)) ∧
  (∀ (s : State) (pe : Gpe) (nj : Nat) (r : Run) (q : Query), s.working? pe ≠ none →
    let w := s.rollSched (gpeTile pe)
    w.working? pe = some (r, q) → q.failing = false → r.attempt = 0 →
    ((w.rollVerify (gpeTile pe)).tile (gpeTile pe)).err.peMiss.getD (gpeLocal pe).val 0 = 0 → (w.tile (gpeTile pe)).evidence = none →
    (∃ n, w.peOk n = true ∧ n ∉ r.used ++ [pe.val]) →
    ∃ (t : State) (x : ErrRec), exec (.peInternalError pe nj) s = .next t ∧ t.run? pe = none ∧
      (t.tile (gpeTile pe)).err.ring.getLast? = some x ∧ x.event = evTally ∧ x.kind = 0x01 ∧ x.index = pe.val ∧
      (∀ y, t.query? r.qid = some y → ∃ n, w.peOk n = true ∧ n ∉ r.used ++ [pe.val] ∧ y.reruns = q.reruns + 1 ∧
        y.toPost = q.toPost ++ [(n / 16, r.again q.home n (r.used ++ [pe.val]))]) ∧
      sameStore s t ∧ t.queues = s.queues ∧ t.keys = s.keys) ∧
  (∀ (s : State) (qid : Nat) (q : Query), s.query? qid = some q → q.failing = true → q.fails ≠ [] →
    ∃ t : State, exec (.queryForceStop qid) s = .next t ∧ t.query? qid = none ∧ (∀ p r, t.run? p = some r → r.qid ≠ qid) ∧
      (∀ p r, s.run? p = some r → r.qid ≠ qid → t.run? p = some r) ∧ (∀ u, ∀ j ∈ (t.tile u).codec, j.isOf qid = false) ∧
      (∀ j, j ≠ qid → (t.query? j).isSome = (s.query? j).isSome) ∧
      ((∀ f ∈ q.fails, undefResults f.status = false) → sameStore s t) ∧ t.queues = s.queues ∧ t.keys = s.keys)

/-- O32. In an ordered EMIT the morsel that commits is ready, of the lowest sequence number, and every earlier morsel is verified. Rows that
fill no frame of 1,024 wait in the carry and nothing is stored; with a full frame the commit becomes a job of the codec engine of its tile.
The ring gets a batch only where it has room for it, and a batch that waited is written once CONS has moved on (R289, R290, R295, R318). -/
def Obligations.CommitsGoInOrder : Prop :=
  (∀ (ps : PipeState) (order : Nat) (x : EmitReady), order ≠ 0 → ps.nextCommit order = some x →
    x ∈ ps.ready ∧ (∀ y ∈ ps.ready, x.seq ≤ y.seq) ∧ ∀ m ∈ ps.morsels, m.seq < x.seq → ps.isVerified m = true) ∧
  (∀ (s : State) (qid : Nat) (pipe : Fin 32) (q : Query) (x : EmitReady) (cons : HostRead) (wf : Option Nat) (mv : Nat), s.query? qid = some q →
    q.failing = false → pipe.val < q.pipes.length → pipe.val < q.img.pipes.length →
    let p := q.img.pipes.getD pipe.val default
    let ps := q.pipe pipe.val
    p.sink.kind = kEmit → p.sink.b 0 = 0 → p.sink.limit = 0 → ps.begun? = none → ps.nextCommit p.plan.order = some x →
    s.pageBad qid pipe.val x.tile x.morsel true = false →
    (ps.carry.length + x.rows.length < 1024 → (∃ m ∈ ps.morsels, ps.isVerified m = false) →
      ∃ (t : State) (y : Query), exec (.emitCommit qid pipe cons wf mv) s = .next t ∧ t.query? qid = some y ∧
        (y.pipe pipe.val).carry = ps.carry ++ x.rows ∧ (y.pipe pipe.val).nextSeq = max ps.nextSeq (x.seq + 1) ∧
        (y.pipe pipe.val).taken = ps.taken + x.rows.length ∧ (∀ e ∈ (y.pipe pipe.val).ready, e.morsel ≠ x.morsel) ∧ y.rowsOut = q.rowsOut ∧
        sameStore s t ∧ t.queues = s.queues) ∧
    (1024 ≤ ps.carry.length + x.rows.length → ∀ u, s.codecTile (tid x.tile) = some u →
      ∃ (t : State) (y : Query), exec (.emitCommit qid pipe cons wf mv) s = .next t ∧ t.query? qid = some y ∧
        (y.pipe pipe.val).carry = ps.carry ++ x.rows ∧
        t = { s.onCodec u (· ++ [{ c := q.c, enc := true, emit := some (q.qid, pipe.val) }]) with queries := t.queries })) ∧
  (∀ (a : RingDest) (st st' : RingSt) (cons : HostRead) (n : Nat), ringRoom a st cons n = (st', .done) →
    st'.prod = st.prod ∧ st'.outs = st.outs ∧ n + (st'.prod - st'.cons) ≤ a.size) ∧
  (∀ (s : State) (qid : Nat) (cons : HostRead) (q : Query) (k seq : Nat) (x : EmitReady) (wf : Option (Nat × Nat)) (w : State) (n : Nat), s.query? qid = some q → q.failing = false →
    q.consWait = some (k, seq) → (q.pipe k).ready.find? (fun x => x.seq == seq) = some x →
    let e := q.commitEnv k x
    s.commitRing e x cons wf = (w, .done, n) →
    exec (.consPoll qid ⟨cons, wf⟩) s = .next (w.commitEnd q.qid e x) ∧ (∃ o, w.out = s.out ++ o) ∧ sameStore s w)

/-- O33. A window never leaves its budget epoch, and at its start the credit becomes min(credit, 0) + REF, ETHROTTLE says whether energy skipped
a token in the last window, and a token that was skipped and not dispatched ages by one, up to 16; a row for a window that has already
started adds only its energy (log 96). The budget of a new epoch is the one that was sent, else the last, and a SET_FEATURE of SCHED_WINDOW
fetched before it completes (R343 to R345, R355). A verification window that has begun clears the counts it bounds on every present tile,
once; the end of a coalescing window reports the further events of a structure in one record, stamped with that end, and empties the counts
(R322, R328, R334, R412, R477). -/
def Obligations.WindowsRefillAndCountsStartAgain : Prop :=
  (
  (∀ now us, 1 ≤ us → 0 < windowLen now us ∧ windowLen now us ≤ 1000 * us ∧
    now % 1000000 / (1000 * us) * (1000 * us) + windowLen now us ≤ 1000000) ∧
  (∀ (s : State) (t : TileId) (other : Nat), s.live t = true → (∀ e, s.dev.epochEnd = some e → s.now < e) →
    let c := s.sched t
    let b := s.now - s.now % epochNs % max 1 (1000 * c.windowUs)
    (c.windowEnd = none ∨ c.windowEnd = some b →
      ∃ s' : State, exec (.schedWindowStart t other) s = .next s' ∧
        (s'.sched t).credit = clampCredit (min c.credit 0 + ((c.budgetMw * windowLen b c.windowUs / 1000 - other : Nat) : Int)) ∧
        (s'.sched t).ethrottle = c.skipWin ∧ (s'.sched t).skipWin = false ∧ (s'.sched t).used = [] ∧ (s'.sched t).offered = none ∧
        (s'.sched t).tokens = c.tokens.map (fun k =>
          { k with
            age := if k.skipped && !k.dispatched && (s.tile t).mode.dispatches && !s.sliceHeld k.slice then min 16 (k.age + 1) else k.age
            skipped := false, dispatched := false }) ∧
        (s'.sched t).energyNj = c.energyNj + other ∧ (s'.sched t).windowEnd = some (b + windowLen b c.windowUs) ∧ (s'.sched t).otherIn = true ∧
        (∀ p, s'.run? p = s.run? p) ∧ s'.cmds = s.cmds ∧ sameStore s s' ∧ s'.queues = s.queues) ∧
    (∀ e, c.windowEnd = some e → s.now < e →
      (c.otherIn = true → exec (.schedWindowStart t other) s = .next s) ∧
      (c.otherIn = false → exec (.schedWindowStart t other) s = .next (s.onSched t fun c => { c with
        refill := c.refill - other, credit := clampCredit (c.credit - (min c.refill other : Nat)), otherIn := true
        energyNj := c.energyNj + other, epochNj := c.epochNj + other })))) ∧
  (∀ s : State, s.dev.mode.runsCommands = true →
    let b := s.now / epochNs * epochNs
    (∀ e, s.dev.epochEnd = some e → s.now < e → exec .budgetEpochStart s = .next s) ∧
    (s.dev.epochEnd = none ∨ s.dev.epochEnd = some b → (∀ t e, s.live t = true → (s.sched t).windowEnd = some e → b ≤ e) →
      ∃ s' : State, exec .budgetEpochStart s = .next s' ∧ s'.feat.schedNext = none ∧ s'.feat.schedWindow = s.nextWindow ∧
        (∀ x ∈ s.cmds, x.setsWindow = true → s.cmd? x.ref = some x →
          ∃ y, s'.cmd? x.ref = some y ∧ y.phase = .done ∧ y.comp.status = stSuccess ∧ y.comp.result = leBytes 8 s.feat.schedWindow) ∧
        s'.dev.epochEnd = some (b + epochNs) ∧ s'.dev.limitAt = some s.dev.limitW ∧
        (∀ t, s.live t = true → (s'.sched t).budgetMw = (s.sched t).nextMw.getD (s.sched t).budgetMw ∧ (s'.sched t).nextMw = none ∧
          (s'.sched t).epochNj = 0 ∧ (s'.sched t).windowUs = s'.feat.schedWindow ∧ (s'.sched t).tokens = (s.sched t).tokens) ∧
        (∀ t, s.live t = false → s'.tile t = s.tile t) ∧ sameStore s s' ∧ s'.queues = s.queues))) ∧
  (
  (∀ s : State, ∃ s' : State, exec .verificationWindowStart s = .next s' ∧
      (∀ t, s.present t = true → (s.tile t).err.verifyAt ≠ s.now / verifyNs →
        (s'.tile t).err.peMiss = List.replicate 16 0 ∧ (s'.tile t).err.badWord = [] ∧ (s'.tile t).err.verifyAt = s.now / verifyNs ∧
        (s'.tile t).err.ring = (s.tile t).err.ring ∧ (s'.tile t).err.fence = (s.tile t).err.fence ∧
        (∀ k ∈ (s'.tile t).large.toList, k.eccHits = 0) ∧
        ∀ e ∈ (s'.tile t).edges.toList, ∀ m ∈ e.modules.toList, m.retrains = 0) ∧
      (∀ t, (s.tile t).err.verifyAt = s.now / verifyNs ∨ s.present t = false → s'.tile t = s.tile t) ∧ s' = { s with tiles := s'.tiles }) ∧
  (∀ (s : State) (t : TileId), s.live t = true → (s.tile t).err.coalAt = s.now / coalesceNs → exec (.errorCoalesceWindowEnd t) s = .next s) ∧
  (∀ (s : State) (t : TileId), s.live t = true → (s.tile t).err.counts = [] → (s.tile t).err.coalAt ≠ s.now / coalesceNs →
    exec (.errorCoalesceWindowEnd t) s =
      .next (s.onTile t fun x => { x with err := { x.err with counts := [], coalAt := s.now / coalesceNs } })) ∧
  (∀ (s : State) (t : TileId) (kind index event n : Nat), s.live t = true → (s.tile t).err.counts = [(kind, index, event, n + 1)] →
    (s.tile t).err.coalAt ≠ s.now / coalesceNs → (s.tile t).evidence = none →
    ∃ (s' : State) (r : ErrRec), exec (.errorCoalesceWindowEnd t) s = .next s' ∧ (s'.tile t).err.counts = [] ∧
      (s'.tile t).err.ring.getLast? = some r ∧ r.event = event ∧ r.sev = 0 ∧ r.kind = kind ∧ r.index = index ∧ r.data = leBytes 4 (n + 1) ∧
      r.tstamp = ((s.tile t).err.coalAt + 1) * coalesceNs ∧ s' = { s with tiles := s'.tiles, out := s'.out } ∧ ∀ u, u ≠ t → sameTile s s' u))

/-- O34. The split of the package limit: with 25 W for each tile, every budget lies between 25 W and 150 W, and the budgets together never
exceed the limit less the power of the package's other parts; POWER_SPLIT, made with the limit as it stood when the epoch began, gives each
live tile its budget for the next epoch (R350). -/
def Obligations.PowerSplitStaysWithinTheLimit : Prop :=
  (∀ (limit other : Nat) (l : List (Nat × Nat)),
    (powerSplit limit other l).map Prod.fst = l.map Prod.fst ∧
    ((powerSplit limit other l).map Prod.snd).sum ≤ limit - other ∧
    (l.length * 25000 ≤ limit - other → ∀ p ∈ powerSplit limit other l, 25000 ≤ p.2 ∧ p.2 ≤ 150000)) ∧
  (∀ (s : State) (other : Nat), s.dev.mode.runsCommands = true →
    let w := s.rollEpochs (s.now / epochNs + 1)
    ∃ s' : State, exec (.powerSplit other) s = .next s' ∧ s'.otherMw = other ∧
      (∀ t, w.live t = true → ∃ mw,
        (t.val, mw) ∈ powerSplit (w.dev.limitAt.getD w.dev.limitW * 1000) other (w.liveTiles.map fun u => (u.val, headroom (w.tjMax u))) ∧
        (s'.sched t).nextMw = some mw) ∧
      (∀ t, w.live t = false → s'.tile t = w.tile t) ∧
      (∀ t, s'.tile t = { w.tile t with sched := { w.sched t with nextMw := (s'.sched t).nextMw } }) ∧
      s' = { w with tiles := s'.tiles, otherMw := other }) ∧
  (∀ (s : State) (n e : Nat), s.dev.epochEnd = some e → s.now < e → s.rollEpochs n = s)

/-- O35. UPDATE_STROBE is rejected while one is busy, a change runs or group 31 is named, and otherwise requires the strobe; bit 10 clears the
rejection. NW_CTL with both bits is rejected; from READY with nothing under way ENTER requires NIGHTWATCH, and EXIT leads back. TIMEBASE_LO
latches the high bits for its port. A host or debug vote takes its place and 0b11 changes none (R368, R494, R504, R505, R512, R513). A
posted write waits in its block's buffer, in order; one that finds the buffer full is dropped with WDROP; the first of the buffer lands
unless it is held, and HALT discards it. SET, CLR and TGL writes leave the old bits or-ed, cleared or flipped. Clearing APPLY_MODE copies
the shadow; RETRAIN starts a retrain on each active module (R477, R494, R497, R500, R501, R503, R508). -/
def Obligations.RegisterWritesLandOrWait : Prop :=
  (
  (∀ (s : State) (v : Word32), regOpen s .dev →
    (bit v.toNat 10 = true → exec (.updateStrobe v) s = .next { s with dev := { s.dev with strobeRej := false } } ∧
      exec (.updateStrobeClearRej v) s = .next { s with dev := { s.dev with strobeRej := false } }) ∧
    (bit v.toNat 10 = false → v.toNat % 32 = 31 ∨ s.dev.strobeBusy = true ∨ s.dev.change ≠ none ∨ s.dev.phase ≠ .idle ∨ s.dev.activation ≠ none →
      exec (.updateStrobe v) s = .next { s with dev := { s.dev with strobeRej := true } }) ∧
    (bit v.toNat 10 = false → v.toNat % 32 ≠ 31 → s.dev.strobeBusy = false → s.dev.change = none → s.dev.phase = .idle → s.dev.activation = none →
      exec (.updateStrobe v) s = .next { s with dev := { s.dev with
        strobeBusy := true, strobeRefused := false, waiting := s.dev.waiting ++ [{ code := 2, arg := v.toNat % 32, origin := .strobe }] } })) ∧
  (∀ s : State, regOpen s .nw →
    (exec (.nwEnter true) s = .next { s with dev := { s.dev with rrej := true } } ∧
      exec (.nwExit true) s = .next { s with dev := { s.dev with rrej := true } }) ∧
    (s.dev.mode = .ready → s.dev.phase = .idle → s.dev.change = none → s.dev.activation = none →
      exec (.nwEnter false) s = .next { s with dev := { s.dev with
        drainTo := none, waiting := s.dev.waiting ++ [{ code := 1, arg := 9, origin := .modeReq }] } }) ∧
    (s.dev.mode = .nightwatch → s.dev.phase = .idle → s.dev.change = none → s.dev.activation = none →
      exec (.nwExit false) s = .next { s with dev := { s.dev with
        drainTo := none, waiting := s.dev.waiting ++ [{ code := 1, arg := 3, origin := .modeReq }] } }) ∧
    (s.dev.mode ≠ .ready → exec (.nwEnter false) s = .next { s with dev := { s.dev with rrej := true } }) ∧
    (s.dev.mode ≠ .nightwatch → s.dev.mode ≠ .service → s.dev.mode ≠ .degraded →
      exec (.nwExit false) s = .next { s with dev := { s.dev with rrej := true } })) ∧
  (∀ (s : State) (p : TileId), s.portUp p = true → s.dev.mode.readable .dev = true →
    exec (.timebaseLoRead p) s = .next { s with dev := { s.dev with tbLatch := s.dev.tbLatch.set p.val (s.now / 2 ^ 32) } }) ∧
  (∀ (s : State) (t : TileId) (d : DomId) (v : Word32), regOpen s (.tile t 0) →
    (v.toNat % 4 = 3 → exec (.pdVoteHostWrite t d v) s = .next s) ∧
    (v.toNat % 4 ≠ 3 → exec (.pdVoteHostWrite t d v) s = .next (s.castVote t d 0 (v.toNat % 4)))) ∧
  (∀ (s : State) (t : TileId) (d : DomId) (v : Word32) (jtag : Bool),
    (s.debugActs = false → exec (.pdVoteDbgWrite t d v jtag) s = .next s) ∧
    (s.debugActs = true → regOpen s (.tile t 0) → v.toNat % 4 ≠ 3 →
      exec (.pdVoteDbgWrite t d v false) s = .next ((s.castVote t d 5 (v.toNat % 4)).onDom t d fun y => { y with dbgHold := bit v.toNat 2 })) ∧
    (s.debugActs = true → s.present t = true → s.dev.mode ≠ .cold → (s.block (Blk.tile t 0).no).buffer = [] → s.heldBlk (.tile t 0) = false →
      v.toNat % 4 ≠ 3 →
      exec (.pdVoteDbgWrite t d v true) s = .next ((s.castVote t d 5 (v.toNat % 4)).onDom t d fun y => { y with dbgHold := bit v.toNat 2 }))) ∧
  (∀ (s : State) (t : TileId) (d e : DomId) (voter v i : Nat), v ≤ 2 → i ≠ 4 →
    (((s.castVote t d voter v).dom t e).votes.getD i 0 =
      if e = d ∧ i = voter ∧ i < (s.dom t e).votes.length then v else (s.dom t e).votes.getD i 0) ∧
    ((s.castVote t d voter v).dom t e).st = (s.dom t e).st)) ∧
  (
  (∀ (s : State) (w : RegWrite) (b : Blk), s.portUp w.port = true → w.addr < 2 ^ 26 → w.size = 4 → w.addr % 4 = 0 → blkOf (w.addr / 0x4000) = some b →
    s.blkPresent b = true → s.dev.mode.takesWrites b = true →
    ((s.block b.no).buffer.length < b.depth →
      ∃ t : State, exec (.registerWrite w) s = .next t ∧
        t.block b.no = { s.block b.no with
          buffer := (s.block b.no).buffer ++ [{ port := w.port.val, off := w.addr % 0x4000, value := BitVec.ofNat 32 (w.value.toNat % 2 ^ 32) }] } ∧
        (∀ j, j ≠ b.no → t.block j = s.block j) ∧ t = { s with blocks := t.blocks, tiles := t.tiles }) ∧
    (b.depth ≤ (s.block b.no).buffer.length →
      ∃ t : State, exec (.registerWrite w) s = .next t ∧ t.block b.no = { s.block b.no with wdrop := true } ∧
        (∀ j, j ≠ b.no → t.block j = s.block j) ∧ t = { s with blocks := t.blocks })) ∧
  (∀ (s : State) (n : Nat) (b : Blk) (w : BufWrite) (rest : List BufWrite), blkOf n = some b → (s.block b.no).buffer = w :: rest →
    let popped := s.setBlock b.no { s.block b.no with buffer := rest }
    (s.dev.mode = .halt → exec (.registerWriteLand n) s = .next popped) ∧
    (s.dev.mode ≠ .halt → s.heldBlk b = true → exec (.registerWriteLand n) s = .next s) ∧
    (s.dev.mode ≠ .halt → s.heldBlk b = false → exec (.registerWriteLand n) s = .next (popped.land w.port b w.off w.value.toNat))) ∧
  (∀ cur v mask i,
    bit (regionValue 2 cur v mask) i = (bit mask i && (bit cur i || bit v i)) ∧
    bit (regionValue 4 cur v mask) i = (bit mask i && (bit cur i && !bit v i)) ∧
    bit (regionValue 6 cur v mask) i = (bit mask i && (bit cur i != bit v i))) ∧
  (∀ (s : State) (w : RegWrite) (b : Blk), s.portUp w.port = true → w.addr < 2 ^ 26 → w.size = 4 → w.addr % 4 = 0 → blkOf (w.addr / 0x4000) = some b →
    regOpen s b →
    let off := w.addr % 0x4000
    let r := off % 0x800
    let v := w.value.toNat % 2 ^ 32
    (off / 0x800 = 2 ∨ off / 0x800 = 4 ∨ off / 0x800 = 6 → b.rwMask r ≠ 0 →
      exec (.aliasWrite w) s = .next (s.writeReg b r (regionValue (off / 0x800) (s.reg w.port.val b r false) v (b.rwMask r)))) ∧
    (off / 0x800 = 2 ∨ off / 0x800 = 4 ∨ off / 0x800 = 6 → b.rwMask r = 0 → exec (.aliasWrite w) s = .next s) ∧
    (∀ t, b = .tile t 5 → off = 0x7F8 → bit w.value.toNat 0 = false → bits v 8 4 ≠ 31 → (s.block b.no).applyMode = true →
      ∃ s' : State, exec (.applyModeClear w) s = .next s' ∧ (s'.tile t).wgt = (s.tile t).wgtShadow ∧
        s'.block b.no = { s.block b.no with applyMode := false, group := bits v 8 4 } ∧ (∀ u, u ≠ t → s'.tile u = s.tile u) ∧
        s' = { s with blocks := s'.blocks, tiles := s'.tiles })) ∧
  (∀ (s : State) (t : TileId) (e : EdgeId), regOpen s (.tile t 7) → (s.edge t e).up = true → (s.edge t e).actives ≠ [] →
    (∀ i ∈ (s.edge t e).actives, ((s.edge t e).module i).training = false) →
    ∃ s' : State, exec (.stirRetrain t e) s = .next s' ∧ (∀ i ∈ (s.edge t e).actives, ((s'.edge t e).module i).training = true) ∧
      (s'.edge t e).st = .retrain ∧ (∀ f, f ≠ e → s'.edge t f = (s.rollVerify t).edge t f) ∧ (∀ u, u ≠ t → s'.tile u = s.tile u) ∧
      s' = { s with tiles := s'.tiles }))

/-- O36. RD_LINE of a good line answers its 64 bytes with RSTAT OK, of a bad one the status and bytes that nothing states; WR_LINE stores the
bytes its mask names and no other, at a good line or a poisoned one, and answers; the bytes it stored read back. A whole line written to
working SRAM is no longer poisoned (R329, R481). A response ends the request it answers and nothing else; one that answers none is dropped;
a stale one is counted. A request whose time is up is lost: a register access just ends, a morsel's request abandons the morsel. REG_RD
answers the word it reads, REG_WR posts its word and answers (R92, R481, R490). -/
def Obligations.RequestsAreServedAndEnded : Prop :=
  (
  (∀ (s : State) (h : MsgHdr) (tag addr : Nat), served s h →
    let a := addr / 64 * 64
    let st := s.lineStat h a
    ∃ (t : State) (data : List Byte), exec (.rdLine h tag addr) s = .next t ∧ data.length = 64 ∧ (st = 0 → data = s.lineBytes h a) ∧
      answers s t h 0x11 (leBytes 2 tag ++ leBytes 1 st ++ leBytes 5 0 ++ data) ∧
      sameStore s t ∧ t.poison = s.poison ∧ t.cmds = s.cmds ∧ ∀ x, t.cell? x = s.cell? x) ∧
  (∀ (s : State) (h : MsgHdr) (tag addr : Nat) (mask : BitVec 64) (data : List Byte), served s h →
    let a := addr / 64 * 64
    let st := s.lineStat h a
    (agentTier h.dstAgent ≠ none → st ≤ 1 →
      ∃ t : State, exec (.wrLine h tag addr mask data) s = .next t ∧ answers s t h 0x12 (leBytes 2 tag ++ [0, 0]) ∧
        (∀ i < 64, mask.getLsbD i = true → t.cell? (a + i) = some (byteAt data i)) ∧
        (∀ x, (∀ i < 64, mask.getLsbD i = true → x ≠ a + i) → t.cell? x = s.cell? x) ∧
        (∀ j, (∀ e, s.segAt a = some e → j ≠ e.1) → t.seg j = s.seg j) ∧ t.cmds = s.cmds) ∧
    (agentTier h.dstAgent = none → st ≤ 1 →
      ∃ t : State, exec (.wrLine h tag addr mask data) s = .next t ∧ answers s t h 0x12 (leBytes 2 tag ++ [0, 0]) ∧ sameStore s t ∧
        (mask = BitVec.allOnes 64 → sramLineOf h a ∉ (t.tile h.dstTile).sramPoison) ∧ t.poison = s.poison ∧ t.cmds = s.cmds) ∧
    (2 ≤ st → ∃ t : State, exec (.wrLine h tag addr mask data) s = .next t ∧ answers s t h 0x12 (leBytes 2 tag ++ leBytes 1 st ++ [0]) ∧
        (∀ x, t.cell? x = s.cell? x) ∧ sameStore s t ∧ t.poison = s.poison ∧ t.cmds = s.cmds))) ∧
  (
  (∀ (s : State) (h : MsgHdr) (tag rstat : Nat) (data : List Byte) (p : Pending), s.req? h tag = some p → s.stale? h = false → rstat ≠ 1 →
    let ended := s.onTile h.dstTile fun x => { x with reqs := x.reqs.filter fun y => decide (y ≠ p) }
    (p.mtype = 0x01 → data.length ≤ 64 → exec (.rdData h tag rstat data) s = .next ended) ∧
    (p.mtype = 0x02 ∨ p.mtype = 0x04 → exec (.wrAck h tag rstat) s = .next ended) ∧
    (p.mtype = 0x03 → ∀ w, exec (.regData h tag rstat w) s = .next ended)) ∧
  (∀ (s : State) (h : MsgHdr) (tag rstat : Nat) (data : List Byte) (w : Word32), s.req? h tag = none →
    exec (.rdData h tag rstat data) s = .next s ∧ exec (.wrAck h tag rstat) s = .next s ∧ exec (.regData h tag rstat w) s = .next s) ∧
  (∀ (s : State) (h : MsgHdr) (tag rstat : Nat) (p : Pending), s.req? h tag = some p → s.stale? h = true → p.mtype = 0x02 ∨ p.mtype = 0x04 →
    ∃ t : State, exec (.wrAck h tag rstat) s = .next t ∧ (t.queue h.queue).staleDrops = min 0xFFFFFFFF ((s.queue h.queue).staleDrops + 1) ∧
      (t.slc h.slice).stale = (s.slc h.slice).stale + 1 ∧ (∀ q, q ≠ h.queue → t.queue q = s.queue q) ∧ t.cmds = s.cmds ∧ t.segs = s.segs) ∧
  (∀ (s : State) (t : TileId) (agent : Fin 64) (tag : Nat) (p : Pending),
    (s.tile t).reqs.find? (fun x => x.agent == agent.val && x.tag == tag) = some p →
    (p.mtype = 0x03 ∨ p.mtype = 0x04 →
      exec (.reqTimeout t agent tag) s = .next (s.onTile t fun x => { x with reqs := x.reqs.filter fun y => decide (y ≠ p) })) ∧
    (∀ g, p.mtype = 0x01 ∨ p.mtype = 0x02 → p.pe = some g →
      ∃ s' : State, exec (.reqTimeout t agent tag) s = .next s' ∧ p ∉ (s'.tile t).reqs ∧ s'.run? g = none ∧ s'.mem = s.mem ∧ s'.queues = s.queues ∧
        s'.keys = s.keys)) ∧
  (∀ (s : State) (h : MsgHdr) (tag off : Nat) (w : Word32), s.present h.dstTile = true →
    (∃ t : State, exec (.regRd h tag off) s = .next t ∧
      answers s t h 0x13 (leBytes 2 tag ++ [0, 0] ++ leBytes 4 (if off % 4 = 0 then (s.addReq h 0x03 tag).read32 h.srcTile.val off else 0)) ∧
      t.mem = s.mem ∧ t.segs = s.segs ∧ t.cmds = s.cmds ∧ t.blocks = s.blocks) ∧
    exec (.regWr h tag off w) s = .next (State.answer
      (if off % 4 = 0 then (s.addReq h 0x04 tag).post32 h.srcTile.val off w.toNat true else (s.addReq h 0x04 tag).postBad off)
      h 0x12 (leBytes 2 tag))))

/-- O37. An exchange record is deposited in its partition; an acknowledgement adds to what its sender counts; the timer leaves nothing of that
sender unacknowledged; a tally request is answered with the receiver's counts, and the sender keeps the last tally of each tile (R246, R250,
R483). -/
def Obligations.ExchangeRecordsAreCounted : Prop :=
  (∀ (s : State) (h : MsgHdr) (qid : Nat) (pipe : Fin 32) (part : Nat) (rec : List Byte) (q : Query) (ps : PipeState), served s h →
    s.query? qid = some q → q.failing = false → pipe.val < q.pipes.length →
    let p := q.img.pipes.getD pipe.val default
    p.sink.kind = kExchange → bit (q.masks.getD pipe.val 0) h.dstTile.val = true →
    (q.pipe pipe.val).deposit p.sink h.dstTile.val part (cut rec 0 (field rec 14 2)) = some ps →
    ∃ t : State, exec (.xrec h qid pipe part rec) s = .next t ∧ (∀ y, t.query? qid = some y → (y.pipe pipe.val).parts = ps.parts) ∧
      t.mem = s.mem ∧ t.queues = s.queues ∧ t.keys = s.keys) ∧
  (∀ (s : State) (h : MsgHdr) (qid : Nat) (pe : Gpe) (attempt morsel count : Nat) (q : Query) (r : Run), s.live h.dstTile = true →
    s.stale? h = false → s.query? qid = some q → s.runOf? qid pe morsel attempt = some r →
    let old := ((r.acked.find? fun a => a.1 == h.srcTile.val).map (·.2)).getD 0
    ∃ t : State, exec (.xack h qid pe attempt morsel count) s = .next t ∧
      t.run? pe = some { r with acked := (r.acked.filter fun a => decide (a.1 ≠ h.srcTile.val)) ++ [(h.srcTile.val, old + count)] } ∧
      (∀ p, p ≠ pe → t.run? p = s.run? p) ∧ t = { s with tiles := t.tiles, out := t.out }) ∧
  (∀ (s : State) (t : TileId) (qid : Nat) (pe : Gpe) (morsel attempt : Nat) (q : Query), s.query? qid = some q → s.live t = true →
    ∃ s' : State, exec (.xackTimer t qid pe morsel attempt) s = .next s' ∧
      (∀ y, s'.query? qid = some y → ∀ k < q.pipes.length, ∀ x ∈ (y.pipe k).xr,
        x.tile = t.val → x.pe = pe.val → x.morsel = morsel → x.attempt = attempt → x.unacked = 0) ∧
      s'.mem = s.mem ∧ s'.queues = s.queues ∧ s'.keys = s.keys) ∧
  (∀ (s : State) (h : MsgHdr) (qid : Nat) (pe : Gpe) (attempt morsel : Nat) (q : Query) (r : Run), s.query? qid = some q →
    s.runOf? qid pe morsel attempt = some r → s.live h.dstTile = true → s.stale? h = false →
    let x := (q.pipe r.pipe).recvTally h.dstTile.val pe.val morsel attempt
    ∃ (t : State) (h' : MsgHdr) (more : List Out), exec (.xtallyReq h qid pe attempt morsel) s = .next t ∧ h'.dstTile = h.srcTile ∧
      t.out = s.out ++ .msg 0x32 h' (leBytes 2 qid ++ leBytes 1 pe.val ++ leBytes 1 attempt ++ leBytes 4 morsel ++ leBytes 8 x.1 ++
        leBytes 8 x.2.toNat) :: more ∧
      t = { s with tiles := t.tiles, out := t.out }) ∧
  (∀ (s : State) (h : MsgHdr) (qid : Nat) (pe : Gpe) (attempt morsel cnt x : Nat) (r : Run), s.runOf? qid pe morsel attempt = some r →
    s.live h.dstTile = true → s.stale? h = false →
    exec (.xchgTally h qid pe attempt morsel cnt x) s = .next (s.setRun pe (some { r with
      tallies := (r.tallies.filter fun y => decide (y.1 ≠ h.srcTile.val)) ++ [(h.srcTile.val, cnt, BitVec.ofNat 64 x)] })))

/-- O38. BOOT_DATA adds its bytes to the image of a tile in DAWN; a firmware message is taken once for each TAG; a control message is sent
again, and after three tries its destination is fenced; a payload error poisons its unit, and a header, router or Girth error fences the
tile (R464, R487, R490). -/
def Obligations.ControlMessagesAndMeshErrors : Prop :=
  (∀ (s : State) (h : MsgHdr) (off : Nat) (data : List Byte), s.dev.mode = .dawn → s.live h.dstTile = true →
    exec (.bootData h off data) s = .next (s.onTile h.dstTile fun x => { x with image := memWriteBytes x.image off data })) ∧
  (∀ (s : State) (h : MsgHdr) (tag kind : Nat) (data : List Byte), s.live h.dstTile = true → kind < 65536 → data.length ≤ 492 →
    ((h.srcTile.val, 0x3F, tag) ∉ (s.tile h.dstTile).seenCtl →
      exec (.fwMsg h tag kind data) s = .next (s.onTile h.dstTile fun x => { x with seenCtl := x.seenCtl ++ [(h.srcTile.val, 0x3F, tag)] })) ∧
    ((h.srcTile.val, 0x3F, tag) ∈ (s.tile h.dstTile).seenCtl → exec (.fwMsg h tag kind data) s = .next s)) ∧
  (∀ (s : State) (t : TileId) (tag : Nat) (p : CtlPending), (s.tile t).ctl.find? (fun x => x.tag == tag) = some p →
    (3 ≤ p.tries → s.present (tid p.dst) = true → ∃ s' : State, exec (.ctlResend t tag) s = .next s' ∧ s'.live (tid p.dst) = false) ∧
    (p.tries < 3 → s.lostNow t p.dst = true →
      exec (.ctlResend t tag) s = .next (s.onTile t fun x =>
        { x with ctl := x.ctl.map fun y => if y = p then { p with tries := p.tries + 1 } else y })) ∧
    (p.tries < 3 → s.lostNow t p.dst = false →
      exec (.ctlResend t tag) s = .next
        ((s.onTile t fun x => { x with ctl := x.ctl.filter fun y => decide (y ≠ p) }).forward t (msgBytes p.mtype p.h p.body)))) ∧
  (∀ (s : State) (t : TileId) (f : MeshFault), s.live t = true →
    (∀ a, f = .payload a → ∃ s' : State, exec (.meshFlitError t f) s = .next s' ∧ (∀ u, u ∈ s'.poison ↔ u = a / 64 ∨ u ∈ s.poison) ∧
      s' = { s with poison := s'.poison }) ∧
    ((∀ a, f ≠ .payload a) → ∃ s' : State, exec (.meshFlitError t f) s = .next s' ∧ s'.live t = false ∧ (s'.tile t).relays = false ∧ s'.mem = s.mem))

/-- O39. A flit reads back as what was sent in it: the fields and the 244 bytes of payload (R472, R473). -/
def Obligations.FlitsReadBack : Prop :=
  ∀ (seq ack ftype foff cvc ccnt : Nat) (nak : Bool) (payload : List Byte), seq < 256 → ack < 256 → ftype < 2 → foff < 64 → cvc < 8 → ccnt < 32 →
    payload.length = 244 →
    readFlit (flitBytes seq ack ftype nak foff cvc ccnt payload) =
      some { seq := seq, ack := ack, idle := ftype == 1, nak := nak, foff := foff, cvc := cvc, ccnt := ccnt, payload := payload }

/-- O40. A flit with a bad CRC is counted and answered with one NAK; an IDLE flit releases the flits its ACKSEQ covers and returns credits; a
DATA flit in sequence becomes the last accepted one, and padding carries no message; a replay sends what is not acknowledged again, and a
module whose oldest flit has been sent four times retrains (R474 to R479). -/
def Obligations.FlitsAreAcknowledgedAndReplayed : Prop :=
  (∀ (s : State) (t : TileId) (e : EdgeId) (m : ModuleId) (bs : List Byte), s.modUp t e m = true → readFlit bs = none →
    ((s.edge t e).module m.val).nakSent = true →
    exec (.dataFlit t e m bs) s = .next (s.onEdge t e fun x => { x with crc := min 0xFFFFFFFF (x.crc + 1) })) ∧
  (∀ (s : State) (t : TileId) (e : EdgeId) (m : ModuleId) (bs : List Byte) (f : Flit), s.modUp t e m = true → readFlit bs = some f →
    f.idle = true → f.nak = false → (s.edge t e).held = [] →
    exec (.idleFlit t e m bs) s = .next (s.onEdge t e fun x => x.onModule m.val fun y => (y.acked f.ack).credit f.cvc f.ccnt)) ∧
  (∀ (m : Module) (before after : List Sent) (k : Sent), m.replay = before ++ k :: after → (∀ j ∈ before, j.seq ≠ k.seq) →
    (m.acked k.seq).replay = after) ∧
  (∀ (m : Module) (v ccnt : Nat), v ≤ 4 → v < m.credits.length →
    (m.credit v ccnt).credits.getD v 0 = m.credits.getD v 0 + (ccnt + 32 - m.lastCcnt.getD v 0) % 32) ∧
  (∀ (s : State) (t : TileId) (e : EdgeId) (m : ModuleId) (bs : List Byte) (f : Flit), s.modUp t e m = true → readFlit bs = some f →
    f.idle = false → f.nak = false → f.seq = (((s.edge t e).module m.val).lastAck + 1) % 256 → ((s.edge t e).module m.val).skip = false →
    ((s.edge t e).module m.val).partial_ = [] → byteAt f.payload 0 = 0 →
    ∃ s' : State, exec (.dataFlit t e m bs) s = .next s' ∧ ((s'.edge t e).module m.val).lastAck = f.seq ∧
      ((s'.edge t e).module m.val).nakSent = false ∧ (∀ u, u ≠ t → s'.tile u = s.tile u) ∧ (∀ g, g ≠ e → s'.edge t g = s.edge t g) ∧
      s' = { s with tiles := s'.tiles, out := s'.out }) ∧
  (∀ (s : State) (t : TileId) (e : EdgeId) (m : ModuleId), s.modUp t e m = true → ((s.edge t e).module m.val).replay ≠ [] →
    (((s.edge t e).module m.val).sends < 4 →
      ∃ (s' : State) (flits : List (List Byte)), exec (.replayTimeout t e m) s = .next s' ∧
        flits.length = ((s.edge t e).module m.val).replay.length ∧ s'.out = s.out ++ flits.map (Out.flit t.val e.val m.val) ∧
        ((s'.edge t e).module m.val).sends = ((s.edge t e).module m.val).sends + 1 ∧
        ((s'.edge t e).module m.val).replay = ((s.edge t e).module m.val).replay ∧ s' = { s with tiles := s'.tiles, out := s'.out }) ∧
    (4 ≤ ((s.edge t e).module m.val).sends →
      ∃ s' : State, exec (.replayTimeout t e m) s = .next s' ∧ ((s'.edge t e).module m.val).training = true ∧ (s'.edge t e).st = .retrain ∧
        s' = { s with tiles := s'.tiles }))

/-- O41. A retrain that ends well sets the credits again and empties no replay buffer; one that fails is counted, the second in a row marks the
module to be disabled; a disabled module is inactive, and an edge with none left is fenced; incompatible parameters fence the link, good
ones are kept (R477, R478, R486). Trained links are ACTIVE with the modules that trained, a link down says so, a message on the sideband is
delivered or, when it fails the checks, dropped and logged; with every tile reachable ROUTE_UPDATE gives each tile its table and requires
the strobe; a tile is always its own destination (R468, R469, R482, R485, R488, R489). A quiet edge answers SLEEP_REQ with L1, one with
traffic refuses; SLEEP_ACK ends the entry in RET or lower, SLEEP_NAK or its timeout ends it with FABRIC_OUTSTANDING; a link leaves L1 once
the domains of both its sides are ON, and votes a side that is not ON (R373, R489). -/
def Obligations.LinksTrainSleepAndWake : Prop :=
  (
  (∀ (s : State) (t : TileId) (e : EdgeId) (m : ModuleId), ((s.edge t e).module m.val).training = true → (s.edge t e).up = true →
    (∃ s' : State, exec (.moduleRetrain t e m true) s = .next s' ∧ ((s'.edge t e).module m.val).training = false ∧
      ((s'.edge t e).module m.val).failed = 0 ∧ s' = { s with tiles := s'.tiles, out := s'.out }) ∧
    (∃ s' : State, exec (.moduleRetrain t e m false) s = .next s' ∧ ((s'.edge t e).module m.val).training = true ∧
      ((s'.edge t e).module m.val).failed = ((s.edge t e).module m.val).failed + 1 ∧
      (((s.edge t e).module m.val).active = true → 1 ≤ ((s.edge t e).module m.val).failed → (s'.edge t e).stopped = true) ∧
      s' = { s with tiles := s'.tiles })) ∧
  (∀ (s : State) (t : TileId) (e : EdgeId) (m : ModuleId), s.present t = true → (s.partner t e).isSome = true → (s.edge t e).up = true →
    ((s.edge t e).module m.val).spent = true → (∀ i < 6, i ≠ m.val → ((s.edge t e).module i).replay = []) →
    ∃ s' : State, exec (.moduleDisable t e m) s = .next s' ∧ ((s'.edge t e).module m.val).active = false ∧
      ((∀ i < 6, i ≠ m.val → ((s.edge t e).module i).active = false) → (s'.edge t e).st = .fenced) ∧
      s'.mem = s.mem ∧ s'.queues = s.queues ∧ s'.keys = s.keys) ∧
  (∀ (s : State) (t : TileId) (e : EdgeId) (body : List Byte), s.present t = true → s.dev.mode ≠ .cold → (s.partner t e).isSome = true →
    (s.edge t e).up = false → (s.edge t e).st ≠ .l1 → (s.edge t e).st ≠ .fenced →
    (s.paramsBad t e body = true → ∃ s' : State, exec (.linkParams t e body) s = .next s' ∧ (s'.edge t e).st = .fenced) ∧
    (s.paramsBad t e body = false → exec (.linkParams t e body) s = .next (s.onEdge t e fun x =>
      { x with partner := byteAt body 2, kind := byteAt body 5 % 2, cred := (List.range 5).map fun v => field body (8 + 2 * v) 2 })))) ∧
  (
  (∀ (s : State) (t : TileId) (e : EdgeId) (mods : List Bool), s.present t = true → s.dev.mode ≠ .cold → (s.partner t e).isSome = true →
    (s.edge t e).st = .down ∨ (s.edge t e).st = .training → s.domOn t (36 + e.val) = true → (∃ i < 6, mods.getD i false = true) →
    ∃ s' : State, exec (.linkTrained t e mods) s = .next s' ∧ (s'.edge t e).st = .active ∧
      (∀ i < 6, ((s'.edge t e).module i).active = mods.getD i false) ∧ (∀ u, u ≠ t → s'.tile u = s.tile u) ∧
      s' = { s with tiles := s'.tiles, out := s'.out }) ∧
  (∀ (s : State) (t : TileId) (e : EdgeId), s.present t = true → s.dev.mode ≠ .cold → (s.edge t e).trained = true →
    ∃ s' : State, exec (.linkDown t e) s = .next s' ∧ (s'.edge t e).st = .down ∧ (∀ f, f ≠ e → s'.edge t f = s.edge t f) ∧
      (∀ u, u ≠ t → s'.tile u = s.tile u) ∧ s' = { s with tiles := s'.tiles }) ∧
  (∀ (s : State) (t : TileId) (e : EdgeId) (msg : List Byte), s.present t = true → s.dev.mode ≠ .cold → (s.partner t e).isSome = true →
    (s.edge t e).st ≠ .active → msg.length ≤ 64 →
    (s.msgOk msg = true → byteAt msg 1 = 3 → msg.length = field msg 2 2 → exec (.sidebandCtl t e msg) s = .next (s.takeMsg t e msg)) ∧
    (s.msgOk msg = false → byteAt msg 0 = 0 → (s.tile t).evidence = none →
      ∃ (s' : State) (r : ErrRec), exec (.sidebandCtl t e msg) s = .next s' ∧ (s'.edge t e).drop = min 0xFFFFFFFF ((s.edge t e).drop + 1) ∧
        (s'.tile t).err.ring.getLast? = some r ∧ r.event = evLinkError ∧ r.index = e.val ∧ s' = { s with tiles := s'.tiles, out := s'.out })) ∧
  (∀ s : State, s.dev.mode ≠ .cold → s.dev.mode ≠ .halt → s.dev.mode ≠ .test → s.routesBroken = true →
    (∀ t, s.live t = true → t.val ∈ s.reached s.masterTile.val) →
    ∃ s' : State, exec .routeUpdate s = .next s' ∧ (∀ t, s.present t = true → (s'.tile t).routeNext = s.updownTable s.masterTile.val t.val) ∧
      routeChange ∈ s'.dev.waiting ∧ (∀ t, (s'.tile t).route = (s.tile t).route) ∧
      s' = { s with tiles := s'.tiles, dev := { s.dev with waiting := s'.dev.waiting } }) ∧
  (∀ (s : State) (root a : Nat), a < 8 → ((s.updownTable root a).getD a {}).local_ = true ∧ (s.updownTable root a).length = 8)) ∧
  (
  (∀ (s : State) (t : TileId) (e : EdgeId), (s.edge t e).up = true →
    ((s.edge t e).held = [] → (∀ i < 6, ((s.edge t e).module i).replay = []) →
      exec (.sleepReq t e) s = .next ((s.sendPwr t e 0x41).onEdge t e fun x => { x with st := .l1 })) ∧
    ((s.edge t e).held ≠ [] → exec (.sleepReq t e) s = .next (s.sendPwr t e 0x42))) ∧
  (∀ (s : State) (t : TileId) (e : EdgeId), (s.edge t e).sleeping = true →
    (∃ s' : State, exec (.sleepAck t e) s = .next s' ∧ (s'.edge t e).sleeping = false ∧ (s'.edge t e).st = .l1 ∧
      (s'.dom t (domN (36 + e.val))).st = .ret ∧ (s'.dom t (domN (36 + e.val))).entered = true ∧ s' = { s with tiles := s'.tiles }) ∧
    (∃ s' : State, exec (.sleepNak t e) s = .next s' ∧ exec (.sleepTimeout t e) s = .next s' ∧ (s'.edge t e).sleeping = false ∧
      (s'.dom t (domN (36 + e.val))).lastReason = 0x01 ∧ (s'.dom t (domN (36 + e.val))).refuser = 0x60 + e.val ∧
      (s'.dom t (domN (36 + e.val))).st = (s.dom t (domN (36 + e.val))).st ∧ s' = { s with tiles := s'.tiles })) ∧
  (∀ (s : State) (t u : TileId) (e f : EdgeId), (s.edge t e).st = .l1 →
    (s.domOn t (36 + e.val) = false → exec (.leaveL1 t e) s = .next (s.castVote t (domN (36 + e.val)) 3 2)) ∧
    (s.domOn t (36 + e.val) = true → s.far t e = some (u, f) → (s.edge u f).st = .l1 →
      (s.domOn u (36 + f.val) = false → exec (.leaveL1 t e) s = .next (s.castVote u (domN (36 + f.val)) 3 2)) ∧
      (s.domOn u (36 + f.val) = true → (s.edge t e).held = [] → (s.edge u f).held = [] →
        (∀ i < 6, ((s.edge t e).module i).training = false ∧ ((s.edge u f).module i).training = false) →
        ∃ s' : State, exec (.leaveL1 t e) s = .next s' ∧ s'.edge t e = { s.edge t e with st := .active } ∧
          s'.edge u f = { s.edge u f with st := .active } ∧ (∀ v g, (v, g) ≠ (t, e) → (v, g) ≠ (u, f) → s'.edge v g = s.edge v g) ∧
          s' = { s with tiles := s'.tiles }))))

/-- O42. An entry that a check refuses is counted with its reason and agent; one that passes ends in RET, or in OFF where the votes allow it,
and tells its edge first where it is a link's; an entry that does not quiesce in time is aborted; a target that comes back makes the domain
wake again (R372 to R375). -/
def Obligations.EntriesEndOrAreRefused : Prop :=
  (∀ (s : State) (t : TileId) (d : DomId) (busy : Option (Fin 64)), s.present t = true → s.dev.mode ≠ .cold → (s.dom t d).entryDue = true →
      (∀ r a, s.entryRefusal t d busy = some (r, a) →
        let refused := s.onDom t d fun y =>
          { y with phase := .stable, refused := min 0xFFFFFFFF (y.refused + 1), lastReason := r, refuser := a }
        exec (.domainEntry t d busy) s = .next refused ∧ exec (.entryRecheck t d busy) s = .next refused) ∧
      (s.entryRefusal t d busy = none → domEdge d = none → (s.dom t d).target = .off →
        ∃ s' : State, exec (.domainEntry t d busy) s = .next s' ∧ exec (.entryRecheck t d busy) s = .next s' ∧
          (s'.dom t d).st = .off ∧ (s'.dom t d).entered = true ∧ (s'.dom t d).pending = []) ∧
      (s.entryRefusal t d busy = none → domEdge d = none → (s.dom t d).target ≠ .off →
        ∃ s' : State, exec (.domainEntry t d busy) s = .next s' ∧ exec (.entryRecheck t d busy) s = .next s' ∧
          (s'.dom t d).st = .ret ∧ (s'.dom t d).entered = true ∧ (s'.dom t d).pending = (s.dom t d).pending ∧
          (∀ u, u ≠ t → s'.tile u = s.tile u) ∧ (∀ e, e ≠ d → (s'.dom t e).st = (s.dom t e).st) ∧ s' = { s with tiles := s'.tiles })) ∧
  (∀ (s : State) (t : TileId) (d : DomId) (a0 : Fin 64), (s.tile t).agentBusy d.val = none →
    (s.entryRefusal t d (some a0) = some (0x01, 0x40 + a0.val)) ∧
    (∀ c, (s.tile t).childUp d.val = some c → s.entryRefusal t d none = some (0x02, c)) ∧
    ((s.tile t).childUp d.val = none → (s.dom t d).dbgHold = true → s.entryRefusal t d none = some (0x03, 0x80)) ∧
    ((s.tile t).childUp d.val = none → (s.dom t d).dbgHold = false → s.domPosted t d.val = true → s.entryRefusal t d none = some (0x04, 0xC0))) ∧
  (∀ (s : State) (t : TileId) (d : DomId) (agent : Fin 64), s.present t = true → s.dev.mode ≠ .cold → (s.dom t d).st = .on →
    (s.dom t d).entryDue = true → (∀ p ∈ (s.tile t).portHeld, p.1 ≠ d.val) →
    exec (.quiesceTimeout t d agent) s = .next (s.onDom t d fun y =>
      { y with phase := .stable, aborted := min 0xFFFFFFFF (y.aborted + 1), lastReason := 0x01, refuser := 0x40 + agent.val })) ∧
  (∀ (s : State) (t : TileId) (d : DomId), s.present t = true → s.dev.mode ≠ .cold → (s.dom t d).entered = true → (s.dom t d).st ≠ .on →
    (s.dom t d).target = .on → (s.dom t d).wakeFail = false →
    exec (.lateWake t d) s = .next (s.onDom t d fun y =>
      { y with phase := .waking, lateWakes := min 0xFFFFFFFF (y.lateWakes + 1), entered := false }))

/-- O43. The lowest domain that waits gets a ramp slot while one is free, never in HALT; a domain whose wake ends is ON, counted, and a
retention loss that it finds is logged; a wake that fails goes back to OFF and is tried again, three times at most; the votes that end by
themselves are withdrawn (R368, R370, R376, R377, R379, R381, R415). -/
def Obligations.WakesEndOrAreRetried : Prop :=
  (∀ (s : State) (t : TileId) (d : DomId), s.present t = true → s.dev.mode ≠ .cold → s.dev.mode ≠ .halt → s.wantsRamp t d = true →
    (∀ c, c < d → s.wantsRamp t c = false) → ((s.tile t).doms.toList.filter (·.ramping)).length < max 1 (min 4 (s.tile t).maxRamps) →
    ∃ s' : State, exec (.rampSlot t d) s = .next s' ∧ (s'.dom t d).phase = .waking ∧ (s'.dom t d).ramping = true ∧
      (∀ e, e ≠ d → (s'.dom t e).ramping = (s.dom t e).ramping ∧ (s'.dom t e).phase = (s.dom t e).phase) ∧
      (∀ e, (s'.dom t e).st = (s.dom t e).st) ∧ (∀ u, u ≠ t → s'.tile u = s.tile u) ∧ s' = { s with tiles := s'.tiles }) ∧
  (∀ (s : State) (t : TileId) (d : DomId), s.dev.mode = .halt → exec (.rampSlot t d) s = .next s) ∧
  (∀ (s : State) (t : TileId) (d : DomId) (parity : Bool) (banks : List Nat), s.present t = true → s.dev.mode ≠ .cold →
    (s.dom t d).phase = .waking → (s.dom t d).ramping = true → (s.tile t).parentsOn d.val = true → domEdge d = none → (s.dom t d).pending = [] →
    (∀ p ∈ (s.tile t).portHeld, p.1 ≠ d.val) → (s.dom t d).sigTaken = false →
    ∃ s' : State, exec (.domainWake t d parity banks) s = .next s' ∧ (s'.dom t d).st = .on ∧ (s'.dom t d).phase = .stable ∧
      (s'.dom t d).ramping = false ∧ (s'.dom t d).wakes = min 0xFFFFFFFF ((s.dom t d).wakes + 1) ∧ (s'.dom t d).tries = 0 ∧
      (∀ e, e ≠ d → (s'.dom t e).st = (s.dom t e).st) ∧ (∀ u, u ≠ t → sameTile s s' u) ∧ s' = { s with tiles := s'.tiles, out := s'.out } ∧
      ((s.dom t d).st = .ret → parity = true → (s'.dom t d).retLost = true ∧ (s'.dom t d).lostCnt = min 0xFFFF ((s.dom t d).lostCnt + 1) ∧
        ((s.tile t).evidence = none → ∃ r, (s'.tile t).err.ring.getLast? = some r ∧ r.event = evRetentionLost ∧
          r.data = [BitVec.ofNat 8 d.val, 1, 0]))) ∧
  (∀ (s : State) (t : TileId) (d : DomId) (step : Fin 8), s.present t = true → s.dev.mode ≠ .cold → (s.dom t d).phase = .waking →
    (s.dom t d).ramping = true → step.val = 2 ∨ step.val = 4 ∨ step.val = 6 →
    ((s.dom t d).tries < 2 → ∃ s' : State, exec (.wakeStepTimeout t d step) s = .next s' ∧ (s'.dom t d).st = .off ∧ (s'.dom t d).phase = .retryWait ∧
      (s'.dom t d).ramping = false ∧ (s'.dom t d).tries = (s.dom t d).tries + 1 ∧ (s'.dom t d).failStep = step.val ∧
      ((s.dom t d).st ≠ .ret ∨ d.val < 20 ∨ 28 ≤ d.val → s'.cmds = s.cmds) ∧ s'.queues = s.queues) ∧
    (2 ≤ (s.dom t d).tries → ∃ s' : State, exec (.wakeStepTimeout t d step) s = .next s' ∧ (s'.dom t d).wakeFail = true)) ∧
  (∀ (s : State) (t : TileId) (d : DomId), s.present t = true → s.dev.mode ≠ .cold → (s.dom t d).phase = .retryWait →
    ∃ s' : State, exec (.wakeRetry t d) s = .next s' ∧ (s'.dom t d).phase = .waking ∧ (s'.dom t d).st = (s.dom t d).st ∧
      (s'.dom t d).retries = min 0xFFFFFFFF ((s.dom t d).retries + 1) ∧ (∀ u, u ≠ t → s'.tile u = s.tile u) ∧ s' = { s with tiles := s'.tiles }) ∧
  (∀ (s : State) (t : TileId) (d : DomId),
    (s.fabricHas t d = true → exec (.fabricVoteWithdraw t d) s = .next s) ∧
    (s.fabricHas t d = false → exec (.fabricVoteWithdraw t d) s = .next (s.castVote t d 3 0))) ∧
  (∀ (s : State) (t : TileId) (k : Fin 4), ((s.tile t).large[k]).call = none → ((s.tile t).large[k]).queue = [] →
    ((s.tile t).large[k]).idleAt + 1000 * s.feat.slIdle ≤ s.now →
    exec (.slIdleExpiry t k) s = .next (s.castVote t (domN (16 + k.val)) 1 (if s.dev.mode = .activate then 1 else 0)))

/-- O44. A sample set gives every sensor its reading, TJ_MAX the hottest valid one, and the throttle clock where a sensor is at THR_HI; a second
sample at 115 °C trips THERMTRIP_N and opens every head switch; a step lowers the throttle clock by 0.1 GHz, never below 0.6 GHz; an
averaging window that has ended gives its mean and ends the throttle only when every valid sample was below THR_LO (R383 to R387). -/
def Obligations.ThermalSamplesThrottleAndTrip : Prop :=
  (∀ (l : List Reading) (i : Nat) (v : Int), hottest l = some (i, v) →
    (∃ r, l[i]? = some r ∧ r.valid = true ∧ r.value = v) ∧ ∀ r ∈ l, r.valid = true → r.value ≤ v) ∧
  (∀ (s : State) (t : TileId) (temps : List Int), s.present t = true → s.dev.mode ≠ .cold →
    let m := (s.tile t).mon
    let rs := m.temps.zipIdx.map fun r => r.1.take ((s.tile t).sensorOn r.2) temps[r.2]?
    (m.trips rs = false → ∃ s' : State, exec (.thermalSample t temps) s = .next s' ∧ (s'.tile t).mon.temps = rs ∧
      (∀ i v, hottest rs = some (i, v) → (s'.tile t).mon.tjMax = v ∧ (s'.tile t).mon.tjSensor = i) ∧
      (m.thrEn = true → (∃ r ∈ rs, r.valid = true ∧ min m.thrHi 880 ≤ r.value) →
        (s'.tile t).mon.throttle = true ∧ (s'.tile t).mon.clock ≤ max 6 (min 22 m.thrFreq)) ∧
      (∀ u, u ≠ t → s'.tile u = s.tile u) ∧ s' = { s with tiles := s'.tiles }) ∧
    (m.trips rs = true → s.dev.mode ≠ .test → s.dev.mode ≠ .halt → ∃ s' : State, exec (.thermalSample t temps) s = .next s' ∧
      s'.dev.mode = .halt ∧ s'.dev.haltCause = 0x04 ∧ s'.dev.haltTile = t.val ∧ s'.pins.thermtripN = false ∧
      (∀ u d, s.present u = true → (s'.dom u d).st = .off) ∧ s'.mem = s.mem)) ∧
  (∀ (s : State) (t : TileId), s.present t = true → s.dev.mode ≠ .cold → (s.tile t).mon.throttle = true → (s.tile t).mon.anyAt (s.tile t).mon.hi = true →
    exec (.throttleStep t) s = .next (s.onTile t fun x => { x with mon := { x.mon with clock := max 6 (x.mon.clock - 1) } })) ∧
  (∀ (s : State) (t : TileId), (s.tile t).mon.throttle = false ∨ (s.tile t).mon.anyAt (s.tile t).mon.hi = false →
    exec (.throttleStep t) s = .next s) ∧
  (∀ (s : State) (t : TileId), s.present t = true → s.dev.mode ≠ .cold →
    let m := (s.tile t).mon
    (m.winAt = s.now / m.avgNs → exec (.monitorAverageWindowEnd t) s = .next s) ∧
    (m.winAt ≠ s.now / m.avgNs → 0 < m.winCnt →
      ∃ s' : State, exec (.monitorAverageWindowEnd t) s = .next s' ∧ (s'.tile t).mon.winCnt = 0 ∧ (s'.tile t).mon.winSum = 0 ∧
        (s'.tile t).mon.avgTj = m.mean ∧ (s'.tile t).mon.winAt = s.now / m.avgNs ∧ (s'.tile t).mon.temps = m.temps ∧
        (m.throttle = true → m.winCool = true → (s'.tile t).mon.throttle = false ∧ (s'.tile t).mon.clock = 0) ∧
        (m.winCool = false → (s'.tile t).mon.throttle = m.throttle ∧ (s'.tile t).mon.clock = m.clock) ∧
        (∀ u, u ≠ t → s'.tile u = s.tile u) ∧ s' = { s with tiles := s'.tiles }))

/-- O45. Supply and process readings are kept, valid while MON_EXT is ON; HBM, droop and regulator readings are kept where they are read; an
alert reads the status of every rail. A Nightwatch period counts, an entry trips when its condition has held for PERSIST periods, and a
tripped EXIT entry requires READY once (R383, R386, R389, R390, R513, R519). -/
def Obligations.MonitorReadingsAndNightwatch : Prop :=
  (∀ (s : State) (t : TileId) (l : List Nat), s.present t = true → s.dev.mode ≠ .cold →
    let kept (old : List Reading) : List Reading := old.zipIdx.map fun r =>
      match (l[r.2]? : Option Nat) with
      | some n => if s.domOn t 55 then { value := toSigned 16 (ofSigned 16 (Int.ofNat n)), valid := true } else { r.1 with valid := false }
      | none => { r.1 with valid := false }
    exec (.supplySample t l) s = .next (s.onTile t fun x => { x with mon := { x.mon with supply := kept x.mon.supply } }) ∧
    exec (.processMonitorSample t l) s = .next (s.onTile t fun x => { x with mon := { x.mon with proc := kept x.mon.proc } })) ∧
  (∀ (s : State) (t : TileId) (v : Int), s.present t = true → s.dev.mode ≠ .cold → s.domOn t 40 = true →
    exec (.hbmTemperatureRead t v) s = .next (s.onTile t fun x => { x with mon := { x.mon with hbm := v } })) ∧
  (∀ (s : State) (t : TileId) (i : Fin 32), s.present t = true → s.dev.mode ≠ .cold → (s.tile t).mon.droopEn = true → s.domOn t (i.val / 2) = true →
    exec (.droop t i) s = .next (s.onTile t fun x => { x with mon := { x.mon with
      droops := x.mon.droops.set i.val (min 0xFFFFFFFF (x.mon.droops.getD i.val 0 + 1)), stretched := x.mon.stretched.set i.val true } })) ∧
  (∀ (s : State) (t : TileId) (i : Fin 32),
    exec (.droopRelease t i) s = .next (s.onTile t fun x => { x with mon := { x.mon with stretched := x.mon.stretched.set i.val false } })) ∧
  (∀ (s : State) (status : List Nat), s.present 0 = true → s.dev.mode ≠ .cold →
    ∃ s' : State, exec (.pmbAlert status) s = .next s' ∧ s'.out = s.out ++ s.railsOf.map Out.pmbusStatus ∧
      (∀ (i r w : Nat), s.railsOf[i]? = some r → status[i]? = some w → (tblGet s'.rails r {}).status = w % 65536) ∧
      (∀ r, r ∉ s.railsOf → tblGet s'.rails r {} = tblGet s.rails r {}) ∧ s' = { s with rails := s'.rails, out := s'.out }) ∧
  (∀ (s : State) (rail mv ma : Nat), s.present 0 = true → s.dev.mode ≠ .cold → rail ∈ s.railsOf →
    ∃ s' : State, exec (.pmbusReading rail mv ma) s = .next s' ∧
      tblGet s'.rails rail {} = { tblGet s.rails rail {} with mv := mv, ma := ma } ∧
      (∀ r, r ≠ rail → tblGet s'.rails r {} = tblGet s.rails r {}) ∧ s' = { s with rails := s'.rails }) ∧
  (∀ (s : State) (l : List NwSample), s.dev.mode = .nightwatch →
    ∃ s' : State, exec (.nightwatchPeriod l) s = .next s' ∧ s'.nw.periods = (s.nw.periods + 1) % 2 ^ 32 ∧
      (let seen := (l.filter fun x => s.live x.tile).map s.nwSeen
       let thr := s.nw.thr.map fun e => { e with
         held := if e.en && seen.any (fun x => x.tile.val == e.tile && e.met x) then min 15 (e.held + 1) else 0 }
       s'.nw.thr = thr ∧
       (s'.nw.alert = true ↔ s.nw.alert = true ∨ ∃ e ∈ thr, e.en = true ∧ max 1 e.persist ≤ e.held ∧ bit e.action 0 = true) ∧
       ((∀ e ∈ thr, e.en = true → max 1 e.persist ≤ e.held → bit e.action 1 = false) → s'.dev = s.dev) ∧
       ((∃ e ∈ thr, e.en = true ∧ max 1 e.persist ≤ e.held ∧ bit e.action 1 = true) → s.dev.change = none → nwExitChange ∉ s.dev.waiting →
         nwExitChange ∉ s.dev.retry → s'.dev = { s.dev with waiting := s.dev.waiting ++ [nwExitChange] })) ∧
      s'.mem = s.mem ∧ s'.segs = s.segs ∧ s'.cmds = s.cmds ∧ s'.queues = s.queues)

/-- O46. What reset leaves: the device is in COLD with no command, no queue enabled, no segment, no key, an empty memory, every tile's domains
OFF and its error and trace rings empty; the fields the spec gives a value have it (R36, R363, R392, R511, R521). After reset both memories
are in canonical form, and list nothing. -/
def Obligations.ResetLeavesTheDeviceInCold : Prop :=
  (
  State.reset.dev.mode = .cold ∧ State.reset.dev.fenced = 0 ∧ State.reset.dev.phase = .idle ∧ State.reset.pending = [] ∧ State.reset.cmds = [] ∧
  State.reset.queues = [] ∧ State.reset.segs = [] ∧ State.reset.keys = [] ∧ State.reset.mem = [] ∧ State.reset.queries = [] ∧
  (∀ q, (State.reset.queue q).enable = false ∧ (State.reset.queue q).headIx = 0 ∧ (State.reset.queue q).tailIx = 0) ∧
  ∀ t, (∀ d, (State.reset.dom t d).st = .off) ∧ (State.reset.tile t).err.ring = [] ∧ (State.reset.tile t).sched.trace = [] ∧
    (State.reset.tile t).mon.thrHi = 0x320 ∧ (State.reset.tile t).mon.thrLo = 0x2F8 ∧ (State.reset.tile t).mon.alertT = 0x348 ∧
    (State.reset.tile t).wgt = [0x10, 4, 1] ∧ (State.reset.tile t).maxRamps = 4) ∧
  (
  State.reset.memOk = true ∧ State.reset.mem = [] ∧ State.reset.durable = [])

/-- O47. PWROK low for 50 ns or more, and PKG_RESET_N low for as long with PWROK high, put every tile into COLD; a shorter pulse does nothing,
and with PWROK low PKG_RESET_N is only noted (R36, R162, R385, R521, R523). The rise of PKG_RESET_N after COLD leads to TEST with the strap
high; else to DAWN, which runs the first valid slot and requires TRAIN, or ends in HALT with cause 0x01 when tile 0 fails its self test or
no slot is valid; a high shorter than 1 us leaves COLD as it is. TRAIN_SEQUENCE runs once, takes the port roles of the configuration and the
DIMMs of the channels that trained (R17, R36, R49, R50, R54, R55, R137, R524). -/
def Obligations.ResetInputsAndBoot : Prop :=
  (
  (∀ (s : State) (ns : Nat), 50 ≤ ns →
    ∃ t : State, exec (.pwrokLow ns) s = .next t ∧ inCold s t ∧ t.pins.pwrok = false ∧ t.pins.thermtripN = true) ∧
  (∀ (s : State) (ns : Nat), ns < 50 → exec (.pwrokLow ns) s = .next s) ∧
  (∀ (s : State) (ns : Nat), 50 ≤ ns → s.pins.pwrok = true →
    ∃ t : State, exec (.pkgResetNLow ns) s = .next t ∧ inCold s t ∧ t.pins.pwrok = true ∧ t.pins.thermtripN = s.pins.thermtripN) ∧
  (∀ (s : State) (ns : Nat), 50 ≤ ns → s.pins.pwrok = false →
    exec (.pkgResetNLow ns) s = .next { s with pins := { s.pins with pkgResetN := false } }) ∧
  (∀ (s : State) (ns : Nat), ns < 50 → exec (.pkgResetNLow ns) s = .next s)) ∧
  (
  (∀ (s : State) (b : BootSeen), s.dev.mode = .cold → 1000 ≤ b.highNs → 1000 ≤ b.lowNs → b.test = true →
    ∃ t : State, exec (.pkgResetNRise b) s = .next t ∧ t.dev.mode = .test ∧ t.flash = s.flash ∧ t.mem = s.mem) ∧
  (∀ (s : State) (b : BootSeen), s.dev.mode = .cold → 1000 ≤ b.highNs → 1000 ≤ b.lowNs → b.test = false → b.selfTestFail = 0 → b.imageFail = 0 →
    ((∃ k ∈ [0, 1, 2], (s.flash.slot k).valid s.man.minSvn = true) →
      ∃ t : State, exec (.pkgResetNRise b) s = .next t ∧ t.dev.mode = .dawn ∧ trainChange ∈ t.dev.waiting ∧ t.dev.bootSlot ≤ 2 ∧
        (s.flash.slot t.dev.bootSlot).valid s.man.minSvn = true ∧ t.flash = s.flash ∧ t.mem = s.mem) ∧
    ((∀ k ∈ [0, 1, 2], (s.flash.slot k).valid s.man.minSvn = false) →
      ∃ t : State, exec (.pkgResetNRise b) s = .next t ∧ t.dev.mode = .halt ∧ t.dev.haltCause = 0x01)) ∧
  (∀ (s : State) (b : BootSeen), s.dev.mode = .cold → 1000 ≤ b.highNs → 1000 ≤ b.lowNs → b.test = false → bit b.selfTestFail.toNat 0 = true →
    ∃ t : State, exec (.pkgResetNRise b) s = .next t ∧ t.dev.mode = .halt ∧ t.dev.haltCause = 0x01) ∧
  (∀ (s : State) (b : BootSeen), s.dev.mode = .cold → 1000 ≤ b.highNs →
    ∃ t : State, exec (.pkgResetNRise b) s = .next t ∧ (t.dev.mode = .test ∨ t.dev.mode = .dawn ∨ t.dev.mode = .halt)) ∧
  (∀ (s : State) (b : BootSeen), s.dev.mode ≠ .cold ∨ b.highNs < 1000 → exec (.pkgResetNRise b) s = .next s) ∧
  (∀ (s : State) (l : List TileTrain), s.dev.mode = .train → s.dev.phase = .idle → s.dev.trained = false →
    ∃ t : State, exec (.trainSequence l) s = .next t ∧ t.dev.trained = true ∧ t.dev.hostRole = s.cfg.portRole &&& s.presentMask ∧
      ∀ u, t.live u = true → let v := l.getD u.val default
        (t.tile u).ddr0Gib = (if bit v.ddrFail.val 0 then 0 else v.dimm0Gib) ∧
        (t.tile u).ddr1Gib = (if bit v.ddrFail.val 1 then 0 else v.dimm1Gib)) ∧
  (∀ (s : State) (l : List TileTrain), s.dev.trained = true ∨ s.dev.mode ≠ .train → exec (.trainSequence l) s = .next s))

/-- O48. PERST_N low on a host-role port takes its link down and disables the port's queues; on a root port it is only noted. A host-role port
trains again with PERST_N high, and the vectors that waited for their mask are sent. A lockstep error of the master or an AON error halts
the device, with its cause, tile and evidence; of another tile it fences the tile (R62, R63, R327, R525). -/
def Obligations.PortsResetAndFatalErrorsStop : Prop :=
  (∀ (s : State) (t : TileId) (ns : Nat), ns < 50 ∨ s.present t = false → exec (.perstNLow t ns) s = .next s) ∧
  (∀ (s : State) (t : TileId) (ns : Nat), 50 ≤ ns → s.present t = true → s.hostRole t = false →
    exec (.perstNLow t ns) s = .next { s with pins := { s.pins with perstN := s.pins.perstN.set t.val false } }) ∧
  (∀ (s : State) (t : TileId) (ns : Nat), 50 ≤ ns → s.present t = true → s.hostRole t = true → s.dev.mode ≠ .activate → s.dev.mode ≠ .halt →
    ∃ s' : State, exec (.perstNLow t ns) s = .next s' ∧ (s'.tile t).linkUp = false ∧ (s'.tile t).msixMask = [] ∧
      (∀ q < 4096, (s.queue q).port = t.val → (s'.queue q).enable = false) ∧ s'.mem = s.mem ∧ s'.keys = s.keys) ∧
  (∀ (s : State) (t : TileId), s.present t = true →
    exec (.perstNRise t) s = .next { s with pins := { s.pins with perstN := s.pins.perstN.set t.val true } }) ∧
  (∀ (s : State) (t : TileId) (masked : List Nat), s.live t = true → s.hostRole t = true → s.pins.perstN.getD t.val false = true → s.dev.mode ≠ .cold →
    ∃ s' : State, exec (.hostLinkUp ⟨t, masked⟩) s = .next s' ∧ (s'.tile t).linkUp = true ∧ (s'.tile t).msixMask = masked ∧
      (∀ v, v ∈ (s'.tile t).msixPend ↔ v ∈ (s.tile t).msixPend ∧ v ∈ masked) ∧ (∀ u, u ≠ t → s'.tile u = s.tile u) ∧
      s' = { s with tiles := s'.tiles, out := s'.out, dev := { s.dev with waiting := s'.dev.waiting } }) ∧
  (∀ (s : State) (t : TileId), s.hostRole t = true → (s.tile t).linkUp = true →
    ∃ s' : State, exec (.hostLinkDown t) s = .next s' ∧ (s'.tile t).linkUp = false ∧ (∀ u, u ≠ t → s'.tile u = s.tile u) ∧
      s' = { s with tiles := s'.tiles }) ∧
  (∀ (s : State) (t : TileId), s.dev.mode ≠ .cold → s.dev.mode ≠ .test → s.dev.mode ≠ .halt → s.live t = true →
    (t = s.masterTile → ∃ s' : State, exec (.lockstep t) s = .next s' ∧ s'.dev.mode = .halt ∧ s'.dev.haltCause = 0x02 ∧ s'.dev.haltTile = t.val ∧
      (s'.tile t).evidence.isSome = true ∧ s'.mem = s.mem ∧ s'.segs = s.segs) ∧
    (t ≠ s.masterTile → ∃ s' : State, exec (.lockstep t) s = .next s' ∧ s'.live t = false)) ∧
  (∀ (s : State) (t : TileId), s.dev.mode ≠ .cold → s.dev.mode ≠ .test → s.dev.mode ≠ .halt → s.present t = true →
    ∃ s' : State, exec (.aonUncorrectable t) s = .next s' ∧ s'.dev.mode = .halt ∧ s'.dev.haltCause = 0x05 ∧ s'.dev.haltTile = t.val ∧
      (s'.tile t).evidence.isSome = true ∧ s'.mem = s.mem ∧ s'.segs = s.segs)

/-- O49. The endpoint answers each request it serves: a sensor with its reading, effecters with what they set, evidence and pins with their
bytes; a request with a bad operand is refused and changes nothing, and in HALT every command but the reads is answered NOT_READY (R528,
R529). A firmware update: REQUEST_UPDATE takes the slot that is not running, transfers write that slot alone, only a verified image is
activated, for the next package reset, and CANCEL or 120 s of silence end the mode (R52, R57, R530). -/
def Obligations.ManagementRequestsAndUpdates : Prop :=
  (
  (∀ (s : State) (b : MgmtBinding) (req : List Byte), s.serves b = true →
    ∃ t : State, exec (.mctpControl b req) s = .next t ∧ t = { s with eid := t.eid, out := t.out } ∧
      t.out = s.out ++ [.reply b .success (.bytes ((List.range (Config.mctpLen req)).map (Config.mctpReply req)))]) ∧
  (∀ (s : State) (b : MgmtBinding) (id : Nat), s.serves b = true →
    (∀ v, s.sensor id = some v → exec (.pldmSensorRead b id) s = .next { s with out := s.out ++ [.reply b .success (.reading v)] }) ∧
    (s.sensor id = none → exec (.pldmSensorRead b id) s = .next (replied s b .invalidData []))) ∧
  (∀ (s : State) (b : MgmtBinding), s.serves b = true → s.dev.mode = .halt →
    ∀ c ∈ [Instr.powerLimitEffecter b 300, Instr.modeEffecter b 6, Instr.setMgmtVote b 0 0 0, Instr.setGpio b 0 0 0, Instr.requestUpdate b,
        Instr.activateFirmware b false, Instr.cancelUpdate b],
      exec c s = .next (replied s b .notReady [])) ∧
  (∀ (s : State) (b : MgmtBinding) (off len : Nat), s.serves b = true →
    (1 ≤ len → len ≤ 1024 → off + len ≤ evidenceSize →
      exec (.readEvidence b off len) s = .next (replied s b .success ((List.range len).map fun i => s.evidenceByte (off + i)))) ∧
    (len = 0 ∨ 1024 < len ∨ evidenceSize < off + len → exec (.readEvidence b off len) s = .next (replied s b .invalidData []))) ∧
  (∀ (s : State) (b : MgmtBinding) (levels : Byte), s.serves b = true →
    exec (.getGpio b levels) s = .next (replied s b .success [levels, BitVec.ofNat 8 s.cfg.gpioOe, BitVec.ofNat 8 s.pins.boardId])) ∧
  (∀ (s : State) (b : MgmtBinding), s.serves b = true → s.dev.mode ≠ .halt →
    (∀ w, exec (.powerLimitEffecter b w) s = .next
      (if (limitRange s.man.part).1 ≤ w ∧ w ≤ (limitRange s.man.part).2 then
        replied { s with dev := { s.dev with limitW := w } } b .success [] else replied s b .invalidData [])) ∧
    (∀ m, exec (.modeEffecter b m) s = .next
      (if m < 16 then replied (s.modeRequest m) b .success [] else replied s b .invalidData [])) ∧
    (∀ (t : TileId) (d : DomId) (v : Nat), s.present t = true → v ≤ 2 → exec (.setMgmtVote b t.val d.val v) s = .next
      (replied (s.castVote t d 6 v) b .success [BitVec.ofNat 8 ((s.dom t d).votes.getD 6 0)])) ∧
    (∀ (mask value levels : Byte), ∃ s' : State, exec (.setGpio b mask value levels) s = .next s' ∧
      s'.out = s.out ++ [.reply b .success (.bytes [levels])] ∧
      (∀ i < 8, bit s'.pins.gpioOut i = if bit mask.toNat i && bit s.gpioOe i then bit value.toNat i else bit s.pins.gpioOut i) ∧
      s' = { s with pins := { s.pins with gpioOut := s'.pins.gpioOut }, out := s'.out }))) ∧
  (
  (∀ (s : State) (b : MgmtBinding), s.serves b = true → s.dev.mode ≠ .halt →
    (s.fwInFlight = true → exec (.requestUpdate b) s = .next { s with out := s.out ++ [.reply b .retryRequestUpdate (.bytes [])] }) ∧
    (s.fwInFlight = false → s.update.active = false → ∃ t : State, exec (.requestUpdate b) s = .next t ∧ t.update.active = true ∧
      t.update.slot < 2 ∧ (s.dev.bootSlot < 2 → t.update.slot ≠ s.dev.bootSlot) ∧ t.update.lastAt = s.now ∧
      t = { s with update := t.update, tick := s.tick + 1, out := s.out ++ [.reply b .success (.bytes [])] }) ∧
    (∀ off data last, s.update.active = true → s.update.slot < 2 → s.fencedT 0 = false → off + data.length ≤ 41943040 →
      ∃ t : State, exec (.firmwareComponentTransfer b off data last) s = .next t ∧ t.update.active = true ∧ t.update.slot = s.update.slot ∧
        t.update.written = true ∧
        (t.update.verified = true ↔ last = true ∧ (t.flash.slot s.update.slot).valid s.man.minSvn = true) ∧
        (t.flash.slot s.update.slot).bytes = memWriteBytes (if off = 0 then [] else (s.flash.slot s.update.slot).bytes) off data ∧
        t.flash.slot (1 - s.update.slot) = s.flash.slot (1 - s.update.slot) ∧ t.flash.config = s.flash.config ∧ t.dev = s.dev) ∧
    (s.update.active = true → s.update.verified = true → ∃ t : State, exec (.activateFirmware b false) s = .next t ∧ t.update = {} ∧
      t.cfg.bootSlot = s.update.slot ∧ (∃ r, t.flash.config = [r, r, r]) ∧ t.dev = s.dev ∧ t.flash.slotA = s.flash.slotA ∧ t.flash.slotB = s.flash.slotB) ∧
    (s.update.active = true → s.update.verified = false → ∃ t : State, exec (.activateFirmware b false) s = .next t ∧ t.cfg = s.cfg ∧ t.flash = s.flash) ∧
    (s.update.active = true → exec (.cancelUpdate b) s = .next { s with update := {}, out := s.out ++ [.reply b .success (.bytes [])] }) ∧
    (s.update.active = false → exec (.cancelUpdate b) s = .next { s with out := s.out ++ [.reply b .refused (.bytes [])] })) ∧
  (∀ s : State, s.update.active = true → s.update.lastAt + 120000000000 ≤ s.now → exec .updateModeTimeout s = .next { s with update := {} }) ∧
  (∀ s : State, s.update.active = false ∨ s.now < s.update.lastAt + 120000000000 → exec .updateModeTimeout s = .next s))

/-- O50. A mode request is required where the mode has that transition and nothing is under way, else rejected; the first waiting change starts
with the next epoch and PREPARE to every other live tile; a tile takes PREPARE, answers READY or REFUSE at its safe point with the reason of
the first check that fails, and applies at the pulse, by message or wire, what it has answered READY to (R36, R37, R40, R44, R47, R484). -/
def Obligations.ChangesStartAndAreAnswered : Prop :=
  (∀ (s : State) (m : Fin 16), s.dev.mode.devWritable = true →
    (reqTarget s.dev.mode m.val = none → exec (.devModeReqWrite m) s = .next { s with dev := { s.dev with rrej := true } }) ∧
    (s.dev.phase ≠ .idle ∨ s.dev.change ≠ none ∨ s.dev.activation ≠ none →
      exec (.devModeReqWrite m) s = .next { s with dev := { s.dev with rrej := true } }) ∧
    (∀ target drain, reqTarget s.dev.mode m.val = some (target, drain) → s.dev.phase = .idle → s.dev.change = none → s.dev.activation = none →
      s.dev.mode ≠ .dusk → exec (.devModeReqWrite m) s = .next { s with dev := { s.dev with
        drainTo := drain, waiting := s.dev.waiting ++ [{ code := 1, arg := target, origin := .modeReq }] } })) ∧
  (∀ (s : State) (c : Change) (rest : List Change), s.dev.waiting = c :: rest → s.dev.phase = .idle → s.dev.change = none → s.dev.mode ≠ .cold →
    s.dev.mode ≠ .halt → s.dev.mode ≠ .test → s.stale c = false →
    let ep := (s.dev.epoch + 1) % 65536
    ∃ t : State, exec .cinchChangeStart s = .next t ∧ t.dev.phase = .prepare ∧ t.dev.change = some c ∧ t.dev.epoch = ep ∧ t.dev.waiting = rest ∧
      t.dev.ready = 0 ∧ t.dev.mode = s.dev.mode ∧ t.dev.target = s.targetOf c ∧ t.dev.applied = s.dev.fenced &&& s.presentMask ∧
      (t.tile s.masterTile).prepared = some (c.code, c.arg, ep) ∧
      t.out = s.out ++ (s.liveTiles.filter fun u => decide (u ≠ s.masterTile)).map
        (fun u => .cinch s.masterTile.val u.val 0x01 c.code c.arg 0 ep 0) ∧
      (∀ u, u ≠ s.masterTile → t.tile u = s.tile u) ∧ t = { s with dev := t.dev, tiles := t.tiles, out := t.out }) ∧
  (∀ (s : State) (t : TileId) (change arg epoch : Nat), s.cinchable t = true →
    ∃ s' : State, exec (.cinchPrepare t change arg epoch) s = .next s' ∧
      (s'.tile t).prepared = some (change % 256, arg % 256, epoch % 65536) ∧ (s'.tile t).answered = false ∧
      (∀ u, u ≠ t → s'.tile u = s.tile u) ∧ s' = { s with tiles := s'.tiles }) ∧
  (∀ (s : State) (t : TileId) (seen : SafeSeen) (p : Nat × Nat × Nat), (s.tile t).prepared = some p → (s.tile t).answered = false →
    s.cinchable t = true → t ≠ s.masterTile →
    (s.refusal t p seen = none → ∃ s' : State, exec (.cinchSafePoint t seen) s = .next s' ∧ (s'.tile t).answered = true ∧
      (s'.tile t).prepared = some p ∧ (s'.tile t).lastEpoch = p.2.2 ∧ ((s'.tile t).heldGroup = if p.1 = 2 then some p.2.1 else none) ∧
      s'.out = s.out ++ [toMaster s t 0x02 p.1 p.2.1 0 p.2.2 0] ∧ s' = { s with tiles := s'.tiles, out := s'.out }) ∧
    (∀ r, s.refusal t p seen = some r → ∃ s' : State, exec (.cinchSafePoint t seen) s = .next s' ∧ (s'.tile t).lastEpoch = p.2.2 ∧
      s'.out = s.out ++ [toMaster s t 0x03 p.1 p.2.1 r p.2.2 0] ∧ s' = { s with tiles := s'.tiles, out := s'.out })) ∧
  (∀ (s : State) (t : TileId) (p : Nat × Nat × Nat) (ns : Nat), (s.tile t).prepared = some p → (s.tile t).answered = true → s.cinchable t = true →
    t ≠ s.masterTile → 100 ≤ ns → ns ≤ 1000 →
    (∃ s' : State, exec (.cinchPulse t p.2.2) s = .next s' ∧ appliedOn s s' t p ∧ s' = { s with tiles := s'.tiles, out := s'.out }) ∧
    (∃ s' : State, exec (.cinchWirePulse t ns) s = .next s' ∧ appliedOn s s' t p ∧
      s' = { s with tiles := s'.tiles, out := s'.out, tick := s.tick + 1 })) ∧
  (∀ (s : State) (t : TileId) (ns : Nat), s.cinchable t = true → (s.tile t).prepared = none → 100 ≤ ns → ns ≤ 1000 →
    exec (.cinchWirePulse t ns) s = .next ({ s with tick := s.tick + 1 }.onTile t fun x => { x with spurious := min 255 (x.spurious + 1) }))

/-- O51. The master counts READY, and the last one starts COMMIT with a pulse; a REFUSE rolls the change back everywhere; a tile told of it
drops what it has prepared; COMMIT applies what is prepared, or is answered again; reports count against the master's own count after the
same update, and the last one ends the change; COMMIT is sent again three times at most, and a tile that stays silent is fenced; a change
that rolled back waits again. The master keeps each message in its history (R40 to R43, R46, R63). A PREPARE that a tile does not answer in
10 ms rolls back with TIMEOUT; a master that stays silent is fenced, and after the pulse the next one has applied the change; HALT, by
message or by a low of more than 2 µs, halts the device whatever runs and freezes the tile's evidence, which tile 0 copies; a HALT no
message explains is FATAL_FABRIC; the drained DUSK goes on, and restarted firmware asks for service (R36, R41, R43, R45, R58, R62, R63,
R484). -/
def Obligations.ChangesEndOrRollBack : Prop :=
  (
  (∀ (s : State) (t : TileId) (ch : Change), s.dev.change = some ch → s.dev.phase = .prepare → s.live t = true →
    let s0 := s.noteMaster 0x02 s.dev.epoch
    let s1 : State := { s0.onTile t fun x => { x with timeouts := 0 } with dev := { s.dev with ready := setBit s.dev.ready t.val } }
    (s1.allReady = false → exec (.cinchReady t s.dev.epoch) s = .next s1) ∧
    (s1.allReady = true → ∃ s' : State, exec (.cinchReady t s.dev.epoch) s = .next s' ∧ s'.dev.phase = .commit ∧ s'.dev.was = s.dev.mode ∧
      s'.dev.target = s.targetOf ch ∧
      s'.out = s.out ++ .wire s.masterTile.val 200 :: (s.liveTiles.filter fun u => decide (u ≠ s.masterTile)).map
        (fun u => .cinch s.masterTile.val u.val 0x04 ch.code ch.arg 0 s.dev.epoch 0)) ∧
    (∀ r, ch.origin = .device → ∃ s' : State, exec (.cinchRefuse t s.dev.epoch r) s = .next s' ∧ s'.dev.phase = .idle ∧ s'.dev.change = none ∧
      s'.dev.refReason = r ∧ s'.dev.refTile = t.val ∧ s'.dev.refEpoch = s.dev.epoch ∧ s'.dev.mode = s.dev.mode ∧
      s'.dev.retry = s.dev.retry ++ [ch] ∧ (s'.tile s.masterTile).prepared = none ∧
      s'.out = s.out ++ (s.liveTiles.filter fun u => decide (u ≠ s.masterTile)).map
        (fun u => .cinch s.masterTile.val u.val 0x06 ch.code ch.arg r s.dev.epoch 0))) ∧
  (∀ (s : State) (t : TileId) (epoch : Nat), ∃ s' : State, exec (.cinchAbort t epoch) s = .next s' ∧
      (∀ p, (s.tile t).prepared = some p → p.2.2 = epoch → (s'.tile t).prepared = none ∧ (s'.tile t).heldGroup = none) ∧
      (∀ u, u ≠ t → s'.tile u = s.tile u) ∧ s' = { s with tiles := s'.tiles }) ∧
  (∀ (s : State) (t : TileId), s.cinchable t = true → t ≠ s.masterTile →
    (∀ p, (s.tile t).prepared = some p → ∃ s' : State, exec (.cinchCommit t p.2.2) s = .next s' ∧ appliedOn s s' t p ∧
      s' = { s with tiles := s'.tiles, out := s'.out }) ∧
    (∀ code epoch, (s.tile t).prepared = none → (s.tile t).taken = some (code, epoch) →
      exec (.cinchCommit t epoch) s = .next { s with out := s.out ++ [toMaster s t 0x05 code 0 0 epoch (s.tile t).strobeSeq] })) ∧
  (∀ (s : State) (t : TileId) (ch : Change) (seq : Nat), s.dev.phase = .commit ∨ s.dev.phase = .resend → s.dev.change = some ch → s.live t = true →
    let m := s.tile s.masterTile
    let s0 := s.noteMaster 0x05 s.dev.epoch
    let told := (t.val, seq) :: s.dev.reports.filter fun r => decide (r.1 ≠ t.val)
    let applied := (told.filter fun r => r.2 == m.strobeSeq && s.live (tid r.1)).foldl (fun b r => setBit b r.1) s.dev.applied
    ((∀ k, m.taken = some k → k.2 ≠ s.dev.epoch) →
      exec (.cinchApplied t s.dev.epoch seq) s = .next { s0 with dev := { s.dev with reports := told } }) ∧
    (∀ code, m.taken = some (code, s.dev.epoch) →
      (applied ≠ s.presentMask →
        exec (.cinchApplied t s.dev.epoch seq) s = .next { s0 with dev := { s.dev with reports := told, applied := applied } }) ∧
      (applied = s.presentMask → ch.origin = .modeReq → s.dev.activation = none →
        ∃ s' : State, exec (.cinchApplied t s.dev.epoch seq) s = .next s' ∧ s'.dev.phase = .idle ∧ s'.dev.change = none ∧
          s'.dev.mode = s.dev.mode ∧ s' = { s0 with dev := s'.dev })) ∧
    (∀ e, e ≠ s.dev.epoch → exec (.cinchApplied t e seq) s = .next (s.noteMaster 0x05 e))) ∧
  (∀ (s : State) (ch : Change), s.dev.phase = .commit ∨ s.dev.phase = .resend → s.dev.change = some ch → s.dev.resends < 3 →
    ∃ s' : State, exec .cinchCommitResend s = .next s' ∧ s'.dev = { s.dev with phase := .resend, resends := s.dev.resends + 1 } ∧
      s'.out = s.out ++ ((s.liveTiles.filter fun u => decide (u ≠ s.masterTile) && !bit s.dev.applied u.val).map
        fun u => .cinch s.masterTile.val u.val 0x07 ch.code ch.arg 0 s.dev.epoch 0) ∧
      (∀ u, u ≠ s.masterTile → s'.tile u = s.tile u) ∧ s' = { s with dev := s'.dev, tiles := s'.tiles, out := s'.out }) ∧
  (∀ (s : State) (t : TileId), s.dev.phase = .commit ∨ s.dev.phase = .resend → s.dev.resends = 3 → s.live t = true → bit s.dev.applied t.val = false →
    ∃ s' : State, exec (.cinchApplyTimeout t) s = .next s' ∧ s'.live t = false) ∧
  (∀ (s : State) (c : Change) (rest : List Change), s.dev.retry = c :: rest →
    exec .cinchRetry s = .next { s with dev := { s.dev with retry := rest, waiting := s.dev.waiting ++ [c] } })) ∧
  (
  (∀ (s : State) (t : TileId) (ch : Change), s.dev.change = some ch → s.dev.phase = .prepare → s.live t = true → bit s.dev.ready t.val = false →
    ch.origin = .device → (∀ u, s.live u = true → (s.tile u).timeouts < 2) →
    ∃ s' : State, exec (.cinchPrepareTimeout t) s = .next s' ∧ s'.dev.phase = .idle ∧ s'.dev.change = none ∧ s'.dev.refReason = 0x10 ∧
      s'.dev.refTile = t.val ∧ (s'.tile t).timeouts = (s.tile t).timeouts + 1 ∧ s'.dev.retry = s.dev.retry ++ [ch] ∧ s'.dev.fenced = s.dev.fenced) ∧
  (∀ (s : State) (t : TileId) (ch : Change), s.dev.change = some ch → s.ownsChange t = true → t ≠ s.masterTile → s.live t = true →
    (s.dev.phase = .prepare →
      ∃ s' : State, exec (.masterLost t) s = .next s' ∧ s'.live s.masterTile = false ∧ (s'.tile t).prepared = none) ∧
    (s.dev.phase = .commit ∨ s.dev.phase = .resend →
      ∃ s' : State, exec (.masterLost t) s = .next s' ∧ s'.live s.masterTile = false ∧
        (s'.dev.mode ≠ .halt → ∀ p, (s'.tile s'.masterTile).prepared = some p → p.2.2 ≠ s.dev.epoch))) ∧
  (∀ (s : State) (t src : TileId) (cause : Nat), s.present t = true → s.dev.mode ≠ .cold → s.dev.mode ≠ .test → cause < 256 →
    (∃ s' : State, exec (.cinchHalt t src cause) s = .next s' ∧ s'.dev.mode = .halt ∧ (s'.tile t).evidence.isSome = true ∧
      (s.dev.mode ≠ .halt → s'.dev.haltCause = cause ∧ s'.dev.haltTile = src.val ∧ s'.dev.change = none ∧ s'.dev.phase = .idle) ∧
      (s.dev.mode = .halt → t = s.masterTile → s.dev.haltMsg = false →
        s'.dev.haltCause = cause ∧ s'.dev.haltTile = src.val ∧ s'.dev.haltMsg = true) ∧
      s'.mem = s.mem ∧ s'.segs = s.segs ∧ s'.cmds = s.cmds) ∧
    (∀ ns, 2000 < ns → ∃ s' : State, exec (.cinchWireHalt t ns) s = .next s' ∧ s'.dev.mode = .halt ∧ (s'.tile t).evidence.isSome = true ∧
      s'.mem = s.mem ∧ s'.segs = s.segs ∧ s'.cmds = s.cmds)) ∧
  (∀ (s : State) (t : TileId) (ns : Nat), ns ≤ 2000 → exec (.cinchWireHalt t ns) s = .next s) ∧
  (∀ s : State, s.dev.mode = .halt → s.dev.haltMsg = false →
    exec .haltMessageTimeout s = .next { s with dev := { s.dev with haltCause := 0x06, haltTile := s.masterTile.val, haltMsg := true } }) ∧
  (∀ (s : State) (reach : Byte), s.dev.mode = .halt → s.tile0Dead = false →
    ∃ ev, ev = (s.presentTiles.filter fun t => bit reach.toNat t.val).flatMap (fun t => ((s.tile t).evidence).getD []) ∧
      exec (.evidenceCopy reach) s = .next { s with
        flash := { s.flash with evidence := ev }, dev := { s.dev with evCopied := true }, out := s.out ++ [.flash 0x00040000 ev] }) ∧
  (∀ (s : State) (m : Mode), s.dev.mode = .dusk → s.dev.phase = .idle → s.dev.activation = none → s.dev.drainTo = some m → s.cmds = [] →
    modeChange m .device ∉ s.dev.waiting → modeChange m .device ∉ s.dev.retry →
    exec .duskDrainComplete s = .next { s with dev := { s.dev with waiting := s.dev.waiting ++ [modeChange m .device] } }) ∧
  (∀ (s : State) (a : Activation), s.dev.activation = some a → s.dev.mode = .activate → s.dev.phase = .idle → a.restarted = false → a.commit = false →
    exec .firmwareRestarted s = .next { s with dev := { s.dev with
      fwVersion := (s.flash.slot a.slot).version, bootSlot := a.slot, svn := (s.flash.slot a.slot).svn, activation := some { a with restarted := true }
      waiting := s.dev.waiting ++ [modeChange .service .device] } }))

/-- O52. On a core that runs, each integer instruction of majors 0x01 to 0x06 writes its result to RD, wrapping modulo 2^64, leaves every other
register and the rest of the device, and moves to the next word; X0 stays 0; a zero divisor ends the call with INT_DIVIDE; a shift by 64 or
more, whose result the spec does not state (log 23), writes some value (R395, R400, R410, R412). -/
def Obligations.IntegerInstructionsWriteTheirResult : Prop :=
  ∀ (s : State) (k : CoreId) (call : Call) (m : UdfCtx) (rd ra rb : RegNo) (imm : BitVec 16), sumenReady s k call m →
    let c := s.sumen k
    let a := c.getX ra
    let b := c.getX rb
    let zeroDivisor := s.faultCall k c call 0x0005 (faultRow c call.select false)
    exec (.add k rd ra rb) s = .next (putX s k rd (BitVec.ofNat 64 (a.toNat + b.toNat))) ∧
    exec (.sub k rd ra rb) s = .next (putX s k rd (BitVec.ofInt 64 (a.toInt - b.toInt))) ∧
    exec (.and k rd ra rb) s = .next (putX s k rd (a &&& b)) ∧
    exec (.or k rd ra rb) s = .next (putX s k rd (a ||| b)) ∧
    exec (.xor k rd ra rb) s = .next (putX s k rd (a ^^^ b)) ∧
    (∃ v, exec (.sll k rd ra rb) s = .next (putX s k rd v) ∧ (b.toNat < 64 → v = BitVec.ofNat 64 (a.toNat * 2 ^ b.toNat))) ∧
    (∃ v, exec (.srl k rd ra rb) s = .next (putX s k rd v) ∧ (b.toNat < 64 → v = BitVec.ofNat 64 (a.toNat / 2 ^ b.toNat))) ∧
    (∃ v, exec (.sra k rd ra rb) s = .next (putX s k rd v) ∧ (b.toNat < 64 → v = BitVec.ofInt 64 (a.toInt / 2 ^ b.toNat))) ∧
    exec (.slt k rd ra rb) s = .next (putX s k rd (if a.toInt < b.toInt then 1 else 0)) ∧
    exec (.sltu k rd ra rb) s = .next (putX s k rd (if a.toNat < b.toNat then 1 else 0)) ∧
    exec (.mul k rd ra rb) s = .next (putX s k rd (BitVec.ofInt 64 (a.toInt * b.toInt))) ∧
    exec (.mulh k rd ra rb) s = .next (putX s k rd (BitVec.ofInt 64 (a.toInt * b.toInt / 2 ^ 64))) ∧
    exec (.mulhu k rd ra rb) s = .next (putX s k rd (BitVec.ofNat 64 (a.toNat * b.toNat / 2 ^ 64))) ∧
    (b ≠ 0 → exec (.div k rd ra rb) s = .next (putX s k rd (BitVec.ofInt 64 (a.toInt.tdiv b.toInt)))) ∧
    (b ≠ 0 → exec (.divu k rd ra rb) s = .next (putX s k rd (BitVec.ofNat 64 (a.toNat / b.toNat)))) ∧
    (b ≠ 0 → exec (.rem k rd ra rb) s = .next (putX s k rd (BitVec.ofInt 64 (a.toInt.tmod b.toInt)))) ∧
    (b ≠ 0 → exec (.remu k rd ra rb) s = .next (putX s k rd (BitVec.ofNat 64 (a.toNat % b.toNat)))) ∧
    (b = 0 → exec (.div k rd ra rb) s = .next zeroDivisor ∧ exec (.divu k rd ra rb) s = .next zeroDivisor ∧
      exec (.rem k rd ra rb) s = .next zeroDivisor ∧ exec (.remu k rd ra rb) s = .next zeroDivisor) ∧
    exec (.addi k rd ra imm) s = .next (putX s k rd (BitVec.ofInt 64 (a.toInt + imm.toInt))) ∧
    exec (.andi k rd ra imm) s = .next (putX s k rd (a &&& BitVec.ofNat 64 imm.toNat)) ∧
    exec (.ori k rd ra imm) s = .next (putX s k rd (a ||| BitVec.ofNat 64 imm.toNat)) ∧
    exec (.xori k rd ra imm) s = .next (putX s k rd (a ^^^ BitVec.ofNat 64 imm.toNat)) ∧
    exec (.lui k rd imm) s = .next (putX s k rd (BitVec.ofInt 64 (imm.toInt * 2 ^ 16)))

/-- O53. A branch goes to PC + 4 × OFF16 where its comparison holds and to the next word else; JMP and JAL go to PC + 4 × OFF26 and JR to Xa,
with the address of the next word in X31 or RD; CSR reads a control register and writes one that is writable; VSETL and VSTEP set the strip;
VEXT moves an element to an integer register (R396, R399, R400, R401). -/
def Obligations.JumpsAndControlRegisters : Prop :=
  ∀ (s : State) (k : CoreId) (call : Call) (m : UdfCtx) (rd ra rb : RegNo) (imm : BitVec 16) (off : BitVec 26) (mk : Bool), sumenReady s k call m →
    let c := s.sumen k
    let a := c.getX ra
    let b := c.getX rb
    let go := fun (taken : Bool) => s.setSumen k { c with pc := if taken then c.pc + BitVec.ofInt 64 (4 * imm.toInt) else c.pc + 4 }
    exec (.beq k ra rb imm) s = .next (go (decide (a = b))) ∧ exec (.bne k ra rb imm) s = .next (go (decide (a ≠ b))) ∧
    exec (.blt k ra rb imm) s = .next (go (decide (a.toInt < b.toInt))) ∧ exec (.bge k ra rb imm) s = .next (go (decide (b.toInt ≤ a.toInt))) ∧
    exec (.bltu k ra rb imm) s = .next (go (decide (a.toNat < b.toNat))) ∧ exec (.bgeu k ra rb imm) s = .next (go (decide (b.toNat ≤ a.toNat))) ∧
    exec (.jmp k off) s = .next (s.setSumen k { c with pc := c.pc + BitVec.ofInt 64 (4 * off.toInt) }) ∧
    exec (.jal k off) s = .next (s.setSumen k { withX c 31 (c.pc + 4) with pc := c.pc + BitVec.ofInt 64 (4 * off.toInt) }) ∧
    exec (.jr k rd ra) s = .next (s.setSumen k { withX c rd (c.pc + 4) with pc := a }) ∧
    (∀ v, c.csr imm.toNat = some v → exec (.csr k rd ra imm) s = .next (s.setSumen k
      (if ra = 0 then withX c rd v else if imm = 1 then { withX c rd v with fxcsr := a &&& 0x1FF }
        else if imm = 4 then { withX c rd v with vresume := a } else if imm = 5 then { withX c rd v with rowbase := a } else withX c rd v).next)) ∧
    ((c.csr imm.toNat).isSome = true ↔ 1 ≤ imm.toNat ∧ imm.toNat ≤ 6) ∧
    (imm.toNat ≤ 4 → let n := min a.toNat (vlen (coreLarge k) / (8 * 2 ^ imm.toNat))
      exec (.vsetl k rd ra imm) s = .next (s.setSumen k
        { (withX c rd (BitVec.ofNat 64 n)).next with vshape := imm.toNat, vrem := a.toNat, vact := n })) ∧
    (c.vrem = 0 → exec (.vstep k rd) s = .next (putX s k rd 0)) ∧
    (c.vrem ≠ 0 → let n := min (c.vrem - c.vact) (vlen (coreLarge k) / c.ew)
      exec (.vstep k rd) s = .next (s.setSumen k
        { (withX c rd (BitVec.ofNat 64 n)).next with rowbase := c.rowbase + BitVec.ofNat 64 c.vact, vrem := c.vrem - c.vact, vact := n })) ∧
    (c.vresume.toNat < c.vact → ∃ v, exec (.vext k rd ra rb mk) s = .next (s.setSumen k { (withX c rd v).next with vresume := 0 }) ∧
      (b.toNat < vlen (coreLarge k) / c.ew → v = BitVec.ofNat 64 (c.elem ra b.toNat))) ∧
    (c.vact ≤ c.vresume.toNat → exec (.vext k rd ra rb mk) s = .next (s.setSumen k { c.next with vresume := 0 }))

/-- O54. A scalar load that the address map answers writes its bytes, extended, to RD or Fd, and a store hands the low bytes of its source to
the map; a vector load or store does the same for each active element in ascending order, at its unit-stride or indexed address; nothing
else changes; a scalar access that faults or misses its line stops there (R397, R398, R400, R402, R408). -/
def Obligations.LoadsAndStoresMoveTheirBytes : Prop :=
  ∀ (s : State) (k : CoreId) (call : Call) (m : UdfCtx) (rd ra rb : RegNo) (imm : BitVec 16) (mk : Bool), sumenReady s k call m →
    let c := s.sumen k
    let at_ := (BitVec.ofInt 64 ((c.getX ra).toInt + imm.toInt)).toNat
    let atF := (BitVec.ofInt 64 ((c.getX ra).toInt + (imm &&& 0xFFFE).toInt)).toNat
    let nF := if imm.getLsbD 0 then 8 else 4
    let unit := fun (e : Nat) => (at_ + e * (c.ew / 8)) % 2 ^ 64
    let gather := fun (e : Nat) => ((c.getX ra).toNat + c.elem rb e) % 2 ^ 64
    let stored := fun (p : Bool) (at' : Nat → Nat) =>
      (c.activeFrom p).foldlM (fun (x : Core) (e : Nat) => x.store m true (at' e) (leBytes (c.ew / 8) (c.elem rd e))) c
    (∀ bs, c.load m false at_ 1 = .ok bs → exec (.lb k rd ra imm) s = .next (putX s k rd (BitVec.ofInt 64 (toSigned 8 (leNat bs))))) ∧
    (∀ bs, c.load m false at_ 2 = .ok bs → exec (.lh k rd ra imm) s = .next (putX s k rd (BitVec.ofInt 64 (toSigned 16 (leNat bs))))) ∧
    (∀ bs, c.load m false at_ 4 = .ok bs → exec (.lw k rd ra imm) s = .next (putX s k rd (BitVec.ofInt 64 (toSigned 32 (leNat bs))))) ∧
    (∀ bs, c.load m false at_ 8 = .ok bs → exec (.ld k rd ra imm) s = .next (putX s k rd (BitVec.ofInt 64 (toSigned 64 (leNat bs))))) ∧
    (∀ bs, c.load m false at_ 1 = .ok bs → exec (.lbu k rd ra imm) s = .next (putX s k rd (BitVec.ofNat 64 (leNat bs)))) ∧
    (∀ bs, c.load m false at_ 2 = .ok bs → exec (.lhu k rd ra imm) s = .next (putX s k rd (BitVec.ofNat 64 (leNat bs)))) ∧
    (∀ bs, c.load m false at_ 4 = .ok bs → exec (.lwu k rd ra imm) s = .next (putX s k rd (BitVec.ofNat 64 (leNat bs)))) ∧
    (∀ d, c.store m false at_ (leBytes 1 (c.getX rd).toNat) = .ok d → exec (.sb k rd ra imm) s = .next (s.setSumen k d.next)) ∧
    (∀ d, c.store m false at_ (leBytes 2 (c.getX rd).toNat) = .ok d → exec (.sh k rd ra imm) s = .next (s.setSumen k d.next)) ∧
    (∀ d, c.store m false at_ (leBytes 4 (c.getX rd).toNat) = .ok d → exec (.sw k rd ra imm) s = .next (s.setSumen k d.next)) ∧
    (∀ d, c.store m false at_ (leBytes 8 (c.getX rd).toNat) = .ok d → exec (.sd k rd ra imm) s = .next (s.setSumen k d.next)) ∧
    (∀ bs, c.load m false atF nF = .ok bs → exec (.fld k rd ra imm) s = .next (putF s k rd (leNat bs, {}))) ∧
    (∀ d, c.store m false atF (leBytes nF (c.getF rd)) = .ok d → exec (.fsd k rd ra imm) s = .next (s.setSumen k d.next)) ∧
    (∀ p ∈ [(Instr.lb k rd ra imm, 1), (.lh k rd ra imm, 2), (.lw k rd ra imm, 4), (.ld k rd ra imm, 8), (.lbu k rd ra imm, 1), (.lhu k rd ra imm, 2),
        (.lwu k rd ra imm, 4)], ∀ x, c.load m false at_ p.2 = .error x → exec p.1 s = .next (stoppedAt s k call x)) ∧
    (∀ p ∈ [(Instr.sb k rd ra imm, 1), (.sh k rd ra imm, 2), (.sw k rd ra imm, 4), (.sd k rd ra imm, 8)], ∀ x,
      c.store m false at_ (leBytes p.2 (c.getX rd).toNat) = .error x → exec p.1 s = .next (stoppedAt s k call x)) ∧
    ((∀ e, c.vresume.toNat ≤ e → c.active false e = true → ∃ bs, c.load m true (unit e) (c.ew / 8) = .ok bs) →
      ∃ (t : State) (f : Nat → Nat), exec (.vld k rd ra imm) s = .next t ∧ vecDone s k false rd f t ∧
        ∀ e bs, c.load m true (unit e) (c.ew / 8) = .ok bs → f e = leNat bs) ∧
    ((∀ e, c.vresume.toNat ≤ e → c.active mk e = true → ∃ bs, c.load m true (gather e) (c.ew / 8) = .ok bs) →
      ∃ (t : State) (f : Nat → Nat), exec (.vldx k rd ra rb mk) s = .next t ∧ vecDone s k mk rd f t ∧
        ∀ e bs, c.load m true (gather e) (c.ew / 8) = .ok bs → f e = leNat bs) ∧
    (∀ d, stored false unit = .ok d → exec (.vst k rd ra imm) s = .next (s.setSumen k { d with vresume := 0, pc := c.pc + 4 })) ∧
    (∀ d, stored mk gather = .ok d → exec (.vstx k rd ra rb mk) s = .next (s.setSumen k { d with vresume := 0, pc := c.pc + 4 }))

/-- O55. Scalar floating point writes the IEEE result of its operands to Fd, or the comparison to Xd, and ORs the flags of the operation into
FFLAGS; FCVTI rounds with RMODE and fits to INT64, FCVTF and FCVTW convert, FMVX and FMVF move (of a binary32 moved to Xd the low half is
stated, log 23) (R395, R400, R404, R407). -/
def Obligations.FloatInstructionsWriteTheirResult : Prop :=
  ∀ (s : State) (k : CoreId) (call : Call) (m : UdfCtx) (dbl : Bool) (rd ra rb : RegNo), sumenReady s k call m →
    let c := s.sumen k
    let f := fmtOf dbl
    let a := c.getFp dbl ra
    let b := c.getFp dbl rb
    let nv := fun (p : Bool) => (c.orFlags { nv := p }).fxcsr
    let misfit := fun (v : Word64) => putXf s k rd v (c.setSat.orFlags { nv := true }).fxcsr
    exec (.fadd k dbl rd ra rb) s = .next (putF s k rd (f.add a b)) ∧
    exec (.fsub k dbl rd ra rb) s = .next (putF s k rd (f.sub a b)) ∧
    exec (.fmul k dbl rd ra rb) s = .next (putF s k rd (f.mul a b)) ∧
    exec (.fdiv k dbl rd ra rb) s = .next (putF s k rd (f.div a b)) ∧
    exec (.fsqrt k dbl rd ra) s = .next (putF s k rd (f.sqrt a)) ∧
    exec (.fmin k dbl rd ra rb) s = .next (putF s k rd (f.min a b)) ∧
    exec (.fmax k dbl rd ra rb) s = .next (putF s k rd (f.max a b)) ∧
    exec (.feq k dbl rd ra rb) s = .next (putXf s k rd (if f.rank a = f.rank b then 1 else 0) (nv (f.isSnan a || f.isSnan b))) ∧
    exec (.flt k dbl rd ra rb) s = .next (putXf s k rd (if f.rank a < f.rank b then 1 else 0) (nv (f.isNan a || f.isNan b))) ∧
    exec (.fle k dbl rd ra rb) s = .next (putXf s k rd (if f.rank a ≤ f.rank b then 1 else 0) (nv (f.isNan a || f.isNan b))) ∧
    (∀ i ex, f.toDec c.rmode a 0 = some (i, ex) → -(2 ^ 63) ≤ i → i < 2 ^ 63 →
      exec (.fcvti k dbl rd ra) s = .next (putXf s k rd (BitVec.ofInt 64 i) (c.orFlags { nx := !ex }).fxcsr)) ∧
    (∀ i ex, f.toDec c.rmode a 0 = some (i, ex) → i < -(2 ^ 63) ∨ 2 ^ 63 ≤ i → c.trap = false →
      exec (.fcvti k dbl rd ra) s = .next (misfit (BitVec.ofInt 64 (clampTo (-(2 ^ 63), 2 ^ 63 - 1) i)))) ∧
    (f.toDec c.rmode a 0 = none → c.trap = false → exec (.fcvti k dbl rd ra) s = .next (misfit
      (if f.isNan a then 0 else if a.testBit (f.eb + f.mb) then BitVec.ofInt 64 (-(2 ^ 63)) else BitVec.ofInt 64 (2 ^ 63 - 1)))) ∧
    ((f.toDec c.rmode a 0 = none ∨ ∃ i ex, f.toDec c.rmode a 0 = some (i, ex) ∧ (i < -(2 ^ 63) ∨ 2 ^ 63 ≤ i)) → c.trap = true →
      exec (.fcvti k dbl rd ra) s = .next (s.faultCall k c call 0x0006 (faultRow c call.select true))) ∧
    exec (.fcvtf k dbl rd ra) s = .next (putF s k rd (f.ofDec (c.getX ra).toInt 0)) ∧
    (∃ v : Word64, exec (.fmvx k dbl rd ra) s = .next (putX s k rd v) ∧
      v.toNat % 2 ^ (if dbl then 64 else 32) = a % 2 ^ (if dbl then 64 else 32)) ∧
    exec (.fmvf k dbl rd ra) s = .next (putF s k rd ((c.getX ra).toNat % 2 ^ (if dbl then 64 else 32), {})) ∧
    exec (.fcvtw k dbl rd ra) s = .next (putF s k rd (f.convert (fmtOf !dbl) a))

/-- O56. A vector instruction of majors 0x30 and 0x39 gives each active element from VRESUME on its result at the current width, leaves every
other element and register, ORs in the floating-point flags of the elements it computed, clears VRESUME and moves to the next word (R395,
R400, R402, R407). -/
def Obligations.VectorInstructionsWriteActiveElements : Prop :=
  ∀ (s : State) (k : CoreId) (call : Call) (m : UdfCtx) (vd va vb : RegNo) (mk : Bool), sumenReady s k call m →
    let c := s.sumen k
    let w := c.ew
    let f := fmtOf (w == 64)
    let signed := fun (g : Int → Int → Int) (e : Nat) => ofSigned w (g (c.selem va e) (c.selem vb e))
    let holds := fun (p : Nat → Bool) (e : Nat) => if p e then 2 ^ w - 1 else 0
    let illegal := s.faultCall k c call 0x0001 (faultRow c call.select false)
    (∃ t, exec (.vadd k vd va vb mk) s = .next t ∧ vecDone s k mk vd (fun e => c.elem va e + c.elem vb e) t) ∧
    (∃ t, exec (.vsub k vd va vb mk) s = .next t ∧ vecDone s k mk vd (signed (· - ·)) t) ∧
    (∃ t, exec (.vmul k vd va vb mk) s = .next t ∧ vecDone s k mk vd (fun e => c.elem va e * c.elem vb e) t) ∧
    (∃ t, exec (.vand k vd va vb mk) s = .next t ∧ vecDone s k mk vd (fun e => c.elem va e &&& c.elem vb e) t) ∧
    (∃ t, exec (.vor k vd va vb mk) s = .next t ∧ vecDone s k mk vd (fun e => c.elem va e ||| c.elem vb e) t) ∧
    (∃ t, exec (.vxor k vd va vb mk) s = .next t ∧ vecDone s k mk vd (fun e => c.elem va e ^^^ c.elem vb e) t) ∧
    (∃ (t : State) (f : Nat → Nat), exec (.vsll k vd va vb mk) s = .next t ∧ vecDone s k mk vd f t ∧ ∀ e, c.elem vb e < w → f e = c.elem va e * 2 ^ c.elem vb e) ∧
    (∃ (t : State) (f : Nat → Nat), exec (.vsrl k vd va vb mk) s = .next t ∧ vecDone s k mk vd f t ∧ ∀ e, c.elem vb e < w → f e = c.elem va e / 2 ^ c.elem vb e) ∧
    (∃ (t : State) (f : Nat → Nat), exec (.vsra k vd va vb mk) s = .next t ∧ vecDone s k mk vd f t ∧ ∀ e, c.elem vb e < w → f e = ofSigned w (c.selem va e / 2 ^ c.elem vb e)) ∧
    (∃ t, exec (.vmin k vd va vb mk) s = .next t ∧ vecDone s k mk vd (signed min) t) ∧
    (∃ t, exec (.vmax k vd va vb mk) s = .next t ∧ vecDone s k mk vd (signed max) t) ∧
    (∃ t, exec (.vminu k vd va vb mk) s = .next t ∧ vecDone s k mk vd (fun e => min (c.elem va e) (c.elem vb e)) t) ∧
    (∃ t, exec (.vmaxu k vd va vb mk) s = .next t ∧ vecDone s k mk vd (fun e => max (c.elem va e) (c.elem vb e)) t) ∧
    (∃ t, exec (.vseq k vd va vb mk) s = .next t ∧ vecDone s k mk vd (holds fun e => c.elem va e == c.elem vb e) t) ∧
    (∃ t, exec (.vslt k vd va vb mk) s = .next t ∧ vecDone s k mk vd (holds fun e => decide (c.selem va e < c.selem vb e)) t) ∧
    (∃ t, exec (.vsltu k vd va vb mk) s = .next t ∧ vecDone s k mk vd (holds fun e => decide (c.elem va e < c.elem vb e)) t) ∧
    (∃ t, exec (.vmerge k vd va vb mk) s = .next t ∧ vecDone s k mk vd (fun e => if c.elem 31 e ≠ 0 then c.elem va e else c.elem vb e) t) ∧
    (∃ t, exec (.vbcast k vd va mk) s = .next t ∧ vecDone s k mk vd (fun _ => ofSigned w (c.getX va).toInt) t) ∧
    (∃ t, exec (.vins k vd va vb mk) s = .next t ∧ vecDone s k mk vd (fun e => if (c.getX vb).toNat = e then ofSigned w (c.getX va).toInt else c.elem vd e) t) ∧
    (∃ t, exec (.vidx k vd mk) s = .next t ∧ vecDone s k mk vd (fun e => e) t) ∧
    (w = 32 ∨ w = 64 → ∃ t, exec (.vfadd k vd va vb mk) s = .next t ∧ vecFloat s k mk vd (fun e => f.add (c.elem va e) (c.elem vb e)) t) ∧
    (w = 32 ∨ w = 64 → ∃ t, exec (.vfsub k vd va vb mk) s = .next t ∧ vecFloat s k mk vd (fun e => f.sub (c.elem va e) (c.elem vb e)) t) ∧
    (w = 32 ∨ w = 64 → ∃ t, exec (.vfmul k vd va vb mk) s = .next t ∧ vecFloat s k mk vd (fun e => f.mul (c.elem va e) (c.elem vb e)) t) ∧
    (w = 32 ∨ w = 64 → ∃ t, exec (.vfdiv k vd va vb mk) s = .next t ∧ vecFloat s k mk vd (fun e => f.div (c.elem va e) (c.elem vb e)) t) ∧
    (w = 32 ∨ w = 64 → ∃ t, exec (.vfmin k vd va vb mk) s = .next t ∧ vecFloat s k mk vd (fun e => f.min (c.elem va e) (c.elem vb e)) t) ∧
    (w = 32 ∨ w = 64 → ∃ t, exec (.vfmax k vd va vb mk) s = .next t ∧ vecFloat s k mk vd (fun e => f.max (c.elem va e) (c.elem vb e)) t) ∧
    (w ≠ 32 → w ≠ 64 → exec (.vfadd k vd va vb mk) s = .next illegal ∧ exec (.vfsub k vd va vb mk) s = .next illegal ∧
      exec (.vfmul k vd va vb mk) s = .next illegal ∧ exec (.vfdiv k vd va vb mk) s = .next illegal ∧
      exec (.vfmin k vd va vb mk) s = .next illegal ∧ exec (.vfmax k vd va vb mk) s = .next illegal)

/-- O57. Fixed-point instructions round the exact value under RMODE and, with OVFTRAP clear, fit it to the nearer bound with SAT set where it
lay outside (with OVFTRAP set, VSADD ends the call at the first such element); VNARROWS onto VA + 1 reads elements that it has written
(R409, log 23), so there only the elements of VA are stated. A reduction combines the active elements with element 0 of VB in element 0 of
VD (R402 to R406). -/
def Obligations.FixedPointAndReductions : Prop :=
  ∀ (s : State) (k : CoreId) (call : Call) (m : UdfCtx) (vd va vb : RegNo) (mk : Bool) (p : Fin 64), sumenReady s k call m →
    let c := s.sumen k
    let w := c.ew
    let sh := 2 ^ ((c.getX vb).toNat % 128)
    let x := (c.getX vb).toInt
    let whole := (-(2 ^ (w - 1) : Int), (2 ^ (w - 1) : Int) - 1)
    let digits := if p.val = 0 then whole else (-((10 : Int) ^ p.val - 1), (10 : Int) ^ p.val - 1)
    let es := c.activeFrom mk
    let sum := (es.map fun e => c.selem va e).sum + c.selem vb 0
    let ordered := fun (g : Nat → Nat → Nat × FFlags) => es.foldl (fun (y : Nat × Word64) (e : Nat) =>
      ((g y.1 (c.elem va e)).1, ({ c with fxcsr := y.2 }.orFlags (g y.1 (c.elem va e)).2).fxcsr)) (c.elem vb 0, c.fxcsr)
    (c.trap = false → ∃ t, exec (.vsadd k vd va vb mk) s = .next t ∧ vecFixed s k mk vd whole (fun e => c.selem va e + c.selem vb e) t) ∧
    (c.trap = false → ∃ t, exec (.vssub k vd va vb mk) s = .next t ∧ vecFixed s k mk vd whole (fun e => c.selem va e - c.selem vb e) t) ∧
    (c.trap = false → ∃ t, exec (.vrshr k vd va vb mk) s = .next t ∧ vecFixed s k mk vd whole (fun e => roundInt c.rmode (c.selem va e) sh) t) ∧
    (c.trap = false → ∃ t, exec (.vmulhr k vd va vb mk) s = .next t ∧ vecFixed s k mk vd whole (fun e => roundInt c.rmode (c.selem va e * c.selem vb e) (2 ^ (w - 1))) t) ∧
    (c.trap = false → va.val % 2 = 0 → w ≠ 128 → vd ≠ va + 1 →
      ∃ t, exec (.vnarrows k vd va vb mk) s = .next t ∧ vecFixed s k mk vd whole (fun e => roundInt c.rmode (c.pairElem m va e) sh) t) ∧
    (c.trap = false → va.val % 2 = 0 → w ≠ 128 → ∃ (t : State) (d : Core) (f : Nat → Nat) (y : Word64), exec (.vnarrows k vd va vb mk) s = .next t ∧
      wroteElems c mk vd f d ∧ coreStep s k { d with fxcsr := y } t ∧
      ∀ e, e < vlen m.large / (2 * w) → f e = ofSigned w (clampTo whole (roundInt c.rmode (c.pairElem m va e) sh))) ∧
    (c.trap = false → p.val ≤ 38 → 64 ≤ w → x.natAbs ≤ 38 → ∃ t, exec (.vscale10 k vd va vb mk p) s = .next t ∧
      vecFixed s k mk vd digits (fun e => if 0 ≤ x then c.selem va e * 10 ^ x.natAbs else roundInt c.rmode (c.selem va e) (10 ^ x.natAbs)) t) ∧
    (p.val ≤ 38 → 64 ≤ w → 38 < x.natAbs →
      exec (.vscale10 k vd va vb mk p) s = .next (s.faultCall k c call 0x0007 (faultRow c call.select false))) ∧
    (c.trap = true → ∀ e ∈ es.head?, ¬(whole.1 ≤ c.selem va e + c.selem vb e ∧ c.selem va e + c.selem vb e ≤ whole.2) →
      exec (.vsadd k vd va vb mk) s = .next (s.faultCall k { c with vresume := BitVec.ofNat 64 e } call 0x0006
        (faultRow { c with vresume := BitVec.ofNat 64 e } call.select true))) ∧
    (c.vact ≤ c.vresume.toNat → exec (.vredsum k vd va vb mk) s = .next (s.setSumen k { c.next with vresume := 0 }) ∧
      exec (.vredmin k vd va vb mk) s = .next (s.setSumen k { c.next with vresume := 0 }) ∧
      exec (.vredmax k vd va vb mk) s = .next (s.setSumen k { c.next with vresume := 0 }) ∧
      exec (.vredminu k vd va vb mk) s = .next (s.setSumen k { c.next with vresume := 0 }) ∧
      exec (.vredmaxu k vd va vb mk) s = .next (s.setSumen k { c.next with vresume := 0 })) ∧
    (c.trap = false → c.vresume.toNat < c.vact → ∃ t, exec (.vredsum k vd va vb mk) s = .next t ∧
      vecFolded s k vd (ofSigned w (clampTo whole sum)) (satIf (sum < whole.1 ∨ whole.2 < sum) c.fxcsr) t) ∧
    (c.vresume.toNat < c.vact → ∃ t, exec (.vredmin k vd va vb mk) s = .next t ∧ vecFolded s k vd (ofSigned w ((es.map fun e => c.selem va e).foldl min (c.selem vb 0))) c.fxcsr t) ∧
    (c.vresume.toNat < c.vact → ∃ t, exec (.vredmax k vd va vb mk) s = .next t ∧ vecFolded s k vd (ofSigned w ((es.map fun e => c.selem va e).foldl max (c.selem vb 0))) c.fxcsr t) ∧
    (c.vresume.toNat < c.vact → ∃ t, exec (.vredminu k vd va vb mk) s = .next t ∧ vecFolded s k vd ((es.map fun e => c.elem va e).foldl min (c.elem vb 0)) c.fxcsr t) ∧
    (c.vresume.toNat < c.vact → ∃ t, exec (.vredmaxu k vd va vb mk) s = .next t ∧ vecFolded s k vd ((es.map fun e => c.elem va e).foldl max (c.elem vb 0)) c.fxcsr t) ∧
    (w = 32 ∨ w = 64 → c.vresume.toNat < c.vact → ∃ t, exec (.vfredsum k vd va vb mk) s = .next t ∧
      vecFolded s k vd (ordered (fmtOf (w == 64)).add).1 (ordered (fmtOf (w == 64)).add).2 t) ∧
    (w = 32 ∨ w = 64 → c.vresume.toNat < c.vact → ∃ t, exec (.vfredmin k vd va vb mk) s = .next t ∧
      vecFolded s k vd (ordered (fmtOf (w == 64)).min).1 (ordered (fmtOf (w == 64)).min).2 t) ∧
    (w = 32 ∨ w = 64 → c.vresume.toNat < c.vact → ∃ t, exec (.vfredmax k vd va vb mk) s = .next t ∧
      vecFolded s k vd (ordered (fmtOf (w == 64)).max).1 (ordered (fmtOf (w == 64)).max).2 t)

/-- O58. BREAK and an undefined word end the call with their cause at the fault's row; RET hands the results of the selected rows to the run, or
RESULT_RANGE at the lowest row that breaks the return type; a core that runs no call executes no instruction (log 1); a fill makes its line
resident, and the core runs again from the same word (R398, R410, R411, R412, R413, R419). -/
def Obligations.CallsEndAndFillsResume : Prop :=
  (∀ (s : State) (k : CoreId) (call : Call) (m : UdfCtx) (word : Word32), sumenReady s k call m →
    let c := s.sumen k
    let row := faultRow c call.select false
    exec (.brk k) s = .next (s.faultCall k c call 0x0008 row) ∧
    (decodeSumen (.large 0) word.toNat = none → exec (.illegal k word) s = .next (s.faultCall k c call 0x0001 row)) ∧
    (∀ vs : List Val, (∀ r, r < 32 → ((call.select.testBit r = true → resultVal m c.frame r = vs[r]?) ∧ (call.select.testBit r = false → vs[r]? = some .null))) →
      vs.length = 32 → exec (.ret k) s = .next (s.endCall k c call { block := call.block, uop := call.uop, vals := vs, fault := none })) ∧
    (∀ r, r < 32 → call.select.testBit r = true → resultVal m c.frame r = none →
      (∀ q, q < r → call.select.testBit q = true → resultVal m c.frame q ≠ none) → exec (.ret k) s = .next (s.faultCall k c call 0x0009 r))) ∧
  (∀ (s : State) (k : CoreId) (call : Call) (cause row : Nat), (s.sumen k).call = some call → (s.sumen k).queue = [] →
    let t := s.faultCall k (s.sumen k) call cause row
    (t.sumen k).call = none ∧ (t.sumen k).miss = none ∧ (t.sumen k).faults = min 0xFFFFFFFF ((s.sumen k).faults + 1) ∧
    (t.sumen k).x = (s.sumen k).x ∧ (t.sumen k).v = (s.sumen k).v ∧ t.mem = s.mem ∧ t.out = s.out) ∧
  (∀ (s : State) (k : CoreId) (i : Instr) (w : Nat), s.coreReady k = none → encodeSumen i = some w → decodeSumen k w = some i →
    exec i s = .next s) ∧
  ∀ (s : State) (k : CoreId) (l : Nat), (s.sumen k).miss = some l →
    ∃ (t : State) (d : Core), exec (.windowMissFill k) s = .next t ∧ t = (s.setSumen k d).bump ∧ l ∈ d.lines ∧ d.miss = none ∧
      d = { s.sumen k with miss := none, lines := d.lines } ∧
      ((s.sumen k).lines.length < (if coreLarge k then 512 else 64) → d.lines = (s.sumen k).lines ++ [l])

/-- O59. The word of a Sumen instruction, with every operand at every value that the encoding admits, reads back as that instruction, and an
instruction with a CSR number, a width code or a P out of range has a word that does not decode (R399, R400, R401, R403). -/
def Obligations.SumenDecodeOfEncode : Prop :=
  ∀ (i : Instr) (w : Nat), encodeSumen i = some w → w < 2 ^ 32 ∧
    (sumenFields i = true → ∃ k, decodeSumen k w = some i) ∧ (sumenFields i = false → ∀ k, decodeSumen k w = none)

/-- O60. Words written out from the format tables decode to the instructions they stand for, undefined words to none; the opcode table gives no
command bits (R399, R400, R405). -/
def Obligations.SumenWordsOfTheSpec : Prop :=
  (∀ (k : CoreId),
    decodeSumen k 0xC8823850 = some (.vscale10 k 4 2 7 false 5) ∧
    decodeSumen k (0x01 * 2 ^ 26 + 3 * 2 ^ 21 + 4 * 2 ^ 16 + 5 * 2 ^ 11 + 0x00E) = some (.div k 3 4 5) ∧
    decodeSumen k (0x18 * 2 ^ 26 + 1 * 2 ^ 21 + 2 * 2 ^ 16 + 0xFFFF) = some (.beq k 1 2 0xFFFF) ∧
    decodeSumen k (0x1F * 2 ^ 26 + 0x3FFFFFF) = some (.jal k 0x3FFFFFF) ∧
    decodeSumen k (0x20 * 2 ^ 26 + 7 * 2 ^ 21 + 8 * 2 ^ 16 + 9 * 2 ^ 11 + 2 ^ 10 + 0x004) = some (.fdiv k true 7 8 9) ∧
    decodeSumen k (0x30 * 2 ^ 26 + 31 * 2 ^ 21 + 30 * 2 ^ 16 + 29 * 2 ^ 11 + 2 ^ 10 + 0x011) = some (.vmerge k 31 30 29 true) ∧
    decodeSumen k (0x3E * 2 ^ 26 + 1) = some (.ret k) ∧ decodeSumen k 0 = none ∧ decodeSumen k (0x06 * 2 ^ 26 + 2 ^ 16) = none ∧
    decodeSumen k (0x28 * 2 ^ 26 + 7) = none ∧ decodeSumen k (0x32 * 2 ^ 26 + 39 * 16) = none) ∧
  ∀ nbits w, decodeTableWord nbits w = none
end

