-- ==== Sys2Proof/Laws/State.lean ====
section
/-! SUPPORT. What the named updates of the state leave: one lemma per field per update, and what they write. -/

namespace Sys2Proof.Machine

variable (s : State)

/-! ### onTile -/

@[simp] theorem State.onTile_pending (t : TileId) (f : Tile → Tile) : (s.onTile t f).pending = s.pending := (rfl)
@[simp] theorem State.onTile_man (t : TileId) (f : Tile → Tile) : (s.onTile t f).man = s.man := (rfl)
@[simp] theorem State.onTile_pins (t : TileId) (f : Tile → Tile) : (s.onTile t f).pins = s.pins := (rfl)
@[simp] theorem State.onTile_now (t : TileId) (f : Tile → Tile) : (s.onTile t f).now = s.now := (rfl)
@[simp] theorem State.onTile_tick (t : TileId) (f : Tile → Tile) : (s.onTile t f).tick = s.tick := (rfl)
@[simp] theorem State.onTile_out (t : TileId) (f : Tile → Tile) : (s.onTile t f).out = s.out := (rfl)
@[simp] theorem State.onTile_dev (t : TileId) (f : Tile → Tile) : (s.onTile t f).dev = s.dev := (rfl)
@[simp] theorem State.onTile_flash (t : TileId) (f : Tile → Tile) : (s.onTile t f).flash = s.flash := (rfl)
@[simp] theorem State.onTile_cfg (t : TileId) (f : Tile → Tile) : (s.onTile t f).cfg = s.cfg := (rfl)
@[simp] theorem State.onTile_feat (t : TileId) (f : Tile → Tile) : (s.onTile t f).feat = s.feat := (rfl)
@[simp] theorem State.onTile_update (t : TileId) (f : Tile → Tile) : (s.onTile t f).update = s.update := (rfl)
@[simp] theorem State.onTile_eid (t : TileId) (f : Tile → Tile) : (s.onTile t f).eid = s.eid := (rfl)
@[simp] theorem State.onTile_nw (t : TileId) (f : Tile → Tile) : (s.onTile t f).nw = s.nw := (rfl)
@[simp] theorem State.onTile_slcSel (t : TileId) (f : Tile → Tile) : (s.onTile t f).slcSel = s.slcSel := (rfl)
@[simp] theorem State.onTile_queues (t : TileId) (f : Tile → Tile) : (s.onTile t f).queues = s.queues := (rfl)
@[simp] theorem State.onTile_cmds (t : TileId) (f : Tile → Tile) : (s.onTile t f).cmds = s.cmds := (rfl)
@[simp] theorem State.onTile_order (t : TileId) (f : Tile → Tile) : (s.onTile t f).order = s.order := (rfl)
@[simp] theorem State.onTile_slices (t : TileId) (f : Tile → Tile) : (s.onTile t f).slices = s.slices := (rfl)
@[simp] theorem State.onTile_keys (t : TileId) (f : Tile → Tile) : (s.onTile t f).keys = s.keys := (rfl)
@[simp] theorem State.onTile_segs (t : TileId) (f : Tile → Tile) : (s.onTile t f).segs = s.segs := (rfl)
@[simp] theorem State.onTile_segGen (t : TileId) (f : Tile → Tile) : (s.onTile t f).segGen = s.segGen := (rfl)
@[simp] theorem State.onTile_mapCopies (t : TileId) (f : Tile → Tile) : (s.onTile t f).mapCopies = s.mapCopies := (rfl)
@[simp] theorem State.onTile_stuck (t : TileId) (f : Tile → Tile) : (s.onTile t f).stuck = s.stuck := (rfl)
@[simp] theorem State.onTile_mem (t : TileId) (f : Tile → Tile) : (s.onTile t f).mem = s.mem := (rfl)
@[simp] theorem State.onTile_durable (t : TileId) (f : Tile → Tile) : (s.onTile t f).durable = s.durable := (rfl)
@[simp] theorem State.onTile_poison (t : TileId) (f : Tile → Tile) : (s.onTile t f).poison = s.poison := (rfl)
@[simp] theorem State.onTile_dseq (t : TileId) (f : Tile → Tile) : (s.onTile t f).dseq = s.dseq := (rfl)
@[simp] theorem State.onTile_images (t : TileId) (f : Tile → Tile) : (s.onTile t f).images = s.images := (rfl)
@[simp] theorem State.onTile_queries (t : TileId) (f : Tile → Tile) : (s.onTile t f).queries = s.queries := (rfl)
@[simp] theorem State.onTile_qidNext (t : TileId) (f : Tile → Tile) : (s.onTile t f).qidNext = s.qidNext := (rfl)
@[simp] theorem State.onTile_blocks (t : TileId) (f : Tile → Tile) : (s.onTile t f).blocks = s.blocks := (rfl)
@[simp] theorem State.onTile_rails (t : TileId) (f : Tile → Tile) : (s.onTile t f).rails = s.rails := (rfl)
@[simp] theorem State.onTile_otherMw (t : TileId) (f : Tile → Tile) : (s.onTile t f).otherMw = s.otherMw := (rfl)

/-! ### setQueue -/

@[simp] theorem State.setQueue_pending (q : Nat) (v : Queue) : (s.setQueue q v).pending = s.pending := (rfl)
@[simp] theorem State.setQueue_man (q : Nat) (v : Queue) : (s.setQueue q v).man = s.man := (rfl)
@[simp] theorem State.setQueue_pins (q : Nat) (v : Queue) : (s.setQueue q v).pins = s.pins := (rfl)
@[simp] theorem State.setQueue_now (q : Nat) (v : Queue) : (s.setQueue q v).now = s.now := (rfl)
@[simp] theorem State.setQueue_tick (q : Nat) (v : Queue) : (s.setQueue q v).tick = s.tick := (rfl)
@[simp] theorem State.setQueue_out (q : Nat) (v : Queue) : (s.setQueue q v).out = s.out := (rfl)
@[simp] theorem State.setQueue_dev (q : Nat) (v : Queue) : (s.setQueue q v).dev = s.dev := (rfl)
@[simp] theorem State.setQueue_flash (q : Nat) (v : Queue) : (s.setQueue q v).flash = s.flash := (rfl)
@[simp] theorem State.setQueue_cfg (q : Nat) (v : Queue) : (s.setQueue q v).cfg = s.cfg := (rfl)
@[simp] theorem State.setQueue_feat (q : Nat) (v : Queue) : (s.setQueue q v).feat = s.feat := (rfl)
@[simp] theorem State.setQueue_update (q : Nat) (v : Queue) : (s.setQueue q v).update = s.update := (rfl)
@[simp] theorem State.setQueue_eid (q : Nat) (v : Queue) : (s.setQueue q v).eid = s.eid := (rfl)
@[simp] theorem State.setQueue_nw (q : Nat) (v : Queue) : (s.setQueue q v).nw = s.nw := (rfl)
@[simp] theorem State.setQueue_slcSel (q : Nat) (v : Queue) : (s.setQueue q v).slcSel = s.slcSel := (rfl)
@[simp] theorem State.setQueue_tiles (q : Nat) (v : Queue) : (s.setQueue q v).tiles = s.tiles := (rfl)
@[simp] theorem State.setQueue_cmds (q : Nat) (v : Queue) : (s.setQueue q v).cmds = s.cmds := (rfl)
@[simp] theorem State.setQueue_order (q : Nat) (v : Queue) : (s.setQueue q v).order = s.order := (rfl)
@[simp] theorem State.setQueue_slices (q : Nat) (v : Queue) : (s.setQueue q v).slices = s.slices := (rfl)
@[simp] theorem State.setQueue_keys (q : Nat) (v : Queue) : (s.setQueue q v).keys = s.keys := (rfl)
@[simp] theorem State.setQueue_segs (q : Nat) (v : Queue) : (s.setQueue q v).segs = s.segs := (rfl)
@[simp] theorem State.setQueue_segGen (q : Nat) (v : Queue) : (s.setQueue q v).segGen = s.segGen := (rfl)
@[simp] theorem State.setQueue_mapCopies (q : Nat) (v : Queue) : (s.setQueue q v).mapCopies = s.mapCopies := (rfl)
@[simp] theorem State.setQueue_stuck (q : Nat) (v : Queue) : (s.setQueue q v).stuck = s.stuck := (rfl)
@[simp] theorem State.setQueue_mem (q : Nat) (v : Queue) : (s.setQueue q v).mem = s.mem := (rfl)
@[simp] theorem State.setQueue_durable (q : Nat) (v : Queue) : (s.setQueue q v).durable = s.durable := (rfl)
@[simp] theorem State.setQueue_poison (q : Nat) (v : Queue) : (s.setQueue q v).poison = s.poison := (rfl)
@[simp] theorem State.setQueue_dseq (q : Nat) (v : Queue) : (s.setQueue q v).dseq = s.dseq := (rfl)
@[simp] theorem State.setQueue_images (q : Nat) (v : Queue) : (s.setQueue q v).images = s.images := (rfl)
@[simp] theorem State.setQueue_queries (q : Nat) (v : Queue) : (s.setQueue q v).queries = s.queries := (rfl)
@[simp] theorem State.setQueue_qidNext (q : Nat) (v : Queue) : (s.setQueue q v).qidNext = s.qidNext := (rfl)
@[simp] theorem State.setQueue_blocks (q : Nat) (v : Queue) : (s.setQueue q v).blocks = s.blocks := (rfl)
@[simp] theorem State.setQueue_rails (q : Nat) (v : Queue) : (s.setQueue q v).rails = s.rails := (rfl)
@[simp] theorem State.setQueue_otherMw (q : Nat) (v : Queue) : (s.setQueue q v).otherMw = s.otherMw := (rfl)

/-! ### onQueue -/

@[simp] theorem State.onQueue_pending (q : Nat) (f : Queue → Queue) : (s.onQueue q f).pending = s.pending := (rfl)
@[simp] theorem State.onQueue_man (q : Nat) (f : Queue → Queue) : (s.onQueue q f).man = s.man := (rfl)
@[simp] theorem State.onQueue_pins (q : Nat) (f : Queue → Queue) : (s.onQueue q f).pins = s.pins := (rfl)
@[simp] theorem State.onQueue_now (q : Nat) (f : Queue → Queue) : (s.onQueue q f).now = s.now := (rfl)
@[simp] theorem State.onQueue_tick (q : Nat) (f : Queue → Queue) : (s.onQueue q f).tick = s.tick := (rfl)
@[simp] theorem State.onQueue_out (q : Nat) (f : Queue → Queue) : (s.onQueue q f).out = s.out := (rfl)
@[simp] theorem State.onQueue_dev (q : Nat) (f : Queue → Queue) : (s.onQueue q f).dev = s.dev := (rfl)
@[simp] theorem State.onQueue_flash (q : Nat) (f : Queue → Queue) : (s.onQueue q f).flash = s.flash := (rfl)
@[simp] theorem State.onQueue_cfg (q : Nat) (f : Queue → Queue) : (s.onQueue q f).cfg = s.cfg := (rfl)
@[simp] theorem State.onQueue_feat (q : Nat) (f : Queue → Queue) : (s.onQueue q f).feat = s.feat := (rfl)
@[simp] theorem State.onQueue_update (q : Nat) (f : Queue → Queue) : (s.onQueue q f).update = s.update := (rfl)
@[simp] theorem State.onQueue_eid (q : Nat) (f : Queue → Queue) : (s.onQueue q f).eid = s.eid := (rfl)
@[simp] theorem State.onQueue_nw (q : Nat) (f : Queue → Queue) : (s.onQueue q f).nw = s.nw := (rfl)
@[simp] theorem State.onQueue_slcSel (q : Nat) (f : Queue → Queue) : (s.onQueue q f).slcSel = s.slcSel := (rfl)
@[simp] theorem State.onQueue_tiles (q : Nat) (f : Queue → Queue) : (s.onQueue q f).tiles = s.tiles := (rfl)
@[simp] theorem State.onQueue_cmds (q : Nat) (f : Queue → Queue) : (s.onQueue q f).cmds = s.cmds := (rfl)
@[simp] theorem State.onQueue_order (q : Nat) (f : Queue → Queue) : (s.onQueue q f).order = s.order := (rfl)
@[simp] theorem State.onQueue_slices (q : Nat) (f : Queue → Queue) : (s.onQueue q f).slices = s.slices := (rfl)
@[simp] theorem State.onQueue_keys (q : Nat) (f : Queue → Queue) : (s.onQueue q f).keys = s.keys := (rfl)
@[simp] theorem State.onQueue_segs (q : Nat) (f : Queue → Queue) : (s.onQueue q f).segs = s.segs := (rfl)
@[simp] theorem State.onQueue_segGen (q : Nat) (f : Queue → Queue) : (s.onQueue q f).segGen = s.segGen := (rfl)
@[simp] theorem State.onQueue_mapCopies (q : Nat) (f : Queue → Queue) : (s.onQueue q f).mapCopies = s.mapCopies := (rfl)
@[simp] theorem State.onQueue_stuck (q : Nat) (f : Queue → Queue) : (s.onQueue q f).stuck = s.stuck := (rfl)
@[simp] theorem State.onQueue_mem (q : Nat) (f : Queue → Queue) : (s.onQueue q f).mem = s.mem := (rfl)
@[simp] theorem State.onQueue_durable (q : Nat) (f : Queue → Queue) : (s.onQueue q f).durable = s.durable := (rfl)
@[simp] theorem State.onQueue_poison (q : Nat) (f : Queue → Queue) : (s.onQueue q f).poison = s.poison := (rfl)
@[simp] theorem State.onQueue_dseq (q : Nat) (f : Queue → Queue) : (s.onQueue q f).dseq = s.dseq := (rfl)
@[simp] theorem State.onQueue_images (q : Nat) (f : Queue → Queue) : (s.onQueue q f).images = s.images := (rfl)
@[simp] theorem State.onQueue_queries (q : Nat) (f : Queue → Queue) : (s.onQueue q f).queries = s.queries := (rfl)
@[simp] theorem State.onQueue_qidNext (q : Nat) (f : Queue → Queue) : (s.onQueue q f).qidNext = s.qidNext := (rfl)
@[simp] theorem State.onQueue_blocks (q : Nat) (f : Queue → Queue) : (s.onQueue q f).blocks = s.blocks := (rfl)
@[simp] theorem State.onQueue_rails (q : Nat) (f : Queue → Queue) : (s.onQueue q f).rails = s.rails := (rfl)
@[simp] theorem State.onQueue_otherMw (q : Nat) (f : Queue → Queue) : (s.onQueue q f).otherMw = s.otherMw := (rfl)

/-! ### setSlc -/

@[simp] theorem State.setSlc_pending (n : Nat) (v : Slice) : (s.setSlc n v).pending = s.pending := (rfl)
@[simp] theorem State.setSlc_man (n : Nat) (v : Slice) : (s.setSlc n v).man = s.man := (rfl)
@[simp] theorem State.setSlc_pins (n : Nat) (v : Slice) : (s.setSlc n v).pins = s.pins := (rfl)
@[simp] theorem State.setSlc_now (n : Nat) (v : Slice) : (s.setSlc n v).now = s.now := (rfl)
@[simp] theorem State.setSlc_tick (n : Nat) (v : Slice) : (s.setSlc n v).tick = s.tick := (rfl)
@[simp] theorem State.setSlc_out (n : Nat) (v : Slice) : (s.setSlc n v).out = s.out := (rfl)
@[simp] theorem State.setSlc_dev (n : Nat) (v : Slice) : (s.setSlc n v).dev = s.dev := (rfl)
@[simp] theorem State.setSlc_flash (n : Nat) (v : Slice) : (s.setSlc n v).flash = s.flash := (rfl)
@[simp] theorem State.setSlc_cfg (n : Nat) (v : Slice) : (s.setSlc n v).cfg = s.cfg := (rfl)
@[simp] theorem State.setSlc_feat (n : Nat) (v : Slice) : (s.setSlc n v).feat = s.feat := (rfl)
@[simp] theorem State.setSlc_update (n : Nat) (v : Slice) : (s.setSlc n v).update = s.update := (rfl)
@[simp] theorem State.setSlc_eid (n : Nat) (v : Slice) : (s.setSlc n v).eid = s.eid := (rfl)
@[simp] theorem State.setSlc_nw (n : Nat) (v : Slice) : (s.setSlc n v).nw = s.nw := (rfl)
@[simp] theorem State.setSlc_slcSel (n : Nat) (v : Slice) : (s.setSlc n v).slcSel = s.slcSel := (rfl)
@[simp] theorem State.setSlc_tiles (n : Nat) (v : Slice) : (s.setSlc n v).tiles = s.tiles := (rfl)
@[simp] theorem State.setSlc_queues (n : Nat) (v : Slice) : (s.setSlc n v).queues = s.queues := (rfl)
@[simp] theorem State.setSlc_cmds (n : Nat) (v : Slice) : (s.setSlc n v).cmds = s.cmds := (rfl)
@[simp] theorem State.setSlc_order (n : Nat) (v : Slice) : (s.setSlc n v).order = s.order := (rfl)
@[simp] theorem State.setSlc_keys (n : Nat) (v : Slice) : (s.setSlc n v).keys = s.keys := (rfl)
@[simp] theorem State.setSlc_segs (n : Nat) (v : Slice) : (s.setSlc n v).segs = s.segs := (rfl)
@[simp] theorem State.setSlc_segGen (n : Nat) (v : Slice) : (s.setSlc n v).segGen = s.segGen := (rfl)
@[simp] theorem State.setSlc_mapCopies (n : Nat) (v : Slice) : (s.setSlc n v).mapCopies = s.mapCopies := (rfl)
@[simp] theorem State.setSlc_stuck (n : Nat) (v : Slice) : (s.setSlc n v).stuck = s.stuck := (rfl)
@[simp] theorem State.setSlc_mem (n : Nat) (v : Slice) : (s.setSlc n v).mem = s.mem := (rfl)
@[simp] theorem State.setSlc_durable (n : Nat) (v : Slice) : (s.setSlc n v).durable = s.durable := (rfl)
@[simp] theorem State.setSlc_poison (n : Nat) (v : Slice) : (s.setSlc n v).poison = s.poison := (rfl)
@[simp] theorem State.setSlc_dseq (n : Nat) (v : Slice) : (s.setSlc n v).dseq = s.dseq := (rfl)
@[simp] theorem State.setSlc_images (n : Nat) (v : Slice) : (s.setSlc n v).images = s.images := (rfl)
@[simp] theorem State.setSlc_queries (n : Nat) (v : Slice) : (s.setSlc n v).queries = s.queries := (rfl)
@[simp] theorem State.setSlc_qidNext (n : Nat) (v : Slice) : (s.setSlc n v).qidNext = s.qidNext := (rfl)
@[simp] theorem State.setSlc_blocks (n : Nat) (v : Slice) : (s.setSlc n v).blocks = s.blocks := (rfl)
@[simp] theorem State.setSlc_rails (n : Nat) (v : Slice) : (s.setSlc n v).rails = s.rails := (rfl)
@[simp] theorem State.setSlc_otherMw (n : Nat) (v : Slice) : (s.setSlc n v).otherMw = s.otherMw := (rfl)

/-! ### onSlc -/

@[simp] theorem State.onSlc_pending (n : Nat) (f : Slice → Slice) : (s.onSlc n f).pending = s.pending := (rfl)
@[simp] theorem State.onSlc_man (n : Nat) (f : Slice → Slice) : (s.onSlc n f).man = s.man := (rfl)
@[simp] theorem State.onSlc_pins (n : Nat) (f : Slice → Slice) : (s.onSlc n f).pins = s.pins := (rfl)
@[simp] theorem State.onSlc_now (n : Nat) (f : Slice → Slice) : (s.onSlc n f).now = s.now := (rfl)
@[simp] theorem State.onSlc_tick (n : Nat) (f : Slice → Slice) : (s.onSlc n f).tick = s.tick := (rfl)
@[simp] theorem State.onSlc_out (n : Nat) (f : Slice → Slice) : (s.onSlc n f).out = s.out := (rfl)
@[simp] theorem State.onSlc_dev (n : Nat) (f : Slice → Slice) : (s.onSlc n f).dev = s.dev := (rfl)
@[simp] theorem State.onSlc_flash (n : Nat) (f : Slice → Slice) : (s.onSlc n f).flash = s.flash := (rfl)
@[simp] theorem State.onSlc_cfg (n : Nat) (f : Slice → Slice) : (s.onSlc n f).cfg = s.cfg := (rfl)
@[simp] theorem State.onSlc_feat (n : Nat) (f : Slice → Slice) : (s.onSlc n f).feat = s.feat := (rfl)
@[simp] theorem State.onSlc_update (n : Nat) (f : Slice → Slice) : (s.onSlc n f).update = s.update := (rfl)
@[simp] theorem State.onSlc_eid (n : Nat) (f : Slice → Slice) : (s.onSlc n f).eid = s.eid := (rfl)
@[simp] theorem State.onSlc_nw (n : Nat) (f : Slice → Slice) : (s.onSlc n f).nw = s.nw := (rfl)
@[simp] theorem State.onSlc_slcSel (n : Nat) (f : Slice → Slice) : (s.onSlc n f).slcSel = s.slcSel := (rfl)
@[simp] theorem State.onSlc_tiles (n : Nat) (f : Slice → Slice) : (s.onSlc n f).tiles = s.tiles := (rfl)
@[simp] theorem State.onSlc_queues (n : Nat) (f : Slice → Slice) : (s.onSlc n f).queues = s.queues := (rfl)
@[simp] theorem State.onSlc_cmds (n : Nat) (f : Slice → Slice) : (s.onSlc n f).cmds = s.cmds := (rfl)
@[simp] theorem State.onSlc_order (n : Nat) (f : Slice → Slice) : (s.onSlc n f).order = s.order := (rfl)
@[simp] theorem State.onSlc_keys (n : Nat) (f : Slice → Slice) : (s.onSlc n f).keys = s.keys := (rfl)
@[simp] theorem State.onSlc_segs (n : Nat) (f : Slice → Slice) : (s.onSlc n f).segs = s.segs := (rfl)
@[simp] theorem State.onSlc_segGen (n : Nat) (f : Slice → Slice) : (s.onSlc n f).segGen = s.segGen := (rfl)
@[simp] theorem State.onSlc_mapCopies (n : Nat) (f : Slice → Slice) : (s.onSlc n f).mapCopies = s.mapCopies := (rfl)
@[simp] theorem State.onSlc_stuck (n : Nat) (f : Slice → Slice) : (s.onSlc n f).stuck = s.stuck := (rfl)
@[simp] theorem State.onSlc_mem (n : Nat) (f : Slice → Slice) : (s.onSlc n f).mem = s.mem := (rfl)
@[simp] theorem State.onSlc_durable (n : Nat) (f : Slice → Slice) : (s.onSlc n f).durable = s.durable := (rfl)
@[simp] theorem State.onSlc_poison (n : Nat) (f : Slice → Slice) : (s.onSlc n f).poison = s.poison := (rfl)
@[simp] theorem State.onSlc_dseq (n : Nat) (f : Slice → Slice) : (s.onSlc n f).dseq = s.dseq := (rfl)
@[simp] theorem State.onSlc_images (n : Nat) (f : Slice → Slice) : (s.onSlc n f).images = s.images := (rfl)
@[simp] theorem State.onSlc_queries (n : Nat) (f : Slice → Slice) : (s.onSlc n f).queries = s.queries := (rfl)
@[simp] theorem State.onSlc_qidNext (n : Nat) (f : Slice → Slice) : (s.onSlc n f).qidNext = s.qidNext := (rfl)
@[simp] theorem State.onSlc_blocks (n : Nat) (f : Slice → Slice) : (s.onSlc n f).blocks = s.blocks := (rfl)
@[simp] theorem State.onSlc_rails (n : Nat) (f : Slice → Slice) : (s.onSlc n f).rails = s.rails := (rfl)
@[simp] theorem State.onSlc_otherMw (n : Nat) (f : Slice → Slice) : (s.onSlc n f).otherMw = s.otherMw := (rfl)

/-! ### setSeg -/

@[simp] theorem State.setSeg_pending (n : Nat) (v : Seg) : (s.setSeg n v).pending = s.pending := (rfl)
@[simp] theorem State.setSeg_man (n : Nat) (v : Seg) : (s.setSeg n v).man = s.man := (rfl)
@[simp] theorem State.setSeg_pins (n : Nat) (v : Seg) : (s.setSeg n v).pins = s.pins := (rfl)
@[simp] theorem State.setSeg_now (n : Nat) (v : Seg) : (s.setSeg n v).now = s.now := (rfl)
@[simp] theorem State.setSeg_tick (n : Nat) (v : Seg) : (s.setSeg n v).tick = s.tick := (rfl)
@[simp] theorem State.setSeg_out (n : Nat) (v : Seg) : (s.setSeg n v).out = s.out := (rfl)
@[simp] theorem State.setSeg_dev (n : Nat) (v : Seg) : (s.setSeg n v).dev = s.dev := (rfl)
@[simp] theorem State.setSeg_flash (n : Nat) (v : Seg) : (s.setSeg n v).flash = s.flash := (rfl)
@[simp] theorem State.setSeg_cfg (n : Nat) (v : Seg) : (s.setSeg n v).cfg = s.cfg := (rfl)
@[simp] theorem State.setSeg_feat (n : Nat) (v : Seg) : (s.setSeg n v).feat = s.feat := (rfl)
@[simp] theorem State.setSeg_update (n : Nat) (v : Seg) : (s.setSeg n v).update = s.update := (rfl)
@[simp] theorem State.setSeg_eid (n : Nat) (v : Seg) : (s.setSeg n v).eid = s.eid := (rfl)
@[simp] theorem State.setSeg_nw (n : Nat) (v : Seg) : (s.setSeg n v).nw = s.nw := (rfl)
@[simp] theorem State.setSeg_slcSel (n : Nat) (v : Seg) : (s.setSeg n v).slcSel = s.slcSel := (rfl)
@[simp] theorem State.setSeg_tiles (n : Nat) (v : Seg) : (s.setSeg n v).tiles = s.tiles := (rfl)
@[simp] theorem State.setSeg_queues (n : Nat) (v : Seg) : (s.setSeg n v).queues = s.queues := (rfl)
@[simp] theorem State.setSeg_cmds (n : Nat) (v : Seg) : (s.setSeg n v).cmds = s.cmds := (rfl)
@[simp] theorem State.setSeg_order (n : Nat) (v : Seg) : (s.setSeg n v).order = s.order := (rfl)
@[simp] theorem State.setSeg_slices (n : Nat) (v : Seg) : (s.setSeg n v).slices = s.slices := (rfl)
@[simp] theorem State.setSeg_keys (n : Nat) (v : Seg) : (s.setSeg n v).keys = s.keys := (rfl)
@[simp] theorem State.setSeg_segGen (n : Nat) (v : Seg) : (s.setSeg n v).segGen = s.segGen := (rfl)
@[simp] theorem State.setSeg_stuck (n : Nat) (v : Seg) : (s.setSeg n v).stuck = s.stuck := (rfl)
@[simp] theorem State.setSeg_mem (n : Nat) (v : Seg) : (s.setSeg n v).mem = s.mem := (rfl)
@[simp] theorem State.setSeg_durable (n : Nat) (v : Seg) : (s.setSeg n v).durable = s.durable := (rfl)
@[simp] theorem State.setSeg_poison (n : Nat) (v : Seg) : (s.setSeg n v).poison = s.poison := (rfl)
@[simp] theorem State.setSeg_dseq (n : Nat) (v : Seg) : (s.setSeg n v).dseq = s.dseq := (rfl)
@[simp] theorem State.setSeg_images (n : Nat) (v : Seg) : (s.setSeg n v).images = s.images := (rfl)
@[simp] theorem State.setSeg_queries (n : Nat) (v : Seg) : (s.setSeg n v).queries = s.queries := (rfl)
@[simp] theorem State.setSeg_qidNext (n : Nat) (v : Seg) : (s.setSeg n v).qidNext = s.qidNext := (rfl)
@[simp] theorem State.setSeg_blocks (n : Nat) (v : Seg) : (s.setSeg n v).blocks = s.blocks := (rfl)
@[simp] theorem State.setSeg_rails (n : Nat) (v : Seg) : (s.setSeg n v).rails = s.rails := (rfl)
@[simp] theorem State.setSeg_otherMw (n : Nat) (v : Seg) : (s.setSeg n v).otherMw = s.otherMw := (rfl)

/-! ### onSeg -/

@[simp] theorem State.onSeg_pending (n : Nat) (f : Seg → Seg) : (s.onSeg n f).pending = s.pending := (rfl)
@[simp] theorem State.onSeg_man (n : Nat) (f : Seg → Seg) : (s.onSeg n f).man = s.man := (rfl)
@[simp] theorem State.onSeg_pins (n : Nat) (f : Seg → Seg) : (s.onSeg n f).pins = s.pins := (rfl)
@[simp] theorem State.onSeg_now (n : Nat) (f : Seg → Seg) : (s.onSeg n f).now = s.now := (rfl)
@[simp] theorem State.onSeg_tick (n : Nat) (f : Seg → Seg) : (s.onSeg n f).tick = s.tick := (rfl)
@[simp] theorem State.onSeg_out (n : Nat) (f : Seg → Seg) : (s.onSeg n f).out = s.out := (rfl)
@[simp] theorem State.onSeg_dev (n : Nat) (f : Seg → Seg) : (s.onSeg n f).dev = s.dev := (rfl)
@[simp] theorem State.onSeg_flash (n : Nat) (f : Seg → Seg) : (s.onSeg n f).flash = s.flash := (rfl)
@[simp] theorem State.onSeg_cfg (n : Nat) (f : Seg → Seg) : (s.onSeg n f).cfg = s.cfg := (rfl)
@[simp] theorem State.onSeg_feat (n : Nat) (f : Seg → Seg) : (s.onSeg n f).feat = s.feat := (rfl)
@[simp] theorem State.onSeg_update (n : Nat) (f : Seg → Seg) : (s.onSeg n f).update = s.update := (rfl)
@[simp] theorem State.onSeg_eid (n : Nat) (f : Seg → Seg) : (s.onSeg n f).eid = s.eid := (rfl)
@[simp] theorem State.onSeg_nw (n : Nat) (f : Seg → Seg) : (s.onSeg n f).nw = s.nw := (rfl)
@[simp] theorem State.onSeg_slcSel (n : Nat) (f : Seg → Seg) : (s.onSeg n f).slcSel = s.slcSel := (rfl)
@[simp] theorem State.onSeg_tiles (n : Nat) (f : Seg → Seg) : (s.onSeg n f).tiles = s.tiles := (rfl)
@[simp] theorem State.onSeg_queues (n : Nat) (f : Seg → Seg) : (s.onSeg n f).queues = s.queues := (rfl)
@[simp] theorem State.onSeg_cmds (n : Nat) (f : Seg → Seg) : (s.onSeg n f).cmds = s.cmds := (rfl)
@[simp] theorem State.onSeg_order (n : Nat) (f : Seg → Seg) : (s.onSeg n f).order = s.order := (rfl)
@[simp] theorem State.onSeg_slices (n : Nat) (f : Seg → Seg) : (s.onSeg n f).slices = s.slices := (rfl)
@[simp] theorem State.onSeg_keys (n : Nat) (f : Seg → Seg) : (s.onSeg n f).keys = s.keys := (rfl)
@[simp] theorem State.onSeg_segGen (n : Nat) (f : Seg → Seg) : (s.onSeg n f).segGen = s.segGen := (rfl)
@[simp] theorem State.onSeg_stuck (n : Nat) (f : Seg → Seg) : (s.onSeg n f).stuck = s.stuck := (rfl)
@[simp] theorem State.onSeg_mem (n : Nat) (f : Seg → Seg) : (s.onSeg n f).mem = s.mem := (rfl)
@[simp] theorem State.onSeg_durable (n : Nat) (f : Seg → Seg) : (s.onSeg n f).durable = s.durable := (rfl)
@[simp] theorem State.onSeg_poison (n : Nat) (f : Seg → Seg) : (s.onSeg n f).poison = s.poison := (rfl)
@[simp] theorem State.onSeg_dseq (n : Nat) (f : Seg → Seg) : (s.onSeg n f).dseq = s.dseq := (rfl)
@[simp] theorem State.onSeg_images (n : Nat) (f : Seg → Seg) : (s.onSeg n f).images = s.images := (rfl)
@[simp] theorem State.onSeg_queries (n : Nat) (f : Seg → Seg) : (s.onSeg n f).queries = s.queries := (rfl)
@[simp] theorem State.onSeg_qidNext (n : Nat) (f : Seg → Seg) : (s.onSeg n f).qidNext = s.qidNext := (rfl)
@[simp] theorem State.onSeg_blocks (n : Nat) (f : Seg → Seg) : (s.onSeg n f).blocks = s.blocks := (rfl)
@[simp] theorem State.onSeg_rails (n : Nat) (f : Seg → Seg) : (s.onSeg n f).rails = s.rails := (rfl)
@[simp] theorem State.onSeg_otherMw (n : Nat) (f : Seg → Seg) : (s.onSeg n f).otherMw = s.otherMw := (rfl)

/-! ### noteSeg -/

@[simp] theorem State.noteSeg_pending (n : Nat) (f : Seg → Seg) : (s.noteSeg n f).pending = s.pending := (rfl)
@[simp] theorem State.noteSeg_man (n : Nat) (f : Seg → Seg) : (s.noteSeg n f).man = s.man := (rfl)
@[simp] theorem State.noteSeg_pins (n : Nat) (f : Seg → Seg) : (s.noteSeg n f).pins = s.pins := (rfl)
@[simp] theorem State.noteSeg_now (n : Nat) (f : Seg → Seg) : (s.noteSeg n f).now = s.now := (rfl)
@[simp] theorem State.noteSeg_tick (n : Nat) (f : Seg → Seg) : (s.noteSeg n f).tick = s.tick := (rfl)
@[simp] theorem State.noteSeg_out (n : Nat) (f : Seg → Seg) : (s.noteSeg n f).out = s.out := (rfl)
@[simp] theorem State.noteSeg_dev (n : Nat) (f : Seg → Seg) : (s.noteSeg n f).dev = s.dev := (rfl)
@[simp] theorem State.noteSeg_flash (n : Nat) (f : Seg → Seg) : (s.noteSeg n f).flash = s.flash := (rfl)
@[simp] theorem State.noteSeg_cfg (n : Nat) (f : Seg → Seg) : (s.noteSeg n f).cfg = s.cfg := (rfl)
@[simp] theorem State.noteSeg_feat (n : Nat) (f : Seg → Seg) : (s.noteSeg n f).feat = s.feat := (rfl)
@[simp] theorem State.noteSeg_update (n : Nat) (f : Seg → Seg) : (s.noteSeg n f).update = s.update := (rfl)
@[simp] theorem State.noteSeg_eid (n : Nat) (f : Seg → Seg) : (s.noteSeg n f).eid = s.eid := (rfl)
@[simp] theorem State.noteSeg_nw (n : Nat) (f : Seg → Seg) : (s.noteSeg n f).nw = s.nw := (rfl)
@[simp] theorem State.noteSeg_slcSel (n : Nat) (f : Seg → Seg) : (s.noteSeg n f).slcSel = s.slcSel := (rfl)
@[simp] theorem State.noteSeg_tiles (n : Nat) (f : Seg → Seg) : (s.noteSeg n f).tiles = s.tiles := (rfl)
@[simp] theorem State.noteSeg_queues (n : Nat) (f : Seg → Seg) : (s.noteSeg n f).queues = s.queues := (rfl)
@[simp] theorem State.noteSeg_cmds (n : Nat) (f : Seg → Seg) : (s.noteSeg n f).cmds = s.cmds := (rfl)
@[simp] theorem State.noteSeg_order (n : Nat) (f : Seg → Seg) : (s.noteSeg n f).order = s.order := (rfl)
@[simp] theorem State.noteSeg_slices (n : Nat) (f : Seg → Seg) : (s.noteSeg n f).slices = s.slices := (rfl)
@[simp] theorem State.noteSeg_keys (n : Nat) (f : Seg → Seg) : (s.noteSeg n f).keys = s.keys := (rfl)
@[simp] theorem State.noteSeg_segGen (n : Nat) (f : Seg → Seg) : (s.noteSeg n f).segGen = s.segGen := (rfl)
@[simp] theorem State.noteSeg_stuck (n : Nat) (f : Seg → Seg) : (s.noteSeg n f).stuck = s.stuck := (rfl)
@[simp] theorem State.noteSeg_mem (n : Nat) (f : Seg → Seg) : (s.noteSeg n f).mem = s.mem := (rfl)
@[simp] theorem State.noteSeg_durable (n : Nat) (f : Seg → Seg) : (s.noteSeg n f).durable = s.durable := (rfl)
@[simp] theorem State.noteSeg_poison (n : Nat) (f : Seg → Seg) : (s.noteSeg n f).poison = s.poison := (rfl)
@[simp] theorem State.noteSeg_dseq (n : Nat) (f : Seg → Seg) : (s.noteSeg n f).dseq = s.dseq := (rfl)
@[simp] theorem State.noteSeg_images (n : Nat) (f : Seg → Seg) : (s.noteSeg n f).images = s.images := (rfl)
@[simp] theorem State.noteSeg_queries (n : Nat) (f : Seg → Seg) : (s.noteSeg n f).queries = s.queries := (rfl)
@[simp] theorem State.noteSeg_qidNext (n : Nat) (f : Seg → Seg) : (s.noteSeg n f).qidNext = s.qidNext := (rfl)
@[simp] theorem State.noteSeg_blocks (n : Nat) (f : Seg → Seg) : (s.noteSeg n f).blocks = s.blocks := (rfl)
@[simp] theorem State.noteSeg_rails (n : Nat) (f : Seg → Seg) : (s.noteSeg n f).rails = s.rails := (rfl)
@[simp] theorem State.noteSeg_otherMw (n : Nat) (f : Seg → Seg) : (s.noteSeg n f).otherMw = s.otherMw := (rfl)
@[simp] theorem State.noteSeg_mapCopies (n : Nat) (f : Seg → Seg) : (s.noteSeg n f).mapCopies = s.mapCopies := (rfl)

/-! ### setBlock -/

@[simp] theorem State.setBlock_pending (b : Nat) (v : Block) : (s.setBlock b v).pending = s.pending := (rfl)
@[simp] theorem State.setBlock_man (b : Nat) (v : Block) : (s.setBlock b v).man = s.man := (rfl)
@[simp] theorem State.setBlock_pins (b : Nat) (v : Block) : (s.setBlock b v).pins = s.pins := (rfl)
@[simp] theorem State.setBlock_now (b : Nat) (v : Block) : (s.setBlock b v).now = s.now := (rfl)
@[simp] theorem State.setBlock_tick (b : Nat) (v : Block) : (s.setBlock b v).tick = s.tick := (rfl)
@[simp] theorem State.setBlock_out (b : Nat) (v : Block) : (s.setBlock b v).out = s.out := (rfl)
@[simp] theorem State.setBlock_dev (b : Nat) (v : Block) : (s.setBlock b v).dev = s.dev := (rfl)
@[simp] theorem State.setBlock_flash (b : Nat) (v : Block) : (s.setBlock b v).flash = s.flash := (rfl)
@[simp] theorem State.setBlock_cfg (b : Nat) (v : Block) : (s.setBlock b v).cfg = s.cfg := (rfl)
@[simp] theorem State.setBlock_feat (b : Nat) (v : Block) : (s.setBlock b v).feat = s.feat := (rfl)
@[simp] theorem State.setBlock_update (b : Nat) (v : Block) : (s.setBlock b v).update = s.update := (rfl)
@[simp] theorem State.setBlock_eid (b : Nat) (v : Block) : (s.setBlock b v).eid = s.eid := (rfl)
@[simp] theorem State.setBlock_nw (b : Nat) (v : Block) : (s.setBlock b v).nw = s.nw := (rfl)
@[simp] theorem State.setBlock_slcSel (b : Nat) (v : Block) : (s.setBlock b v).slcSel = s.slcSel := (rfl)
@[simp] theorem State.setBlock_tiles (b : Nat) (v : Block) : (s.setBlock b v).tiles = s.tiles := (rfl)
@[simp] theorem State.setBlock_queues (b : Nat) (v : Block) : (s.setBlock b v).queues = s.queues := (rfl)
@[simp] theorem State.setBlock_cmds (b : Nat) (v : Block) : (s.setBlock b v).cmds = s.cmds := (rfl)
@[simp] theorem State.setBlock_order (b : Nat) (v : Block) : (s.setBlock b v).order = s.order := (rfl)
@[simp] theorem State.setBlock_slices (b : Nat) (v : Block) : (s.setBlock b v).slices = s.slices := (rfl)
@[simp] theorem State.setBlock_keys (b : Nat) (v : Block) : (s.setBlock b v).keys = s.keys := (rfl)
@[simp] theorem State.setBlock_segs (b : Nat) (v : Block) : (s.setBlock b v).segs = s.segs := (rfl)
@[simp] theorem State.setBlock_segGen (b : Nat) (v : Block) : (s.setBlock b v).segGen = s.segGen := (rfl)
@[simp] theorem State.setBlock_mapCopies (b : Nat) (v : Block) : (s.setBlock b v).mapCopies = s.mapCopies := (rfl)
@[simp] theorem State.setBlock_stuck (b : Nat) (v : Block) : (s.setBlock b v).stuck = s.stuck := (rfl)
@[simp] theorem State.setBlock_mem (b : Nat) (v : Block) : (s.setBlock b v).mem = s.mem := (rfl)
@[simp] theorem State.setBlock_durable (b : Nat) (v : Block) : (s.setBlock b v).durable = s.durable := (rfl)
@[simp] theorem State.setBlock_poison (b : Nat) (v : Block) : (s.setBlock b v).poison = s.poison := (rfl)
@[simp] theorem State.setBlock_dseq (b : Nat) (v : Block) : (s.setBlock b v).dseq = s.dseq := (rfl)
@[simp] theorem State.setBlock_images (b : Nat) (v : Block) : (s.setBlock b v).images = s.images := (rfl)
@[simp] theorem State.setBlock_queries (b : Nat) (v : Block) : (s.setBlock b v).queries = s.queries := (rfl)
@[simp] theorem State.setBlock_qidNext (b : Nat) (v : Block) : (s.setBlock b v).qidNext = s.qidNext := (rfl)
@[simp] theorem State.setBlock_rails (b : Nat) (v : Block) : (s.setBlock b v).rails = s.rails := (rfl)
@[simp] theorem State.setBlock_otherMw (b : Nat) (v : Block) : (s.setBlock b v).otherMw = s.otherMw := (rfl)

/-! ### onCmd -/

@[simp] theorem State.onCmd_pending (c : CmdRef) (f : Cmd → Cmd) : (s.onCmd c f).pending = s.pending := (rfl)
@[simp] theorem State.onCmd_man (c : CmdRef) (f : Cmd → Cmd) : (s.onCmd c f).man = s.man := (rfl)
@[simp] theorem State.onCmd_pins (c : CmdRef) (f : Cmd → Cmd) : (s.onCmd c f).pins = s.pins := (rfl)
@[simp] theorem State.onCmd_now (c : CmdRef) (f : Cmd → Cmd) : (s.onCmd c f).now = s.now := (rfl)
@[simp] theorem State.onCmd_tick (c : CmdRef) (f : Cmd → Cmd) : (s.onCmd c f).tick = s.tick := (rfl)
@[simp] theorem State.onCmd_out (c : CmdRef) (f : Cmd → Cmd) : (s.onCmd c f).out = s.out := (rfl)
@[simp] theorem State.onCmd_dev (c : CmdRef) (f : Cmd → Cmd) : (s.onCmd c f).dev = s.dev := (rfl)
@[simp] theorem State.onCmd_flash (c : CmdRef) (f : Cmd → Cmd) : (s.onCmd c f).flash = s.flash := (rfl)
@[simp] theorem State.onCmd_cfg (c : CmdRef) (f : Cmd → Cmd) : (s.onCmd c f).cfg = s.cfg := (rfl)
@[simp] theorem State.onCmd_feat (c : CmdRef) (f : Cmd → Cmd) : (s.onCmd c f).feat = s.feat := (rfl)
@[simp] theorem State.onCmd_update (c : CmdRef) (f : Cmd → Cmd) : (s.onCmd c f).update = s.update := (rfl)
@[simp] theorem State.onCmd_eid (c : CmdRef) (f : Cmd → Cmd) : (s.onCmd c f).eid = s.eid := (rfl)
@[simp] theorem State.onCmd_nw (c : CmdRef) (f : Cmd → Cmd) : (s.onCmd c f).nw = s.nw := (rfl)
@[simp] theorem State.onCmd_slcSel (c : CmdRef) (f : Cmd → Cmd) : (s.onCmd c f).slcSel = s.slcSel := (rfl)
@[simp] theorem State.onCmd_tiles (c : CmdRef) (f : Cmd → Cmd) : (s.onCmd c f).tiles = s.tiles := (rfl)
@[simp] theorem State.onCmd_queues (c : CmdRef) (f : Cmd → Cmd) : (s.onCmd c f).queues = s.queues := (rfl)
@[simp] theorem State.onCmd_order (c : CmdRef) (f : Cmd → Cmd) : (s.onCmd c f).order = s.order := (rfl)
@[simp] theorem State.onCmd_slices (c : CmdRef) (f : Cmd → Cmd) : (s.onCmd c f).slices = s.slices := (rfl)
@[simp] theorem State.onCmd_keys (c : CmdRef) (f : Cmd → Cmd) : (s.onCmd c f).keys = s.keys := (rfl)
@[simp] theorem State.onCmd_segs (c : CmdRef) (f : Cmd → Cmd) : (s.onCmd c f).segs = s.segs := (rfl)
@[simp] theorem State.onCmd_segGen (c : CmdRef) (f : Cmd → Cmd) : (s.onCmd c f).segGen = s.segGen := (rfl)
@[simp] theorem State.onCmd_mapCopies (c : CmdRef) (f : Cmd → Cmd) : (s.onCmd c f).mapCopies = s.mapCopies := (rfl)
@[simp] theorem State.onCmd_stuck (c : CmdRef) (f : Cmd → Cmd) : (s.onCmd c f).stuck = s.stuck := (rfl)
@[simp] theorem State.onCmd_mem (c : CmdRef) (f : Cmd → Cmd) : (s.onCmd c f).mem = s.mem := (rfl)
@[simp] theorem State.onCmd_durable (c : CmdRef) (f : Cmd → Cmd) : (s.onCmd c f).durable = s.durable := (rfl)
@[simp] theorem State.onCmd_poison (c : CmdRef) (f : Cmd → Cmd) : (s.onCmd c f).poison = s.poison := (rfl)
@[simp] theorem State.onCmd_dseq (c : CmdRef) (f : Cmd → Cmd) : (s.onCmd c f).dseq = s.dseq := (rfl)
@[simp] theorem State.onCmd_images (c : CmdRef) (f : Cmd → Cmd) : (s.onCmd c f).images = s.images := (rfl)
@[simp] theorem State.onCmd_queries (c : CmdRef) (f : Cmd → Cmd) : (s.onCmd c f).queries = s.queries := (rfl)
@[simp] theorem State.onCmd_qidNext (c : CmdRef) (f : Cmd → Cmd) : (s.onCmd c f).qidNext = s.qidNext := (rfl)
@[simp] theorem State.onCmd_blocks (c : CmdRef) (f : Cmd → Cmd) : (s.onCmd c f).blocks = s.blocks := (rfl)
@[simp] theorem State.onCmd_rails (c : CmdRef) (f : Cmd → Cmd) : (s.onCmd c f).rails = s.rails := (rfl)
@[simp] theorem State.onCmd_otherMw (c : CmdRef) (f : Cmd → Cmd) : (s.onCmd c f).otherMw = s.otherMw := (rfl)

/-! ### dropCmd -/

@[simp] theorem State.dropCmd_pending (c : CmdRef) : (s.dropCmd c).pending = s.pending := (rfl)
@[simp] theorem State.dropCmd_man (c : CmdRef) : (s.dropCmd c).man = s.man := (rfl)
@[simp] theorem State.dropCmd_pins (c : CmdRef) : (s.dropCmd c).pins = s.pins := (rfl)
@[simp] theorem State.dropCmd_now (c : CmdRef) : (s.dropCmd c).now = s.now := (rfl)
@[simp] theorem State.dropCmd_tick (c : CmdRef) : (s.dropCmd c).tick = s.tick := (rfl)
@[simp] theorem State.dropCmd_out (c : CmdRef) : (s.dropCmd c).out = s.out := (rfl)
@[simp] theorem State.dropCmd_dev (c : CmdRef) : (s.dropCmd c).dev = s.dev := (rfl)
@[simp] theorem State.dropCmd_flash (c : CmdRef) : (s.dropCmd c).flash = s.flash := (rfl)
@[simp] theorem State.dropCmd_cfg (c : CmdRef) : (s.dropCmd c).cfg = s.cfg := (rfl)
@[simp] theorem State.dropCmd_feat (c : CmdRef) : (s.dropCmd c).feat = s.feat := (rfl)
@[simp] theorem State.dropCmd_update (c : CmdRef) : (s.dropCmd c).update = s.update := (rfl)
@[simp] theorem State.dropCmd_eid (c : CmdRef) : (s.dropCmd c).eid = s.eid := (rfl)
@[simp] theorem State.dropCmd_nw (c : CmdRef) : (s.dropCmd c).nw = s.nw := (rfl)
@[simp] theorem State.dropCmd_slcSel (c : CmdRef) : (s.dropCmd c).slcSel = s.slcSel := (rfl)
@[simp] theorem State.dropCmd_tiles (c : CmdRef) : (s.dropCmd c).tiles = s.tiles := (rfl)
@[simp] theorem State.dropCmd_queues (c : CmdRef) : (s.dropCmd c).queues = s.queues := (rfl)
@[simp] theorem State.dropCmd_order (c : CmdRef) : (s.dropCmd c).order = s.order := (rfl)
@[simp] theorem State.dropCmd_slices (c : CmdRef) : (s.dropCmd c).slices = s.slices := (rfl)
@[simp] theorem State.dropCmd_keys (c : CmdRef) : (s.dropCmd c).keys = s.keys := (rfl)
@[simp] theorem State.dropCmd_segs (c : CmdRef) : (s.dropCmd c).segs = s.segs := (rfl)
@[simp] theorem State.dropCmd_segGen (c : CmdRef) : (s.dropCmd c).segGen = s.segGen := (rfl)
@[simp] theorem State.dropCmd_mapCopies (c : CmdRef) : (s.dropCmd c).mapCopies = s.mapCopies := (rfl)
@[simp] theorem State.dropCmd_stuck (c : CmdRef) : (s.dropCmd c).stuck = s.stuck := (rfl)
@[simp] theorem State.dropCmd_mem (c : CmdRef) : (s.dropCmd c).mem = s.mem := (rfl)
@[simp] theorem State.dropCmd_durable (c : CmdRef) : (s.dropCmd c).durable = s.durable := (rfl)
@[simp] theorem State.dropCmd_poison (c : CmdRef) : (s.dropCmd c).poison = s.poison := (rfl)
@[simp] theorem State.dropCmd_dseq (c : CmdRef) : (s.dropCmd c).dseq = s.dseq := (rfl)
@[simp] theorem State.dropCmd_images (c : CmdRef) : (s.dropCmd c).images = s.images := (rfl)
@[simp] theorem State.dropCmd_queries (c : CmdRef) : (s.dropCmd c).queries = s.queries := (rfl)
@[simp] theorem State.dropCmd_qidNext (c : CmdRef) : (s.dropCmd c).qidNext = s.qidNext := (rfl)
@[simp] theorem State.dropCmd_blocks (c : CmdRef) : (s.dropCmd c).blocks = s.blocks := (rfl)
@[simp] theorem State.dropCmd_rails (c : CmdRef) : (s.dropCmd c).rails = s.rails := (rfl)
@[simp] theorem State.dropCmd_otherMw (c : CmdRef) : (s.dropCmd c).otherMw = s.otherMw := (rfl)

/-! ### onQuery -/

@[simp] theorem State.onQuery_pending (n : Nat) (f : Query → Query) : (s.onQuery n f).pending = s.pending := (rfl)
@[simp] theorem State.onQuery_man (n : Nat) (f : Query → Query) : (s.onQuery n f).man = s.man := (rfl)
@[simp] theorem State.onQuery_pins (n : Nat) (f : Query → Query) : (s.onQuery n f).pins = s.pins := (rfl)
@[simp] theorem State.onQuery_now (n : Nat) (f : Query → Query) : (s.onQuery n f).now = s.now := (rfl)
@[simp] theorem State.onQuery_tick (n : Nat) (f : Query → Query) : (s.onQuery n f).tick = s.tick := (rfl)
@[simp] theorem State.onQuery_out (n : Nat) (f : Query → Query) : (s.onQuery n f).out = s.out := (rfl)
@[simp] theorem State.onQuery_dev (n : Nat) (f : Query → Query) : (s.onQuery n f).dev = s.dev := (rfl)
@[simp] theorem State.onQuery_flash (n : Nat) (f : Query → Query) : (s.onQuery n f).flash = s.flash := (rfl)
@[simp] theorem State.onQuery_cfg (n : Nat) (f : Query → Query) : (s.onQuery n f).cfg = s.cfg := (rfl)
@[simp] theorem State.onQuery_feat (n : Nat) (f : Query → Query) : (s.onQuery n f).feat = s.feat := (rfl)
@[simp] theorem State.onQuery_update (n : Nat) (f : Query → Query) : (s.onQuery n f).update = s.update := (rfl)
@[simp] theorem State.onQuery_eid (n : Nat) (f : Query → Query) : (s.onQuery n f).eid = s.eid := (rfl)
@[simp] theorem State.onQuery_nw (n : Nat) (f : Query → Query) : (s.onQuery n f).nw = s.nw := (rfl)
@[simp] theorem State.onQuery_slcSel (n : Nat) (f : Query → Query) : (s.onQuery n f).slcSel = s.slcSel := (rfl)
@[simp] theorem State.onQuery_tiles (n : Nat) (f : Query → Query) : (s.onQuery n f).tiles = s.tiles := (rfl)
@[simp] theorem State.onQuery_queues (n : Nat) (f : Query → Query) : (s.onQuery n f).queues = s.queues := (rfl)
@[simp] theorem State.onQuery_cmds (n : Nat) (f : Query → Query) : (s.onQuery n f).cmds = s.cmds := (rfl)
@[simp] theorem State.onQuery_order (n : Nat) (f : Query → Query) : (s.onQuery n f).order = s.order := (rfl)
@[simp] theorem State.onQuery_slices (n : Nat) (f : Query → Query) : (s.onQuery n f).slices = s.slices := (rfl)
@[simp] theorem State.onQuery_keys (n : Nat) (f : Query → Query) : (s.onQuery n f).keys = s.keys := (rfl)
@[simp] theorem State.onQuery_segs (n : Nat) (f : Query → Query) : (s.onQuery n f).segs = s.segs := (rfl)
@[simp] theorem State.onQuery_segGen (n : Nat) (f : Query → Query) : (s.onQuery n f).segGen = s.segGen := (rfl)
@[simp] theorem State.onQuery_mapCopies (n : Nat) (f : Query → Query) : (s.onQuery n f).mapCopies = s.mapCopies := (rfl)
@[simp] theorem State.onQuery_stuck (n : Nat) (f : Query → Query) : (s.onQuery n f).stuck = s.stuck := (rfl)
@[simp] theorem State.onQuery_mem (n : Nat) (f : Query → Query) : (s.onQuery n f).mem = s.mem := (rfl)
@[simp] theorem State.onQuery_durable (n : Nat) (f : Query → Query) : (s.onQuery n f).durable = s.durable := (rfl)
@[simp] theorem State.onQuery_poison (n : Nat) (f : Query → Query) : (s.onQuery n f).poison = s.poison := (rfl)
@[simp] theorem State.onQuery_dseq (n : Nat) (f : Query → Query) : (s.onQuery n f).dseq = s.dseq := (rfl)
@[simp] theorem State.onQuery_images (n : Nat) (f : Query → Query) : (s.onQuery n f).images = s.images := (rfl)
@[simp] theorem State.onQuery_qidNext (n : Nat) (f : Query → Query) : (s.onQuery n f).qidNext = s.qidNext := (rfl)
@[simp] theorem State.onQuery_blocks (n : Nat) (f : Query → Query) : (s.onQuery n f).blocks = s.blocks := (rfl)
@[simp] theorem State.onQuery_rails (n : Nat) (f : Query → Query) : (s.onQuery n f).rails = s.rails := (rfl)
@[simp] theorem State.onQuery_otherMw (n : Nat) (f : Query → Query) : (s.onQuery n f).otherMw = s.otherMw := (rfl)

/-! ### emit -/

@[simp] theorem State.emit_pending (o : Out) : (s.emit o).pending = s.pending := (rfl)
@[simp] theorem State.emit_man (o : Out) : (s.emit o).man = s.man := (rfl)
@[simp] theorem State.emit_pins (o : Out) : (s.emit o).pins = s.pins := (rfl)
@[simp] theorem State.emit_now (o : Out) : (s.emit o).now = s.now := (rfl)
@[simp] theorem State.emit_tick (o : Out) : (s.emit o).tick = s.tick := (rfl)
@[simp] theorem State.emit_dev (o : Out) : (s.emit o).dev = s.dev := (rfl)
@[simp] theorem State.emit_flash (o : Out) : (s.emit o).flash = s.flash := (rfl)
@[simp] theorem State.emit_cfg (o : Out) : (s.emit o).cfg = s.cfg := (rfl)
@[simp] theorem State.emit_feat (o : Out) : (s.emit o).feat = s.feat := (rfl)
@[simp] theorem State.emit_update (o : Out) : (s.emit o).update = s.update := (rfl)
@[simp] theorem State.emit_eid (o : Out) : (s.emit o).eid = s.eid := (rfl)
@[simp] theorem State.emit_nw (o : Out) : (s.emit o).nw = s.nw := (rfl)
@[simp] theorem State.emit_slcSel (o : Out) : (s.emit o).slcSel = s.slcSel := (rfl)
@[simp] theorem State.emit_tiles (o : Out) : (s.emit o).tiles = s.tiles := (rfl)
@[simp] theorem State.emit_queues (o : Out) : (s.emit o).queues = s.queues := (rfl)
@[simp] theorem State.emit_cmds (o : Out) : (s.emit o).cmds = s.cmds := (rfl)
@[simp] theorem State.emit_order (o : Out) : (s.emit o).order = s.order := (rfl)
@[simp] theorem State.emit_slices (o : Out) : (s.emit o).slices = s.slices := (rfl)
@[simp] theorem State.emit_keys (o : Out) : (s.emit o).keys = s.keys := (rfl)
@[simp] theorem State.emit_segs (o : Out) : (s.emit o).segs = s.segs := (rfl)
@[simp] theorem State.emit_segGen (o : Out) : (s.emit o).segGen = s.segGen := (rfl)
@[simp] theorem State.emit_mapCopies (o : Out) : (s.emit o).mapCopies = s.mapCopies := (rfl)
@[simp] theorem State.emit_stuck (o : Out) : (s.emit o).stuck = s.stuck := (rfl)
@[simp] theorem State.emit_mem (o : Out) : (s.emit o).mem = s.mem := (rfl)
@[simp] theorem State.emit_durable (o : Out) : (s.emit o).durable = s.durable := (rfl)
@[simp] theorem State.emit_poison (o : Out) : (s.emit o).poison = s.poison := (rfl)
@[simp] theorem State.emit_dseq (o : Out) : (s.emit o).dseq = s.dseq := (rfl)
@[simp] theorem State.emit_images (o : Out) : (s.emit o).images = s.images := (rfl)
@[simp] theorem State.emit_queries (o : Out) : (s.emit o).queries = s.queries := (rfl)
@[simp] theorem State.emit_qidNext (o : Out) : (s.emit o).qidNext = s.qidNext := (rfl)
@[simp] theorem State.emit_blocks (o : Out) : (s.emit o).blocks = s.blocks := (rfl)
@[simp] theorem State.emit_rails (o : Out) : (s.emit o).rails = s.rails := (rfl)
@[simp] theorem State.emit_otherMw (o : Out) : (s.emit o).otherMw = s.otherMw := (rfl)

/-! ### emitAll -/

@[simp] theorem State.emitAll_pending (o : List Out) : (s.emitAll o).pending = s.pending := (rfl)
@[simp] theorem State.emitAll_man (o : List Out) : (s.emitAll o).man = s.man := (rfl)
@[simp] theorem State.emitAll_pins (o : List Out) : (s.emitAll o).pins = s.pins := (rfl)
@[simp] theorem State.emitAll_now (o : List Out) : (s.emitAll o).now = s.now := (rfl)
@[simp] theorem State.emitAll_tick (o : List Out) : (s.emitAll o).tick = s.tick := (rfl)
@[simp] theorem State.emitAll_dev (o : List Out) : (s.emitAll o).dev = s.dev := (rfl)
@[simp] theorem State.emitAll_flash (o : List Out) : (s.emitAll o).flash = s.flash := (rfl)
@[simp] theorem State.emitAll_cfg (o : List Out) : (s.emitAll o).cfg = s.cfg := (rfl)
@[simp] theorem State.emitAll_feat (o : List Out) : (s.emitAll o).feat = s.feat := (rfl)
@[simp] theorem State.emitAll_update (o : List Out) : (s.emitAll o).update = s.update := (rfl)
@[simp] theorem State.emitAll_eid (o : List Out) : (s.emitAll o).eid = s.eid := (rfl)
@[simp] theorem State.emitAll_nw (o : List Out) : (s.emitAll o).nw = s.nw := (rfl)
@[simp] theorem State.emitAll_slcSel (o : List Out) : (s.emitAll o).slcSel = s.slcSel := (rfl)
@[simp] theorem State.emitAll_tiles (o : List Out) : (s.emitAll o).tiles = s.tiles := (rfl)
@[simp] theorem State.emitAll_queues (o : List Out) : (s.emitAll o).queues = s.queues := (rfl)
@[simp] theorem State.emitAll_cmds (o : List Out) : (s.emitAll o).cmds = s.cmds := (rfl)
@[simp] theorem State.emitAll_order (o : List Out) : (s.emitAll o).order = s.order := (rfl)
@[simp] theorem State.emitAll_slices (o : List Out) : (s.emitAll o).slices = s.slices := (rfl)
@[simp] theorem State.emitAll_keys (o : List Out) : (s.emitAll o).keys = s.keys := (rfl)
@[simp] theorem State.emitAll_segs (o : List Out) : (s.emitAll o).segs = s.segs := (rfl)
@[simp] theorem State.emitAll_segGen (o : List Out) : (s.emitAll o).segGen = s.segGen := (rfl)
@[simp] theorem State.emitAll_mapCopies (o : List Out) : (s.emitAll o).mapCopies = s.mapCopies := (rfl)
@[simp] theorem State.emitAll_stuck (o : List Out) : (s.emitAll o).stuck = s.stuck := (rfl)
@[simp] theorem State.emitAll_mem (o : List Out) : (s.emitAll o).mem = s.mem := (rfl)
@[simp] theorem State.emitAll_durable (o : List Out) : (s.emitAll o).durable = s.durable := (rfl)
@[simp] theorem State.emitAll_poison (o : List Out) : (s.emitAll o).poison = s.poison := (rfl)
@[simp] theorem State.emitAll_dseq (o : List Out) : (s.emitAll o).dseq = s.dseq := (rfl)
@[simp] theorem State.emitAll_images (o : List Out) : (s.emitAll o).images = s.images := (rfl)
@[simp] theorem State.emitAll_queries (o : List Out) : (s.emitAll o).queries = s.queries := (rfl)
@[simp] theorem State.emitAll_qidNext (o : List Out) : (s.emitAll o).qidNext = s.qidNext := (rfl)
@[simp] theorem State.emitAll_blocks (o : List Out) : (s.emitAll o).blocks = s.blocks := (rfl)
@[simp] theorem State.emitAll_rails (o : List Out) : (s.emitAll o).rails = s.rails := (rfl)
@[simp] theorem State.emitAll_otherMw (o : List Out) : (s.emitAll o).otherMw = s.otherMw := (rfl)

/-! ### bump -/

@[simp] theorem State.bump_pending : (s.bump).pending = s.pending := (rfl)
@[simp] theorem State.bump_man : (s.bump).man = s.man := (rfl)
@[simp] theorem State.bump_pins : (s.bump).pins = s.pins := (rfl)
@[simp] theorem State.bump_now : (s.bump).now = s.now := (rfl)
@[simp] theorem State.bump_out : (s.bump).out = s.out := (rfl)
@[simp] theorem State.bump_dev : (s.bump).dev = s.dev := (rfl)
@[simp] theorem State.bump_flash : (s.bump).flash = s.flash := (rfl)
@[simp] theorem State.bump_cfg : (s.bump).cfg = s.cfg := (rfl)
@[simp] theorem State.bump_feat : (s.bump).feat = s.feat := (rfl)
@[simp] theorem State.bump_update : (s.bump).update = s.update := (rfl)
@[simp] theorem State.bump_eid : (s.bump).eid = s.eid := (rfl)
@[simp] theorem State.bump_nw : (s.bump).nw = s.nw := (rfl)
@[simp] theorem State.bump_slcSel : (s.bump).slcSel = s.slcSel := (rfl)
@[simp] theorem State.bump_tiles : (s.bump).tiles = s.tiles := (rfl)
@[simp] theorem State.bump_queues : (s.bump).queues = s.queues := (rfl)
@[simp] theorem State.bump_cmds : (s.bump).cmds = s.cmds := (rfl)
@[simp] theorem State.bump_order : (s.bump).order = s.order := (rfl)
@[simp] theorem State.bump_slices : (s.bump).slices = s.slices := (rfl)
@[simp] theorem State.bump_keys : (s.bump).keys = s.keys := (rfl)
@[simp] theorem State.bump_segs : (s.bump).segs = s.segs := (rfl)
@[simp] theorem State.bump_segGen : (s.bump).segGen = s.segGen := (rfl)
@[simp] theorem State.bump_mapCopies : (s.bump).mapCopies = s.mapCopies := (rfl)
@[simp] theorem State.bump_stuck : (s.bump).stuck = s.stuck := (rfl)
@[simp] theorem State.bump_mem : (s.bump).mem = s.mem := (rfl)
@[simp] theorem State.bump_durable : (s.bump).durable = s.durable := (rfl)
@[simp] theorem State.bump_poison : (s.bump).poison = s.poison := (rfl)
@[simp] theorem State.bump_dseq : (s.bump).dseq = s.dseq := (rfl)
@[simp] theorem State.bump_images : (s.bump).images = s.images := (rfl)
@[simp] theorem State.bump_queries : (s.bump).queries = s.queries := (rfl)
@[simp] theorem State.bump_qidNext : (s.bump).qidNext = s.qidNext := (rfl)
@[simp] theorem State.bump_blocks : (s.bump).blocks = s.blocks := (rfl)
@[simp] theorem State.bump_rails : (s.bump).rails = s.rails := (rfl)
@[simp] theorem State.bump_otherMw : (s.bump).otherMw = s.otherMw := (rfl)

/-! ### require -/

@[simp] theorem State.require_pending (c : Change) : (s.require c).pending = s.pending := (rfl)
@[simp] theorem State.require_man (c : Change) : (s.require c).man = s.man := (rfl)
@[simp] theorem State.require_pins (c : Change) : (s.require c).pins = s.pins := (rfl)
@[simp] theorem State.require_now (c : Change) : (s.require c).now = s.now := (rfl)
@[simp] theorem State.require_tick (c : Change) : (s.require c).tick = s.tick := (rfl)
@[simp] theorem State.require_out (c : Change) : (s.require c).out = s.out := (rfl)
@[simp] theorem State.require_flash (c : Change) : (s.require c).flash = s.flash := (rfl)
@[simp] theorem State.require_cfg (c : Change) : (s.require c).cfg = s.cfg := (rfl)
@[simp] theorem State.require_feat (c : Change) : (s.require c).feat = s.feat := (rfl)
@[simp] theorem State.require_update (c : Change) : (s.require c).update = s.update := (rfl)
@[simp] theorem State.require_eid (c : Change) : (s.require c).eid = s.eid := (rfl)
@[simp] theorem State.require_nw (c : Change) : (s.require c).nw = s.nw := (rfl)
@[simp] theorem State.require_slcSel (c : Change) : (s.require c).slcSel = s.slcSel := (rfl)
@[simp] theorem State.require_tiles (c : Change) : (s.require c).tiles = s.tiles := (rfl)
@[simp] theorem State.require_queues (c : Change) : (s.require c).queues = s.queues := (rfl)
@[simp] theorem State.require_cmds (c : Change) : (s.require c).cmds = s.cmds := (rfl)
@[simp] theorem State.require_order (c : Change) : (s.require c).order = s.order := (rfl)
@[simp] theorem State.require_slices (c : Change) : (s.require c).slices = s.slices := (rfl)
@[simp] theorem State.require_keys (c : Change) : (s.require c).keys = s.keys := (rfl)
@[simp] theorem State.require_segs (c : Change) : (s.require c).segs = s.segs := (rfl)
@[simp] theorem State.require_segGen (c : Change) : (s.require c).segGen = s.segGen := (rfl)
@[simp] theorem State.require_mapCopies (c : Change) : (s.require c).mapCopies = s.mapCopies := (rfl)
@[simp] theorem State.require_stuck (c : Change) : (s.require c).stuck = s.stuck := (rfl)
@[simp] theorem State.require_mem (c : Change) : (s.require c).mem = s.mem := (rfl)
@[simp] theorem State.require_durable (c : Change) : (s.require c).durable = s.durable := (rfl)
@[simp] theorem State.require_poison (c : Change) : (s.require c).poison = s.poison := (rfl)
@[simp] theorem State.require_dseq (c : Change) : (s.require c).dseq = s.dseq := (rfl)
@[simp] theorem State.require_images (c : Change) : (s.require c).images = s.images := (rfl)
@[simp] theorem State.require_queries (c : Change) : (s.require c).queries = s.queries := (rfl)
@[simp] theorem State.require_qidNext (c : Change) : (s.require c).qidNext = s.qidNext := (rfl)
@[simp] theorem State.require_blocks (c : Change) : (s.require c).blocks = s.blocks := (rfl)
@[simp] theorem State.require_rails (c : Change) : (s.require c).rails = s.rails := (rfl)
@[simp] theorem State.require_otherMw (c : Change) : (s.require c).otherMw = s.otherMw := (rfl)

/-! ### What an update writes -/

@[simp] theorem State.onTile_tile (t : TileId) (f : Tile → Tile) : (s.onTile t f).tile t = f (s.tile t) := by
  simp [State.onTile, State.tile]

theorem State.onTile_tile_ne {t u : TileId} (h : u ≠ t) (f : Tile → Tile) : (s.onTile t f).tile u = s.tile u := by
  have : ¬ t.val = u.val := fun e => h (Fin.ext e).symm
  simp [State.onTile, State.tile, this]

@[simp] theorem State.emit_out (o : Out) : (s.emit o).out = s.out ++ [o] := (rfl)
@[simp] theorem State.emitAll_out (o : List Out) : (s.emitAll o).out = s.out ++ o := (rfl)
@[simp] theorem State.bump_tick : s.bump.tick = s.tick + 1 := (rfl)
@[simp] theorem State.require_waiting (c : Change) : (s.require c).dev.waiting = s.dev.waiting ++ [c] := (rfl)

end Sys2Proof.Machine
end

