-- ==== Sys2Proof/Laws/Finish.lean ====
section
/-! SUPPORT. What it means that a command runs, and what forming its completion does (R79, R102): the lemmas that the proofs about
command rows cite instead of unfolding `finish`. -/

namespace Sys2Proof.Machine

theorem running?_cmd {s : State} {c : CmdRef} {x : Cmd} (h : s.running? c = some x) : s.cmd? c = some x := by
  unfold State.running? at h
  split at h
  · split at h
    · simp_all
    · cases h
  · cases h

theorem runningOp?_cmd {s : State} {c : CmdRef} {op : Nat} {x : Cmd} (h : s.runningOp? c op = some x) : s.cmd? c = some x := by
  unfold State.runningOp? at h
  split at h
  · split at h
    · exact running?_cmd (by simp_all)
    · cases h
  · cases h

theorem fresh?_running {s : State} {c : CmdRef} {op : Nat} {x : Cmd} (h : s.fresh? c op = some x) : s.runningOp? c op = some x := by
  unfold State.fresh? at h
  split at h
  · split at h
    · simp_all
    · cases h
  · cases h

theorem fresh?_cmd {s : State} {c : CmdRef} {op : Nat} {x : Cmd} (h : s.fresh? c op = some x) : s.cmd? c = some x :=
  runningOp?_cmd (fresh?_running h)

/-- A command is found under its own reference. -/
theorem cmd?_ref {s : State} {c : CmdRef} {x : Cmd} (h : s.cmd? c = some x) : x.ref = c := by
  unfold State.cmd? at h
  simpa using List.find?_some h

theorem progOp?_cmd {s : State} {c : CmdRef} {op : Nat} {p : Prog} (h : s.progOp? c op = some p) :
    ∃ x, s.cmd? c = some x ∧ s.runningOp? c op = some x ∧ x.prog = p := by
  unfold State.progOp? at h
  cases hx : s.runningOp? c op with
  | none => simp [hx] at h
  | some x => exact ⟨x, runningOp?_cmd hx, rfl, by simpa [hx] using h⟩

/-- A completion whose status has no event of its own is formed and changes nothing else. -/
theorem finish_quiet {s : State} {c : CmdRef} {x : Cmd} {k : Completion} (h : s.cmd? c = some x) (hk : statusEvent k.status = none) :
    s.finish c k = s.formed c k := by
  simp only [State.finish, State.formed, h, hk]
  split
  · rfl
  · next e _ => cases e
  · rfl

/-- Success forms the completion with its result bytes and changes nothing else. -/
theorem succeed_formed {s : State} {c : CmdRef} {x : Cmd} (r : List Byte) (h : s.cmd? c = some x) :
    s.succeed c r = s.formed c { result := r } :=
  finish_quiet h (by show statusEvent 0 = none; decide)

/-- A command that does not run changes nothing. -/
theorem finish_none {s : State} {c : CmdRef} (k : Completion) (h : s.cmd? c = none) : s.finish c k = s := by
  simp [State.finish, h]

end Sys2Proof.Machine
end

