-- ==== Sys2Proof/Laws/Tables.lean ====
section
/-! SUPPORT. The laws of sparse tables and memories: every operation keeps the canonical form, and a read after a write. -/

namespace Sys2Proof.Machine

variable {α : Type}

/-- Every key of a table lies above a bound. -/
def tblAbove (n : Nat) (t : Tbl α) : Prop := ∀ e ∈ t, n < e.1

theorem tblWf_cons {a : Nat} {v : α} {r : Tbl α} : tblWf ((a, v) :: r) = true ↔ tblAbove a r ∧ tblWf r = true := by
  induction r generalizing a v with
  | nil => simp [tblWf, tblAbove]
  | cons e r ih =>
    obtain ⟨b, w⟩ := e
    simp only [tblWf, Bool.and_eq_true, decide_eq_true_eq]
    constructor
    · rintro ⟨h, hr⟩
      refine ⟨?_, hr⟩
      intro e he
      rcases List.mem_cons.1 he with rfl | he
      · exact h
      · exact Nat.lt_trans h ((ih.1 hr).1 e he)
    · rintro ⟨h, hr⟩
      exact ⟨h (b, w) (by simp), hr⟩

@[simp] theorem tblWf_nil : tblWf ([] : Tbl α) = true := rfl

theorem tblPut_mem {t : Tbl α} {k : Nat} {v : α} {e : Nat × α} (h : e ∈ tblPut t k v) : e = (k, v) ∨ e ∈ t := by
  induction t with
  | nil => simpa [tblPut] using h
  | cons a r ih =>
    obtain ⟨j, w⟩ := a
    simp only [tblPut] at h
    split at h
    · simpa using h
    · split at h
      · rcases List.mem_cons.1 h with h | h
        · exact .inl h
        · exact .inr (List.mem_cons_of_mem _ h)
      · rcases List.mem_cons.1 h with h | h
        · exact .inr (h ▸ List.mem_cons_self)
        · rcases ih h with h | h
          · exact .inl h
          · exact .inr (List.mem_cons_of_mem _ h)

theorem tblPut_wf {t : Tbl α} (h : tblWf t = true) (k : Nat) (v : α) : tblWf (tblPut t k v) = true := by
  induction t with
  | nil => rfl
  | cons a r ih =>
    obtain ⟨j, w⟩ := a
    have hc := tblWf_cons.1 h
    simp only [tblPut]
    split
    · rename_i hk
      refine tblWf_cons.2 ⟨?_, h⟩
      intro e he
      rcases List.mem_cons.1 he with rfl | he
      · exact hk
      · exact Nat.lt_trans hk (hc.1 e he)
    · split
      · rename_i hk
        exact tblWf_cons.2 ⟨hk ▸ hc.1, hc.2⟩
      · refine tblWf_cons.2 ⟨?_, ih hc.2⟩
        intro e he
        rcases tblPut_mem he with rfl | he
        · simp only; omega
        · exact hc.1 e he

theorem tblFilter_wf {t : Tbl α} (h : tblWf t = true) (p : Nat × α → Bool) : tblWf (t.filter p) = true := by
  induction t with
  | nil => rfl
  | cons a r ih =>
    have hc := tblWf_cons.1 h
    simp only [List.filter_cons]
    split
    · exact tblWf_cons.2 ⟨fun e he => hc.1 e (List.mem_filter.1 he).1, ih hc.2⟩
    · exact ih hc.2

theorem tblDel_wf {t : Tbl α} (h : tblWf t = true) (k : Nat) : tblWf (tblDel t k) = true := tblFilter_wf h _

theorem tblSet_wf [DecidableEq α] {d : α} {t : Tbl α} (h : tblWf t = true) (k : Nat) (v : α) : tblWf (tblSet d t k v) = true := by
  unfold tblSet
  split
  · exact tblDel_wf h k
  · exact tblPut_wf h k v

theorem tblFind_above {n k : Nat} {t : Tbl α} (h : tblAbove n t) (hk : k ≤ n) : tblFind t k = none := by
  induction t with
  | nil => rfl
  | cons a r ih =>
    obtain ⟨b, w⟩ := a
    have hb : n < b := h (b, w) (by simp)
    have : b ≠ k := by omega
    simp only [tblFind, this, if_false]
    exact ih fun e he => h e (List.mem_cons_of_mem _ he)

theorem tblFind_filter (t : Tbl α) (p : Nat → Bool) (j : Nat) :
    tblFind (t.filter fun e => p e.1) j = if p j then tblFind t j else none := by
  induction t with
  | nil => simp [tblFind]
  | cons a r ih =>
    obtain ⟨b, w⟩ := a
    by_cases hp : p b = true
    · rw [List.filter_cons_of_pos (by simpa using hp)]
      by_cases hb : b = j
      · subst hb; simp [tblFind, hp]
      · simp only [tblFind, hb, if_false, ih]
    · rw [List.filter_cons_of_neg (by simpa using hp), ih]
      by_cases hb : b = j
      · subst hb; simp [hp]
      · simp only [tblFind, hb, if_false]

/-- A table read at a key just written gives the value written, whatever the table's form is. -/
theorem tblFind_put_self (t : Tbl α) (k : Nat) (v : α) : tblFind (tblPut t k v) k = some v := by
  induction t with
  | nil => simp [tblPut, tblFind]
  | cons a r ih =>
    obtain ⟨b, w⟩ := a
    simp only [tblPut]
    split
    · simp [tblFind]
    · split
      · simp [tblFind]
      · rename_i hb; simp only [tblFind]; rw [if_neg (fun e => hb e.symm)]; exact ih

theorem tblFind_del_self (t : Tbl α) (k : Nat) : tblFind (tblDel t k) k = none := by
  have e : tblDel t k = t.filter fun e => decide (e.1 ≠ k) := rfl
  rw [e, tblFind_filter t (fun i => decide (i ≠ k)) k]; simp

@[simp] theorem tblGet_set_self [DecidableEq α] (d : α) (t : Tbl α) (k : Nat) (v : α) : tblGet (tblSet d t k v) k d = v := by
  unfold tblSet tblGet
  split
  · rename_i h; simp [tblFind_del_self, h]
  · simp [tblFind_put_self]

theorem tblFind_put_ne (t : Tbl α) {k j : Nat} (h : j ≠ k) (v : α) : tblFind (tblPut t k v) j = tblFind t j := by
  have h' : ¬k = j := fun e => h e.symm
  induction t with
  | nil => simp only [tblPut, tblFind, h', if_false]
  | cons a r ih =>
    obtain ⟨b, w⟩ := a
    simp only [tblPut]
    split
    · simp only [tblFind, h', if_false]
    · split
      · rename_i hb; subst hb; simp only [tblFind, h', if_false]
      · simp only [tblFind, ih]

theorem tblFind_put (t : Tbl α) (k : Nat) (v : α) (j : Nat) : tblFind (tblPut t k v) j = if j = k then some v else tblFind t j := by
  by_cases h : j = k
  · subst h; simp [tblFind_put_self]
  · simp [tblFind_put_ne t h, h]

theorem tblGet_set_ne [DecidableEq α] (d : α) (t : Tbl α) {k j : Nat} (h : j ≠ k) (v : α) :
    tblGet (tblSet d t k v) j d = tblGet t j d := by
  unfold tblSet tblGet
  split
  · have e : tblDel t k = t.filter fun e => decide (e.1 ≠ k) := rfl
    rw [e, tblFind_filter t (fun i => decide (i ≠ k)) j]; simp [h]
  · rw [tblFind_put_ne t h]

/-! ### Memories -/

@[simp] theorem Memory.wf_nil : Memory.wf [] = true := rfl

@[simp] theorem memWrite_wf {m : Mem} (h : Memory.wf m = true) (a : Nat) (b : Byte) : Memory.wf (memWrite m a b) = true := tblPut_wf h a b

@[simp] theorem memWriteBytes_wf {m : Mem} (h : Memory.wf m = true) (a : Nat) (bs : List Byte) :
    Memory.wf (memWriteBytes m a bs) = true := by
  induction bs generalizing m a with
  | nil => exact h
  | cons b bs ih => exact ih (memWrite_wf h a b) (a + 1)

@[simp] theorem memErase_wf {m : Mem} (h : Memory.wf m = true) (lo n : Nat) : Memory.wf (memErase m lo n) = true := tblFilter_wf h _

@[simp] theorem memFilter_wf {m : Mem} (h : Memory.wf m = true) (p : Nat × Byte → Bool) : Memory.wf (m.filter p) = true := tblFilter_wf h p

@[simp] theorem memWriteCells_wf {m : Mem} (h : Memory.wf m = true) (cs : List (Nat × Byte)) :
    Memory.wf (cs.foldl (fun m c => memWrite m c.1 c.2) m) = true := by
  induction cs generalizing m with
  | nil => exact h
  | cons c cs ih => exact ih (memWrite_wf h c.1 c.2)

@[simp] theorem memWriteCellsr_wf {m : Mem} (h : Memory.wf m = true) (cs : List (Nat × Byte)) :
    Memory.wf (cs.foldr (fun c m => memWrite m c.1 c.2) m) = true := by
  induction cs with
  | nil => exact h
  | cons c cs ih => exact memWrite_wf ih c.1 c.2

theorem memRead_write (m : Mem) (a : Nat) (b : Byte) (j : Nat) :
    memRead (memWrite m a b) j = if j = a then some b else memRead m j := by
  by_cases h : j = a
  · subst h; simp [memRead, memWrite, tblFind_put_self]
  · simp [memRead, memWrite, tblFind_put_ne m h, h]

theorem memRead_writeBytes_out (m : Mem) (a : Nat) (bs : List Byte) {j : Nat} (h : j < a ∨ a + bs.length ≤ j) :
    memRead (memWriteBytes m a bs) j = memRead m j := by
  induction bs generalizing m a with
  | nil => rfl
  | cons b bs ih =>
    simp only [List.length_cons] at h
    have hj : j ≠ a := by omega
    simp only [memWriteBytes]
    rw [ih (memWrite m a b) (a + 1) (by omega), memRead_write, if_neg hj]

theorem memRead_writeBytes_in (m : Mem) (a : Nat) (bs : List Byte) {i : Nat} (h : i < bs.length) :
    memRead (memWriteBytes m a bs) (a + i) = some bs[i] := by
  induction bs generalizing m a i with
  | nil => simp at h
  | cons b bs ih =>
    simp only [memWriteBytes]
    cases i with
    | zero =>
      rw [memRead_writeBytes_out _ _ _ (by omega), memRead_write]
      simp
    | succ i =>
      have e : a + (i + 1) = (a + 1) + i := by omega
      rw [e, ih (memWrite m a b) (a + 1) (by simpa using h)]
      simp

theorem memRead_erase (m : Mem) (lo n j : Nat) :
    memRead (memErase m lo n) j = if j < lo ∨ lo + n ≤ j then memRead m j else none := by
  have e : memErase m lo n = m.filter fun e => decide (e.1 < lo ∨ lo + n ≤ e.1) := rfl
  unfold memRead
  rw [e, tblFind_filter m (fun i => decide (i < lo ∨ lo + n ≤ i)) j]
  simp only [decide_eq_true_eq]

end Sys2Proof.Machine
end

