-- ==== Sys2Proof/Laws/Kept.lean ====
section
/-! SUPPORT. General laws for the fields that most operations leave as they were: the waiting commands, what manufacture fixed, the store's bytes and
their durable copies. -/

namespace Sys2Proof.Machine

theorem foldl_keeps {α β : Type} (g : State → β) (f : State → α → State) (h : ∀ s a, g (f s a) = g s) (l : List α) (s : State) :
    g (l.foldl f s) = g s := by
  induction l generalizing s with
  | nil => rfl
  | cons a l ih => rw [List.foldl_cons, ih, h]

@[simp] theorem foldl_pending {α : Type} (f : State → α → State) (l : List α) (s : State) (h : ∀ s a, (f s a).pending = s.pending) :
    (l.foldl f s).pending = s.pending := foldl_keeps State.pending f h l s

@[simp] theorem foldl_man {α : Type} (f : State → α → State) (l : List α) (s : State) (h : ∀ s a, (f s a).man = s.man) :
    (l.foldl f s).man = s.man := foldl_keeps State.man f h l s

@[simp] theorem foldl_mem {α : Type} (f : State → α → State) (l : List α) (s : State) (h : ∀ s a, (f s a).mem = s.mem) :
    (l.foldl f s).mem = s.mem := foldl_keeps State.mem f h l s

@[simp] theorem foldl_durable {α : Type} (f : State → α → State) (l : List α) (s : State) (h : ∀ s a, (f s a).durable = s.durable) :
    (l.foldl f s).durable = s.durable := foldl_keeps State.durable f h l s

@[simp] theorem ite_pending (c : Prop) [Decidable c] (a b : State) : (if c then a else b).pending = if c then a.pending else b.pending :=
  apply_ite State.pending c a b

@[simp] theorem ite_man (c : Prop) [Decidable c] (a b : State) : (if c then a else b).man = if c then a.man else b.man :=
  apply_ite State.man c a b

@[simp] theorem ite_mem (c : Prop) [Decidable c] (a b : State) : (if c then a else b).mem = if c then a.mem else b.mem :=
  apply_ite State.mem c a b

@[simp] theorem ite_durable (c : Prop) [Decidable c] (a b : State) : (if c then a else b).durable = if c then a.durable else b.durable :=
  apply_ite State.durable c a b

/-- The canonical form, of the bytes alone. -/
theorem memOk_iff (s : State) : s.memOk = true ↔ Memory.wf s.mem = true ∧ Memory.wf s.durable = true := by
  simp [State.memOk]

theorem memOk_of_eq {s t : State} (hm : t.mem = s.mem) (hd : t.durable = s.durable) : t.memOk = s.memOk := by
  simp [State.memOk, hm, hd]

/-- A state is in canonical form by its bytes, whatever its other fields. -/
theorem memOk_parts {s : State} (h : s.memOk = true) : Memory.wf s.mem = true ∧ Memory.wf s.durable = true := (memOk_iff s).1 h

@[simp] theorem wf_mem {s : State} (h : s.memOk = true) : Memory.wf s.mem = true := (memOk_parts h).1

@[simp] theorem wf_durable {s : State} (h : s.memOk = true) : Memory.wf s.durable = true := (memOk_parts h).2

@[simp] theorem ite_memOk (c : Prop) [Decidable c] (a b : State) : (if c then a else b).memOk = if c then a.memOk else b.memOk :=
  apply_ite State.memOk c a b

@[simp] theorem memOk_mk {a1} {a2} {a3} {a4} {a5} {a6} {a7} {a8} {a9} {a10} {a11} {a12} {a13} {a14} {a15} {a16} {a17} {a18} {a19} {a20} {a21} {a22} {a23} {a24} {a25} {a26} {a27} {a28} {a29} {a30} {a31} {a32} {a33} {a34} :
    State.memOk ⟨a1, a2, a3, a4, a5, a6, a7, a8, a9, a10, a11, a12, a13, a14, a15, a16, a17, a18, a19, a20, a21, a22, a23, a24, a25, a26, a27, a28, a29, a30, a31, a32, a33, a34⟩ = (Memory.wf a25 && Memory.wf a26) := rfl

@[simp] theorem foldl_memOk {α : Type} (f : State → α → State) (l : List α) (s : State) (hf : ∀ s a, s.memOk = true → (f s a).memOk = true)
    (h : s.memOk = true) : (l.foldl f s).memOk = true := by
  induction l generalizing s with
  | nil => exact h
  | cons a l ih => exact ih (f s a) (hf s a h)

theorem foldl_wf {α : Type} (f : State → α → State) (l : List α) (s : State)
    (hf : ∀ s a, Memory.wf s.mem = true → Memory.wf s.durable = true → Memory.wf (f s a).mem = true ∧ Memory.wf (f s a).durable = true)
    (hm : Memory.wf s.mem = true) (hd : Memory.wf s.durable = true) :
    Memory.wf (l.foldl f s).mem = true ∧ Memory.wf (l.foldl f s).durable = true := by
  induction l generalizing s with
  | nil => exact ⟨hm, hd⟩
  | cons a l ih => exact ih (f s a) (hf s a hm hd).1 (hf s a hm hd).2

end Sys2Proof.Machine
end

