-- ==== Sys2Proof/Laws/KeptOps.lean ====
section
/-! SUPPORT. What the operations of Machine/Ops.lean leave as it was. -/

namespace Sys2Proof.Machine

@[simp] theorem State.onTile_kept (s : State) (t : TileId) (f : Tile → Tile) :
    (State.onTile s t f).pending = s.pending ∧ (State.onTile s t f).man = s.man ∧ (State.onTile s t f).mem = s.mem ∧ (State.onTile s t f).durable = s.durable := by
  unfold State.onTile
  (try dsimp only)
  (repeat' split) <;> simp

@[simp] theorem State.onTile_memOk (s : State) (t : TileId) (f : Tile → Tile) : (State.onTile s t f).memOk = s.memOk := memOk_of_eq (by simp) (by simp)

@[simp] theorem State.emit_kept (s : State) (o : Out) :
    (State.emit s o).pending = s.pending ∧ (State.emit s o).man = s.man ∧ (State.emit s o).mem = s.mem ∧ (State.emit s o).durable = s.durable := by
  unfold State.emit
  (try dsimp only)
  (repeat' split) <;> simp

@[simp] theorem State.emit_memOk (s : State) (o : Out) : (State.emit s o).memOk = s.memOk := memOk_of_eq (by simp) (by simp)

@[simp] theorem State.emitAll_kept (s : State) (os : List Out) :
    (State.emitAll s os).pending = s.pending ∧ (State.emitAll s os).man = s.man ∧ (State.emitAll s os).mem = s.mem ∧ (State.emitAll s os).durable = s.durable := by
  unfold State.emitAll
  (try dsimp only)
  (repeat' split) <;> simp

@[simp] theorem State.emitAll_memOk (s : State) (os : List Out) : (State.emitAll s os).memOk = s.memOk := memOk_of_eq (by simp) (by simp)

@[simp] theorem State.msix_kept (s : State) (port vec : Nat) :
    (State.msix s port vec).pending = s.pending ∧ (State.msix s port vec).man = s.man ∧ (State.msix s port vec).mem = s.mem ∧ (State.msix s port vec).durable = s.durable := by
  unfold State.msix
  (try dsimp only)
  (repeat' split) <;> simp

@[simp] theorem State.bump_kept (s : State) :
    (State.bump s).pending = s.pending ∧ (State.bump s).man = s.man ∧ (State.bump s).mem = s.mem ∧ (State.bump s).durable = s.durable := by
  unfold State.bump
  (try dsimp only)
  (repeat' split) <;> simp

@[simp] theorem State.bump_memOk (s : State) : (State.bump s).memOk = s.memOk := memOk_of_eq (by simp) (by simp)

@[simp] theorem State.idle_kept (s : State) :
    (State.idle s).pending = s.pending ∧ (State.idle s).man = s.man ∧ (State.idle s).mem = s.mem ∧ (State.idle s).durable = s.durable := by
  unfold State.idle
  (try dsimp only)
  (repeat' split) <;> simp

@[simp] theorem State.idle_memOk (s : State) : (State.idle s).memOk = s.memOk := memOk_of_eq (by simp) (by simp)

@[simp] theorem State.setQueue_kept (s : State) (q : Nat) (v : Queue) :
    (State.setQueue s q v).pending = s.pending ∧ (State.setQueue s q v).man = s.man ∧ (State.setQueue s q v).mem = s.mem ∧ (State.setQueue s q v).durable = s.durable := by
  unfold State.setQueue
  (try dsimp only)
  (repeat' split) <;> simp

@[simp] theorem State.setQueue_memOk (s : State) (q : Nat) (v : Queue) : (State.setQueue s q v).memOk = s.memOk := memOk_of_eq (by simp) (by simp)

@[simp] theorem State.onQueue_kept (s : State) (q : Nat) (f : Queue → Queue) :
    (State.onQueue s q f).pending = s.pending ∧ (State.onQueue s q f).man = s.man ∧ (State.onQueue s q f).mem = s.mem ∧ (State.onQueue s q f).durable = s.durable := by
  unfold State.onQueue
  (try dsimp only)
  (repeat' split) <;> simp

@[simp] theorem State.onQueue_memOk (s : State) (q : Nat) (f : Queue → Queue) : (State.onQueue s q f).memOk = s.memOk := memOk_of_eq (by simp) (by simp)

@[simp] theorem State.setSlc_kept (s : State) (n : Nat) (v : Slice) :
    (State.setSlc s n v).pending = s.pending ∧ (State.setSlc s n v).man = s.man ∧ (State.setSlc s n v).mem = s.mem ∧ (State.setSlc s n v).durable = s.durable := by
  unfold State.setSlc
  (try dsimp only)
  (repeat' split) <;> simp

@[simp] theorem State.setSlc_memOk (s : State) (n : Nat) (v : Slice) : (State.setSlc s n v).memOk = s.memOk := memOk_of_eq (by simp) (by simp)

@[simp] theorem State.onSlc_kept (s : State) (n : Nat) (f : Slice → Slice) :
    (State.onSlc s n f).pending = s.pending ∧ (State.onSlc s n f).man = s.man ∧ (State.onSlc s n f).mem = s.mem ∧ (State.onSlc s n f).durable = s.durable := by
  unfold State.onSlc
  (try dsimp only)
  (repeat' split) <;> simp

@[simp] theorem State.onSlc_memOk (s : State) (n : Nat) (f : Slice → Slice) : (State.onSlc s n f).memOk = s.memOk := memOk_of_eq (by simp) (by simp)

@[simp] theorem State.setSeg_kept (s : State) (n : Nat) (v : Seg) :
    (State.setSeg s n v).pending = s.pending ∧ (State.setSeg s n v).man = s.man ∧ (State.setSeg s n v).mem = s.mem ∧ (State.setSeg s n v).durable = s.durable := by
  unfold State.setSeg
  (try dsimp only)
  (repeat' split) <;> simp

@[simp] theorem State.setSeg_memOk (s : State) (n : Nat) (v : Seg) : (State.setSeg s n v).memOk = s.memOk := memOk_of_eq (by simp) (by simp)

@[simp] theorem State.noteSeg_kept (s : State) (n : Nat) (f : Seg → Seg) :
    (State.noteSeg s n f).pending = s.pending ∧ (State.noteSeg s n f).man = s.man ∧ (State.noteSeg s n f).mem = s.mem ∧ (State.noteSeg s n f).durable = s.durable := by
  unfold State.noteSeg
  (try dsimp only)
  (repeat' split) <;> simp

@[simp] theorem State.noteSeg_memOk (s : State) (n : Nat) (f : Seg → Seg) : (State.noteSeg s n f).memOk = s.memOk := memOk_of_eq (by simp) (by simp)

@[simp] theorem State.onSeg_kept (s : State) (n : Nat) (f : Seg → Seg) :
    (State.onSeg s n f).pending = s.pending ∧ (State.onSeg s n f).man = s.man ∧ (State.onSeg s n f).mem = s.mem ∧ (State.onSeg s n f).durable = s.durable := by
  unfold State.onSeg
  (try dsimp only)
  (repeat' split) <;> simp

@[simp] theorem State.onSeg_memOk (s : State) (n : Nat) (f : Seg → Seg) : (State.onSeg s n f).memOk = s.memOk := memOk_of_eq (by simp) (by simp)

@[simp] theorem State.setBlock_kept (s : State) (b : Nat) (v : Block) :
    (State.setBlock s b v).pending = s.pending ∧ (State.setBlock s b v).man = s.man ∧ (State.setBlock s b v).mem = s.mem ∧ (State.setBlock s b v).durable = s.durable := by
  unfold State.setBlock
  (try dsimp only)
  (repeat' split) <;> simp

@[simp] theorem State.setBlock_memOk (s : State) (b : Nat) (v : Block) : (State.setBlock s b v).memOk = s.memOk := memOk_of_eq (by simp) (by simp)

@[simp] theorem State.onCmd_kept (s : State) (c : CmdRef) (f : Cmd → Cmd) :
    (State.onCmd s c f).pending = s.pending ∧ (State.onCmd s c f).man = s.man ∧ (State.onCmd s c f).mem = s.mem ∧ (State.onCmd s c f).durable = s.durable := by
  unfold State.onCmd
  (try dsimp only)
  (repeat' split) <;> simp

@[simp] theorem State.onCmd_memOk (s : State) (c : CmdRef) (f : Cmd → Cmd) : (State.onCmd s c f).memOk = s.memOk := memOk_of_eq (by simp) (by simp)

@[simp] theorem State.dropCmd_kept (s : State) (c : CmdRef) :
    (State.dropCmd s c).pending = s.pending ∧ (State.dropCmd s c).man = s.man ∧ (State.dropCmd s c).mem = s.mem ∧ (State.dropCmd s c).durable = s.durable := by
  unfold State.dropCmd
  (try dsimp only)
  (repeat' split) <;> simp

@[simp] theorem State.dropCmd_memOk (s : State) (c : CmdRef) : (State.dropCmd s c).memOk = s.memOk := memOk_of_eq (by simp) (by simp)

@[simp] theorem State.onQuery_kept (s : State) (qid : Nat) (f : Query → Query) :
    (State.onQuery s qid f).pending = s.pending ∧ (State.onQuery s qid f).man = s.man ∧ (State.onQuery s qid f).mem = s.mem ∧ (State.onQuery s qid f).durable = s.durable := by
  unfold State.onQuery
  (try dsimp only)
  (repeat' split) <;> simp

@[simp] theorem State.onQuery_memOk (s : State) (qid : Nat) (f : Query → Query) : (State.onQuery s qid f).memOk = s.memOk := memOk_of_eq (by simp) (by simp)

@[simp] theorem State.logErr_kept (s : State) (t : TileId) (r : ErrRec) :
    (State.logErr s t r).pending = s.pending ∧ (State.logErr s t r).man = s.man ∧ (State.logErr s t r).mem = s.mem ∧ (State.logErr s t r).durable = s.durable := by
  unfold State.logErr
  (try dsimp only)
  (repeat' split) <;> simp

@[simp] theorem State.logErr_memOk (s : State) (t : TileId) (r : ErrRec) : (State.logErr s t r).memOk = s.memOk := memOk_of_eq (by simp) (by simp)

@[simp] theorem State.rollVerify_kept (s : State) (t : TileId) :
    (State.rollVerify s t).pending = s.pending ∧ (State.rollVerify s t).man = s.man ∧ (State.rollVerify s t).mem = s.mem ∧ (State.rollVerify s t).durable = s.durable := by
  unfold State.rollVerify
  (try dsimp only)
  (repeat' split) <;> simp

@[simp] theorem State.logWindow_kept (s : State) (t : TileId) (end_ : Nat) (c : Nat × Nat × Nat × Nat) :
    (State.logWindow s t end_ c).pending = s.pending ∧ (State.logWindow s t end_ c).man = s.man ∧ (State.logWindow s t end_ c).mem = s.mem ∧ (State.logWindow s t end_ c).durable = s.durable := by
  unfold State.logWindow
  (try dsimp only)
  (repeat' split) <;> simp

@[simp] theorem State.rollCoalesce_kept (s : State) (t : TileId) :
    (State.rollCoalesce s t).pending = s.pending ∧ (State.rollCoalesce s t).man = s.man ∧ (State.rollCoalesce s t).mem = s.mem ∧ (State.rollCoalesce s t).durable = s.durable := by
  unfold State.rollCoalesce
  (try dsimp only)
  (repeat' split) <;> simp

@[simp] theorem State.logCorrected_kept (s : State) (t : TileId) (r : ErrRec) :
    (State.logCorrected s t r).pending = s.pending ∧ (State.logCorrected s t r).man = s.man ∧ (State.logCorrected s t r).mem = s.mem ∧ (State.logCorrected s t r).durable = s.durable := by
  unfold State.logCorrected
  (try dsimp only)
  (repeat' split) <;> simp

@[simp] theorem State.logCorrected_memOk (s : State) (t : TileId) (r : ErrRec) : (State.logCorrected s t r).memOk = s.memOk := memOk_of_eq (by simp) (by simp)

@[simp] theorem State.require_kept (s : State) (c : Change) :
    (State.require s c).pending = s.pending ∧ (State.require s c).man = s.man ∧ (State.require s c).mem = s.mem ∧ (State.require s c).durable = s.durable := by
  unfold State.require
  (try dsimp only)
  (repeat' split) <;> simp

@[simp] theorem State.require_memOk (s : State) (c : Change) : (State.require s c).memOk = s.memOk := memOk_of_eq (by simp) (by simp)

@[simp] theorem State.degrade_kept (s : State) :
    (State.degrade s).pending = s.pending ∧ (State.degrade s).man = s.man ∧ (State.degrade s).mem = s.mem ∧ (State.degrade s).durable = s.durable := by
  unfold State.degrade
  (try dsimp only)
  (repeat' split) <;> simp

@[simp] theorem State.degrade_memOk (s : State) : (State.degrade s).memOk = s.memOk := memOk_of_eq (by simp) (by simp)

end Sys2Proof.Machine
end

