-- ==== Sys2Proof/Laws/KeptStore.lean ====
section
/-! SUPPORT. What the operations of Machine/Store.lean leave as it was. -/

namespace Sys2Proof.Machine

@[simp] theorem State.stage1_kept (s : State) (a : Nat) (b : Byte) :
    (State.stage1 s a b).pending = s.pending ∧ (State.stage1 s a b).man = s.man ∧ (State.stage1 s a b).mem = s.mem ∧ (State.stage1 s a b).durable = s.durable := by
  unfold State.stage1
  (try dsimp only)
  (repeat' split) <;> simp

@[simp] theorem State.stage_kept (s : State) (cells : List Host.Cell) :
    (State.stage s cells).pending = s.pending ∧ (State.stage s cells).man = s.man ∧ (State.stage s cells).mem = s.mem ∧ (State.stage s cells).durable = s.durable := by
  unfold State.stage
  (try dsimp only)
  (repeat' split) <;> simp

@[simp] theorem State.stage_memOk (s : State) (cells : List Host.Cell) : (State.stage s cells).memOk = s.memOk := memOk_of_eq (by simp) (by simp)

@[simp] theorem State.cleanse_kept (s : State) (cells : List Host.Cell) :
    (State.cleanse s cells).pending = s.pending ∧ (State.cleanse s cells).man = s.man ∧ (State.cleanse s cells).mem = s.mem ∧ (State.cleanse s cells).durable = s.durable := by
  unfold State.cleanse
  (try dsimp only)
  (repeat' split) <;> simp

@[simp] theorem State.cleanse_memOk (s : State) (cells : List Host.Cell) : (State.cleanse s cells).memOk = s.memOk := memOk_of_eq (by simp) (by simp)

@[simp] theorem State.drainTile_kept (s : State) (p : Nat → Bool) (t : TileId) :
    (State.drainTile s p t).pending = s.pending ∧ (State.drainTile s p t).man = s.man ∧ (State.drainTile s p t).durable = s.durable := by
  unfold State.drainTile
  (try dsimp only)
  (repeat' split) <;> simp

@[simp] theorem State.drainTile_wf (s : State) (p : Nat → Bool) (t : TileId) (h : s.memOk = true) :
    (State.drainTile s p t).memOk = true := by
  unfold State.drainTile
  (try dsimp only)
  (repeat' split) <;> simp (maxDischargeDepth := 60) [h]

@[simp] theorem State.drainWhere_kept (s : State) (p : Nat → Bool) :
    (State.drainWhere s p).pending = s.pending ∧ (State.drainWhere s p).man = s.man ∧ (State.drainWhere s p).durable = s.durable := by
  unfold State.drainWhere
  (try dsimp only)
  (repeat' split) <;> simp

@[simp] theorem State.drainWhere_wf (s : State) (p : Nat → Bool) (h : s.memOk = true) :
    (State.drainWhere s p).memOk = true := by
  unfold State.drainWhere
  (try dsimp only)
  (repeat' split) <;> simp_all (maxDischargeDepth := 60)

@[simp] theorem State.drainFull_kept (s : State) :
    (State.drainFull s).pending = s.pending ∧ (State.drainFull s).man = s.man ∧ (State.drainFull s).durable = s.durable := by
  unfold State.drainFull
  (try dsimp only)
  (repeat' split) <;> simp

@[simp] theorem State.drainFull_wf (s : State) (h : s.memOk = true) :
    (State.drainFull s).memOk = true := by
  unfold State.drainFull
  (try dsimp only)
  (repeat' split) <;> simp_all (maxDischargeDepth := 60)

@[simp] theorem State.segPut_kept (s : State) (g : Seg) (off : Nat) (bs : List Byte) :
    (State.segPut s g off bs).pending = s.pending ∧ (State.segPut s g off bs).man = s.man ∧ (State.segPut s g off bs).durable = s.durable := by
  unfold State.segPut
  (try dsimp only)
  (repeat' split) <;> simp

@[simp] theorem State.segPut_wf (s : State) (g : Seg) (off : Nat) (bs : List Byte) (h : s.memOk = true) :
    (State.segPut s g off bs).memOk = true := by
  unfold State.segPut
  (try dsimp only)
  (repeat' split) <;> simp (maxDischargeDepth := 60) [h]

@[simp] theorem State.segStore_kept (s : State) (id : Nat) (g : Seg) (off : Nat) (bs : List Byte) :
    (State.segStore s id g off bs).pending = s.pending ∧ (State.segStore s id g off bs).man = s.man ∧ (State.segStore s id g off bs).durable = s.durable := by
  unfold State.segStore
  (try dsimp only)
  (repeat' split) <;> simp

@[simp] theorem State.segStore_wf (s : State) (id : Nat) (g : Seg) (off : Nat) (bs : List Byte) (h : s.memOk = true) :
    (State.segStore s id g off bs).memOk = true := by
  unfold State.segStore
  (try dsimp only)
  (repeat' split) <;> simp (maxDischargeDepth := 60) [h]

@[simp] theorem State.indexStore_kept (s : State) (g : Seg) (off : Nat) (bs : List Byte) :
    (State.indexStore s g off bs).pending = s.pending ∧ (State.indexStore s g off bs).man = s.man ∧ (State.indexStore s g off bs).durable = s.durable := by
  unfold State.indexStore
  (try dsimp only)
  (repeat' split) <;> simp

@[simp] theorem State.indexStore_wf (s : State) (g : Seg) (off : Nat) (bs : List Byte) (h : s.memOk = true) :
    (State.indexStore s g off bs).memOk = true := by
  unfold State.indexStore
  (try dsimp only)
  (repeat' split) <;> simp (maxDischargeDepth := 60) [h]

@[simp] theorem State.poisonUnit_kept (s : State) (a : Nat) :
    (State.poisonUnit s a).pending = s.pending ∧ (State.poisonUnit s a).man = s.man ∧ (State.poisonUnit s a).mem = s.mem ∧ (State.poisonUnit s a).durable = s.durable := by
  unfold State.poisonUnit
  (try dsimp only)
  (repeat' split) <;> simp

@[simp] theorem State.poisonUnit_memOk (s : State) (a : Nat) : (State.poisonUnit s a).memOk = s.memOk := memOk_of_eq (by simp) (by simp)

@[simp] theorem State.forgetSeg_kept (s : State) (g : Seg) :
    (State.forgetSeg s g).pending = s.pending ∧ (State.forgetSeg s g).man = s.man := by
  unfold State.forgetSeg
  (try dsimp only)
  (repeat' split) <;> simp

@[simp] theorem State.forgetSeg_wf (s : State) (g : Seg) (h : s.memOk = true) :
    (State.forgetSeg s g).memOk = true := by
  unfold State.forgetSeg
  refine foldl_memOk _ _ _ (fun s t h => ?_) h
  simp [h]

@[simp] theorem State.setCopy_kept (s : State) (t : TileId) (ix id : Nat) (v : List Byte) :
    (State.setCopy s t ix id v).pending = s.pending ∧ (State.setCopy s t ix id v).man = s.man ∧ (State.setCopy s t ix id v).mem = s.mem ∧ (State.setCopy s t ix id v).durable = s.durable := by
  unfold State.setCopy
  (try dsimp only)
  (repeat' split) <;> simp

@[simp] theorem State.setCopy_memOk (s : State) (t : TileId) (ix id : Nat) (v : List Byte) : (State.setCopy s t ix id v).memOk = s.memOk := memOk_of_eq (by simp) (by simp)

@[simp] theorem State.poisonEntry_kept (s : State) (t : TileId) (id : Nat) :
    (State.poisonEntry s t id).pending = s.pending ∧ (State.poisonEntry s t id).man = s.man ∧ (State.poisonEntry s t id).mem = s.mem ∧ (State.poisonEntry s t id).durable = s.durable := by
  unfold State.poisonEntry
  (try dsimp only)
  (repeat' split) <;> simp

@[simp] theorem State.poisonEntry_memOk (s : State) (t : TileId) (id : Nat) : (State.poisonEntry s t id).memOk = s.memOk := memOk_of_eq (by simp) (by simp)

@[simp] theorem State.logFixed_kept (s : State) (t : TileId) (id ix : Nat) (c : CopySeen) :
    (State.logFixed s t id ix c).pending = s.pending ∧ (State.logFixed s t id ix c).man = s.man ∧ (State.logFixed s t id ix c).mem = s.mem ∧ (State.logFixed s t id ix c).durable = s.durable := by
  unfold State.logFixed
  (try dsimp only)
  (repeat' split) <;> simp

@[simp] theorem State.logFixed_memOk (s : State) (t : TileId) (id ix : Nat) (c : CopySeen) : (State.logFixed s t id ix c).memOk = s.memOk := memOk_of_eq (by simp) (by simp)

@[simp] theorem State.logBad_kept (s : State) (t : TileId) (id ix : Nat) (c : CopySeen) :
    (State.logBad s t id ix c).pending = s.pending ∧ (State.logBad s t id ix c).man = s.man ∧ (State.logBad s t id ix c).mem = s.mem ∧ (State.logBad s t id ix c).durable = s.durable := by
  unfold State.logBad
  (try dsimp only)
  (repeat' split) <;> simp

@[simp] theorem State.logBad_memOk (s : State) (t : TileId) (id ix : Nat) (c : CopySeen) : (State.logBad s t id ix c).memOk = s.memOk := memOk_of_eq (by simp) (by simp)

@[simp] theorem State.logDiverged_kept (s : State) (t : TileId) (id ix : Nat) (w : List Byte) (v : Option (List Byte)) :
    (State.logDiverged s t id ix w v).pending = s.pending ∧ (State.logDiverged s t id ix w v).man = s.man ∧ (State.logDiverged s t id ix w v).mem = s.mem ∧ (State.logDiverged s t id ix w v).durable = s.durable := by
  unfold State.logDiverged
  (try dsimp only)
  (repeat' split) <;> simp

@[simp] theorem State.logDiverged_memOk (s : State) (t : TileId) (id ix : Nat) (w : List Byte) (v : Option (List Byte)) : (State.logDiverged s t id ix w v).memOk = s.memOk := memOk_of_eq (by simp) (by simp)

@[simp] theorem State.vote_kept (s : State) (t : TileId) (v : VoteSeen) :
    (State.vote s t v).1.pending = s.pending ∧ (State.vote s t v).1.man = s.man ∧ (State.vote s t v).1.mem = s.mem ∧ (State.vote s t v).1.durable = s.durable := by
  unfold State.vote
  dsimp only
  split <;> simp

@[simp] theorem State.vote_memOk (s : State) (t : TileId) (v : VoteSeen) : (State.vote s t v).1.memOk = s.memOk := memOk_of_eq (by simp) (by simp)

end Sys2Proof.Machine
end

