-- ==== Sys2Proof/Laws/KeptDomain.lean ====
section
/-! SUPPORT. What the operations of Machine/Domain.lean leave as it was. -/

namespace Sys2Proof.Machine

@[simp] theorem State.onDom_kept (s : State) (t : TileId) (d : DomId) (f : Dom → Dom) :
    (State.onDom s t d f).pending = s.pending ∧ (State.onDom s t d f).man = s.man ∧ (State.onDom s t d f).mem = s.mem ∧ (State.onDom s t d f).durable = s.durable := by
  unfold State.onDom
  (try dsimp only)
  (repeat' split) <;> simp

@[simp] theorem State.onDom_memOk (s : State) (t : TileId) (d : DomId) (f : Dom → Dom) : (State.onDom s t d f).memOk = s.memOk := memOk_of_eq (by simp) (by simp)

@[simp] theorem State.castVote_kept (s : State) (t : TileId) (d : DomId) (voter v : Nat) :
    (State.castVote s t d voter v).pending = s.pending ∧ (State.castVote s t d voter v).man = s.man ∧ (State.castVote s t d voter v).mem = s.mem ∧ (State.castVote s t d voter v).durable = s.durable := by
  unfold State.castVote
  (try dsimp only)
  (repeat' split) <;> simp

@[simp] theorem State.castVote_memOk (s : State) (t : TileId) (d : DomId) (voter v : Nat) : (State.castVote s t d voter v).memOk = s.memOk := memOk_of_eq (by simp) (by simp)

@[simp] theorem State.revote_kept (s : State) (t : TileId) :
    (State.revote s t).pending = s.pending ∧ (State.revote s t).man = s.man ∧ (State.revote s t).mem = s.mem ∧ (State.revote s t).durable = s.durable := by
  unfold State.revote
  (try dsimp only)
  (repeat' split) <;> simp

@[simp] theorem State.revoteAll_kept (s : State) :
    (State.revoteAll s).pending = s.pending ∧ (State.revoteAll s).man = s.man ∧ (State.revoteAll s).mem = s.mem ∧ (State.revoteAll s).durable = s.durable := by
  unfold State.revoteAll
  (try dsimp only)
  (repeat' split) <;> simp

@[simp] theorem State.revoteAll_memOk (s : State) : (State.revoteAll s).memOk = s.memOk := memOk_of_eq (by simp) (by simp)

@[simp] theorem State.dropSchedVotes_kept (s : State) (t : TileId) :
    (State.dropSchedVotes s t).pending = s.pending ∧ (State.dropSchedVotes s t).man = s.man ∧ (State.dropSchedVotes s t).mem = s.mem ∧ (State.dropSchedVotes s t).durable = s.durable := by
  unfold State.dropSchedVotes
  (try dsimp only)
  (repeat' split) <;> simp

@[simp] theorem State.dropSchedVotes_memOk (s : State) (t : TileId) : (State.dropSchedVotes s t).memOk = s.memOk := memOk_of_eq (by simp) (by simp)

@[simp] theorem State.wakeTile_kept (s : State) (t : TileId) :
    (State.wakeTile s t).pending = s.pending ∧ (State.wakeTile s t).man = s.man ∧ (State.wakeTile s t).mem = s.mem ∧ (State.wakeTile s t).durable = s.durable := by
  unfold State.wakeTile
  (try dsimp only)
  (repeat' split) <;> simp

end Sys2Proof.Machine
end

