-- ==== Sys2Proof/Laws/KeptFlags.lean ====
section
/-! SUPPORT. What the operations of Machine/Flags.lean leave as it was. -/

namespace Sys2Proof.Machine

@[simp] theorem State.finish_kept (s : State) (c : CmdRef) (k : Completion) :
    (State.finish s c k).pending = s.pending ∧ (State.finish s c k).man = s.man ∧ (State.finish s c k).mem = s.mem ∧ (State.finish s c k).durable = s.durable := by
  unfold State.finish
  (try dsimp only)
  (repeat' split) <;> simp

@[simp] theorem State.finish_memOk (s : State) (c : CmdRef) (k : Completion) : (State.finish s c k).memOk = s.memOk := memOk_of_eq (by simp) (by simp)

@[simp] theorem State.fail_kept (s : State) (c : CmdRef) (status errloc detail : Nat) :
    (State.fail s c status errloc detail).pending = s.pending ∧ (State.fail s c status errloc detail).man = s.man ∧ (State.fail s c status errloc detail).mem = s.mem ∧ (State.fail s c status errloc detail).durable = s.durable := by
  unfold State.fail
  (try dsimp only)
  (repeat' split) <;> simp

@[simp] theorem State.fail_memOk (s : State) (c : CmdRef) (status errloc detail : Nat) : (State.fail s c status errloc detail).memOk = s.memOk := memOk_of_eq (by simp) (by simp)

@[simp] theorem State.succeed_kept (s : State) (c : CmdRef) (result : List Byte) :
    (State.succeed s c result).pending = s.pending ∧ (State.succeed s c result).man = s.man ∧ (State.succeed s c result).mem = s.mem ∧ (State.succeed s c result).durable = s.durable := by
  unfold State.succeed
  (try dsimp only)
  (repeat' split) <;> simp

@[simp] theorem State.succeed_memOk (s : State) (c : CmdRef) (result : List Byte) : (State.succeed s c result).memOk = s.memOk := memOk_of_eq (by simp) (by simp)

@[simp] theorem State.failAt_kept (s : State) (c : CmdRef) (status detail off : Nat) :
    (State.failAt s c status detail off).pending = s.pending ∧ (State.failAt s c status detail off).man = s.man ∧ (State.failAt s c status detail off).mem = s.mem ∧ (State.failAt s c status detail off).durable = s.durable := by
  unfold State.failAt
  (try dsimp only)
  (repeat' split) <;> simp

@[simp] theorem State.failAt_memOk (s : State) (c : CmdRef) (status detail off : Nat) : (State.failAt s c status detail off).memOk = s.memOk := memOk_of_eq (by simp) (by simp)

@[simp] theorem State.forCmd_kept (s : State) (c : CmdRef) (order : Nat) (f : State → State)
    (hf : ∀ s, (f s).pending = s.pending ∧ (f s).man = s.man ∧ (f s).mem = s.mem ∧ (f s).durable = s.durable) :
    (State.forCmd s c order f).pending = s.pending ∧ (State.forCmd s c order f).man = s.man ∧ (State.forCmd s c order f).mem = s.mem ∧ (State.forCmd s c order f).durable = s.durable := by
  unfold State.forCmd
  split
  · exact hf s
  · simp

@[simp] theorem State.failPoison_kept (s : State) (c : CmdRef) (off addr : Nat) :
    (State.failPoison s c off addr).pending = s.pending ∧ (State.failPoison s c off addr).man = s.man ∧ (State.failPoison s c off addr).mem = s.mem ∧ (State.failPoison s c off addr).durable = s.durable := by
  unfold State.failPoison
  (try dsimp only)
  (repeat' split) <;> simp

@[simp] theorem State.failPoison_memOk (s : State) (c : CmdRef) (off addr : Nat) : (State.failPoison s c off addr).memOk = s.memOk := memOk_of_eq (by simp) (by simp)

end Sys2Proof.Machine
end

