-- ==== Sys2Proof/Laws/KeptTokens.lean ====
section
/-! SUPPORT. What the operations of Machine/Tokens.lean leave as it was. -/

namespace Sys2Proof.Machine

@[simp] theorem State.trace_kept (s : State) (t : TileId) (r : Trace) :
    (State.trace s t r).pending = s.pending ∧ (State.trace s t r).man = s.man ∧ (State.trace s t r).mem = s.mem ∧ (State.trace s t r).durable = s.durable := by
  unfold State.trace
  (try dsimp only)
  (repeat' split) <;> simp

@[simp] theorem State.discardOn_kept (s : State) (t : TileId) (p : Token → Bool) (reason : Nat) :
    (State.discardOn s t p reason).pending = s.pending ∧ (State.discardOn s t p reason).man = s.man ∧ (State.discardOn s t p reason).mem = s.mem ∧ (State.discardOn s t p reason).durable = s.durable := by
  unfold State.discardOn
  (try dsimp only)
  (repeat' split) <;> simp

@[simp] theorem State.discard_kept (s : State) (p : Token → Bool) (reason : Nat) :
    (State.discard s p reason).pending = s.pending ∧ (State.discard s p reason).man = s.man ∧ (State.discard s p reason).mem = s.mem ∧ (State.discard s p reason).durable = s.durable := by
  unfold State.discard
  (try dsimp only)
  (repeat' split) <;> simp

@[simp] theorem State.discard_memOk (s : State) (p : Token → Bool) (reason : Nat) : (State.discard s p reason).memOk = s.memOk := memOk_of_eq (by simp) (by simp)

@[simp] theorem State.setRun_kept (s : State) (g : Gpe) (r : Option Run) :
    (State.setRun s g r).pending = s.pending ∧ (State.setRun s g r).man = s.man ∧ (State.setRun s g r).mem = s.mem ∧ (State.setRun s g r).durable = s.durable := by
  unfold State.setRun
  (try dsimp only)
  (repeat' split) <;> simp

@[simp] theorem State.onRun_kept (s : State) (g : Gpe) (f : Run → Run) :
    (State.onRun s g f).pending = s.pending ∧ (State.onRun s g f).man = s.man ∧ (State.onRun s g f).mem = s.mem ∧ (State.onRun s g f).durable = s.durable := by
  unfold State.onRun
  (try dsimp only)
  (repeat' split) <;> simp

@[simp] theorem State.stopCalls_kept (s : State) (g : Gpe) :
    (State.stopCalls s g).pending = s.pending ∧ (State.stopCalls s g).man = s.man ∧ (State.stopCalls s g).mem = s.mem ∧ (State.stopCalls s g).durable = s.durable := by
  unfold State.stopCalls
  (try dsimp only)
  (repeat' split) <;> simp

@[simp] theorem State.settleEnergy_kept (s : State) (t : TileId) (handle : Nat) (r : Run) (em : Nat) :
    (State.settleEnergy s t handle r em).pending = s.pending ∧ (State.settleEnergy s t handle r em).man = s.man ∧ (State.settleEnergy s t handle r em).mem = s.mem ∧ (State.settleEnergy s t handle r em).durable = s.durable := by
  unfold State.settleEnergy
  (try dsimp only)
  (repeat' split) <;> simp

@[simp] theorem State.stopRun_kept (s : State) (qid : Nat) (g : Gpe) :
    (State.stopRun s qid g).pending = s.pending ∧ (State.stopRun s qid g).man = s.man ∧ (State.stopRun s qid g).mem = s.mem ∧ (State.stopRun s qid g).durable = s.durable := by
  unfold State.stopRun
  (try dsimp only)
  (repeat' split) <;> simp

@[simp] theorem State.releaseQuery_kept (s : State) (q : Query) :
    (State.releaseQuery s q).pending = s.pending ∧ (State.releaseQuery s q).man = s.man ∧ (State.releaseQuery s q).mem = s.mem ∧ (State.releaseQuery s q).durable = s.durable := by
  unfold State.releaseQuery
  (try dsimp only)
  (repeat' split) <;> simp

@[simp] theorem State.undefine_kept (s : State) (id : Nat) :
    (State.undefine s id).pending = s.pending ∧ (State.undefine s id).man = s.man ∧ (State.undefine s id).mem = s.mem ∧ (State.undefine s id).durable = s.durable := by
  unfold State.undefine
  (try dsimp only)
  (repeat' split) <;> simp

@[simp] theorem State.undefine_memOk (s : State) (id : Nat) : (State.undefine s id).memOk = s.memOk := memOk_of_eq (by simp) (by simp)

@[simp] theorem State.removeQuery_kept (s : State) (qid reason : Nat) :
    (State.removeQuery s qid reason).pending = s.pending ∧ (State.removeQuery s qid reason).man = s.man ∧ (State.removeQuery s qid reason).mem = s.mem ∧ (State.removeQuery s qid reason).durable = s.durable := by
  unfold State.removeQuery
  (try dsimp only)
  (repeat' split) <;> simp

@[simp] theorem State.removeQuery_memOk (s : State) (qid reason : Nat) : (State.removeQuery s qid reason).memOk = s.memOk := memOk_of_eq (by simp) (by simp)

@[simp] theorem State.settleFailing_kept (s : State) (qid : Nat) :
    (State.settleFailing s qid).pending = s.pending ∧ (State.settleFailing s qid).man = s.man ∧ (State.settleFailing s qid).mem = s.mem ∧ (State.settleFailing s qid).durable = s.durable := by
  unfold State.settleFailing
  (try dsimp only)
  (repeat' split) <;> simp

@[simp] theorem State.failQuery_kept (s : State) (qid : Nat) (f : Fail) :
    (State.failQuery s qid f).pending = s.pending ∧ (State.failQuery s qid f).man = s.man ∧ (State.failQuery s qid f).mem = s.mem ∧ (State.failQuery s qid f).durable = s.durable := by
  unfold State.failQuery
  (try dsimp only)
  (repeat' split) <;> simp

@[simp] theorem State.failQuery_memOk (s : State) (qid : Nat) (f : Fail) : (State.failQuery s qid f).memOk = s.memOk := memOk_of_eq (by simp) (by simp)

@[simp] theorem State.plan_kept (s : State) (qid : Nat) (t : Nat) (k : Token) :
    (State.plan s qid t k).pending = s.pending ∧ (State.plan s qid t k).man = s.man ∧ (State.plan s qid t k).mem = s.mem ∧ (State.plan s qid t k).durable = s.durable := by
  unfold State.plan
  (try dsimp only)
  (repeat' split) <;> simp

@[simp] theorem State.abandon_kept (s : State) (g : Gpe) :
    (State.abandon s g).pending = s.pending ∧ (State.abandon s g).man = s.man ∧ (State.abandon s g).mem = s.mem ∧ (State.abandon s g).durable = s.durable := by
  unfold State.abandon
  (try dsimp only)
  (repeat' split) <;> simp

@[simp] theorem State.fenceUnit_kept (s : State) (t : TileId) (kind index : Nat) (f : FenceBits → FenceBits) :
    (State.fenceUnit s t kind index f).pending = s.pending ∧ (State.fenceUnit s t kind index f).man = s.man ∧ (State.fenceUnit s t kind index f).mem = s.mem ∧ (State.fenceUnit s t kind index f).durable = s.durable := by
  unfold State.fenceUnit
  (try dsimp only)
  (repeat' split) <;> simp

@[simp] theorem State.fenceUnit_memOk (s : State) (t : TileId) (kind index : Nat) (f : FenceBits → FenceBits) : (State.fenceUnit s t kind index f).memOk = s.memOk := memOk_of_eq (by simp) (by simp)

@[simp] theorem State.retarget_kept (s : State) (n : Nat) :
    (State.retarget s n).pending = s.pending ∧ (State.retarget s n).man = s.man ∧ (State.retarget s n).mem = s.mem ∧ (State.retarget s n).durable = s.durable := by
  unfold State.retarget
  try dsimp only
  (repeat' apply And.intro) <;>
    (repeat' (first | (simp; done) | split | rw [foldl_pending] | rw [foldl_man] | rw [foldl_mem] | rw [foldl_durable] | intro _ _ | simp))

@[simp] theorem State.fencePe_kept (s : State) (g : Gpe) :
    (State.fencePe s g).pending = s.pending ∧ (State.fencePe s g).man = s.man ∧ (State.fencePe s g).mem = s.mem ∧ (State.fencePe s g).durable = s.durable := by
  unfold State.fencePe
  (try dsimp only)
  (repeat' split) <;> simp

@[simp] theorem State.fencePe_memOk (s : State) (g : Gpe) : (State.fencePe s g).memOk = s.memOk := memOk_of_eq (by simp) (by simp)

@[simp] theorem State.haltTile_kept (s : State) (t : TileId) :
    (State.haltTile s t).pending = s.pending ∧ (State.haltTile s t).man = s.man ∧ (State.haltTile s t).mem = s.mem ∧ (State.haltTile s t).durable = s.durable := by
  unfold State.haltTile
  (try dsimp only)
  (repeat' split) <;> simp

@[simp] theorem State.halt_kept (s : State) (t : TileId) (cause : Nat) :
    (State.halt s t cause).pending = s.pending ∧ (State.halt s t cause).man = s.man ∧ (State.halt s t cause).mem = s.mem ∧ (State.halt s t cause).durable = s.durable := by
  unfold State.halt
  (try dsimp only)
  (repeat' split) <;> simp

@[simp] theorem State.halt_memOk (s : State) (t : TileId) (cause : Nat) : (State.halt s t cause).memOk = s.memOk := memOk_of_eq (by simp) (by simp)

@[simp] theorem State.fenceLarge_kept (s : State) (t : TileId) (k : Nat) :
    (State.fenceLarge s t k).pending = s.pending ∧ (State.fenceLarge s t k).man = s.man ∧ (State.fenceLarge s t k).mem = s.mem ∧ (State.fenceLarge s t k).durable = s.durable := by
  unfold State.fenceLarge
  (try dsimp only)
  (repeat' split) <;> simp

@[simp] theorem State.fenceLarge_memOk (s : State) (t : TileId) (k : Nat) : (State.fenceLarge s t k).memOk = s.memOk := memOk_of_eq (by simp) (by simp)

end Sys2Proof.Machine
end

