-- ==== Sys2Proof/Laws/KeptChecks.lean ====
section
/-! SUPPORT. What the operations of Machine/Checks.lean leave as it was. -/

namespace Sys2Proof.Machine

@[simp] theorem State.dmaOut_kept (s : State) (x : Cmd) (parts : List (Nat × Nat)) (bs : List Byte) (wfail : Option Nat) :
    (State.dmaOut s x parts bs wfail).pending = s.pending ∧ (State.dmaOut s x parts bs wfail).man = s.man ∧ (State.dmaOut s x parts bs wfail).mem = s.mem ∧ (State.dmaOut s x parts bs wfail).durable = s.durable := by
  unfold State.dmaOut
  (try dsimp only)
  (repeat' split) <;> simp

@[simp] theorem State.dmaOut_memOk (s : State) (x : Cmd) (parts : List (Nat × Nat)) (bs : List Byte) (wfail : Option Nat) : (State.dmaOut s x parts bs wfail).memOk = s.memOk := memOk_of_eq (by simp) (by simp)

@[simp] theorem State.failHost_kept (s : State) (c : CmdRef) (e : HostErr) (parts : List (Nat × Nat)) (off fault : Nat) :
    (State.failHost s c e parts off fault).pending = s.pending ∧ (State.failHost s c e parts off fault).man = s.man ∧ (State.failHost s c e parts off fault).mem = s.mem ∧ (State.failHost s c e parts off fault).durable = s.durable := by
  unfold State.failHost
  (try dsimp only)
  (repeat' split) <;> simp

@[simp] theorem State.failHost_memOk (s : State) (c : CmdRef) (e : HostErr) (parts : List (Nat × Nat)) (off fault : Nat) : (State.failHost s c e parts off fault).memOk = s.memOk := memOk_of_eq (by simp) (by simp)

end Sys2Proof.Machine
end

