-- ==== Sys2Proof/Laws/KeptSegment.lean ====
section
/-! SUPPORT. What the operations of Machine/Segment.lean leave as it was. -/

namespace Sys2Proof.Machine

@[simp] theorem State.dirPut_kept (s : State) (id i : Nat) :
    (State.dirPut s id i).pending = s.pending ∧ (State.dirPut s id i).man = s.man ∧ (State.dirPut s id i).durable = s.durable := by
  unfold State.dirPut
  (try dsimp only)
  (repeat' split) <;> simp

@[simp] theorem State.dirPut_wf (s : State) (id i : Nat) (h : s.memOk = true) :
    (State.dirPut s id i).memOk = true := by
  unfold State.dirPut
  (try dsimp only)
  (repeat' split) <;> simp (maxDischargeDepth := 60) [h]

@[simp] theorem State.dirTake_kept (s : State) (t k i : Nat) :
    (State.dirTake s t k i).pending = s.pending ∧ (State.dirTake s t k i).man = s.man ∧ (State.dirTake s t k i).durable = s.durable := by
  unfold State.dirTake
  (try dsimp only)
  (repeat' split) <;> simp

@[simp] theorem State.dirTake_wf (s : State) (t k i : Nat) (h : s.memOk = true) :
    (State.dirTake s t k i).memOk = true := by
  unfold State.dirTake
  (try dsimp only)
  (repeat' split) <;> simp (maxDischargeDepth := 60) [h]

@[simp] theorem State.dirDurable_kept (s : State) (t k i : Nat) :
    (State.dirDurable s t k i).pending = s.pending ∧ (State.dirDurable s t k i).man = s.man ∧ (State.dirDurable s t k i).mem = s.mem := by
  unfold State.dirDurable
  (try dsimp only)
  (repeat' split) <;> simp

@[simp] theorem State.dirDurable_wf (s : State) (t k i : Nat) (h : s.memOk = true) :
    (State.dirDurable s t k i).memOk = true := by
  unfold State.dirDurable
  (try dsimp only)
  (repeat' split) <;> simp (maxDischargeDepth := 60) [h]

@[simp] theorem State.dirWrite_kept (s : State) (id : Nat) :
    (State.dirWrite s id).pending = s.pending ∧ (State.dirWrite s id).man = s.man := by
  unfold State.dirWrite
  (try dsimp only)
  (repeat' split) <;> simp

@[simp] theorem State.dirWrite_wf (s : State) (id : Nat) (h : s.memOk = true) :
    (State.dirWrite s id).memOk = true := by
  unfold State.dirWrite
  (try dsimp only)
  (repeat' split) <;> simp (maxDischargeDepth := 60) [h]

@[simp] theorem State.dirRemove_kept (s : State) (id : Nat) :
    (State.dirRemove s id).pending = s.pending ∧ (State.dirRemove s id).man = s.man := by
  unfold State.dirRemove
  (try dsimp only)
  (repeat' split) <;> simp

@[simp] theorem State.dirRemove_wf (s : State) (id : Nat) (h : s.memOk = true) :
    (State.dirRemove s id).memOk = true := by
  unfold State.dirRemove
  (try dsimp only)
  (repeat' split) <;> simp (maxDischargeDepth := 60) [h]

@[simp] theorem State.dirFlush_kept (s : State) (c : CmdRef) (t k i id : Nat) (removal : Bool) (result : List Byte) :
    (State.dirFlush s c t k i id removal result).pending = s.pending ∧ (State.dirFlush s c t k i id removal result).man = s.man ∧ (State.dirFlush s c t k i id removal result).mem = s.mem ∧ (State.dirFlush s c t k i id removal result).durable = s.durable := by
  unfold State.dirFlush
  (try dsimp only)
  (repeat' split) <;> simp

@[simp] theorem State.dirFlush_memOk (s : State) (c : CmdRef) (t k i id : Nat) (removal : Bool) (result : List Byte) : (State.dirFlush s c t k i id removal result).memOk = s.memOk := memOk_of_eq (by simp) (by simp)

@[simp] theorem State.allocated_kept (s : State) (c : CmdRef) (id : Nat) (result : List Byte) :
    (State.allocated s c id result).pending = s.pending ∧ (State.allocated s c id result).man = s.man ∧ (State.allocated s c id result).durable = s.durable := by
  unfold State.allocated
  (try dsimp only)
  (repeat' split) <;> simp

@[simp] theorem State.allocated_wf (s : State) (c : CmdRef) (id : Nat) (result : List Byte) (h : s.memOk = true) :
    (State.allocated s c id result).memOk = true := by
  unfold State.allocated
  (try dsimp only)
  (repeat' split) <;> simp (maxDischargeDepth := 60) [h]

@[simp] theorem State.allocate_kept (s : State) (x : Cmd) :
    (State.allocate s x).pending = s.pending ∧ (State.allocate s x).man = s.man := by
  unfold State.allocate
  (try dsimp only)
  (repeat' split) <;> simp

@[simp] theorem State.allocate_wf (s : State) (x : Cmd) (h : s.memOk = true) :
    (State.allocate s x).memOk = true := by
  unfold State.allocate
  (try dsimp only)
  (repeat' split) <;> simp (maxDischargeDepth := 60) [h]

@[simp] theorem execSegAlloc_kept (c : CmdRef) (s : State) :
    (resState (execSegAlloc c s) s).pending = s.pending ∧ (resState (execSegAlloc c s) s).man = s.man := by
  unfold execSegAlloc resState
  (try dsimp only)
  (repeat' split) <;> simp

@[simp] theorem execSegAlloc_wf (c : CmdRef) (s : State) (h : s.memOk = true) :
    (resState (execSegAlloc c s) s).memOk = true := by
  unfold execSegAlloc resState
  (try dsimp only)
  (repeat' split) <;> simp (maxDischargeDepth := 60) [h]

@[simp] theorem execSegFree_kept (c : CmdRef) (s : State) :
    (resState (execSegFree c s) s).pending = s.pending ∧ (resState (execSegFree c s) s).man = s.man ∧ (resState (execSegFree c s) s).mem = s.mem ∧ (resState (execSegFree c s) s).durable = s.durable := by
  unfold execSegFree resState
  (try dsimp only)
  (repeat' split) <;> simp

@[simp] theorem State.strand_kept (s : State) (id : Nat) :
    (State.strand s id).pending = s.pending ∧ (State.strand s id).man = s.man ∧ (State.strand s id).mem = s.mem ∧ (State.strand s id).durable = s.durable := by
  unfold State.strand
  (try dsimp only)
  (repeat' split) <;> simp

@[simp] theorem State.goneSeg_kept (s : State) (id : Nat) :
    (State.goneSeg s id).pending = s.pending ∧ (State.goneSeg s id).man = s.man ∧ (State.goneSeg s id).mem = s.mem ∧ (State.goneSeg s id).durable = s.durable := by
  unfold State.goneSeg
  (try dsimp only)
  (repeat' split) <;> simp

@[simp] theorem State.clearSeg_kept (s : State) (id : Nat) :
    (State.clearSeg s id).pending = s.pending ∧ (State.clearSeg s id).man = s.man ∧ (State.clearSeg s id).mem = s.mem ∧ (State.clearSeg s id).durable = s.durable := by
  unfold State.clearSeg
  (try dsimp only)
  (repeat' split) <;> simp

@[simp] theorem State.clearSeg_memOk (s : State) (id : Nat) : (State.clearSeg s id).memOk = s.memOk := memOk_of_eq (by simp) (by simp)

@[simp] theorem State.freeSeg_kept (s : State) (id : Nat) :
    (State.freeSeg s id).pending = s.pending ∧ (State.freeSeg s id).man = s.man := by
  unfold State.freeSeg
  (try dsimp only)
  (repeat' split) <;> simp

@[simp] theorem State.freeSeg_wf (s : State) (id : Nat) (h : s.memOk = true) :
    (State.freeSeg s id).memOk = true := by
  unfold State.freeSeg
  (try dsimp only)
  (repeat' split) <;> simp (maxDischargeDepth := 60) [h]

@[simp] theorem State.freeEffect_kept (s : State) (c : CmdRef) (id : Nat) :
    (State.freeEffect s c id).pending = s.pending ∧ (State.freeEffect s c id).man = s.man ∧ (State.freeEffect s c id).durable = s.durable := by
  unfold State.freeEffect
  (try dsimp only)
  (repeat' split) <;> simp

@[simp] theorem State.freeEffect_wf (s : State) (c : CmdRef) (id : Nat) (h : s.memOk = true) :
    (State.freeEffect s c id).memOk = true := by
  unfold State.freeEffect
  (try dsimp only)
  (repeat' split) <;> simp (maxDischargeDepth := 60) [h]

@[simp] theorem execSegFreeEffect_kept (c : CmdRef) (s : State) :
    (resState (execSegFreeEffect c s) s).pending = s.pending ∧ (resState (execSegFreeEffect c s) s).man = s.man ∧ (resState (execSegFreeEffect c s) s).durable = s.durable := by
  unfold execSegFreeEffect resState
  (try dsimp only)
  (repeat' split) <;> simp

@[simp] theorem execSegFreeEffect_wf (c : CmdRef) (s : State) (h : s.memOk = true) :
    (resState (execSegFreeEffect c s) s).memOk = true := by
  unfold execSegFreeEffect resState
  (try dsimp only)
  (repeat' split) <;> simp (maxDischargeDepth := 60) [h]

@[simp] theorem State.dirSettle_kept (s : State) (w : DirWait) :
    (State.dirSettle s w).pending = s.pending ∧ (State.dirSettle s w).man = s.man ∧ (State.dirSettle s w).mem = s.mem := by
  unfold State.dirSettle
  (try dsimp only)
  (repeat' split) <;> simp

@[simp] theorem State.dirSettle_wf (s : State) (w : DirWait) (h : s.memOk = true) :
    (State.dirSettle s w).memOk = true := by
  unfold State.dirSettle
  (try dsimp only)
  (repeat' split) <;> simp (maxDischargeDepth := 60) [h]

@[simp] theorem State.dirDone_kept (s : State) (c : CmdRef) (w : DirWait) :
    (State.dirDone s c w).pending = s.pending ∧ (State.dirDone s c w).man = s.man ∧ (State.dirDone s c w).mem = s.mem := by
  unfold State.dirDone
  (try dsimp only)
  (repeat' split) <;> simp

@[simp] theorem State.dirDone_wf (s : State) (c : CmdRef) (w : DirWait) (h : s.memOk = true) :
    (State.dirDone s c w).memOk = true := by
  unfold State.dirDone
  (try dsimp only)
  (repeat' split) <;> simp (maxDischargeDepth := 60) [h]

@[simp] theorem State.dirFail_kept (s : State) (c : CmdRef) (w : DirWait) :
    (State.dirFail s c w).pending = s.pending ∧ (State.dirFail s c w).man = s.man ∧ (State.dirFail s c w).durable = s.durable := by
  unfold State.dirFail
  (try dsimp only)
  (repeat' split) <;> simp

@[simp] theorem State.dirFail_wf (s : State) (c : CmdRef) (w : DirWait) (h : s.memOk = true) :
    (State.dirFail s c w).memOk = true := by
  unfold State.dirFail
  (try dsimp only)
  (repeat' split) <;> simp (maxDischargeDepth := 60) [h]

@[simp] theorem segWriteEff_kept (x : Cmd) (src : HostRead) (s : State) :
    (segWriteEff x src s).pending = s.pending ∧ (segWriteEff x src s).man = s.man ∧ (segWriteEff x src s).durable = s.durable := by
  unfold segWriteEff
  (try dsimp only)
  (repeat' split) <;> simp

@[simp] theorem segWriteEff_wf (x : Cmd) (src : HostRead) (s : State) (h : s.memOk = true) :
    (segWriteEff x src s).memOk = true := by
  unfold segWriteEff
  (try dsimp only)
  (repeat' split) <;> simp (maxDischargeDepth := 60) [h]

@[simp] theorem execSegWrite_kept (c : CmdRef) (src : HostRead) (s : State) :
    (resState (execSegWrite c src s) s).pending = s.pending ∧ (resState (execSegWrite c src s) s).man = s.man ∧ (resState (execSegWrite c src s) s).durable = s.durable := by
  unfold execSegWrite resState
  (try dsimp only)
  (repeat' split) <;> simp

@[simp] theorem execSegWrite_wf (c : CmdRef) (src : HostRead) (s : State) (h : s.memOk = true) :
    (resState (execSegWrite c src s) s).memOk = true := by
  unfold execSegWrite resState
  (try dsimp only)
  (repeat' split) <;> simp (maxDischargeDepth := 60) [h]

@[simp] theorem segReadEff_kept (x : Cmd) (wfail : Option Nat) (s : State) :
    (segReadEff x wfail s).pending = s.pending ∧ (segReadEff x wfail s).man = s.man ∧ (segReadEff x wfail s).mem = s.mem ∧ (segReadEff x wfail s).durable = s.durable := by
  unfold segReadEff
  (try dsimp only)
  (repeat' split) <;> simp

@[simp] theorem execSegRead_kept (c : CmdRef) (wfail : Option Nat) (s : State) :
    (resState (execSegRead c wfail s) s).pending = s.pending ∧ (resState (execSegRead c wfail s) s).man = s.man ∧ (resState (execSegRead c wfail s) s).mem = s.mem ∧ (resState (execSegRead c wfail s) s).durable = s.durable := by
  unfold execSegRead resState
  (try dsimp only)
  (repeat' split) <;> simp

@[simp] theorem State.putFrame_kept (s : State) (id : Nat) (g : Seg) (off : Nat) (fr entry : List Byte) :
    (State.putFrame s id g off fr entry).pending = s.pending ∧ (State.putFrame s id g off fr entry).man = s.man ∧ (State.putFrame s id g off fr entry).durable = s.durable := by
  unfold State.putFrame
  (try dsimp only)
  (repeat' split) <;> simp

@[simp] theorem State.putFrame_wf (s : State) (id : Nat) (g : Seg) (off : Nat) (fr entry : List Byte) (h : s.memOk = true) :
    (State.putFrame s id g off fr entry).memOk = true := by
  unfold State.putFrame
  (try dsimp only)
  (repeat' split) <;> simp (maxDischargeDepth := 60) [h]

@[simp] theorem State.appendFrame_kept (s : State) (t : TileId) (id : Nat) (fr : List Byte) :
    (State.appendFrame s t id fr).pending = s.pending ∧ (State.appendFrame s t id fr).man = s.man ∧ (State.appendFrame s t id fr).durable = s.durable := by
  unfold State.appendFrame
  (try dsimp only)
  (repeat' split) <;> simp

@[simp] theorem State.appendFrame_wf (s : State) (t : TileId) (id : Nat) (fr : List Byte) (h : s.memOk = true) :
    (State.appendFrame s t id fr).memOk = true := by
  unfold State.appendFrame
  (try dsimp only)
  (repeat' split) <;> simp (maxDischargeDepth := 60) [h]

@[simp] theorem copyFrames_kept (x : Cmd) (src dst n k moved : Nat) (s : State) :
    (copyFrames x src dst n k moved s).pending = s.pending ∧ (copyFrames x src dst n k moved s).man = s.man ∧
    (copyFrames x src dst n k moved s).durable = s.durable := by
  induction n generalizing k moved s with
  | zero => simp [copyFrames]
  | succ n ih => unfold copyFrames; dsimp only; (repeat' split) <;> simp [ih]

@[simp] theorem copyFrames_wf (x : Cmd) (src dst n k moved : Nat) (s : State) (h : s.memOk = true) :
    (copyFrames x src dst n k moved s).memOk = true := by
  induction n generalizing k moved s with
  | zero => simp [copyFrames, h]
  | succ n ih => unfold copyFrames; dsimp only; (repeat' split) <;> simp [ih, h]

@[simp] theorem segCopyEff_kept (x : Cmd) (s : State) :
    (segCopyEff x s).pending = s.pending ∧ (segCopyEff x s).man = s.man ∧ (segCopyEff x s).durable = s.durable := by
  unfold segCopyEff
  (try dsimp only)
  (repeat' split) <;> simp

@[simp] theorem segCopyEff_wf (x : Cmd) (s : State) (h : s.memOk = true) :
    (segCopyEff x s).memOk = true := by
  unfold segCopyEff
  (try dsimp only)
  (repeat' split) <;> simp (maxDischargeDepth := 60) [h]

@[simp] theorem execSegCopy_kept (c : CmdRef) (s : State) :
    (resState (execSegCopy c s) s).pending = s.pending ∧ (resState (execSegCopy c s) s).man = s.man ∧ (resState (execSegCopy c s) s).durable = s.durable := by
  unfold execSegCopy resState
  (try dsimp only)
  (repeat' split) <;> simp

@[simp] theorem execSegCopy_wf (c : CmdRef) (s : State) (h : s.memOk = true) :
    (resState (execSegCopy c s) s).memOk = true := by
  unfold execSegCopy resState
  (try dsimp only)
  (repeat' split) <;> simp (maxDischargeDepth := 60) [h]

@[simp] theorem State.makeDurable_kept (s : State) (ids : List Nat) (f : Flush) :
    (State.makeDurable s ids f).pending = s.pending ∧ (State.makeDurable s ids f).man = s.man ∧ (State.makeDurable s ids f).mem = s.mem := by
  unfold State.makeDurable
  (try dsimp only)
  (repeat' split) <;> simp

@[simp] theorem State.makeDurable_wf (s : State) (ids : List Nat) (f : Flush) (h : s.memOk = true) :
    (State.makeDurable s ids f).memOk = true := by
  unfold State.makeDurable
  dsimp only
  refine foldl_memOk _ _ _ (fun s i h => ?_) ?_
  · simp [h]
  · simp (maxDischargeDepth := 9) [h]

@[simp] theorem segFlushEff_kept (x : Cmd) (s : State) :
    (segFlushEff x s).pending = s.pending ∧ (segFlushEff x s).man = s.man ∧ (segFlushEff x s).durable = s.durable := by
  unfold segFlushEff
  (try dsimp only)
  (repeat' split) <;> simp

@[simp] theorem segFlushEff_wf (x : Cmd) (s : State) (h : s.memOk = true) :
    (segFlushEff x s).memOk = true := by
  unfold segFlushEff
  (try dsimp only)
  (repeat' split) <;> simp (maxDischargeDepth := 60) [h]

@[simp] theorem execSegFlush_kept (c : CmdRef) (s : State) :
    (resState (execSegFlush c s) s).pending = s.pending ∧ (resState (execSegFlush c s) s).man = s.man ∧ (resState (execSegFlush c s) s).durable = s.durable := by
  unfold execSegFlush resState
  (try dsimp only)
  (repeat' split) <;> simp

@[simp] theorem execSegFlush_wf (c : CmdRef) (s : State) (h : s.memOk = true) :
    (resState (execSegFlush c s) s).memOk = true := by
  unfold execSegFlush resState
  (try dsimp only)
  (repeat' split) <;> simp (maxDischargeDepth := 60) [h]

@[simp] theorem State.flushGo_kept (s : State) (c : CmdRef) (f : Flush) :
    (State.flushGo s c f).pending = s.pending ∧ (State.flushGo s c f).man = s.man ∧ (State.flushGo s c f).mem = s.mem := by
  unfold State.flushGo
  (try dsimp only)
  (repeat' split) <;> simp

@[simp] theorem State.flushGo_wf (s : State) (c : CmdRef) (f : Flush) (h : s.memOk = true) :
    (State.flushGo s c f).memOk = true := by
  unfold State.flushGo
  (try dsimp only)
  (repeat' split) <;> simp (maxDischargeDepth := 60) [h]

@[simp] theorem State.logPersist_kept (s : State) (t : TileId) (expander : Nat) :
    (State.logPersist s t expander).pending = s.pending ∧ (State.logPersist s t expander).man = s.man ∧ (State.logPersist s t expander).mem = s.mem ∧ (State.logPersist s t expander).durable = s.durable := by
  unfold State.logPersist
  (try dsimp only)
  (repeat' split) <;> simp

@[simp] theorem State.logPersist_memOk (s : State) (t : TileId) (expander : Nat) : (State.logPersist s t expander).memOk = s.memOk := memOk_of_eq (by simp) (by simp)

@[simp] theorem State.gpfFail_kept (s : State) (c : CmdRef) (t : TileId) (expander : Nat) (f : Flush) :
    (State.gpfFail s c t expander f).pending = s.pending ∧ (State.gpfFail s c t expander f).man = s.man ∧ (State.gpfFail s c t expander f).mem = s.mem := by
  unfold State.gpfFail
  (try dsimp only)
  (repeat' split) <;> simp

@[simp] theorem State.gpfFail_wf (s : State) (c : CmdRef) (t : TileId) (expander : Nat) (f : Flush) (h : s.memOk = true) :
    (State.gpfFail s c t expander f).memOk = true := by
  unfold State.gpfFail
  (try dsimp only)
  (repeat' split) <;> simp (maxDischargeDepth := 60) [h]

@[simp] theorem State.flushPhase_kept (s : State) (c : CmdRef) (t : TileId) (expander : Nat) (f : Flush) (p : GpfPhase) (err : Bool) :
    (State.flushPhase s c t expander f p err).pending = s.pending ∧ (State.flushPhase s c t expander f p err).man = s.man ∧ (State.flushPhase s c t expander f p err).mem = s.mem := by
  unfold State.flushPhase
  (try dsimp only)
  (repeat' split) <;> simp

@[simp] theorem State.flushPhase_wf (s : State) (c : CmdRef) (t : TileId) (expander : Nat) (f : Flush) (p : GpfPhase) (err : Bool) (h : s.memOk = true) :
    (State.flushPhase s c t expander f p err).memOk = true := by
  unfold State.flushPhase
  (try dsimp only)
  (repeat' split) <;> simp (maxDischargeDepth := 60) [h]

@[simp] theorem State.dirPhase_kept (s : State) (c : CmdRef) (t : TileId) (expander : Nat) (w : DirWait) (err : Bool) :
    (State.dirPhase s c t expander w err).pending = s.pending ∧ (State.dirPhase s c t expander w err).man = s.man := by
  unfold State.dirPhase
  (try dsimp only)
  (repeat' split) <;> simp

@[simp] theorem State.dirPhase_wf (s : State) (c : CmdRef) (t : TileId) (expander : Nat) (w : DirWait) (err : Bool) (h : s.memOk = true) :
    (State.dirPhase s c t expander w err).memOk = true := by
  unfold State.dirPhase
  (try dsimp only)
  (repeat' split) <;> simp (maxDischargeDepth := 60) [h]

@[simp] theorem gpfEff_kept (c : CmdRef) (t : TileId) (expander : Nat) (err : Bool) (s : State) :
    (gpfEff c t expander err s).pending = s.pending ∧ (gpfEff c t expander err s).man = s.man := by
  unfold gpfEff
  (try dsimp only)
  (repeat' split) <;> simp

@[simp] theorem gpfEff_wf (c : CmdRef) (t : TileId) (expander : Nat) (err : Bool) (s : State) (h : s.memOk = true) :
    (gpfEff c t expander err s).memOk = true := by
  unfold gpfEff
  (try dsimp only)
  (repeat' split) <;> simp (maxDischargeDepth := 60) [h]

@[simp] theorem execGpfPhaseDone_kept (c : CmdRef) (t : TileId) (expander : Nat) (err : Bool) (s : State) :
    (resState (execGpfPhaseDone c t expander err s) s).pending = s.pending ∧ (resState (execGpfPhaseDone c t expander err s) s).man = s.man := by
  unfold execGpfPhaseDone resState
  (try dsimp only)
  (repeat' split) <;> simp

@[simp] theorem execGpfPhaseDone_wf (c : CmdRef) (t : TileId) (expander : Nat) (err : Bool) (s : State) (h : s.memOk = true) :
    (resState (execGpfPhaseDone c t expander err s) s).memOk = true := by
  unfold execGpfPhaseDone resState
  (try dsimp only)
  (repeat' split) <;> simp (maxDischargeDepth := 60) [h]

@[simp] theorem execGpfTimeout_kept (c : CmdRef) (t : TileId) (expander : Nat) (s : State) :
    (resState (execGpfTimeout c t expander s) s).pending = s.pending ∧ (resState (execGpfTimeout c t expander s) s).man = s.man := by
  unfold execGpfTimeout resState
  (try dsimp only)
  (repeat' split) <;> simp

@[simp] theorem execGpfTimeout_wf (c : CmdRef) (t : TileId) (expander : Nat) (s : State) (h : s.memOk = true) :
    (resState (execGpfTimeout c t expander s) s).memOk = true := by
  unfold execGpfTimeout resState
  (try dsimp only)
  (repeat' split) <;> simp (maxDischargeDepth := 60) [h]

@[simp] theorem State.fenceKnown_kept (s : State) (tq : Nat) :
    (State.fenceKnown s tq).pending = s.pending ∧ (State.fenceKnown s tq).man = s.man ∧ (State.fenceKnown s tq).mem = s.mem ∧ (State.fenceKnown s tq).durable = s.durable := by
  unfold State.fenceKnown
  (try dsimp only)
  (repeat' split) <;> simp

@[simp] theorem State.fenceAdvance_kept (s : State) (tq n order : Nat) :
    (State.fenceAdvance s tq n order).pending = s.pending ∧ (State.fenceAdvance s tq n order).man = s.man ∧ (State.fenceAdvance s tq n order).mem = s.mem ∧ (State.fenceAdvance s tq n order).durable = s.durable := by
  unfold State.fenceAdvance
  (try dsimp only)
  (repeat' split) <;> simp

@[simp] theorem State.fenceReached_kept (s : State) (tq : Nat) :
    (State.fenceReached s tq).pending = s.pending ∧ (State.fenceReached s tq).man = s.man ∧ (State.fenceReached s tq).mem = s.mem ∧ (State.fenceReached s tq).durable = s.durable := by
  unfold State.fenceReached
  (try dsimp only)
  (repeat' split) <;> simp

@[simp] theorem State.fenceReached_memOk (s : State) (tq : Nat) : (State.fenceReached s tq).memOk = s.memOk := memOk_of_eq (by simp) (by simp)

@[simp] theorem execFence_kept (c : CmdRef) (s : State) :
    (resState (execFence c s) s).pending = s.pending ∧ (resState (execFence c s) s).man = s.man ∧ (resState (execFence c s) s).mem = s.mem ∧ (resState (execFence c s) s).durable = s.durable := by
  unfold execFence resState
  (try dsimp only)
  (repeat' split) <;> simp

end Sys2Proof.Machine
end

