-- ==== Sys2Proof/Laws/KeptCodec.lean ====
section
/-! SUPPORT. What the operations of Machine/Codec.lean leave as it was. -/

namespace Sys2Proof.Machine

@[simp] theorem State.onCodec_kept (s : State) (t : TileId) (f : List CodecJob → List CodecJob) :
    (State.onCodec s t f).pending = s.pending ∧ (State.onCodec s t f).man = s.man ∧ (State.onCodec s t f).mem = s.mem ∧ (State.onCodec s t f).durable = s.durable := by
  unfold State.onCodec
  (try dsimp only)
  (repeat' split) <;> simp

@[simp] theorem State.onCodec_memOk (s : State) (t : TileId) (f : List CodecJob → List CodecJob) : (State.onCodec s t f).memOk = s.memOk := memOk_of_eq (by simp) (by simp)

@[simp] theorem State.postCodec_kept (s : State) (x : Cmd) :
    (State.postCodec s x).pending = s.pending ∧ (State.postCodec s x).man = s.man ∧ (State.postCodec s x).mem = s.mem ∧ (State.postCodec s x).durable = s.durable := by
  unfold State.postCodec
  (try dsimp only)
  (repeat' split) <;> simp

@[simp] theorem execCompress_kept (c : CmdRef) (s : State) :
    (resState (execCompress c s) s).pending = s.pending ∧ (resState (execCompress c s) s).man = s.man ∧ (resState (execCompress c s) s).mem = s.mem ∧ (resState (execCompress c s) s).durable = s.durable := by
  unfold execCompress resState
  (try dsimp only)
  (repeat' split) <;> simp

@[simp] theorem execDecompress_kept (c : CmdRef) (s : State) :
    (resState (execDecompress c s) s).pending = s.pending ∧ (resState (execDecompress c s) s).man = s.man ∧ (resState (execDecompress c s) s).mem = s.mem ∧ (resState (execDecompress c s) s).durable = s.durable := by
  unfold execDecompress resState
  (try dsimp only)
  (repeat' split) <;> simp

@[simp] theorem State.codecWrite_kept (s : State) (x : Cmd) (j : CodecJob) (out : List Byte) (wfail : Option Nat) :
    (State.codecWrite s x j out wfail).pending = s.pending ∧ (State.codecWrite s x j out wfail).man = s.man ∧ (State.codecWrite s x j out wfail).durable = s.durable := by
  unfold State.codecWrite
  (try dsimp only)
  (repeat' split) <;> simp

@[simp] theorem State.codecWrite_wf (s : State) (x : Cmd) (j : CodecJob) (out : List Byte) (wfail : Option Nat) (h : s.memOk = true) :
    (State.codecWrite s x j out wfail).memOk = true := by
  unfold State.codecWrite
  (try dsimp only)
  (repeat' split) <;> simp (maxDischargeDepth := 60) [h]

@[simp] theorem State.moveCodec_kept (s : State) (t : TileId) (jobs : List CodecJob) :
    (State.moveCodec s t jobs).pending = s.pending ∧ (State.moveCodec s t jobs).man = s.man ∧ (State.moveCodec s t jobs).mem = s.mem ∧ (State.moveCodec s t jobs).durable = s.durable := by
  unfold State.moveCodec
  (try dsimp only)
  (repeat' split) <;> simp

@[simp] theorem State.fenceCodec_kept (s : State) (t : TileId) :
    (State.fenceCodec s t).pending = s.pending ∧ (State.fenceCodec s t).man = s.man ∧ (State.fenceCodec s t).mem = s.mem ∧ (State.fenceCodec s t).durable = s.durable := by
  unfold State.fenceCodec
  (try dsimp only)
  (repeat' split) <;> simp

@[simp] theorem State.fenceCodec_memOk (s : State) (t : TileId) : (State.fenceCodec s t).memOk = s.memOk := memOk_of_eq (by simp) (by simp)

theorem State.codecMiss_getD {α : Type} (g : State → α) (s u : State) (t : TileId) (j : CodecJob)
    (h1 : ∀ f, g (s.onCodec t f) = g s) (h2 : ∀ f, g ((s.onCodec t f).fenceCodec t) = g s) :
    g ((State.codecMiss s t j).getD u) = if j.miss < 2 then g s else g u := by
  unfold State.codecMiss
  split
  · next h => simp [h, h1]
  · split
    · next h => simp [h, h2]
    · have : ¬ j.miss < 2 := by omega
      simp [this]

@[simp] theorem State.codecMiss_pending (s u : State) (t : TileId) (j : CodecJob) :
    ((State.codecMiss s t j).getD u).pending = if j.miss < 2 then s.pending else u.pending := codecMiss_getD State.pending s u t j (by simp) (by simp)

@[simp] theorem State.codecMiss_man (s u : State) (t : TileId) (j : CodecJob) :
    ((State.codecMiss s t j).getD u).man = if j.miss < 2 then s.man else u.man := codecMiss_getD State.man s u t j (by simp) (by simp)

@[simp] theorem State.codecMiss_mem (s u : State) (t : TileId) (j : CodecJob) :
    ((State.codecMiss s t j).getD u).mem = if j.miss < 2 then s.mem else u.mem := codecMiss_getD State.mem s u t j (by simp) (by simp)

@[simp] theorem State.codecMiss_durable (s u : State) (t : TileId) (j : CodecJob) :
    ((State.codecMiss s t j).getD u).durable = if j.miss < 2 then s.durable else u.durable :=
  codecMiss_getD State.durable s u t j (by simp) (by simp)

@[simp] theorem State.codecMiss_memOk (s u : State) (t : TileId) (j : CodecJob) :
    ((State.codecMiss s t j).getD u).memOk = if j.miss < 2 then s.memOk else u.memOk :=
  codecMiss_getD State.memOk s u t j (fun _ => memOk_of_eq (by simp) (by simp)) (fun _ => memOk_of_eq (by simp) (by simp))

@[simp] theorem codecStep_kept (t : TileId) (x : Cmd) (j : CodecJob) (src : HostRead) (wfail : Option Nat) (mismatch : Bool) (s : State) :
    (codecStep t x j src wfail mismatch s).pending = s.pending ∧ (codecStep t x j src wfail mismatch s).man = s.man ∧ (codecStep t x j src wfail mismatch s).durable = s.durable := by
  unfold codecStep
  (try dsimp only)
  (repeat' split) <;> simp

@[simp] theorem codecStep_wf (t : TileId) (x : Cmd) (j : CodecJob) (src : HostRead) (wfail : Option Nat) (mismatch : Bool) (s : State) (h : s.memOk = true) :
    (codecStep t x j src wfail mismatch s).memOk = true := by
  unfold codecStep
  (try dsimp only)
  (repeat' split) <;> simp (maxDischargeDepth := 60) [h]

end Sys2Proof.Machine
end

