-- ==== Sys2Proof/Laws/KeptDigest.lean ====
section
/-! SUPPORT. What the operations of Machine/Digest.lean leave as it was. -/

namespace Sys2Proof.Machine

@[simp] theorem State.onDigest_kept (s : State) (t : TileId) (f : Digest → Digest) :
    (State.onDigest s t f).pending = s.pending ∧ (State.onDigest s t f).man = s.man ∧ (State.onDigest s t f).mem = s.mem ∧ (State.onDigest s t f).durable = s.durable := by
  unfold State.onDigest
  (try dsimp only)
  (repeat' split) <;> simp

@[simp] theorem State.onDigest_memOk (s : State) (t : TileId) (f : Digest → Digest) : (State.onDigest s t f).memOk = s.memOk := memOk_of_eq (by simp) (by simp)

@[simp] theorem State.setLane_kept (s : State) (t : TileId) (l : Fin 8) (k : Lane) :
    (State.setLane s t l k).pending = s.pending ∧ (State.setLane s t l k).man = s.man ∧ (State.setLane s t l k).mem = s.mem ∧ (State.setLane s t l k).durable = s.durable := by
  unfold State.setLane
  (try dsimp only)
  (repeat' split) <;> simp

@[simp] theorem State.releaseRecord_kept (s : State) (j : Job) :
    (State.releaseRecord s j).pending = s.pending ∧ (State.releaseRecord s j).man = s.man ∧ (State.releaseRecord s j).mem = s.mem ∧ (State.releaseRecord s j).durable = s.durable := by
  unfold State.releaseRecord
  (try dsimp only)
  (repeat' split) <;> simp

@[simp] theorem State.jobFail_kept (s : State) (j : Job) (k : Completion) :
    (State.jobFail s j k).pending = s.pending ∧ (State.jobFail s j k).man = s.man ∧ (State.jobFail s j k).mem = s.mem ∧ (State.jobFail s j k).durable = s.durable := by
  unfold State.jobFail
  (try dsimp only)
  (repeat' split) <;> simp

@[simp] theorem State.jobReadFail_kept (s : State) (j : Job) (k : Completion) (addr : Option Nat) :
    (State.jobReadFail s j k addr).pending = s.pending ∧ (State.jobReadFail s j k addr).man = s.man ∧ (State.jobReadFail s j k addr).mem = s.mem ∧ (State.jobReadFail s j k addr).durable = s.durable := by
  unfold State.jobReadFail
  (try dsimp only)
  (repeat' split) <;> simp

@[simp] theorem State.postJob_kept (s : State) (x : Cmd) (hmac : Bool) :
    (State.postJob s x hmac).pending = s.pending ∧ (State.postJob s x hmac).man = s.man ∧ (State.postJob s x hmac).mem = s.mem ∧ (State.postJob s x hmac).durable = s.durable := by
  unfold State.postJob
  (try dsimp only)
  (repeat' split) <;> simp

@[simp] theorem execDigest_kept (c : CmdRef) (s : State) :
    (resState (execDigest c s) s).pending = s.pending ∧ (resState (execDigest c s) s).man = s.man ∧ (resState (execDigest c s) s).mem = s.mem ∧ (resState (execDigest c s) s).durable = s.durable := by
  unfold execDigest resState
  (try dsimp only)
  (repeat' split) <;> simp

@[simp] theorem execHmac_kept (c : CmdRef) (s : State) :
    (resState (execHmac c s) s).pending = s.pending ∧ (resState (execHmac c s) s).man = s.man ∧ (resState (execHmac c s) s).mem = s.mem ∧ (resState (execHmac c s) s).durable = s.durable := by
  unfold execHmac resState
  (try dsimp only)
  (repeat' split) <;> simp

@[simp] theorem execDigestLaneTake_kept (t : TileId) (lane : Fin 8) (s : State) :
    (resState (execDigestLaneTake t lane s) s).pending = s.pending ∧ (resState (execDigestLaneTake t lane s) s).man = s.man ∧ (resState (execDigestLaneTake t lane s) s).mem = s.mem ∧ (resState (execDigestLaneTake t lane s) s).durable = s.durable := by
  unfold execDigestLaneTake resState
  (try dsimp only)
  (repeat' split) <;> simp

@[simp] theorem digestPreemptEff_kept (t : TileId) (lane : Fin 8) (doneBytes : Nat) (msg : HostRead) (s : State) :
    (digestPreemptEff t lane doneBytes msg s).pending = s.pending ∧ (digestPreemptEff t lane doneBytes msg s).man = s.man ∧ (digestPreemptEff t lane doneBytes msg s).mem = s.mem ∧ (digestPreemptEff t lane doneBytes msg s).durable = s.durable := by
  unfold digestPreemptEff
  (try dsimp only)
  (repeat' split) <;> simp

@[simp] theorem execDigestPreempt_kept (t : TileId) (lane : Fin 8) (doneBytes : Nat) (msg : HostRead) (s : State) :
    (resState (execDigestPreempt t lane doneBytes msg s) s).pending = s.pending ∧ (resState (execDigestPreempt t lane doneBytes msg s) s).man = s.man ∧ (resState (execDigestPreempt t lane doneBytes msg s) s).mem = s.mem ∧ (resState (execDigestPreempt t lane doneBytes msg s) s).durable = s.durable := by
  unfold execDigestPreempt resState
  (try dsimp only)
  (repeat' split) <;> simp

@[simp] theorem digestSaveDoneEff_kept (t : TileId) (lane : Fin 8) (s : State) :
    (digestSaveDoneEff t lane s).pending = s.pending ∧ (digestSaveDoneEff t lane s).man = s.man ∧ (digestSaveDoneEff t lane s).mem = s.mem ∧ (digestSaveDoneEff t lane s).durable = s.durable := by
  unfold digestSaveDoneEff
  (try dsimp only)
  (repeat' split) <;> simp

@[simp] theorem execDigestSaveDone_kept (t : TileId) (lane : Fin 8) (s : State) :
    (resState (execDigestSaveDone t lane s) s).pending = s.pending ∧ (resState (execDigestSaveDone t lane s) s).man = s.man ∧ (resState (execDigestSaveDone t lane s) s).mem = s.mem ∧ (resState (execDigestSaveDone t lane s) s).durable = s.durable := by
  unfold execDigestSaveDone resState
  (try dsimp only)
  (repeat' split) <;> simp

@[simp] theorem execDigestRestore_kept (t : TileId) (lane : Fin 8) (authentic : Bool) (s : State) :
    (resState (execDigestRestore t lane authentic s) s).pending = s.pending ∧ (resState (execDigestRestore t lane authentic s) s).man = s.man ∧ (resState (execDigestRestore t lane authentic s) s).mem = s.mem ∧ (resState (execDigestRestore t lane authentic s) s).durable = s.durable := by
  unfold execDigestRestore resState
  (try dsimp only)
  (repeat' split) <;> simp

@[simp] theorem digestJobDoneEff_kept (t : TileId) (lane : Fin 8) (msg : HostRead) (wfail : Bool) (s : State) :
    (digestJobDoneEff t lane msg wfail s).pending = s.pending ∧ (digestJobDoneEff t lane msg wfail s).man = s.man ∧ (digestJobDoneEff t lane msg wfail s).mem = s.mem ∧ (digestJobDoneEff t lane msg wfail s).durable = s.durable := by
  unfold digestJobDoneEff
  (try dsimp only)
  (repeat' split) <;> simp

@[simp] theorem execDigestJobDone_kept (t : TileId) (lane : Fin 8) (msg : HostRead) (wfail : Bool) (s : State) :
    (resState (execDigestJobDone t lane msg wfail s) s).pending = s.pending ∧ (resState (execDigestJobDone t lane msg wfail s) s).man = s.man ∧ (resState (execDigestJobDone t lane msg wfail s) s).mem = s.mem ∧ (resState (execDigestJobDone t lane msg wfail s) s).durable = s.durable := by
  unfold execDigestJobDone resState
  (try dsimp only)
  (repeat' split) <;> simp

@[simp] theorem State.moveDigest_kept (s : State) (t : TileId) (jobs : List Job) :
    (State.moveDigest s t jobs).pending = s.pending ∧ (State.moveDigest s t jobs).man = s.man ∧ (State.moveDigest s t jobs).mem = s.mem ∧ (State.moveDigest s t jobs).durable = s.durable := by
  unfold State.moveDigest
  (try dsimp only)
  (repeat' split) <;> simp

@[simp] theorem State.fenceDigest_kept (s : State) (t : TileId) :
    (State.fenceDigest s t).pending = s.pending ∧ (State.fenceDigest s t).man = s.man ∧ (State.fenceDigest s t).mem = s.mem ∧ (State.fenceDigest s t).durable = s.durable := by
  unfold State.fenceDigest
  (try dsimp only)
  (repeat' split) <;> simp

@[simp] theorem State.fenceDigest_memOk (s : State) (t : TileId) : (State.fenceDigest s t).memOk = s.memOk := memOk_of_eq (by simp) (by simp)

@[simp] theorem execDigestLaneError_kept (t : TileId) (lane : Fin 8) (s : State) :
    (resState (execDigestLaneError t lane s) s).pending = s.pending ∧ (resState (execDigestLaneError t lane s) s).man = s.man ∧ (resState (execDigestLaneError t lane s) s).mem = s.mem ∧ (resState (execDigestLaneError t lane s) s).durable = s.durable := by
  unfold execDigestLaneError resState
  (try dsimp only)
  (repeat' split) <;> simp

@[simp] theorem digViewGoEff_kept (t : TileId) (ctl off : Word32) (desc list : List Byte) (s : State) :
    (digViewGoEff t ctl off desc list s).pending = s.pending ∧ (digViewGoEff t ctl off desc list s).man = s.man ∧ (digViewGoEff t ctl off desc list s).mem = s.mem ∧ (digViewGoEff t ctl off desc list s).durable = s.durable := by
  unfold digViewGoEff
  (try dsimp only)
  (repeat' split) <;> simp

@[simp] theorem execDigViewGo_kept (t : TileId) (ctl off : Word32) (desc list : List Byte) (s : State) :
    (resState (execDigViewGo t ctl off desc list s) s).pending = s.pending ∧ (resState (execDigViewGo t ctl off desc list s) s).man = s.man ∧ (resState (execDigViewGo t ctl off desc list s) s).mem = s.mem ∧ (resState (execDigViewGo t ctl off desc list s) s).durable = s.durable := by
  unfold execDigViewGo resState
  (try dsimp only)
  (repeat' split) <;> simp

@[simp] theorem execDigViewEarlyRead_kept (t : TileId) (_i : Fin 16) (s : State) :
    (resState (execDigViewEarlyRead t _i s) s).pending = s.pending ∧ (resState (execDigViewEarlyRead t _i s) s).man = s.man ∧ (resState (execDigViewEarlyRead t _i s) s).mem = s.mem ∧ (resState (execDigViewEarlyRead t _i s) s).durable = s.durable := by
  unfold execDigViewEarlyRead resState
  (try dsimp only)
  (repeat' split) <;> simp

@[simp] theorem keyLoadEff_kept (x : Cmd) (wrapped : HostRead) (s : State) :
    (keyLoadEff x wrapped s).pending = s.pending ∧ (keyLoadEff x wrapped s).man = s.man ∧ (keyLoadEff x wrapped s).mem = s.mem ∧ (keyLoadEff x wrapped s).durable = s.durable := by
  unfold keyLoadEff
  (try dsimp only)
  (repeat' split) <;> simp

@[simp] theorem execKeyLoad_kept (c : CmdRef) (wrapped : HostRead) (s : State) :
    (resState (execKeyLoad c wrapped s) s).pending = s.pending ∧ (resState (execKeyLoad c wrapped s) s).man = s.man ∧ (resState (execKeyLoad c wrapped s) s).mem = s.mem ∧ (resState (execKeyLoad c wrapped s) s).durable = s.durable := by
  unfold execKeyLoad resState
  (try dsimp only)
  (repeat' split) <;> simp

@[simp] theorem execKeyClear_kept (c : CmdRef) (s : State) :
    (resState (execKeyClear c s) s).pending = s.pending ∧ (resState (execKeyClear c s) s).man = s.man ∧ (resState (execKeyClear c s) s).mem = s.mem ∧ (resState (execKeyClear c s) s).durable = s.durable := by
  unfold execKeyClear resState
  (try dsimp only)
  (repeat' split) <;> simp

@[simp] theorem State.clearKey_kept (s : State) (n : Nat) :
    (State.clearKey s n).pending = s.pending ∧ (State.clearKey s n).man = s.man ∧ (State.clearKey s n).mem = s.mem ∧ (State.clearKey s n).durable = s.durable := by
  unfold State.clearKey
  (try dsimp only)
  (repeat' split) <;> simp

@[simp] theorem State.clearKey_memOk (s : State) (n : Nat) : (State.clearKey s n).memOk = s.memOk := memOk_of_eq (by simp) (by simp)

@[simp] theorem State.putKey_kept (s : State) (n : Nat) (k : KeySlot) :
    (State.putKey s n k).pending = s.pending ∧ (State.putKey s n k).man = s.man ∧ (State.putKey s n k).mem = s.mem ∧ (State.putKey s n k).durable = s.durable := by
  unfold State.putKey
  (try dsimp only)
  (repeat' split) <;> simp

@[simp] theorem State.putKey_memOk (s : State) (n : Nat) (k : KeySlot) : (State.putKey s n k).memOk = s.memOk := memOk_of_eq (by simp) (by simp)

@[simp] theorem execKeyChangeEffect_kept (c : CmdRef) (s : State) :
    (resState (execKeyChangeEffect c s) s).pending = s.pending ∧ (resState (execKeyChangeEffect c s) s).man = s.man ∧ (resState (execKeyChangeEffect c s) s).mem = s.mem ∧ (resState (execKeyChangeEffect c s) s).durable = s.durable := by
  unfold execKeyChangeEffect resState
  (try dsimp only)
  (repeat' split) <;> simp

end Sys2Proof.Machine
end

