-- ==== Sys2Proof/Laws/KeptQueues.lean ====
section
/-! SUPPORT. What the operations of Machine/Queues.lean leave as it was. -/

namespace Sys2Proof.Machine

@[simp] theorem State.stopQuery_kept (s : State) (qid : Nat) :
    (State.stopQuery s qid).pending = s.pending ∧ (State.stopQuery s qid).man = s.man ∧ (State.stopQuery s qid).mem = s.mem ∧ (State.stopQuery s qid).durable = s.durable := by
  unfold State.stopQuery
  (try dsimp only)
  (repeat' split) <;> simp

@[simp] theorem State.removeJobs_kept (s : State) (c : CmdRef) :
    (State.removeJobs s c).pending = s.pending ∧ (State.removeJobs s c).man = s.man ∧ (State.removeJobs s c).mem = s.mem ∧ (State.removeJobs s c).durable = s.durable := by
  unfold State.removeJobs
  (try dsimp only)
  (repeat' split) <;> simp

@[simp] theorem State.removeJobs_memOk (s : State) (c : CmdRef) : (State.removeJobs s c).memOk = s.memOk := memOk_of_eq (by simp) (by simp)

@[simp] theorem State.cancelActivation_kept (s : State) (c : CmdRef) :
    (State.cancelActivation s c).pending = s.pending ∧ (State.cancelActivation s c).man = s.man ∧ (State.cancelActivation s c).mem = s.mem ∧ (State.cancelActivation s c).durable = s.durable := by
  unfold State.cancelActivation
  (try dsimp only)
  (repeat' split) <;> simp

@[simp] theorem State.cancelActivation_memOk (s : State) (c : CmdRef) : (State.cancelActivation s c).memOk = s.memOk := memOk_of_eq (by simp) (by simp)

@[simp] theorem State.releaseHeld_kept (s : State) (c : CmdRef) :
    (State.releaseHeld s c).pending = s.pending ∧ (State.releaseHeld s c).man = s.man ∧ (State.releaseHeld s c).mem = s.mem ∧ (State.releaseHeld s c).durable = s.durable := by
  unfold State.releaseHeld
  (try dsimp only)
  (repeat' split) <;> simp

@[simp] theorem State.releaseHeld_memOk (s : State) (c : CmdRef) : (State.releaseHeld s c).memOk = s.memOk := memOk_of_eq (by simp) (by simp)

@[simp] theorem State.abortCmd_kept (s : State) (x : Cmd) :
    (State.abortCmd s x).pending = s.pending ∧ (State.abortCmd s x).man = s.man ∧ (State.abortCmd s x).mem = s.mem := by
  unfold State.abortCmd
  (try dsimp only)
  (repeat' split) <;> simp

@[simp] theorem State.abortCmd_wf (s : State) (x : Cmd) (h : s.memOk = true) :
    (State.abortCmd s x).memOk = true := by
  unfold State.abortCmd
  (try dsimp only)
  (repeat' split) <;> simp (maxDischargeDepth := 60) [h]

@[simp] theorem State.disableQueue_kept (s : State) (q : Nat) :
    (State.disableQueue s q).pending = s.pending ∧ (State.disableQueue s q).man = s.man ∧ (State.disableQueue s q).mem = s.mem ∧ (State.disableQueue s q).durable = s.durable := by
  unfold State.disableQueue
  (try dsimp only)
  (repeat' split) <;> simp

@[simp] theorem State.disableQueue_memOk (s : State) (q : Nat) : (State.disableQueue s q).memOk = s.memOk := memOk_of_eq (by simp) (by simp)

@[simp] theorem State.enableQueue_kept (s : State) (q : Nat) :
    (State.enableQueue s q).pending = s.pending ∧ (State.enableQueue s q).man = s.man ∧ (State.enableQueue s q).mem = s.mem ∧ (State.enableQueue s q).durable = s.durable := by
  unfold State.enableQueue
  (try dsimp only)
  (repeat' split) <;> simp

@[simp] theorem State.enableQueue_memOk (s : State) (q : Nat) : (State.enableQueue s q).memOk = s.memOk := memOk_of_eq (by simp) (by simp)

@[simp] theorem State.queueIrq_kept (s : State) (q : Nat) :
    (State.queueIrq s q).pending = s.pending ∧ (State.queueIrq s q).man = s.man ∧ (State.queueIrq s q).mem = s.mem ∧ (State.queueIrq s q).durable = s.durable := by
  unfold State.queueIrq
  (try dsimp only)
  (repeat' split) <;> simp

@[simp] theorem State.queueIrq_memOk (s : State) (q : Nat) : (State.queueIrq s q).memOk = s.memOk := memOk_of_eq (by simp) (by simp)

@[simp] theorem State.stopCmd_kept (s : State) (x : Cmd) :
    (State.stopCmd s x).pending = s.pending ∧ (State.stopCmd s x).man = s.man ∧ (State.stopCmd s x).mem = s.mem ∧ (State.stopCmd s x).durable = s.durable := by
  unfold State.stopCmd
  (try dsimp only)
  (repeat' split) <;> simp

@[simp] theorem State.stopCmd_memOk (s : State) (x : Cmd) : (State.stopCmd s x).memOk = s.memOk := memOk_of_eq (by simp) (by simp)

@[simp] theorem State.resetEnd_kept (s : State) (q : Nat) :
    (State.resetEnd s q).pending = s.pending ∧ (State.resetEnd s q).man = s.man ∧ (State.resetEnd s q).mem = s.mem := by
  unfold State.resetEnd
  (try dsimp only)
  (repeat' split) <;> simp

@[simp] theorem State.resetEnd_wf (s : State) (q : Nat) (h : s.memOk = true) :
    (State.resetEnd s q).memOk = true := by
  unfold State.resetEnd
  (try dsimp only)
  (repeat' split) <;> simp_all (maxDischargeDepth := 60)

@[simp] theorem State.resetBegin_kept (s : State) (q : Nat) :
    (State.resetBegin s q).pending = s.pending ∧ (State.resetBegin s q).man = s.man ∧ (State.resetBegin s q).mem = s.mem := by
  unfold State.resetBegin
  (try dsimp only)
  (repeat' split) <;> simp

@[simp] theorem State.resetBegin_wf (s : State) (q : Nat) (h : s.memOk = true) :
    (State.resetBegin s q).memOk = true := by
  unfold State.resetBegin
  (try dsimp only)
  (repeat' split) <;> simp_all (maxDischargeDepth := 60)

@[simp] theorem State.forceStop_kept (s : State) (q : Nat) :
    (State.forceStop s q).pending = s.pending ∧ (State.forceStop s q).man = s.man ∧ (State.forceStop s q).mem = s.mem := by
  unfold State.forceStop
  (try dsimp only)
  (repeat' split) <;> simp

@[simp] theorem State.forceStop_wf (s : State) (q : Nat) (h : s.memOk = true) :
    (State.forceStop s q).memOk = true := by
  unfold State.forceStop
  try dsimp only
  repeat' (first | assumption | (simp (maxDischargeDepth := 60) [h]; done) | (simp (maxDischargeDepth := 60) [*]; done) | split | refine foldl_memOk _ _ _ (fun _ _ _ => ?_) ?_)

end Sys2Proof.Machine
end

