-- ==== Sys2Proof/Laws/KeptFences.lean ====
section
/-! SUPPORT. What the operations of Machine/Fences.lean leave as it was. -/

namespace Sys2Proof.Machine

@[simp] theorem State.loseSegs_kept (s : State) (t : Nat) (tier : Option Nat) :
    (State.loseSegs s t tier).pending = s.pending ∧ (State.loseSegs s t tier).man = s.man ∧ (State.loseSegs s t tier).mem = s.mem ∧ (State.loseSegs s t tier).durable = s.durable := by
  unfold State.loseSegs
  (try dsimp only)
  (repeat' split) <;> simp

@[simp] theorem State.loseSegs_memOk (s : State) (t : Nat) (tier : Option Nat) : (State.loseSegs s t tier).memOk = s.memOk := memOk_of_eq (by simp) (by simp)

@[simp] theorem State.loseQueues_kept (s : State) (t : TileId) :
    (State.loseQueues s t).pending = s.pending ∧ (State.loseQueues s t).man = s.man ∧ (State.loseQueues s t).mem = s.mem ∧ (State.loseQueues s t).durable = s.durable := by
  unfold State.loseQueues
  (try dsimp only)
  (repeat' split) <;> simp

@[simp] theorem State.loseQueues_memOk (s : State) (t : TileId) : (State.loseQueues s t).memOk = s.memOk := memOk_of_eq (by simp) (by simp)

@[simp] theorem State.chargeLost_kept (s : State) (t : TileId) :
    (State.chargeLost s t).pending = s.pending ∧ (State.chargeLost s t).man = s.man ∧ (State.chargeLost s t).mem = s.mem ∧ (State.chargeLost s t).durable = s.durable := by
  unfold State.chargeLost
  (try dsimp only)
  (repeat' split) <;> simp

@[simp] theorem State.chargeLost_memOk (s : State) (t : TileId) : (State.chargeLost s t).memOk = s.memOk := memOk_of_eq (by simp) (by simp)

@[simp] theorem State.loseCommands_kept (s : State) (t : TileId) :
    (State.loseCommands s t).pending = s.pending ∧ (State.loseCommands s t).man = s.man ∧ (State.loseCommands s t).mem = s.mem := by
  unfold State.loseCommands
  (try dsimp only)
  (repeat' split) <;> simp

@[simp] theorem State.loseCommands_wf (s : State) (t : TileId) (h : s.memOk = true) :
    (State.loseCommands s t).memOk = true := by
  unfold State.loseCommands
  try dsimp only
  repeat' (first | assumption | (simp (maxDischargeDepth := 60) [h]; done) | (simp (maxDischargeDepth := 60) [*]; done) | split | refine foldl_memOk _ _ _ (fun _ _ _ => ?_) ?_)

@[simp] theorem State.dropTile_kept (s : State) (t : TileId) :
    (State.dropTile s t).pending = s.pending ∧ (State.dropTile s t).man = s.man ∧ (State.dropTile s t).mem = s.mem ∧ (State.dropTile s t).durable = s.durable := by
  unfold State.dropTile
  (try dsimp only)
  (repeat' split) <;> simp

@[simp] theorem State.dropTile_memOk (s : State) (t : TileId) : (State.dropTile s t).memOk = s.memOk := memOk_of_eq (by simp) (by simp)

@[simp] theorem State.fenceTile_kept (s : State) (t : TileId) :
    (State.fenceTile s t).pending = s.pending ∧ (State.fenceTile s t).man = s.man ∧ (State.fenceTile s t).mem = s.mem := by
  unfold State.fenceTile
  (try dsimp only)
  (repeat' split) <;> simp

@[simp] theorem State.fenceTile_wf (s : State) (t : TileId) (h : s.memOk = true) :
    (State.fenceTile s t).memOk = true := by
  unfold State.fenceTile
  (try dsimp only)
  (repeat' split) <;> simp (maxDischargeDepth := 60) [h]

end Sys2Proof.Machine
end

