-- ==== Sys2Proof/Laws/KeptCinch.lean ====
section
/-! SUPPORT. What the operations of Machine/Cinch.lean leave as it was. -/

namespace Sys2Proof.Machine

@[simp] theorem State.endNightwatch_kept (s : State) :
    (State.endNightwatch s).pending = s.pending ∧ (State.endNightwatch s).man = s.man ∧ (State.endNightwatch s).mem = s.mem ∧ (State.endNightwatch s).durable = s.durable := by
  unfold State.endNightwatch
  (try dsimp only)
  (repeat' split) <;> simp

@[simp] theorem State.endNightwatch_memOk (s : State) : (State.endNightwatch s).memOk = s.memOk := memOk_of_eq (by simp) (by simp)

@[simp] theorem State.resetPort_kept (s : State) (t : Nat) :
    (State.resetPort s t).pending = s.pending ∧ (State.resetPort s t).man = s.man ∧ (State.resetPort s t).mem = s.mem := by
  unfold State.resetPort
  (try dsimp only)
  (repeat' split) <;> simp

@[simp] theorem State.resetPort_wf (s : State) (t : Nat) (h : s.memOk = true) :
    (State.resetPort s t).memOk = true := by
  unfold State.resetPort
  (try dsimp only)
  (repeat' split) <;> simp_all (maxDischargeDepth := 60)

@[simp] theorem State.endActivate_kept (s : State) :
    (State.endActivate s).pending = s.pending ∧ (State.endActivate s).man = s.man ∧ (State.endActivate s).mem = s.mem := by
  unfold State.endActivate
  (try dsimp only)
  (repeat' split) <;> simp

@[simp] theorem State.endActivate_wf (s : State) (h : s.memOk = true) :
    (State.endActivate s).memOk = true := by
  unfold State.endActivate
  (try dsimp only)
  (repeat' split) <;> simp_all (maxDischargeDepth := 60)

@[simp] theorem State.enterMode_kept (s : State) (m : Mode) :
    (State.enterMode s m).pending = s.pending ∧ (State.enterMode s m).man = s.man ∧ (State.enterMode s m).mem = s.mem := by
  unfold State.enterMode
  (try dsimp only)
  (repeat' split) <;> simp

@[simp] theorem State.enterMode_wf (s : State) (m : Mode) (h : s.memOk = true) :
    (State.enterMode s m).memOk = true := by
  unfold State.enterMode
  (try dsimp only)
  (repeat' split) <;> simp (maxDischargeDepth := 60) [h]

@[simp] theorem State.noteCinch_kept (s : State) (t : TileId) (op change arg epoch : Nat) :
    (State.noteCinch s t op change arg epoch).pending = s.pending ∧ (State.noteCinch s t op change arg epoch).man = s.man ∧ (State.noteCinch s t op change arg epoch).mem = s.mem ∧ (State.noteCinch s t op change arg epoch).durable = s.durable := by
  unfold State.noteCinch
  (try dsimp only)
  (repeat' split) <;> simp

@[simp] theorem State.noteCinch_memOk (s : State) (t : TileId) (op change arg epoch : Nat) : (State.noteCinch s t op change arg epoch).memOk = s.memOk := memOk_of_eq (by simp) (by simp)

@[simp] theorem State.cinchTo_kept (s : State) (us : List TileId) (op change arg reason : Nat) :
    (State.cinchTo s us op change arg reason).pending = s.pending ∧ (State.cinchTo s us op change arg reason).man = s.man ∧ (State.cinchTo s us op change arg reason).mem = s.mem ∧ (State.cinchTo s us op change arg reason).durable = s.durable := by
  unfold State.cinchTo
  (try dsimp only)
  (repeat' split) <;> simp

@[simp] theorem State.cinchToAll_kept (s : State) (op change arg reason : Nat) :
    (State.cinchToAll s op change arg reason).pending = s.pending ∧ (State.cinchToAll s op change arg reason).man = s.man ∧ (State.cinchToAll s op change arg reason).mem = s.mem ∧ (State.cinchToAll s op change arg reason).durable = s.durable := by
  unfold State.cinchToAll
  (try dsimp only)
  (repeat' split) <;> simp

@[simp] theorem State.noteMaster_kept (s : State) (op epoch : Nat) :
    (State.noteMaster s op epoch).pending = s.pending ∧ (State.noteMaster s op epoch).man = s.man ∧ (State.noteMaster s op epoch).mem = s.mem ∧ (State.noteMaster s op epoch).durable = s.durable := by
  unfold State.noteMaster
  (try dsimp only)
  (repeat' split) <;> simp

@[simp] theorem State.applyBlock_kept (s : State) (t : TileId) (k : Nat) :
    (State.applyBlock s t k).pending = s.pending ∧ (State.applyBlock s t k).man = s.man ∧ (State.applyBlock s t k).mem = s.mem ∧ (State.applyBlock s t k).durable = s.durable := by
  unfold State.applyBlock
  (try dsimp only)
  (repeat' split) <;> simp

@[simp] theorem State.strobe_kept (s : State) (t : TileId) (g : Nat) :
    (State.strobe s t g).pending = s.pending ∧ (State.strobe s t g).man = s.man ∧ (State.strobe s t g).mem = s.mem ∧ (State.strobe s t g).durable = s.durable := by
  unfold State.strobe
  try dsimp only
  (repeat' apply And.intro) <;>
    (repeat' (first | (simp; done) | split | rw [foldl_pending] | rw [foldl_man] | rw [foldl_mem] | rw [foldl_durable] | intro _ _ | simp))

@[simp] theorem State.strobe_memOk (s : State) (t : TileId) (g : Nat) : (State.strobe s t g).memOk = s.memOk := memOk_of_eq (by simp) (by simp)

@[simp] theorem State.changeDone_kept (s : State) (ch : Change) :
    (State.changeDone s ch).pending = s.pending ∧ (State.changeDone s ch).man = s.man ∧ (State.changeDone s ch).mem = s.mem ∧ (State.changeDone s ch).durable = s.durable := by
  unfold State.changeDone
  (try dsimp only)
  (repeat' split) <;> simp

@[simp] theorem State.checkApplied_kept (s : State) :
    (State.checkApplied s).pending = s.pending ∧ (State.checkApplied s).man = s.man ∧ (State.checkApplied s).mem = s.mem ∧ (State.checkApplied s).durable = s.durable := by
  unfold State.checkApplied
  (try dsimp only)
  (repeat' split) <;> simp

@[simp] theorem State.checkApplied_memOk (s : State) : (State.checkApplied s).memOk = s.memOk := memOk_of_eq (by simp) (by simp)

@[simp] theorem State.countApplied_kept (s : State) :
    (State.countApplied s).pending = s.pending ∧ (State.countApplied s).man = s.man ∧ (State.countApplied s).mem = s.mem ∧ (State.countApplied s).durable = s.durable := by
  unfold State.countApplied
  (try dsimp only)
  (repeat' split) <;> simp

@[simp] theorem State.gotApplied_kept (s : State) (t : TileId) (epoch seq : Nat) :
    (State.gotApplied s t epoch seq).pending = s.pending ∧ (State.gotApplied s t epoch seq).man = s.man ∧ (State.gotApplied s t epoch seq).mem = s.mem ∧ (State.gotApplied s t epoch seq).durable = s.durable := by
  unfold State.gotApplied
  (try dsimp only)
  (repeat' split) <;> simp

@[simp] theorem State.gotApplied_memOk (s : State) (t : TileId) (epoch seq : Nat) : (State.gotApplied s t epoch seq).memOk = s.memOk := memOk_of_eq (by simp) (by simp)

@[simp] theorem State.applyOn_kept (s : State) (t : TileId) (change arg : Nat) :
    (State.applyOn s t change arg).pending = s.pending ∧ (State.applyOn s t change arg).man = s.man ∧ (State.applyOn s t change arg).mem = s.mem := by
  unfold State.applyOn
  (try dsimp only)
  (repeat' split) <;> simp

@[simp] theorem State.applyOn_wf (s : State) (t : TileId) (change arg : Nat) (h : s.memOk = true) :
    (State.applyOn s t change arg).memOk = true := by
  unfold State.applyOn
  (try dsimp only)
  (repeat' split) <;> simp (maxDischargeDepth := 60) [h]

@[simp] theorem State.apply_kept (s : State) (t : TileId) (p : Nat × Nat × Nat) :
    (State.apply s t p).pending = s.pending ∧ (State.apply s t p).man = s.man ∧ (State.apply s t p).mem = s.mem := by
  unfold State.apply
  (try dsimp only)
  (repeat' split) <;> simp

@[simp] theorem State.apply_wf (s : State) (t : TileId) (p : Nat × Nat × Nat) (h : s.memOk = true) :
    (State.apply s t p).memOk = true := by
  unfold State.apply
  (try dsimp only)
  (repeat' split) <;> simp (maxDischargeDepth := 60) [h]

@[simp] theorem State.rolledBack_kept (s : State) (ch : Change) (reason : Nat) :
    (State.rolledBack s ch reason).pending = s.pending ∧ (State.rolledBack s ch reason).man = s.man ∧ (State.rolledBack s ch reason).mem = s.mem ∧ (State.rolledBack s ch reason).durable = s.durable := by
  unfold State.rolledBack
  (try dsimp only)
  (repeat' split) <;> simp

@[simp] theorem State.rolledBack_memOk (s : State) (ch : Change) (reason : Nat) : (State.rolledBack s ch reason).memOk = s.memOk := memOk_of_eq (by simp) (by simp)

@[simp] theorem State.abortChange_kept (s : State) (t : TileId) (reason : Nat) (ch : Change) :
    (State.abortChange s t reason ch).pending = s.pending ∧ (State.abortChange s t reason ch).man = s.man ∧ (State.abortChange s t reason ch).mem = s.mem ∧ (State.abortChange s t reason ch).durable = s.durable := by
  unfold State.abortChange
  (try dsimp only)
  (repeat' split) <;> simp

@[simp] theorem State.abortChange_memOk (s : State) (t : TileId) (reason : Nat) (ch : Change) : (State.abortChange s t reason ch).memOk = s.memOk := memOk_of_eq (by simp) (by simp)

@[simp] theorem State.pulse_kept (s : State) (ch : Change) :
    (State.pulse s ch).pending = s.pending ∧ (State.pulse s ch).man = s.man ∧ (State.pulse s ch).mem = s.mem ∧ (State.pulse s ch).durable = s.durable := by
  unfold State.pulse
  (try dsimp only)
  (repeat' split) <;> simp

@[simp] theorem State.afterFence_kept (s : State) :
    (State.afterFence s).pending = s.pending ∧ (State.afterFence s).man = s.man ∧ (State.afterFence s).mem = s.mem ∧ (State.afterFence s).durable = s.durable := by
  unfold State.afterFence
  (try dsimp only)
  (repeat' split) <;> simp

@[simp] theorem State.afterFence_memOk (s : State) : (State.afterFence s).memOk = s.memOk := memOk_of_eq (by simp) (by simp)

@[simp] theorem State.loseTile_kept (s : State) (t : TileId) :
    (State.loseTile s t).pending = s.pending ∧ (State.loseTile s t).man = s.man ∧ (State.loseTile s t).mem = s.mem := by
  unfold State.loseTile
  (try dsimp only)
  (repeat' split) <;> simp

@[simp] theorem State.loseTile_wf (s : State) (t : TileId) (h : s.memOk = true) :
    (State.loseTile s t).memOk = true := by
  unfold State.loseTile
  (try dsimp only)
  (repeat' split) <;> simp (maxDischargeDepth := 60) [h]

@[simp] theorem State.gotReady_kept (s : State) (t : TileId) (epoch : Nat) :
    (State.gotReady s t epoch).pending = s.pending ∧ (State.gotReady s t epoch).man = s.man ∧ (State.gotReady s t epoch).mem = s.mem ∧ (State.gotReady s t epoch).durable = s.durable := by
  unfold State.gotReady
  (try dsimp only)
  (repeat' split) <;> simp

@[simp] theorem State.gotRefuse_kept (s : State) (t : TileId) (epoch reason : Nat) :
    (State.gotRefuse s t epoch reason).pending = s.pending ∧ (State.gotRefuse s t epoch reason).man = s.man ∧ (State.gotRefuse s t epoch reason).mem = s.mem ∧ (State.gotRefuse s t epoch reason).durable = s.durable := by
  unfold State.gotRefuse
  (try dsimp only)
  (repeat' split) <;> simp

@[simp] theorem State.modeRequest_kept (s : State) (code : Nat) :
    (State.modeRequest s code).pending = s.pending ∧ (State.modeRequest s code).man = s.man ∧ (State.modeRequest s code).mem = s.mem ∧ (State.modeRequest s code).durable = s.durable := by
  unfold State.modeRequest
  (try dsimp only)
  (repeat' split) <;> simp

@[simp] theorem execDevModeReqWrite_kept (mode : Fin 16) (s : State) :
    (resState (execDevModeReqWrite mode s) s).pending = s.pending ∧ (resState (execDevModeReqWrite mode s) s).man = s.man ∧ (resState (execDevModeReqWrite mode s) s).mem = s.mem ∧ (resState (execDevModeReqWrite mode s) s).durable = s.durable := by
  unfold execDevModeReqWrite resState
  (try dsimp only)
  (repeat' split) <;> simp

@[simp] theorem cinchChangeStartEff_kept (s : State) :
    (cinchChangeStartEff s).pending = s.pending ∧ (cinchChangeStartEff s).man = s.man ∧ (cinchChangeStartEff s).mem = s.mem ∧ (cinchChangeStartEff s).durable = s.durable := by
  unfold cinchChangeStartEff
  (try dsimp only)
  (repeat' split) <;> simp

@[simp] theorem execCinchChangeStart_kept (s : State) :
    (resState (execCinchChangeStart s) s).pending = s.pending ∧ (resState (execCinchChangeStart s) s).man = s.man ∧ (resState (execCinchChangeStart s) s).mem = s.mem ∧ (resState (execCinchChangeStart s) s).durable = s.durable := by
  unfold execCinchChangeStart resState
  (try dsimp only)
  (repeat' split) <;> simp

@[simp] theorem execCinchPrepare_kept (t : TileId) (change arg epoch : Nat) (s : State) :
    (resState (execCinchPrepare t change arg epoch s) s).pending = s.pending ∧ (resState (execCinchPrepare t change arg epoch s) s).man = s.man ∧ (resState (execCinchPrepare t change arg epoch s) s).mem = s.mem ∧ (resState (execCinchPrepare t change arg epoch s) s).durable = s.durable := by
  unfold execCinchPrepare resState
  (try dsimp only)
  (repeat' split) <;> simp

@[simp] theorem execCinchPrepare_memOk (t : TileId) (change arg epoch : Nat) (s : State) : (resState (execCinchPrepare t change arg epoch s) s).memOk = s.memOk := memOk_of_eq (by simp) (by simp)

@[simp] theorem cinchSafePointEff_kept (t : TileId) (seen : SafeSeen) (s : State) :
    (cinchSafePointEff t seen s).pending = s.pending ∧ (cinchSafePointEff t seen s).man = s.man ∧ (cinchSafePointEff t seen s).mem = s.mem ∧ (cinchSafePointEff t seen s).durable = s.durable := by
  unfold cinchSafePointEff
  (try dsimp only)
  (repeat' split) <;> simp

@[simp] theorem execCinchSafePoint_kept (t : TileId) (seen : SafeSeen) (s : State) :
    (resState (execCinchSafePoint t seen s) s).pending = s.pending ∧ (resState (execCinchSafePoint t seen s) s).man = s.man ∧ (resState (execCinchSafePoint t seen s) s).mem = s.mem ∧ (resState (execCinchSafePoint t seen s) s).durable = s.durable := by
  unfold execCinchSafePoint resState
  (try dsimp only)
  (repeat' split) <;> simp

@[simp] theorem execCinchReady_kept (t : TileId) (epoch : Nat) (s : State) :
    (resState (execCinchReady t epoch s) s).pending = s.pending ∧ (resState (execCinchReady t epoch s) s).man = s.man ∧ (resState (execCinchReady t epoch s) s).mem = s.mem ∧ (resState (execCinchReady t epoch s) s).durable = s.durable := by
  unfold execCinchReady resState
  (try dsimp only)
  (repeat' split) <;> simp

@[simp] theorem execCinchReady_memOk (t : TileId) (epoch : Nat) (s : State) : (resState (execCinchReady t epoch s) s).memOk = s.memOk := memOk_of_eq (by simp) (by simp)

@[simp] theorem execCinchRefuse_kept (t : TileId) (epoch reason : Nat) (s : State) :
    (resState (execCinchRefuse t epoch reason s) s).pending = s.pending ∧ (resState (execCinchRefuse t epoch reason s) s).man = s.man ∧ (resState (execCinchRefuse t epoch reason s) s).mem = s.mem ∧ (resState (execCinchRefuse t epoch reason s) s).durable = s.durable := by
  unfold execCinchRefuse resState
  (try dsimp only)
  (repeat' split) <;> simp

@[simp] theorem execCinchRefuse_memOk (t : TileId) (epoch reason : Nat) (s : State) : (resState (execCinchRefuse t epoch reason s) s).memOk = s.memOk := memOk_of_eq (by simp) (by simp)

@[simp] theorem execCinchAbort_kept (t : TileId) (epoch : Nat) (s : State) :
    (resState (execCinchAbort t epoch s) s).pending = s.pending ∧ (resState (execCinchAbort t epoch s) s).man = s.man ∧ (resState (execCinchAbort t epoch s) s).mem = s.mem ∧ (resState (execCinchAbort t epoch s) s).durable = s.durable := by
  unfold execCinchAbort resState
  (try dsimp only)
  (repeat' split) <;> simp

@[simp] theorem execCinchAbort_memOk (t : TileId) (epoch : Nat) (s : State) : (resState (execCinchAbort t epoch s) s).memOk = s.memOk := memOk_of_eq (by simp) (by simp)

@[simp] theorem execCinchPulse_kept (t : TileId) (epoch : Nat) (s : State) :
    (resState (execCinchPulse t epoch s) s).pending = s.pending ∧ (resState (execCinchPulse t epoch s) s).man = s.man ∧ (resState (execCinchPulse t epoch s) s).mem = s.mem := by
  unfold execCinchPulse resState
  (try dsimp only)
  (repeat' split) <;> simp

@[simp] theorem execCinchPulse_wf (t : TileId) (epoch : Nat) (s : State) (h : s.memOk = true) :
    (resState (execCinchPulse t epoch s) s).memOk = true := by
  unfold execCinchPulse resState
  (try dsimp only)
  (repeat' split) <;> simp (maxDischargeDepth := 60) [h]

@[simp] theorem execCinchCommit_kept (t : TileId) (epoch : Nat) (s : State) :
    (resState (execCinchCommit t epoch s) s).pending = s.pending ∧ (resState (execCinchCommit t epoch s) s).man = s.man ∧ (resState (execCinchCommit t epoch s) s).mem = s.mem := by
  unfold execCinchCommit resState
  (try dsimp only)
  (repeat' split) <;> simp

@[simp] theorem execCinchCommit_wf (t : TileId) (epoch : Nat) (s : State) (h : s.memOk = true) :
    (resState (execCinchCommit t epoch s) s).memOk = true := by
  unfold execCinchCommit resState
  (try dsimp only)
  (repeat' split) <;> simp (maxDischargeDepth := 60) [h]

@[simp] theorem execCinchApplied_kept (t : TileId) (epoch strobeSeq : Nat) (s : State) :
    (resState (execCinchApplied t epoch strobeSeq s) s).pending = s.pending ∧ (resState (execCinchApplied t epoch strobeSeq s) s).man = s.man ∧ (resState (execCinchApplied t epoch strobeSeq s) s).mem = s.mem ∧ (resState (execCinchApplied t epoch strobeSeq s) s).durable = s.durable := by
  unfold execCinchApplied resState
  (try dsimp only)
  (repeat' split) <;> simp

@[simp] theorem execCinchApplied_memOk (t : TileId) (epoch strobeSeq : Nat) (s : State) : (resState (execCinchApplied t epoch strobeSeq s) s).memOk = s.memOk := memOk_of_eq (by simp) (by simp)

@[simp] theorem State.hearHalt_kept (s : State) (t : TileId) (src : TileId) (cause : Nat) :
    (State.hearHalt s t src cause).pending = s.pending ∧ (State.hearHalt s t src cause).man = s.man ∧ (State.hearHalt s t src cause).mem = s.mem ∧ (State.hearHalt s t src cause).durable = s.durable := by
  unfold State.hearHalt
  (try dsimp only)
  (repeat' split) <;> simp

@[simp] theorem State.haltHeard_kept (s : State) (t src : TileId) (cause : Nat) :
    (State.haltHeard s t src cause).pending = s.pending ∧ (State.haltHeard s t src cause).man = s.man ∧ (State.haltHeard s t src cause).mem = s.mem ∧ (State.haltHeard s t src cause).durable = s.durable := by
  unfold State.haltHeard
  (try dsimp only)
  (repeat' split) <;> simp

@[simp] theorem execCinchHalt_kept (t src : TileId) (cause : Nat) (s : State) :
    (resState (execCinchHalt t src cause s) s).pending = s.pending ∧ (resState (execCinchHalt t src cause s) s).man = s.man ∧ (resState (execCinchHalt t src cause s) s).mem = s.mem ∧ (resState (execCinchHalt t src cause s) s).durable = s.durable := by
  unfold execCinchHalt resState
  (try dsimp only)
  (repeat' split) <;> simp

@[simp] theorem execCinchHalt_memOk (t src : TileId) (cause : Nat) (s : State) : (resState (execCinchHalt t src cause s) s).memOk = s.memOk := memOk_of_eq (by simp) (by simp)

@[simp] theorem execCinchWirePulse_kept (t : TileId) (ns : Nat) (s : State) :
    (resState (execCinchWirePulse t ns s) s).pending = s.pending ∧ (resState (execCinchWirePulse t ns s) s).man = s.man ∧ (resState (execCinchWirePulse t ns s) s).mem = s.mem := by
  unfold execCinchWirePulse resState
  (try dsimp only)
  (repeat' split) <;> simp

@[simp] theorem execCinchWirePulse_wf (t : TileId) (ns : Nat) (s : State) (h : s.memOk = true) :
    (resState (execCinchWirePulse t ns s) s).memOk = true := by
  unfold execCinchWirePulse resState
  (try dsimp only)
  (repeat' split) <;> simp (maxDischargeDepth := 60) [h]

@[simp] theorem execCinchWireHalt_kept (t : TileId) (ns : Nat) (s : State) :
    (resState (execCinchWireHalt t ns s) s).pending = s.pending ∧ (resState (execCinchWireHalt t ns s) s).man = s.man ∧ (resState (execCinchWireHalt t ns s) s).mem = s.mem ∧ (resState (execCinchWireHalt t ns s) s).durable = s.durable := by
  unfold execCinchWireHalt resState
  (try dsimp only)
  (repeat' split) <;> simp

@[simp] theorem execHaltMessageTimeout_kept (s : State) :
    (resState (execHaltMessageTimeout s) s).pending = s.pending ∧ (resState (execHaltMessageTimeout s) s).man = s.man ∧ (resState (execHaltMessageTimeout s) s).mem = s.mem ∧ (resState (execHaltMessageTimeout s) s).durable = s.durable := by
  unfold execHaltMessageTimeout resState
  (try dsimp only)
  (repeat' split) <;> simp

@[simp] theorem execEvidenceCopy_kept (reach : Byte) (s : State) :
    (resState (execEvidenceCopy reach s) s).pending = s.pending ∧ (resState (execEvidenceCopy reach s) s).man = s.man ∧ (resState (execEvidenceCopy reach s) s).mem = s.mem ∧ (resState (execEvidenceCopy reach s) s).durable = s.durable := by
  unfold execEvidenceCopy resState
  (try dsimp only)
  (repeat' split) <;> simp

@[simp] theorem cinchPrepareTimeoutEff_kept (t : TileId) (s : State) :
    (cinchPrepareTimeoutEff t s).pending = s.pending ∧ (cinchPrepareTimeoutEff t s).man = s.man ∧ (cinchPrepareTimeoutEff t s).mem = s.mem := by
  unfold cinchPrepareTimeoutEff
  (try dsimp only)
  (repeat' split) <;> simp

@[simp] theorem cinchPrepareTimeoutEff_wf (t : TileId) (s : State) (h : s.memOk = true) :
    (cinchPrepareTimeoutEff t s).memOk = true := by
  unfold cinchPrepareTimeoutEff
  try dsimp only
  repeat' (first | assumption | (simp (maxDischargeDepth := 60) [h]; done) | (simp (maxDischargeDepth := 60) [*]; done) | split | refine foldl_memOk _ _ _ (fun _ _ _ => ?_) ?_)

@[simp] theorem execCinchPrepareTimeout_kept (t : TileId) (s : State) :
    (resState (execCinchPrepareTimeout t s) s).pending = s.pending ∧ (resState (execCinchPrepareTimeout t s) s).man = s.man ∧ (resState (execCinchPrepareTimeout t s) s).mem = s.mem := by
  unfold execCinchPrepareTimeout resState
  (try dsimp only)
  (repeat' split) <;> simp

@[simp] theorem execCinchPrepareTimeout_wf (t : TileId) (s : State) (h : s.memOk = true) :
    (resState (execCinchPrepareTimeout t s) s).memOk = true := by
  unfold execCinchPrepareTimeout resState
  (try dsimp only)
  (repeat' split) <;> simp (maxDischargeDepth := 60) [h]

@[simp] theorem execCinchRetry_kept (s : State) :
    (resState (execCinchRetry s) s).pending = s.pending ∧ (resState (execCinchRetry s) s).man = s.man ∧ (resState (execCinchRetry s) s).mem = s.mem ∧ (resState (execCinchRetry s) s).durable = s.durable := by
  unfold execCinchRetry resState
  (try dsimp only)
  (repeat' split) <;> simp

@[simp] theorem execCinchCommitResend_kept (s : State) :
    (resState (execCinchCommitResend s) s).pending = s.pending ∧ (resState (execCinchCommitResend s) s).man = s.man ∧ (resState (execCinchCommitResend s) s).mem = s.mem ∧ (resState (execCinchCommitResend s) s).durable = s.durable := by
  unfold execCinchCommitResend resState
  (try dsimp only)
  (repeat' split) <;> simp

@[simp] theorem execCinchApplyTimeout_kept (t : TileId) (s : State) :
    (resState (execCinchApplyTimeout t s) s).pending = s.pending ∧ (resState (execCinchApplyTimeout t s) s).man = s.man ∧ (resState (execCinchApplyTimeout t s) s).mem = s.mem := by
  unfold execCinchApplyTimeout resState
  (try dsimp only)
  (repeat' split) <;> simp

@[simp] theorem execCinchApplyTimeout_wf (t : TileId) (s : State) (h : s.memOk = true) :
    (resState (execCinchApplyTimeout t s) s).memOk = true := by
  unfold execCinchApplyTimeout resState
  (try dsimp only)
  (repeat' split) <;> simp (maxDischargeDepth := 60) [h]

@[simp] theorem State.masterApplies_kept (s : State) (ch : Change) :
    (State.masterApplies s ch).pending = s.pending ∧ (State.masterApplies s ch).man = s.man ∧ (State.masterApplies s ch).mem = s.mem := by
  unfold State.masterApplies
  (try dsimp only)
  (repeat' split) <;> simp

@[simp] theorem State.masterApplies_wf (s : State) (ch : Change) (h : s.memOk = true) :
    (State.masterApplies s ch).memOk = true := by
  unfold State.masterApplies
  (try dsimp only)
  (repeat' split) <;> simp (maxDischargeDepth := 60) [h]

@[simp] theorem State.takeOver_kept (s : State) (old : TileId) (ch : Change) :
    (State.takeOver s old ch).pending = s.pending ∧ (State.takeOver s old ch).man = s.man ∧ (State.takeOver s old ch).mem = s.mem := by
  unfold State.takeOver
  (try dsimp only)
  (repeat' split) <;> simp

@[simp] theorem State.takeOver_wf (s : State) (old : TileId) (ch : Change) (h : s.memOk = true) :
    (State.takeOver s old ch).memOk = true := by
  unfold State.takeOver
  (try dsimp only)
  (repeat' split) <;> simp (maxDischargeDepth := 60) [h]

@[simp] theorem masterLostEff_kept (t : TileId) (s : State) :
    (masterLostEff t s).pending = s.pending ∧ (masterLostEff t s).man = s.man ∧ (masterLostEff t s).mem = s.mem := by
  unfold masterLostEff
  (try dsimp only)
  (repeat' split) <;> simp

@[simp] theorem masterLostEff_wf (t : TileId) (s : State) (h : s.memOk = true) :
    (masterLostEff t s).memOk = true := by
  unfold masterLostEff
  (try dsimp only)
  (repeat' split) <;> simp (maxDischargeDepth := 60) [h]

@[simp] theorem execMasterLost_kept (t : TileId) (s : State) :
    (resState (execMasterLost t s) s).pending = s.pending ∧ (resState (execMasterLost t s) s).man = s.man ∧ (resState (execMasterLost t s) s).mem = s.mem := by
  unfold execMasterLost resState
  (try dsimp only)
  (repeat' split) <;> simp

@[simp] theorem execMasterLost_wf (t : TileId) (s : State) (h : s.memOk = true) :
    (resState (execMasterLost t s) s).memOk = true := by
  unfold execMasterLost resState
  (try dsimp only)
  (repeat' split) <;> simp (maxDischargeDepth := 60) [h]

@[simp] theorem execDuskDrainComplete_kept (s : State) :
    (resState (execDuskDrainComplete s) s).pending = s.pending ∧ (resState (execDuskDrainComplete s) s).man = s.man ∧ (resState (execDuskDrainComplete s) s).mem = s.mem ∧ (resState (execDuskDrainComplete s) s).durable = s.durable := by
  unfold execDuskDrainComplete resState
  (try dsimp only)
  (repeat' split) <;> simp

@[simp] theorem State.updateBootSlot_kept (s : State) (slot : Nat) :
    (State.updateBootSlot s slot).pending = s.pending ∧ (State.updateBootSlot s slot).man = s.man ∧ (State.updateBootSlot s slot).mem = s.mem ∧ (State.updateBootSlot s slot).durable = s.durable := by
  unfold State.updateBootSlot
  (try dsimp only)
  (repeat' split) <;> simp

@[simp] theorem execFirmwareRestarted_kept (s : State) :
    (resState (execFirmwareRestarted s) s).pending = s.pending ∧ (resState (execFirmwareRestarted s) s).man = s.man ∧ (resState (execFirmwareRestarted s) s).mem = s.mem ∧ (resState (execFirmwareRestarted s) s).durable = s.durable := by
  unfold execFirmwareRestarted resState
  (try dsimp only)
  (repeat' split) <;> simp

end Sys2Proof.Machine
end

