-- ==== Sys2Proof/Laws/KeptAdmin.lean ====
section
/-! SUPPORT. What the operations of Machine/Admin.lean leave as it was. -/

namespace Sys2Proof.Machine

@[simp] theorem execIdentify_kept (c : CmdRef) (s : State) :
    (resState (execIdentify c s) s).pending = s.pending ∧ (resState (execIdentify c s) s).man = s.man ∧ (resState (execIdentify c s) s).mem = s.mem ∧ (resState (execIdentify c s) s).durable = s.durable := by
  unfold execIdentify resState
  (try dsimp only)
  (repeat' split) <;> simp

@[simp] theorem getLogEff_kept (x : Cmd) (wfail : Option Nat) (s : State) :
    (getLogEff x wfail s).pending = s.pending ∧ (getLogEff x wfail s).man = s.man ∧ (getLogEff x wfail s).mem = s.mem ∧ (getLogEff x wfail s).durable = s.durable := by
  unfold getLogEff
  (try dsimp only)
  (repeat' split) <;> simp

@[simp] theorem execGetLog_kept (c : CmdRef) (wfail : Option Nat) (s : State) :
    (resState (execGetLog c wfail s) s).pending = s.pending ∧ (resState (execGetLog c wfail s) s).man = s.man ∧ (resState (execGetLog c wfail s) s).mem = s.mem ∧ (resState (execGetLog c wfail s) s).durable = s.durable := by
  unfold execGetLog resState
  (try dsimp only)
  (repeat' split) <;> simp

@[simp] theorem setFeatureEff_kept (x : Cmd) (s : State) :
    (setFeatureEff x s).pending = s.pending ∧ (setFeatureEff x s).man = s.man ∧ (setFeatureEff x s).mem = s.mem ∧ (setFeatureEff x s).durable = s.durable := by
  unfold setFeatureEff
  (try dsimp only)
  (repeat' split) <;> simp

@[simp] theorem execSetFeature_kept (c : CmdRef) (s : State) :
    (resState (execSetFeature c s) s).pending = s.pending ∧ (resState (execSetFeature c s) s).man = s.man ∧ (resState (execSetFeature c s) s).mem = s.mem ∧ (resState (execSetFeature c s) s).durable = s.durable := by
  unfold execSetFeature resState
  (try dsimp only)
  (repeat' split) <;> simp

@[simp] theorem State.onSlot_kept (s : State) (n : Nat) (f : Slot → Slot) :
    (State.onSlot s n f).pending = s.pending ∧ (State.onSlot s n f).man = s.man ∧ (State.onSlot s n f).mem = s.mem ∧ (State.onSlot s n f).durable = s.durable := by
  unfold State.onSlot
  (try dsimp only)
  (repeat' split) <;> simp

@[simp] theorem State.writeSlot_kept (s : State) (n off : Nat) (bs : List Byte) :
    (State.writeSlot s n off bs).pending = s.pending ∧ (State.writeSlot s n off bs).man = s.man ∧ (State.writeSlot s n off bs).mem = s.mem ∧ (State.writeSlot s n off bs).durable = s.durable := by
  unfold State.writeSlot
  (try dsimp only)
  (repeat' split) <;> simp

@[simp] theorem fwDownloadEff_kept (x : Cmd) (src : HostRead) (s : State) :
    (fwDownloadEff x src s).pending = s.pending ∧ (fwDownloadEff x src s).man = s.man ∧ (fwDownloadEff x src s).mem = s.mem ∧ (fwDownloadEff x src s).durable = s.durable := by
  unfold fwDownloadEff
  (try dsimp only)
  (repeat' split) <;> simp

@[simp] theorem execFwDownload_kept (c : CmdRef) (src : HostRead) (s : State) :
    (resState (execFwDownload c src s) s).pending = s.pending ∧ (resState (execFwDownload c src s) s).man = s.man ∧ (resState (execFwDownload c src s) s).mem = s.mem ∧ (resState (execFwDownload c src s) s).durable = s.durable := by
  unfold execFwDownload resState
  (try dsimp only)
  (repeat' split) <;> simp

@[simp] theorem fwActivateEff_kept (x : Cmd) (s : State) :
    (fwActivateEff x s).pending = s.pending ∧ (fwActivateEff x s).man = s.man ∧ (fwActivateEff x s).mem = s.mem ∧ (fwActivateEff x s).durable = s.durable := by
  unfold fwActivateEff
  (try dsimp only)
  (repeat' split) <;> simp

@[simp] theorem execFwActivate_kept (c : CmdRef) (s : State) :
    (resState (execFwActivate c s) s).pending = s.pending ∧ (resState (execFwActivate c s) s).man = s.man ∧ (resState (execFwActivate c s) s).mem = s.mem ∧ (resState (execFwActivate c s) s).durable = s.durable := by
  unfold execFwActivate resState
  (try dsimp only)
  (repeat' split) <;> simp

@[simp] theorem execPowerLimit_kept (c : CmdRef) (s : State) :
    (resState (execPowerLimit c s) s).pending = s.pending ∧ (resState (execPowerLimit c s) s).man = s.man ∧ (resState (execPowerLimit c s) s).mem = s.mem ∧ (resState (execPowerLimit c s) s).durable = s.durable := by
  unfold execPowerLimit resState
  (try dsimp only)
  (repeat' split) <;> simp

@[simp] theorem execReadMonitors_kept (c : CmdRef) (s : State) :
    (resState (execReadMonitors c s) s).pending = s.pending ∧ (resState (execReadMonitors c s) s).man = s.man ∧ (resState (execReadMonitors c s) s).mem = s.mem ∧ (resState (execReadMonitors c s) s).durable = s.durable := by
  unfold execReadMonitors resState
  (try dsimp only)
  (repeat' split) <;> simp

@[simp] theorem execNop_kept (c : CmdRef) (s : State) :
    (resState (execNop c s) s).pending = s.pending ∧ (resState (execNop c s) s).man = s.man ∧ (resState (execNop c s) s).mem = s.mem ∧ (resState (execNop c s) s).durable = s.durable := by
  unfold execNop resState
  (try dsimp only)
  (repeat' split) <;> simp

end Sys2Proof.Machine
end

