-- ==== Sys2Proof/Laws/KeptBuckle.lean ====
section
/-! SUPPORT. What the operations of Machine/Buckle.lean leave as it was. -/

namespace Sys2Proof.Machine

@[simp] theorem State.tryRegister_kept (s : State) (x : Cmd) :
    (State.tryRegister s x).pending = s.pending ∧ (State.tryRegister s x).man = s.man ∧ (State.tryRegister s x).mem = s.mem ∧ (State.tryRegister s x).durable = s.durable := by
  unfold State.tryRegister
  (try dsimp only)
  (repeat' split) <;> simp

@[simp] theorem State.registerAll_kept (s : State) :
    (State.registerAll s).pending = s.pending ∧ (State.registerAll s).man = s.man ∧ (State.registerAll s).mem = s.mem ∧ (State.registerAll s).durable = s.durable := by
  unfold State.registerAll
  (try dsimp only)
  (repeat' split) <;> simp

@[simp] theorem State.registerAll_memOk (s : State) : (State.registerAll s).memOk = s.memOk := memOk_of_eq (by simp) (by simp)

@[simp] theorem State.retire_kept (s : State) (c : CmdRef) :
    (State.retire s c).pending = s.pending ∧ (State.retire s c).man = s.man ∧ (State.retire s c).mem = s.mem ∧ (State.retire s c).durable = s.durable := by
  unfold State.retire
  (try dsimp only)
  (repeat' split) <;> simp

end Sys2Proof.Machine
end

