-- ==== Sys2Proof/Laws/KeptMsg.lean ====
section
/-! SUPPORT. What the operations of Machine/Msg.lean leave as it was. -/

namespace Sys2Proof.Machine

@[simp] theorem State.onEdge_kept (s : State) (t : TileId) (e : EdgeId) (f : Edge → Edge) :
    (State.onEdge s t e f).pending = s.pending ∧ (State.onEdge s t e f).man = s.man ∧ (State.onEdge s t e f).mem = s.mem ∧ (State.onEdge s t e f).durable = s.durable := by
  unfold State.onEdge
  (try dsimp only)
  (repeat' split) <;> simp

@[simp] theorem State.onEdge_memOk (s : State) (t : TileId) (e : EdgeId) (f : Edge → Edge) : (State.onEdge s t e f).memOk = s.memOk := memOk_of_eq (by simp) (by simp)

@[simp] theorem State.pumpEdge_kept (s : State) (t : TileId) (e : EdgeId) :
    (State.pumpEdge s t e).pending = s.pending ∧ (State.pumpEdge s t e).man = s.man ∧ (State.pumpEdge s t e).mem = s.mem ∧ (State.pumpEdge s t e).durable = s.durable := by
  unfold State.pumpEdge
  (try dsimp only)
  (repeat' split) <;> simp

@[simp] theorem State.pumpEdge_memOk (s : State) (t : TileId) (e : EdgeId) : (State.pumpEdge s t e).memOk = s.memOk := memOk_of_eq (by simp) (by simp)

@[simp] theorem State.loseMsg_kept (s : State) (b : List Byte) :
    (State.loseMsg s b).pending = s.pending ∧ (State.loseMsg s b).man = s.man ∧ (State.loseMsg s b).mem = s.mem ∧ (State.loseMsg s b).durable = s.durable := by
  unfold State.loseMsg
  (try dsimp only)
  (repeat' split) <;> simp

@[simp] theorem State.loseMsg_memOk (s : State) (b : List Byte) : (State.loseMsg s b).memOk = s.memOk := memOk_of_eq (by simp) (by simp)

@[simp] theorem State.wakeLink_kept (s : State) (t : TileId) (e : EdgeId) :
    (State.wakeLink s t e).pending = s.pending ∧ (State.wakeLink s t e).man = s.man ∧ (State.wakeLink s t e).mem = s.mem ∧ (State.wakeLink s t e).durable = s.durable := by
  unfold State.wakeLink
  (try dsimp only)
  (repeat' split) <;> simp

@[simp] theorem State.sendEdge_kept (s : State) (t : TileId) (e : EdgeId) (vc : Nat) (b : List Byte) :
    (State.sendEdge s t e vc b).pending = s.pending ∧ (State.sendEdge s t e vc b).man = s.man ∧ (State.sendEdge s t e vc b).mem = s.mem ∧ (State.sendEdge s t e vc b).durable = s.durable := by
  unfold State.sendEdge
  (try dsimp only)
  (repeat' split) <;> simp

@[simp] theorem State.forward_kept (s : State) (t : TileId) (b : List Byte) :
    (State.forward s t b).pending = s.pending ∧ (State.forward s t b).man = s.man ∧ (State.forward s t b).mem = s.mem ∧ (State.forward s t b).durable = s.durable := by
  unfold State.forward
  (try dsimp only)
  (repeat' split) <;> simp

@[simp] theorem State.forward_memOk (s : State) (t : TileId) (b : List Byte) : (State.forward s t b).memOk = s.memOk := memOk_of_eq (by simp) (by simp)

@[simp] theorem State.sendMsg_kept (s : State) (mtype len : Nat) (src : TileId) (sa : Fin 64) (dst : TileId) (da : Fin 64) (x : MsgCtx) (body : List Byte) :
    (State.sendMsg s mtype len src sa dst da x body).pending = s.pending ∧ (State.sendMsg s mtype len src sa dst da x body).man = s.man ∧ (State.sendMsg s mtype len src sa dst da x body).mem = s.mem ∧ (State.sendMsg s mtype len src sa dst da x body).durable = s.durable := by
  unfold State.sendMsg
  (try dsimp only)
  (repeat' split) <;> simp

@[simp] theorem State.sendCtl_kept (s : State) (mtype : Nat) (src dst : TileId) (x : MsgCtx) (body : List Byte) :
    (State.sendCtl s mtype src dst x body).pending = s.pending ∧ (State.sendCtl s mtype src dst x body).man = s.man ∧ (State.sendCtl s mtype src dst x body).mem = s.mem ∧ (State.sendCtl s mtype src dst x body).durable = s.durable := by
  unfold State.sendCtl
  (try dsimp only)
  (repeat' split) <;> simp

end Sys2Proof.Machine
end

