-- ==== Sys2Proof/Laws/KeptPipe.lean ====
section
/-! SUPPORT. What the operations of Machine/Pipe.lean leave as it was. -/

namespace Sys2Proof.Machine

@[simp] theorem State.install_kept (s : State) (h slice : Nat) (bs : List Byte) :
    (State.install s h slice bs).pending = s.pending ∧ (State.install s h slice bs).man = s.man ∧ (State.install s h slice bs).mem = s.mem ∧ (State.install s h slice bs).durable = s.durable := by
  unfold State.install
  (try dsimp only)
  (repeat' split) <;> simp

@[simp] theorem State.install_memOk (s : State) (h slice : Nat) (bs : List Byte) : (State.install s h slice bs).memOk = s.memOk := memOk_of_eq (by simp) (by simp)

@[simp] theorem State.badImage_kept (s : State) (c : CmdRef) (detail off : Nat) :
    (State.badImage s c detail off).pending = s.pending ∧ (State.badImage s c detail off).man = s.man ∧ (State.badImage s c detail off).mem = s.mem ∧ (State.badImage s c detail off).durable = s.durable := by
  unfold State.badImage
  (try dsimp only)
  (repeat' split) <;> simp

@[simp] theorem pipeLoadEff_kept (x : Cmd) (src : HostRead) (s : State) :
    (pipeLoadEff x src s).pending = s.pending ∧ (pipeLoadEff x src s).man = s.man ∧ (pipeLoadEff x src s).mem = s.mem ∧ (pipeLoadEff x src s).durable = s.durable := by
  unfold pipeLoadEff
  (try dsimp only)
  (repeat' split) <;> simp

@[simp] theorem execPipeLoad_kept (c : CmdRef) (src : HostRead) (s : State) :
    (resState (execPipeLoad c src s) s).pending = s.pending ∧ (resState (execPipeLoad c src s) s).man = s.man ∧ (resState (execPipeLoad c src s) s).mem = s.mem ∧ (resState (execPipeLoad c src s) s).durable = s.durable := by
  unfold execPipeLoad resState
  (try dsimp only)
  (repeat' split) <;> simp

@[simp] theorem execPipeUnload_kept (c : CmdRef) (s : State) :
    (resState (execPipeUnload c s) s).pending = s.pending ∧ (resState (execPipeUnload c s) s).man = s.man ∧ (resState (execPipeUnload c s) s).mem = s.mem ∧ (resState (execPipeUnload c s) s).durable = s.durable := by
  unfold execPipeUnload resState
  (try dsimp only)
  (repeat' split) <;> simp

@[simp] theorem State.uninstall_kept (s : State) (h : Nat) :
    (State.uninstall s h).pending = s.pending ∧ (State.uninstall s h).man = s.man ∧ (State.uninstall s h).mem = s.mem ∧ (State.uninstall s h).durable = s.durable := by
  unfold State.uninstall
  (try dsimp only)
  (repeat' split) <;> simp

@[simp] theorem State.uninstall_memOk (s : State) (h : Nat) : (State.uninstall s h).memOk = s.memOk := memOk_of_eq (by simp) (by simp)

@[simp] theorem execPipeUnloadRemove_kept (c : CmdRef) (s : State) :
    (resState (execPipeUnloadRemove c s) s).pending = s.pending ∧ (resState (execPipeUnloadRemove c s) s).man = s.man ∧ (resState (execPipeUnloadRemove c s) s).mem = s.mem ∧ (resState (execPipeUnloadRemove c s) s).durable = s.durable := by
  unfold execPipeUnloadRemove resState
  (try dsimp only)
  (repeat' split) <;> simp

end Sys2Proof.Machine
end

