-- ==== Sys2Proof/Laws/KeptSliceCmd.lean ====
section
/-! SUPPORT. What the operations of Machine/SliceCmd.lean leave as it was. -/

namespace Sys2Proof.Machine

@[simp] theorem State.sliceRun_pending (s : State) (x : Cmd) (f : State → State) (hf : ∀ s, (f s).pending = s.pending) : (State.sliceRun s x f).pending = s.pending := by
  unfold State.sliceRun
  (try dsimp only)
  (repeat' split) <;> simp [hf]

@[simp] theorem State.sliceRun_man (s : State) (x : Cmd) (f : State → State) (hf : ∀ s, (f s).man = s.man) : (State.sliceRun s x f).man = s.man := by
  unfold State.sliceRun
  (try dsimp only)
  (repeat' split) <;> simp [hf]

@[simp] theorem State.sliceRun_mem (s : State) (x : Cmd) (f : State → State) (hf : ∀ s, (f s).mem = s.mem) : (State.sliceRun s x f).mem = s.mem := by
  unfold State.sliceRun
  (try dsimp only)
  (repeat' split) <;> simp [hf]

@[simp] theorem State.sliceRun_durable (s : State) (x : Cmd) (f : State → State) (hf : ∀ s, (f s).durable = s.durable) : (State.sliceRun s x f).durable = s.durable := by
  unfold State.sliceRun
  (try dsimp only)
  (repeat' split) <;> simp [hf]

@[simp] theorem State.sliceRun_wf (s : State) (x : Cmd) (f : State → State) (hf : ∀ s, s.memOk = true → (f s).memOk = true)
    (h : s.memOk = true) : (State.sliceRun s x f).memOk = true := by
  unfold State.sliceRun
  dsimp only
  repeat' split
  · simp (maxDischargeDepth := 9) [h]
  · exact hf _ (by simp (maxDischargeDepth := 9) [h])
  · exact h

@[simp] theorem State.giveSeg_kept (s : State) (id newOwner : Nat) :
    (State.giveSeg s id newOwner).pending = s.pending ∧ (State.giveSeg s id newOwner).man = s.man ∧ (State.giveSeg s id newOwner).mem = s.mem ∧ (State.giveSeg s id newOwner).durable = s.durable := by
  unfold State.giveSeg
  (try dsimp only)
  (repeat' split) <;> simp

@[simp] theorem State.giveSeg_memOk (s : State) (id newOwner : Nat) : (State.giveSeg s id newOwner).memOk = s.memOk := memOk_of_eq (by simp) (by simp)

@[simp] theorem State.adopt_kept (s : State) (n pasid : Nat) :
    (State.adopt s n pasid).pending = s.pending ∧ (State.adopt s n pasid).man = s.man ∧ (State.adopt s n pasid).mem = s.mem ∧ (State.adopt s n pasid).durable = s.durable := by
  unfold State.adopt
  (try dsimp only)
  (repeat' split) <;> simp

@[simp] theorem State.adopt_memOk (s : State) (n pasid : Nat) : (State.adopt s n pasid).memOk = s.memOk := memOk_of_eq (by simp) (by simp)

@[simp] theorem sliceCreateEff_kept (x : Cmd) (s : State) :
    (sliceCreateEff x s).pending = s.pending ∧ (sliceCreateEff x s).man = s.man ∧ (sliceCreateEff x s).mem = s.mem ∧ (sliceCreateEff x s).durable = s.durable := by
  unfold sliceCreateEff
  (try dsimp only)
  (repeat' split) <;> simp

@[simp] theorem execSliceCreate_kept (c : CmdRef) (s : State) :
    (resState (execSliceCreate c s) s).pending = s.pending ∧ (resState (execSliceCreate c s) s).man = s.man ∧ (resState (execSliceCreate c s) s).mem = s.mem ∧ (resState (execSliceCreate c s) s).durable = s.durable := by
  unfold execSliceCreate resState
  (try dsimp only)
  (repeat' split) <;> simp

@[simp] theorem State.freezeEnd_kept (s : State) (c : CmdRef) (n : Nat) :
    (State.freezeEnd s c n).pending = s.pending ∧ (State.freezeEnd s c n).man = s.man ∧ (State.freezeEnd s c n).mem = s.mem ∧ (State.freezeEnd s c n).durable = s.durable := by
  unfold State.freezeEnd
  (try dsimp only)
  (repeat' split) <;> simp

@[simp] theorem State.holdSlice_kept (s : State) (c : CmdRef) (n : Nat) :
    (State.holdSlice s c n).pending = s.pending ∧ (State.holdSlice s c n).man = s.man ∧ (State.holdSlice s c n).mem = s.mem ∧ (State.holdSlice s c n).durable = s.durable := by
  unfold State.holdSlice
  (try dsimp only)
  (repeat' split) <;> simp

@[simp] theorem State.holdSlice_memOk (s : State) (c : CmdRef) (n : Nat) : (State.holdSlice s c n).memOk = s.memOk := memOk_of_eq (by simp) (by simp)

@[simp] theorem execSliceFreeze_kept (c : CmdRef) (s : State) :
    (resState (execSliceFreeze c s) s).pending = s.pending ∧ (resState (execSliceFreeze c s) s).man = s.man ∧ (resState (execSliceFreeze c s) s).mem = s.mem ∧ (resState (execSliceFreeze c s) s).durable = s.durable := by
  unfold execSliceFreeze resState
  (try dsimp only)
  (repeat' split) <;> simp

@[simp] theorem State.resetSlice_kept (s : State) (c : CmdRef) (n : Nat) :
    (State.resetSlice s c n).pending = s.pending ∧ (State.resetSlice s c n).man = s.man ∧ (State.resetSlice s c n).mem = s.mem := by
  unfold State.resetSlice
  (try dsimp only)
  (repeat' split) <;> simp

@[simp] theorem State.resetSlice_wf (s : State) (c : CmdRef) (n : Nat) (h : s.memOk = true) :
    (State.resetSlice s c n).memOk = true := by
  unfold State.resetSlice
  (try dsimp only)
  (repeat' split) <;> simp_all (maxDischargeDepth := 60)

@[simp] theorem State.sliceResetEnd_kept (s : State) (c : CmdRef) (n : Nat) :
    (State.sliceResetEnd s c n).pending = s.pending ∧ (State.sliceResetEnd s c n).man = s.man ∧ (State.sliceResetEnd s c n).mem = s.mem ∧ (State.sliceResetEnd s c n).durable = s.durable := by
  unfold State.sliceResetEnd
  (try dsimp only)
  (repeat' split) <;> simp

@[simp] theorem State.sliceResetEnd_memOk (s : State) (c : CmdRef) (n : Nat) : (State.sliceResetEnd s c n).memOk = s.memOk := memOk_of_eq (by simp) (by simp)

@[simp] theorem execSliceReset_kept (c : CmdRef) (s : State) :
    (resState (execSliceReset c s) s).pending = s.pending ∧ (resState (execSliceReset c s) s).man = s.man ∧ (resState (execSliceReset c s) s).mem = s.mem := by
  unfold execSliceReset resState
  (try dsimp only)
  (repeat' split) <;> simp

@[simp] theorem execSliceReset_wf (c : CmdRef) (s : State) (h : s.memOk = true) :
    (resState (execSliceReset c s) s).memOk = true := by
  unfold execSliceReset resState
  dsimp only
  repeat' split
  all_goals first
    | (simp (maxDischargeDepth := 60) [h]; done)
    | exact State.sliceRun_wf _ _ _ (fun s h => by simp (maxDischargeDepth := 60) [h]) h

@[simp] theorem State.finishLost_kept (s : State) (n : Nat) :
    (State.finishLost s n).pending = s.pending ∧ (State.finishLost s n).man = s.man ∧ (State.finishLost s n).mem = s.mem ∧ (State.finishLost s n).durable = s.durable := by
  unfold State.finishLost
  (try dsimp only)
  (repeat' split) <;> simp

@[simp] theorem State.enableRestored_kept (s : State) (n : Nat) :
    (State.enableRestored s n).pending = s.pending ∧ (State.enableRestored s n).man = s.man ∧ (State.enableRestored s n).mem = s.mem ∧ (State.enableRestored s n).durable = s.durable := by
  unfold State.enableRestored
  (try dsimp only)
  (repeat' split) <;> simp

@[simp] theorem execSliceThaw_kept (c : CmdRef) (s : State) :
    (resState (execSliceThaw c s) s).pending = s.pending ∧ (resState (execSliceThaw c s) s).man = s.man ∧ (resState (execSliceThaw c s) s).mem = s.mem ∧ (resState (execSliceThaw c s) s).durable = s.durable := by
  unfold execSliceThaw resState
  (try dsimp only)
  (repeat' split) <;> simp

@[simp] theorem State.condemn_kept (s : State) (c : CmdRef) (n : Nat) :
    (State.condemn s c n).pending = s.pending ∧ (State.condemn s c n).man = s.man ∧ (State.condemn s c n).mem = s.mem ∧ (State.condemn s c n).durable = s.durable := by
  unfold State.condemn
  (try dsimp only)
  (repeat' split) <;> simp

@[simp] theorem State.condemn_memOk (s : State) (c : CmdRef) (n : Nat) : (State.condemn s c n).memOk = s.memOk := memOk_of_eq (by simp) (by simp)

@[simp] theorem State.leaveSeg_kept (s : State) (id : Nat) :
    (State.leaveSeg s id).pending = s.pending ∧ (State.leaveSeg s id).man = s.man := by
  unfold State.leaveSeg
  (try dsimp only)
  (repeat' split) <;> simp

@[simp] theorem State.leaveSeg_wf (s : State) (id : Nat) (h : s.memOk = true) :
    (State.leaveSeg s id).memOk = true := by
  unfold State.leaveSeg
  (try dsimp only)
  (repeat' split) <;> simp (maxDischargeDepth := 60) [h]

@[simp] theorem State.orphanQueue_kept (s : State) (q : Nat) :
    (State.orphanQueue s q).pending = s.pending ∧ (State.orphanQueue s q).man = s.man ∧ (State.orphanQueue s q).mem = s.mem ∧ (State.orphanQueue s q).durable = s.durable := by
  unfold State.orphanQueue
  (try dsimp only)
  (repeat' split) <;> simp

@[simp] theorem State.orphanQueue_memOk (s : State) (q : Nat) : (State.orphanQueue s q).memOk = s.memOk := memOk_of_eq (by simp) (by simp)

@[simp] theorem State.destroyEnd_kept (s : State) (c : CmdRef) (n : Nat) :
    (State.destroyEnd s c n).pending = s.pending ∧ (State.destroyEnd s c n).man = s.man := by
  unfold State.destroyEnd
  (try dsimp only)
  (repeat' split) <;> simp

@[simp] theorem State.destroyEnd_wf (s : State) (c : CmdRef) (n : Nat) (h : s.memOk = true) :
    (State.destroyEnd s c n).memOk = true := by
  unfold State.destroyEnd
  (try dsimp only)
  (repeat' split) <;> simp_all (maxDischargeDepth := 60)

@[simp] theorem execSliceDestroy_kept (c : CmdRef) (s : State) :
    (resState (execSliceDestroy c s) s).pending = s.pending ∧ (resState (execSliceDestroy c s) s).man = s.man := by
  unfold execSliceDestroy resState
  (try dsimp only)
  (repeat' split) <;> simp

@[simp] theorem execSliceDestroy_wf (c : CmdRef) (s : State) (h : s.memOk = true) :
    (resState (execSliceDestroy c s) s).memOk = true := by
  unfold execSliceDestroy resState
  dsimp only
  repeat' split
  all_goals first
    | (simp (maxDischargeDepth := 60) [h]; done)
    | exact State.sliceRun_wf _ _ _ (fun s h => by simp (maxDischargeDepth := 60) [h]) h

@[simp] theorem State.cleanBelow_kept (s : State) (rs : List (Nat × SaveRec)) (m : Nat) :
    (State.cleanBelow s rs m).pending = s.pending ∧ (State.cleanBelow s rs m).man = s.man ∧ (State.cleanBelow s rs m).mem = s.mem ∧ (State.cleanBelow s rs m).durable = s.durable := by
  unfold State.cleanBelow
  try dsimp only
  (repeat' apply And.intro) <;>
    (repeat' (first | (simp; done) | split | rw [foldl_pending] | rw [foldl_man] | rw [foldl_mem] | rw [foldl_durable] | intro _ _ | simp))

@[simp] theorem sliceSaveEff_kept (x : Cmd) (wfail : Option Nat) (s : State) :
    (sliceSaveEff x wfail s).pending = s.pending ∧ (sliceSaveEff x wfail s).man = s.man ∧ (sliceSaveEff x wfail s).mem = s.mem ∧ (sliceSaveEff x wfail s).durable = s.durable := by
  unfold sliceSaveEff
  (try dsimp only)
  (repeat' split) <;> simp

@[simp] theorem execSliceSave_kept (c : CmdRef) (wfail : Option Nat) (s : State) :
    (resState (execSliceSave c wfail s) s).pending = s.pending ∧ (resState (execSliceSave c wfail s) s).man = s.man ∧ (resState (execSliceSave c wfail s) s).mem = s.mem ∧ (resState (execSliceSave c wfail s) s).durable = s.durable := by
  unfold execSliceSave resState
  (try dsimp only)
  (repeat' split) <;> simp

end Sys2Proof.Machine
end

