-- ==== Sys2Proof/Laws/KeptSliceRestore.lean ====
section
/-! SUPPORT. What the operations of Machine/SliceRestore.lean leave as it was. -/

namespace Sys2Proof.Machine

@[simp] theorem State.dropSliceCmds_kept (s : State) (n : Nat) :
    (State.dropSliceCmds s n).pending = s.pending ∧ (State.dropSliceCmds s n).man = s.man ∧ (State.dropSliceCmds s n).mem = s.mem := by
  unfold State.dropSliceCmds
  (try dsimp only)
  (repeat' split) <;> simp

@[simp] theorem State.dropSliceCmds_wf (s : State) (n : Nat) (h : s.memOk = true) :
    (State.dropSliceCmds s n).memOk = true := by
  unfold State.dropSliceCmds
  try dsimp only
  repeat' (first | assumption | (simp (maxDischargeDepth := 60) [h]; done) | (simp (maxDischargeDepth := 60) [*]; done) | split | refine foldl_memOk _ _ _ (fun _ _ _ => ?_) ?_)

/-- What a restore that began in a state keeps: the fields that it leaves, and the canonical form. -/
def RestKept (a s : State) : Prop := s.pending = a.pending ∧ s.man = a.man ∧ (a.memOk = true → s.memOk = true)

theorem State.restoreAlloc_keeps {a s n p r t} (hs : RestKept a s) (h : State.restoreAlloc s n p r = some t) : RestKept a t := by
  obtain ⟨h1, h2, h3⟩ := hs
  unfold State.restoreAlloc at h
  dsimp only at h
  repeat' (split at h)
  all_goals first | cases h | skip
  all_goals
    refine ⟨by simp [h1], by simp [h2], fun ha => ?_⟩
    have h4 := h3 ha
    simp (maxDischargeDepth := 60) [h4]

theorem State.restoreSeg_keeps {a s n p r t} (hs : RestKept a s) (h : State.restoreSeg s n p r = some t) : RestKept a t := by
  unfold State.restoreSeg at h
  dsimp only at h
  obtain ⟨u, hu, rfl⟩ := Option.map_eq_some_iff.1 h
  have hk : RestKept a u := by
    split at hu
    · cases hu; exact hs
    · split at hu
      · cases hu
      · exact State.restoreAlloc_keeps hs hu
  obtain ⟨h1, h2, h3⟩ := hk
  refine ⟨?_, ?_, fun ha => ?_⟩
  · (repeat' split) <;> simp [h1]
  · (repeat' split) <;> simp [h2]
  · have h4 := h3 ha
    (repeat' split) <;> simp (maxDischargeDepth := 60) [h4]

@[simp] theorem State.restoreQueue_kept (s : State) (n : Nat) (r : RestRec) :
    (State.restoreQueue s n r).pending = s.pending ∧ (State.restoreQueue s n r).man = s.man ∧ (State.restoreQueue s n r).mem = s.mem ∧ (State.restoreQueue s n r).durable = s.durable := by
  unfold State.restoreQueue
  (try dsimp only)
  (repeat' split) <;> simp

@[simp] theorem State.restoreQueue_memOk (s : State) (n : Nat) (r : RestRec) : (State.restoreQueue s n r).memOk = s.memOk := memOk_of_eq (by simp) (by simp)

theorem State.restoreKey_keeps {a s n r t} (hs : RestKept a s) (h : State.restoreKey s n r = some t) : RestKept a t := by
  obtain ⟨h1, h2, h3⟩ := hs
  unfold State.restoreKey at h
  dsimp only at h
  repeat' (split at h)
  all_goals first | cases h | skip
  all_goals
    refine ⟨by simp [h1], by simp [h2], fun ha => ?_⟩
    have h4 := h3 ha
    simp (maxDischargeDepth := 60) [h4]

theorem State.restoreImage_keeps {a s n r t} (hs : RestKept a s) (h : State.restoreImage s n r = some t) : RestKept a t := by
  obtain ⟨h1, h2, h3⟩ := hs
  unfold State.restoreImage at h
  dsimp only at h
  repeat' (split at h)
  all_goals first | cases h | skip
  all_goals
    refine ⟨by simp [h1], by simp [h2], fun ha => ?_⟩
    have h4 := h3 ha
    simp (maxDischargeDepth := 60) [h4]

@[simp] theorem State.restoreCmd_kept (s : State) (n : Nat) (r : RestRec) :
    (State.restoreCmd s n r).pending = s.pending ∧ (State.restoreCmd s n r).man = s.man ∧ (State.restoreCmd s n r).mem = s.mem ∧ (State.restoreCmd s n r).durable = s.durable := by
  unfold State.restoreCmd
  (try dsimp only)
  (repeat' split) <;> simp

@[simp] theorem State.restoreCmd_memOk (s : State) (n : Nat) (r : RestRec) : (State.restoreCmd s n r).memOk = s.memOk := memOk_of_eq (by simp) (by simp)

theorem forRecs_keeps (f : State → RestRec → Option State) (p : State → Prop) (hf : ∀ s r t, p s → f s r = some t → p t)
    (rs : List RestRec) (s t : State) (hs : p s) (h : s.forRecs f rs = some t) : p t := by
  have key : ∀ (rs : List RestRec) (o : Option State), (∀ s, o = some s → p s) →
      rs.foldl (fun o r => o.bind fun s => f s r) o = some t → p t := by
    intro rs
    induction rs with
    | nil => intro o ho h; exact ho t h
    | cons r rs ih =>
      intro o ho h
      refine ih _ ?_ h
      intro u hu
      cases o with
      | none => simp at hu
      | some s0 => exact hf s0 r u (ho s0 rfl) hu
  exact key rs (some s) (fun u hu => by cases hu; exact hs) h

theorem State.restoreApply_keeps {a s x rs g t} (hs : RestKept a s) (h : State.restoreApply s x rs g = some t) : RestKept a t := by
  unfold State.restoreApply at h
  dsimp only at h
  split at h
  · cases h
  · obtain ⟨s1, h1, h⟩ := Option.bind_eq_some_iff.1 h
    obtain ⟨s2, h2, h⟩ := Option.bind_eq_some_iff.1 h
    obtain ⟨s3, h3, rfl⟩ := Option.map_eq_some_iff.1 h
    have k1 : RestKept a s1 := by
      refine forRecs_keeps _ (RestKept a) (fun s r t => State.restoreSeg_keeps) _ _ _ ?_ h1
      obtain ⟨b, c, d⟩ := hs
      refine ⟨by simp [b], by simp [c], fun ha => ?_⟩
      exact foldl_memOk State.freeSeg _ _ (fun s a h => State.freeSeg_wf s a h) (by simp (maxDischargeDepth := 60) [d ha])
    have k2 : RestKept a s2 := by
      refine forRecs_keeps _ (RestKept a) (fun s r t => State.restoreKey_keeps) _ _ _ ?_ h2
      obtain ⟨b, c, d⟩ := k1
      exact ⟨by simp [b], by simp [c], fun ha => by simp (maxDischargeDepth := 60) [d ha]⟩
    obtain ⟨b, c, d⟩ := forRecs_keeps _ (RestKept a) (fun s r t => State.restoreImage_keeps) _ _ _ k2 h3
    exact ⟨by simp [b], by simp [c], fun ha => by simp (maxDischargeDepth := 60) [d ha]⟩

theorem sliceRestoreEff_keeps (x : Cmd) (src : HostRead) (s : State) : RestKept s (sliceRestoreEff x src s) := by
  have hs : RestKept s s := ⟨rfl, rfl, id⟩
  unfold sliceRestoreEff
  dsimp only
  repeat' split
  iterate 4 exact ⟨by simp, by simp, fun ha => by simp (maxDischargeDepth := 60) [ha]⟩
  · next h =>
      obtain ⟨b, c, d⟩ := State.restoreApply_keeps hs h
      refine ⟨by simp [b], by simp [c], fun ha => ?_⟩
      simp (maxDischargeDepth := 60) [d ha]
  · exact ⟨by simp, by simp, fun ha => by simp (maxDischargeDepth := 60) [ha]⟩

@[simp] theorem sliceRestoreEff_kept (x : Cmd) (src : HostRead) (s : State) :
    (sliceRestoreEff x src s).pending = s.pending ∧ (sliceRestoreEff x src s).man = s.man := by
  exact ⟨(sliceRestoreEff_keeps x src s).1, (sliceRestoreEff_keeps x src s).2.1⟩

@[simp] theorem sliceRestoreEff_wf (x : Cmd) (src : HostRead) (s : State) (h : s.memOk = true) :
    (sliceRestoreEff x src s).memOk = true := by
  exact (sliceRestoreEff_keeps x src s).2.2 h

@[simp] theorem execSliceRestore_kept (c : CmdRef) (src : HostRead) (s : State) :
    (resState (execSliceRestore c src s) s).pending = s.pending ∧ (resState (execSliceRestore c src s) s).man = s.man := by
  unfold execSliceRestore resState
  (try dsimp only)
  (repeat' split) <;> simp

@[simp] theorem execSliceRestore_wf (c : CmdRef) (src : HostRead) (s : State) (h : s.memOk = true) :
    (resState (execSliceRestore c src s) s).memOk = true := by
  unfold execSliceRestore resState
  dsimp only
  split
  · exact State.sliceRun_wf _ _ _ (fun s h => sliceRestoreEff_wf _ _ s h) h
  · exact h

end Sys2Proof.Machine
end

