-- ==== Sys2Proof/Laws/KeptStart.lean ====
section
/-! SUPPORT. What the operations of Machine/Start.lean leave as it was. -/

namespace Sys2Proof.Machine

@[simp] theorem State.lookup_kept (s : State) (x : Cmd) (votes : List VoteSeen) (l : List (Nat × Nat)) :
    (State.lookup s x votes l).1.pending = s.pending ∧ (State.lookup s x votes l).1.man = s.man ∧ (State.lookup s x votes l).1.mem = s.mem ∧ (State.lookup s x votes l).1.durable = s.durable := by
  induction l generalizing s with
  | nil => simp [State.lookup]
  | cons e l ih =>
    obtain ⟨id, n⟩ := e
    unfold State.lookup
    dsimp only
    split
    · simp
    · split <;> simp [ih]

@[simp] theorem State.lookup_memOk (s : State) (x : Cmd) (votes : List VoteSeen) (l : List (Nat × Nat)) :
    (State.lookup s x votes l).1.memOk = s.memOk := memOk_of_eq (by simp) (by simp)

@[simp] theorem State.startQuery_kept (s : State) (x : Cmd) (i : Img) :
    (State.startQuery s x i).pending = s.pending ∧ (State.startQuery s x i).man = s.man ∧ (State.startQuery s x i).mem = s.mem ∧ (State.startQuery s x i).durable = s.durable := by
  unfold State.startQuery
  (try dsimp only)
  (repeat' split) <;> simp

@[simp] theorem State.startCmd_kept (s : State) (x : Cmd) (fetched : List HostRead) :
    (State.startCmd s x fetched).pending = s.pending ∧ (State.startCmd s x fetched).man = s.man ∧ (State.startCmd s x fetched).mem = s.mem ∧ (State.startCmd s x fetched).durable = s.durable := by
  unfold State.startCmd
  (try dsimp only)
  (repeat' split) <;> simp

@[simp] theorem State.lastChecks_kept (s : State) (x : Cmd) (fetched : List HostRead) :
    (State.lastChecks s x fetched).pending = s.pending ∧ (State.lastChecks s x fetched).man = s.man ∧ (State.lastChecks s x fetched).mem = s.mem ∧ (State.lastChecks s x fetched).durable = s.durable := by
  unfold State.lastChecks
  (try dsimp only)
  (repeat' split) <;> simp

@[simp] theorem State.plainStart_kept (s : State) (x : Cmd) (fetched : List HostRead) (votes : List VoteSeen) :
    (State.plainStart s x fetched votes).pending = s.pending ∧ (State.plainStart s x fetched votes).man = s.man ∧ (State.plainStart s x fetched votes).mem = s.mem ∧ (State.plainStart s x fetched votes).durable = s.durable := by
  unfold State.plainStart
  (try dsimp only)
  (repeat' split) <;> simp

@[simp] theorem State.queryStart_kept (s : State) (x : Cmd) (fetched : List HostRead) (votes : List VoteSeen) :
    (State.queryStart s x fetched votes).pending = s.pending ∧ (State.queryStart s x fetched votes).man = s.man ∧ (State.queryStart s x fetched votes).mem = s.mem ∧ (State.queryStart s x fetched votes).durable = s.durable := by
  unfold State.queryStart
  (try dsimp only)
  (repeat' split) <;> simp

@[simp] theorem State.withdraw_kept (s : State) (h t : Nat) :
    (State.withdraw s h t).pending = s.pending ∧ (State.withdraw s h t).man = s.man ∧ (State.withdraw s h t).mem = s.mem ∧ (State.withdraw s h t).durable = s.durable := by
  unfold State.withdraw
  (try dsimp only)
  (repeat' split) <;> simp

@[simp] theorem State.withdraw_memOk (s : State) (h t : Nat) : (State.withdraw s h t).memOk = s.memOk := memOk_of_eq (by simp) (by simp)

@[simp] theorem State.startEcc_kept (s : State) (x : Cmd) (e : Option (EccUnit × ScrubResult)) :
    (State.startEcc s x e).1.pending = s.pending ∧ (State.startEcc s x e).1.man = s.man ∧ (State.startEcc s x e).1.mem = s.mem ∧ (State.startEcc s x e).1.durable = s.durable := by
  unfold State.startEcc
  repeat' split
  all_goals simp

@[simp] theorem execCommandStart_kept (c : CmdRef) (fetched : List HostRead) (seen : StartSeen) (s : State) :
    (resState (execCommandStart c fetched seen s) s).pending = s.pending ∧ (resState (execCommandStart c fetched seen s) s).man = s.man ∧ (resState (execCommandStart c fetched seen s) s).mem = s.mem ∧ (resState (execCommandStart c fetched seen s) s).durable = s.durable := by
  unfold execCommandStart resState
  (try dsimp only)
  (repeat' split) <;> simp

end Sys2Proof.Machine
end

