-- ==== Sys2Proof/Laws/KeptQueryFeed.lean ====
section
/-! SUPPORT. What the operations of Machine/QueryFeed.lean leave as it was. -/

namespace Sys2Proof.Machine

@[simp] theorem State.freshPage_kept (s : State) (qid pipe tile page : Nat) (spilled : Bool) :
    (State.freshPage s qid pipe tile page spilled).pending = s.pending ∧ (State.freshPage s qid pipe tile page spilled).man = s.man ∧ (State.freshPage s qid pipe tile page spilled).mem = s.mem ∧ (State.freshPage s qid pipe tile page spilled).durable = s.durable := by
  unfold State.freshPage
  (try dsimp only)
  (repeat' split) <;> simp

end Sys2Proof.Machine
end

