-- ==== Sys2Proof/Laws/KeptRings.lean ====
section
/-! SUPPORT. What the operations of Machine/Rings.lean leave as it was. -/

namespace Sys2Proof.Machine

@[simp] theorem doorbellEff_kept (w : DoorbellWrite) (s : State) :
    (doorbellEff w s).pending = s.pending ∧ (doorbellEff w s).man = s.man ∧ (doorbellEff w s).mem = s.mem ∧ (doorbellEff w s).durable = s.durable := by
  unfold doorbellEff
  (try dsimp only)
  (repeat' split) <;> simp

@[simp] theorem execDoorbell_kept (w : DoorbellWrite) (s : State) :
    (resState (execDoorbell w s) s).pending = s.pending ∧ (resState (execDoorbell w s) s).man = s.man ∧ (resState (execDoorbell w s) s).mem = s.mem ∧ (resState (execDoorbell w s) s).durable = s.durable := by
  unfold execDoorbell resState
  (try dsimp only)
  (repeat' split) <;> simp

@[simp] theorem State.faultRing_kept (s : State) (q cid addr status : Nat) :
    (State.faultRing s q cid addr status).pending = s.pending ∧ (State.faultRing s q cid addr status).man = s.man ∧ (State.faultRing s q cid addr status).mem = s.mem ∧ (State.faultRing s q cid addr status).durable = s.durable := by
  unfold State.faultRing
  (try dsimp only)
  (repeat' split) <;> simp

@[simp] theorem State.takeEntry_kept (s : State) (q k : Nat) (r : EntryRead) :
    (State.takeEntry s q k r).pending = s.pending ∧ (State.takeEntry s q k r).man = s.man ∧ (State.takeEntry s q k r).mem = s.mem ∧ (State.takeEntry s q k r).durable = s.durable := by
  unfold State.takeEntry
  (try dsimp only)
  (repeat' split) <;> simp

@[simp] theorem execRingEntryRead_kept (q : QueueId) (reads : List EntryRead) (s : State) :
    (resState (execRingEntryRead q reads s) s).pending = s.pending ∧ (resState (execRingEntryRead q reads s) s).man = s.man ∧ (resState (execRingEntryRead q reads s) s).mem = s.mem ∧ (resState (execRingEntryRead q reads s) s).durable = s.durable := by
  unfold execRingEntryRead resState
  (try dsimp only)
  (repeat' split) <;> simp

@[simp] theorem ownRereadEff_kept (q : Nat) (r : EntryRead) (s : State) :
    (ownRereadEff q r s).pending = s.pending ∧ (ownRereadEff q r s).man = s.man ∧ (ownRereadEff q r s).mem = s.mem ∧ (ownRereadEff q r s).durable = s.durable := by
  unfold ownRereadEff
  (try dsimp only)
  (repeat' split) <;> simp

@[simp] theorem execOwnReread_kept (q : QueueId) (r : EntryRead) (s : State) :
    (resState (execOwnReread q r s) s).pending = s.pending ∧ (resState (execOwnReread q r s) s).man = s.man ∧ (resState (execOwnReread q r s) s).mem = s.mem ∧ (resState (execOwnReread q r s) s).durable = s.durable := by
  unfold execOwnReread resState
  (try dsimp only)
  (repeat' split) <;> simp

@[simp] theorem State.giveQid_kept (s : State) (x : Cmd) :
    (State.giveQid s x).pending = s.pending ∧ (State.giveQid s x).man = s.man ∧ (State.giveQid s x).mem = s.mem ∧ (State.giveQid s x).durable = s.durable := by
  unfold State.giveQid
  (try dsimp only)
  (repeat' split) <;> simp

@[simp] theorem State.fetchOne_kept (s : State) (q : QueueId) :
    (State.fetchOne s q).pending = s.pending ∧ (State.fetchOne s q).man = s.man ∧ (State.fetchOne s q).mem = s.mem ∧ (State.fetchOne s q).durable = s.durable := by
  unfold State.fetchOne
  (try dsimp only)
  (repeat' split) <;> simp

@[simp] theorem State.fetchOne_memOk (s : State) (q : QueueId) : (State.fetchOne s q).memOk = s.memOk := memOk_of_eq (by simp) (by simp)

@[simp] theorem State.serveTurn_kept (s : State) (t : TileId) (q : QueueId) (burst fuel n : Nat) :
    (State.serveTurn s t q burst fuel n).pending = s.pending ∧ (State.serveTurn s t q burst fuel n).man = s.man ∧ (State.serveTurn s t q burst fuel n).mem = s.mem ∧ (State.serveTurn s t q burst fuel n).durable = s.durable := by
  induction fuel generalizing s n with
  | zero => simp [State.serveTurn]
  | succ k ih => unfold State.serveTurn; split <;> simp [ih]

@[simp] theorem State.forfeit_kept (s : State) (t : TileId) (c upTo : Nat) :
    (State.forfeit s t c upTo).pending = s.pending ∧ (State.forfeit s t c upTo).man = s.man ∧ (State.forfeit s t c upTo).mem = s.mem ∧ (State.forfeit s t c upTo).durable = s.durable := by
  unfold State.forfeit
  (try dsimp only)
  (repeat' split) <;> simp

@[simp] theorem State.forfeit_memOk (s : State) (t : TileId) (c upTo : Nat) : (State.forfeit s t c upTo).memOk = s.memOk := memOk_of_eq (by simp) (by simp)

theorem State.nextWrr_kept {s : State} {t : TileId} {c q : Nat} {u : State} (h : s.nextWrr t c = some (q, u)) :
    u.pending = s.pending ∧ u.man = s.man ∧ u.mem = s.mem ∧ u.durable = s.durable := by
  unfold State.nextWrr at h
  dsimp only at h
  repeat' (split at h)
  all_goals first | (cases h; done) | skip
  all_goals
    obtain ⟨_, rfl⟩ := Prod.mk.inj (Option.some.inj h)
    simp

theorem State.nextClass_kept {s : State} {t : TileId} {c : Nat} {u : State} (h : s.nextClass t = some (c, u)) :
    u.pending = s.pending ∧ u.man = s.man ∧ u.mem = s.mem ∧ u.durable = s.durable := by
  unfold State.nextClass at h
  dsimp only at h
  repeat' (split at h)
  all_goals first | (cases h; done) | skip
  all_goals
    obtain ⟨_, rfl⟩ := Prod.mk.inj (Option.some.inj h)
    simp

@[simp] theorem arbitrateEff_kept (t : TileId) (s : State) :
    (arbitrateEff t s).pending = s.pending ∧ (arbitrateEff t s).man = s.man ∧ (arbitrateEff t s).mem = s.mem ∧ (arbitrateEff t s).durable = s.durable := by
  unfold arbitrateEff
  dsimp only
  split
  · split
    · rename_i h
      have h1 := State.nextClass_kept h
      split
      · rename_i h
        have h2 := State.nextWrr_kept h
        simp [h1, h2]
      · simp
    · simp
  · split
    · rename_i h
      have h2 := State.nextWrr_kept h
      simp [h2]
    · simp

@[simp] theorem execArbitrate_kept (t : TileId) (s : State) :
    (resState (execArbitrate t s) s).pending = s.pending ∧ (resState (execArbitrate t s) s).man = s.man ∧ (resState (execArbitrate t s) s).mem = s.mem ∧ (resState (execArbitrate t s) s).durable = s.durable := by
  unfold execArbitrate resState
  (try dsimp only)
  (repeat' split) <;> simp

@[simp] theorem State.countIrq_kept (s : State) (q : Nat) (nowBit : Bool) :
    (State.countIrq s q nowBit).pending = s.pending ∧ (State.countIrq s q nowBit).man = s.man ∧ (State.countIrq s q nowBit).mem = s.mem ∧ (State.countIrq s q nowBit).durable = s.durable := by
  unfold State.countIrq
  (try dsimp only)
  (repeat' split) <;> simp

@[simp] theorem commandCompleteEff_kept (x : Cmd) (failAt : Option Nat) (s : State) :
    (commandCompleteEff x failAt s).pending = s.pending ∧ (commandCompleteEff x failAt s).man = s.man ∧ (commandCompleteEff x failAt s).mem = s.mem ∧ (commandCompleteEff x failAt s).durable = s.durable := by
  unfold commandCompleteEff
  (try dsimp only)
  (repeat' split) <;> simp

@[simp] theorem execCommandComplete_kept (c : CmdRef) (failAt : Option Nat) (s : State) :
    (resState (execCommandComplete c failAt s) s).pending = s.pending ∧ (resState (execCommandComplete c failAt s) s).man = s.man ∧ (resState (execCommandComplete c failAt s) s).mem = s.mem ∧ (resState (execCommandComplete c failAt s) s).durable = s.durable := by
  unfold execCommandComplete resState
  (try dsimp only)
  (repeat' split) <;> simp

@[simp] theorem execQueueIrqTimer_kept (q : QueueId) (s : State) :
    (resState (execQueueIrqTimer q s) s).pending = s.pending ∧ (resState (execQueueIrqTimer q s) s).man = s.man ∧ (resState (execQueueIrqTimer q s) s).mem = s.mem ∧ (resState (execQueueIrqTimer q s) s).durable = s.durable := by
  unfold execQueueIrqTimer resState
  (try dsimp only)
  (repeat' split) <;> simp

@[simp] theorem State.bufferWrite_kept (s : State) (b : Nat) (w : BufWrite) :
    (State.bufferWrite s b w).pending = s.pending ∧ (State.bufferWrite s b w).man = s.man ∧ (State.bufferWrite s b w).mem = s.mem ∧ (State.bufferWrite s b w).durable = s.durable := by
  unfold State.bufferWrite
  (try dsimp only)
  (repeat' split) <;> simp

@[simp] theorem State.bufferWrite_memOk (s : State) (b : Nat) (w : BufWrite) : (State.bufferWrite s b w).memOk = s.memOk := memOk_of_eq (by simp) (by simp)

@[simp] theorem State.queueWrite_pending (s : State) (q : QueueId) (off value : Nat) (f : State → State) (hf : ∀ s, (f s).pending = s.pending) : (State.queueWrite s q off value f).pending = s.pending := by
  unfold State.queueWrite
  (try dsimp only)
  (repeat' split) <;> simp [hf]

@[simp] theorem State.queueWrite_man (s : State) (q : QueueId) (off value : Nat) (f : State → State) (hf : ∀ s, (f s).man = s.man) : (State.queueWrite s q off value f).man = s.man := by
  unfold State.queueWrite
  (try dsimp only)
  (repeat' split) <;> simp [hf]

@[simp] theorem State.queueWrite_mem (s : State) (q : QueueId) (off value : Nat) (f : State → State) (hf : ∀ s, (f s).mem = s.mem) : (State.queueWrite s q off value f).mem = s.mem := by
  unfold State.queueWrite
  (try dsimp only)
  (repeat' split) <;> simp [hf]

@[simp] theorem State.queueWrite_durable (s : State) (q : QueueId) (off value : Nat) (f : State → State) (hf : ∀ s, (f s).durable = s.durable) : (State.queueWrite s q off value f).durable = s.durable := by
  unfold State.queueWrite
  (try dsimp only)
  (repeat' split) <;> simp [hf]

@[simp] theorem State.queueWrite_wf (s : State) (q : QueueId) (off value : Nat) (f : State → State)
    (hf : ∀ s, s.memOk = true → (f s).memOk = true) (h : s.memOk = true) : (State.queueWrite s q off value f).memOk = true := by
  unfold State.queueWrite
  try dsimp only
  (repeat' split) <;> first | exact h | exact hf s h | simp (maxDischargeDepth := 9) [h]

@[simp] theorem execQueueEnable_kept (q : QueueId) (s : State) :
    (resState (execQueueEnable q s) s).pending = s.pending ∧ (resState (execQueueEnable q s) s).man = s.man ∧ (resState (execQueueEnable q s) s).mem = s.mem ∧ (resState (execQueueEnable q s) s).durable = s.durable := by
  unfold execQueueEnable resState
  (try dsimp only)
  (repeat' split) <;> simp

@[simp] theorem execQueueDisable_kept (q : QueueId) (s : State) :
    (resState (execQueueDisable q s) s).pending = s.pending ∧ (resState (execQueueDisable q s) s).man = s.man ∧ (resState (execQueueDisable q s) s).mem = s.mem ∧ (resState (execQueueDisable q s) s).durable = s.durable := by
  unfold execQueueDisable resState
  (try dsimp only)
  (repeat' split) <;> simp

@[simp] theorem execQueueReset_kept (q : QueueId) (s : State) :
    (resState (execQueueReset q s) s).pending = s.pending ∧ (resState (execQueueReset q s) s).man = s.man ∧ (resState (execQueueReset q s) s).mem = s.mem := by
  unfold execQueueReset resState
  (try dsimp only)
  (repeat' split) <;> simp

@[simp] theorem execQueueReset_wf (q : QueueId) (s : State) (h : s.memOk = true) :
    (resState (execQueueReset q s) s).memOk = true := by
  unfold execQueueReset resState
  dsimp only
  exact State.queueWrite_wf _ _ _ _ _ (fun s h => by simp (maxDischargeDepth := 9) [h]) h

@[simp] theorem execQueueResetForceStop_kept (q : QueueId) (s : State) :
    (resState (execQueueResetForceStop q s) s).pending = s.pending ∧ (resState (execQueueResetForceStop q s) s).man = s.man ∧ (resState (execQueueResetForceStop q s) s).mem = s.mem := by
  unfold execQueueResetForceStop resState
  (try dsimp only)
  (repeat' split) <;> simp

@[simp] theorem execQueueResetForceStop_wf (q : QueueId) (s : State) (h : s.memOk = true) :
    (resState (execQueueResetForceStop q s) s).memOk = true := by
  unfold execQueueResetForceStop resState
  (try dsimp only)
  (repeat' split) <;> simp (maxDischargeDepth := 60) [h]

@[simp] theorem execQueueResetDone_kept (q : QueueId) (s : State) :
    (resState (execQueueResetDone q s) s).pending = s.pending ∧ (resState (execQueueResetDone q s) s).man = s.man ∧ (resState (execQueueResetDone q s) s).mem = s.mem := by
  unfold execQueueResetDone resState
  (try dsimp only)
  (repeat' split) <;> simp

@[simp] theorem execQueueResetDone_wf (q : QueueId) (s : State) (h : s.memOk = true) :
    (resState (execQueueResetDone q s) s).memOk = true := by
  unfold execQueueResetDone resState
  (try dsimp only)
  (repeat' split) <;> simp (maxDischargeDepth := 60) [h]

@[simp] theorem execRingFaultClear_kept (q : QueueId) (s : State) :
    (resState (execRingFaultClear q s) s).pending = s.pending ∧ (resState (execRingFaultClear q s) s).man = s.man ∧ (resState (execRingFaultClear q s) s).mem = s.mem ∧ (resState (execRingFaultClear q s) s).durable = s.durable := by
  unfold execRingFaultClear resState
  (try dsimp only)
  (repeat' split) <;> simp

end Sys2Proof.Machine
end

