-- ==== Sys2Proof/Laws/KeptQueryPlan.lean ====
section
/-! SUPPORT. What the operations of Machine/QueryPlan.lean leave as it was. -/

namespace Sys2Proof.Machine

@[simp] theorem State.onPipe_kept (s : State) (qid i : Nat) (f : PipeState → PipeState) :
    (State.onPipe s qid i f).pending = s.pending ∧ (State.onPipe s qid i f).man = s.man ∧ (State.onPipe s qid i f).mem = s.mem ∧ (State.onPipe s qid i f).durable = s.durable := by
  unfold State.onPipe
  (try dsimp only)
  (repeat' split) <;> simp

@[simp] theorem State.onPipe_memOk (s : State) (qid i : Nat) (f : PipeState → PipeState) : (State.onPipe s qid i f).memOk = s.memOk := memOk_of_eq (by simp) (by simp)

@[simp] theorem State.putPipe_kept (s : State) (q : Query) (k : Nat) (ps : PipeState) :
    (State.putPipe s q k ps).pending = s.pending ∧ (State.putPipe s q k ps).man = s.man ∧ (State.putPipe s q k ps).mem = s.mem ∧ (State.putPipe s q k ps).durable = s.durable := by
  unfold State.putPipe
  (try dsimp only)
  (repeat' split) <;> simp

@[simp] theorem State.settleQuery_kept (s : State) (qid : Nat) :
    (State.settleQuery s qid).pending = s.pending ∧ (State.settleQuery s qid).man = s.man ∧ (State.settleQuery s qid).mem = s.mem ∧ (State.settleQuery s qid).durable = s.durable := by
  unfold State.settleQuery
  (try dsimp only)
  (repeat' split) <;> simp

@[simp] theorem State.settleQuery_memOk (s : State) (qid : Nat) : (State.settleQuery s qid).memOk = s.memOk := memOk_of_eq (by simp) (by simp)

@[simp] theorem State.queryFault_kept (s : State) (q : Query) (m : Nat) (f : QFail) :
    (State.queryFault s q m f).pending = s.pending ∧ (State.queryFault s q m f).man = s.man ∧ (State.queryFault s q m f).mem = s.mem ∧ (State.queryFault s q m f).durable = s.durable := by
  unfold State.queryFault
  (try dsimp only)
  (repeat' split) <;> simp

@[simp] theorem queryRunEff_kept (q : Query) (s : State) :
    (queryRunEff q s).pending = s.pending ∧ (queryRunEff q s).man = s.man ∧ (queryRunEff q s).mem = s.mem ∧ (queryRunEff q s).durable = s.durable := by
  unfold queryRunEff
  (try dsimp only)
  (repeat' split) <;> simp

@[simp] theorem execQueryRun_kept (c : CmdRef) (s : State) :
    (resState (execQueryRun c s) s).pending = s.pending ∧ (resState (execQueryRun c s) s).man = s.man ∧ (resState (execQueryRun c s) s).mem = s.mem ∧ (resState (execQueryRun c s) s).durable = s.durable := by
  unfold execQueryRun resState
  (try dsimp only)
  (repeat' split) <;> simp

@[simp] theorem State.freeTokens_kept (s : State) (t : TileId) (qid pipe slice : Nat) :
    (State.freeTokens s t qid pipe slice).pending = s.pending ∧ (State.freeTokens s t qid pipe slice).man = s.man ∧ (State.freeTokens s t qid pipe slice).mem = s.mem ∧ (State.freeTokens s t qid pipe slice).durable = s.durable := by
  unfold State.freeTokens
  (try dsimp only)
  (repeat' split) <;> simp

@[simp] theorem barrierEff_kept (q : Query) (i : Img) (k : Nat) (s : State) :
    (barrierEff q i k s).pending = s.pending ∧ (barrierEff q i k s).man = s.man ∧ (barrierEff q i k s).mem = s.mem ∧ (barrierEff q i k s).durable = s.durable := by
  unfold barrierEff
  (try dsimp only)
  (repeat' split) <;> simp

@[simp] theorem execBarrierRelease_kept (qid : Nat) (pipe : Fin 32) (s : State) :
    (resState (execBarrierRelease qid pipe s) s).pending = s.pending ∧ (resState (execBarrierRelease qid pipe s) s).man = s.man ∧ (resState (execBarrierRelease qid pipe s) s).mem = s.mem ∧ (resState (execBarrierRelease qid pipe s) s).durable = s.durable := by
  unfold execBarrierRelease resState
  (try dsimp only)
  (repeat' split) <;> simp

end Sys2Proof.Machine
end

