-- ==== Sys2Proof/Laws/KeptSched.lean ====
section
/-! SUPPORT. What the operations of Machine/Sched.lean leave as it was. -/

namespace Sys2Proof.Machine

@[simp] theorem State.onSched_kept (s : State) (t : TileId) (f : Sched → Sched) :
    (State.onSched s t f).pending = s.pending ∧ (State.onSched s t f).man = s.man ∧ (State.onSched s t f).mem = s.mem ∧ (State.onSched s t f).durable = s.durable := by
  unfold State.onSched
  (try dsimp only)
  (repeat' split) <;> simp

@[simp] theorem State.onSched_memOk (s : State) (t : TileId) (f : Sched → Sched) : (State.onSched s t f).memOk = s.memOk := memOk_of_eq (by simp) (by simp)

@[simp] theorem State.wantPes_kept (s : State) (t : TileId) :
    (State.wantPes s t).pending = s.pending ∧ (State.wantPes s t).man = s.man ∧ (State.wantPes s t).mem = s.mem ∧ (State.wantPes s t).durable = s.durable := by
  unfold State.wantPes
  (try dsimp only)
  (repeat' split) <;> simp

@[simp] theorem State.wantPes_memOk (s : State) (t : TileId) : (State.wantPes s t).memOk = s.memOk := memOk_of_eq (by simp) (by simp)

@[simp] theorem State.wantAll_kept (s : State) :
    (State.wantAll s).pending = s.pending ∧ (State.wantAll s).man = s.man ∧ (State.wantAll s).mem = s.mem ∧ (State.wantAll s).durable = s.durable := by
  unfold State.wantAll
  (try dsimp only)
  (repeat' split) <;> simp

@[simp] theorem State.wantAll_memOk (s : State) : (State.wantAll s).memOk = s.memOk := memOk_of_eq (by simp) (by simp)

@[simp] theorem postEff_kept (t : TileId) (s : State) :
    (postEff t s).pending = s.pending ∧ (postEff t s).man = s.man ∧ (postEff t s).mem = s.mem ∧ (postEff t s).durable = s.durable := by
  unfold postEff
  (try dsimp only)
  (repeat' split) <;> simp

@[simp] theorem execTokenPost_kept (t : TileId) (s : State) :
    (resState (execTokenPost t s) s).pending = s.pending ∧ (resState (execTokenPost t s) s).man = s.man ∧ (resState (execTokenPost t s) s).mem = s.mem ∧ (resState (execTokenPost t s) s).durable = s.durable := by
  unfold execTokenPost resState
  (try dsimp only)
  (repeat' split) <;> simp

@[simp] theorem State.sendState_kept (s : State) (t : TileId) :
    (State.sendState s t).pending = s.pending ∧ (State.sendState s t).man = s.man ∧ (State.sendState s t).mem = s.mem ∧ (State.sendState s t).durable = s.durable := by
  unfold State.sendState
  (try dsimp only)
  (repeat' split) <;> simp

@[simp] theorem State.offer_kept (s : State) (t : TileId) (lvl : Option Nat) :
    (State.offer s t lvl).pending = s.pending ∧ (State.offer s t lvl).man = s.man ∧ (State.offer s t lvl).mem = s.mem ∧ (State.offer s t lvl).durable = s.durable := by
  unfold State.offer
  (try dsimp only)
  (repeat' split) <;> simp

@[simp] theorem State.reoffer_kept (s : State) (t : TileId) :
    (State.reoffer s t).pending = s.pending ∧ (State.reoffer s t).man = s.man ∧ (State.reoffer s t).mem = s.mem ∧ (State.reoffer s t).durable = s.durable := by
  unfold State.reoffer
  (try dsimp only)
  (repeat' split) <;> simp

@[simp] theorem State.sendBase_kept (s : State) (q : Query) (i : Img) (k : Nat) :
    (State.sendBase s q i k).pending = s.pending ∧ (State.sendBase s q i k).man = s.man ∧ (State.sendBase s q i k).mem = s.mem ∧ (State.sendBase s q i k).durable = s.durable := by
  unfold State.sendBase
  (try dsimp only)
  (repeat' split) <;> simp

@[simp] theorem State.tellBase_kept (s : State) (qid k : Nat) :
    (State.tellBase s qid k).pending = s.pending ∧ (State.tellBase s qid k).man = s.man ∧ (State.tellBase s qid k).mem = s.mem ∧ (State.tellBase s qid k).durable = s.durable := by
  unfold State.tellBase
  (try dsimp only)
  (repeat' split) <;> simp

end Sys2Proof.Machine
end

