-- ==== Sys2Proof/Laws/KeptWindows.lean ====
section
/-! SUPPORT. What the operations of Machine/Windows.lean leave as it was. -/

namespace Sys2Proof.Machine

@[simp] theorem State.dropIdle_kept (s : State) (t : TileId) :
    (State.dropIdle s t).pending = s.pending ∧ (State.dropIdle s t).man = s.man ∧ (State.dropIdle s t).mem = s.mem ∧ (State.dropIdle s t).durable = s.durable := by
  unfold State.dropIdle
  (try dsimp only)
  (repeat' split) <;> simp

@[simp] theorem windowEff_kept (t : TileId) (otherNj : Nat) (s : State) :
    (windowEff t otherNj s).pending = s.pending ∧ (windowEff t otherNj s).man = s.man ∧ (windowEff t otherNj s).mem = s.mem ∧ (windowEff t otherNj s).durable = s.durable := by
  unfold windowEff
  (try dsimp only)
  (repeat' split) <;> simp

@[simp] theorem State.epochTile_kept (s : State) (t : TileId) :
    (State.epochTile s t).pending = s.pending ∧ (State.epochTile s t).man = s.man ∧ (State.epochTile s t).mem = s.mem ∧ (State.epochTile s t).durable = s.durable := by
  unfold State.epochTile
  (try dsimp only)
  (repeat' split) <;> simp

@[simp] theorem State.takeWindow_kept (s : State) :
    (State.takeWindow s).pending = s.pending ∧ (State.takeWindow s).man = s.man ∧ (State.takeWindow s).mem = s.mem ∧ (State.takeWindow s).durable = s.durable := by
  unfold State.takeWindow
  (try dsimp only)
  (repeat' split) <;> simp

@[simp] theorem epochEff_kept (s : State) :
    (epochEff s).pending = s.pending ∧ (epochEff s).man = s.man ∧ (epochEff s).mem = s.mem ∧ (epochEff s).durable = s.durable := by
  unfold epochEff
  (try dsimp only)
  (repeat' split) <;> simp

@[simp] theorem State.atTime_pending (s : State) (b : Nat) (f : State → State) (hf : ∀ s, (f s).pending = s.pending) : (State.atTime s b f).pending = s.pending := by
  simp [State.atTime, hf]

@[simp] theorem State.atTime_man (s : State) (b : Nat) (f : State → State) (hf : ∀ s, (f s).man = s.man) : (State.atTime s b f).man = s.man := by
  simp [State.atTime, hf]

@[simp] theorem State.atTime_mem (s : State) (b : Nat) (f : State → State) (hf : ∀ s, (f s).mem = s.mem) : (State.atTime s b f).mem = s.mem := by
  simp [State.atTime, hf]

@[simp] theorem State.atTime_durable (s : State) (b : Nat) (f : State → State) (hf : ∀ s, (f s).durable = s.durable) : (State.atTime s b f).durable = s.durable := by
  simp [State.atTime, hf]

@[simp] theorem State.openWindow_kept (s : State) (t : TileId) (b otherNj : Nat) (charged : Bool) :
    (State.openWindow s t b otherNj charged).pending = s.pending ∧ (State.openWindow s t b otherNj charged).man = s.man ∧ (State.openWindow s t b otherNj charged).mem = s.mem ∧ (State.openWindow s t b otherNj charged).durable = s.durable := by
  unfold State.openWindow
  (try dsimp only)
  (repeat' split) <;> simp

@[simp] theorem State.openWindow_memOk (s : State) (t : TileId) (b otherNj : Nat) (charged : Bool) : (State.openWindow s t b otherNj charged).memOk = s.memOk := memOk_of_eq (by simp) (by simp)

@[simp] theorem State.rollWindows_kept (s : State) (t : TileId) (end_ n : Nat) :
    (State.rollWindows s t end_ n).pending = s.pending ∧ (State.rollWindows s t end_ n).man = s.man ∧ (State.rollWindows s t end_ n).mem = s.mem ∧ (State.rollWindows s t end_ n).durable = s.durable := by
  induction n generalizing s with
  | zero => simp [State.rollWindows]
  | succ n ih => unfold State.rollWindows; (repeat' split) <;> simp [ih]

@[simp] theorem State.openEpoch_kept (s : State) (k : Nat) :
    (State.openEpoch s k).pending = s.pending ∧ (State.openEpoch s k).man = s.man ∧ (State.openEpoch s k).mem = s.mem ∧ (State.openEpoch s k).durable = s.durable := by
  unfold State.openEpoch
  (try dsimp only)
  (repeat' split) <;> simp

@[simp] theorem State.openEpoch_memOk (s : State) (k : Nat) : (State.openEpoch s k).memOk = s.memOk := memOk_of_eq (by simp) (by simp)

@[simp] theorem State.rollEpochs_kept (s : State) (n : Nat) :
    (State.rollEpochs s n).pending = s.pending ∧ (State.rollEpochs s n).man = s.man ∧ (State.rollEpochs s n).mem = s.mem ∧ (State.rollEpochs s n).durable = s.durable := by
  induction n generalizing s with
  | zero => simp [State.rollEpochs]
  | succ n ih => unfold State.rollEpochs; (repeat' split) <;> simp [ih]

@[simp] theorem State.rollSched_kept (s : State) (t : TileId) :
    (State.rollSched s t).pending = s.pending ∧ (State.rollSched s t).man = s.man ∧ (State.rollSched s t).mem = s.mem ∧ (State.rollSched s t).durable = s.durable := by
  unfold State.rollSched
  (try dsimp only)
  (repeat' split) <;> simp

@[simp] theorem windowRow_kept (t : TileId) (otherNj : Nat) (s : State) :
    (windowRow t otherNj s).pending = s.pending ∧ (windowRow t otherNj s).man = s.man ∧ (windowRow t otherNj s).mem = s.mem ∧ (windowRow t otherNj s).durable = s.durable := by
  unfold windowRow
  (try dsimp only)
  (repeat' split) <;> simp

@[simp] theorem execSchedWindowStart_kept (t : TileId) (otherNj : Nat) (s : State) :
    (resState (execSchedWindowStart t otherNj s) s).pending = s.pending ∧ (resState (execSchedWindowStart t otherNj s) s).man = s.man ∧ (resState (execSchedWindowStart t otherNj s) s).mem = s.mem ∧ (resState (execSchedWindowStart t otherNj s) s).durable = s.durable := by
  unfold execSchedWindowStart resState
  (try dsimp only)
  (repeat' split) <;> simp

@[simp] theorem execBudgetEpochStart_kept (s : State) :
    (resState (execBudgetEpochStart s) s).pending = s.pending ∧ (resState (execBudgetEpochStart s) s).man = s.man ∧ (resState (execBudgetEpochStart s) s).mem = s.mem ∧ (resState (execBudgetEpochStart s) s).durable = s.durable := by
  unfold execBudgetEpochStart resState
  (try dsimp only)
  (repeat' split) <;> simp

@[simp] theorem splitEff_kept (otherMw : Nat) (s : State) :
    (splitEff otherMw s).pending = s.pending ∧ (splitEff otherMw s).man = s.man ∧ (splitEff otherMw s).mem = s.mem ∧ (splitEff otherMw s).durable = s.durable := by
  unfold splitEff
  (try dsimp only)
  (repeat' split) <;> simp

@[simp] theorem execPowerSplit_kept (otherMw : Nat) (s : State) :
    (resState (execPowerSplit otherMw s) s).pending = s.pending ∧ (resState (execPowerSplit otherMw s) s).man = s.man ∧ (resState (execPowerSplit otherMw s) s).mem = s.mem ∧ (resState (execPowerSplit otherMw s) s).durable = s.durable := by
  unfold execPowerSplit resState
  (try dsimp only)
  (repeat' split) <;> simp

@[simp] theorem execVerificationWindowStart_kept (s : State) :
    (resState (execVerificationWindowStart s) s).pending = s.pending ∧ (resState (execVerificationWindowStart s) s).man = s.man ∧ (resState (execVerificationWindowStart s) s).mem = s.mem ∧ (resState (execVerificationWindowStart s) s).durable = s.durable := by
  unfold execVerificationWindowStart resState
  (try dsimp only)
  (repeat' split) <;> simp

@[simp] theorem execErrorCoalesceWindowEnd_kept (t : TileId) (s : State) :
    (resState (execErrorCoalesceWindowEnd t s) s).pending = s.pending ∧ (resState (execErrorCoalesceWindowEnd t s) s).man = s.man ∧ (resState (execErrorCoalesceWindowEnd t s) s).mem = s.mem ∧ (resState (execErrorCoalesceWindowEnd t s) s).durable = s.durable := by
  unfold execErrorCoalesceWindowEnd resState
  (try dsimp only)
  (repeat' split) <;> simp

end Sys2Proof.Machine
end

