-- ==== Sys2Proof/Laws/KeptServe.lean ====
section
/-! SUPPORT. What the operations of Machine/Serve.lean leave as it was. -/

namespace Sys2Proof.Machine

@[simp] theorem State.countTurn_kept (s : State) (t : TileId) (lvl : Nat) (sls : List Nat) (sl : Nat) :
    (State.countTurn s t lvl sls sl).pending = s.pending ∧ (State.countTurn s t lvl sls sl).man = s.man ∧ (State.countTurn s t lvl sls sl).mem = s.mem ∧ (State.countTurn s t lvl sls sl).durable = s.durable := by
  unfold State.countTurn
  (try dsimp only)
  (repeat' split) <;> simp

@[simp] theorem State.countTurn_memOk (s : State) (t : TileId) (lvl : Nat) (sls : List Nat) (sl : Nat) : (State.countTurn s t lvl sls sl).memOk = s.memOk := memOk_of_eq (by simp) (by simp)

@[simp] theorem State.startRun_kept (s : State) (n : Nat) (k : Token) (m : MorselAt) (first est : Nat) :
    (State.startRun s n k m first est).pending = s.pending ∧ (State.startRun s n k m first est).man = s.man ∧ (State.startRun s n k m first est).mem = s.mem ∧ (State.startRun s n k m first est).durable = s.durable := by
  unfold State.startRun
  (try dsimp only)
  (repeat' split) <;> simp

@[simp] theorem State.issue_kept (s : State) (t : TileId) (n ix : Nat) (k : Token) (type reason : Nat) :
    (State.issue s t n ix k type reason).pending = s.pending ∧ (State.issue s t n ix k type reason).man = s.man ∧ (State.issue s t n ix k type reason).mem = s.mem ∧ (State.issue s t n ix k type reason).durable = s.durable := by
  unfold State.issue
  (try dsimp only)
  (repeat' split) <;> simp

@[simp] theorem State.issue_memOk (s : State) (t : TileId) (n ix : Nat) (k : Token) (type reason : Nat) : (State.issue s t n ix k type reason).memOk = s.memOk := memOk_of_eq (by simp) (by simp)

@[simp] theorem State.blockLevel_kept (s : State) (t : TileId) (n lvl : Nat) :
    (State.blockLevel s t n lvl).pending = s.pending ∧ (State.blockLevel s t n lvl).man = s.man ∧ (State.blockLevel s t n lvl).mem = s.mem ∧ (State.blockLevel s t n lvl).durable = s.durable := by
  unfold State.blockLevel
  (try dsimp only)
  (repeat' split) <;> simp

@[simp] theorem State.blockLevel_memOk (s : State) (t : TileId) (n lvl : Nat) : (State.blockLevel s t n lvl).memOk = s.memOk := memOk_of_eq (by simp) (by simp)

@[simp] theorem State.serve_kept (s : State) (t : TileId) (floor : Nat) (l : List Nat) :
    (State.serve s t floor l).pending = s.pending ∧ (State.serve s t floor l).man = s.man ∧ (State.serve s t floor l).mem = s.mem ∧ (State.serve s t floor l).durable = s.durable := by
  induction l generalizing s floor with
  | nil => simp [State.serve]
  | cons n l ih => unfold State.serve; (repeat' split) <;> simp [ih]

@[simp] theorem State.askSteal_kept (s : State) (t : TileId) :
    (State.askSteal s t).pending = s.pending ∧ (State.askSteal s t).man = s.man ∧ (State.askSteal s t).mem = s.mem ∧ (State.askSteal s t).durable = s.durable := by
  unfold State.askSteal
  (try dsimp only)
  (repeat' split) <;> simp

@[simp] theorem State.storeEcc_kept (s : State) (t : TileId) (y0 : ScrubResult) :
    (State.storeEcc s t y0).pending = s.pending ∧ (State.storeEcc s t y0).man = s.man ∧ (State.storeEcc s t y0).mem = s.mem ∧ (State.storeEcc s t y0).durable = s.durable := by
  unfold State.storeEcc
  (try dsimp only)
  (repeat' split) <;> simp

@[simp] theorem State.forDispatch_kept (s : State) (t : TileId) (store : ScrubResult) :
    (State.forDispatch s t store).pending = s.pending ∧ (State.forDispatch s t store).man = s.man ∧ (State.forDispatch s t store).mem = s.mem ∧ (State.forDispatch s t store).durable = s.durable := by
  unfold State.forDispatch
  (try dsimp only)
  (repeat' split) <;> simp

@[simp] theorem dispatchEff_kept (t : TileId) (store : ScrubResult) (s : State) :
    (dispatchEff t store s).pending = s.pending ∧ (dispatchEff t store s).man = s.man ∧ (dispatchEff t store s).mem = s.mem ∧ (dispatchEff t store s).durable = s.durable := by
  unfold dispatchEff
  (try dsimp only)
  (repeat' split) <;> simp

@[simp] theorem execTokenDispatch_kept (d : DispatchSeen) (s : State) :
    (resState (execTokenDispatch d s) s).pending = s.pending ∧ (resState (execTokenDispatch d s) s).man = s.man ∧ (resState (execTokenDispatch d s) s).mem = s.mem ∧ (resState (execTokenDispatch d s) s).durable = s.durable := by
  unfold execTokenDispatch resState
  (try dsimp only)
  (repeat' split) <;> simp

@[simp] theorem execBarrier_kept (h : MsgHdr) (qid : Nat) (pipe : Fin 32) (s : State) :
    (resState (execBarrier h qid pipe s) s).pending = s.pending ∧ (resState (execBarrier h qid pipe s) s).man = s.man ∧ (resState (execBarrier h qid pipe s) s).mem = s.mem ∧ (resState (execBarrier h qid pipe s) s).durable = s.durable := by
  unfold execBarrier resState
  (try dsimp only)
  (repeat' split) <;> simp

@[simp] theorem execBarrier_memOk (h : MsgHdr) (qid : Nat) (pipe : Fin 32) (s : State) : (resState (execBarrier h qid pipe s) s).memOk = s.memOk := memOk_of_eq (by simp) (by simp)

@[simp] theorem execEmitBase_kept (h : MsgHdr) (qid : Nat) (pipe : Fin 32) (base : Nat) (s : State) :
    (resState (execEmitBase h qid pipe base s) s).pending = s.pending ∧ (resState (execEmitBase h qid pipe base s) s).man = s.man ∧ (resState (execEmitBase h qid pipe base s) s).mem = s.mem ∧ (resState (execEmitBase h qid pipe base s) s).durable = s.durable := by
  unfold execEmitBase resState
  (try dsimp only)
  (repeat' split) <;> simp

@[simp] theorem execEmitBase_memOk (h : MsgHdr) (qid : Nat) (pipe : Fin 32) (base : Nat) (s : State) : (resState (execEmitBase h qid pipe base s) s).memOk = s.memOk := memOk_of_eq (by simp) (by simp)

@[simp] theorem execSchedState_kept (h : MsgHdr) (level : Nat) (tj credit : Int) (est : Nat) (s : State) :
    (resState (execSchedState h level tj credit est s) s).pending = s.pending ∧ (resState (execSchedState h level tj credit est s) s).man = s.man ∧ (resState (execSchedState h level tj credit est s) s).mem = s.mem ∧ (resState (execSchedState h level tj credit est s) s).durable = s.durable := by
  unfold execSchedState resState
  (try dsimp only)
  (repeat' split) <;> simp

@[simp] theorem execSchedState_memOk (h : MsgHdr) (level : Nat) (tj credit : Int) (est : Nat) (s : State) : (resState (execSchedState h level tj credit est s) s).memOk = s.memOk := memOk_of_eq (by simp) (by simp)

@[simp] theorem stealReqEff_kept (h : MsgHdr) (tag level : Nat) (s : State) :
    (stealReqEff h tag level s).pending = s.pending ∧ (stealReqEff h tag level s).man = s.man ∧ (stealReqEff h tag level s).mem = s.mem ∧ (stealReqEff h tag level s).durable = s.durable := by
  unfold stealReqEff
  (try dsimp only)
  (repeat' split) <;> simp

@[simp] theorem State.markSeen_kept (s : State) (t : TileId) (src mtype tag : Nat) :
    (State.markSeen s t src mtype tag).pending = s.pending ∧ (State.markSeen s t src mtype tag).man = s.man ∧ (State.markSeen s t src mtype tag).mem = s.mem ∧ (State.markSeen s t src mtype tag).durable = s.durable := by
  unfold State.markSeen
  (try dsimp only)
  (repeat' split) <;> simp

@[simp] theorem State.unmark_kept (s : State) (t : TileId) (src mtype tag : Nat) :
    (State.unmark s t src mtype tag).pending = s.pending ∧ (State.unmark s t src mtype tag).man = s.man ∧ (State.unmark s t src mtype tag).mem = s.mem ∧ (State.unmark s t src mtype tag).durable = s.durable := by
  unfold State.unmark
  (try dsimp only)
  (repeat' split) <;> simp

@[simp] theorem execStealReq_kept (h : MsgHdr) (tag level : Nat) (s : State) :
    (resState (execStealReq h tag level s) s).pending = s.pending ∧ (resState (execStealReq h tag level s) s).man = s.man ∧ (resState (execStealReq h tag level s) s).mem = s.mem ∧ (resState (execStealReq h tag level s) s).durable = s.durable := by
  unfold execStealReq resState
  (try dsimp only)
  (repeat' split) <;> simp

@[simp] theorem execStealReq_memOk (h : MsgHdr) (tag level : Nat) (s : State) : (resState (execStealReq h tag level s) s).memOk = s.memOk := memOk_of_eq (by simp) (by simp)

@[simp] theorem State.endSteal_kept (s : State) (t : TileId) (x : Steal) (restore : Bool) :
    (State.endSteal s t x restore).pending = s.pending ∧ (State.endSteal s t x restore).man = s.man ∧ (State.endSteal s t x restore).mem = s.mem ∧ (State.endSteal s t x restore).durable = s.durable := by
  unfold State.endSteal
  (try dsimp only)
  (repeat' split) <;> simp

@[simp] theorem stealGrantEff_kept (h : MsgHdr) (x : Steal) (g : GrantBody) (s : State) :
    (stealGrantEff h x g s).pending = s.pending ∧ (stealGrantEff h x g s).man = s.man ∧ (stealGrantEff h x g s).mem = s.mem ∧ (stealGrantEff h x g s).durable = s.durable := by
  unfold stealGrantEff
  (try dsimp only)
  (repeat' split) <;> simp

@[simp] theorem execStealGrant_kept (h : MsgHdr) (tag : Nat) (g : GrantBody) (s : State) :
    (resState (execStealGrant h tag g s) s).pending = s.pending ∧ (resState (execStealGrant h tag g s) s).man = s.man ∧ (resState (execStealGrant h tag g s) s).mem = s.mem ∧ (resState (execStealGrant h tag g s) s).durable = s.durable := by
  unfold execStealGrant resState
  (try dsimp only)
  (repeat' split) <;> simp

@[simp] theorem execStealGrant_memOk (h : MsgHdr) (tag : Nat) (g : GrantBody) (s : State) : (resState (execStealGrant h tag g s) s).memOk = s.memOk := memOk_of_eq (by simp) (by simp)

@[simp] theorem execStealRefuse_kept (h : MsgHdr) (tag : Nat) (s : State) :
    (resState (execStealRefuse h tag s) s).pending = s.pending ∧ (resState (execStealRefuse h tag s) s).man = s.man ∧ (resState (execStealRefuse h tag s) s).mem = s.mem ∧ (resState (execStealRefuse h tag s) s).durable = s.durable := by
  unfold execStealRefuse resState
  (try dsimp only)
  (repeat' split) <;> simp

@[simp] theorem execStealRefuse_memOk (h : MsgHdr) (tag : Nat) (s : State) : (resState (execStealRefuse h tag s) s).memOk = s.memOk := memOk_of_eq (by simp) (by simp)

end Sys2Proof.Machine
end

