-- ==== Sys2Proof/Laws/KeptSumenCore.lean ====
section
/-! SUPPORT. What the operations of Machine/SumenCore.lean leave as it was. -/

namespace Sys2Proof.Machine

@[simp] theorem State.setSumen_kept (s : State) (y0 : CoreId) (y1 : Core) :
    (State.setSumen s y0 y1).pending = s.pending ∧ (State.setSumen s y0 y1).man = s.man ∧ (State.setSumen s y0 y1).mem = s.mem ∧ (State.setSumen s y0 y1).durable = s.durable := by
  unfold State.setSumen
  (try dsimp only)
  (repeat' split) <;> simp

@[simp] theorem State.endCall_kept (s : State) (k : CoreId) (c : Core) (call : Call) (r : UdfResult) :
    (State.endCall s k c call r).pending = s.pending ∧ (State.endCall s k c call r).man = s.man ∧ (State.endCall s k c call r).mem = s.mem ∧ (State.endCall s k c call r).durable = s.durable := by
  unfold State.endCall
  (try dsimp only)
  (repeat' split) <;> simp

@[simp] theorem State.faultCall_kept (s : State) (k : CoreId) (c : Core) (call : Call) (cause row : Nat) :
    (State.faultCall s k c call cause row).pending = s.pending ∧ (State.faultCall s k c call cause row).man = s.man ∧ (State.faultCall s k c call cause row).mem = s.mem ∧ (State.faultCall s k c call cause row).durable = s.durable := by
  unfold State.faultCall
  (try dsimp only)
  (repeat' split) <;> simp

@[simp] theorem State.retCall_kept (s : State) (k : CoreId) (c : Core) (call : Call) (m : UdfCtx) :
    (State.retCall s k c call m).pending = s.pending ∧ (State.retCall s k c call m).man = s.man ∧ (State.retCall s k c call m).mem = s.mem ∧ (State.retCall s k c call m).durable = s.durable := by
  unfold State.retCall
  (try dsimp only)
  (repeat' split) <;> simp

@[simp] theorem State.landOn_kept (s : State) (k : CoreId) (call : Call) (y0 : Core × Option Stop) :
    (State.landOn s k call y0).pending = s.pending ∧ (State.landOn s k call y0).man = s.man ∧ (State.landOn s k call y0).mem = s.mem ∧ (State.landOn s k call y0).durable = s.durable := by
  unfold State.landOn
  (try dsimp only)
  (repeat' split) <;> simp

@[simp] theorem State.sumenRun_kept (s : State) (k : CoreId) (f : UdfCtx → Core → Core × Option Stop) :
    (State.sumenRun s k f).pending = s.pending ∧ (State.sumenRun s k f).man = s.man ∧ (State.sumenRun s k f).mem = s.mem ∧ (State.sumenRun s k f).durable = s.durable := by
  unfold State.sumenRun
  (try dsimp only)
  (repeat' split) <;> simp

end Sys2Proof.Machine
end

