-- ==== Sys2Proof/Laws/KeptQueryEnd.lean ====
section
/-! SUPPORT. What the operations of Machine/QueryEnd.lean leave as it was. -/

namespace Sys2Proof.Machine

@[simp] theorem State.endRun_kept (s : State) (pe : Gpe) (r : Run) (energy reason : Nat) :
    (State.endRun s pe r energy reason).pending = s.pending ∧ (State.endRun s pe r energy reason).man = s.man ∧ (State.endRun s pe r energy reason).mem = s.mem ∧ (State.endRun s pe r energy reason).durable = s.durable := by
  unfold State.endRun
  (try dsimp only)
  (repeat' split) <;> simp

@[simp] theorem State.afterEnd_kept (s : State) (r : Run) :
    (State.afterEnd s r).pending = s.pending ∧ (State.afterEnd s r).man = s.man ∧ (State.afterEnd s r).mem = s.mem ∧ (State.afterEnd s r).durable = s.durable := by
  unfold State.afterEnd
  (try dsimp only)
  (repeat' split) <;> simp

@[simp] theorem State.failEnd_kept (s : State) (pe : Gpe) (r : Run) (q : Query) (energy : Nat) (f : QFail) :
    (State.failEnd s pe r q energy f).pending = s.pending ∧ (State.failEnd s pe r q energy f).man = s.man ∧ (State.failEnd s pe r q energy f).mem = s.mem ∧ (State.failEnd s pe r q energy f).durable = s.durable := by
  unfold State.failEnd
  (try dsimp only)
  (repeat' split) <;> simp

@[simp] theorem State.setTally_kept (s : State) (pe : Gpe) (cs : Counts) :
    (State.setTally s pe cs).pending = s.pending ∧ (State.setTally s pe cs).man = s.man ∧ (State.setTally s pe cs).mem = s.mem ∧ (State.setTally s pe cs).durable = s.durable := by
  unfold State.setTally
  (try dsimp only)
  (repeat' split) <;> simp

@[simp] theorem State.countMiss_kept (s : State) (pe : Gpe) (attempt : Nat) :
    (State.countMiss s pe attempt).pending = s.pending ∧ (State.countMiss s pe attempt).man = s.man ∧ (State.countMiss s pe attempt).mem = s.mem ∧ (State.countMiss s pe attempt).durable = s.durable := by
  unfold State.countMiss
  (try dsimp only)
  (repeat' split) <;> simp

@[simp] theorem State.mismatch_kept (s : State) (pe : Gpe) (r : Run) (q : Query) (energy : Nat) (c : Check) :
    (State.mismatch s pe r q energy c).pending = s.pending ∧ (State.mismatch s pe r q energy c).man = s.man ∧ (State.mismatch s pe r q energy c).mem = s.mem ∧ (State.mismatch s pe r q energy c).durable = s.durable := by
  unfold State.mismatch
  (try dsimp only)
  (repeat' split) <;> simp

@[simp] theorem State.mismatch_memOk (s : State) (pe : Gpe) (r : Run) (q : Query) (energy : Nat) (c : Check) : (State.mismatch s pe r q energy c).memOk = s.memOk := memOk_of_eq (by simp) (by simp)

@[simp] theorem State.verify_kept (s : State) (pe : Gpe) (r : Run) (q : Query) (energy skipped : Nat) (ps : PipeState) :
    (State.verify s pe r q energy skipped ps).pending = s.pending ∧ (State.verify s pe r q energy skipped ps).man = s.man ∧ (State.verify s pe r q energy skipped ps).mem = s.mem ∧ (State.verify s pe r q energy skipped ps).durable = s.durable := by
  unfold State.verify
  (try dsimp only)
  (repeat' split) <;> simp

@[simp] theorem State.askTallies_kept (s : State) (pe : Gpe) (r : Run) (e : QEnv) :
    (State.askTallies s pe r e).pending = s.pending ∧ (State.askTallies s pe r e).man = s.man ∧ (State.askTallies s pe r e).mem = s.mem ∧ (State.askTallies s pe r e).durable = s.durable := by
  unfold State.askTallies
  (try dsimp only)
  (repeat' split) <;> simp

@[simp] theorem State.sendRecords_kept (s : State) (pe : Gpe) (r : Run) (q : Query) (l : List (Nat × Nat × List Byte)) :
    (State.sendRecords s pe r q l).pending = s.pending ∧ (State.sendRecords s pe r q l).man = s.man ∧ (State.sendRecords s pe r q l).mem = s.mem ∧ (State.sendRecords s pe r q l).durable = s.durable := by
  unfold State.sendRecords
  (try dsimp only)
  (repeat' split) <;> simp

@[simp] theorem State.exchangeEnd_kept (s : State) (pe : Gpe) (r : Run) (q : Query) (energy : Nat) (u : Upset) :
    (State.exchangeEnd s pe r q energy u).pending = s.pending ∧ (State.exchangeEnd s pe r q energy u).man = s.man ∧ (State.exchangeEnd s pe r q energy u).mem = s.mem ∧ (State.exchangeEnd s pe r q energy u).durable = s.durable := by
  unfold State.exchangeEnd
  (try dsimp only)
  (repeat' split) <;> simp

@[simp] theorem State.exchangeSend_kept (s : State) (pe : Gpe) (r : Run) (q : Query) (energy : Nat) (u : Upset) (rows : List Row) (cs : Counts) :
    (State.exchangeSend s pe r q energy u rows cs).pending = s.pending ∧ (State.exchangeSend s pe r q energy u rows cs).man = s.man ∧ (State.exchangeSend s pe r q energy u rows cs).mem = s.mem ∧ (State.exchangeSend s pe r q energy u rows cs).durable = s.durable := by
  unfold State.exchangeSend
  (try dsimp only)
  (repeat' split) <;> simp

@[simp] theorem State.commitUpset_kept (s : State) (pe : Gpe) (r : Run) (q : Query) (n : Nat) :
    (State.commitUpset s pe r q n).pending = s.pending ∧ (State.commitUpset s pe r q n).man = s.man ∧ (State.commitUpset s pe r q n).mem = s.mem ∧ (State.commitUpset s pe r q n).durable = s.durable := by
  unfold State.commitUpset
  (try dsimp only)
  (repeat' split) <;> simp

@[simp] theorem State.commitSink_kept (s : State) (pe : Gpe) (r : Run) (q : Query) (e : QEnv) (energy skipped : Nat) (u : Upset) (k : Sunk) :
    (State.commitSink s pe r q e energy skipped u k).pending = s.pending ∧ (State.commitSink s pe r q e energy skipped u k).man = s.man ∧ (State.commitSink s pe r q e energy skipped u k).mem = s.mem ∧ (State.commitSink s pe r q e energy skipped u k).durable = s.durable := by
  unfold State.commitSink
  (try dsimp only)
  (repeat' split) <;> simp

@[simp] theorem State.sinkEnd_kept (s : State) (pe : Gpe) (r : Run) (q : Query) (energy skipped : Nat) (u : Upset) (rows : List Row) (cs : Counts) :
    (State.sinkEnd s pe r q energy skipped u rows cs).pending = s.pending ∧ (State.sinkEnd s pe r q energy skipped u rows cs).man = s.man ∧ (State.sinkEnd s pe r q energy skipped u rows cs).mem = s.mem ∧ (State.sinkEnd s pe r q energy skipped u rows cs).durable = s.durable := by
  unfold State.sinkEnd
  (try dsimp only)
  (repeat' split) <;> simp

@[simp] theorem morselEndEff_kept (pe : Gpe) (r : Run) (q : Query) (energy : Nat) (u : Upset) (s : State) :
    (morselEndEff pe r q energy u s).pending = s.pending ∧ (morselEndEff pe r q energy u s).man = s.man ∧ (morselEndEff pe r q energy u s).mem = s.mem ∧ (morselEndEff pe r q energy u s).durable = s.durable := by
  unfold morselEndEff
  (try dsimp only)
  (repeat' split) <;> simp

@[simp] theorem execMorselEnd_kept (pe : Gpe) (energyNj : Nat) (upset : Upset) (s : State) :
    (resState (execMorselEnd pe energyNj upset s) s).pending = s.pending ∧ (resState (execMorselEnd pe energyNj upset s) s).man = s.man ∧ (resState (execMorselEnd pe energyNj upset s) s).mem = s.mem ∧ (resState (execMorselEnd pe energyNj upset s) s).durable = s.durable := by
  unfold execMorselEnd State.onWork resState
  (try dsimp only)
  (repeat' split) <;> simp

@[simp] theorem execPeInternalError_kept (pe : Gpe) (energyNj : Nat) (s : State) :
    (resState (execPeInternalError pe energyNj s) s).pending = s.pending ∧ (resState (execPeInternalError pe energyNj s) s).man = s.man ∧ (resState (execPeInternalError pe energyNj s) s).mem = s.mem ∧ (resState (execPeInternalError pe energyNj s) s).durable = s.durable := by
  unfold execPeInternalError State.onWork resState
  (try dsimp only)
  (repeat' split) <;> simp

@[simp] theorem forceStopEff_kept (qid : Nat) (s : State) :
    (forceStopEff qid s).pending = s.pending ∧ (forceStopEff qid s).man = s.man ∧ (forceStopEff qid s).mem = s.mem ∧ (forceStopEff qid s).durable = s.durable := by
  unfold forceStopEff
  try dsimp only
  (repeat' apply And.intro) <;>
    (repeat' (first | (simp; done) | split | rw [foldl_pending] | rw [foldl_man] | rw [foldl_mem] | rw [foldl_durable] | intro _ _ | simp))

@[simp] theorem execQueryForceStop_kept (qid : Nat) (s : State) :
    (resState (execQueryForceStop qid s) s).pending = s.pending ∧ (resState (execQueryForceStop qid s) s).man = s.man ∧ (resState (execQueryForceStop qid s) s).mem = s.mem ∧ (resState (execQueryForceStop qid s) s).durable = s.durable := by
  unfold execQueryForceStop resState
  (try dsimp only)
  (repeat' split) <;> simp

@[simp] theorem State.mergeMiss_kept (s : State) (unit : TileId) (q : Query) (pipe : Nat) (k : Nat × Nat) (c : Check) :
    (State.mergeMiss s unit q pipe k c).pending = s.pending ∧ (State.mergeMiss s unit q pipe k c).man = s.man ∧ (State.mergeMiss s unit q pipe k c).mem = s.mem ∧ (State.mergeMiss s unit q pipe k c).durable = s.durable := by
  unfold State.mergeMiss
  (try dsimp only)
  (repeat' split) <;> simp

@[simp] theorem State.mergePass_kept (s : State) (unit : TileId) (q : Query) (pipe : Nat) (k : Nat × Nat) (u : Upset) :
    (State.mergePass s unit q pipe k u).pending = s.pending ∧ (State.mergePass s unit q pipe k u).man = s.man ∧ (State.mergePass s unit q pipe k u).mem = s.mem ∧ (State.mergePass s unit q pipe k u).durable = s.durable := by
  unfold State.mergePass
  (try dsimp only)
  (repeat' split) <;> simp

@[simp] theorem State.noSortUnit_kept (s : State) (q : Query) (pipe : Nat) :
    (State.noSortUnit s q pipe).pending = s.pending ∧ (State.noSortUnit s q pipe).man = s.man ∧ (State.noSortUnit s q pipe).mem = s.mem ∧ (State.noSortUnit s q pipe).durable = s.durable := by
  unfold State.noSortUnit
  (try dsimp only)
  (repeat' split) <;> simp

@[simp] theorem mergeEff_kept (t : TileId) (q : Query) (pipe : Nat) (u : Upset) (s : State) :
    (mergeEff t q pipe u s).pending = s.pending ∧ (mergeEff t q pipe u s).man = s.man ∧ (mergeEff t q pipe u s).mem = s.mem ∧ (mergeEff t q pipe u s).durable = s.durable := by
  unfold mergeEff
  (try dsimp only)
  (repeat' split) <;> simp

@[simp] theorem execMergePassEnd_kept (t : TileId) (qid : Nat) (pipe : Fin 32) (upset : Upset) (s : State) :
    (resState (execMergePassEnd t qid pipe upset s) s).pending = s.pending ∧ (resState (execMergePassEnd t qid pipe upset s) s).man = s.man ∧ (resState (execMergePassEnd t qid pipe upset s) s).mem = s.mem ∧ (resState (execMergePassEnd t qid pipe upset s) s).durable = s.durable := by
  unfold execMergePassEnd resState
  (try dsimp only)
  (repeat' split) <;> simp

@[simp] theorem execSpillPage_kept (t : TileId) (qid : Nat) (pipe : Fin 32) (s : State) :
    (resState (execSpillPage t qid pipe s) s).pending = s.pending ∧ (resState (execSpillPage t qid pipe s) s).man = s.man ∧ (resState (execSpillPage t qid pipe s) s).mem = s.mem ∧ (resState (execSpillPage t qid pipe s) s).durable = s.durable := by
  unfold execSpillPage resState
  (try dsimp only)
  (repeat' split) <;> simp

@[simp] theorem State.placeCall_kept (s : State) (pe : Gpe) (large : Bool) (c : Call) :
    (State.placeCall s pe large c).pending = s.pending ∧ (State.placeCall s pe large c).man = s.man ∧ (State.placeCall s pe large c).mem = s.mem ∧ (State.placeCall s pe large c).durable = s.durable := by
  unfold State.placeCall
  (try dsimp only)
  (repeat' split) <;> simp

@[simp] theorem State.largeEcc_kept (s : State) (pe : Gpe) (k block uop select : Nat) :
    (State.largeEcc s pe k block uop select).pending = s.pending ∧ (State.largeEcc s pe k block uop select).man = s.man ∧ (State.largeEcc s pe k block uop select).mem = s.mem ∧ (State.largeEcc s pe k block uop select).durable = s.durable := by
  unfold State.largeEcc
  (try dsimp only)
  (repeat' split) <;> simp

@[simp] theorem State.largeEcc_memOk (s : State) (pe : Gpe) (k block uop select : Nat) : (State.largeEcc s pe k block uop select).memOk = s.memOk := memOk_of_eq (by simp) (by simp)

@[simp] theorem State.scratchEcc_kept (s : State) (pe : Gpe) (r : Run) (q : Query) (e : QEnv) (large : Bool) (block uop select : Nat) (w : ScrubResult) :
    (State.scratchEcc s pe r q e large block uop select w).1.pending = s.pending ∧ (State.scratchEcc s pe r q e large block uop select w).1.man = s.man ∧
      (State.scratchEcc s pe r q e large block uop select w).1.mem = s.mem ∧ (State.scratchEcc s pe r q e large block uop select w).1.durable = s.durable := by
  cases w <;> unfold State.scratchEcc <;> (try dsimp only) <;> (repeat' split) <;> simp

@[simp] theorem udfCallEff_kept (pe : Gpe) (block uop : Nat) (scratch : ScrubResult) (r : Run) (q : Query) (s : State) :
    (udfCallEff pe block uop scratch r q s).pending = s.pending ∧ (udfCallEff pe block uop scratch r q s).man = s.man ∧ (udfCallEff pe block uop scratch r q s).mem = s.mem ∧ (udfCallEff pe block uop scratch r q s).durable = s.durable := by
  unfold udfCallEff
  (try dsimp only)
  (repeat' split) <;> simp

@[simp] theorem execUdfCall_kept (pe : Gpe) (block : Nat) (call : CallSeen) (s : State) :
    (resState (execUdfCall pe block call s) s).pending = s.pending ∧ (resState (execUdfCall pe block call s) s).man = s.man ∧ (resState (execUdfCall pe block call s) s).mem = s.mem ∧ (resState (execUdfCall pe block call s) s).durable = s.durable := by
  unfold execUdfCall resState
  (try dsimp only)
  (repeat' split) <;> simp

end Sys2Proof.Machine
end

