-- ==== Sys2Proof/Laws/KeptEmit.lean ====
section
/-! SUPPORT. What the operations of Machine/Emit.lean leave as it was. -/

namespace Sys2Proof.Machine

@[simp] theorem State.commitFail_kept (s : State) (q : Query) (e : QEnv) (m status detail : Nat) (addr : Option Nat) (past : Nat) :
    (State.commitFail s q e m status detail addr past).pending = s.pending ∧ (State.commitFail s q e m status detail addr past).man = s.man ∧ (State.commitFail s q e m status detail addr past).mem = s.mem ∧ (State.commitFail s q e m status detail addr past).durable = s.durable := by
  unfold State.commitFail
  (try dsimp only)
  (repeat' split) <;> simp

@[simp] theorem State.commitFail_memOk (s : State) (q : Query) (e : QEnv) (m status detail : Nat) (addr : Option Nat) (past : Nat) : (State.commitFail s q e m status detail addr past).memOk = s.memOk := memOk_of_eq (by simp) (by simp)

@[simp] theorem State.limitStop_kept (s : State) (qid pipe : Nat) :
    (State.limitStop s qid pipe).pending = s.pending ∧ (State.limitStop s qid pipe).man = s.man ∧ (State.limitStop s qid pipe).mem = s.mem ∧ (State.limitStop s qid pipe).durable = s.durable := by
  unfold State.limitStop
  (try dsimp only)
  (repeat' split) <;> simp

@[simp] theorem State.postCommit_kept (s : State) (q : Query) (e : QEnv) (m : Nat) :
    (State.postCommit s q e m).pending = s.pending ∧ (State.postCommit s q e m).man = s.man ∧ (State.postCommit s q e m).mem = s.mem ∧ (State.postCommit s q e m).durable = s.durable := by
  unfold State.postCommit
  (try dsimp only)
  (repeat' split) <;> simp

@[simp] theorem State.commitEnd_kept (s : State) (qid : Nat) (e : QEnv) (x : EmitReady) :
    (State.commitEnd s qid e x).pending = s.pending ∧ (State.commitEnd s qid e x).man = s.man ∧ (State.commitEnd s qid e x).mem = s.mem ∧ (State.commitEnd s qid e x).durable = s.durable := by
  unfold State.commitEnd
  (try dsimp only)
  (repeat' split) <;> simp

@[simp] theorem State.writeGroup_kept (s : State) (e : QEnv) (rows : List Row) :
    (State.writeGroup s e rows).1.pending = s.pending ∧ (State.writeGroup s e rows).1.man = s.man ∧ (State.writeGroup s e rows).1.durable = s.durable := by
  unfold State.writeGroup
  dsimp only
  (repeat' split) <;> simp

@[simp] theorem State.writeGroup_wf (s : State) (e : QEnv) (rows : List Row) (h : s.memOk = true) : (State.writeGroup s e rows).1.memOk = true := by
  unfold State.writeGroup
  dsimp only
  (repeat' split) <;> simp (maxDischargeDepth := 9) +contextual [h]

@[simp] theorem State.framesLeft_kept (s : State) (q : Query) (e : QEnv) (t : TileId) (j : CodecJob) :
    (State.framesLeft s q e t j).pending = s.pending ∧ (State.framesLeft s q e t j).man = s.man ∧ (State.framesLeft s q e t j).mem = s.mem ∧ (State.framesLeft s q e t j).durable = s.durable := by
  unfold State.framesLeft
  (try dsimp only)
  (repeat' split) <;> simp

@[simp] theorem State.framesLeft_memOk (s : State) (q : Query) (e : QEnv) (t : TileId) (j : CodecJob) : (State.framesLeft s q e t j).memOk = s.memOk := memOk_of_eq (by simp) (by simp)

@[simp] theorem emitFrame_kept (t : TileId) (j : CodecJob) (k : Nat) (mismatch : Bool) (q : Query) (s : State) :
    (emitFrame t j k mismatch q s).pending = s.pending ∧ (emitFrame t j k mismatch q s).man = s.man ∧ (emitFrame t j k mismatch q s).durable = s.durable := by
  unfold emitFrame
  (try dsimp only)
  (repeat' split) <;> simp

@[simp] theorem emitFrame_wf (t : TileId) (j : CodecJob) (k : Nat) (mismatch : Bool) (q : Query) (s : State) (h : s.memOk = true) :
    (emitFrame t j k mismatch q s).memOk = true := by
  unfold emitFrame
  (try dsimp only)
  (repeat' split) <;> simp (maxDischargeDepth := 60) [h]

@[simp] theorem codecFrameEff_kept (t : TileId) (src : HostRead) (wfail : Option Nat) (mismatch : Bool) (s : State) :
    (codecFrameEff t src wfail mismatch s).pending = s.pending ∧ (codecFrameEff t src wfail mismatch s).man = s.man ∧ (codecFrameEff t src wfail mismatch s).durable = s.durable := by
  unfold codecFrameEff
  (try dsimp only)
  (repeat' split) <;> simp

@[simp] theorem codecFrameEff_wf (t : TileId) (src : HostRead) (wfail : Option Nat) (mismatch : Bool) (s : State) (h : s.memOk = true) :
    (codecFrameEff t src wfail mismatch s).memOk = true := by
  unfold codecFrameEff
  try dsimp only
  repeat' (first | assumption | (simp (maxDischargeDepth := 60) [h]; done) | (simp (maxDischargeDepth := 60) [*]; done) | split | refine foldl_memOk _ _ _ (fun _ _ _ => ?_) ?_)

@[simp] theorem execCodecFrame_kept (t : TileId) (src : HostRead) (wfail : Option Nat) (mismatch : Bool) (s : State) :
    (resState (execCodecFrame t src wfail mismatch s) s).pending = s.pending ∧ (resState (execCodecFrame t src wfail mismatch s) s).man = s.man ∧ (resState (execCodecFrame t src wfail mismatch s) s).durable = s.durable := by
  unfold execCodecFrame resState
  (try dsimp only)
  (repeat' split) <;> simp

@[simp] theorem execCodecFrame_wf (t : TileId) (src : HostRead) (wfail : Option Nat) (mismatch : Bool) (s : State) (h : s.memOk = true) :
    (resState (execCodecFrame t src wfail mismatch s) s).memOk = true := by
  unfold execCodecFrame resState
  (try dsimp only)
  (repeat' split) <;> simp (maxDischargeDepth := 60) [h]

@[simp] theorem State.commitRing_kept (s : State) (e : QEnv) (x : EmitReady) (cons : HostRead) (wfail : Option (Nat × Nat)) :
    (State.commitRing s e x cons wfail).1.pending = s.pending ∧ (State.commitRing s e x cons wfail).1.man = s.man ∧ (State.commitRing s e x cons wfail).1.mem = s.mem ∧ (State.commitRing s e x cons wfail).1.durable = s.durable := by
  unfold State.commitRing
  dsimp only
  (repeat' split) <;> simp

@[simp] theorem State.commitFrames_kept (s : State) (q : Query) (e : QEnv) (x : EmitReady) :
    (State.commitFrames s q e x).pending = s.pending ∧ (State.commitFrames s q e x).man = s.man ∧ (State.commitFrames s q e x).mem = s.mem ∧ (State.commitFrames s q e x).durable = s.durable := by
  unfold State.commitFrames
  (try dsimp only)
  (repeat' split) <;> simp

@[simp] theorem State.commitBatches_kept (s : State) (q : Query) (e : QEnv) (x : EmitReady) (cons : HostRead) (wfail : Option (Nat × Nat)) :
    (State.commitBatches s q e x cons wfail).pending = s.pending ∧ (State.commitBatches s q e x cons wfail).man = s.man ∧ (State.commitBatches s q e x cons wfail).mem = s.mem ∧ (State.commitBatches s q e x cons wfail).durable = s.durable := by
  unfold State.commitBatches
  (try dsimp only)
  (repeat' split) <;> simp

@[simp] theorem emitCommitEff_kept (q : Query) (k : Nat) (cons : HostRead) (wfail : Option (Nat × Nat)) (s : State) :
    (emitCommitEff q k cons wfail s).pending = s.pending ∧ (emitCommitEff q k cons wfail s).man = s.man ∧ (emitCommitEff q k cons wfail s).mem = s.mem ∧ (emitCommitEff q k cons wfail s).durable = s.durable := by
  unfold emitCommitEff
  (try dsimp only)
  (repeat' split) <;> simp

@[simp] theorem execEmitCommit_kept (qid : Nat) (pipe : Fin 32) (cons : HostRead) (wfail : Option Nat) (moved : Nat) (s : State) :
    (resState (execEmitCommit qid pipe cons wfail moved s) s).pending = s.pending ∧ (resState (execEmitCommit qid pipe cons wfail moved s) s).man = s.man ∧ (resState (execEmitCommit qid pipe cons wfail moved s) s).mem = s.mem ∧ (resState (execEmitCommit qid pipe cons wfail moved s) s).durable = s.durable := by
  unfold execEmitCommit resState
  (try dsimp only)
  (repeat' split) <;> simp

@[simp] theorem execConsPoll_kept (qid : Nat) (seen : RingSeen) (s : State) :
    (resState (execConsPoll qid seen s) s).pending = s.pending ∧ (resState (execConsPoll qid seen s) s).man = s.man ∧ (resState (execConsPoll qid seen s) s).mem = s.mem ∧ (resState (execConsPoll qid seen s) s).durable = s.durable := by
  unfold execConsPoll resState
  (try dsimp only)
  (repeat' split) <;> simp

end Sys2Proof.Machine
end

