-- ==== Sys2Proof/Laws/KeptLink.lean ====
section
/-! SUPPORT. What the operations of Machine/Link.lean leave as it was. -/

namespace Sys2Proof.Machine

@[simp] theorem State.setModule_kept (s : State) (t : TileId) (e : EdgeId) (i : Nat) (m : Module) :
    (State.setModule s t e i m).pending = s.pending ∧ (State.setModule s t e i m).man = s.man ∧ (State.setModule s t e i m).mem = s.mem ∧ (State.setModule s t e i m).durable = s.durable := by
  unfold State.setModule
  (try dsimp only)
  (repeat' split) <;> simp

@[simp] theorem State.resend_kept (s : State) (t : TileId) (e : EdgeId) (i : Nat) :
    (State.resend s t e i).pending = s.pending ∧ (State.resend s t e i).man = s.man ∧ (State.resend s t e i).mem = s.mem ∧ (State.resend s t e i).durable = s.durable := by
  unfold State.resend
  (try dsimp only)
  (repeat' split) <;> simp

@[simp] theorem State.startRetrain_kept (s : State) (t : TileId) (e : EdgeId) (i : Nat) :
    (State.startRetrain s t e i).pending = s.pending ∧ (State.startRetrain s t e i).man = s.man ∧ (State.startRetrain s t e i).mem = s.mem ∧ (State.startRetrain s t e i).durable = s.durable := by
  unfold State.startRetrain
  (try dsimp only)
  (repeat' split) <;> simp

@[simp] theorem State.fenceSide_kept (s : State) (t : TileId) (e : EdgeId) :
    (State.fenceSide s t e).pending = s.pending ∧ (State.fenceSide s t e).man = s.man ∧ (State.fenceSide s t e).mem = s.mem ∧ (State.fenceSide s t e).durable = s.durable := by
  unfold State.fenceSide
  (try dsimp only)
  (repeat' split) <;> simp

@[simp] theorem State.fenceEdge_kept (s : State) (t : TileId) (e : EdgeId) :
    (State.fenceEdge s t e).pending = s.pending ∧ (State.fenceEdge s t e).man = s.man ∧ (State.fenceEdge s t e).mem = s.mem ∧ (State.fenceEdge s t e).durable = s.durable := by
  unfold State.fenceEdge
  (try dsimp only)
  (repeat' split) <;> simp

@[simp] theorem State.fenceEdge_memOk (s : State) (t : TileId) (e : EdgeId) : (State.fenceEdge s t e).memOk = s.memOk := memOk_of_eq (by simp) (by simp)

@[simp] theorem State.disableModule_kept (s : State) (t : TileId) (e : EdgeId) (i : Nat) :
    (State.disableModule s t e i).pending = s.pending ∧ (State.disableModule s t e i).man = s.man ∧ (State.disableModule s t e i).mem = s.mem ∧ (State.disableModule s t e i).durable = s.durable := by
  unfold State.disableModule
  (try dsimp only)
  (repeat' split) <;> simp

end Sys2Proof.Machine
end

