-- ==== Sys2Proof/Laws/KeptRegs.lean ====
section
/-! SUPPORT. What the operations of Machine/Regs.lean leave as it was. -/

namespace Sys2Proof.Machine

@[simp] theorem State.drop_kept (s : State) (b : Blk) :
    (State.drop s b).pending = s.pending ∧ (State.drop s b).man = s.man ∧ (State.drop s b).mem = s.mem ∧ (State.drop s b).durable = s.durable := by
  unfold State.drop
  (try dsimp only)
  (repeat' split) <;> simp

@[simp] theorem State.drop_memOk (s : State) (b : Blk) : (State.drop s b).memOk = s.memOk := memOk_of_eq (by simp) (by simp)

@[simp] theorem State.writeCtl_kept (s : State) (b : Blk) (v : Nat) :
    (State.writeCtl s b v).pending = s.pending ∧ (State.writeCtl s b v).man = s.man ∧ (State.writeCtl s b v).mem = s.mem ∧ (State.writeCtl s b v).durable = s.durable := by
  unfold State.writeCtl
  (try dsimp only)
  (repeat' split) <;> simp

@[simp] theorem State.writeCtl_memOk (s : State) (b : Blk) (v : Nat) : (State.writeCtl s b v).memOk = s.memOk := memOk_of_eq (by simp) (by simp)

@[simp] theorem State.writeStrobe_kept (s : State) (v : Nat) :
    (State.writeStrobe s v).pending = s.pending ∧ (State.writeStrobe s v).man = s.man ∧ (State.writeStrobe s v).mem = s.mem ∧ (State.writeStrobe s v).durable = s.durable := by
  unfold State.writeStrobe
  (try dsimp only)
  (repeat' split) <;> simp

@[simp] theorem State.writeNwCtl_kept (s : State) (v : Nat) :
    (State.writeNwCtl s v).pending = s.pending ∧ (State.writeNwCtl s v).man = s.man ∧ (State.writeNwCtl s v).mem = s.mem ∧ (State.writeNwCtl s v).durable = s.durable := by
  unfold State.writeNwCtl
  (try dsimp only)
  (repeat' split) <;> simp

@[simp] theorem State.writeDev_kept (s : State) (r v : Nat) :
    (State.writeDev s r v).pending = s.pending ∧ (State.writeDev s r v).man = s.man ∧ (State.writeDev s r v).mem = s.mem ∧ (State.writeDev s r v).durable = s.durable := by
  unfold State.writeDev
  (try dsimp only)
  (repeat' split) <;> simp

@[simp] theorem State.writeDev_memOk (s : State) (r v : Nat) : (State.writeDev s r v).memOk = s.memOk := memOk_of_eq (by simp) (by simp)

@[simp] theorem State.writeNw_kept (s : State) (r v : Nat) :
    (State.writeNw s r v).pending = s.pending ∧ (State.writeNw s r v).man = s.man ∧ (State.writeNw s r v).mem = s.mem ∧ (State.writeNw s r v).durable = s.durable := by
  unfold State.writeNw
  (try dsimp only)
  (repeat' split) <;> simp

@[simp] theorem State.writeNw_memOk (s : State) (r v : Nat) : (State.writeNw s r v).memOk = s.memOk := memOk_of_eq (by simp) (by simp)

@[simp] theorem State.writeCfg_kept (s : State) (q : Nat) (f : Queue → Queue) :
    (State.writeCfg s q f).pending = s.pending ∧ (State.writeCfg s q f).man = s.man ∧ (State.writeCfg s q f).mem = s.mem ∧ (State.writeCfg s q f).durable = s.durable := by
  unfold State.writeCfg
  (try dsimp only)
  (repeat' split) <;> simp

@[simp] theorem State.writeCfg_memOk (s : State) (q : Nat) (f : Queue → Queue) : (State.writeCfg s q f).memOk = s.memOk := memOk_of_eq (by simp) (by simp)

@[simp] theorem State.writeQctl_kept (s : State) (q v : Nat) :
    (State.writeQctl s q v).pending = s.pending ∧ (State.writeQctl s q v).man = s.man ∧ (State.writeQctl s q v).mem = s.mem := by
  unfold State.writeQctl
  (try dsimp only)
  (repeat' split) <;> simp

@[simp] theorem State.writeQctl_wf (s : State) (q v : Nat) (h : s.memOk = true) :
    (State.writeQctl s q v).memOk = true := by
  unfold State.writeQctl
  (try dsimp only)
  (repeat' split) <;> simp (maxDischargeDepth := 60) [h]

@[simp] theorem State.writeQueue_kept (s : State) (q r v : Nat) :
    (State.writeQueue s q r v).pending = s.pending ∧ (State.writeQueue s q r v).man = s.man ∧ (State.writeQueue s q r v).mem = s.mem := by
  unfold State.writeQueue
  (try dsimp only)
  (repeat' split) <;> simp

@[simp] theorem State.writeQueue_wf (s : State) (q r v : Nat) (h : s.memOk = true) :
    (State.writeQueue s q r v).memOk = true := by
  unfold State.writeQueue
  (try dsimp only)
  (repeat' split) <;> simp (maxDischargeDepth := 60) [h]

@[simp] theorem State.writeDbg_kept (s : State) (t : TileId) (d : DomId) (v : Nat) :
    (State.writeDbg s t d v).pending = s.pending ∧ (State.writeDbg s t d v).man = s.man ∧ (State.writeDbg s t d v).mem = s.mem ∧ (State.writeDbg s t d v).durable = s.durable := by
  unfold State.writeDbg
  (try dsimp only)
  (repeat' split) <;> simp

@[simp] theorem State.writePd_kept (s : State) (t : TileId) (r v : Nat) :
    (State.writePd s t r v).pending = s.pending ∧ (State.writePd s t r v).man = s.man ∧ (State.writePd s t r v).mem = s.mem ∧ (State.writePd s t r v).durable = s.durable := by
  unfold State.writePd
  (try dsimp only)
  (repeat' split) <;> simp

@[simp] theorem State.writePd_memOk (s : State) (t : TileId) (r v : Nat) : (State.writePd s t r v).memOk = s.memOk := memOk_of_eq (by simp) (by simp)

@[simp] theorem State.writeWgt_kept (s : State) (t : TileId) (v : Nat) :
    (State.writeWgt s t v).pending = s.pending ∧ (State.writeWgt s t v).man = s.man ∧ (State.writeWgt s t v).mem = s.mem ∧ (State.writeWgt s t v).durable = s.durable := by
  unfold State.writeWgt
  (try dsimp only)
  (repeat' split) <;> simp

@[simp] theorem State.writeWgt_memOk (s : State) (t : TileId) (v : Nat) : (State.writeWgt s t v).memOk = s.memOk := memOk_of_eq (by simp) (by simp)

@[simp] theorem State.retrainEdge_kept (s : State) (t : TileId) (e : EdgeId) :
    (State.retrainEdge s t e).pending = s.pending ∧ (State.retrainEdge s t e).man = s.man ∧ (State.retrainEdge s t e).mem = s.mem ∧ (State.retrainEdge s t e).durable = s.durable := by
  unfold State.retrainEdge
  (try dsimp only)
  (repeat' split) <;> simp

@[simp] theorem State.retrainEdge_memOk (s : State) (t : TileId) (e : EdgeId) : (State.retrainEdge s t e).memOk = s.memOk := memOk_of_eq (by simp) (by simp)

@[simp] theorem State.writeReg_kept (s : State) (b : Blk) (r v : Nat) :
    (State.writeReg s b r v).pending = s.pending ∧ (State.writeReg s b r v).man = s.man ∧ (State.writeReg s b r v).mem = s.mem := by
  unfold State.writeReg
  (try dsimp only)
  (repeat' split) <;> simp

@[simp] theorem State.writeReg_wf (s : State) (b : Blk) (r v : Nat) (h : s.memOk = true) :
    (State.writeReg s b r v).memOk = true := by
  unfold State.writeReg
  (try dsimp only)
  (repeat' split) <;> simp (maxDischargeDepth := 60) [h]

@[simp] theorem State.land_kept (s : State) (port : Nat) (b : Blk) (off v : Nat) :
    (State.land s port b off v).pending = s.pending ∧ (State.land s port b off v).man = s.man ∧ (State.land s port b off v).mem = s.mem := by
  unfold State.land
  (try dsimp only)
  (repeat' split) <;> simp

@[simp] theorem State.land_wf (s : State) (port : Nat) (b : Blk) (off v : Nat) (h : s.memOk = true) :
    (State.land s port b off v).memOk = true := by
  unfold State.land
  (try dsimp only)
  (repeat' split) <;> simp (maxDischargeDepth := 60) [h]

@[simp] theorem State.pushWrite_kept (s : State) (b : Blk) (w : BufWrite) :
    (State.pushWrite s b w).pending = s.pending ∧ (State.pushWrite s b w).man = s.man ∧ (State.pushWrite s b w).mem = s.mem ∧ (State.pushWrite s b w).durable = s.durable := by
  unfold State.pushWrite
  (try dsimp only)
  (repeat' split) <;> simp

@[simp] theorem State.pushWrite_memOk (s : State) (b : Blk) (w : BufWrite) : (State.pushWrite s b w).memOk = s.memOk := memOk_of_eq (by simp) (by simp)

@[simp] theorem State.post32_kept (s : State) (port addr v : Nat) (direct : Bool) :
    (State.post32 s port addr v direct).pending = s.pending ∧ (State.post32 s port addr v direct).man = s.man ∧ (State.post32 s port addr v direct).mem = s.mem := by
  unfold State.post32
  (try dsimp only)
  (repeat' split) <;> simp

@[simp] theorem State.post32_wf (s : State) (port addr v : Nat) (direct : Bool) (h : s.memOk = true) :
    (State.post32 s port addr v direct).memOk = true := by
  unfold State.post32
  (try dsimp only)
  (repeat' split) <;> simp (maxDischargeDepth := 60) [h]

@[simp] theorem State.postBad_kept (s : State) (addr : Nat) :
    (State.postBad s addr).pending = s.pending ∧ (State.postBad s addr).man = s.man ∧ (State.postBad s addr).mem = s.mem ∧ (State.postBad s addr).durable = s.durable := by
  unfold State.postBad
  (try dsimp only)
  (repeat' split) <;> simp

@[simp] theorem State.postBad_memOk (s : State) (addr : Nat) : (State.postBad s addr).memOk = s.memOk := memOk_of_eq (by simp) (by simp)

@[simp] theorem State.post_kept (s : State) (w : RegWrite) (direct : Bool) :
    (State.post s w direct).pending = s.pending ∧ (State.post s w direct).man = s.man ∧ (State.post s w direct).mem = s.mem := by
  unfold State.post
  (try dsimp only)
  (repeat' split) <;> simp

@[simp] theorem State.post_wf (s : State) (w : RegWrite) (direct : Bool) (h : s.memOk = true) :
    (State.post s w direct).memOk = true := by
  unfold State.post
  (try dsimp only)
  (repeat' split) <;> simp (maxDischargeDepth := 60) [h]

@[simp] theorem State.postTo_kept (s : State) (b : Blk) (r v : Nat) :
    (State.postTo s b r v).pending = s.pending ∧ (State.postTo s b r v).man = s.man ∧ (State.postTo s b r v).mem = s.mem := by
  unfold State.postTo
  (try dsimp only)
  (repeat' split) <;> simp

@[simp] theorem State.postTo_wf (s : State) (b : Blk) (r v : Nat) (h : s.memOk = true) :
    (State.postTo s b r v).memOk = true := by
  unfold State.postTo
  (try dsimp only)
  (repeat' split) <;> simp (maxDischargeDepth := 60) [h]

@[simp] theorem State.forwarded_kept (s : State) (port : Nat) (b : Blk) (r : Nat) :
    (State.forwarded s port b r).pending = s.pending ∧ (State.forwarded s port b r).man = s.man ∧ (State.forwarded s port b r).mem = s.mem := by
  unfold State.forwarded
  (try dsimp only)
  (repeat' split) <;> simp

@[simp] theorem State.forwarded_wf (s : State) (port : Nat) (b : Blk) (r : Nat) (h : s.memOk = true) :
    (State.forwarded s port b r).memOk = true := by
  unfold State.forwarded
  try dsimp only
  repeat' (first | assumption | (simp (maxDischargeDepth := 60) [h]; done) | (simp (maxDischargeDepth := 60) [*]; done) | split | refine foldl_memOk _ _ _ (fun _ _ _ => ?_) ?_)

@[simp] theorem execUpdateStrobe_kept (value : Word32) (s : State) :
    (resState (execUpdateStrobe value s) s).pending = s.pending ∧ (resState (execUpdateStrobe value s) s).man = s.man ∧ (resState (execUpdateStrobe value s) s).mem = s.mem := by
  unfold execUpdateStrobe resState
  (try dsimp only)
  (repeat' split) <;> simp

@[simp] theorem execUpdateStrobe_wf (value : Word32) (s : State) (h : s.memOk = true) :
    (resState (execUpdateStrobe value s) s).memOk = true := by
  unfold execUpdateStrobe resState
  (try dsimp only)
  (repeat' split) <;> simp (maxDischargeDepth := 60) [h]

@[simp] theorem execUpdateStrobeClearRej_kept (value : Word32) (s : State) :
    (resState (execUpdateStrobeClearRej value s) s).pending = s.pending ∧ (resState (execUpdateStrobeClearRej value s) s).man = s.man ∧ (resState (execUpdateStrobeClearRej value s) s).mem = s.mem := by
  unfold execUpdateStrobeClearRej resState
  (try dsimp only)
  (repeat' split) <;> simp

@[simp] theorem execUpdateStrobeClearRej_wf (value : Word32) (s : State) (h : s.memOk = true) :
    (resState (execUpdateStrobeClearRej value s) s).memOk = true := by
  unfold execUpdateStrobeClearRej resState
  (try dsimp only)
  (repeat' split) <;> simp (maxDischargeDepth := 60) [h]

@[simp] theorem execApplyModeClear_kept (w : RegWrite) (s : State) :
    (resState (execApplyModeClear w s) s).pending = s.pending ∧ (resState (execApplyModeClear w s) s).man = s.man ∧ (resState (execApplyModeClear w s) s).mem = s.mem := by
  unfold execApplyModeClear resState
  (try dsimp only)
  (repeat' split) <;> simp

@[simp] theorem execApplyModeClear_wf (w : RegWrite) (s : State) (h : s.memOk = true) :
    (resState (execApplyModeClear w s) s).memOk = true := by
  unfold execApplyModeClear resState
  (try dsimp only)
  (repeat' split) <;> simp (maxDischargeDepth := 60) [h]

@[simp] theorem execStirRetrain_kept (t : TileId) (e : EdgeId) (s : State) :
    (resState (execStirRetrain t e s) s).pending = s.pending ∧ (resState (execStirRetrain t e s) s).man = s.man ∧ (resState (execStirRetrain t e s) s).mem = s.mem := by
  unfold execStirRetrain resState
  (try dsimp only)
  (repeat' split) <;> simp

@[simp] theorem execStirRetrain_wf (t : TileId) (e : EdgeId) (s : State) (h : s.memOk = true) :
    (resState (execStirRetrain t e s) s).memOk = true := by
  unfold execStirRetrain resState
  (try dsimp only)
  (repeat' split) <;> simp (maxDischargeDepth := 60) [h]

@[simp] theorem execPdVoteHostWrite_kept (t : TileId) (d : DomId) (value : Word32) (s : State) :
    (resState (execPdVoteHostWrite t d value s) s).pending = s.pending ∧ (resState (execPdVoteHostWrite t d value s) s).man = s.man ∧ (resState (execPdVoteHostWrite t d value s) s).mem = s.mem := by
  unfold execPdVoteHostWrite resState
  (try dsimp only)
  (repeat' split) <;> simp

@[simp] theorem execPdVoteHostWrite_wf (t : TileId) (d : DomId) (value : Word32) (s : State) (h : s.memOk = true) :
    (resState (execPdVoteHostWrite t d value s) s).memOk = true := by
  unfold execPdVoteHostWrite resState
  (try dsimp only)
  (repeat' split) <;> simp (maxDischargeDepth := 60) [h]

@[simp] theorem State.jtagDbg_kept (s : State) (t : TileId) (d : DomId) (v : Nat) :
    (State.jtagDbg s t d v).pending = s.pending ∧ (State.jtagDbg s t d v).man = s.man ∧ (State.jtagDbg s t d v).mem = s.mem ∧ (State.jtagDbg s t d v).durable = s.durable := by
  unfold State.jtagDbg
  (try dsimp only)
  (repeat' split) <;> simp

@[simp] theorem State.jtagDbg_memOk (s : State) (t : TileId) (d : DomId) (v : Nat) : (State.jtagDbg s t d v).memOk = s.memOk := memOk_of_eq (by simp) (by simp)

@[simp] theorem execPdVoteDbgWrite_kept (t : TileId) (d : DomId) (value : Word32) (jtag : Bool) (s : State) :
    (resState (execPdVoteDbgWrite t d value jtag s) s).pending = s.pending ∧ (resState (execPdVoteDbgWrite t d value jtag s) s).man = s.man ∧ (resState (execPdVoteDbgWrite t d value jtag s) s).mem = s.mem := by
  unfold execPdVoteDbgWrite resState
  (try dsimp only)
  (repeat' split) <;> simp

@[simp] theorem execPdVoteDbgWrite_wf (t : TileId) (d : DomId) (value : Word32) (jtag : Bool) (s : State) (h : s.memOk = true) :
    (resState (execPdVoteDbgWrite t d value jtag s) s).memOk = true := by
  unfold execPdVoteDbgWrite resState
  (try dsimp only)
  (repeat' split) <;> simp (maxDischargeDepth := 60) [h]

@[simp] theorem execTimebaseLoRead_kept (port : TileId) (s : State) :
    (resState (execTimebaseLoRead port s) s).pending = s.pending ∧ (resState (execTimebaseLoRead port s) s).man = s.man ∧ (resState (execTimebaseLoRead port s) s).mem = s.mem ∧ (resState (execTimebaseLoRead port s) s).durable = s.durable := by
  unfold execTimebaseLoRead resState
  (try dsimp only)
  (repeat' split) <;> simp

@[simp] theorem execAliasWrite_kept (w : RegWrite) (s : State) :
    (resState (execAliasWrite w s) s).pending = s.pending ∧ (resState (execAliasWrite w s) s).man = s.man ∧ (resState (execAliasWrite w s) s).mem = s.mem := by
  unfold execAliasWrite resState
  (try dsimp only)
  (repeat' split) <;> simp

@[simp] theorem execAliasWrite_wf (w : RegWrite) (s : State) (h : s.memOk = true) :
    (resState (execAliasWrite w s) s).memOk = true := by
  unfold execAliasWrite resState
  (try dsimp only)
  (repeat' split) <;> simp (maxDischargeDepth := 60) [h]

@[simp] theorem execRegisterWrite_kept (w : RegWrite) (s : State) :
    (resState (execRegisterWrite w s) s).pending = s.pending ∧ (resState (execRegisterWrite w s) s).man = s.man ∧ (resState (execRegisterWrite w s) s).mem = s.mem := by
  unfold execRegisterWrite resState
  (try dsimp only)
  (repeat' split) <;> simp

@[simp] theorem execRegisterWrite_wf (w : RegWrite) (s : State) (h : s.memOk = true) :
    (resState (execRegisterWrite w s) s).memOk = true := by
  unfold execRegisterWrite resState
  (try dsimp only)
  (repeat' split) <;> simp (maxDischargeDepth := 60) [h]

@[simp] theorem landEff_kept (b : Blk) (s : State) :
    (landEff b s).pending = s.pending ∧ (landEff b s).man = s.man ∧ (landEff b s).mem = s.mem := by
  unfold landEff
  (try dsimp only)
  (repeat' split) <;> simp

@[simp] theorem landEff_wf (b : Blk) (s : State) (h : s.memOk = true) :
    (landEff b s).memOk = true := by
  unfold landEff
  (try dsimp only)
  (repeat' split) <;> simp (maxDischargeDepth := 60) [h]

@[simp] theorem execRegisterWriteLand_kept (block : Nat) (s : State) :
    (resState (execRegisterWriteLand block s) s).pending = s.pending ∧ (resState (execRegisterWriteLand block s) s).man = s.man ∧ (resState (execRegisterWriteLand block s) s).mem = s.mem := by
  unfold execRegisterWriteLand resState
  (try dsimp only)
  (repeat' split) <;> simp

@[simp] theorem execRegisterWriteLand_wf (block : Nat) (s : State) (h : s.memOk = true) :
    (resState (execRegisterWriteLand block s) s).memOk = true := by
  unfold execRegisterWriteLand resState
  (try dsimp only)
  (repeat' split) <;> simp (maxDischargeDepth := 60) [h]

end Sys2Proof.Machine
end

