-- ==== Sys2Proof/Laws/KeptFabric.lean ====
section
/-! SUPPORT. What the operations of Machine/Fabric.lean leave as it was. -/

namespace Sys2Proof.Machine

@[simp] theorem State.dropItem_kept (s : State) (h : MsgHdr) :
    (State.dropItem s h).pending = s.pending ∧ (State.dropItem s h).man = s.man ∧ (State.dropItem s h).mem = s.mem ∧ (State.dropItem s h).durable = s.durable := by
  unfold State.dropItem
  (try dsimp only)
  (repeat' split) <;> simp

@[simp] theorem State.dropItem_memOk (s : State) (h : MsgHdr) : (State.dropItem s h).memOk = s.memOk := memOk_of_eq (by simp) (by simp)

@[simp] theorem State.arrive_pending (s : State) (h : MsgHdr) (b : List Byte) (f : State → State) (hf : ∀ s, (f s).pending = s.pending) : (State.arrive s h b f).pending = s.pending := by
  unfold State.arrive
  (try dsimp only)
  (repeat' split) <;> simp [hf]

@[simp] theorem State.arrive_man (s : State) (h : MsgHdr) (b : List Byte) (f : State → State) (hf : ∀ s, (f s).man = s.man) : (State.arrive s h b f).man = s.man := by
  unfold State.arrive
  (try dsimp only)
  (repeat' split) <;> simp [hf]

@[simp] theorem State.arrive_mem (s : State) (h : MsgHdr) (b : List Byte) (f : State → State) (hf : ∀ s, (f s).mem = s.mem) : (State.arrive s h b f).mem = s.mem := by
  unfold State.arrive
  (try dsimp only)
  (repeat' split) <;> simp [hf]

@[simp] theorem State.arrive_durable (s : State) (h : MsgHdr) (b : List Byte) (f : State → State) (hf : ∀ s, (f s).durable = s.durable) : (State.arrive s h b f).durable = s.durable := by
  unfold State.arrive
  (try dsimp only)
  (repeat' split) <;> simp [hf]

@[simp] theorem State.arrive_wf (s : State) (h : MsgHdr) (b : List Byte) (f : State → State) (hf : ∀ s, s.memOk = true → (f s).memOk = true)
    (hk : s.memOk = true) : (State.arrive s h b f).memOk = true := by
  unfold State.arrive
  (repeat' split) <;> first | exact hf s hk | simp (maxDischargeDepth := 9) [hk]

@[simp] theorem State.answer_kept (s : State) (h : MsgHdr) (mtype : Nat) (body : List Byte) :
    (State.answer s h mtype body).pending = s.pending ∧ (State.answer s h mtype body).man = s.man ∧ (State.answer s h mtype body).mem = s.mem ∧ (State.answer s h mtype body).durable = s.durable := by
  unfold State.answer
  (try dsimp only)
  (repeat' split) <;> simp

@[simp] theorem State.answer_memOk (s : State) (h : MsgHdr) (mtype : Nat) (body : List Byte) : (State.answer s h mtype body).memOk = s.memOk := memOk_of_eq (by simp) (by simp)

@[simp] theorem State.addReq_kept (s : State) (h : MsgHdr) (mtype tag : Nat) :
    (State.addReq s h mtype tag).pending = s.pending ∧ (State.addReq s h mtype tag).man = s.man ∧ (State.addReq s h mtype tag).mem = s.mem ∧ (State.addReq s h mtype tag).durable = s.durable := by
  unfold State.addReq
  (try dsimp only)
  (repeat' split) <;> simp

@[simp] theorem State.addReq_memOk (s : State) (h : MsgHdr) (mtype tag : Nat) : (State.addReq s h mtype tag).memOk = s.memOk := memOk_of_eq (by simp) (by simp)

@[simp] theorem State.dropReq_kept (s : State) (t : TileId) (p : Pending) :
    (State.dropReq s t p).pending = s.pending ∧ (State.dropReq s t p).man = s.man ∧ (State.dropReq s t p).mem = s.mem ∧ (State.dropReq s t p).durable = s.durable := by
  unfold State.dropReq
  (try dsimp only)
  (repeat' split) <;> simp

@[simp] theorem State.endCmd_kept (s : State) (c : CmdRef) (status detail : Nat) :
    (State.endCmd s c status detail).pending = s.pending ∧ (State.endCmd s c status detail).man = s.man ∧ (State.endCmd s c status detail).mem = s.mem ∧ (State.endCmd s c status detail).durable = s.durable := by
  unfold State.endCmd
  (try dsimp only)
  (repeat' split) <;> simp

@[simp] theorem State.loseReq_kept (s : State) (p : Pending) :
    (State.loseReq s p).pending = s.pending ∧ (State.loseReq s p).man = s.man ∧ (State.loseReq s p).mem = s.mem ∧ (State.loseReq s p).durable = s.durable := by
  unfold State.loseReq
  (try dsimp only)
  (repeat' split) <;> simp

@[simp] theorem State.poisonReq_kept (s : State) (p : Pending) :
    (State.poisonReq s p).pending = s.pending ∧ (State.poisonReq s p).man = s.man ∧ (State.poisonReq s p).mem = s.mem ∧ (State.poisonReq s p).durable = s.durable := by
  unfold State.poisonReq
  (try dsimp only)
  (repeat' split) <;> simp

@[simp] theorem State.respond_kept (s : State) (h : MsgHdr) (tag : Nat) (kinds : List Nat) (rstat : Nat) :
    (State.respond s h tag kinds rstat).pending = s.pending ∧ (State.respond s h tag kinds rstat).man = s.man ∧ (State.respond s h tag kinds rstat).mem = s.mem ∧ (State.respond s h tag kinds rstat).durable = s.durable := by
  unfold State.respond
  (try dsimp only)
  (repeat' split) <;> simp

@[simp] theorem readLine_kept (h : MsgHdr) (tag addr : Nat) (s : State) :
    (readLine h tag addr s).pending = s.pending ∧ (readLine h tag addr s).man = s.man ∧ (readLine h tag addr s).mem = s.mem ∧ (readLine h tag addr s).durable = s.durable := by
  unfold readLine
  (try dsimp only)
  (repeat' split) <;> simp

@[simp] theorem writeLine_kept (h : MsgHdr) (tag addr : Nat) (mask : BitVec 64) (data : List Byte) (s : State) :
    (writeLine h tag addr mask data s).pending = s.pending ∧ (writeLine h tag addr mask data s).man = s.man ∧ (writeLine h tag addr mask data s).durable = s.durable := by
  unfold writeLine
  (try dsimp only)
  (repeat' split) <;> simp

@[simp] theorem writeLine_wf (h : MsgHdr) (tag addr : Nat) (mask : BitVec 64) (data : List Byte) (s : State) (hk : s.memOk = true) :
    (writeLine h tag addr mask data s).memOk = true := by
  unfold writeLine
  (try dsimp only)
  (repeat' split) <;> simp (maxDischargeDepth := 60) [hk]

@[simp] theorem execRdLine_kept (h : MsgHdr) (tag addr : Nat) (s : State) :
    (resState (execRdLine h tag addr s) s).pending = s.pending ∧ (resState (execRdLine h tag addr s) s).man = s.man ∧ (resState (execRdLine h tag addr s) s).mem = s.mem ∧ (resState (execRdLine h tag addr s) s).durable = s.durable := by
  unfold execRdLine resState
  (try dsimp only)
  (repeat' split) <;> simp

@[simp] theorem execRdLine_memOk (h : MsgHdr) (tag addr : Nat) (s : State) : (resState (execRdLine h tag addr s) s).memOk = s.memOk := memOk_of_eq (by simp) (by simp)

@[simp] theorem execWrLine_kept (h : MsgHdr) (tag addr : Nat) (mask : BitVec 64) (data : List Byte) (s : State) :
    (resState (execWrLine h tag addr mask data s) s).pending = s.pending ∧ (resState (execWrLine h tag addr mask data s) s).man = s.man ∧ (resState (execWrLine h tag addr mask data s) s).durable = s.durable := by
  unfold execWrLine resState
  (try dsimp only)
  (repeat' split) <;> simp

@[simp] theorem execWrLine_wf (h : MsgHdr) (tag addr : Nat) (mask : BitVec 64) (data : List Byte) (s : State) (hk : s.memOk = true) :
    (resState (execWrLine h tag addr mask data s) s).memOk = true := by
  unfold execWrLine resState
  dsimp only
  exact State.arrive_wf _ _ _ _ (fun s hk => writeLine_wf _ _ _ _ _ s hk) (by simp (maxDischargeDepth := 9) [hk])

@[simp] theorem execRegRd_kept (h : MsgHdr) (tag off : Nat) (s : State) :
    (resState (execRegRd h tag off s) s).pending = s.pending ∧ (resState (execRegRd h tag off s) s).man = s.man ∧ (resState (execRegRd h tag off s) s).mem = s.mem ∧ (resState (execRegRd h tag off s) s).durable = s.durable := by
  unfold execRegRd resState
  (try dsimp only)
  (repeat' split) <;> simp

@[simp] theorem execRegRd_memOk (h : MsgHdr) (tag off : Nat) (s : State) : (resState (execRegRd h tag off s) s).memOk = s.memOk := memOk_of_eq (by simp) (by simp)

@[simp] theorem execRegWr_kept (h : MsgHdr) (tag off : Nat) (data : Word32) (s : State) :
    (resState (execRegWr h tag off data s) s).pending = s.pending ∧ (resState (execRegWr h tag off data s) s).man = s.man ∧ (resState (execRegWr h tag off data s) s).mem = s.mem := by
  unfold execRegWr resState
  (try dsimp only)
  (repeat' split) <;> simp

@[simp] theorem execRegWr_wf (h : MsgHdr) (tag off : Nat) (data : Word32) (s : State) (hk : s.memOk = true) :
    (resState (execRegWr h tag off data s) s).memOk = true := by
  unfold execRegWr resState
  dsimp only
  (repeat' split) <;> simp (maxDischargeDepth := 60) [hk]

@[simp] theorem execRdData_kept (h : MsgHdr) (tag rstat : Nat) (data : List Byte) (s : State) :
    (resState (execRdData h tag rstat data s) s).pending = s.pending ∧ (resState (execRdData h tag rstat data s) s).man = s.man ∧ (resState (execRdData h tag rstat data s) s).mem = s.mem ∧ (resState (execRdData h tag rstat data s) s).durable = s.durable := by
  unfold execRdData resState
  (try dsimp only)
  (repeat' split) <;> simp

@[simp] theorem execRdData_memOk (h : MsgHdr) (tag rstat : Nat) (data : List Byte) (s : State) : (resState (execRdData h tag rstat data s) s).memOk = s.memOk := memOk_of_eq (by simp) (by simp)

@[simp] theorem execWrAck_kept (h : MsgHdr) (tag rstat : Nat) (s : State) :
    (resState (execWrAck h tag rstat s) s).pending = s.pending ∧ (resState (execWrAck h tag rstat s) s).man = s.man ∧ (resState (execWrAck h tag rstat s) s).mem = s.mem ∧ (resState (execWrAck h tag rstat s) s).durable = s.durable := by
  unfold execWrAck resState
  (try dsimp only)
  (repeat' split) <;> simp

@[simp] theorem execWrAck_memOk (h : MsgHdr) (tag rstat : Nat) (s : State) : (resState (execWrAck h tag rstat s) s).memOk = s.memOk := memOk_of_eq (by simp) (by simp)

@[simp] theorem execRegData_kept (h : MsgHdr) (tag rstat : Nat) (_data : Word32) (s : State) :
    (resState (execRegData h tag rstat _data s) s).pending = s.pending ∧ (resState (execRegData h tag rstat _data s) s).man = s.man ∧ (resState (execRegData h tag rstat _data s) s).mem = s.mem ∧ (resState (execRegData h tag rstat _data s) s).durable = s.durable := by
  unfold execRegData resState
  (try dsimp only)
  (repeat' split) <;> simp

@[simp] theorem execRegData_memOk (h : MsgHdr) (tag rstat : Nat) (_data : Word32) (s : State) : (resState (execRegData h tag rstat _data s) s).memOk = s.memOk := memOk_of_eq (by simp) (by simp)

@[simp] theorem execReqTimeout_kept (t : TileId) (agent : Fin 64) (tag : Nat) (s : State) :
    (resState (execReqTimeout t agent tag s) s).pending = s.pending ∧ (resState (execReqTimeout t agent tag s) s).man = s.man ∧ (resState (execReqTimeout t agent tag s) s).mem = s.mem ∧ (resState (execReqTimeout t agent tag s) s).durable = s.durable := by
  unfold execReqTimeout resState
  (try dsimp only)
  (repeat' split) <;> simp

@[simp] theorem State.sendXack_kept (s : State) (q : Query) (pipe : Nat) (x : XrCount) :
    (State.sendXack s q pipe x).pending = s.pending ∧ (State.sendXack s q pipe x).man = s.man ∧ (State.sendXack s q pipe x).mem = s.mem ∧ (State.sendXack s q pipe x).durable = s.durable := by
  unfold State.sendXack
  (try dsimp only)
  (repeat' split) <;> simp

@[simp] theorem depositRec_kept (h : MsgHdr) (qid pipe part : Nat) (rec : List Byte) (s : State) :
    (depositRec h qid pipe part rec s).pending = s.pending ∧ (depositRec h qid pipe part rec s).man = s.man ∧ (depositRec h qid pipe part rec s).mem = s.mem ∧ (depositRec h qid pipe part rec s).durable = s.durable := by
  unfold depositRec
  (try dsimp only)
  (repeat' split) <;> simp

@[simp] theorem execXrec_kept (h : MsgHdr) (qid : Nat) (pipe : Fin 32) (part : Nat) (record : List Byte) (s : State) :
    (resState (execXrec h qid pipe part record s) s).pending = s.pending ∧ (resState (execXrec h qid pipe part record s) s).man = s.man ∧ (resState (execXrec h qid pipe part record s) s).mem = s.mem ∧ (resState (execXrec h qid pipe part record s) s).durable = s.durable := by
  unfold execXrec resState
  (try dsimp only)
  (repeat' split) <;> simp

@[simp] theorem execXrec_memOk (h : MsgHdr) (qid : Nat) (pipe : Fin 32) (part : Nat) (record : List Byte) (s : State) : (resState (execXrec h qid pipe part record s) s).memOk = s.memOk := memOk_of_eq (by simp) (by simp)

@[simp] theorem execXackTimer_kept (t : TileId) (qid : Nat) (srcPe : Gpe) (morsel attempt : Nat) (s : State) :
    (resState (execXackTimer t qid srcPe morsel attempt s) s).pending = s.pending ∧ (resState (execXackTimer t qid srcPe morsel attempt s) s).man = s.man ∧ (resState (execXackTimer t qid srcPe morsel attempt s) s).mem = s.mem ∧ (resState (execXackTimer t qid srcPe morsel attempt s) s).durable = s.durable := by
  unfold execXackTimer resState
  (try dsimp only)
  (repeat' split) <;> simp

@[simp] theorem ackEff_kept (h : MsgHdr) (qid : Nat) (pe : Gpe) (attempt morsel count : Nat) (s : State) :
    (ackEff h qid pe attempt morsel count s).pending = s.pending ∧ (ackEff h qid pe attempt morsel count s).man = s.man ∧ (ackEff h qid pe attempt morsel count s).mem = s.mem ∧ (ackEff h qid pe attempt morsel count s).durable = s.durable := by
  unfold ackEff
  (try dsimp only)
  (repeat' split) <;> simp

@[simp] theorem execXack_kept (h : MsgHdr) (qid : Nat) (srcPe : Gpe) (attempt morsel count : Nat) (s : State) :
    (resState (execXack h qid srcPe attempt morsel count s) s).pending = s.pending ∧ (resState (execXack h qid srcPe attempt morsel count s) s).man = s.man ∧ (resState (execXack h qid srcPe attempt morsel count s) s).mem = s.mem ∧ (resState (execXack h qid srcPe attempt morsel count s) s).durable = s.durable := by
  unfold execXack resState
  (try dsimp only)
  (repeat' split) <;> simp

@[simp] theorem execXack_memOk (h : MsgHdr) (qid : Nat) (srcPe : Gpe) (attempt morsel count : Nat) (s : State) : (resState (execXack h qid srcPe attempt morsel count s) s).memOk = s.memOk := memOk_of_eq (by simp) (by simp)

@[simp] theorem execXtallyReq_kept (h : MsgHdr) (qid : Nat) (srcPe : Gpe) (attempt morsel : Nat) (s : State) :
    (resState (execXtallyReq h qid srcPe attempt morsel s) s).pending = s.pending ∧ (resState (execXtallyReq h qid srcPe attempt morsel s) s).man = s.man ∧ (resState (execXtallyReq h qid srcPe attempt morsel s) s).mem = s.mem ∧ (resState (execXtallyReq h qid srcPe attempt morsel s) s).durable = s.durable := by
  unfold execXtallyReq resState
  (try dsimp only)
  (repeat' split) <;> simp

@[simp] theorem execXtallyReq_memOk (h : MsgHdr) (qid : Nat) (srcPe : Gpe) (attempt morsel : Nat) (s : State) : (resState (execXtallyReq h qid srcPe attempt morsel s) s).memOk = s.memOk := memOk_of_eq (by simp) (by simp)

@[simp] theorem execXchgTally_kept (h : MsgHdr) (qid : Nat) (srcPe : Gpe) (attempt morsel cnt xorHash : Nat) (s : State) :
    (resState (execXchgTally h qid srcPe attempt morsel cnt xorHash s) s).pending = s.pending ∧ (resState (execXchgTally h qid srcPe attempt morsel cnt xorHash s) s).man = s.man ∧ (resState (execXchgTally h qid srcPe attempt morsel cnt xorHash s) s).mem = s.mem ∧ (resState (execXchgTally h qid srcPe attempt morsel cnt xorHash s) s).durable = s.durable := by
  unfold execXchgTally resState
  (try dsimp only)
  (repeat' split) <;> simp

@[simp] theorem execXchgTally_memOk (h : MsgHdr) (qid : Nat) (srcPe : Gpe) (attempt morsel cnt xorHash : Nat) (s : State) : (resState (execXchgTally h qid srcPe attempt morsel cnt xorHash s) s).memOk = s.memOk := memOk_of_eq (by simp) (by simp)

@[simp] theorem execBootData_kept (h : MsgHdr) (off : Nat) (data : List Byte) (s : State) :
    (resState (execBootData h off data s) s).pending = s.pending ∧ (resState (execBootData h off data s) s).man = s.man ∧ (resState (execBootData h off data s) s).mem = s.mem ∧ (resState (execBootData h off data s) s).durable = s.durable := by
  unfold execBootData resState
  (try dsimp only)
  (repeat' split) <;> simp

@[simp] theorem execBootData_memOk (h : MsgHdr) (off : Nat) (data : List Byte) (s : State) : (resState (execBootData h off data s) s).memOk = s.memOk := memOk_of_eq (by simp) (by simp)

@[simp] theorem execFwMsg_kept (h : MsgHdr) (tag kind : Nat) (data : List Byte) (s : State) :
    (resState (execFwMsg h tag kind data s) s).pending = s.pending ∧ (resState (execFwMsg h tag kind data s) s).man = s.man ∧ (resState (execFwMsg h tag kind data s) s).mem = s.mem ∧ (resState (execFwMsg h tag kind data s) s).durable = s.durable := by
  unfold execFwMsg resState
  (try dsimp only)
  (repeat' split) <;> simp

@[simp] theorem execFwMsg_memOk (h : MsgHdr) (tag kind : Nat) (data : List Byte) (s : State) : (resState (execFwMsg h tag kind data s) s).memOk = s.memOk := memOk_of_eq (by simp) (by simp)

@[simp] theorem execCtlResend_kept (t : TileId) (tag : Nat) (s : State) :
    (resState (execCtlResend t tag s) s).pending = s.pending ∧ (resState (execCtlResend t tag s) s).man = s.man ∧ (resState (execCtlResend t tag s) s).mem = s.mem := by
  unfold execCtlResend resState
  (try dsimp only)
  (repeat' split) <;> simp

@[simp] theorem execCtlResend_wf (t : TileId) (tag : Nat) (s : State) (h : s.memOk = true) :
    (resState (execCtlResend t tag s) s).memOk = true := by
  unfold execCtlResend resState
  (try dsimp only)
  (repeat' split) <;> simp (maxDischargeDepth := 60) [h]

@[simp] theorem State.cutOff_kept (s : State) (t : TileId) :
    (State.cutOff s t).pending = s.pending ∧ (State.cutOff s t).man = s.man ∧ (State.cutOff s t).mem = s.mem := by
  unfold State.cutOff
  (try dsimp only)
  (repeat' split) <;> simp

@[simp] theorem State.cutOff_wf (s : State) (t : TileId) (h : s.memOk = true) :
    (State.cutOff s t).memOk = true := by
  unfold State.cutOff
  (try dsimp only)
  (repeat' split) <;> simp (maxDischargeDepth := 60) [h]

@[simp] theorem execMeshFlitError_kept (t : TileId) (f : MeshFault) (s : State) :
    (resState (execMeshFlitError t f s) s).pending = s.pending ∧ (resState (execMeshFlitError t f s) s).man = s.man ∧ (resState (execMeshFlitError t f s) s).mem = s.mem := by
  unfold execMeshFlitError resState
  (try dsimp only)
  (repeat' split) <;> simp

@[simp] theorem execMeshFlitError_wf (t : TileId) (f : MeshFault) (s : State) (h : s.memOk = true) :
    (resState (execMeshFlitError t f s) s).memOk = true := by
  unfold execMeshFlitError resState
  (try dsimp only)
  (repeat' split) <;> simp (maxDischargeDepth := 60) [h]

end Sys2Proof.Machine
end

