-- ==== Sys2Proof/Laws/KeptUpkeep.lean ====
section
/-! SUPPORT. What the operations of Machine/Upkeep.lean leave as it was. -/

namespace Sys2Proof.Machine

@[simp] theorem execStagingDrain_kept (t : TileId) (line : Nat) (s : State) :
    (resState (execStagingDrain t line s) s).pending = s.pending ∧ (resState (execStagingDrain t line s) s).man = s.man ∧ (resState (execStagingDrain t line s) s).durable = s.durable := by
  unfold execStagingDrain resState
  (try dsimp only)
  (repeat' split) <;> simp

@[simp] theorem execStagingDrain_wf (t : TileId) (line : Nat) (s : State) (h : s.memOk = true) :
    (resState (execStagingDrain t line s) s).memOk = true := by
  unfold execStagingDrain resState
  (try dsimp only)
  (repeat' split) <;> simp (maxDischargeDepth := 60) [h]

@[simp] theorem State.setScrub_kept (s : State) (t : TileId) (w : ScrubUnit) (k : Scrub) :
    (State.setScrub s t w k).pending = s.pending ∧ (State.setScrub s t w k).man = s.man ∧ (State.setScrub s t w k).mem = s.mem ∧ (State.setScrub s t w k).durable = s.durable := by
  unfold State.setScrub
  (try dsimp only)
  (repeat' split) <;> simp

@[simp] theorem State.rollScrub_kept (s : State) (t : TileId) (w : ScrubUnit) :
    (State.rollScrub s t w).pending = s.pending ∧ (State.rollScrub s t w).man = s.man ∧ (State.rollScrub s t w).mem = s.mem ∧ (State.rollScrub s t w).durable = s.durable := by
  simp [State.rollScrub]

@[simp] theorem State.retireBank_kept (s : State) (t : TileId) (bank : Nat) :
    (State.retireBank s t bank).pending = s.pending ∧ (State.retireBank s t bank).man = s.man ∧ (State.retireBank s t bank).mem = s.mem ∧ (State.retireBank s t bank).durable = s.durable := by
  unfold State.retireBank
  (try dsimp only)
  (repeat' split) <;> simp

@[simp] theorem State.retireBank_memOk (s : State) (t : TileId) (bank : Nat) : (State.retireBank s t bank).memOk = s.memOk := memOk_of_eq (by simp) (by simp)

@[simp] theorem State.badSram_kept (s : State) (t : TileId) (addr : Nat) :
    (State.badSram s t addr).pending = s.pending ∧ (State.badSram s t addr).man = s.man ∧ (State.badSram s t addr).mem = s.mem ∧ (State.badSram s t addr).durable = s.durable := by
  unfold State.badSram
  (try dsimp only)
  (repeat' split) <;> simp

@[simp] theorem State.poisonSram_kept (s : State) (t : TileId) (addr : Nat) :
    (State.poisonSram s t addr).pending = s.pending ∧ (State.poisonSram s t addr).man = s.man ∧ (State.poisonSram s t addr).mem = s.mem ∧ (State.poisonSram s t addr).durable = s.durable := by
  unfold State.poisonSram
  (try dsimp only)
  (repeat' split) <;> simp

@[simp] theorem scrubEff_kept (t : TileId) (w : ScrubUnit) (addr : Nat) (res : ScrubResult) (s : State) :
    (scrubEff t w addr res s).pending = s.pending ∧ (scrubEff t w addr res s).man = s.man ∧ (scrubEff t w addr res s).mem = s.mem ∧ (scrubEff t w addr res s).durable = s.durable := by
  unfold scrubEff
  (try dsimp only)
  (repeat' split) <;> simp

@[simp] theorem patrolEff_kept (t : TileId) (w : ScrubUnit) (addr : Nat) (res : ScrubResult) (s : State) :
    (patrolEff t w addr res s).pending = s.pending ∧ (patrolEff t w addr res s).man = s.man ∧ (patrolEff t w addr res s).mem = s.mem ∧ (patrolEff t w addr res s).durable = s.durable := by
  unfold patrolEff
  (try dsimp only)
  (repeat' split) <;> simp

@[simp] theorem execPatrolScrub_kept (t : TileId) (w : ScrubUnit) (addr : Nat) (res : ScrubResult) (s : State) :
    (resState (execPatrolScrub t w addr res s) s).pending = s.pending ∧ (resState (execPatrolScrub t w addr res s) s).man = s.man ∧ (resState (execPatrolScrub t w addr res s) s).mem = s.mem ∧ (resState (execPatrolScrub t w addr res s) s).durable = s.durable := by
  unfold execPatrolScrub resState
  (try dsimp only)
  (repeat' split) <;> simp

@[simp] theorem execScrubLate_kept (t : TileId) (w : ScrubUnit) (s : State) :
    (resState (execScrubLate t w s) s).pending = s.pending ∧ (resState (execScrubLate t w s) s).man = s.man ∧ (resState (execScrubLate t w s) s).mem = s.mem ∧ (resState (execScrubLate t w s) s).durable = s.durable := by
  unfold execScrubLate resState
  (try dsimp only)
  (repeat' split) <;> simp

@[simp] theorem execMapScrubVote_kept (t : TileId) (seen : VoteSeen) (s : State) :
    (resState (execMapScrubVote t seen s) s).pending = s.pending ∧ (resState (execMapScrubVote t seen s) s).man = s.man ∧ (resState (execMapScrubVote t seen s) s).mem = s.mem ∧ (resState (execMapScrubVote t seen s) s).durable = s.durable := by
  unfold execMapScrubVote resState
  (try dsimp only)
  (repeat' split) <;> simp

@[simp] theorem State.loseDdr_kept (s : State) (t : TileId) (ch : Nat) :
    (State.loseDdr s t ch).pending = s.pending ∧ (State.loseDdr s t ch).man = s.man ∧ (State.loseDdr s t ch).mem = s.mem ∧ (State.loseDdr s t ch).durable = s.durable := by
  unfold State.loseDdr
  (try dsimp only)
  (repeat' split) <;> simp

@[simp] theorem State.loseDdr_memOk (s : State) (t : TileId) (ch : Nat) : (State.loseDdr s t ch).memOk = s.memOk := memOk_of_eq (by simp) (by simp)

@[simp] theorem execDdrChannelLost_kept (t : TileId) (ch : Fin 2) (s : State) :
    (resState (execDdrChannelLost t ch s) s).pending = s.pending ∧ (resState (execDdrChannelLost t ch s) s).man = s.man ∧ (resState (execDdrChannelLost t ch s) s).mem = s.mem ∧ (resState (execDdrChannelLost t ch s) s).durable = s.durable := by
  unfold execDdrChannelLost resState
  (try dsimp only)
  (repeat' split) <;> simp

@[simp] theorem execCxlPortLost_kept (t : TileId) (s : State) :
    (resState (execCxlPortLost t s) s).pending = s.pending ∧ (resState (execCxlPortLost t s) s).man = s.man ∧ (resState (execCxlPortLost t s) s).mem = s.mem ∧ (resState (execCxlPortLost t s) s).durable = s.durable := by
  unfold execCxlPortLost resState
  (try dsimp only)
  (repeat' split) <;> simp

@[simp] theorem State.failSlice_kept (s : State) (n : Nat) :
    (State.failSlice s n).pending = s.pending ∧ (State.failSlice s n).man = s.man ∧ (State.failSlice s n).mem = s.mem := by
  unfold State.failSlice
  (try dsimp only)
  (repeat' split) <;> simp

@[simp] theorem State.failSlice_wf (s : State) (n : Nat) (h : s.memOk = true) :
    (State.failSlice s n).memOk = true := by
  unfold State.failSlice
  (try dsimp only)
  (repeat' split) <;> simp_all (maxDischargeDepth := 60)

@[simp] theorem execSliceTableEcc_kept (t : TileId) (slice : Fin 1024) (s : State) :
    (resState (execSliceTableEcc t slice s) s).pending = s.pending ∧ (resState (execSliceTableEcc t slice s) s).man = s.man ∧ (resState (execSliceTableEcc t slice s) s).mem = s.mem := by
  unfold execSliceTableEcc resState
  (try dsimp only)
  (repeat' split) <;> simp

@[simp] theorem execSliceTableEcc_wf (t : TileId) (slice : Fin 1024) (s : State) (h : s.memOk = true) :
    (resState (execSliceTableEcc t slice s) s).memOk = true := by
  unfold execSliceTableEcc resState
  (try dsimp only)
  (repeat' split) <;> simp (maxDischargeDepth := 60) [h]

end Sys2Proof.Machine
end

