-- ==== Sys2Proof/Laws/KeptPowerCore.lean ====
section
/-! SUPPORT. What the operations of Machine/PowerCore.lean leave as it was. -/

namespace Sys2Proof.Machine

@[simp] theorem State.refuseEntry_kept (s : State) (t : TileId) (d : DomId) (reason agent : Nat) :
    (State.refuseEntry s t d reason agent).pending = s.pending ∧ (State.refuseEntry s t d reason agent).man = s.man ∧ (State.refuseEntry s t d reason agent).mem = s.mem ∧ (State.refuseEntry s t d reason agent).durable = s.durable := by
  unfold State.refuseEntry
  (try dsimp only)
  (repeat' split) <;> simp

@[simp] theorem State.refuseEntry_memOk (s : State) (t : TileId) (d : DomId) (reason agent : Nat) : (State.refuseEntry s t d reason agent).memOk = s.memOk := memOk_of_eq (by simp) (by simp)

@[simp] theorem State.forgetTier_kept (s : State) (t : TileId) (tier : Nat) :
    (State.forgetTier s t tier).pending = s.pending ∧ (State.forgetTier s t tier).man = s.man ∧ (State.forgetTier s t tier).durable = s.durable := by
  unfold State.forgetTier
  (try dsimp only)
  (repeat' split) <;> simp

@[simp] theorem State.forgetTier_wf (s : State) (t : TileId) (tier : Nat) (h : s.memOk = true) :
    (State.forgetTier s t tier).memOk = true := by
  unfold State.forgetTier
  (try dsimp only)
  (repeat' split) <;> simp (maxDischargeDepth := 60) [h]

@[simp] theorem State.resetCtl_kept (s : State) (t : TileId) (d : Nat) :
    (State.resetCtl s t d).pending = s.pending ∧ (State.resetCtl s t d).man = s.man ∧ (State.resetCtl s t d).mem = s.mem ∧ (State.resetCtl s t d).durable = s.durable := by
  unfold State.resetCtl
  (try dsimp only)
  (repeat' split) <;> simp

@[simp] theorem State.resetCtl_memOk (s : State) (t : TileId) (d : Nat) : (State.resetCtl s t d).memOk = s.memOk := memOk_of_eq (by simp) (by simp)

@[simp] theorem State.losePages_kept (s : State) (t : TileId) (lost : Nat → Bool) :
    (State.losePages s t lost).pending = s.pending ∧ (State.losePages s t lost).man = s.man ∧ (State.losePages s t lost).mem = s.mem ∧ (State.losePages s t lost).durable = s.durable := by
  unfold State.losePages
  try dsimp only
  (repeat' apply And.intro) <;>
    (repeat' (first | (simp; done) | split | rw [foldl_pending] | rw [foldl_man] | rw [foldl_mem] | rw [foldl_durable] | intro _ _ | simp))

@[simp] theorem State.losePages_memOk (s : State) (t : TileId) (lost : Nat → Bool) : (State.losePages s t lost).memOk = s.memOk := memOk_of_eq (by simp) (by simp)

@[simp] theorem State.freshBanks_kept (s : State) (t : TileId) (lost : Nat → Bool) :
    (State.freshBanks s t lost).pending = s.pending ∧ (State.freshBanks s t lost).man = s.man ∧ (State.freshBanks s t lost).mem = s.mem ∧ (State.freshBanks s t lost).durable = s.durable := by
  unfold State.freshBanks
  (try dsimp only)
  (repeat' split) <;> simp

@[simp] theorem State.freshBanks_memOk (s : State) (t : TileId) (lost : Nat → Bool) : (State.freshBanks s t lost).memOk = s.memOk := memOk_of_eq (by simp) (by simp)

@[simp] theorem State.rebuildEntry_kept (s : State) (t : TileId) (ix id : Nat) :
    (State.rebuildEntry s t ix id).pending = s.pending ∧ (State.rebuildEntry s t ix id).man = s.man ∧ (State.rebuildEntry s t ix id).mem = s.mem ∧ (State.rebuildEntry s t ix id).durable = s.durable := by
  unfold State.rebuildEntry
  (try dsimp only)
  (repeat' split) <;> simp

@[simp] theorem State.rebuildCopy_kept (s : State) (t : TileId) (ix : Nat) :
    (State.rebuildCopy s t ix).pending = s.pending ∧ (State.rebuildCopy s t ix).man = s.man ∧ (State.rebuildCopy s t ix).mem = s.mem ∧ (State.rebuildCopy s t ix).durable = s.durable := by
  unfold State.rebuildCopy
  (try dsimp only)
  (repeat' split) <;> simp

@[simp] theorem State.clearCopy_kept (s : State) (t : TileId) (ix : Nat) :
    (State.clearCopy s t ix).pending = s.pending ∧ (State.clearCopy s t ix).man = s.man ∧ (State.clearCopy s t ix).mem = s.mem ∧ (State.clearCopy s t ix).durable = s.durable := by
  unfold State.clearCopy
  (try dsimp only)
  (repeat' split) <;> simp

@[simp] theorem State.clearCopy_memOk (s : State) (t : TileId) (ix : Nat) : (State.clearCopy s t ix).memOk = s.memOk := memOk_of_eq (by simp) (by simp)

@[simp] theorem State.loseSram_kept (s : State) (t : TileId) (d : DomId) :
    (State.loseSram s t d).pending = s.pending ∧ (State.loseSram s t d).man = s.man ∧ (State.loseSram s t d).mem = s.mem ∧ (State.loseSram s t d).durable = s.durable := by
  unfold State.loseSram
  (try dsimp only)
  (repeat' split) <;> simp

@[simp] theorem State.loseDom_kept (s : State) (t : TileId) (d : DomId) :
    (State.loseDom s t d).pending = s.pending ∧ (State.loseDom s t d).man = s.man ∧ (State.loseDom s t d).durable = s.durable := by
  unfold State.loseDom
  (try dsimp only)
  (repeat' split) <;> simp

@[simp] theorem State.loseDom_wf (s : State) (t : TileId) (d : DomId) (h : s.memOk = true) :
    (State.loseDom s t d).memOk = true := by
  unfold State.loseDom
  (try dsimp only)
  (repeat' split) <;> simp (maxDischargeDepth := 60) [h]

@[simp] theorem State.commitEntry_kept (s : State) (t : TileId) (d : DomId) (toOff : Bool) :
    (State.commitEntry s t d toOff).pending = s.pending ∧ (State.commitEntry s t d toOff).man = s.man ∧ (State.commitEntry s t d toOff).durable = s.durable := by
  unfold State.commitEntry
  (try dsimp only)
  (repeat' split) <;> simp

@[simp] theorem State.commitEntry_wf (s : State) (t : TileId) (d : DomId) (toOff : Bool) (h : s.memOk = true) :
    (State.commitEntry s t d toOff).memOk = true := by
  unfold State.commitEntry
  (try dsimp only)
  (repeat' split) <;> simp (maxDischargeDepth := 60) [h]

@[simp] theorem State.sendPwr_kept (s : State) (t : TileId) (e : EdgeId) (mtype : Nat) :
    (State.sendPwr s t e mtype).pending = s.pending ∧ (State.sendPwr s t e mtype).man = s.man ∧ (State.sendPwr s t e mtype).mem = s.mem ∧ (State.sendPwr s t e mtype).durable = s.durable := by
  unfold State.sendPwr
  (try dsimp only)
  (repeat' split) <;> simp

@[simp] theorem State.sendPwr_memOk (s : State) (t : TileId) (e : EdgeId) (mtype : Nat) : (State.sendPwr s t e mtype).memOk = s.memOk := memOk_of_eq (by simp) (by simp)

@[simp] theorem State.enterDom_kept (s : State) (t : TileId) (d : DomId) :
    (State.enterDom s t d).pending = s.pending ∧ (State.enterDom s t d).man = s.man ∧ (State.enterDom s t d).durable = s.durable := by
  unfold State.enterDom
  (try dsimp only)
  (repeat' split) <;> simp

@[simp] theorem State.enterDom_wf (s : State) (t : TileId) (d : DomId) (h : s.memOk = true) :
    (State.enterDom s t d).memOk = true := by
  unfold State.enterDom
  (try dsimp only)
  (repeat' split) <;> simp (maxDischargeDepth := 60) [h]

@[simp] theorem State.tryEntry_kept (s : State) (t : TileId) (d : DomId) (busy : Option (Fin 64)) :
    (State.tryEntry s t d busy).pending = s.pending ∧ (State.tryEntry s t d busy).man = s.man ∧ (State.tryEntry s t d busy).durable = s.durable := by
  unfold State.tryEntry
  (try dsimp only)
  (repeat' split) <;> simp

@[simp] theorem State.tryEntry_wf (s : State) (t : TileId) (d : DomId) (busy : Option (Fin 64)) (h : s.memOk = true) :
    (State.tryEntry s t d busy).memOk = true := by
  unfold State.tryEntry
  (try dsimp only)
  (repeat' split) <;> simp (maxDischargeDepth := 60) [h]

@[simp] theorem State.fenceFunc_kept (s : State) (t : TileId) (d kind index : Nat) :
    (State.fenceFunc s t d kind index).pending = s.pending ∧ (State.fenceFunc s t d kind index).man = s.man ∧ (State.fenceFunc s t d kind index).mem = s.mem ∧ (State.fenceFunc s t d kind index).durable = s.durable := by
  unfold State.fenceFunc
  (try dsimp only)
  (repeat' split) <;> simp

@[simp] theorem State.fenceFunc_memOk (s : State) (t : TileId) (d kind index : Nat) : (State.fenceFunc s t d kind index).memOk = s.memOk := memOk_of_eq (by simp) (by simp)

@[simp] theorem State.failUnit_kept (s : State) (t : TileId) (d : DomId) :
    (State.failUnit s t d).pending = s.pending ∧ (State.failUnit s t d).man = s.man ∧ (State.failUnit s t d).mem = s.mem := by
  unfold State.failUnit
  (try dsimp only)
  (repeat' split) <;> simp

@[simp] theorem State.failUnit_wf (s : State) (t : TileId) (d : DomId) (h : s.memOk = true) :
    (State.failUnit s t d).memOk = true := by
  unfold State.failUnit
  (try dsimp only)
  (repeat' split) <;> simp (maxDischargeDepth := 60) [h]

@[simp] theorem State.lostRet_kept (s : State) (t : TileId) (d : DomId) (kind bank sev : Nat) :
    (State.lostRet s t d kind bank sev).pending = s.pending ∧ (State.lostRet s t d kind bank sev).man = s.man ∧ (State.lostRet s t d kind bank sev).mem = s.mem ∧ (State.lostRet s t d kind bank sev).durable = s.durable := by
  unfold State.lostRet
  (try dsimp only)
  (repeat' split) <;> simp

@[simp] theorem State.loseBank_kept (s : State) (t : TileId) (d : DomId) (b : Nat) :
    (State.loseBank s t d b).pending = s.pending ∧ (State.loseBank s t d b).man = s.man ∧ (State.loseBank s t d b).mem = s.mem ∧ (State.loseBank s t d b).durable = s.durable := by
  unfold State.loseBank
  (try dsimp only)
  (repeat' split) <;> simp

@[simp] theorem State.loseBanks_kept (s : State) (t : TileId) (d : DomId) (banks : List Nat) :
    (State.loseBanks s t d banks).pending = s.pending ∧ (State.loseBanks s t d banks).man = s.man ∧ (State.loseBanks s t d banks).mem = s.mem ∧ (State.loseBanks s t d banks).durable = s.durable := by
  unfold State.loseBanks
  (try dsimp only)
  (repeat' split) <;> simp

@[simp] theorem State.applyPending_kept (s : State) (t : TileId) (d : DomId) :
    (State.applyPending s t d).pending = s.pending ∧ (State.applyPending s t d).man = s.man ∧ (State.applyPending s t d).mem = s.mem ∧ (State.applyPending s t d).durable = s.durable := by
  unfold State.applyPending
  (try dsimp only)
  (repeat' split) <;> simp

@[simp] theorem State.applyPending_memOk (s : State) (t : TileId) (d : DomId) : (State.applyPending s t d).memOk = s.memOk := memOk_of_eq (by simp) (by simp)

@[simp] theorem State.leaveL1_kept (s : State) (t : TileId) (e : EdgeId) :
    (State.leaveL1 s t e).pending = s.pending ∧ (State.leaveL1 s t e).man = s.man ∧ (State.leaveL1 s t e).mem = s.mem ∧ (State.leaveL1 s t e).durable = s.durable := by
  unfold State.leaveL1
  (try dsimp only)
  (repeat' split) <;> simp

@[simp] theorem State.leaveL1_memOk (s : State) (t : TileId) (e : EdgeId) : (State.leaveL1 s t e).memOk = s.memOk := memOk_of_eq (by simp) (by simp)

end Sys2Proof.Machine
end

