-- ==== Sys2Proof/Laws/KeptFlits.lean ====
section
/-! SUPPORT. What the operations of Machine/Flits.lean leave as it was. -/

namespace Sys2Proof.Machine

@[simp] theorem State.deliverCinch_kept (s : State) (h : MsgHdr) (b : List Byte) :
    (State.deliverCinch s h b).pending = s.pending ∧ (State.deliverCinch s h b).man = s.man ∧ (State.deliverCinch s h b).mem = s.mem := by
  unfold State.deliverCinch
  (try dsimp only)
  (repeat' split) <;> simp

@[simp] theorem State.deliverCinch_wf (s : State) (h : MsgHdr) (b : List Byte) (hk : s.memOk = true) :
    (State.deliverCinch s h b).memOk = true := by
  unfold State.deliverCinch
  (try dsimp only)
  (repeat' split) <;> simp (maxDischargeDepth := 60) [hk]

@[simp] theorem State.deliver_kept (s : State) (b : List Byte) :
    (State.deliver s b).pending = s.pending ∧ (State.deliver s b).man = s.man := by
  unfold State.deliver
  (try dsimp only)
  (repeat' split) <;> simp

@[simp] theorem State.deliver_wf (s : State) (b : List Byte) (h : s.memOk = true) :
    (State.deliver s b).memOk = true := by
  unfold State.deliver
  (try dsimp only)
  (repeat' split) <;> simp (maxDischargeDepth := 60) [h]

@[simp] theorem sleepReqEff_kept (t : TileId) (e : EdgeId) (s : State) :
    (sleepReqEff t e s).pending = s.pending ∧ (sleepReqEff t e s).man = s.man ∧ (sleepReqEff t e s).mem = s.mem ∧ (sleepReqEff t e s).durable = s.durable := by
  unfold sleepReqEff
  (try dsimp only)
  (repeat' split) <;> simp

@[simp] theorem sleepReqEff_memOk (t : TileId) (e : EdgeId) (s : State) : (sleepReqEff t e s).memOk = s.memOk := memOk_of_eq (by simp) (by simp)

@[simp] theorem sleepAckEff_kept (t : TileId) (e : EdgeId) (s : State) :
    (sleepAckEff t e s).pending = s.pending ∧ (sleepAckEff t e s).man = s.man ∧ (sleepAckEff t e s).durable = s.durable := by
  unfold sleepAckEff
  (try dsimp only)
  (repeat' split) <;> simp

@[simp] theorem sleepAckEff_wf (t : TileId) (e : EdgeId) (s : State) (h : s.memOk = true) :
    (sleepAckEff t e s).memOk = true := by
  unfold sleepAckEff
  (try dsimp only)
  (repeat' split) <;> simp (maxDischargeDepth := 60) [h]

@[simp] theorem sleepNoEff_kept (t : TileId) (e : EdgeId) (s : State) :
    (sleepNoEff t e s).pending = s.pending ∧ (sleepNoEff t e s).man = s.man ∧ (sleepNoEff t e s).mem = s.mem ∧ (sleepNoEff t e s).durable = s.durable := by
  unfold sleepNoEff
  (try dsimp only)
  (repeat' split) <;> simp

@[simp] theorem sleepNoEff_memOk (t : TileId) (e : EdgeId) (s : State) : (sleepNoEff t e s).memOk = s.memOk := memOk_of_eq (by simp) (by simp)

@[simp] theorem State.dropMsg_kept (s : State) (t : TileId) (e : EdgeId) (b : List Byte) :
    (State.dropMsg s t e b).pending = s.pending ∧ (State.dropMsg s t e b).man = s.man ∧ (State.dropMsg s t e b).mem = s.mem ∧ (State.dropMsg s t e b).durable = s.durable := by
  unfold State.dropMsg
  (try dsimp only)
  (repeat' split) <;> simp

@[simp] theorem State.dropMsg_memOk (s : State) (t : TileId) (e : EdgeId) (b : List Byte) : (State.dropMsg s t e b).memOk = s.memOk := memOk_of_eq (by simp) (by simp)

@[simp] theorem State.takeMsg_kept (s : State) (t : TileId) (e : EdgeId) (b : List Byte) :
    (State.takeMsg s t e b).pending = s.pending ∧ (State.takeMsg s t e b).man = s.man := by
  unfold State.takeMsg
  (try dsimp only)
  (repeat' split) <;> simp

@[simp] theorem State.takeMsg_wf (s : State) (t : TileId) (e : EdgeId) (b : List Byte) (h : s.memOk = true) :
    (State.takeMsg s t e b).memOk = true := by
  unfold State.takeMsg
  (try dsimp only)
  (repeat' split) <;> simp (maxDischargeDepth := 60) [h]

@[simp] theorem State.replayAgain_kept (s : State) (t : TileId) (e : EdgeId) (i : Nat) :
    (State.replayAgain s t e i).pending = s.pending ∧ (State.replayAgain s t e i).man = s.man ∧ (State.replayAgain s t e i).mem = s.mem ∧ (State.replayAgain s t e i).durable = s.durable := by
  unfold State.replayAgain
  (try dsimp only)
  (repeat' split) <;> simp

@[simp] theorem State.replayAgain_memOk (s : State) (t : TileId) (e : EdgeId) (i : Nat) : (State.replayAgain s t e i).memOk = s.memOk := memOk_of_eq (by simp) (by simp)

@[simp] theorem State.sendIdle_kept (s : State) (t : TileId) (e : EdgeId) (i : Nat) (nak : Bool) :
    (State.sendIdle s t e i nak).pending = s.pending ∧ (State.sendIdle s t e i nak).man = s.man ∧ (State.sendIdle s t e i nak).mem = s.mem ∧ (State.sendIdle s t e i nak).durable = s.durable := by
  unfold State.sendIdle
  (try dsimp only)
  (repeat' split) <;> simp

@[simp] theorem State.sendIdle_memOk (s : State) (t : TileId) (e : EdgeId) (i : Nat) (nak : Bool) : (State.sendIdle s t e i nak).memOk = s.memOk := memOk_of_eq (by simp) (by simp)

@[simp] theorem State.sendNak_kept (s : State) (t : TileId) (e : EdgeId) (i : Nat) :
    (State.sendNak s t e i).pending = s.pending ∧ (State.sendNak s t e i).man = s.man ∧ (State.sendNak s t e i).mem = s.mem ∧ (State.sendNak s t e i).durable = s.durable := by
  unfold State.sendNak
  (try dsimp only)
  (repeat' split) <;> simp

@[simp] theorem State.sendNak_memOk (s : State) (t : TileId) (e : EdgeId) (i : Nat) : (State.sendNak s t e i).memOk = s.memOk := memOk_of_eq (by simp) (by simp)

@[simp] theorem State.takePayload_kept (s : State) (t : TileId) (e : EdgeId) (i foff : Nat) (payload : List Byte) :
    (State.takePayload s t e i foff payload).pending = s.pending ∧ (State.takePayload s t e i foff payload).man = s.man := by
  unfold State.takePayload
  (try dsimp only)
  (repeat' split) <;> simp

@[simp] theorem State.takePayload_wf (s : State) (t : TileId) (e : EdgeId) (i foff : Nat) (payload : List Byte) (h : s.memOk = true) :
    (State.takePayload s t e i foff payload).memOk = true := by
  unfold State.takePayload
  (try dsimp only)
  (repeat' split) <;> simp_all (maxDischargeDepth := 60)

@[simp] theorem flitEff_kept (t : TileId) (e : EdgeId) (i : Nat) (bytes : List Byte) (s : State) :
    (flitEff t e i bytes s).pending = s.pending ∧ (flitEff t e i bytes s).man = s.man := by
  unfold flitEff
  (try dsimp only)
  (repeat' split) <;> simp

@[simp] theorem flitEff_wf (t : TileId) (e : EdgeId) (i : Nat) (bytes : List Byte) (s : State) (h : s.memOk = true) :
    (flitEff t e i bytes s).memOk = true := by
  unfold flitEff
  (try dsimp only)
  (repeat' split) <;> simp (maxDischargeDepth := 60) [h]

@[simp] theorem execDataFlit_kept (t : TileId) (e : EdgeId) (m : ModuleId) (bytes : List Byte) (s : State) :
    (resState (execDataFlit t e m bytes s) s).pending = s.pending ∧ (resState (execDataFlit t e m bytes s) s).man = s.man := by
  unfold execDataFlit resState
  (try dsimp only)
  (repeat' split) <;> simp

@[simp] theorem execDataFlit_wf (t : TileId) (e : EdgeId) (m : ModuleId) (bytes : List Byte) (s : State) (h : s.memOk = true) :
    (resState (execDataFlit t e m bytes s) s).memOk = true := by
  unfold execDataFlit resState
  (try dsimp only)
  (repeat' split) <;> simp (maxDischargeDepth := 60) [h]

@[simp] theorem execIdleFlit_kept (t : TileId) (e : EdgeId) (m : ModuleId) (bytes : List Byte) (s : State) :
    (resState (execIdleFlit t e m bytes s) s).pending = s.pending ∧ (resState (execIdleFlit t e m bytes s) s).man = s.man := by
  unfold execIdleFlit resState
  (try dsimp only)
  (repeat' split) <;> simp

@[simp] theorem execIdleFlit_wf (t : TileId) (e : EdgeId) (m : ModuleId) (bytes : List Byte) (s : State) (h : s.memOk = true) :
    (resState (execIdleFlit t e m bytes s) s).memOk = true := by
  unfold execIdleFlit resState
  (try dsimp only)
  (repeat' split) <;> simp (maxDischargeDepth := 60) [h]

@[simp] theorem execReplayTimeout_kept (t : TileId) (e : EdgeId) (m : ModuleId) (s : State) :
    (resState (execReplayTimeout t e m s) s).pending = s.pending ∧ (resState (execReplayTimeout t e m s) s).man = s.man ∧ (resState (execReplayTimeout t e m s) s).mem = s.mem ∧ (resState (execReplayTimeout t e m s) s).durable = s.durable := by
  unfold execReplayTimeout resState
  (try dsimp only)
  (repeat' split) <;> simp

@[simp] theorem retrainDone_kept (t : TileId) (e : EdgeId) (i : Nat) (s : State) :
    (retrainDone t e i s).pending = s.pending ∧ (retrainDone t e i s).man = s.man ∧ (retrainDone t e i s).mem = s.mem ∧ (retrainDone t e i s).durable = s.durable := by
  unfold retrainDone
  (try dsimp only)
  (repeat' split) <;> simp

@[simp] theorem retrainFailed_kept (t : TileId) (e : EdgeId) (i : Nat) (s : State) :
    (retrainFailed t e i s).pending = s.pending ∧ (retrainFailed t e i s).man = s.man ∧ (retrainFailed t e i s).mem = s.mem ∧ (retrainFailed t e i s).durable = s.durable := by
  unfold retrainFailed
  (try dsimp only)
  (repeat' split) <;> simp

@[simp] theorem execModuleRetrain_kept (t : TileId) (e : EdgeId) (m : ModuleId) (ok : Bool) (s : State) :
    (resState (execModuleRetrain t e m ok s) s).pending = s.pending ∧ (resState (execModuleRetrain t e m ok s) s).man = s.man ∧ (resState (execModuleRetrain t e m ok s) s).mem = s.mem ∧ (resState (execModuleRetrain t e m ok s) s).durable = s.durable := by
  unfold execModuleRetrain resState
  (try dsimp only)
  (repeat' split) <;> simp

@[simp] theorem execModuleDisable_kept (t : TileId) (e : EdgeId) (m : ModuleId) (s : State) :
    (resState (execModuleDisable t e m s) s).pending = s.pending ∧ (resState (execModuleDisable t e m s) s).man = s.man ∧ (resState (execModuleDisable t e m s) s).mem = s.mem ∧ (resState (execModuleDisable t e m s) s).durable = s.durable := by
  unfold execModuleDisable resState
  (try dsimp only)
  (repeat' split) <;> simp

@[simp] theorem routeEff_kept (s : State) :
    (routeEff s).pending = s.pending ∧ (routeEff s).man = s.man ∧ (routeEff s).mem = s.mem := by
  unfold routeEff
  (try dsimp only)
  (repeat' split) <;> simp

@[simp] theorem routeEff_wf (s : State) (h : s.memOk = true) :
    (routeEff s).memOk = true := by
  unfold routeEff
  try dsimp only
  repeat' (first | assumption | (simp (maxDischargeDepth := 60) [h]; done) | (simp (maxDischargeDepth := 60) [*]; done) | split | refine foldl_memOk _ _ _ (fun _ _ _ => ?_) ?_)

@[simp] theorem execRouteUpdate_kept (s : State) :
    (resState (execRouteUpdate s) s).pending = s.pending ∧ (resState (execRouteUpdate s) s).man = s.man ∧ (resState (execRouteUpdate s) s).mem = s.mem := by
  unfold execRouteUpdate resState
  (try dsimp only)
  (repeat' split) <;> simp

@[simp] theorem execRouteUpdate_wf (s : State) (h : s.memOk = true) :
    (resState (execRouteUpdate s) s).memOk = true := by
  unfold execRouteUpdate resState
  (try dsimp only)
  (repeat' split) <;> simp (maxDischargeDepth := 60) [h]

@[simp] theorem execLinkParams_kept (t : TileId) (e : EdgeId) (body : List Byte) (s : State) :
    (resState (execLinkParams t e body s) s).pending = s.pending ∧ (resState (execLinkParams t e body s) s).man = s.man ∧ (resState (execLinkParams t e body s) s).mem = s.mem ∧ (resState (execLinkParams t e body s) s).durable = s.durable := by
  unfold execLinkParams resState
  (try dsimp only)
  (repeat' split) <;> simp

@[simp] theorem State.linkUp_kept (s : State) (t : TileId) (e : EdgeId) (mods : List Bool) :
    (State.linkUp s t e mods).pending = s.pending ∧ (State.linkUp s t e mods).man = s.man ∧ (State.linkUp s t e mods).mem = s.mem ∧ (State.linkUp s t e mods).durable = s.durable := by
  unfold State.linkUp
  (try dsimp only)
  (repeat' split) <;> simp

@[simp] theorem execLinkTrained_kept (t : TileId) (e : EdgeId) (modules : List Bool) (s : State) :
    (resState (execLinkTrained t e modules s) s).pending = s.pending ∧ (resState (execLinkTrained t e modules s) s).man = s.man ∧ (resState (execLinkTrained t e modules s) s).mem = s.mem ∧ (resState (execLinkTrained t e modules s) s).durable = s.durable := by
  unfold execLinkTrained resState
  (try dsimp only)
  (repeat' split) <;> simp

@[simp] theorem execLinkDown_kept (t : TileId) (e : EdgeId) (s : State) :
    (resState (execLinkDown t e s) s).pending = s.pending ∧ (resState (execLinkDown t e s) s).man = s.man ∧ (resState (execLinkDown t e s) s).mem = s.mem ∧ (resState (execLinkDown t e s) s).durable = s.durable := by
  unfold execLinkDown resState
  (try dsimp only)
  (repeat' split) <;> simp

@[simp] theorem execSidebandCtl_kept (t : TileId) (e : EdgeId) (msg : List Byte) (s : State) :
    (resState (execSidebandCtl t e msg s) s).pending = s.pending ∧ (resState (execSidebandCtl t e msg s) s).man = s.man := by
  unfold execSidebandCtl resState
  (try dsimp only)
  (repeat' split) <;> simp

@[simp] theorem execSidebandCtl_wf (t : TileId) (e : EdgeId) (msg : List Byte) (s : State) (h : s.memOk = true) :
    (resState (execSidebandCtl t e msg s) s).memOk = true := by
  unfold execSidebandCtl resState
  (try dsimp only)
  (repeat' split) <;> simp (maxDischargeDepth := 60) [h]

@[simp] theorem execSleepReq_kept (t : TileId) (e : EdgeId) (s : State) :
    (resState (execSleepReq t e s) s).pending = s.pending ∧ (resState (execSleepReq t e s) s).man = s.man ∧ (resState (execSleepReq t e s) s).mem = s.mem ∧ (resState (execSleepReq t e s) s).durable = s.durable := by
  unfold execSleepReq resState
  (try dsimp only)
  (repeat' split) <;> simp

@[simp] theorem execSleepAck_kept (t : TileId) (e : EdgeId) (s : State) :
    (resState (execSleepAck t e s) s).pending = s.pending ∧ (resState (execSleepAck t e s) s).man = s.man ∧ (resState (execSleepAck t e s) s).durable = s.durable := by
  unfold execSleepAck resState
  (try dsimp only)
  (repeat' split) <;> simp

@[simp] theorem execSleepAck_wf (t : TileId) (e : EdgeId) (s : State) (h : s.memOk = true) :
    (resState (execSleepAck t e s) s).memOk = true := by
  unfold execSleepAck resState
  (try dsimp only)
  (repeat' split) <;> simp (maxDischargeDepth := 60) [h]

@[simp] theorem execSleepNak_kept (t : TileId) (e : EdgeId) (s : State) :
    (resState (execSleepNak t e s) s).pending = s.pending ∧ (resState (execSleepNak t e s) s).man = s.man ∧ (resState (execSleepNak t e s) s).mem = s.mem ∧ (resState (execSleepNak t e s) s).durable = s.durable := by
  unfold execSleepNak resState
  (try dsimp only)
  (repeat' split) <;> simp

@[simp] theorem sleepTimeoutEff_kept (t : TileId) (e : EdgeId) (s : State) :
    (sleepTimeoutEff t e s).pending = s.pending ∧ (sleepTimeoutEff t e s).man = s.man ∧ (sleepTimeoutEff t e s).mem = s.mem ∧ (sleepTimeoutEff t e s).durable = s.durable := by
  unfold sleepTimeoutEff
  (try dsimp only)
  (repeat' split) <;> simp

@[simp] theorem execSleepTimeout_kept (t : TileId) (e : EdgeId) (s : State) :
    (resState (execSleepTimeout t e s) s).pending = s.pending ∧ (resState (execSleepTimeout t e s) s).man = s.man ∧ (resState (execSleepTimeout t e s) s).mem = s.mem ∧ (resState (execSleepTimeout t e s) s).durable = s.durable := by
  unfold execSleepTimeout resState
  (try dsimp only)
  (repeat' split) <;> simp

@[simp] theorem execLeaveL1_kept (t : TileId) (e : EdgeId) (s : State) :
    (resState (execLeaveL1 t e s) s).pending = s.pending ∧ (resState (execLeaveL1 t e s) s).man = s.man ∧ (resState (execLeaveL1 t e s) s).mem = s.mem ∧ (resState (execLeaveL1 t e s) s).durable = s.durable := by
  unfold execLeaveL1 resState
  (try dsimp only)
  (repeat' split) <;> simp

end Sys2Proof.Machine
end

