-- ==== Sys2Proof/Laws/KeptPower.lean ====
section
/-! SUPPORT. What the operations of Machine/Power.lean leave as it was. -/

namespace Sys2Proof.Machine

@[simp] theorem execDomainEntry_kept (t : TileId) (d : DomId) (busy : Option (Fin 64)) (s : State) :
    (resState (execDomainEntry t d busy s) s).pending = s.pending ∧ (resState (execDomainEntry t d busy s) s).man = s.man ∧ (resState (execDomainEntry t d busy s) s).durable = s.durable := by
  unfold execDomainEntry resState
  (try dsimp only)
  (repeat' split) <;> simp

@[simp] theorem execDomainEntry_wf (t : TileId) (d : DomId) (busy : Option (Fin 64)) (s : State) (h : s.memOk = true) :
    (resState (execDomainEntry t d busy s) s).memOk = true := by
  unfold execDomainEntry resState
  (try dsimp only)
  (repeat' split) <;> simp (maxDischargeDepth := 60) [h]

@[simp] theorem execEntryRecheck_kept (t : TileId) (d : DomId) (busy : Option (Fin 64)) (s : State) :
    (resState (execEntryRecheck t d busy s) s).pending = s.pending ∧ (resState (execEntryRecheck t d busy s) s).man = s.man ∧ (resState (execEntryRecheck t d busy s) s).durable = s.durable := by
  unfold execEntryRecheck resState
  (try dsimp only)
  (repeat' split) <;> simp

@[simp] theorem execEntryRecheck_wf (t : TileId) (d : DomId) (busy : Option (Fin 64)) (s : State) (h : s.memOk = true) :
    (resState (execEntryRecheck t d busy s) s).memOk = true := by
  unfold execEntryRecheck resState
  (try dsimp only)
  (repeat' split) <;> simp (maxDischargeDepth := 60) [h]

@[simp] theorem State.release_kept (s : State) (t : TileId) (d : DomId) :
    (State.release s t d).pending = s.pending ∧ (State.release s t d).man = s.man := by
  unfold State.release
  (try dsimp only)
  (repeat' split) <;> simp

@[simp] theorem State.release_wf (s : State) (t : TileId) (d : DomId) (h : s.memOk = true) :
    (State.release s t d).memOk = true := by
  unfold State.release
  try dsimp only
  repeat' (first | assumption | (simp (maxDischargeDepth := 60) [h]; done) | (simp (maxDischargeDepth := 60) [*]; done) | split | refine foldl_memOk _ _ _ (fun _ _ _ => ?_) ?_)

@[simp] theorem execQuiesceTimeout_kept (t : TileId) (d : DomId) (agent : Fin 64) (s : State) :
    (resState (execQuiesceTimeout t d agent s) s).pending = s.pending ∧ (resState (execQuiesceTimeout t d agent s) s).man = s.man := by
  unfold execQuiesceTimeout resState
  (try dsimp only)
  (repeat' split) <;> simp

@[simp] theorem execQuiesceTimeout_wf (t : TileId) (d : DomId) (agent : Fin 64) (s : State) (h : s.memOk = true) :
    (resState (execQuiesceTimeout t d agent s) s).memOk = true := by
  unfold execQuiesceTimeout resState
  (try dsimp only)
  (repeat' split) <;> simp (maxDischargeDepth := 60) [h]

@[simp] theorem execLateWake_kept (t : TileId) (d : DomId) (s : State) :
    (resState (execLateWake t d s) s).pending = s.pending ∧ (resState (execLateWake t d s) s).man = s.man ∧ (resState (execLateWake t d s) s).mem = s.mem ∧ (resState (execLateWake t d s) s).durable = s.durable := by
  unfold execLateWake resState
  (try dsimp only)
  (repeat' split) <;> simp

@[simp] theorem execRampSlot_kept (t : TileId) (d : DomId) (s : State) :
    (resState (execRampSlot t d s) s).pending = s.pending ∧ (resState (execRampSlot t d s) s).man = s.man ∧ (resState (execRampSlot t d s) s).mem = s.mem ∧ (resState (execRampSlot t d s) s).durable = s.durable := by
  unfold execRampSlot resState
  (try dsimp only)
  (repeat' split) <;> simp

@[simp] theorem State.resetRegs_kept (s : State) (t : TileId) (d : DomId) :
    (State.resetRegs s t d).pending = s.pending ∧ (State.resetRegs s t d).man = s.man ∧ (State.resetRegs s t d).mem = s.mem ∧ (State.resetRegs s t d).durable = s.durable := by
  unfold State.resetRegs
  (try dsimp only)
  (repeat' split) <;> simp

@[simp] theorem State.checkRetention_kept (s : State) (t : TileId) (d : DomId) (parityError : Bool) (badBanks : List Nat) :
    (State.checkRetention s t d parityError badBanks).pending = s.pending ∧ (State.checkRetention s t d parityError badBanks).man = s.man ∧ (State.checkRetention s t d parityError badBanks).mem = s.mem ∧ (State.checkRetention s t d parityError badBanks).durable = s.durable := by
  unfold State.checkRetention
  (try dsimp only)
  (repeat' split) <;> simp

@[simp] theorem State.checkRetention_memOk (s : State) (t : TileId) (d : DomId) (parityError : Bool) (badBanks : List Nat) : (State.checkRetention s t d parityError badBanks).memOk = s.memOk := memOk_of_eq (by simp) (by simp)

@[simp] theorem domainWakeEff_kept (t : TileId) (d : DomId) (parityError : Bool) (badBanks : List Nat) (s : State) :
    (domainWakeEff t d parityError badBanks s).pending = s.pending ∧ (domainWakeEff t d parityError badBanks s).man = s.man := by
  unfold domainWakeEff
  (try dsimp only)
  (repeat' split) <;> simp

@[simp] theorem domainWakeEff_wf (t : TileId) (d : DomId) (parityError : Bool) (badBanks : List Nat) (s : State) (h : s.memOk = true) :
    (domainWakeEff t d parityError badBanks s).memOk = true := by
  unfold domainWakeEff
  (try dsimp only)
  (repeat' split) <;> simp (maxDischargeDepth := 60) [h]

@[simp] theorem execDomainWake_kept (t : TileId) (d : DomId) (parityError : Bool) (badBanks : List Nat) (s : State) :
    (resState (execDomainWake t d parityError badBanks s) s).pending = s.pending ∧ (resState (execDomainWake t d parityError badBanks s) s).man = s.man := by
  unfold execDomainWake resState
  (try dsimp only)
  (repeat' split) <;> simp

@[simp] theorem execDomainWake_wf (t : TileId) (d : DomId) (parityError : Bool) (badBanks : List Nat) (s : State) (h : s.memOk = true) :
    (resState (execDomainWake t d parityError badBanks s) s).memOk = true := by
  unfold execDomainWake resState
  (try dsimp only)
  (repeat' split) <;> simp (maxDischargeDepth := 60) [h]

@[simp] theorem State.holdOff_kept (s : State) (t : TileId) (c : Nat) :
    (State.holdOff s t c).pending = s.pending ∧ (State.holdOff s t c).man = s.man := by
  unfold State.holdOff
  (try dsimp only)
  (repeat' split) <;> simp

@[simp] theorem State.holdOff_wf (s : State) (t : TileId) (c : Nat) (h : s.memOk = true) :
    (State.holdOff s t c).memOk = true := by
  unfold State.holdOff
  (try dsimp only)
  (repeat' split) <;> simp (maxDischargeDepth := 60) [h]

@[simp] theorem State.wakeFailed_kept (s : State) (t : TileId) (d : DomId) (step : Nat) :
    (State.wakeFailed s t d step).pending = s.pending ∧ (State.wakeFailed s t d step).man = s.man := by
  unfold State.wakeFailed
  (try dsimp only)
  (repeat' split) <;> simp

@[simp] theorem State.wakeFailed_wf (s : State) (t : TileId) (d : DomId) (step : Nat) (h : s.memOk = true) :
    (State.wakeFailed s t d step).memOk = true := by
  unfold State.wakeFailed
  try dsimp only
  repeat' (first | assumption | (simp (maxDischargeDepth := 60) [h]; done) | (simp (maxDischargeDepth := 60) [*]; done) | split | refine foldl_memOk _ _ _ (fun _ _ _ => ?_) ?_)

@[simp] theorem wakeStepTimeoutEff_kept (t : TileId) (d : DomId) (step : Nat) (s : State) :
    (wakeStepTimeoutEff t d step s).pending = s.pending ∧ (wakeStepTimeoutEff t d step s).man = s.man := by
  unfold wakeStepTimeoutEff
  (try dsimp only)
  (repeat' split) <;> simp

@[simp] theorem wakeStepTimeoutEff_wf (t : TileId) (d : DomId) (step : Nat) (s : State) (h : s.memOk = true) :
    (wakeStepTimeoutEff t d step s).memOk = true := by
  unfold wakeStepTimeoutEff
  (try dsimp only)
  (repeat' split) <;> simp (maxDischargeDepth := 60) [h]

@[simp] theorem execWakeStepTimeout_kept (t : TileId) (d : DomId) (step : Fin 8) (s : State) :
    (resState (execWakeStepTimeout t d step s) s).pending = s.pending ∧ (resState (execWakeStepTimeout t d step s) s).man = s.man := by
  unfold execWakeStepTimeout resState
  (try dsimp only)
  (repeat' split) <;> simp

@[simp] theorem execWakeStepTimeout_wf (t : TileId) (d : DomId) (step : Fin 8) (s : State) (h : s.memOk = true) :
    (resState (execWakeStepTimeout t d step s) s).memOk = true := by
  unfold execWakeStepTimeout resState
  (try dsimp only)
  (repeat' split) <;> simp (maxDischargeDepth := 60) [h]

@[simp] theorem execWakeRetry_kept (t : TileId) (d : DomId) (s : State) :
    (resState (execWakeRetry t d s) s).pending = s.pending ∧ (resState (execWakeRetry t d s) s).man = s.man ∧ (resState (execWakeRetry t d s) s).mem = s.mem ∧ (resState (execWakeRetry t d s) s).durable = s.durable := by
  unfold execWakeRetry resState
  (try dsimp only)
  (repeat' split) <;> simp

@[simp] theorem execFabricVoteWithdraw_kept (t : TileId) (d : DomId) (s : State) :
    (resState (execFabricVoteWithdraw t d s) s).pending = s.pending ∧ (resState (execFabricVoteWithdraw t d s) s).man = s.man ∧ (resState (execFabricVoteWithdraw t d s) s).mem = s.mem ∧ (resState (execFabricVoteWithdraw t d s) s).durable = s.durable := by
  unfold execFabricVoteWithdraw resState
  (try dsimp only)
  (repeat' split) <;> simp

@[simp] theorem execSlIdleExpiry_kept (t : TileId) (k : Fin 4) (s : State) :
    (resState (execSlIdleExpiry t k s) s).pending = s.pending ∧ (resState (execSlIdleExpiry t k s) s).man = s.man ∧ (resState (execSlIdleExpiry t k s) s).mem = s.mem ∧ (resState (execSlIdleExpiry t k s) s).durable = s.durable := by
  unfold execSlIdleExpiry resState
  (try dsimp only)
  (repeat' split) <;> simp

end Sys2Proof.Machine
end

