-- ==== Sys2Proof/Laws/KeptMonitors.lean ====
section
/-! SUPPORT. What the operations of Machine/Monitors.lean leave as it was. -/

namespace Sys2Proof.Machine

@[simp] theorem State.thermtrip_kept (s : State) (t : TileId) :
    (State.thermtrip s t).pending = s.pending ∧ (State.thermtrip s t).man = s.man ∧ (State.thermtrip s t).mem = s.mem ∧ (State.thermtrip s t).durable = s.durable := by
  unfold State.thermtrip
  (try dsimp only)
  (repeat' split) <;> simp

@[simp] theorem thermalEff_kept (t : TileId) (temps : List Int) (s : State) :
    (thermalEff t temps s).pending = s.pending ∧ (thermalEff t temps s).man = s.man ∧ (thermalEff t temps s).mem = s.mem ∧ (thermalEff t temps s).durable = s.durable := by
  unfold thermalEff
  (try dsimp only)
  (repeat' split) <;> simp

@[simp] theorem execThermalSample_kept (t : TileId) (temps : List Int) (s : State) :
    (resState (execThermalSample t temps s) s).pending = s.pending ∧ (resState (execThermalSample t temps s) s).man = s.man ∧ (resState (execThermalSample t temps s) s).mem = s.mem ∧ (resState (execThermalSample t temps s) s).durable = s.durable := by
  unfold execThermalSample resState
  (try dsimp only)
  (repeat' split) <;> simp

@[simp] theorem execThrottleStep_kept (t : TileId) (s : State) :
    (resState (execThrottleStep t s) s).pending = s.pending ∧ (resState (execThrottleStep t s) s).man = s.man ∧ (resState (execThrottleStep t s) s).mem = s.mem ∧ (resState (execThrottleStep t s) s).durable = s.durable := by
  unfold execThrottleStep resState
  (try dsimp only)
  (repeat' split) <;> simp

@[simp] theorem execMonitorAverageWindowEnd_kept (t : TileId) (s : State) :
    (resState (execMonitorAverageWindowEnd t s) s).pending = s.pending ∧ (resState (execMonitorAverageWindowEnd t s) s).man = s.man ∧ (resState (execMonitorAverageWindowEnd t s) s).mem = s.mem ∧ (resState (execMonitorAverageWindowEnd t s) s).durable = s.durable := by
  unfold execMonitorAverageWindowEnd resState
  (try dsimp only)
  (repeat' split) <;> simp

@[simp] theorem execSupplySample_kept (t : TileId) (mv : List Nat) (s : State) :
    (resState (execSupplySample t mv s) s).pending = s.pending ∧ (resState (execSupplySample t mv s) s).man = s.man ∧ (resState (execSupplySample t mv s) s).mem = s.mem ∧ (resState (execSupplySample t mv s) s).durable = s.durable := by
  unfold execSupplySample resState
  (try dsimp only)
  (repeat' split) <;> simp

@[simp] theorem execProcessMonitorSample_kept (t : TileId) (counts : List Nat) (s : State) :
    (resState (execProcessMonitorSample t counts s) s).pending = s.pending ∧ (resState (execProcessMonitorSample t counts s) s).man = s.man ∧ (resState (execProcessMonitorSample t counts s) s).mem = s.mem ∧ (resState (execProcessMonitorSample t counts s) s).durable = s.durable := by
  unfold execProcessMonitorSample resState
  (try dsimp only)
  (repeat' split) <;> simp

@[simp] theorem execHbmTemperatureRead_kept (t : TileId) (c8 : Int) (s : State) :
    (resState (execHbmTemperatureRead t c8 s) s).pending = s.pending ∧ (resState (execHbmTemperatureRead t c8 s) s).man = s.man ∧ (resState (execHbmTemperatureRead t c8 s) s).mem = s.mem ∧ (resState (execHbmTemperatureRead t c8 s) s).durable = s.durable := by
  unfold execHbmTemperatureRead resState
  (try dsimp only)
  (repeat' split) <;> simp

@[simp] theorem execDroop_kept (t : TileId) (det : Fin 32) (s : State) :
    (resState (execDroop t det s) s).pending = s.pending ∧ (resState (execDroop t det s) s).man = s.man ∧ (resState (execDroop t det s) s).mem = s.mem ∧ (resState (execDroop t det s) s).durable = s.durable := by
  unfold execDroop resState
  (try dsimp only)
  (repeat' split) <;> simp

@[simp] theorem execDroopRelease_kept (t : TileId) (det : Fin 32) (s : State) :
    (resState (execDroopRelease t det s) s).pending = s.pending ∧ (resState (execDroopRelease t det s) s).man = s.man ∧ (resState (execDroopRelease t det s) s).mem = s.mem ∧ (resState (execDroopRelease t det s) s).durable = s.durable := by
  unfold execDroopRelease resState
  (try dsimp only)
  (repeat' split) <;> simp

@[simp] theorem execPmbAlert_kept (status : List Nat) (s : State) :
    (resState (execPmbAlert status s) s).pending = s.pending ∧ (resState (execPmbAlert status s) s).man = s.man ∧ (resState (execPmbAlert status s) s).mem = s.mem ∧ (resState (execPmbAlert status s) s).durable = s.durable := by
  unfold execPmbAlert resState
  (try dsimp only)
  (repeat' split) <;> simp

@[simp] theorem execPmbusReading_kept (rail mv ma : Nat) (s : State) :
    (resState (execPmbusReading rail mv ma s) s).pending = s.pending ∧ (resState (execPmbusReading rail mv ma s) s).man = s.man ∧ (resState (execPmbusReading rail mv ma s) s).mem = s.mem ∧ (resState (execPmbusReading rail mv ma s) s).durable = s.durable := by
  unfold execPmbusReading resState
  (try dsimp only)
  (repeat' split) <;> simp

@[simp] theorem State.nwTile_kept (s : State) (x : NwSample) :
    (State.nwTile s x).pending = s.pending ∧ (State.nwTile s x).man = s.man ∧ (State.nwTile s x).mem = s.mem ∧ (State.nwTile s x).durable = s.durable := by
  unfold State.nwTile
  (try dsimp only)
  (repeat' split) <;> simp

@[simp] theorem nightwatchEff_kept (samples : List NwSample) (s : State) :
    (nightwatchEff samples s).pending = s.pending ∧ (nightwatchEff samples s).man = s.man ∧ (nightwatchEff samples s).mem = s.mem ∧ (nightwatchEff samples s).durable = s.durable := by
  unfold nightwatchEff
  (try dsimp only)
  (repeat' split) <;> simp

@[simp] theorem execNightwatchPeriod_kept (samples : List NwSample) (s : State) :
    (resState (execNightwatchPeriod samples s) s).pending = s.pending ∧ (resState (execNightwatchPeriod samples s) s).man = s.man ∧ (resState (execNightwatchPeriod samples s) s).mem = s.mem ∧ (resState (execNightwatchPeriod samples s) s).durable = s.durable := by
  unfold execNightwatchPeriod resState
  (try dsimp only)
  (repeat' split) <;> simp

@[simp] theorem execNwEnter_kept (exitToo : Bool) (s : State) :
    (resState (execNwEnter exitToo s) s).pending = s.pending ∧ (resState (execNwEnter exitToo s) s).man = s.man ∧ (resState (execNwEnter exitToo s) s).mem = s.mem := by
  unfold execNwEnter resState
  (try dsimp only)
  (repeat' split) <;> simp

@[simp] theorem execNwEnter_wf (exitToo : Bool) (s : State) (h : s.memOk = true) :
    (resState (execNwEnter exitToo s) s).memOk = true := by
  unfold execNwEnter resState
  (try dsimp only)
  (repeat' split) <;> simp (maxDischargeDepth := 60) [h]

@[simp] theorem execNwExit_kept (enterToo : Bool) (s : State) :
    (resState (execNwExit enterToo s) s).pending = s.pending ∧ (resState (execNwExit enterToo s) s).man = s.man ∧ (resState (execNwExit enterToo s) s).mem = s.mem := by
  unfold execNwExit resState
  (try dsimp only)
  (repeat' split) <;> simp

@[simp] theorem execNwExit_wf (enterToo : Bool) (s : State) (h : s.memOk = true) :
    (resState (execNwExit enterToo s) s).memOk = true := by
  unfold execNwExit resState
  (try dsimp only)
  (repeat' split) <;> simp (maxDischargeDepth := 60) [h]

end Sys2Proof.Machine
end

