-- ==== Sys2Proof/Laws/KeptReset.lean ====
section
/-! SUPPORT. What the operations of Machine/Reset.lean leave as it was. -/

namespace Sys2Proof.Machine

@[simp] theorem State.cold_kept (s : State) (pins : Pins) :
    (State.cold s pins).pending = s.pending ∧ (State.cold s pins).man = s.man := by
  unfold State.cold
  (try dsimp only)
  (repeat' split) <;> simp

@[simp] theorem State.cold_wf (s : State) (pins : Pins) (h : s.memOk = true) :
    (State.cold s pins).memOk = true := by
  have w : Memory.wf s.survivors = true := memWriteCells_wf Memory.wf_nil _
  simp [State.cold, w]

@[simp] theorem execPwrokLow_kept (ns : Nat) (s : State) :
    (resState (execPwrokLow ns s) s).pending = s.pending ∧ (resState (execPwrokLow ns s) s).man = s.man := by
  unfold execPwrokLow resState
  (try dsimp only)
  (repeat' split) <;> simp

@[simp] theorem execPwrokLow_wf (ns : Nat) (s : State) (h : s.memOk = true) :
    (resState (execPwrokLow ns s) s).memOk = true := by
  unfold execPwrokLow resState
  (try dsimp only)
  (repeat' split) <;> simp (maxDischargeDepth := 60) [h]

@[simp] theorem execPkgResetNLow_kept (ns : Nat) (s : State) :
    (resState (execPkgResetNLow ns s) s).pending = s.pending ∧ (resState (execPkgResetNLow ns s) s).man = s.man := by
  unfold execPkgResetNLow resState
  (try dsimp only)
  (repeat' split) <;> simp

@[simp] theorem execPkgResetNLow_wf (ns : Nat) (s : State) (h : s.memOk = true) :
    (resState (execPkgResetNLow ns s) s).memOk = true := by
  unfold execPkgResetNLow resState
  (try dsimp only)
  (repeat' split) <;> simp (maxDischargeDepth := 60) [h]

@[simp] theorem State.readConfig_kept (s : State) :
    (State.readConfig s).pending = s.pending ∧ (State.readConfig s).man = s.man ∧ (State.readConfig s).mem = s.mem ∧ (State.readConfig s).durable = s.durable := by
  unfold State.readConfig
  (try dsimp only)
  (repeat' split) <;> simp

@[simp] theorem State.readConfig_memOk (s : State) : (State.readConfig s).memOk = s.memOk := memOk_of_eq (by simp) (by simp)

@[simp] theorem State.markDead_kept (s : State) (t : TileId) :
    (State.markDead s t).pending = s.pending ∧ (State.markDead s t).man = s.man ∧ (State.markDead s t).mem = s.mem ∧ (State.markDead s t).durable = s.durable := by
  unfold State.markDead
  (try dsimp only)
  (repeat' split) <;> simp

@[simp] theorem State.markDead_memOk (s : State) (t : TileId) : (State.markDead s t).memOk = s.memOk := memOk_of_eq (by simp) (by simp)

@[simp] theorem State.sampleStraps_kept (s : State) (b : BootSeen) :
    (State.sampleStraps s b).pending = s.pending ∧ (State.sampleStraps s b).man = s.man ∧ (State.sampleStraps s b).mem = s.mem ∧ (State.sampleStraps s b).durable = s.durable := by
  unfold State.sampleStraps
  (try dsimp only)
  (repeat' split) <;> simp

@[simp] theorem State.sampleStraps_memOk (s : State) (b : BootSeen) : (State.sampleStraps s b).memOk = s.memOk := memOk_of_eq (by simp) (by simp)

@[simp] theorem State.fenceMask_kept (s : State) (m : Nat) :
    (State.fenceMask s m).pending = s.pending ∧ (State.fenceMask s m).man = s.man ∧ (State.fenceMask s m).mem = s.mem := by
  unfold State.fenceMask
  (try dsimp only)
  (repeat' split) <;> simp

@[simp] theorem State.fenceMask_wf (s : State) (m : Nat) (h : s.memOk = true) :
    (State.fenceMask s m).memOk = true := by
  unfold State.fenceMask
  try dsimp only
  repeat' (first | assumption | (simp (maxDischargeDepth := 60) [h]; done) | (simp (maxDischargeDepth := 60) [*]; done) | split | refine foldl_memOk _ _ _ (fun _ _ _ => ?_) ?_)

@[simp] theorem State.allIn_kept (s : State) (m : Mode) :
    (State.allIn s m).pending = s.pending ∧ (State.allIn s m).man = s.man ∧ (State.allIn s m).mem = s.mem ∧ (State.allIn s m).durable = s.durable := by
  unfold State.allIn
  (try dsimp only)
  (repeat' split) <;> simp

@[simp] theorem State.allIn_memOk (s : State) (m : Mode) : (State.allIn s m).memOk = s.memOk := memOk_of_eq (by simp) (by simp)

@[simp] theorem State.bootLinks_kept (s : State) (k : Slot) :
    (State.bootLinks s k).pending = s.pending ∧ (State.bootLinks s k).man = s.man ∧ (State.bootLinks s k).mem = s.mem ∧ (State.bootLinks s k).durable = s.durable := by
  unfold State.bootLinks
  (try dsimp only)
  (repeat' split) <;> simp

@[simp] theorem State.bootLinks_memOk (s : State) (k : Slot) : (State.bootLinks s k).memOk = s.memOk := memOk_of_eq (by simp) (by simp)

@[simp] theorem State.loadImage_kept (s : State) (b : BootSeen) :
    (State.loadImage s b).pending = s.pending ∧ (State.loadImage s b).man = s.man ∧ (State.loadImage s b).mem = s.mem := by
  unfold State.loadImage
  (try dsimp only)
  (repeat' split) <;> simp

@[simp] theorem State.loadImage_wf (s : State) (b : BootSeen) (h : s.memOk = true) :
    (State.loadImage s b).memOk = true := by
  unfold State.loadImage
  (try dsimp only)
  (repeat' split) <;> simp (maxDischargeDepth := 60) [h]

@[simp] theorem State.wakeVoted_kept (s : State) :
    (State.wakeVoted s).pending = s.pending ∧ (State.wakeVoted s).man = s.man ∧ (State.wakeVoted s).mem = s.mem ∧ (State.wakeVoted s).durable = s.durable := by
  unfold State.wakeVoted
  (try dsimp only)
  (repeat' split) <;> simp

@[simp] theorem State.wakeVoted_memOk (s : State) : (State.wakeVoted s).memOk = s.memOk := memOk_of_eq (by simp) (by simp)

@[simp] theorem dawnEff_kept (b : BootSeen) (s : State) :
    (dawnEff b s).pending = s.pending ∧ (dawnEff b s).man = s.man ∧ (dawnEff b s).mem = s.mem := by
  unfold dawnEff
  (try dsimp only)
  (repeat' split) <;> simp

@[simp] theorem dawnEff_wf (b : BootSeen) (s : State) (h : s.memOk = true) :
    (dawnEff b s).memOk = true := by
  unfold dawnEff
  (try dsimp only)
  (repeat' split) <;> simp (maxDischargeDepth := 60) [h]

@[simp] theorem execPkgResetNRise_kept (b : BootSeen) (s : State) :
    (resState (execPkgResetNRise b s) s).pending = s.pending ∧ (resState (execPkgResetNRise b s) s).man = s.man ∧ (resState (execPkgResetNRise b s) s).mem = s.mem := by
  unfold execPkgResetNRise resState
  (try dsimp only)
  (repeat' split) <;> simp

@[simp] theorem execPkgResetNRise_wf (b : BootSeen) (s : State) (h : s.memOk = true) :
    (resState (execPkgResetNRise b s) s).memOk = true := by
  unfold execPkgResetNRise resState
  (try dsimp only)
  (repeat' split) <;> simp (maxDischargeDepth := 60) [h]

@[simp] theorem State.takeRoles_kept (s : State) :
    (State.takeRoles s).pending = s.pending ∧ (State.takeRoles s).man = s.man ∧ (State.takeRoles s).mem = s.mem ∧ (State.takeRoles s).durable = s.durable := by
  unfold State.takeRoles
  (try dsimp only)
  (repeat' split) <;> simp

@[simp] theorem State.takeRoles_memOk (s : State) : (State.takeRoles s).memOk = s.memOk := memOk_of_eq (by simp) (by simp)

@[simp] theorem State.trainLink_kept (s : State) (seen : List TileTrain) (t : TileId) (e : EdgeId) :
    (State.trainLink s seen t e).pending = s.pending ∧ (State.trainLink s seen t e).man = s.man ∧ (State.trainLink s seen t e).mem = s.mem ∧ (State.trainLink s seen t e).durable = s.durable := by
  unfold State.trainLink
  (try dsimp only)
  (repeat' split) <;> simp

@[simp] theorem State.trainLinks_kept (s : State) (seen : List TileTrain) :
    (State.trainLinks s seen).pending = s.pending ∧ (State.trainLinks s seen).man = s.man ∧ (State.trainLinks s seen).mem = s.mem ∧ (State.trainLinks s seen).durable = s.durable := by
  unfold State.trainLinks
  (try dsimp only)
  (repeat' split) <;> simp

@[simp] theorem State.trainLinks_memOk (s : State) (seen : List TileTrain) : (State.trainLinks s seen).memOk = s.memOk := memOk_of_eq (by simp) (by simp)

@[simp] theorem State.setRoutes_kept (s : State) :
    (State.setRoutes s).pending = s.pending ∧ (State.setRoutes s).man = s.man ∧ (State.setRoutes s).mem = s.mem ∧ (State.setRoutes s).durable = s.durable := by
  unfold State.setRoutes
  (try dsimp only)
  (repeat' split) <;> simp

@[simp] theorem State.setRoutes_memOk (s : State) : (State.setRoutes s).memOk = s.memOk := memOk_of_eq (by simp) (by simp)

@[simp] theorem State.insertExpanders_kept (s : State) (t : TileId) (seen : List ExpanderSeen) :
    (State.insertExpanders s t seen).pending = s.pending ∧ (State.insertExpanders s t seen).man = s.man := by
  unfold State.insertExpanders
  (try dsimp only)
  (repeat' split) <;> simp

@[simp] theorem State.insertExpanders_wf (s : State) (t : TileId) (seen : List ExpanderSeen) (h : s.memOk = true) :
    (State.insertExpanders s t seen).memOk = true := by
  have w {m : Mem} (hm : Memory.wf m = true) : Memory.wf (remapMem t (s.tile t).cxl (mapExpanders seen) seen m) = true :=
    memWriteCells_wf (memFilter_wf hm _) _
  simp [State.insertExpanders, w (wf_mem h), w (wf_durable h)]

@[simp] theorem State.trainMemory_kept (s : State) (seen : List TileTrain) (t : TileId) :
    (State.trainMemory s seen t).pending = s.pending ∧ (State.trainMemory s seen t).man = s.man := by
  unfold State.trainMemory
  (try dsimp only)
  (repeat' split) <;> simp

@[simp] theorem State.trainMemory_wf (s : State) (seen : List TileTrain) (t : TileId) (h : s.memOk = true) :
    (State.trainMemory s seen t).memOk = true := by
  unfold State.trainMemory
  (try dsimp only)
  (repeat' split) <;> simp (maxDischargeDepth := 60) [h]

@[simp] theorem State.fenceFailed_kept (s : State) (seen : List TileTrain) (t : TileId) :
    (State.fenceFailed s seen t).pending = s.pending ∧ (State.fenceFailed s seen t).man = s.man ∧ (State.fenceFailed s seen t).mem = s.mem := by
  unfold State.fenceFailed
  (try dsimp only)
  (repeat' split) <;> simp

@[simp] theorem State.fenceFailed_wf (s : State) (seen : List TileTrain) (t : TileId) (h : s.memOk = true) :
    (State.fenceFailed s seen t).memOk = true := by
  unfold State.fenceFailed
  (try dsimp only)
  (repeat' split) <;> simp (maxDischargeDepth := 60) [h]

@[simp] theorem State.loadSeg_kept (s : State) (r : DirAt) :
    (State.loadSeg s r).pending = s.pending ∧ (State.loadSeg s r).man = s.man ∧ (State.loadSeg s r).mem = s.mem ∧ (State.loadSeg s r).durable = s.durable := by
  unfold State.loadSeg
  (try dsimp only)
  (repeat' split) <;> simp

@[simp] theorem State.loadSeg_memOk (s : State) (r : DirAt) : (State.loadSeg s r).memOk = s.memOk := memOk_of_eq (by simp) (by simp)

@[simp] theorem State.dropRecord_kept (s : State) (r : DirAt) :
    (State.dropRecord s r).pending = s.pending ∧ (State.dropRecord s r).man = s.man := by
  unfold State.dropRecord
  (try dsimp only)
  (repeat' split) <;> simp

@[simp] theorem State.dropRecord_wf (s : State) (r : DirAt) (h : s.memOk = true) :
    (State.dropRecord s r).memOk = true := by
  unfold State.dropRecord
  (try dsimp only)
  (repeat' split) <;> simp (maxDischargeDepth := 60) [h]

@[simp] theorem State.readDirs_kept (s : State) :
    (State.readDirs s).pending = s.pending ∧ (State.readDirs s).man = s.man := by
  unfold State.readDirs
  (try dsimp only)
  (repeat' split) <;> simp

@[simp] theorem State.readDirs_wf (s : State) (h : s.memOk = true) :
    (State.readDirs s).memOk = true := by
  unfold State.readDirs
  try dsimp only
  repeat' (first | assumption | (simp (maxDischargeDepth := 60) [h]; done) | (simp (maxDischargeDepth := 60) [*]; done) | split | refine foldl_memOk _ _ _ (fun _ _ _ => ?_) ?_)

@[simp] theorem State.rewriteConfig_kept (s : State) :
    (State.rewriteConfig s).pending = s.pending ∧ (State.rewriteConfig s).man = s.man ∧ (State.rewriteConfig s).mem = s.mem ∧ (State.rewriteConfig s).durable = s.durable := by
  unfold State.rewriteConfig
  (try dsimp only)
  (repeat' split) <;> simp

@[simp] theorem State.rewriteConfig_memOk (s : State) : (State.rewriteConfig s).memOk = s.memOk := memOk_of_eq (by simp) (by simp)

@[simp] theorem State.finishTrain_kept (s : State) :
    (State.finishTrain s).pending = s.pending ∧ (State.finishTrain s).man = s.man ∧ (State.finishTrain s).mem = s.mem ∧ (State.finishTrain s).durable = s.durable := by
  unfold State.finishTrain
  (try dsimp only)
  (repeat' split) <;> simp

@[simp] theorem State.finishTrain_memOk (s : State) : (State.finishTrain s).memOk = s.memOk := memOk_of_eq (by simp) (by simp)

@[simp] theorem trainEff_kept (seen : List TileTrain) (s : State) :
    (trainEff seen s).pending = s.pending ∧ (trainEff seen s).man = s.man := by
  unfold trainEff
  (try dsimp only)
  (repeat' split) <;> simp

@[simp] theorem trainEff_wf (seen : List TileTrain) (s : State) (h : s.memOk = true) :
    (trainEff seen s).memOk = true := by
  unfold trainEff
  (try dsimp only)
  (repeat' split) <;> simp_all (maxDischargeDepth := 60)

@[simp] theorem execTrainSequence_kept (seen : List TileTrain) (s : State) :
    (resState (execTrainSequence seen s) s).pending = s.pending ∧ (resState (execTrainSequence seen s) s).man = s.man := by
  unfold execTrainSequence resState
  (try dsimp only)
  (repeat' split) <;> simp

@[simp] theorem execTrainSequence_wf (seen : List TileTrain) (s : State) (h : s.memOk = true) :
    (resState (execTrainSequence seen s) s).memOk = true := by
  unfold execTrainSequence resState
  (try dsimp only)
  (repeat' split) <;> simp (maxDischargeDepth := 60) [h]

@[simp] theorem State.setHostLink_kept (s : State) (t : TileId) (up : Bool) :
    (State.setHostLink s t up).pending = s.pending ∧ (State.setHostLink s t up).man = s.man ∧ (State.setHostLink s t up).mem = s.mem ∧ (State.setHostLink s t up).durable = s.durable := by
  unfold State.setHostLink
  (try dsimp only)
  (repeat' split) <;> simp

@[simp] theorem State.setHostLink_memOk (s : State) (t : TileId) (up : Bool) : (State.setHostLink s t up).memOk = s.memOk := memOk_of_eq (by simp) (by simp)

@[simp] theorem State.portQueues_kept (s : State) (t : TileId) :
    (State.portQueues s t).pending = s.pending ∧ (State.portQueues s t).man = s.man ∧ (State.portQueues s t).mem = s.mem := by
  unfold State.portQueues
  (try dsimp only)
  (repeat' split) <;> simp

@[simp] theorem State.portQueues_wf (s : State) (t : TileId) (h : s.memOk = true) :
    (State.portQueues s t).memOk = true := by
  unfold State.portQueues
  (try dsimp only)
  (repeat' split) <;> simp (maxDischargeDepth := 60) [h]

@[simp] theorem State.resetMsix_kept (s : State) (t : TileId) :
    (State.resetMsix s t).pending = s.pending ∧ (State.resetMsix s t).man = s.man ∧ (State.resetMsix s t).mem = s.mem ∧ (State.resetMsix s t).durable = s.durable := by
  unfold State.resetMsix
  (try dsimp only)
  (repeat' split) <;> simp

@[simp] theorem State.resetMsix_memOk (s : State) (t : TileId) : (State.resetMsix s t).memOk = s.memOk := memOk_of_eq (by simp) (by simp)

@[simp] theorem State.maskMsix_kept (s : State) (t : TileId) (masked : List Nat) :
    (State.maskMsix s t masked).pending = s.pending ∧ (State.maskMsix s t masked).man = s.man ∧ (State.maskMsix s t masked).mem = s.mem ∧ (State.maskMsix s t masked).durable = s.durable := by
  unfold State.maskMsix
  (try dsimp only)
  (repeat' split) <;> simp

@[simp] theorem execPerstNLow_kept (t : TileId) (ns : Nat) (s : State) :
    (resState (execPerstNLow t ns s) s).pending = s.pending ∧ (resState (execPerstNLow t ns s) s).man = s.man ∧ (resState (execPerstNLow t ns s) s).mem = s.mem := by
  unfold execPerstNLow resState
  (try dsimp only)
  (repeat' split) <;> simp

@[simp] theorem execPerstNLow_wf (t : TileId) (ns : Nat) (s : State) (h : s.memOk = true) :
    (resState (execPerstNLow t ns s) s).memOk = true := by
  unfold execPerstNLow resState
  (try dsimp only)
  (repeat' split) <;> simp (maxDischargeDepth := 60) [h]

@[simp] theorem execPerstNRise_kept (t : TileId) (s : State) :
    (resState (execPerstNRise t s) s).pending = s.pending ∧ (resState (execPerstNRise t s) s).man = s.man ∧ (resState (execPerstNRise t s) s).mem = s.mem ∧ (resState (execPerstNRise t s) s).durable = s.durable := by
  unfold execPerstNRise resState
  (try dsimp only)
  (repeat' split) <;> simp

@[simp] theorem execHostLinkUp_kept (up : LinkSeen) (s : State) :
    (resState (execHostLinkUp up s) s).pending = s.pending ∧ (resState (execHostLinkUp up s) s).man = s.man ∧ (resState (execHostLinkUp up s) s).mem = s.mem ∧ (resState (execHostLinkUp up s) s).durable = s.durable := by
  unfold execHostLinkUp resState
  (try dsimp only)
  (repeat' split) <;> simp

@[simp] theorem execHostLinkDown_kept (t : TileId) (s : State) :
    (resState (execHostLinkDown t s) s).pending = s.pending ∧ (resState (execHostLinkDown t s) s).man = s.man ∧ (resState (execHostLinkDown t s) s).mem = s.mem ∧ (resState (execHostLinkDown t s) s).durable = s.durable := by
  unfold execHostLinkDown resState
  (try dsimp only)
  (repeat' split) <;> simp

@[simp] theorem execLockstep_kept (t : TileId) (s : State) :
    (resState (execLockstep t s) s).pending = s.pending ∧ (resState (execLockstep t s) s).man = s.man ∧ (resState (execLockstep t s) s).mem = s.mem := by
  unfold execLockstep resState
  (try dsimp only)
  (repeat' split) <;> simp

@[simp] theorem execLockstep_wf (t : TileId) (s : State) (h : s.memOk = true) :
    (resState (execLockstep t s) s).memOk = true := by
  unfold execLockstep resState
  (try dsimp only)
  (repeat' split) <;> simp (maxDischargeDepth := 60) [h]

@[simp] theorem execAonUncorrectable_kept (t : TileId) (s : State) :
    (resState (execAonUncorrectable t s) s).pending = s.pending ∧ (resState (execAonUncorrectable t s) s).man = s.man ∧ (resState (execAonUncorrectable t s) s).mem = s.mem ∧ (resState (execAonUncorrectable t s) s).durable = s.durable := by
  unfold execAonUncorrectable resState
  (try dsimp only)
  (repeat' split) <;> simp

end Sys2Proof.Machine
end

