-- ==== Sys2Proof/Laws/KeptMgmt.lean ====
section
/-! SUPPORT. What the operations of Machine/Mgmt.lean leave as it was. -/

namespace Sys2Proof.Machine

@[simp] theorem State.reply_kept (s : State) (b : MgmtBinding) (c : Code) (body : List Byte) :
    (State.reply s b c body).pending = s.pending ∧ (State.reply s b c body).man = s.man ∧ (State.reply s b c body).mem = s.mem ∧ (State.reply s b c body).durable = s.durable := by
  unfold State.reply
  (try dsimp only)
  (repeat' split) <;> simp

@[simp] theorem State.reply_memOk (s : State) (b : MgmtBinding) (c : Code) (body : List Byte) : (State.reply s b c body).memOk = s.memOk := memOk_of_eq (by simp) (by simp)

@[simp] theorem State.served_pending (s : State) (b : MgmtBinding) (f : State → State) (hf : ∀ s, (f s).pending = s.pending) : (State.served s b f).pending = s.pending := by
  unfold State.served
  (try dsimp only)
  (repeat' split) <;> simp [hf]

@[simp] theorem State.served_man (s : State) (b : MgmtBinding) (f : State → State) (hf : ∀ s, (f s).man = s.man) : (State.served s b f).man = s.man := by
  unfold State.served
  (try dsimp only)
  (repeat' split) <;> simp [hf]

@[simp] theorem State.served_mem (s : State) (b : MgmtBinding) (f : State → State) (hf : ∀ s, (f s).mem = s.mem) : (State.served s b f).mem = s.mem := by
  unfold State.served
  (try dsimp only)
  (repeat' split) <;> simp [hf]

@[simp] theorem State.served_durable (s : State) (b : MgmtBinding) (f : State → State) (hf : ∀ s, (f s).durable = s.durable) : (State.served s b f).durable = s.durable := by
  unfold State.served
  (try dsimp only)
  (repeat' split) <;> simp [hf]

@[simp] theorem execMctpControl_kept (b : MgmtBinding) (req : List Byte) (s : State) :
    (resState (execMctpControl b req s) s).pending = s.pending ∧ (resState (execMctpControl b req s) s).man = s.man ∧ (resState (execMctpControl b req s) s).mem = s.mem ∧ (resState (execMctpControl b req s) s).durable = s.durable := by
  unfold execMctpControl resState
  (try dsimp only)
  (repeat' split) <;> simp

@[simp] theorem execPldmSensorRead_kept (b : MgmtBinding) (id : Nat) (s : State) :
    (resState (execPldmSensorRead b id s) s).pending = s.pending ∧ (resState (execPldmSensorRead b id s) s).man = s.man ∧ (resState (execPldmSensorRead b id s) s).mem = s.mem ∧ (resState (execPldmSensorRead b id s) s).durable = s.durable := by
  unfold execPldmSensorRead resState
  (try dsimp only)
  (repeat' split) <;> simp

@[simp] theorem execPowerLimitEffecter_kept (b : MgmtBinding) (watts : Nat) (s : State) :
    (resState (execPowerLimitEffecter b watts s) s).pending = s.pending ∧ (resState (execPowerLimitEffecter b watts s) s).man = s.man ∧ (resState (execPowerLimitEffecter b watts s) s).mem = s.mem ∧ (resState (execPowerLimitEffecter b watts s) s).durable = s.durable := by
  unfold execPowerLimitEffecter resState
  (try dsimp only)
  (repeat' split) <;> simp

@[simp] theorem execModeEffecter_kept (b : MgmtBinding) (mode : Nat) (s : State) :
    (resState (execModeEffecter b mode s) s).pending = s.pending ∧ (resState (execModeEffecter b mode s) s).man = s.man ∧ (resState (execModeEffecter b mode s) s).mem = s.mem ∧ (resState (execModeEffecter b mode s) s).durable = s.durable := by
  unfold execModeEffecter resState
  (try dsimp only)
  (repeat' split) <;> simp

@[simp] theorem execReadEvidence_kept (b : MgmtBinding) (off len : Nat) (s : State) :
    (resState (execReadEvidence b off len s) s).pending = s.pending ∧ (resState (execReadEvidence b off len s) s).man = s.man ∧ (resState (execReadEvidence b off len s) s).mem = s.mem ∧ (resState (execReadEvidence b off len s) s).durable = s.durable := by
  unfold execReadEvidence resState
  (try dsimp only)
  (repeat' split) <;> simp

@[simp] theorem execSetMgmtVote_kept (b : MgmtBinding) (tile domain vote : Nat) (s : State) :
    (resState (execSetMgmtVote b tile domain vote s) s).pending = s.pending ∧ (resState (execSetMgmtVote b tile domain vote s) s).man = s.man ∧ (resState (execSetMgmtVote b tile domain vote s) s).mem = s.mem ∧ (resState (execSetMgmtVote b tile domain vote s) s).durable = s.durable := by
  unfold execSetMgmtVote resState
  (try dsimp only)
  (repeat' split) <;> simp

@[simp] theorem execGetGpio_kept (b : MgmtBinding) (levels : Byte) (s : State) :
    (resState (execGetGpio b levels s) s).pending = s.pending ∧ (resState (execGetGpio b levels s) s).man = s.man ∧ (resState (execGetGpio b levels s) s).mem = s.mem ∧ (resState (execGetGpio b levels s) s).durable = s.durable := by
  unfold execGetGpio resState
  (try dsimp only)
  (repeat' split) <;> simp

@[simp] theorem execSetGpio_kept (b : MgmtBinding) (mask value levels : Byte) (s : State) :
    (resState (execSetGpio b mask value levels s) s).pending = s.pending ∧ (resState (execSetGpio b mask value levels s) s).man = s.man ∧ (resState (execSetGpio b mask value levels s) s).mem = s.mem ∧ (resState (execSetGpio b mask value levels s) s).durable = s.durable := by
  unfold execSetGpio resState
  (try dsimp only)
  (repeat' split) <;> simp

@[simp] theorem State.agentSpoke_kept (s : State) :
    (State.agentSpoke s).pending = s.pending ∧ (State.agentSpoke s).man = s.man ∧ (State.agentSpoke s).mem = s.mem ∧ (State.agentSpoke s).durable = s.durable := by
  unfold State.agentSpoke
  (try dsimp only)
  (repeat' split) <;> simp

@[simp] theorem execRequestUpdate_kept (b : MgmtBinding) (s : State) :
    (resState (execRequestUpdate b s) s).pending = s.pending ∧ (resState (execRequestUpdate b s) s).man = s.man ∧ (resState (execRequestUpdate b s) s).mem = s.mem ∧ (resState (execRequestUpdate b s) s).durable = s.durable := by
  unfold execRequestUpdate resState
  (try dsimp only)
  (repeat' split) <;> simp

@[simp] theorem execFirmwareComponentTransfer_kept (b : MgmtBinding) (off : Nat) (data : List Byte) (last : Bool) (s : State) :
    (resState (execFirmwareComponentTransfer b off data last s) s).pending = s.pending ∧ (resState (execFirmwareComponentTransfer b off data last s) s).man = s.man ∧ (resState (execFirmwareComponentTransfer b off data last s) s).mem = s.mem ∧ (resState (execFirmwareComponentTransfer b off data last s) s).durable = s.durable := by
  unfold execFirmwareComponentTransfer resState
  (try dsimp only)
  (repeat' split) <;> simp

@[simp] theorem execActivateFirmware_kept (b : MgmtBinding) (selfContained : Bool) (s : State) :
    (resState (execActivateFirmware b selfContained s) s).pending = s.pending ∧ (resState (execActivateFirmware b selfContained s) s).man = s.man ∧ (resState (execActivateFirmware b selfContained s) s).mem = s.mem ∧ (resState (execActivateFirmware b selfContained s) s).durable = s.durable := by
  unfold execActivateFirmware resState
  (try dsimp only)
  (repeat' split) <;> simp

@[simp] theorem execCancelUpdate_kept (b : MgmtBinding) (s : State) :
    (resState (execCancelUpdate b s) s).pending = s.pending ∧ (resState (execCancelUpdate b s) s).man = s.man ∧ (resState (execCancelUpdate b s) s).mem = s.mem ∧ (resState (execCancelUpdate b s) s).durable = s.durable := by
  unfold execCancelUpdate resState
  (try dsimp only)
  (repeat' split) <;> simp

@[simp] theorem execUpdateModeTimeout_kept (s : State) :
    (resState (execUpdateModeTimeout s) s).pending = s.pending ∧ (resState (execUpdateModeTimeout s) s).man = s.man ∧ (resState (execUpdateModeTimeout s) s).mem = s.mem ∧ (resState (execUpdateModeTimeout s) s).durable = s.durable := by
  unfold execUpdateModeTimeout resState
  (try dsimp only)
  (repeat' split) <;> simp

end Sys2Proof.Machine
end

