-- ==== Sys2Proof/Laws/KeptSumenScalar.lean ====
section
/-! SUPPORT. What the operations of Machine/SumenScalar.lean leave as it was. -/

namespace Sys2Proof.Machine

@[simp] theorem State.xOp_kept (s : State) (k : CoreId) (rd ra rb : RegNo) (f : Word64 → Word64 → Word64) :
    (resState (State.xOp s k rd ra rb f) s).pending = s.pending ∧ (resState (State.xOp s k rd ra rb f) s).man = s.man ∧ (resState (State.xOp s k rd ra rb f) s).mem = s.mem ∧ (resState (State.xOp s k rd ra rb f) s).durable = s.durable := by
  unfold State.xOp resState
  (try dsimp only)
  (repeat' split) <;> simp

@[simp] theorem State.xDiv_kept (s : State) (k : CoreId) (rd ra rb : RegNo) (f : Word64 → Word64 → Word64) :
    (resState (State.xDiv s k rd ra rb f) s).pending = s.pending ∧ (resState (State.xDiv s k rd ra rb f) s).man = s.man ∧ (resState (State.xDiv s k rd ra rb f) s).mem = s.mem ∧ (resState (State.xDiv s k rd ra rb f) s).durable = s.durable := by
  unfold State.xDiv resState
  (try dsimp only)
  (repeat' split) <;> simp

@[simp] theorem State.xImm_kept (s : State) (k : CoreId) (rd ra : RegNo) (v : Word64) (f : Word64 → Word64 → Word64) :
    (resState (State.xImm s k rd ra v f) s).pending = s.pending ∧ (resState (State.xImm s k rd ra v f) s).man = s.man ∧ (resState (State.xImm s k rd ra v f) s).mem = s.mem ∧ (resState (State.xImm s k rd ra v f) s).durable = s.durable := by
  unfold State.xImm resState
  (try dsimp only)
  (repeat' split) <;> simp

@[simp] theorem execAdd_kept (k : CoreId) (rd ra rb : RegNo) (s : State) :
    (resState (execAdd k rd ra rb s) s).pending = s.pending ∧ (resState (execAdd k rd ra rb s) s).man = s.man ∧ (resState (execAdd k rd ra rb s) s).mem = s.mem ∧ (resState (execAdd k rd ra rb s) s).durable = s.durable := by
  simp [execAdd]

@[simp] theorem execSub_kept (k : CoreId) (rd ra rb : RegNo) (s : State) :
    (resState (execSub k rd ra rb s) s).pending = s.pending ∧ (resState (execSub k rd ra rb s) s).man = s.man ∧ (resState (execSub k rd ra rb s) s).mem = s.mem ∧ (resState (execSub k rd ra rb s) s).durable = s.durable := by
  simp [execSub]

@[simp] theorem execAnd_kept (k : CoreId) (rd ra rb : RegNo) (s : State) :
    (resState (execAnd k rd ra rb s) s).pending = s.pending ∧ (resState (execAnd k rd ra rb s) s).man = s.man ∧ (resState (execAnd k rd ra rb s) s).mem = s.mem ∧ (resState (execAnd k rd ra rb s) s).durable = s.durable := by
  simp [execAnd]

@[simp] theorem execOr_kept (k : CoreId) (rd ra rb : RegNo) (s : State) :
    (resState (execOr k rd ra rb s) s).pending = s.pending ∧ (resState (execOr k rd ra rb s) s).man = s.man ∧ (resState (execOr k rd ra rb s) s).mem = s.mem ∧ (resState (execOr k rd ra rb s) s).durable = s.durable := by
  simp [execOr]

@[simp] theorem execXor_kept (k : CoreId) (rd ra rb : RegNo) (s : State) :
    (resState (execXor k rd ra rb s) s).pending = s.pending ∧ (resState (execXor k rd ra rb s) s).man = s.man ∧ (resState (execXor k rd ra rb s) s).mem = s.mem ∧ (resState (execXor k rd ra rb s) s).durable = s.durable := by
  simp [execXor]

@[simp] theorem execSll_kept (k : CoreId) (rd ra rb : RegNo) (s : State) :
    (resState (execSll k rd ra rb s) s).pending = s.pending ∧ (resState (execSll k rd ra rb s) s).man = s.man ∧ (resState (execSll k rd ra rb s) s).mem = s.mem ∧ (resState (execSll k rd ra rb s) s).durable = s.durable := by
  simp [execSll]

@[simp] theorem execSrl_kept (k : CoreId) (rd ra rb : RegNo) (s : State) :
    (resState (execSrl k rd ra rb s) s).pending = s.pending ∧ (resState (execSrl k rd ra rb s) s).man = s.man ∧ (resState (execSrl k rd ra rb s) s).mem = s.mem ∧ (resState (execSrl k rd ra rb s) s).durable = s.durable := by
  simp [execSrl]

@[simp] theorem execSra_kept (k : CoreId) (rd ra rb : RegNo) (s : State) :
    (resState (execSra k rd ra rb s) s).pending = s.pending ∧ (resState (execSra k rd ra rb s) s).man = s.man ∧ (resState (execSra k rd ra rb s) s).mem = s.mem ∧ (resState (execSra k rd ra rb s) s).durable = s.durable := by
  simp [execSra]

@[simp] theorem execSlt_kept (k : CoreId) (rd ra rb : RegNo) (s : State) :
    (resState (execSlt k rd ra rb s) s).pending = s.pending ∧ (resState (execSlt k rd ra rb s) s).man = s.man ∧ (resState (execSlt k rd ra rb s) s).mem = s.mem ∧ (resState (execSlt k rd ra rb s) s).durable = s.durable := by
  simp [execSlt]

@[simp] theorem execSltu_kept (k : CoreId) (rd ra rb : RegNo) (s : State) :
    (resState (execSltu k rd ra rb s) s).pending = s.pending ∧ (resState (execSltu k rd ra rb s) s).man = s.man ∧ (resState (execSltu k rd ra rb s) s).mem = s.mem ∧ (resState (execSltu k rd ra rb s) s).durable = s.durable := by
  simp [execSltu]

@[simp] theorem execMul_kept (k : CoreId) (rd ra rb : RegNo) (s : State) :
    (resState (execMul k rd ra rb s) s).pending = s.pending ∧ (resState (execMul k rd ra rb s) s).man = s.man ∧ (resState (execMul k rd ra rb s) s).mem = s.mem ∧ (resState (execMul k rd ra rb s) s).durable = s.durable := by
  simp [execMul]

@[simp] theorem execMulh_kept (k : CoreId) (rd ra rb : RegNo) (s : State) :
    (resState (execMulh k rd ra rb s) s).pending = s.pending ∧ (resState (execMulh k rd ra rb s) s).man = s.man ∧ (resState (execMulh k rd ra rb s) s).mem = s.mem ∧ (resState (execMulh k rd ra rb s) s).durable = s.durable := by
  simp [execMulh]

@[simp] theorem execMulhu_kept (k : CoreId) (rd ra rb : RegNo) (s : State) :
    (resState (execMulhu k rd ra rb s) s).pending = s.pending ∧ (resState (execMulhu k rd ra rb s) s).man = s.man ∧ (resState (execMulhu k rd ra rb s) s).mem = s.mem ∧ (resState (execMulhu k rd ra rb s) s).durable = s.durable := by
  simp [execMulhu]

@[simp] theorem execDiv_kept (k : CoreId) (rd ra rb : RegNo) (s : State) :
    (resState (execDiv k rd ra rb s) s).pending = s.pending ∧ (resState (execDiv k rd ra rb s) s).man = s.man ∧ (resState (execDiv k rd ra rb s) s).mem = s.mem ∧ (resState (execDiv k rd ra rb s) s).durable = s.durable := by
  simp [execDiv]

@[simp] theorem execDivu_kept (k : CoreId) (rd ra rb : RegNo) (s : State) :
    (resState (execDivu k rd ra rb s) s).pending = s.pending ∧ (resState (execDivu k rd ra rb s) s).man = s.man ∧ (resState (execDivu k rd ra rb s) s).mem = s.mem ∧ (resState (execDivu k rd ra rb s) s).durable = s.durable := by
  simp [execDivu]

@[simp] theorem execRem_kept (k : CoreId) (rd ra rb : RegNo) (s : State) :
    (resState (execRem k rd ra rb s) s).pending = s.pending ∧ (resState (execRem k rd ra rb s) s).man = s.man ∧ (resState (execRem k rd ra rb s) s).mem = s.mem ∧ (resState (execRem k rd ra rb s) s).durable = s.durable := by
  simp [execRem]

@[simp] theorem execRemu_kept (k : CoreId) (rd ra rb : RegNo) (s : State) :
    (resState (execRemu k rd ra rb s) s).pending = s.pending ∧ (resState (execRemu k rd ra rb s) s).man = s.man ∧ (resState (execRemu k rd ra rb s) s).mem = s.mem ∧ (resState (execRemu k rd ra rb s) s).durable = s.durable := by
  simp [execRemu]

@[simp] theorem execAddi_kept (k : CoreId) (rd ra : RegNo) (imm : BitVec 16) (s : State) :
    (resState (execAddi k rd ra imm s) s).pending = s.pending ∧ (resState (execAddi k rd ra imm s) s).man = s.man ∧ (resState (execAddi k rd ra imm s) s).mem = s.mem ∧ (resState (execAddi k rd ra imm s) s).durable = s.durable := by
  simp [execAddi]

@[simp] theorem execAndi_kept (k : CoreId) (rd ra : RegNo) (imm : BitVec 16) (s : State) :
    (resState (execAndi k rd ra imm s) s).pending = s.pending ∧ (resState (execAndi k rd ra imm s) s).man = s.man ∧ (resState (execAndi k rd ra imm s) s).mem = s.mem ∧ (resState (execAndi k rd ra imm s) s).durable = s.durable := by
  simp [execAndi]

@[simp] theorem execOri_kept (k : CoreId) (rd ra : RegNo) (imm : BitVec 16) (s : State) :
    (resState (execOri k rd ra imm s) s).pending = s.pending ∧ (resState (execOri k rd ra imm s) s).man = s.man ∧ (resState (execOri k rd ra imm s) s).mem = s.mem ∧ (resState (execOri k rd ra imm s) s).durable = s.durable := by
  simp [execOri]

@[simp] theorem execXori_kept (k : CoreId) (rd ra : RegNo) (imm : BitVec 16) (s : State) :
    (resState (execXori k rd ra imm s) s).pending = s.pending ∧ (resState (execXori k rd ra imm s) s).man = s.man ∧ (resState (execXori k rd ra imm s) s).mem = s.mem ∧ (resState (execXori k rd ra imm s) s).durable = s.durable := by
  simp [execXori]

@[simp] theorem execLui_kept (k : CoreId) (rd : RegNo) (imm : BitVec 16) (s : State) :
    (resState (execLui k rd imm s) s).pending = s.pending ∧ (resState (execLui k rd imm s) s).man = s.man ∧ (resState (execLui k rd imm s) s).mem = s.mem ∧ (resState (execLui k rd imm s) s).durable = s.durable := by
  unfold execLui resState
  (try dsimp only)
  (repeat' split) <;> simp

@[simp] theorem State.jump_kept (s : State) (k : CoreId) (rd : Option RegNo) (f : Core → Word64) :
    (resState (State.jump s k rd f) s).pending = s.pending ∧ (resState (State.jump s k rd f) s).man = s.man ∧ (resState (State.jump s k rd f) s).mem = s.mem ∧ (resState (State.jump s k rd f) s).durable = s.durable := by
  unfold State.jump resState
  (try dsimp only)
  (repeat' split) <;> simp

@[simp] theorem State.branch_kept (s : State) (k : CoreId) (ra rb : RegNo) (off : BitVec 16) (p : Word64 → Word64 → Bool) :
    (resState (State.branch s k ra rb off p) s).pending = s.pending ∧ (resState (State.branch s k ra rb off p) s).man = s.man ∧ (resState (State.branch s k ra rb off p) s).mem = s.mem ∧ (resState (State.branch s k ra rb off p) s).durable = s.durable := by
  unfold State.branch resState
  (try dsimp only)
  (repeat' split) <;> simp

@[simp] theorem execJr_kept (k : CoreId) (rd ra : RegNo) (s : State) :
    (resState (execJr k rd ra s) s).pending = s.pending ∧ (resState (execJr k rd ra s) s).man = s.man ∧ (resState (execJr k rd ra s) s).mem = s.mem ∧ (resState (execJr k rd ra s) s).durable = s.durable := by
  simp [execJr]

@[simp] theorem execJmp_kept (k : CoreId) (off : BitVec 26) (s : State) :
    (resState (execJmp k off s) s).pending = s.pending ∧ (resState (execJmp k off s) s).man = s.man ∧ (resState (execJmp k off s) s).mem = s.mem ∧ (resState (execJmp k off s) s).durable = s.durable := by
  simp [execJmp]

@[simp] theorem execJal_kept (k : CoreId) (off : BitVec 26) (s : State) :
    (resState (execJal k off s) s).pending = s.pending ∧ (resState (execJal k off s) s).man = s.man ∧ (resState (execJal k off s) s).mem = s.mem ∧ (resState (execJal k off s) s).durable = s.durable := by
  simp [execJal]

@[simp] theorem execBeq_kept (k : CoreId) (ra rb : RegNo) (off : BitVec 16) (s : State) :
    (resState (execBeq k ra rb off s) s).pending = s.pending ∧ (resState (execBeq k ra rb off s) s).man = s.man ∧ (resState (execBeq k ra rb off s) s).mem = s.mem ∧ (resState (execBeq k ra rb off s) s).durable = s.durable := by
  simp [execBeq]

@[simp] theorem execBne_kept (k : CoreId) (ra rb : RegNo) (off : BitVec 16) (s : State) :
    (resState (execBne k ra rb off s) s).pending = s.pending ∧ (resState (execBne k ra rb off s) s).man = s.man ∧ (resState (execBne k ra rb off s) s).mem = s.mem ∧ (resState (execBne k ra rb off s) s).durable = s.durable := by
  simp [execBne]

@[simp] theorem execBlt_kept (k : CoreId) (ra rb : RegNo) (off : BitVec 16) (s : State) :
    (resState (execBlt k ra rb off s) s).pending = s.pending ∧ (resState (execBlt k ra rb off s) s).man = s.man ∧ (resState (execBlt k ra rb off s) s).mem = s.mem ∧ (resState (execBlt k ra rb off s) s).durable = s.durable := by
  simp [execBlt]

@[simp] theorem execBge_kept (k : CoreId) (ra rb : RegNo) (off : BitVec 16) (s : State) :
    (resState (execBge k ra rb off s) s).pending = s.pending ∧ (resState (execBge k ra rb off s) s).man = s.man ∧ (resState (execBge k ra rb off s) s).mem = s.mem ∧ (resState (execBge k ra rb off s) s).durable = s.durable := by
  simp [execBge]

@[simp] theorem execBltu_kept (k : CoreId) (ra rb : RegNo) (off : BitVec 16) (s : State) :
    (resState (execBltu k ra rb off s) s).pending = s.pending ∧ (resState (execBltu k ra rb off s) s).man = s.man ∧ (resState (execBltu k ra rb off s) s).mem = s.mem ∧ (resState (execBltu k ra rb off s) s).durable = s.durable := by
  simp [execBltu]

@[simp] theorem execBgeu_kept (k : CoreId) (ra rb : RegNo) (off : BitVec 16) (s : State) :
    (resState (execBgeu k ra rb off s) s).pending = s.pending ∧ (resState (execBgeu k ra rb off s) s).man = s.man ∧ (resState (execBgeu k ra rb off s) s).mem = s.mem ∧ (resState (execBgeu k ra rb off s) s).durable = s.durable := by
  simp [execBgeu]

@[simp] theorem State.xLoad_kept (s : State) (k : CoreId) (rd ra : RegNo) (imm : BitVec 16) (n : Nat) (sign : Bool) :
    (resState (State.xLoad s k rd ra imm n sign) s).pending = s.pending ∧ (resState (State.xLoad s k rd ra imm n sign) s).man = s.man ∧ (resState (State.xLoad s k rd ra imm n sign) s).mem = s.mem ∧ (resState (State.xLoad s k rd ra imm n sign) s).durable = s.durable := by
  unfold State.xLoad resState
  (try dsimp only)
  (repeat' split) <;> simp

@[simp] theorem State.xStore_kept (s : State) (k : CoreId) (rd ra : RegNo) (imm : BitVec 16) (n : Nat) :
    (resState (State.xStore s k rd ra imm n) s).pending = s.pending ∧ (resState (State.xStore s k rd ra imm n) s).man = s.man ∧ (resState (State.xStore s k rd ra imm n) s).mem = s.mem ∧ (resState (State.xStore s k rd ra imm n) s).durable = s.durable := by
  unfold State.xStore resState
  (try dsimp only)
  (repeat' split) <;> simp

@[simp] theorem execLb_kept (k : CoreId) (rd ra : RegNo) (imm : BitVec 16) (s : State) :
    (resState (execLb k rd ra imm s) s).pending = s.pending ∧ (resState (execLb k rd ra imm s) s).man = s.man ∧ (resState (execLb k rd ra imm s) s).mem = s.mem ∧ (resState (execLb k rd ra imm s) s).durable = s.durable := by
  simp [execLb]

@[simp] theorem execLh_kept (k : CoreId) (rd ra : RegNo) (imm : BitVec 16) (s : State) :
    (resState (execLh k rd ra imm s) s).pending = s.pending ∧ (resState (execLh k rd ra imm s) s).man = s.man ∧ (resState (execLh k rd ra imm s) s).mem = s.mem ∧ (resState (execLh k rd ra imm s) s).durable = s.durable := by
  simp [execLh]

@[simp] theorem execLw_kept (k : CoreId) (rd ra : RegNo) (imm : BitVec 16) (s : State) :
    (resState (execLw k rd ra imm s) s).pending = s.pending ∧ (resState (execLw k rd ra imm s) s).man = s.man ∧ (resState (execLw k rd ra imm s) s).mem = s.mem ∧ (resState (execLw k rd ra imm s) s).durable = s.durable := by
  simp [execLw]

@[simp] theorem execLd_kept (k : CoreId) (rd ra : RegNo) (imm : BitVec 16) (s : State) :
    (resState (execLd k rd ra imm s) s).pending = s.pending ∧ (resState (execLd k rd ra imm s) s).man = s.man ∧ (resState (execLd k rd ra imm s) s).mem = s.mem ∧ (resState (execLd k rd ra imm s) s).durable = s.durable := by
  simp [execLd]

@[simp] theorem execLbu_kept (k : CoreId) (rd ra : RegNo) (imm : BitVec 16) (s : State) :
    (resState (execLbu k rd ra imm s) s).pending = s.pending ∧ (resState (execLbu k rd ra imm s) s).man = s.man ∧ (resState (execLbu k rd ra imm s) s).mem = s.mem ∧ (resState (execLbu k rd ra imm s) s).durable = s.durable := by
  simp [execLbu]

@[simp] theorem execLhu_kept (k : CoreId) (rd ra : RegNo) (imm : BitVec 16) (s : State) :
    (resState (execLhu k rd ra imm s) s).pending = s.pending ∧ (resState (execLhu k rd ra imm s) s).man = s.man ∧ (resState (execLhu k rd ra imm s) s).mem = s.mem ∧ (resState (execLhu k rd ra imm s) s).durable = s.durable := by
  simp [execLhu]

@[simp] theorem execLwu_kept (k : CoreId) (rd ra : RegNo) (imm : BitVec 16) (s : State) :
    (resState (execLwu k rd ra imm s) s).pending = s.pending ∧ (resState (execLwu k rd ra imm s) s).man = s.man ∧ (resState (execLwu k rd ra imm s) s).mem = s.mem ∧ (resState (execLwu k rd ra imm s) s).durable = s.durable := by
  simp [execLwu]

@[simp] theorem execSb_kept (k : CoreId) (rd ra : RegNo) (imm : BitVec 16) (s : State) :
    (resState (execSb k rd ra imm s) s).pending = s.pending ∧ (resState (execSb k rd ra imm s) s).man = s.man ∧ (resState (execSb k rd ra imm s) s).mem = s.mem ∧ (resState (execSb k rd ra imm s) s).durable = s.durable := by
  simp [execSb]

@[simp] theorem execSh_kept (k : CoreId) (rd ra : RegNo) (imm : BitVec 16) (s : State) :
    (resState (execSh k rd ra imm s) s).pending = s.pending ∧ (resState (execSh k rd ra imm s) s).man = s.man ∧ (resState (execSh k rd ra imm s) s).mem = s.mem ∧ (resState (execSh k rd ra imm s) s).durable = s.durable := by
  simp [execSh]

@[simp] theorem execSw_kept (k : CoreId) (rd ra : RegNo) (imm : BitVec 16) (s : State) :
    (resState (execSw k rd ra imm s) s).pending = s.pending ∧ (resState (execSw k rd ra imm s) s).man = s.man ∧ (resState (execSw k rd ra imm s) s).mem = s.mem ∧ (resState (execSw k rd ra imm s) s).durable = s.durable := by
  simp [execSw]

@[simp] theorem execSd_kept (k : CoreId) (rd ra : RegNo) (imm : BitVec 16) (s : State) :
    (resState (execSd k rd ra imm s) s).pending = s.pending ∧ (resState (execSd k rd ra imm s) s).man = s.man ∧ (resState (execSd k rd ra imm s) s).mem = s.mem ∧ (resState (execSd k rd ra imm s) s).durable = s.durable := by
  simp [execSd]

@[simp] theorem State.fOp_kept (s : State) (k : CoreId) (dbl : Bool) (rd ra rb : RegNo) (f : Fmt → Nat → Nat → Nat × FFlags) :
    (resState (State.fOp s k dbl rd ra rb f) s).pending = s.pending ∧ (resState (State.fOp s k dbl rd ra rb f) s).man = s.man ∧ (resState (State.fOp s k dbl rd ra rb f) s).mem = s.mem ∧ (resState (State.fOp s k dbl rd ra rb f) s).durable = s.durable := by
  unfold State.fOp resState
  (try dsimp only)
  (repeat' split) <;> simp

@[simp] theorem State.fCmp_kept (s : State) (k : CoreId) (dbl : Bool) (rd ra rb : RegNo) (quiet : Bool) (p : Nat → Nat → Bool) :
    (resState (State.fCmp s k dbl rd ra rb quiet p) s).pending = s.pending ∧ (resState (State.fCmp s k dbl rd ra rb quiet p) s).man = s.man ∧ (resState (State.fCmp s k dbl rd ra rb quiet p) s).mem = s.mem ∧ (resState (State.fCmp s k dbl rd ra rb quiet p) s).durable = s.durable := by
  unfold State.fCmp resState
  (try dsimp only)
  (repeat' split) <;> simp

@[simp] theorem execFadd_kept (k : CoreId) (dbl : Bool) (rd ra rb : RegNo) (s : State) :
    (resState (execFadd k dbl rd ra rb s) s).pending = s.pending ∧ (resState (execFadd k dbl rd ra rb s) s).man = s.man ∧ (resState (execFadd k dbl rd ra rb s) s).mem = s.mem ∧ (resState (execFadd k dbl rd ra rb s) s).durable = s.durable := by
  simp [execFadd]

@[simp] theorem execFsub_kept (k : CoreId) (dbl : Bool) (rd ra rb : RegNo) (s : State) :
    (resState (execFsub k dbl rd ra rb s) s).pending = s.pending ∧ (resState (execFsub k dbl rd ra rb s) s).man = s.man ∧ (resState (execFsub k dbl rd ra rb s) s).mem = s.mem ∧ (resState (execFsub k dbl rd ra rb s) s).durable = s.durable := by
  simp [execFsub]

@[simp] theorem execFmul_kept (k : CoreId) (dbl : Bool) (rd ra rb : RegNo) (s : State) :
    (resState (execFmul k dbl rd ra rb s) s).pending = s.pending ∧ (resState (execFmul k dbl rd ra rb s) s).man = s.man ∧ (resState (execFmul k dbl rd ra rb s) s).mem = s.mem ∧ (resState (execFmul k dbl rd ra rb s) s).durable = s.durable := by
  simp [execFmul]

@[simp] theorem execFdiv_kept (k : CoreId) (dbl : Bool) (rd ra rb : RegNo) (s : State) :
    (resState (execFdiv k dbl rd ra rb s) s).pending = s.pending ∧ (resState (execFdiv k dbl rd ra rb s) s).man = s.man ∧ (resState (execFdiv k dbl rd ra rb s) s).mem = s.mem ∧ (resState (execFdiv k dbl rd ra rb s) s).durable = s.durable := by
  simp [execFdiv]

@[simp] theorem execFsqrt_kept (k : CoreId) (dbl : Bool) (rd ra : RegNo) (s : State) :
    (resState (execFsqrt k dbl rd ra s) s).pending = s.pending ∧ (resState (execFsqrt k dbl rd ra s) s).man = s.man ∧ (resState (execFsqrt k dbl rd ra s) s).mem = s.mem ∧ (resState (execFsqrt k dbl rd ra s) s).durable = s.durable := by
  simp [execFsqrt]

@[simp] theorem execFmin_kept (k : CoreId) (dbl : Bool) (rd ra rb : RegNo) (s : State) :
    (resState (execFmin k dbl rd ra rb s) s).pending = s.pending ∧ (resState (execFmin k dbl rd ra rb s) s).man = s.man ∧ (resState (execFmin k dbl rd ra rb s) s).mem = s.mem ∧ (resState (execFmin k dbl rd ra rb s) s).durable = s.durable := by
  simp [execFmin]

@[simp] theorem execFmax_kept (k : CoreId) (dbl : Bool) (rd ra rb : RegNo) (s : State) :
    (resState (execFmax k dbl rd ra rb s) s).pending = s.pending ∧ (resState (execFmax k dbl rd ra rb s) s).man = s.man ∧ (resState (execFmax k dbl rd ra rb s) s).mem = s.mem ∧ (resState (execFmax k dbl rd ra rb s) s).durable = s.durable := by
  simp [execFmax]

@[simp] theorem execFeq_kept (k : CoreId) (dbl : Bool) (rd ra rb : RegNo) (s : State) :
    (resState (execFeq k dbl rd ra rb s) s).pending = s.pending ∧ (resState (execFeq k dbl rd ra rb s) s).man = s.man ∧ (resState (execFeq k dbl rd ra rb s) s).mem = s.mem ∧ (resState (execFeq k dbl rd ra rb s) s).durable = s.durable := by
  simp [execFeq]

@[simp] theorem execFlt_kept (k : CoreId) (dbl : Bool) (rd ra rb : RegNo) (s : State) :
    (resState (execFlt k dbl rd ra rb s) s).pending = s.pending ∧ (resState (execFlt k dbl rd ra rb s) s).man = s.man ∧ (resState (execFlt k dbl rd ra rb s) s).mem = s.mem ∧ (resState (execFlt k dbl rd ra rb s) s).durable = s.durable := by
  simp [execFlt]

@[simp] theorem execFle_kept (k : CoreId) (dbl : Bool) (rd ra rb : RegNo) (s : State) :
    (resState (execFle k dbl rd ra rb s) s).pending = s.pending ∧ (resState (execFle k dbl rd ra rb s) s).man = s.man ∧ (resState (execFle k dbl rd ra rb s) s).mem = s.mem ∧ (resState (execFle k dbl rd ra rb s) s).durable = s.durable := by
  simp [execFle]

@[simp] theorem execFcvti_kept (k : CoreId) (dbl : Bool) (rd ra : RegNo) (s : State) :
    (resState (execFcvti k dbl rd ra s) s).pending = s.pending ∧ (resState (execFcvti k dbl rd ra s) s).man = s.man ∧ (resState (execFcvti k dbl rd ra s) s).mem = s.mem ∧ (resState (execFcvti k dbl rd ra s) s).durable = s.durable := by
  unfold execFcvti resState
  (try dsimp only)
  (repeat' split) <;> simp

@[simp] theorem execFcvtf_kept (k : CoreId) (dbl : Bool) (rd ra : RegNo) (s : State) :
    (resState (execFcvtf k dbl rd ra s) s).pending = s.pending ∧ (resState (execFcvtf k dbl rd ra s) s).man = s.man ∧ (resState (execFcvtf k dbl rd ra s) s).mem = s.mem ∧ (resState (execFcvtf k dbl rd ra s) s).durable = s.durable := by
  unfold execFcvtf resState
  (try dsimp only)
  (repeat' split) <;> simp

@[simp] theorem execFmvx_kept (k : CoreId) (dbl : Bool) (rd ra : RegNo) (s : State) :
    (resState (execFmvx k dbl rd ra s) s).pending = s.pending ∧ (resState (execFmvx k dbl rd ra s) s).man = s.man ∧ (resState (execFmvx k dbl rd ra s) s).mem = s.mem ∧ (resState (execFmvx k dbl rd ra s) s).durable = s.durable := by
  unfold execFmvx resState
  (try dsimp only)
  (repeat' split) <;> simp

@[simp] theorem execFmvf_kept (k : CoreId) (dbl : Bool) (rd ra : RegNo) (s : State) :
    (resState (execFmvf k dbl rd ra s) s).pending = s.pending ∧ (resState (execFmvf k dbl rd ra s) s).man = s.man ∧ (resState (execFmvf k dbl rd ra s) s).mem = s.mem ∧ (resState (execFmvf k dbl rd ra s) s).durable = s.durable := by
  unfold execFmvf resState
  (try dsimp only)
  (repeat' split) <;> simp

@[simp] theorem execFcvtw_kept (k : CoreId) (dbl : Bool) (rd ra : RegNo) (s : State) :
    (resState (execFcvtw k dbl rd ra s) s).pending = s.pending ∧ (resState (execFcvtw k dbl rd ra s) s).man = s.man ∧ (resState (execFcvtw k dbl rd ra s) s).mem = s.mem ∧ (resState (execFcvtw k dbl rd ra s) s).durable = s.durable := by
  unfold execFcvtw resState
  (try dsimp only)
  (repeat' split) <;> simp

@[simp] theorem execFld_kept (k : CoreId) (rd ra : RegNo) (imm : BitVec 16) (s : State) :
    (resState (execFld k rd ra imm s) s).pending = s.pending ∧ (resState (execFld k rd ra imm s) s).man = s.man ∧ (resState (execFld k rd ra imm s) s).mem = s.mem ∧ (resState (execFld k rd ra imm s) s).durable = s.durable := by
  unfold execFld resState
  (try dsimp only)
  (repeat' split) <;> simp

@[simp] theorem execFsd_kept (k : CoreId) (rd ra : RegNo) (imm : BitVec 16) (s : State) :
    (resState (execFsd k rd ra imm s) s).pending = s.pending ∧ (resState (execFsd k rd ra imm s) s).man = s.man ∧ (resState (execFsd k rd ra imm s) s).mem = s.mem ∧ (resState (execFsd k rd ra imm s) s).durable = s.durable := by
  unfold execFsd resState
  (try dsimp only)
  (repeat' split) <;> simp

@[simp] theorem execCsr_kept (k : CoreId) (rd ra : RegNo) (imm : BitVec 16) (s : State) :
    (resState (execCsr k rd ra imm s) s).pending = s.pending ∧ (resState (execCsr k rd ra imm s) s).man = s.man ∧ (resState (execCsr k rd ra imm s) s).mem = s.mem ∧ (resState (execCsr k rd ra imm s) s).durable = s.durable := by
  unfold execCsr resState
  (try dsimp only)
  (repeat' split) <;> simp

@[simp] theorem execVsetl_kept (k : CoreId) (rd ra : RegNo) (imm : BitVec 16) (s : State) :
    (resState (execVsetl k rd ra imm s) s).pending = s.pending ∧ (resState (execVsetl k rd ra imm s) s).man = s.man ∧ (resState (execVsetl k rd ra imm s) s).mem = s.mem ∧ (resState (execVsetl k rd ra imm s) s).durable = s.durable := by
  unfold execVsetl resState
  (try dsimp only)
  (repeat' split) <;> simp

@[simp] theorem execVstep_kept (k : CoreId) (rd : RegNo) (s : State) :
    (resState (execVstep k rd s) s).pending = s.pending ∧ (resState (execVstep k rd s) s).man = s.man ∧ (resState (execVstep k rd s) s).mem = s.mem ∧ (resState (execVstep k rd s) s).durable = s.durable := by
  unfold execVstep resState
  (try dsimp only)
  (repeat' split) <;> simp

@[simp] theorem execRet_kept (k : CoreId) (s : State) :
    (resState (execRet k s) s).pending = s.pending ∧ (resState (execRet k s) s).man = s.man ∧ (resState (execRet k s) s).mem = s.mem ∧ (resState (execRet k s) s).durable = s.durable := by
  unfold execRet resState
  (try dsimp only)
  (repeat' split) <;> simp

@[simp] theorem execBrk_kept (k : CoreId) (s : State) :
    (resState (execBrk k s) s).pending = s.pending ∧ (resState (execBrk k s) s).man = s.man ∧ (resState (execBrk k s) s).mem = s.mem ∧ (resState (execBrk k s) s).durable = s.durable := by
  unfold execBrk resState
  (try dsimp only)
  (repeat' split) <;> simp

@[simp] theorem execIllegal_kept (k : CoreId) (word : Word32) (s : State) :
    (resState (execIllegal k word s) s).pending = s.pending ∧ (resState (execIllegal k word s) s).man = s.man ∧ (resState (execIllegal k word s) s).mem = s.mem ∧ (resState (execIllegal k word s) s).durable = s.durable := by
  unfold execIllegal resState
  (try dsimp only)
  (repeat' split) <;> simp

@[simp] theorem execWindowMissFill_kept (k : CoreId) (s : State) :
    (resState (execWindowMissFill k s) s).pending = s.pending ∧ (resState (execWindowMissFill k s) s).man = s.man ∧ (resState (execWindowMissFill k s) s).mem = s.mem ∧ (resState (execWindowMissFill k s) s).durable = s.durable := by
  unfold execWindowMissFill resState
  (try dsimp only)
  (repeat' split) <;> simp

end Sys2Proof.Machine
end

