-- ==== Sys2Proof/Laws/KeptSumenVector.lean ====
section
/-! SUPPORT. What the operations of Machine/SumenVector.lean leave as it was. -/

namespace Sys2Proof.Machine

@[simp] theorem State.vRun_kept (s : State) (k : CoreId) (m : Bool) (ok : Core → Bool) (step : UdfCtx → Core → Nat → Except Stop Core) :
    (resState (State.vRun s k m ok step) s).pending = s.pending ∧ (resState (State.vRun s k m ok step) s).man = s.man ∧ (resState (State.vRun s k m ok step) s).mem = s.mem ∧ (resState (State.vRun s k m ok step) s).durable = s.durable := by
  unfold State.vRun resState
  (try dsimp only)
  (repeat' split) <;> simp

@[simp] theorem State.vMap_kept (s : State) (k : CoreId) (m : Bool) (vd : RegNo) (f : Core → Nat → Nat) :
    (resState (State.vMap s k m vd f) s).pending = s.pending ∧ (resState (State.vMap s k m vd f) s).man = s.man ∧ (resState (State.vMap s k m vd f) s).mem = s.mem ∧ (resState (State.vMap s k m vd f) s).durable = s.durable := by
  simp [State.vMap]

@[simp] theorem State.vBin_kept (s : State) (k : CoreId) (m : Bool) (vd va vb : RegNo) (f : Nat → Nat → Nat → Nat) :
    (resState (State.vBin s k m vd va vb f) s).pending = s.pending ∧ (resState (State.vBin s k m vd va vb f) s).man = s.man ∧ (resState (State.vBin s k m vd va vb f) s).mem = s.mem ∧ (resState (State.vBin s k m vd va vb f) s).durable = s.durable := by
  simp [State.vBin]

@[simp] theorem State.vSig_kept (s : State) (k : CoreId) (m : Bool) (vd va vb : RegNo) (f : Int → Int → Int) :
    (resState (State.vSig s k m vd va vb f) s).pending = s.pending ∧ (resState (State.vSig s k m vd va vb f) s).man = s.man ∧ (resState (State.vSig s k m vd va vb f) s).mem = s.mem ∧ (resState (State.vSig s k m vd va vb f) s).durable = s.durable := by
  simp [State.vSig]

@[simp] theorem State.vCmp_kept (s : State) (k : CoreId) (m : Bool) (vd : RegNo) (p : Core → Nat → Bool) :
    (resState (State.vCmp s k m vd p) s).pending = s.pending ∧ (resState (State.vCmp s k m vd p) s).man = s.man ∧ (resState (State.vCmp s k m vd p) s).mem = s.mem ∧ (resState (State.vCmp s k m vd p) s).durable = s.durable := by
  simp [State.vCmp]

@[simp] theorem execVadd_kept (k : CoreId) (vd va vb : RegNo) (m : Bool) (s : State) :
    (resState (execVadd k vd va vb m s) s).pending = s.pending ∧ (resState (execVadd k vd va vb m s) s).man = s.man ∧ (resState (execVadd k vd va vb m s) s).mem = s.mem ∧ (resState (execVadd k vd va vb m s) s).durable = s.durable := by
  simp [execVadd]

@[simp] theorem execVsub_kept (k : CoreId) (vd va vb : RegNo) (m : Bool) (s : State) :
    (resState (execVsub k vd va vb m s) s).pending = s.pending ∧ (resState (execVsub k vd va vb m s) s).man = s.man ∧ (resState (execVsub k vd va vb m s) s).mem = s.mem ∧ (resState (execVsub k vd va vb m s) s).durable = s.durable := by
  simp [execVsub]

@[simp] theorem execVmul_kept (k : CoreId) (vd va vb : RegNo) (m : Bool) (s : State) :
    (resState (execVmul k vd va vb m s) s).pending = s.pending ∧ (resState (execVmul k vd va vb m s) s).man = s.man ∧ (resState (execVmul k vd va vb m s) s).mem = s.mem ∧ (resState (execVmul k vd va vb m s) s).durable = s.durable := by
  simp [execVmul]

@[simp] theorem execVand_kept (k : CoreId) (vd va vb : RegNo) (m : Bool) (s : State) :
    (resState (execVand k vd va vb m s) s).pending = s.pending ∧ (resState (execVand k vd va vb m s) s).man = s.man ∧ (resState (execVand k vd va vb m s) s).mem = s.mem ∧ (resState (execVand k vd va vb m s) s).durable = s.durable := by
  simp [execVand]

@[simp] theorem execVor_kept (k : CoreId) (vd va vb : RegNo) (m : Bool) (s : State) :
    (resState (execVor k vd va vb m s) s).pending = s.pending ∧ (resState (execVor k vd va vb m s) s).man = s.man ∧ (resState (execVor k vd va vb m s) s).mem = s.mem ∧ (resState (execVor k vd va vb m s) s).durable = s.durable := by
  simp [execVor]

@[simp] theorem execVxor_kept (k : CoreId) (vd va vb : RegNo) (m : Bool) (s : State) :
    (resState (execVxor k vd va vb m s) s).pending = s.pending ∧ (resState (execVxor k vd va vb m s) s).man = s.man ∧ (resState (execVxor k vd va vb m s) s).mem = s.mem ∧ (resState (execVxor k vd va vb m s) s).durable = s.durable := by
  simp [execVxor]

@[simp] theorem execVsll_kept (k : CoreId) (vd va vb : RegNo) (m : Bool) (s : State) :
    (resState (execVsll k vd va vb m s) s).pending = s.pending ∧ (resState (execVsll k vd va vb m s) s).man = s.man ∧ (resState (execVsll k vd va vb m s) s).mem = s.mem ∧ (resState (execVsll k vd va vb m s) s).durable = s.durable := by
  simp [execVsll]

@[simp] theorem execVsrl_kept (k : CoreId) (vd va vb : RegNo) (m : Bool) (s : State) :
    (resState (execVsrl k vd va vb m s) s).pending = s.pending ∧ (resState (execVsrl k vd va vb m s) s).man = s.man ∧ (resState (execVsrl k vd va vb m s) s).mem = s.mem ∧ (resState (execVsrl k vd va vb m s) s).durable = s.durable := by
  simp [execVsrl]

@[simp] theorem execVsra_kept (k : CoreId) (vd va vb : RegNo) (m : Bool) (s : State) :
    (resState (execVsra k vd va vb m s) s).pending = s.pending ∧ (resState (execVsra k vd va vb m s) s).man = s.man ∧ (resState (execVsra k vd va vb m s) s).mem = s.mem ∧ (resState (execVsra k vd va vb m s) s).durable = s.durable := by
  simp [execVsra]

@[simp] theorem execVmin_kept (k : CoreId) (vd va vb : RegNo) (m : Bool) (s : State) :
    (resState (execVmin k vd va vb m s) s).pending = s.pending ∧ (resState (execVmin k vd va vb m s) s).man = s.man ∧ (resState (execVmin k vd va vb m s) s).mem = s.mem ∧ (resState (execVmin k vd va vb m s) s).durable = s.durable := by
  simp [execVmin]

@[simp] theorem execVmax_kept (k : CoreId) (vd va vb : RegNo) (m : Bool) (s : State) :
    (resState (execVmax k vd va vb m s) s).pending = s.pending ∧ (resState (execVmax k vd va vb m s) s).man = s.man ∧ (resState (execVmax k vd va vb m s) s).mem = s.mem ∧ (resState (execVmax k vd va vb m s) s).durable = s.durable := by
  simp [execVmax]

@[simp] theorem execVminu_kept (k : CoreId) (vd va vb : RegNo) (m : Bool) (s : State) :
    (resState (execVminu k vd va vb m s) s).pending = s.pending ∧ (resState (execVminu k vd va vb m s) s).man = s.man ∧ (resState (execVminu k vd va vb m s) s).mem = s.mem ∧ (resState (execVminu k vd va vb m s) s).durable = s.durable := by
  simp [execVminu]

@[simp] theorem execVmaxu_kept (k : CoreId) (vd va vb : RegNo) (m : Bool) (s : State) :
    (resState (execVmaxu k vd va vb m s) s).pending = s.pending ∧ (resState (execVmaxu k vd va vb m s) s).man = s.man ∧ (resState (execVmaxu k vd va vb m s) s).mem = s.mem ∧ (resState (execVmaxu k vd va vb m s) s).durable = s.durable := by
  simp [execVmaxu]

@[simp] theorem execVseq_kept (k : CoreId) (vd va vb : RegNo) (m : Bool) (s : State) :
    (resState (execVseq k vd va vb m s) s).pending = s.pending ∧ (resState (execVseq k vd va vb m s) s).man = s.man ∧ (resState (execVseq k vd va vb m s) s).mem = s.mem ∧ (resState (execVseq k vd va vb m s) s).durable = s.durable := by
  simp [execVseq]

@[simp] theorem execVslt_kept (k : CoreId) (vd va vb : RegNo) (m : Bool) (s : State) :
    (resState (execVslt k vd va vb m s) s).pending = s.pending ∧ (resState (execVslt k vd va vb m s) s).man = s.man ∧ (resState (execVslt k vd va vb m s) s).mem = s.mem ∧ (resState (execVslt k vd va vb m s) s).durable = s.durable := by
  simp [execVslt]

@[simp] theorem execVsltu_kept (k : CoreId) (vd va vb : RegNo) (m : Bool) (s : State) :
    (resState (execVsltu k vd va vb m s) s).pending = s.pending ∧ (resState (execVsltu k vd va vb m s) s).man = s.man ∧ (resState (execVsltu k vd va vb m s) s).mem = s.mem ∧ (resState (execVsltu k vd va vb m s) s).durable = s.durable := by
  simp [execVsltu]

@[simp] theorem execVmerge_kept (k : CoreId) (vd va vb : RegNo) (m : Bool) (s : State) :
    (resState (execVmerge k vd va vb m s) s).pending = s.pending ∧ (resState (execVmerge k vd va vb m s) s).man = s.man ∧ (resState (execVmerge k vd va vb m s) s).mem = s.mem ∧ (resState (execVmerge k vd va vb m s) s).durable = s.durable := by
  simp [execVmerge]

@[simp] theorem State.vFloat_kept (s : State) (k : CoreId) (m : Bool) (vd va vb : RegNo) (f : Fmt → Nat → Nat → Nat × FFlags) :
    (resState (State.vFloat s k m vd va vb f) s).pending = s.pending ∧ (resState (State.vFloat s k m vd va vb f) s).man = s.man ∧ (resState (State.vFloat s k m vd va vb f) s).mem = s.mem ∧ (resState (State.vFloat s k m vd va vb f) s).durable = s.durable := by
  simp [State.vFloat]

@[simp] theorem execVfadd_kept (k : CoreId) (vd va vb : RegNo) (m : Bool) (s : State) :
    (resState (execVfadd k vd va vb m s) s).pending = s.pending ∧ (resState (execVfadd k vd va vb m s) s).man = s.man ∧ (resState (execVfadd k vd va vb m s) s).mem = s.mem ∧ (resState (execVfadd k vd va vb m s) s).durable = s.durable := by
  simp [execVfadd]

@[simp] theorem execVfsub_kept (k : CoreId) (vd va vb : RegNo) (m : Bool) (s : State) :
    (resState (execVfsub k vd va vb m s) s).pending = s.pending ∧ (resState (execVfsub k vd va vb m s) s).man = s.man ∧ (resState (execVfsub k vd va vb m s) s).mem = s.mem ∧ (resState (execVfsub k vd va vb m s) s).durable = s.durable := by
  simp [execVfsub]

@[simp] theorem execVfmul_kept (k : CoreId) (vd va vb : RegNo) (m : Bool) (s : State) :
    (resState (execVfmul k vd va vb m s) s).pending = s.pending ∧ (resState (execVfmul k vd va vb m s) s).man = s.man ∧ (resState (execVfmul k vd va vb m s) s).mem = s.mem ∧ (resState (execVfmul k vd va vb m s) s).durable = s.durable := by
  simp [execVfmul]

@[simp] theorem execVfdiv_kept (k : CoreId) (vd va vb : RegNo) (m : Bool) (s : State) :
    (resState (execVfdiv k vd va vb m s) s).pending = s.pending ∧ (resState (execVfdiv k vd va vb m s) s).man = s.man ∧ (resState (execVfdiv k vd va vb m s) s).mem = s.mem ∧ (resState (execVfdiv k vd va vb m s) s).durable = s.durable := by
  simp [execVfdiv]

@[simp] theorem execVfmin_kept (k : CoreId) (vd va vb : RegNo) (m : Bool) (s : State) :
    (resState (execVfmin k vd va vb m s) s).pending = s.pending ∧ (resState (execVfmin k vd va vb m s) s).man = s.man ∧ (resState (execVfmin k vd va vb m s) s).mem = s.mem ∧ (resState (execVfmin k vd va vb m s) s).durable = s.durable := by
  simp [execVfmin]

@[simp] theorem execVfmax_kept (k : CoreId) (vd va vb : RegNo) (m : Bool) (s : State) :
    (resState (execVfmax k vd va vb m s) s).pending = s.pending ∧ (resState (execVfmax k vd va vb m s) s).man = s.man ∧ (resState (execVfmax k vd va vb m s) s).mem = s.mem ∧ (resState (execVfmax k vd va vb m s) s).durable = s.durable := by
  simp [execVfmax]

@[simp] theorem State.vFixed_kept (s : State) (k : CoreId) (m : Bool) (vd : RegNo) (ok : Core → Bool) (f : Core → Nat → Int) :
    (resState (State.vFixed s k m vd ok f) s).pending = s.pending ∧ (resState (State.vFixed s k m vd ok f) s).man = s.man ∧ (resState (State.vFixed s k m vd ok f) s).mem = s.mem ∧ (resState (State.vFixed s k m vd ok f) s).durable = s.durable := by
  simp [State.vFixed]

@[simp] theorem execVsadd_kept (k : CoreId) (vd va vb : RegNo) (m : Bool) (s : State) :
    (resState (execVsadd k vd va vb m s) s).pending = s.pending ∧ (resState (execVsadd k vd va vb m s) s).man = s.man ∧ (resState (execVsadd k vd va vb m s) s).mem = s.mem ∧ (resState (execVsadd k vd va vb m s) s).durable = s.durable := by
  simp [execVsadd]

@[simp] theorem execVssub_kept (k : CoreId) (vd va vb : RegNo) (m : Bool) (s : State) :
    (resState (execVssub k vd va vb m s) s).pending = s.pending ∧ (resState (execVssub k vd va vb m s) s).man = s.man ∧ (resState (execVssub k vd va vb m s) s).mem = s.mem ∧ (resState (execVssub k vd va vb m s) s).durable = s.durable := by
  simp [execVssub]

@[simp] theorem execVrshr_kept (k : CoreId) (vd va xb : RegNo) (m : Bool) (s : State) :
    (resState (execVrshr k vd va xb m s) s).pending = s.pending ∧ (resState (execVrshr k vd va xb m s) s).man = s.man ∧ (resState (execVrshr k vd va xb m s) s).mem = s.mem ∧ (resState (execVrshr k vd va xb m s) s).durable = s.durable := by
  simp [execVrshr]

@[simp] theorem execVmulhr_kept (k : CoreId) (vd va vb : RegNo) (m : Bool) (s : State) :
    (resState (execVmulhr k vd va vb m s) s).pending = s.pending ∧ (resState (execVmulhr k vd va vb m s) s).man = s.man ∧ (resState (execVmulhr k vd va vb m s) s).mem = s.mem ∧ (resState (execVmulhr k vd va vb m s) s).durable = s.durable := by
  simp [execVmulhr]

@[simp] theorem execVnarrows_kept (k : CoreId) (vd va xb : RegNo) (m : Bool) (s : State) :
    (resState (execVnarrows k vd va xb m s) s).pending = s.pending ∧ (resState (execVnarrows k vd va xb m s) s).man = s.man ∧ (resState (execVnarrows k vd va xb m s) s).mem = s.mem ∧ (resState (execVnarrows k vd va xb m s) s).durable = s.durable := by
  simp [execVnarrows]

@[simp] theorem execVscale10_kept (k : CoreId) (vd va xb : RegNo) (m : Bool) (p : Fin 64) (s : State) :
    (resState (execVscale10 k vd va xb m p s) s).pending = s.pending ∧ (resState (execVscale10 k vd va xb m p s) s).man = s.man ∧ (resState (execVscale10 k vd va xb m p s) s).mem = s.mem ∧ (resState (execVscale10 k vd va xb m p s) s).durable = s.durable := by
  unfold execVscale10 resState
  (try dsimp only)
  (repeat' split) <;> simp

@[simp] theorem State.vReduce_kept (s : State) (k : CoreId) (m : Bool) (ok : Core → Bool) (f : Core → List Nat → Except Stop Core) :
    (resState (State.vReduce s k m ok f) s).pending = s.pending ∧ (resState (State.vReduce s k m ok f) s).man = s.man ∧ (resState (State.vReduce s k m ok f) s).mem = s.mem ∧ (resState (State.vReduce s k m ok f) s).durable = s.durable := by
  unfold State.vReduce resState
  (try dsimp only)
  (repeat' split) <;> simp

@[simp] theorem State.vFold_kept (s : State) (k : CoreId) (m : Bool) (vd va vb : RegNo) (f : Core → Nat → Nat → Nat) :
    (resState (State.vFold s k m vd va vb f) s).pending = s.pending ∧ (resState (State.vFold s k m vd va vb f) s).man = s.man ∧ (resState (State.vFold s k m vd va vb f) s).mem = s.mem ∧ (resState (State.vFold s k m vd va vb f) s).durable = s.durable := by
  simp [State.vFold]

@[simp] theorem execVredsum_kept (k : CoreId) (vd va vb : RegNo) (m : Bool) (s : State) :
    (resState (execVredsum k vd va vb m s) s).pending = s.pending ∧ (resState (execVredsum k vd va vb m s) s).man = s.man ∧ (resState (execVredsum k vd va vb m s) s).mem = s.mem ∧ (resState (execVredsum k vd va vb m s) s).durable = s.durable := by
  simp [execVredsum]

@[simp] theorem execVredmin_kept (k : CoreId) (vd va vb : RegNo) (m : Bool) (s : State) :
    (resState (execVredmin k vd va vb m s) s).pending = s.pending ∧ (resState (execVredmin k vd va vb m s) s).man = s.man ∧ (resState (execVredmin k vd va vb m s) s).mem = s.mem ∧ (resState (execVredmin k vd va vb m s) s).durable = s.durable := by
  simp [execVredmin]

@[simp] theorem execVredmax_kept (k : CoreId) (vd va vb : RegNo) (m : Bool) (s : State) :
    (resState (execVredmax k vd va vb m s) s).pending = s.pending ∧ (resState (execVredmax k vd va vb m s) s).man = s.man ∧ (resState (execVredmax k vd va vb m s) s).mem = s.mem ∧ (resState (execVredmax k vd va vb m s) s).durable = s.durable := by
  simp [execVredmax]

@[simp] theorem execVredminu_kept (k : CoreId) (vd va vb : RegNo) (m : Bool) (s : State) :
    (resState (execVredminu k vd va vb m s) s).pending = s.pending ∧ (resState (execVredminu k vd va vb m s) s).man = s.man ∧ (resState (execVredminu k vd va vb m s) s).mem = s.mem ∧ (resState (execVredminu k vd va vb m s) s).durable = s.durable := by
  simp [execVredminu]

@[simp] theorem execVredmaxu_kept (k : CoreId) (vd va vb : RegNo) (m : Bool) (s : State) :
    (resState (execVredmaxu k vd va vb m s) s).pending = s.pending ∧ (resState (execVredmaxu k vd va vb m s) s).man = s.man ∧ (resState (execVredmaxu k vd va vb m s) s).mem = s.mem ∧ (resState (execVredmaxu k vd va vb m s) s).durable = s.durable := by
  simp [execVredmaxu]

@[simp] theorem State.vFloatFold_kept (s : State) (k : CoreId) (m : Bool) (vd va vb : RegNo) (f : Fmt → Nat → Nat → Nat × FFlags) :
    (resState (State.vFloatFold s k m vd va vb f) s).pending = s.pending ∧ (resState (State.vFloatFold s k m vd va vb f) s).man = s.man ∧ (resState (State.vFloatFold s k m vd va vb f) s).mem = s.mem ∧ (resState (State.vFloatFold s k m vd va vb f) s).durable = s.durable := by
  simp [State.vFloatFold]

@[simp] theorem execVfredsum_kept (k : CoreId) (vd va vb : RegNo) (m : Bool) (s : State) :
    (resState (execVfredsum k vd va vb m s) s).pending = s.pending ∧ (resState (execVfredsum k vd va vb m s) s).man = s.man ∧ (resState (execVfredsum k vd va vb m s) s).mem = s.mem ∧ (resState (execVfredsum k vd va vb m s) s).durable = s.durable := by
  simp [execVfredsum]

@[simp] theorem execVfredmin_kept (k : CoreId) (vd va vb : RegNo) (m : Bool) (s : State) :
    (resState (execVfredmin k vd va vb m s) s).pending = s.pending ∧ (resState (execVfredmin k vd va vb m s) s).man = s.man ∧ (resState (execVfredmin k vd va vb m s) s).mem = s.mem ∧ (resState (execVfredmin k vd va vb m s) s).durable = s.durable := by
  simp [execVfredmin]

@[simp] theorem execVfredmax_kept (k : CoreId) (vd va vb : RegNo) (m : Bool) (s : State) :
    (resState (execVfredmax k vd va vb m s) s).pending = s.pending ∧ (resState (execVfredmax k vd va vb m s) s).man = s.man ∧ (resState (execVfredmax k vd va vb m s) s).mem = s.mem ∧ (resState (execVfredmax k vd va vb m s) s).durable = s.durable := by
  simp [execVfredmax]

@[simp] theorem execVld_kept (k : CoreId) (vd xa : RegNo) (imm : BitVec 16) (s : State) :
    (resState (execVld k vd xa imm s) s).pending = s.pending ∧ (resState (execVld k vd xa imm s) s).man = s.man ∧ (resState (execVld k vd xa imm s) s).mem = s.mem ∧ (resState (execVld k vd xa imm s) s).durable = s.durable := by
  simp [execVld]

@[simp] theorem execVst_kept (k : CoreId) (vd xa : RegNo) (imm : BitVec 16) (s : State) :
    (resState (execVst k vd xa imm s) s).pending = s.pending ∧ (resState (execVst k vd xa imm s) s).man = s.man ∧ (resState (execVst k vd xa imm s) s).mem = s.mem ∧ (resState (execVst k vd xa imm s) s).durable = s.durable := by
  simp [execVst]

@[simp] theorem execVldx_kept (k : CoreId) (vd xa vb : RegNo) (m : Bool) (s : State) :
    (resState (execVldx k vd xa vb m s) s).pending = s.pending ∧ (resState (execVldx k vd xa vb m s) s).man = s.man ∧ (resState (execVldx k vd xa vb m s) s).mem = s.mem ∧ (resState (execVldx k vd xa vb m s) s).durable = s.durable := by
  simp [execVldx]

@[simp] theorem execVstx_kept (k : CoreId) (vd xa vb : RegNo) (m : Bool) (s : State) :
    (resState (execVstx k vd xa vb m s) s).pending = s.pending ∧ (resState (execVstx k vd xa vb m s) s).man = s.man ∧ (resState (execVstx k vd xa vb m s) s).mem = s.mem ∧ (resState (execVstx k vd xa vb m s) s).durable = s.durable := by
  simp [execVstx]

@[simp] theorem execVbcast_kept (k : CoreId) (vd xa : RegNo) (m : Bool) (s : State) :
    (resState (execVbcast k vd xa m s) s).pending = s.pending ∧ (resState (execVbcast k vd xa m s) s).man = s.man ∧ (resState (execVbcast k vd xa m s) s).mem = s.mem ∧ (resState (execVbcast k vd xa m s) s).durable = s.durable := by
  simp [execVbcast]

@[simp] theorem execVext_kept (k : CoreId) (rd va xb : RegNo) (_m : Bool) (s : State) :
    (resState (execVext k rd va xb _m s) s).pending = s.pending ∧ (resState (execVext k rd va xb _m s) s).man = s.man ∧ (resState (execVext k rd va xb _m s) s).mem = s.mem ∧ (resState (execVext k rd va xb _m s) s).durable = s.durable := by
  unfold execVext resState
  (try dsimp only)
  (repeat' split) <;> simp

@[simp] theorem execVins_kept (k : CoreId) (vd xa xb : RegNo) (m : Bool) (s : State) :
    (resState (execVins k vd xa xb m s) s).pending = s.pending ∧ (resState (execVins k vd xa xb m s) s).man = s.man ∧ (resState (execVins k vd xa xb m s) s).mem = s.mem ∧ (resState (execVins k vd xa xb m s) s).durable = s.durable := by
  simp [execVins]

@[simp] theorem execVidx_kept (k : CoreId) (vd : RegNo) (m : Bool) (s : State) :
    (resState (execVidx k vd m s) s).pending = s.pending ∧ (resState (execVidx k vd m s) s).man = s.man ∧ (resState (execVidx k vd m s) s).mem = s.mem ∧ (resState (execVidx k vd m s) s).durable = s.durable := by
  simp [execVidx]

end Sys2Proof.Machine
end

