-- ==== Sys2Proof/Laws/Records.lean ====
section
/-! SUPPORT. What writing an error record does (R332, R335, R543): its tile's ERR block, perhaps one interrupt, and nothing else. -/

namespace Sys2Proof.Machine

/-- An interrupt adds at most one output, or sets the pending bit of a masked vector. -/
theorem msix_frame (s : State) (p v : Nat) : s.msix p v = { s with out := (s.msix p v).out, tiles := (s.msix p v).tiles } := by
  unfold State.msix State.emit; (repeat' split) <;> rfl

/-- On a tile an interrupt changes the pending bits alone. -/
theorem msix_tile (s : State) (p v : Nat) (u : TileId) : (s.msix p v).tile u = { s.tile u with msixPend := ((s.msix p v).tile u).msixPend } := by
  unfold State.msix State.emit
  split
  · rfl
  · split
    · by_cases h : u = tid p
      · subst h; simp
      · simp [State.onTile_tile_ne _ h]
    · rfl

/-- Nothing is masked on the port: the tiles stay as they are. -/
theorem msix_tile_open {s : State} {p v : Nat} (h : (s.tile (tid p)).msixMask = []) (u : TileId) : (s.msix p v).tile u = s.tile u := by
  simp only [State.msix, State.emit, h]
  split <;> rfl

/-- A record changes tiles and adds at most one output. -/
theorem logErr_frame (s : State) (t : TileId) (r : ErrRec) :
    s.logErr t r = { s with tiles := (s.logErr t r).tiles, out := (s.logErr t r).out } := by
  unfold State.logErr
  split
  · rfl
  · dsimp only
    split
    · rw [msix_frame]; rfl
    · rfl

/-- On its tile a record changes the ERR block, and the pending bits where its interrupt is masked: it is stamped, numbered and pushed; a
frozen ring takes nothing. -/
theorem logErr_tile (s : State) (t : TileId) (r : ErrRec) :
    (s.logErr t r).tile t = if (s.tile t).evidence.isSome then s.tile t else
      { s.tile t with
        err := (s.tile t).err.push { r with tstamp := s.now, seq := ((s.tile t).err.lastSeq + 1) % 2 ^ 32, tile := t.val }
        msixPend := ((s.logErr t r).tile t).msixPend } := by
  unfold State.logErr
  split
  · rfl
  · dsimp only
    split
    · rw [msix_tile]; simp
    · simp

/-- On another tile a record changes pending bits at most. -/
theorem logErr_tile_ne (s : State) (t : TileId) (r : ErrRec) {u : TileId} (h : u ≠ t) :
    (s.logErr t r).tile u = { s.tile u with msixPend := ((s.logErr t r).tile u).msixPend } := by
  unfold State.logErr
  split
  · rfl
  · dsimp only
    split
    · rw [msix_tile]; simp [State.onTile_tile_ne _ h]
    · simp [State.onTile_tile_ne _ h]

/-- The youngest record of a ring. -/
theorem ringPush_last {α : Type} (n : Nat) (r : List α) (x : α) : (ringPush n r x).getLast? = some x := by
  unfold ringPush; split <;> simp

theorem onCmd_cmd? {s : State} {c : CmdRef} {x : Cmd} (f : Cmd → Cmd) (hf : ∀ y, (f y).ref = y.ref) (h : s.cmd? c = some x) :
    (s.onCmd c f).cmd? c = some (f x) := by
  unfold State.cmd? State.onCmd at *
  simp only
  generalize s.cmds = l at h
  induction l with
  | nil => cases h
  | cons y l ih =>
    simp only [List.find?_cons] at h
    simp only [List.map_cons, List.find?_cons]
    by_cases hy : y.ref = c
    · simp_all
    · simp_all

theorem formed_cmd? {s : State} {c : CmdRef} {x : Cmd} (k : Completion) (h : s.cmd? c = some x) :
    (s.formed c k).cmd? c = some { x with phase := .done, prog := .idle, comp := { k with tstamp := s.now } } :=
  onCmd_cmd? _ (fun _ => rfl) h

theorem cmd?_congr {s s' : State} (c : CmdRef) (h : s'.cmds = s.cmds) : s'.cmd? c = s.cmd? c := by simp [State.cmd?, h]

end Sys2Proof.Machine
end

