-- ==== Sys2Proof/Laws/Store.lean ====
section
/-! SUPPORT. The store as reads see it (R26, R142, R143, R157): what staging, draining and a segment write do to the byte at an address, and that
two bytes of a segment never lie at one address. -/

namespace Sys2Proof.Machine

/-! ### One byte -/

/-- The byte at an address depends on the staging buffer of the address's tile and on the tier alone. -/
theorem cell?_congr {s t : State} (a : Nat) (hs : memRead (t.tile (tid (addrTile a))).staging a = memRead (s.tile (tid (addrTile a))).staging a)
    (hm : memRead t.mem a = memRead s.mem a) : t.cell? a = s.cell? a := by
  simp [State.cell?, hs, hm]

theorem stage1_cell (s : State) (a : Nat) (b : Byte) (j : Nat) :
    (s.stage1 a b).cell? j = if j = a then some b else s.cell? j := by
  unfold State.cell? State.stage1
  by_cases h : tid (addrTile j) = tid (addrTile a)
  · by_cases hj : j = a
    · subst hj; simp [memRead_write]
    · rw [h]; simp [memRead_write, hj]
  · have hj : j ≠ a := fun e => h (by rw [e])
    simp [hj, State.onTile_tile_ne, h]

theorem stage_nil (s : State) : s.stage [] = s := rfl
theorem stage_cons (s : State) (c : Host.Cell) (cs : List Host.Cell) : s.stage (c :: cs) = (s.stage1 c.1 c.2).stage cs := rfl

/-- An address that no cell names keeps its byte. -/
theorem stage_cell_out (cs : List Host.Cell) (s : State) (j : Nat) (h : ∀ c ∈ cs, c.1 ≠ j) : (s.stage cs).cell? j = s.cell? j := by
  induction cs generalizing s with
  | nil => rfl
  | cons c cs ih =>
    rw [stage_cons, ih _ (fun d hd => h d (List.mem_cons_of_mem _ hd)), stage1_cell, if_neg]
    exact fun e => h c List.mem_cons_self e.symm

/-- An address that cells name, all with one byte, holds that byte. -/
theorem stage_cell_in (cs : List Host.Cell) (s : State) (j : Nat) (b : Byte) (hm : ∃ c ∈ cs, c.1 = j) (h : ∀ c ∈ cs, c.1 = j → c.2 = b) :
    (s.stage cs).cell? j = some b := by
  induction cs generalizing s with
  | nil => obtain ⟨c, hc, _⟩ := hm; cases hc
  | cons c cs ih =>
    rw [stage_cons]
    by_cases hr : ∃ d ∈ cs, d.1 = j
    · exact ih _ hr fun d hd => h d (List.mem_cons_of_mem _ hd)
    · rw [stage_cell_out _ _ _ fun d hd e => hr ⟨d, hd, e⟩, stage1_cell]
      obtain ⟨d, hd, e⟩ := hm
      rcases List.mem_cons.mp hd with rfl | hd
      · rw [if_pos e.symm, h _ List.mem_cons_self e]
      · exact absurd ⟨d, hd, e⟩ hr

/-! ### Frames -/

theorem stage1_eq (s : State) (a : Nat) (b : Byte) : s.stage1 a b = { s with tiles := (s.stage1 a b).tiles } := rfl

theorem stage_eq (cs : List Host.Cell) (s : State) : s.stage cs = { s with tiles := (s.stage cs).tiles } := by
  induction cs generalizing s with
  | nil => rfl
  | cons c cs ih => rw [stage_cons, ih]; rfl

theorem stage1_tile (s : State) (a : Nat) (b : Byte) (u : TileId) :
    (s.stage1 a b).tile u = { s.tile u with staging := ((s.stage1 a b).tile u).staging } := by
  unfold State.stage1
  by_cases h : u = tid (addrTile a)
  · subst h; simp
  · simp [State.onTile_tile_ne, h]

theorem stage_tile (cs : List Host.Cell) (s : State) (u : TileId) :
    (s.stage cs).tile u = { s.tile u with staging := ((s.stage cs).tile u).staging } := by
  induction cs generalizing s with
  | nil => rfl
  | cons c cs ih =>
    rw [stage_cons]
    have h1 := ih (s.stage1 c.1 c.2)
    have h2 := stage1_tile s c.1 c.2 u
    rw [h1, h2]

theorem cleanse_eq (s : State) (cs : List Host.Cell) : s.cleanse cs = { s with poison := (s.cleanse cs).poison } := by
  unfold State.cleanse; split <;> rfl

@[simp] theorem cleanse_cell (s : State) (cs : List Host.Cell) (a : Nat) : (s.cleanse cs).cell? a = s.cell? a := by
  unfold State.cleanse; split <;> rfl

@[simp] theorem cleanse_tile (s : State) (cs : List Host.Cell) (u : TileId) : (s.cleanse cs).tile u = s.tile u := by
  unfold State.cleanse; split <;> rfl

@[simp] theorem setSeg_cell (s : State) (n : Nat) (v : Seg) (a : Nat) : (s.setSeg n v).cell? a = s.cell? a := rfl

@[simp] theorem onSeg_cell (s : State) (n : Nat) (f : Seg → Seg) (a : Nat) : (s.onSeg n f).cell? a = s.cell? a := rfl

/-! ### Addresses of a segment -/

theorem storeAddr_inj {t t' r r' o o' : Nat} (hr : r < 4) (hr' : r' < 4) (ho : o < 2 ^ 47) (ho' : o' < 2 ^ 47)
    (h : storeAddr t r o = storeAddr t' r' o') : t = t' ∧ r = r' ∧ o = o' := by
  unfold storeAddr at h; omega

theorem tier_lt (g : Seg) : g.tier < 4 := by
  unfold Seg.tier addrTier bits; exact Nat.mod_lt _ (by decide)

theorem maskTiles_nodup (m : Nat) : (maskTiles m).Nodup := List.Pairwise.filter _ List.nodup_range

theorem ceilDiv_gt {b n m : Nat} (hm : 0 < m) (h : b < n) : b / m < ceilDiv n m := by
  unfold ceilDiv
  apply (Nat.div_lt_iff_lt_mul hm).mpr
  have := Nat.div_add_mod (n + m - 1) m
  have := Nat.mod_lt (n + m - 1) hm
  rw [Nat.mul_comm]; omega

theorem unit_bound {r n b : Nat} (h : r < n) : r * unitB + b % unitB < n * unitB := by
  have : b % unitB < unitB := Nat.mod_lt _ (by decide)
  calc r * unitB + b % unitB < r * unitB + unitB := by omega
    _ = (r + 1) * unitB := by rw [Nat.add_mul, Nat.one_mul]
    _ ≤ n * unitB := Nat.mul_le_mul_right _ h

theorem row_split {r r' b b' : Nat} (h : r * unitB + b % unitB = r' * unitB + b' % unitB) : r = r' ∧ b % unitB = b' % unitB := by
  unfold unitB at *; omega

/-- The striped layout gives different bytes different addresses (R142). -/
theorem stripeAddr_inj {g : Seg} (hp : g.placement = 1) (hl : g.laid) {b b' : Nat} (hb : b < g.length) (hb' : b' < g.length)
    (h : g.stripeAddr b = g.stripeAddr b') : b = b' := by
  obtain ⟨hne, hoff⟩ := hl
  have hne := hne (.inl hp)
  have hn : 0 < (maskTiles g.tiles).length := List.length_pos_iff.mpr hne
  have hrow : ∀ {c}, c < g.length → c / unitB / (maskTiles g.tiles).length < g.rowUnits := fun {c} hc => by
    unfold Seg.rowUnits
    rw [if_pos hp]
    exact ceilDiv_gt hn (ceilDiv_gt (by decide) hc)
  have hlt : ∀ {c}, c < g.length → g.off + c / unitB / (maskTiles g.tiles).length * unitB + c % unitB < 2 ^ 47 := fun {c} hc => by
    have := unit_bound (b := c) (hrow hc); omega
  unfold Seg.stripeAddr at h
  dsimp only at h
  obtain ⟨ht, -, ho⟩ := storeAddr_inj (tier_lt g) (tier_lt g) (hlt hb) (hlt hb') h
  obtain ⟨hr, hm⟩ := row_split (r := b / unitB / (maskTiles g.tiles).length) (r' := b' / unitB / (maskTiles g.tiles).length) (b := b) (b' := b')
    (by omega)
  have hk := Nat.mod_lt (b / unitB) hn
  have hk' := Nat.mod_lt (b' / unitB) hn
  have hx : b / unitB % (maskTiles g.tiles).length = b' / unitB % (maskTiles g.tiles).length := by
    have hp := List.pairwise_iff_getElem.mp (maskTiles_nodup g.tiles)
    have he : (maskTiles g.tiles)[b / unitB % (maskTiles g.tiles).length] = (maskTiles g.tiles)[b' / unitB % (maskTiles g.tiles).length] := by
      simpa [List.getD_eq_getElem?_getD, List.getElem?_eq_getElem hk, List.getElem?_eq_getElem hk'] using ht
    rcases Nat.lt_trichotomy (b / unitB % (maskTiles g.tiles).length) (b' / unitB % (maskTiles g.tiles).length) with c | c | c
    · exact absurd he (hp _ _ hk hk' c)
    · exact c
    · exact absurd he.symm (hp _ _ hk' hk c)
  have hd := Nat.div_add_mod (b / unitB) (maskTiles g.tiles).length
  have hd' := Nat.div_add_mod (b' / unitB) (maskTiles g.tiles).length
  rw [hr, hx] at hd
  have hq : b / unitB = b' / unitB := by omega
  have e := Nat.div_add_mod b unitB
  have e' := Nat.div_add_mod b' unitB
  rw [hq, hm] at e
  omega

/-- Two bytes of a segment lie at no common address (R142, R143). -/
theorem locs_inj {g : Seg} (hl : g.laid) {b b' a : Nat} (hb : b < g.length) (hb' : b' < g.length) (h : a ∈ g.locs b) (h' : a ∈ g.locs b') :
    b = b' := by
  unfold Seg.locs at h h'
  by_cases h1 : g.placement = 1
  · simp only [h1, if_true, List.mem_singleton] at h h'
    exact stripeAddr_inj h1 hl hb hb' (h.symm.trans h')
  · by_cases h2 : g.placement = 2
    · rw [if_neg h1, if_pos h2, List.mem_map] at h h'
      obtain ⟨t, -, rfl⟩ := h
      obtain ⟨t', -, e⟩ := h'
      have hlen : ∀ {c}, c < g.length → c < g.rowUnits * unitB := fun {c} hc => by
        have h3 : c / unitB < g.rowUnits := by
          unfold Seg.rowUnits; rw [if_neg h1]; exact ceilDiv_gt (by decide) hc
        have := unit_bound (b := c) h3
        have := Nat.div_add_mod c unitB
        rw [Nat.mul_comm] at this; omega
      have := hlen hb
      have := hlen hb'
      have := hl.2
      have := (storeAddr_inj (tier_lt g) (tier_lt g) (by omega) (by omega) e).2.2
      omega
    · simp only [h1, h2, if_false, List.mem_singleton] at h h'
      omega

/-- What a unit reads is one of the places that hold the byte (R143). -/
theorem readLoc_mem {g : Seg} (s : State) (hl : g.laid) {t : Nat} (h8 : t < 8) (b : Nat) : s.readLoc t g b ∈ g.locs b := by
  unfold State.readLoc Seg.locs
  split
  · simp
  · split
    · rename_i h2
      refine List.mem_map.mpr ⟨s.copyFor t g, ?_, rfl⟩
      have hne := hl.1 (.inr h2)
      unfold State.copyFor
      split
      · rename_i ht
        exact List.mem_filter.mpr ⟨List.mem_range.mpr h8, ht⟩
      · have hf : ∀ (l : List Nat) (d : Nat), d ∈ maskTiles g.tiles → (∀ x ∈ l, x ∈ maskTiles g.tiles) →
            l.foldl (fun b u => if s.hops t u < s.hops t b then u else b) d ∈ maskTiles g.tiles := by
          intro l
          induction l with
          | nil => intro d hd _; exact hd
          | cons x l ih =>
            intro d hd hx
            refine ih _ ?_ fun y hy => hx y (List.mem_cons_of_mem _ hy)
            show (if s.hops t x < s.hops t d then x else d) ∈ maskTiles g.tiles
            by_cases hc : s.hops t x < s.hops t d
            · rw [if_pos hc]; exact hx x List.mem_cons_self
            · rw [if_neg hc]; exact hd
        refine hf _ _ ?_ fun x hx => hx
        cases hm : maskTiles g.tiles with
        | nil => exact absurd hm hne
        | cons y l => simp
    · simp

/-! ### Draining -/

theorem memRead_foldr (cs : List Host.Cell) (m : Mem) (a : Nat) :
    memRead (cs.foldr (fun c m => memWrite m c.1 c.2) m) a = (memRead cs a).orElse fun _ => memRead m a := by
  induction cs with
  | nil => rfl
  | cons c cs ih =>
    simp only [List.foldr_cons, memRead_write, ih]
    by_cases h : a = c.1
    · simp [h, memRead, tblFind]
    · simp [h, memRead, tblFind, Ne.symm h]

theorem memRead_filter (m : Mem) (p : Host.Cell → Bool) (a : Nat) (q : Bool) (h : ∀ c ∈ m, c.1 = a → p c = q) :
    memRead (m.filter p) a = if q then memRead m a else none := by
  induction m with
  | nil => cases q <;> rfl
  | cons c cs ih =>
    have ih := ih fun d hd => h d (List.mem_cons_of_mem _ hd)
    by_cases hc : c.1 = a
    · have := h c List.mem_cons_self hc
      cases q <;> simp_all [memRead, tblFind]
    · by_cases hp : p c
      · simp only [List.filter_cons, hp, if_true]
        cases q <;> simp_all [memRead, tblFind]
      · simp only [List.filter_cons, hp]
        cases q <;> simp_all [memRead, tblFind]

/-- Draining a tile changes no byte that a read returns. -/
theorem drainTile_cell (s : State) (p : Nat → Bool) (t : TileId) (a : Nat) : (s.drainTile p t).cell? a = s.cell? a := by
  unfold State.drainTile State.cell?
  have h1 := memRead_filter (s.tile t).staging (fun c => p c.1 && addrTile c.1 == t.val) a (p a && addrTile a == t.val) (fun c _ e => by rw [e])
  have h2 := memRead_filter (s.tile t).staging (fun c => !(p c.1 && addrTile c.1 == t.val)) a (!(p a && addrTile a == t.val)) (fun c _ e => by rw [e])
  by_cases ht : tid (addrTile a) = t
  · rw [ht]
    simp only [State.onTile_tile, State.onTile_mem]
    rw [memRead_foldr, h1]
    show (match memRead (List.filter (fun c => !(p c.1 && addrTile c.1 == t.val)) (s.tile t).staging) a with | some b => some b | none => _) = _
    rw [h2]
    cases p a && addrTile a == t.val <;> cases hq : memRead (s.tile t).staging a <;> simp [State.tile] <;> simp_all
  · have hn : (addrTile a == t.val) = false := by
      rw [beq_eq_false_iff_ne]; intro e; apply ht; rw [e]
      apply Fin.ext; simp [tid, Nat.mod_eq_of_lt t.isLt]
    simp only [State.onTile_tile_ne _ ht, State.onTile_mem]
    rw [memRead_foldr, h1, hn]; simp [State.tile]

theorem foldl_cell {α : Type} (f : State → α → State) (a : Nat) (h : ∀ s x, (f s x).cell? a = s.cell? a) (l : List α) (s : State) :
    (l.foldl f s).cell? a = s.cell? a := by
  induction l generalizing s with
  | nil => rfl
  | cons x l ih => rw [List.foldl_cons, ih, h]

theorem drainWhere_cell (s : State) (p : Nat → Bool) (a : Nat) : (s.drainWhere p).cell? a = s.cell? a :=
  foldl_cell _ a (fun s t => drainTile_cell s p t a) _ _

/-- A drain of full buffers changes no byte that a read returns. -/
theorem drainFull_cell (s : State) (a : Nat) : s.drainFull.cell? a = s.cell? a :=
  foldl_cell _ a (fun s t => by
    split
    · rfl
    · exact drainTile_cell s _ t a) _ _

theorem drainTile_eq (s : State) (p : Nat → Bool) (t : TileId) :
    s.drainTile p t = { s with mem := (s.drainTile p t).mem, tiles := (s.drainTile p t).tiles } := rfl

theorem drainFull_eq (s : State) : s.drainFull = { s with mem := s.drainFull.mem, tiles := s.drainFull.tiles } := by
  unfold State.drainFull
  generalize allTiles = l
  induction l generalizing s with
  | nil => rfl
  | cons t l ih =>
    rw [List.foldl_cons, ih]
    split <;> rfl

theorem drainTile_tile (s : State) (p : Nat → Bool) (t u : TileId) :
    (s.drainTile p t).tile u = { s.tile u with staging := ((s.drainTile p t).tile u).staging } := by
  unfold State.drainTile
  by_cases h : u = t
  · subst h; rw [State.onTile_tile]; rfl
  · rw [State.onTile_tile_ne _ h]; rfl

theorem drainFull_tile (s : State) (u : TileId) : s.drainFull.tile u = { s.tile u with staging := (s.drainFull.tile u).staging } := by
  unfold State.drainFull
  generalize allTiles = l
  induction l generalizing s with
  | nil => rfl
  | cons t l ih =>
    rw [List.foldl_cons, ih]
    split
    · rfl
    · rw [drainTile_tile]

/-! ### A segment write -/

theorem mem_writeCells {g : Seg} {off : Nat} {bs : List Byte} {c : Host.Cell} :
    c ∈ g.writeCells off bs ↔ ∃ i, ∃ h : i < bs.length, c.1 ∈ g.locs (off + i) ∧ c.2 = bs[i] := by
  unfold Seg.writeCells
  simp only [List.mem_flatMap, List.mem_map]
  constructor
  · rintro ⟨⟨b, i⟩, hp, a, ha, rfl⟩
    obtain ⟨hi, e⟩ := List.mem_zipIdx' hp
    exact ⟨i, hi, ha, e⟩
  · rintro ⟨i, hi, ha, hb⟩
    refine ⟨(bs[i], i), List.mem_zipIdx_iff_getElem?.mpr (by simp), c.1, ha, ?_⟩
    rw [← hb]

theorem segStore_nil (s : State) (id : Nat) (g : Seg) (off : Nat) : s.segStore id g off [] = s := rfl

/-- A read after a segment write sees the bytes written at every place that holds them, and every other byte as before. -/
theorem segPut_stored (s : State) (g : Seg) (off : Nat) (bs : List Byte) (hl : g.laid) (hn : off + bs.length ≤ g.length) :
    storedIn s (s.segPut g off bs) g off bs := by
  unfold State.segPut
  constructor
  · intro i hi a ha
    simp only [drainFull_cell, cleanse_cell]
    refine stage_cell_in _ _ _ _ ⟨(a, bs[i]), mem_writeCells.mpr ⟨i, hi, ha, rfl⟩, rfl⟩ ?_
    intro c hc e
    obtain ⟨j, hj, hja, hb⟩ := mem_writeCells.mp hc
    have : off + i = off + j := locs_inj hl (by omega) (by omega) ha (e ▸ hja)
    have : i = j := by omega
    subst this; exact hb
  · intro a ha
    simp only [drainFull_cell, cleanse_cell]
    refine stage_cell_out _ _ _ fun c hc e => ?_
    obtain ⟨j, hj, hja, -⟩ := mem_writeCells.mp hc
    exact ha j hj (e ▸ hja)

theorem segStore_stored (s : State) (id : Nat) (g : Seg) (off : Nat) (bs : List Byte) (hl : g.laid) (hn : off + bs.length ≤ g.length) :
    storedIn s (s.segStore id g off bs) g off bs := by
  unfold State.segStore
  split
  · next h =>
    have h : bs = [] := by simpa using h
    subst h
    exact ⟨fun i hi => absurd hi (Nat.not_lt_zero i), fun _ _ => rfl⟩
  · obtain ⟨h1, h2⟩ := segPut_stored s g off bs hl hn
    exact ⟨fun i hi a ha => (onSeg_cell _ _ _ _).trans (h1 i hi a ha), fun a ha => (onSeg_cell _ _ _ _).trans (h2 a ha)⟩

/-! ### What a write leaves -/

theorem seg_setSeg (s : State) (n : Nat) (v : Seg) (j : Nat) : (s.setSeg n v).seg j = if j = n then v else s.seg j := by
  unfold State.setSeg State.seg
  by_cases h : j = n
  · subst h; simp [tblGet_set_self]
  · simp [tblGet_set_ne, h]

/-- The fields that a segment write may change: the buffers of the tiles, the tiers where a full buffer drains, and poison. -/
theorem segPut_eq (s : State) (g : Seg) (off : Nat) (bs : List Byte) :
    s.segPut g off bs = { s with tiles := (s.segPut g off bs).tiles, mem := (s.segPut g off bs).mem, poison := (s.segPut g off bs).poison } := by
  unfold State.segPut
  dsimp only
  rw [drainFull_eq, cleanse_eq, stage_eq]

theorem segPut_segs (s : State) (g : Seg) (off : Nat) (bs : List Byte) : (s.segPut g off bs).segs = s.segs := by rw [segPut_eq]

theorem segStore_seg (s : State) (id : Nat) (g : Seg) (off : Nat) (bs : List Byte) (h : bs ≠ []) (j : Nat) :
    (s.segStore id g off bs).seg j = if j = id then { s.seg id with dirty := true } else s.seg j := by
  have e : bs.isEmpty = false := by simpa using h
  unfold State.segStore State.onSeg
  rw [e]
  simp only [Bool.false_eq_true, if_false, seg_setSeg]
  simp only [State.seg, segPut_segs]

theorem segStore_frame (s : State) (id : Nat) (g : Seg) (off : Nat) (bs : List Byte) :
    s.segStore id g off bs =
      { s with
        tiles := (s.segStore id g off bs).tiles, mem := (s.segStore id g off bs).mem, poison := (s.segStore id g off bs).poison
        segs := (s.segStore id g off bs).segs, mapCopies := (s.segStore id g off bs).mapCopies } := by
  unfold State.segStore State.onSeg State.setSeg
  split
  · rfl
  · have e := segPut_eq s g off bs
    generalize s.segPut g off bs = u at e ⊢
    cases u
    cases e
    rfl

theorem setSeg_tile' (s : State) (n : Nat) (v : Seg) (u : TileId) : (s.setSeg n v).tile u = s.tile u := rfl

theorem segPut_tile (s : State) (g : Seg) (off : Nat) (bs : List Byte) (u : TileId) :
    (s.segPut g off bs).tile u = { s.tile u with staging := ((s.segPut g off bs).tile u).staging } := by
  unfold State.segPut
  dsimp only
  rw [drainFull_tile, cleanse_tile, stage_tile]

theorem segStore_tile (s : State) (id : Nat) (g : Seg) (off : Nat) (bs : List Byte) (u : TileId) :
    (s.segStore id g off bs).tile u = { s.tile u with staging := ((s.segStore id g off bs).tile u).staging } := by
  unfold State.segStore State.onSeg
  split
  · rfl
  · rw [setSeg_tile']; exact segPut_tile s g off bs u

end Sys2Proof.Machine
end

