-- ==== Sys2Proof/Laws/Votes.lean ====
section
/-! SUPPORT. What votes on power domains change: the domains of a tile, and nothing else (R368, R369). -/

namespace Sys2Proof.Machine

theorem depPass_doms (x : Tile) : ∃ v, x.depPass = { x with doms := v } := ⟨_, rfl⟩

/-- Settling the DEPENDENCY votes changes the domains alone. -/
theorem settle_doms (x : Tile) : ∃ v, x.settle = { x with doms := v } := by
  unfold Tile.settle
  obtain ⟨v, h⟩ := depPass_doms x
  obtain ⟨w, h'⟩ := depPass_doms x.depPass
  obtain ⟨z, h''⟩ := depPass_doms x.depPass.depPass
  exact ⟨z, by rw [h'', h', h]⟩

theorem settle_onto (x : Tile) (v : Vector Dom 56) :
    ({ x with doms := v } : Tile).settle = { x with doms := ({ x with doms := v } : Tile).settle.doms } := by
  obtain ⟨w, h⟩ := settle_doms { x with doms := v }
  rw [h]

/-- Firmware's votes change the domains of their tile alone. -/
theorem revote_tile (s : State) (t u : TileId) : (s.revote t).tile u = { s.tile u with doms := ((s.revote t).tile u).doms } := by
  unfold State.revote
  by_cases h : u = t
  · subst h; rw [State.onTile_tile]; exact settle_onto _ _
  · rw [State.onTile_tile_ne _ h]

theorem revote_frame (s : State) (t : TileId) : s.revote t = { s with tiles := (s.revote t).tiles } := rfl

theorem foldl_revote (l : List TileId) (s : State) (u : TileId) :
    (l.foldl (fun s t => s.revote t) s) = { s with tiles := (l.foldl (fun s t => s.revote t) s).tiles } ∧
    (l.foldl (fun s t => s.revote t) s).tile u = { s.tile u with doms := ((l.foldl (fun s t => s.revote t) s).tile u).doms } := by
  induction l generalizing s with
  | nil => exact ⟨rfl, rfl⟩
  | cons t l ih =>
    rw [List.foldl_cons]
    refine ⟨?_, ?_⟩
    · rw [(ih (s.revote t)).1, revote_frame]
    · rw [(ih (s.revote t)).2, revote_tile]

theorem revoteAll_frame (s : State) : s.revoteAll = { s with tiles := s.revoteAll.tiles } := (foldl_revote _ s 0).1

theorem revoteAll_tile (s : State) (u : TileId) : s.revoteAll.tile u = { s.tile u with doms := (s.revoteAll.tile u).doms } :=
  (foldl_revote _ s u).2

/-- A vote changes the domains of its tile alone. -/
theorem castVote_frame (s : State) (t : TileId) (d : DomId) (voter v : Nat) :
    s.castVote t d voter v = { s with tiles := (s.castVote t d voter v).tiles } := by
  unfold State.castVote; split <;> rfl

theorem castVote_tile (s : State) (t u : TileId) (d : DomId) (voter v : Nat) :
    (s.castVote t d voter v).tile u = { s.tile u with doms := ((s.castVote t d voter v).tile u).doms } := by
  unfold State.castVote
  split
  · rfl
  · by_cases h : u = t
    · subst h; rw [State.onTile_tile]; exact settle_onto _ _
    · rw [State.onTile_tile_ne _ h]

end Sys2Proof.Machine
end

