-- ==== Sys2Proof/WellFormed.lean ====
section
/-! DEFINITION. Which commands are well formed: byte strings of the lengths their messages have, and numbers that fit the fields
they stand for. A command that is not well formed never reaches the block. -/

namespace Sys2Proof

def entryOk : EntryRead → Bool
  | .ok bs => bs.length == 64
  | .bad _ => true

def headerOk (h : MsgHdr) : Bool :=
  decide (h.vc < 5 ∧ h.len < 65536 ∧ h.slice < 1024 ∧ h.sgen < 65536 ∧ h.queue < 4096 ∧ h.qgen < 65536)

def regWriteOk (w : RegWrite) : Bool :=
  decide (w.addr < 2 ^ 26) && (w.size == 4 || w.size == 8) && (w.size == 8 || decide (w.value.toNat < 2 ^ 32))

/-- The shape of a command's operands. -/
def Instr.wf : Instr → Bool
  | .cinchPrepare _ change arg epoch => decide (change < 256 ∧ arg < 256 ∧ epoch < 65536)
  | .cinchReady _ epoch => decide (epoch < 65536)
  | .cinchRefuse _ epoch reason => decide (epoch < 65536 ∧ reason < 256)
  | .cinchAbort _ epoch => decide (epoch < 65536)
  | .cinchPulse _ epoch => decide (epoch < 65536)
  | .cinchCommit _ epoch => decide (epoch < 65536)
  | .cinchApplied _ epoch seq => decide (epoch < 65536 ∧ seq < 2 ^ 32)
  | .cinchHalt _ _ cause => decide (cause < 256)
  | .doorbell w => decide (w.off < 4096)
  | .ringEntryRead _ reads => reads.all entryOk
  | .ownReread _ r => entryOk r
  | .aliasWrite w => regWriteOk w
  | .registerWrite w => regWriteOk w
  | .applyModeClear w => regWriteOk w
  | .dataFlit _ _ _ bs => bs.length == 256
  | .idleFlit _ _ _ bs => bs.length == 256
  | .linkParams _ _ body => body.length == 32
  | .sidebandCtl _ _ msg => decide (16 ≤ msg.length ∧ msg.length ≤ 64)
  | .rdLine h tag addr => headerOk h && decide (tag < 65536 ∧ addr < 2 ^ 52)
  | .wrLine h tag addr _ data => headerOk h && decide (tag < 65536 ∧ addr < 2 ^ 52) && data.length == 64
  | .regRd h tag off => headerOk h && decide (tag < 65536 ∧ off < 2 ^ 32)
  | .regWr h tag off _ => headerOk h && decide (tag < 65536 ∧ off < 2 ^ 32)
  | .rdData h tag rstat data => headerOk h && decide (tag < 65536 ∧ rstat < 256) && data.length == 64
  | .wrAck h tag rstat => headerOk h && decide (tag < 65536 ∧ rstat < 256)
  | .regData h tag rstat _ => headerOk h && decide (tag < 65536 ∧ rstat < 256)
  | .xack h qid _ attempt _ count => headerOk h && decide (qid < 65536 ∧ attempt < 4 ∧ count < 2 ^ 32)
  | .xrec h qid _ part _ => headerOk h && decide (qid < 65536 ∧ part < 65536)
  | .xtallyReq h qid _ attempt _ => headerOk h && decide (qid < 65536 ∧ attempt < 4)
  | .xchgTally h qid _ attempt _ cnt xorHash => headerOk h && decide (qid < 65536 ∧ attempt < 4 ∧ cnt < 2 ^ 64 ∧ xorHash < 2 ^ 64)
  | .barrier h qid _ => headerOk h && decide (qid < 65536)
  | .emitBase h qid _ base => headerOk h && decide (qid < 65536 ∧ base < 2 ^ 64)
  | .schedState h _ _ _ _ => headerOk h
  | .stealReq h _ _ => headerOk h
  | .stealGrant h _ _ => headerOk h
  | .stealRefuse h _ => headerOk h
  | .bootData h _ _ => headerOk h
  | .fwMsg h _ _ _ => headerOk h
  | .trainSequence seen => seen.length == 8 && seen.all fun x => x.modules.length == 4 &&
      decide (x.dimm0Gib + x.dimm1Gib ≤ 512) && x.expanders.all fun e => (e.brought.getD []).all fun r => r.length == 64
  | .digViewGo _ _ _ desc _ => desc.length == 64
  | _ => true

end Sys2Proof
end

