-- ==== Sys2Proof/Tests/Slice0.lean ====
section
/-! SUPPORT. Tests: ill-formed commands, words of the Sumen encodings, worked examples of the spec, and for every obligation with
hypotheses a state and operands that meet them, clause by clause. -/

set_option Elab.async false

namespace Sys2Proof.Tests

open Sys2Proof Sys2Proof.Machine

/-! ### Builders -/

/-- Bytes of an entry from its fields (offset, length, value). -/
def entry (fs : List (Nat × Nat × Nat)) : List Byte :=
  (List.range 64).map fun i =>
    BitVec.ofNat 8 ((fs.map fun f => if f.1 ≤ i ∧ i < f.1 + f.2.1 then f.2.2 / 2 ^ (8 * (i - f.1)) % 256 else 0).sum)

def tc : CmdRef := { q := 1, ix := 0 }

/-- A started command of one entry. -/
def cmdOf (op : Nat) (fs : List (Nat × Nat × Nat)) (prog : Prog := .idle) : Cmd :=
  { ref := tc, entries := [entry ((0, 1, op) :: fs)], phase := .started, prog := prog, registered := true }

/-- A device in SERVICE with every domain ON and the link of tile 0 up. -/
def base : State := { State.reset with
  now := 1000000
  dev := { State.reset.dev with mode := .service, hostRole := 1 }
  tiles := State.reset.tiles.map fun x => { x with linkUp := true, ddr0Gib := 16, mode := .service, doms := x.doms.map fun d => { d with st := .on } } }

def withCmd (s : State) (x : Cmd) : State := { s with cmds := [x] }

/-- The command has started and does not wait. -/
def fresh (s : State) (op : Nat) (fs : List (Nat × Nat × Nat)) : Bool :=
  decide ((withCmd s (cmdOf op fs)).fresh? tc op = some (cmdOf op fs))

/-- The command has started and waits. -/
def waits (s : State) (op : Nat) (p : Prog) : Bool := decide ((withCmd s (cmdOf op [] p)).progOp? tc op = some p)

def isNext : Res → Bool
  | .next _ => true
  | _ => false

/-- An image of R183 to R190: one pipeline that scans slot 0 and emits it to slot 1, both INT64. -/
def tinyImage : List Byte :=
  let sect (ty pipe off len : Nat) := leBytes 2 ty ++ leBytes 1 pipe ++ [0] ++ leBytes 4 off ++ leBytes 4 len ++ leBytes 4 0
  let slot (role : Nat) := leBytes 1 role ++ [0x05, 0, 0, 0, 0xFF, 0, 0]
  let head := leBytes 4 0x49504C5A ++ leBytes 2 1 ++ leBytes 2 3 ++ leBytes 4 232
  let rest := leBytes 1 1 ++ [0] ++ leBytes 2 2 ++ leBytes 2 0 ++ [0] ++ List.replicate 41 0 ++
    sect 1 0xFF 112 16 ++ sect 2 0xFF 128 16 ++ sect 4 0 144 88 ++
    ([1, 0xFF, 2, 0] ++ List.replicate 12 0) ++ slot 0 ++ slot 3 ++
    ([1, 0] ++ leBytes 2 16 ++ leBytes 4 0 ++ [1] ++ List.replicate 15 0) ++
    ([0x0C, 0] ++ leBytes 2 56 ++ leBytes 4 0 ++ [0, 1, 0, 0] ++ leBytes 2 1 ++ leBytes 2 0 ++ leBytes 8 0 ++
      [0] ++ List.replicate 15 0xFF ++ [1] ++ List.replicate 15 0xFF ++ leBytes 8 0)
  head ++ leBytes 4 (crc32c (head ++ leBytes 4 0 ++ rest)) ++ rest

/-! ### Witnesses -/

theorem test_w02 : base.pending = [] ∧ base.dev.mode ≠ .cold ∧ State.reset.pending = [] ∧ State.reset.dev.mode = .cold := by decide +kernel

theorem test_w04_w05_w06 : isNext (exec (.nop tc) (withCmd base (cmdOf 0x7F []))) = true ∧ base.memOk = true ∧
    isNext (step { base with pending := [.nop tc] }) = true ∧ touchesMemory (.nop tc) = false := by decide +kernel

theorem test_w07 : fresh base 0x01 [] = true ∧ fresh base 0x01 [(4, 1, 1)] = true ∧ fresh base 0x02 [(4, 1, 6), (8, 8, 64), (24, 4, 4096)] = true ∧
    fresh base 0x71 [(4, 1, 7), (5, 1, 3)] = true ∧ fresh base 0x7F [] = true ∧
    ([1, 2, 3, 4, 5, 6].all fun n => fresh base 0x03 [(4, 2, n), (8, 8, 1)] && (cmdOf 0x03 [(4, 2, n), (8, 8, 1)]).f 4 2 == n) = true ∧
    fresh base 0x70 [] = true ∧ fresh base 0x70 [(4, 2, 65535)] = true ∧ fresh base 0x04 [(4, 1, 1), (8, 4, 4096)] = true ∧
    fresh base 0x05 [] = true ∧ base.dev.activation = none ∧ (base.flash.slot 0).valid base.man.minSvn = true ∧
    (let x := cmdOf 0x02 [(4, 1, 6), (8, 8, 64), (24, 4, 4096)]
    7 < min (x.dref 16).total (logSize (x.f 4 1) - x.f 8 8)) := by decide +kernel

/-- SEG_ALLOC for any ID and for the highest one. -/
def allocFields (id : Nat) : List (Nat × Nat × Nat) := [(4, 4, id), (8, 8, 4096), (16, 1, 0)]

theorem test_w08_w09 : fresh base 0x20 (allocFields 0) = true ∧ base.allocCheck (cmdOf 0x20 (allocFields 0)) = none ∧
    fresh base 0x20 (allocFields 262143) = true ∧ base.allocCheck (cmdOf 0x20 (allocFields 262143)) = none ∧
    (cmdOf 0x20 (allocFields 0)).f 16 1 ≤ 2 ∧ fresh base 0x21 [(4, 4, 1)] = true ∧ waits base 0x21 (.freeWait 3) = true ∧
    (cmdOf 0x21 [] (.freeWait 3)).ref = tc := by decide +kernel

/-- Segment 3 on tile 0 and segment 4 on tiles 0 and 1, in DDR. -/
def segS : State := { base with segs := [
  (3, { base := storeAddr 0 1 0, tiles := 1, length := 4096, placement := 0, valid := true, gen := 1, charged := 1 }),
  (4, { base := storeAddr 0 1 (2 ^ 21), tiles := 3, length := 2 ^ 22, placement := 1, valid := true, gen := 1, charged := 1 })] }

def writeFields : List (Nat × Nat × Nat) := [(4, 4, 4), (8, 8, 2 ^ 21 - 4), (24, 4, 8)]
def copyFields : List (Nat × Nat × Nat) := [(4, 4, 3), (8, 4, 4), (16, 8, 4088), (24, 8, 2 ^ 21 - 4), (32, 8, 8)]

/-- A persistent region of 4 GiB on tile 1, with the directory record of segment 5 in slot 0. -/
def perT : State := base.onTile 1 fun x => { x with cxl := [{ volAt := 0, volB := 0, persAt := 0, persB := 2 ^ 32 }] }
def per5 : Seg := { base := storeAddr 1 2 (2 ^ 21), tiles := 2, length := 4096, valid := true, gen := 1, persistent := true }
def perS : State := { perT with segs := [(5, per5)], mem := memWriteBytes [] (perT.dirBase 1 0) (dirRecord per5 5 0 1) }

set_option maxRecDepth 100000 in
theorem test_w08_persistent : (let f := [(4, 4, 0), (8, 8, 4096), (16, 1, 2), (18, 1, 1), (20, 1, 1)]
    fresh perT 0x20 f = true ∧ perT.allocCheck (cmdOf 0x20 f) = none ∧ bit ((cmdOf 0x20 f).f 20 1) 0 = true) := by decide +kernel

set_option maxRecDepth 100000 in
theorem test_w09_removal : (withCmd perS (cmdOf 0x21 [] (.freeWait 5))).progOp? tc 0x21 = some (.freeWait 5) ∧ (perS.seg 5).persistent = true ∧
    addrTile (perS.seg 5).base = 1 ∧ perS.expanderOf (perS.seg 5) = 0 ∧
    perS.dirFind 1 0 (fun r => dirRecordOk r && field r 32 4 == 5) = some 0 ∧
    (let y : Cmd := { cmdOf 0x23 [(4, 4, 5)] with ref := { q := 1, ix := 1 }, named := [5] }
    y.ref ≠ tc ∧ 5 ∈ y.named) := by decide +kernel

theorem test_w09_free : (segS.seg 3).valid = true ∧ (withCmd segS (cmdOf 0x21 [] (.freeWait 3))).progOp? tc 0x21 = some (.freeWait 3) ∧
    (withCmd segS (cmdOf 0x21 [] (.freeWait 3))).cmds.all (fun y => decide (y.ref = tc)) = true ∧ (segS.seg 3).persistent = false := by
  decide +kernel

/-- Bytes 64 to 127 of segment 4 are poisoned on tile 0. -/
def badS : State := { segS with poison := [(segS.readLoc 0 (segS.seg 4) 64) / 64] }

theorem test_w10_w11_errors : unitFloor (2 ^ 21 - 4) 7 = 4 ∧ (2 ^ 21 - 4) + 4 ≤ (segS.seg 4).length ∧
    fresh badS 0x23 [(4, 4, 4), (8, 8, 0), (24, 4, 128)] = true ∧ badS.reachable [4] = true ∧ badS.poisonAt 0 (badS.seg 4) 0 128 = some 64 ∧
    (let f := [(4, 4, 4), (8, 4, 3), (16, 8, 0), (24, 8, 8), (32, 8, 128)]
    fresh badS 0x24 f = true ∧ badS.reachable [4, 3] = true ∧ badS.poisonAt 0 (badS.seg 4) ((cmdOf 0x24 f).f 16 8) ((cmdOf 0x24 f).f 32 8) = some 64 ∧
      unitFloor 8 64 = 56) := by decide +kernel

theorem test_w10 : fresh segS 0x22 writeFields = true ∧ segS.reachable [4] = true ∧
    maskTiles (segS.seg 4).tiles ≠ [] ∧ (segS.seg 4).off + (segS.seg 4).rowUnits * unitB ≤ 2 ^ 47 ∧
    (cmdOf 0x22 writeFields).f 4 4 = 4 ∧ (cmdOf 0x22 writeFields).f 8 8 + 8 ≤ (segS.seg 4).length ∧
    (cut (List.replicate 8 (7 : Byte)) 0 ((cmdOf 0x22 writeFields).dref 16).total).length = 8 := by decide +kernel

theorem test_w11 : fresh segS 0x23 writeFields = true ∧ segS.poisonAt 0 (segS.seg 4) (2 ^ 21 - 4) 8 = none ∧
    fresh segS 0x24 copyFields = true ∧ segS.reachable [3, 4] = true ∧ (segS.seg 4).codec ≠ 1 ∧
    segS.poisonAt 0 (segS.seg 3) 4088 8 = none ∧ (cmdOf 0x24 copyFields).f 24 8 + (cmdOf 0x24 copyFields).f 32 8 ≤ (segS.seg 4).length := by
  decide +kernel

def flushOf (ps : List GpfPhase) : Prog := .flush { phases := ps, segs := [5], snap := [], began := 1 }
def dirWaitOf (removal : Bool) (phase : Nat) : Prog := .dirWait { segid := 5, removal := removal, slot := 0, phase := ⟨1, 0, phase⟩, result := [] }

theorem test_w12 : base.live 0 = true ∧ base.dev.mode.storeUp = true ∧ fresh base 0x25 [] = true ∧
    base.expandersOf ((withCmd base (cmdOf 0x25 [])).flushScope (cmdOf 0x25 [])) = [] ∧
    fresh perS 0x25 [(4, 4, 5)] = true ∧ perS.expandersOf (perS.flushScope (cmdOf 0x25 [(4, 4, 5)])) = [(1, 0)] ∧
    waits perS 0x25 (flushOf [⟨1, 0, 1⟩]) = true ∧ waits perS 0x25 (flushOf [⟨1, 0, 2⟩, ⟨2, 0, 1⟩]) = true ∧ waits perS 0x25 (flushOf [⟨1, 0, 2⟩]) = true ∧
    (let f : Flush := { phases := [⟨1, 0, 2⟩], segs := [5], snap := [], began := 1 }
    let g : Flush := { f with phases := [⟨1, 0, 2⟩, ⟨2, 0, 1⟩] }
    f.at? 1 0 = some ⟨1, 0, 2⟩ ∧ (f.drop 1 0).phases = [] ∧ perS.flushedWell f 5 = true ∧ Memory.wf f.snap = true ∧ (perS.seg 5).flushed ≤ f.began ∧
      g.at? 1 0 = some ⟨1, 0, 2⟩ ∧ (g.drop 1 0).phases ≠ [] ∧ ({ f with phases := [⟨1, 0, 1⟩] } : Flush).at? 1 0 = some ⟨1, 0, 1⟩) ∧
    (addrTile (perS.seg 5).base, perS.expanderOf (perS.seg 5)) = (1, 0) ∧ (perS.tile 1).evidence = none ∧
    waits perS 0x21 (dirWaitOf true 1) = true ∧ waits perS 0x21 (dirWaitOf true 2) = true ∧ waits perS 0x20 (dirWaitOf false 2) = true ∧
    waits base 0x26 (.fenceWait 0 [7]) = true ∧ waits base 0x26 (.fenceWait 3 [7]) = true ∧ waits base 0x26 (.fenceHold [7]) = true := by decide +kernel

theorem test_w12_memory : perS.memOk = true := by decide +kernel

/-- A fence with the command it waits for still in flight. -/
theorem test_w12_fence : ({ base with cmds := [cmdOf 0x26 [] (.fenceWait 0 [7]), { cmdOf 0x7F [] with ref := { q := 1, ix := 1 }, order := 7 }] } : State).cmds.any
    (fun y => decide (y.ref ≠ tc) && [7].contains y.order) = true := by decide +kernel

def fetchedNop : Cmd := { cmdOf 0x7F [] with phase := .fetched }
def fetchedRead : Cmd := { cmdOf 0x23 [(4, 4, 4)] with phase := .fetched, ranges := [{ seg := 4, lo := 10, hi := 20, write := false }] }
def earlierWrite : Cmd :=
  { cmdOf 0x22 [(4, 4, 4)] with ref := { q := 1, ix := 5 }, ranges := [{ seg := 4, lo := 19, hi := 30, write := true }] }

theorem test_w13 : (let s := withCmd base fetchedNop
    s.cmd? tc = some fetchedNop ∧ s.mayStart fetchedNop = true ∧ (s.slc fetchedNop.slice).st ≠ .failed ∧ fetchedNop.segFields = [] ∧
    s.objectCheck fetchedNop = none ∧ ([] : List HostRead).length = s.listCount fetchedNop ∧ s.listStatus fetchedNop [] = none ∧
    s.unitOk fetchedNop = true ∧ fetchedNop.op = 0x7F) ∧
    ((base.startEcc fetchedNop none).2 = true ∧ (base.startEcc fetchedNop (some (.prefetch, .clean))).2 = true ∧ base.freeingFrags fetchedNop [] = []) ∧
    (let s : State := { base with cmds := [earlierWrite, fetchedRead] }
    s.cmd? tc = some fetchedRead ∧ earlierWrite ∈ s.earlier fetchedRead ∧ (19 < 20 ∧ 10 < 30)) := by decide +kernel

/-- Slice 5 ACTIVE and slice 6 FROZEN. -/
def slcS : State := { base with slices := [(0, { st := .active, gen := 1, weight := 255 }), (5, { st := .active, pasid := 9, gen := 1 }),
  (6, { st := .frozen, pasid := 10, gen := 2, noFetch := true })] }

def ready? (s : State) (x : Cmd) : Bool := s.myTurn x && decide (s.sliceStatus x = none)

def createFields : List (Nat × Nat × Nat) := [(4, 2, 1023), (8, 4, 7), (12, 2, 1), (14, 4, 1), (19, 1, 1)]

theorem test_w14 : fresh slcS 0x10 createFields = true ∧ ready? slcS (cmdOf 0x10 createFields) = true ∧
    slcS.createCheck (cmdOf 0x10 createFields) = none ∧ slcS.segs = [] ∧
    ({ slcS with cmds := [{ cmdOf 0x50 [] with slice := 5 }] }.onTile 0 fun x => { x with codec := [{ c := tc, enc := true }] }).sliceQuiet 5 = false ∧
    fresh slcS 0x13 [(4, 2, 5)] = true ∧ ready? slcS (cmdOf 0x13 [(4, 2, 5)]) = true ∧ slcS.sliceQuiet 5 = true ∧
    ready? slcS (cmdOf 0x13 [(4, 2, 6)]) = true ∧ (slcS.slc 6).st = .frozen ∧
    ready? slcS (cmdOf 0x12 [(4, 2, 6)]) = true ∧ slcS.queuesOf 6 = [] ∧ waits slcS 0x12 (.sliceWait 6 0) = true ∧ slcS.resetsDone 6 = true ∧
    ready? slcS (cmdOf 0x16 [(4, 2, 5)]) = true ∧ ready? slcS (cmdOf 0x16 [(4, 2, 6)]) = true ∧ slcS.queues = [] ∧
    waits slcS 0x11 (.sliceWait 6 0) = true ∧ (withCmd slcS (cmdOf 0x11 [] (.sliceWait 6 0))).condemnedIdle tc 6 = true := by decide +kernel

def saveFields (n len : Nat) : List (Nat × Nat × Nat) := [(4, 2, n), (8, 4, 9), (24, 4, len)]

/-- The state image of slice 5. -/
def sliceImage : List Byte :=
  let recs := slcS.saveRecs 0 5 false
  saveHeader (slcS.slc 5) 5 recs.length (64 + (recs.flatMap (·.bytes)).length) ++ recs.flatMap (·.bytes)

theorem test_w15_save : fresh slcS 0x14 (saveFields 5 192) = true ∧ ready? slcS (cmdOf 0x14 (saveFields 5 192)) = true ∧
    (slcS.saveRecs 0 5 false).all (fun r => r.poison == none) = true ∧ sliceImage.length = 192 ∧
    ((cmdOf 0x14 (saveFields 5 192)).dref 16).total = 192 ∧ ready? slcS (cmdOf 0x14 (saveFields 5 191)) = true := by decide +kernel

set_option maxRecDepth 100000 in
theorem test_w15_restore : (let x := cmdOf 0x15 [(4, 2, 7), (8, 4, 11), (24, 4, 192)]
    let s := withCmd slcS x
    let s1 := s.onSlc x.sl fun y => { y with busy := some tc }
    s.fresh? tc 0x15 = some x ∧ ready? s x = true ∧ field sliceImage 24 8 = (x.dref 16).total ∧
    (match readState sliceImage with
      | some rs => (s1.restoreCheck x rs).isNone && (match s1.restoreApply x rs (field sliceImage 10 2) with
          | some s2 => decide (s2.cmd? tc = some x)
          | none => false)
      | none => false) = true ∧
    readState (0 :: sliceImage.drop 1) = none ∧ field (0 :: sliceImage.drop 1) 24 8 = 192) := by decide +kernel

def imageS : State := { base with images := [(1, some { bytes := tinyImage, slice := 0, tiles := 255 })] }
def keyS : State := { base with keys := [(3, some { slice := 0, alg := 1, k0 := [], keyLen := 32, wrapped := [] })] }

set_option maxRecDepth 100000 in
theorem test_w16_load : fresh base 0x30 [(16, 4, 232)] = true ∧ ((cmdOf 0x30 [(16, 4, 232)]).dref 8).total = 232 ∧
    imageCheck (cut tinyImage 0 232) base.presentMask = none ∧ base.imageRoom 232 = true ∧ base.images.length < 65535 ∧
    (imageCheck (List.replicate 64 0) base.presentMask).isSome = true := by decide +kernel

/-- Handle 1 is being unloaded, and a query that names it has been fetched or has started. -/
def unloadS (ph : CmdPhase) : State := { base with
  images := [(1, some { bytes := [], slice := 0, tiles := 255, unloading := [tc] })]
  cmds := [cmdOf 0x31 [] (.unloadWait 1), { cmdOf 0x32 [(4, 4, 1)] with ref := { q := 2, ix := 0 }, phase := ph }] }

theorem test_w16_remove : (∀ ph, (unloadS ph).progOp? tc 0x31 = some (.unloadWait 1)) ∧
    (tblGet (unloadS .fetched).images 1 none).any (fun i => i.unloading.contains tc) = true ∧
    (unloadS .fetched).cmds.all (fun y => y.op != 0x32 || y.phase == .fetched || y.f 4 4 != 1) = true ∧
    (unloadS .fetched).cmds.any (fun y => y.phase == .fetched && y.op == 0x32 && y.f 4 4 == 1) = true ∧
    (unloadS .started).cmds.any (fun y => y.phase != .fetched && y.op == 0x32 && y.f 4 4 == 1) = true ∧
    waits base 0x31 (.unloadWait 1) = true ∧ tblGet base.images 1 none = none := by
  refine ⟨fun ph => ?_, by decide +kernel⟩
  cases ph <;> decide +kernel

theorem test_w16 : fresh imageS 0x31 [(4, 4, 1)] = true ∧ waits imageS 0x31 (.unloadWait 1) = true ∧
    fresh base 0x60 [(4, 1, 255), (16, 2, 40)] = true ∧ fresh keyS 0x61 [(4, 1, 3)] = true ∧
    (let x := cmdOf 0x60 [(4, 1, 3)] (.keySet 3 1 32 [] [])
    (withCmd keyS x).running? tc = some x ∧ keyS.keyCheck x = none) ∧
    (let x := cmdOf 0x60 [(4, 1, 255)] (.keySet 255 1 32 [] [])
    (withCmd base x).running? tc = some x ∧ (withCmd base x).keyCheck x = none ∧ base.keySlot 255 = none) ∧
    (let x := cmdOf 0x61 [(4, 1, 3)] (.keyWait 3)
    (withCmd keyS x).running? tc = some x ∧ keyS.keyCheck x = none) := by decide +kernel

def jobOf (cls : Nat) : Job :=
  { c := some tc, cls := cls, slice := 0, sgen := 1, qgen := 1, hmac := false, alg := 1, slot := 0, msgLen := 4194304, frags := [(0, 4194304, 0)], out := 0 }

def laneState (w : List Job) (l : List Lane) : State := base.onTile 2 fun x => { x with digest := { x.digest with waiting := w, lanes := l } }

theorem test_w17 : fresh base 0x40 [(4, 1, 1)] = true ∧ base.digestTile 0 = some 0 ∧ fresh base 0x41 [(4, 1, 1)] = true ∧
    (let s := laneState [jobOf 2, jobOf 1] (List.replicate 8 {})
    (s.lane? 2 7).st = .idle ∧ s.live 2 = true ∧ (s.tile 2).err.fence.digest = false ∧ jobOf 2 ∈ (s.digest 2).waiting ∧
      s.jobEligible (jobOf 2) = true) := by decide +kernel

theorem test_w18 : (let j := jobOf 1
    let busy : Lane := { st := .hashing, job := some j }
    let s := withCmd (laneState [jobOf 1] (List.replicate 8 busy)) (cmdOf 0x40 [] .job)
    s.lane? 2 7 = { st := .hashing, job := some j, next := (s.lane? 2 7).next } ∧ j.c = some tc ∧ s.cmd? tc = some (cmdOf 0x40 [] .job) ∧
      (s.setLane 2 7 {}).msgFault j 2 {} = none ∧ 1048576 % algBlock j.alg = 0 ∧ j.done < 1048576 ∧ 1048576 ≤ j.msgLen ∧
      (s.freeRecord 2 j.slice).isSome = true ∧ s.preemptor 2 j 1048576 = some (jobOf 1) ∧ s.msgFault j 2 {} = none) ∧
    (let s := laneState [] (List.replicate 8 { st := .saving, job := some (jobOf 3), next := some (jobOf 1) })
    s.lane? 2 0 = { st := .saving, job := some (jobOf 3), next := some (jobOf 1) } ∧ s.freeRecord 2 (jobOf 3).slice = some 16) ∧
    (let j := { jobOf 3 with saved := true, record := some 16 }
    let s := withCmd (laneState [] (List.replicate 8 { st := .restoring, job := some j })) (cmdOf 0x40 [] .job)
    s.lane? 2 3 = { st := .restoring, job := some j, next := none } ∧ j.record = some 16 ∧ 16 / 8 = (2 : TileId).val ∧ j.c = some tc ∧
      s.cmd? tc = some (cmdOf 0x40 [] .job) ∧ s.live 2 = true ∧ (s.lane? 2 3).st ≠ .idle ∧ (s.tile 2).err.fence.digest = false) ∧
    (let desc := entry [(4, 1, 5), (8, 8, 16), (24, 2, 1)]
    let fs := fragsOf (cut (entry [(0, 8, 4096), (8, 4, 16)]) 0 (16 * field desc 24 2))
    (base.digest 7).viewBusy = false ∧ base.live 7 = true ∧ byteAt desc 4 = 5 ∧ fs ≠ [] ∧ fs.length ≤ 4096 ∧
      fragsFormOk false (field desc 8 8) fs = true ∧ (fs.map fun f => f.2.1).sum = field desc 8 8) ∧
    ((base.onTile 7 fun x => { x with digest := { x.digest with viewBusy := true } }).digest 7).viewBusy = true := by decide +kernel

/-- COMPRESS of `n` UINT8 values from the host. -/
def packFields (n : Nat) : List (Nat × Nat × Nat) := [(4, 1, 6), (5, 1, 0), (32, 4, 4096), (40, 8, n)]

def packOk (n : Nat) (over_ : Bool) : Bool :=
  let x := { cmdOf 0x50 (packFields n) .job with entries := [entry ((0, 1, 0x50) :: packFields n), entry []] }
  let j : CodecJob := { c := tc, enc := true }
  let s := (withCmd base x).onTile 3 fun y => { y with codec := [j] }
  match (s.onTile 3 fun y => { y with codec := [] }).codecInput 3 x j { bytes := List.replicate 4096 7 } with
  | .bytes bs vals =>
    match codecOut x j bs vals with
    | .ok out => decide ((s.tile 3).codec = [j] ∧ s.live 3 = true ∧ j.emit = none ∧ s.running? tc = some x ∧ x.dstSeg = 0 ∧ 0 < out.length ∧
        out.length ≤ x.f 32 4 ∧ j.miss = 0) && (codecOver x { j with inVals := vals } == over_)
    | .error _ => false
  | _ => false

/-- DECOMPRESS from the host of two frames of one value each: the job goes on after the first. -/
def unpackOk : Bool :=
  let fs := [(4, 1, 6), (5, 1, 0), (16, 4, 128), (32, 4, 4096)]
  let x := { cmdOf 0x51 fs .job with entries := [entry ((0, 1, 0x51) :: fs), entry []] }
  let fr := encodeFrame x.vty 0 (rawImages x.vty 1 (List.replicate 16 7))
  let j : CodecJob := { c := tc, enc := false }
  match (withCmd base x).codecInput 3 x j { bytes := fr ++ fr } with
  | .bytes bs vals =>
    match codecOut x j bs vals with
    | .ok out => decide (bs = fr ∧ vals = 1 ∧ x.dstSeg = 0 ∧ 0 < out.length ∧ out.length ≤ x.f 32 4) &&
        !codecOver x { j with inBytes := bs.length }
    | .error _ => false
  | _ => false

set_option maxRecDepth 100000 in
theorem test_w19 : fresh base 0x50 (packFields 1) = true ∧ base.codecTile 0 = some 0 ∧ fresh base 0x51 [] = true ∧
    packOk 1 true = true ∧ unpackOk = true := by decide +kernel

/-- Queue 1, enabled, with depth 16 and a doorbell for two entries. -/
def qBase : Queue := { depthLog2 := 4, enable := true, tailIx := 2, freshStart := false, base := 4096 }
def queueS (u : Queue) : State := { base with queues := [(1, u)] }

theorem test_w20_w21 : ({ placement := 1 } : Seg).placement = 1 ∧ qBase.headIx < 2 ^ qBase.depthLog2 ∧ qBase.tailIx < 2 ^ qBase.depthLog2 ∧
    (let u : Queue := { depthLog2 := 4, headIx := 15, tailIx := 15, tailWrap := true }
    u.headIx = u.tailIx ∧ u.headWrap ≠ u.tailWrap ∧ u.occupancy ≤ 16) := by decide +kernel

theorem test_w22 : (queueS qBase).dev.mode.doorbells = true ∧ (queueS qBase).portUp 0 = true ∧ qBase.tailIx < 16 ∧
    (qBase.pos 15 false + 32 - qBase.headPos) % 32 ≤ 16 ∧
    (queueS qBase).queueLive 1 = true ∧ (queueS qBase).toRead 1 = 0 :: (List.range 15).map (· + 1) ∧ 0 < qBase.occupancy ∧
    (queueS { qBase with tailIx := 0 }).toRead 1 = List.range 16 ∧ ({ qBase with tailIx := 0 } : Queue).occupancy = 0 ∧
    bit (byteAt (cut (List.replicate 64 (0xFF : Byte)) 0 64) 63) 7 = true ∧ bit (byteAt (cut ([] : List Byte) 0 64) 63) 7 = false ∧
    (let s := queueS { qBase with stalls := [{ ix := 0, reads := 7 }] }
    (s.queue 1).rereadNext = some { ix := 0, reads := 7 } ∧ s.queueLive 1 = true) ∧
    (queueS { qBase with stalls := [{ ix := 0, reads := 8 }] }).queue 1 = { qBase with stalls := [{ ix := 0, reads := 8 }] } := by decide +kernel

/-- A NOP in one entry: OWN, FIRST and LAST. -/
def nopEntry : List Byte := entry [(0, 1, 0x7F), (63, 1, 0xB0)]

theorem test_w23 : (let s := queueS { qBase with cls := 0, copies := [{ ix := 0, bytes := nopEntry }] }
    s.readyIn 0 0 = [1] ∧ s.queues.all (fun e => decide (1 ≤ (s.queue e.1).burst)) = true) ∧
    (let s := queueS { qBase with cls := 3, copies := [{ ix := 0, bytes := nopEntry }] }
    s.readyIn 0 0 = [] ∧ s.readyIn 0 3 = [1]) := by decide +kernel

def doneNop : Cmd := { cmdOf 0x7F [] with entries := [nopEntry, entry [(63, 1, 0x90)]], phase := .done, sgen := 1, qgen := 1 }

theorem test_w24 : (let s := { queueS qBase with cmds := [doneNop] }
    s.cmd? tc = some doneNop ∧ doneNop.phase = .done ∧ s.dev.mode.runsCommands = true ∧ doneNop.sgen = (s.slc doneNop.slice).gen ∧
    doneNop.qgen = (s.queue doneNop.q).gen ∧ 0 < (doneNop.entries.drop 1).length) := by decide +kernel

theorem test_w25 : (let s := { queueS qBase with cmds := [{ doneNop with sgen := 65535 }] }
    s.cmd? tc = some { doneNop with sgen := 65535 } ∧ 65535 ≠ (s.slc 0).gen) ∧
    (let s := queueS { qBase with gen := 2 }
    doneNop.qgen ≠ (s.queue 1).gen ∧ (s.queue 1).resetBusy = false) ∧
    (let s := queueS { qBase with enable := false, freshStart := true }
    s.liveTiles.any s.portUp = true ∧ s.dev.mode.hostWritable = true ∧ (s.block (queueBlock 1)).buffer = [] ∧
      (s.queue 1).enable = false ∧ s.enableError 1 = none) ∧
    (queueS { qBase with enable := false }).enableError 1 = none ∧
    (queueS { qBase with enable := false, depthLog2 := 17 }).enableError 1 = some 1 ∧ (queueS qBase).liveTiles.any (queueS qBase).portUp = true ∧
    ((queueS qBase).queue 1).enable = true ∧ ((queueS qBase).queue 1).resetBusy = false ∧ ((queueS qBase).queue 1).homeLost = false ∧
    ((queueS { qBase with resetBusy := true }).queue 1).resetBusy = true ∧ (queueS { qBase with resetBusy := true }).resetSettled 1 = true ∧
    (let s := queueS { qBase with irqPend := 1, irqTimeEff := 1000 }
    s.irqDue 1 = true ∧ s.dev.mode ≠ .halt ∧ s.portUp (tid (s.queue 1).port) = true) ∧
    queueWritable (queueS qBase) 1 ∧ ((queueS { qBase with homeLost := true }).queue 1).homeLost = true ∧
    (queueS qBase).cmds = [] ∧ (queueS qBase).irqDue 1 = false ∧ (0 : Nat) ∉ (base.tile 0).msixMask ∧
    (let s := (queueS { qBase with irqPend := 1, irqTimeEff := 1000 }).onTile 0 fun x => { x with msixMask := [0] }
    s.irqDue 1 = true ∧ (s.queue 1).vector ∈ (s.tile 0).msixMask ∧ s.portUp 0 = true) ∧
    (let s := queueS { qBase with irqPend := 1, irqTimeEff := 1000, port := 1 }
    s.irqDue 1 = true ∧ s.portUp (tid (s.queue 1).port) = false) := by
  unfold queueWritable; decide +kernel

/-- Tile 7 with a byte in its staging buffer. -/
def stagedS : State := base.onTile 7 fun x => { x with staging := [(storeAddr 7 1 64, 1)] }

theorem test_w26_scrubs : scrubbing base 7 .hbm (storeAddr 7 0 4096) ∧ scrubbing base 7 .ddr (storeAddr 7 1 4096) ∧ scrubbing base 7 .sram 3145728 ∧
    scrubbing stagedS 7 .staging (storeAddr 7 1 64) ∧ (base.tile 7).evidence = none ∧ (base.tile 7).err.counts = [] ∧
    (let s := base.setScrub 7 .sram { began := 0, next := 64 }
    s.now < (s.scrubOf 7 .sram).began + s.scrubNs ∧ scrubPos .sram 8 < (s.scrubOf 7 .sram).next) ∧
    (let s := base.onTile 7 fun x => { x with err := { x.err with badWord := [(0, 1)] } }
    scrubbing s 7 .sram 8 ∧ (s.tile 7).err.verifyAt = s.now / verifyNs ∧ tblGet (s.tile 7).err.badWord (sramBank 8) 0 ≠ 0 ∧
      tblGet (s.tile 7).err.badWord (sramBank 8) 0 ≠ 8 / 8 + 1) ∧
    (base.tile 7).err.verifyAt = base.now / verifyNs ∧ tblGet (base.tile 7).err.badWord (sramBank 8) 0 = 0 ∧
    (let s : State := { base with now := 10 ^ 14 }
    (s.scrubOf 7 .ddr).began + s.scrubNs ≤ s.now ∧ s.scrubDone 7 .ddr (s.scrubOf 7 .ddr) = false ∧
      s.scrubDone 7 .staging (s.scrubOf 7 .staging) = true) := by unfold scrubbing; decide +kernel

theorem test_w26 : base.live 7 = true ∧ base.dev.mode.storeUp = true ∧ base.feat.scrubPeriod ≠ 0 ∧
    base.mapDue 7 = true ∧ (base.tile 7).mapScrub = 0 ∧
    majority (copyValue (base.copyBytes 7 0 0) (base.copyThere 7 0 .good)) (copyValue (base.copyBytes 7 1 0) (base.copyThere 7 1 .good))
      (copyValue (base.copyBytes 7 2 0) (base.copyThere 7 2 .bad)) = some (base.seg 0).bytes ∧
    majority (copyValue (base.copyBytes 7 0 0) (base.copyThere 7 0 .bad)) (copyValue (base.copyBytes 7 1 0) (base.copyThere 7 1 .bad))
      (copyValue (base.copyBytes 7 2 0) (base.copyThere 7 2 .good)) = none ∧
    bit (base.tile 7).err.fence.ddr 1 = false ∧ base.hostRole 7 = false ∧ (base.tile 7).err.fence.cxl = false ∧ base.live 0 = true ∧ base.dev.mode ≠ .cold ∧
    (segS.seg 3).valid = true ∧ (segS.seg 3).tier = 1 ∧ bit (segS.seg 3).tiles 0 = true ∧ (segS.seg 3).placement ≠ 2 ∧ (segS.seg 5).valid = false ∧
    (perS.seg 5).valid = true ∧ (perS.seg 5).tier = 2 ∧ bit (perS.seg 5).tiles 1 = true ∧ (perS.seg 5).placement ≠ 2 ∧
    (let s : State := { base with dev := { base.dev with fenced := 0x7F } }
    s.live 7 = true ∧ allTiles.all (fun u => decide (u = 7) || !s.live u) = true ∧ (s.slc 0).st ≠ .free) := by decide +kernel

/-- Tile 4 in a scheduler window that ends at 1,100,000 ns, and the budget epoch that ends at 2,000,000 ns. -/
def windowS (otherIn : Bool) : State := ({ base with dev := { base.dev with epochEnd := some 2000000 } } : State).onTile 4 fun x =>
  { x with sched := { x.sched with windowEnd := some 1100000, otherIn := otherIn } }

theorem test_w33 : 1 ≤ 20 ∧ base.live 4 = true ∧ base.dev.mode.runsCommands = true ∧ base.present 4 = true ∧ (base.sched 4).windowEnd = none ∧
    base.dev.epochEnd = none ∧ ((windowS true).sched 4).otherIn = true ∧ ((windowS false).sched 4).otherIn = false ∧ (windowS true).now < 1100000 ∧
    (windowS true).live 4 = true ∧ allTiles.all (fun t => decide ((base.sched t).windowEnd = none)) = true ∧
    (let x := { cmdOf 0x03 [(4, 2, 1), (8, 8, 50)] with phase := .fetched }
    x.setsWindow = true ∧ (withCmd base x).cmd? tc = some x) ∧
    (let s : State := { base with man := { base.man with part := .zl2 } }
    s.present 2 = false ∧ s.live 2 = false) ∧
    (let s : State := { base with now := 3 * verifyNs }
    s.present 4 = true ∧ (s.tile 4).err.verifyAt ≠ s.now / verifyNs) ∧
    (let s : State := { base with now := 10 ^ 14 }
    (s.tile 4).err.counts = [] ∧ (s.tile 4).err.coalAt ≠ s.now / coalesceNs) ∧ (({ base with now := 5 } : State).tile 4).err.coalAt = 5 / coalesceNs ∧
    (let s := ({ base with now := 10 ^ 14 } : State).onTile 4 fun x => { x with err := { x.err with counts := [(6, 2, 0x0003, 1)] } }
    (s.tile 4).err.counts = [(6, 2, 0x0003, 0 + 1)] ∧ (s.tile 4).evidence = none ∧ s.live 4 = true) := by decide +kernel

theorem test_w34 : [(0, 40), (1, 30), (4, 50), (5, 20)].length * 25000 ≤ 300000 - 30000 ∧ base.dev.mode.runsCommands = true ∧ base.live 7 = true ∧
    (base.rollEpochs (base.now / epochNs + 1)).live 7 = true ∧ (windowS true).dev.epochEnd = some 2000000 := by decide +kernel

/-- "Worked example — the split on a ZL4" (chapter 12). -/
theorem test_power_split : powerSplit 400000 130000 [(0, 25), (1, 20), (4, 35), (5, 10)] = [(0, 72222), (1, 62777), (4, 91111), (5, 43888)] := by
  decide +kernel

/-- "Worked example — a striped PFC column" (chapter 5). -/
theorem test_striped_byte : ({ base := 0x40000000, tiles := 0x0F, placement := 1, codec := 1, length := 104857600 } : Seg).locs 37000000 =
    [0x2000040949340] ∧ ({ base := 0x40000000, tiles := 0x0F, placement := 1, codec := 1, length := 104857600 } : Seg).rowUnits = 13 ∧
    ({ base := 0x40000000, tiles := 0x0F, placement := 1, codec := 1, length := 104857600 } : Seg).tileUnits = 23 := by decide +kernel

def tileWrite (k off : Nat) : RegWrite := { port := 0, addr := (1024 + k) * 0x4000 + off, size := 4, value := 0 }

theorem test_w35_open : regOpen base .dev ∧ regOpen base .nw ∧ regOpen base (.tile 0 0) ∧ regOpen base (.tile 0 5) ∧ regOpen base (.tile 0 7) ∧
    regOpen { base with dev := { base.dev with mode := .nightwatch } } .nw ∧ regOpen { base with dev := { base.dev with mode := .ready } } .nw := by
  unfold regOpen; decide +kernel

theorem test_w35 : base.dev.strobeBusy = false ∧ base.dev.change = none ∧ base.dev.phase = .idle ∧ base.dev.activation = none ∧
    bit (0x400 : Nat) 10 = true ∧ bit (31 : Nat) 10 = false ∧ (30 : Word32).toNat % 32 ≠ 31 ∧ base.portUp 0 = true ∧ base.dev.mode.readable .dev = true ∧
    base.dev.mode ≠ .ready ∧ ({ base with dev := { base.dev with mode := .test } } : State).debugActs = true ∧ base.debugActs = false ∧
    regOpen { base with man := { base.man with debugEn := true } } (.tile 0 0) ∧ (7 : Word32).toNat % 4 = 3 ∧
    (base.block (Blk.tile 0 0).no).buffer = [] ∧ base.heldBlk (.tile 0 0) = false ∧
    bit (5 : Nat) 10 = false ∧ ({ base with dev := { base.dev with strobeBusy := true } } : State).dev.strobeBusy = true := by unfold regOpen; decide +kernel

theorem test_w35_posted : (let w := tileWrite 5 0x7F8
    base.portUp w.port = true ∧ w.addr < 2 ^ 26 ∧ w.addr % 4 = 0 ∧ blkOf (w.addr / 0x4000) = some (.tile 0 5) ∧ base.blkPresent (.tile 0 5) = true ∧
    base.dev.mode.takesWrites (.tile 0 5) = true ∧ (base.block (Blk.no (.tile 0 5))).buffer.length < Blk.depth (.tile 0 5) ∧
    w.addr % 0x4000 = 0x7F8 ∧ bit w.value.toNat 0 = false ∧ bits 0 8 4 ≠ 31 ∧
    ((base.setBlock (Blk.no (.tile 0 5)) { applyMode := true }).block (Blk.no (.tile 0 5))).applyMode = true) ∧
    (let s := base.setBlock (Blk.no (.tile 0 8)) { buffer := [{ port := 0, off := 0, value := 0 }] }
    Blk.depth (.tile 0 8) ≤ (s.block (Blk.no (.tile 0 8))).buffer.length ∧ blkOf (1024 + 8) = some (.tile 0 8) ∧ s.dev.mode ≠ .halt ∧
      s.heldBlk (.tile 0 8) = false ∧
      ({ s with dev := { s.dev with mode := .activate } } : State).heldBlk .slc = (Blk.slc).fwOwned) ∧
    (let s := base.onTile 0 fun x => { x with doms := x.doms.map fun d => { d with st := .off } }
    s.heldBlk (.tile 0 5) = true) ∧
    (let w := tileWrite 0 0x1000
    blkOf (w.addr / 0x4000) = some (.tile 0 0) ∧ w.addr % 0x4000 / 0x800 = 2 ∧ Blk.rwMask (.tile 0 0) 0 ≠ 0 ∧ Blk.rwMask (.tile 0 0) 8 = 0) := by
  decide +kernel

/-- Edge 0 of tile 0 up, its module 3 active. -/
def edgeS : State := base.onTile 0 fun x => { x with edges := x.edges.set 0 { st := .active, partner := 1, modules := (Vector.replicate 6 {}).set 3 { active := true } } }

theorem test_w35_retrain : (edgeS.edge 0 0).up = true ∧ (edgeS.edge 0 0).actives = [3] ∧ ((edgeS.edge 0 0).module 3).training = false ∧
    regOpen edgeS (.tile 0 7) := by unfold regOpen; decide +kernel

def hdr (src dst : TileId) (agent : Fin 64) : MsgHdr :=
  { vc := 0, len := 64, srcTile := src, srcAgent := 1, dstTile := dst, dstAgent := agent, slice := 0, sgen := 1, queue := 1, qgen := 1 }

def pend (mtype : Nat) (pe : Option Gpe) : Pending := { agent := 36, dst := 1, tag := 9, mtype := mtype, c := none, pe := pe }
def reqS (p : Pending) : State := base.onTile 0 fun x => { x with reqs := [p] }

theorem test_w36 : served base (hdr 1 0 36) ∧ served segS (hdr 1 0 37) ∧ segS.lineStat (hdr 1 0 37) (storeAddr 0 1 4032) = 0 ∧
    segS.lineStat (hdr 1 0 36) (storeAddr 0 1 4032) = 2 ∧ agentTier 37 = some 1 := by
  unfold served; refine ⟨?_, ?_, ?_⟩
  · exact ⟨by decide +kernel, fun d h => by cases h; decide +kernel, by decide +kernel⟩
  · exact ⟨by decide +kernel, fun d h => by cases h; decide +kernel, by decide +kernel⟩
  · decide +kernel

theorem test_w36_ends : (reqS (pend 1 none)).req? (hdr 1 0 36) 9 = some (pend 1 none) ∧ (reqS (pend 1 none)).stale? (hdr 1 0 36) = false ∧
    (reqS (pend 2 none)).req? (hdr 1 0 36) 9 = some (pend 2 none) ∧ (reqS (pend 3 none)).req? (hdr 1 0 36) 9 = some (pend 3 none) ∧
    base.req? (hdr 1 0 36) 9 = none ∧ (reqS (pend 2 none)).stale? { hdr 1 0 36 with sgen := 2 } = true ∧
    ((reqS (pend 4 none)).tile 0).reqs.find? (fun x => x.agent == 36 && x.tag == 9) = some (pend 4 none) ∧
    ((reqS (pend 1 (some 3))).tile 0).reqs.find? (fun x => x.agent == 36 && x.tag == 9) = some (pend 1 (some 3)) ∧ base.present 0 = true ∧
    served base (hdr 1 0 40) ∧ agentTier 40 = none ∧ base.lineStat (hdr 1 0 40) 64 = 0 ∧ base.lineStat (hdr 1 0 40) 25165824 = 2 := by
  unfold served; refine ⟨?_, ?_, ?_, ?_, ?_, ?_, ?_, ?_, ?_, ⟨?_, fun d h => ?_, ?_⟩, ?_⟩ <;> (try cases h) <;> decide +kernel

def ctlP (n : Nat) : CtlPending := { tag := 4, dst := 7, mtype := 0x36, h := hdr 0 7 41, body := [], tries := n }
def ctlS (n : Nat) : State := base.onTile 0 fun x => { x with ctl := [ctlP n] }

theorem test_w38 : ({ base with dev := { base.dev with mode := .dawn } } : State).dev.mode = .dawn ∧ base.live 0 = true ∧
    (1, 0x3F, 5) ∉ (base.tile 0).seenCtl ∧ (1, 0x3F, 5) ∈ ((base.onTile 0 fun x => { x with seenCtl := [(1, 0x3F, 5)] }).tile 0).seenCtl ∧
    ((ctlS 3).tile 0).ctl.find? (fun x => x.tag == 4) = some (ctlP 3) ∧ (ctlS 3).present (tid 7) = true ∧
    ((ctlS 2).tile 0).ctl.find? (fun x => x.tag == 4) = some (ctlP 2) ∧
    (ctlS 2).lostNow 0 7 = true ∧ ((ctlS 2).onTile 0 fun x => { x with edges := x.edges.set 0 { st := .active } }).lostNow 0 7 = false ∧
    MeshFault.header ≠ .payload 0 := by decide +kernel

/-! ### Links, power and monitors -/

/-- A flit of 244 bytes of padding. -/
def padFlit (seq ftype : Nat) : List Byte := flitBytes seq 0xFF ftype false 63 0 5 (List.replicate 244 0)

/-- Edge 1 of tile 0 with its module 3 as given. -/
def modS (m : Module) : State :=
  base.onTile 0 fun x => { x with edges := x.edges.set 1 { st := .active, partner := 1, modules := (Vector.replicate 6 {}).set 3 m } }

def sent1 : Sent := { seq := 7, foff := 63, payload := [], message := [] }

set_option maxRecDepth 100000 in
theorem test_w40_flits : (modS { active := true }).modUp 0 1 3 = true ∧
    (readFlit (padFlit 0 0)).any (fun f => !f.idle && !f.nak && f.seq == 0 && byteAt f.payload 0 == 0) = true ∧
    (readFlit (padFlit 0 1)).any (fun f => f.idle && !f.nak) = true ∧ readFlit (1 :: (padFlit 0 0).drop 1) = none := by decide +kernel

theorem test_w40 : ((modS { active := true, nakSent := true }).edge 0 1).module 3 = { active := true, nakSent := true } ∧
    ((modS { active := true }).edge 0 1).held = [] ∧ (((modS { active := true }).edge 0 1).module 3).skip = false ∧
    0 = ((((modS { active := true }).edge 0 1).module 3).lastAck + 1) % 256 ∧
    (((modS { active := true, replay := [sent1] }).edge 0 1).module 3).replay = [] ++ sent1 :: [] ∧
    (((modS { active := true, replay := [sent1] }).edge 0 1).module 3).sends < 4 ∧
    4 ≤ (((modS { active := true, replay := [sent1], sends := 4 }).edge 0 1).module 3).sends ∧ (4 : Nat) < ({} : Module).credits.length ∧
    (((modS { active := true }).edge 0 1).module 3).partial_ = [] := by
  decide +kernel

/-- The body of LINK_PARAMS from the tile that faces edge 1 of tile 0. -/
def paramBody (credits : Nat) : List Byte :=
  leBytes 2 1 ++ leBytes 1 (((base.partner 0 1).getD 0).val) ++ [0, 0, 0, 0, 0] ++ ((List.range 5).flatMap fun _ => leBytes 2 credits) ++ List.replicate 14 0

/-- Edge 1 of tile 0 in a state, its modules idle. -/
def stS (st : EdgeState) : State := base.onTile 0 fun x => { x with edges := x.edges.set 1 { st := st } }

/-- A sideband CTL message of 16 bytes: SLEEP_REQ from tile 0. -/
def sbMsg (ty : Nat) : List Byte := [BitVec.ofNat 8 ty, 4] ++ leBytes 2 16 ++ List.replicate 12 0

theorem test_w41 : ((modS { active := true, doomed := true }).edge 0 1).up = true ∧ (modS { active := true, doomed := true }).present 0 = true ∧
    (((modS { active := true, training := true, failed := 1 }).edge 0 1).module 3).active = true ∧ 1 ≤ ({ failed := 1 } : Module).failed ∧
    (((modS { training := true }).edge 0 1).module 3).training = true ∧ ((modS { training := true }).edge 0 1).up = true ∧
    (((modS { active := true, doomed := true }).edge 0 1).module 3).spent = true ∧
    (List.range 6).all (fun i => decide (i = 3) || (((modS { active := true, doomed := true }).edge 0 1).module i).replay == []) = true ∧
    (base.partner 0 1).isSome = true ∧ (stS .down).present 0 = true ∧ ((stS .down).edge 0 1).up = false ∧
    ((stS .down).edge 0 1).st ≠ .l1 ∧ ((stS .down).edge 0 1).st ≠ .fenced ∧ (stS .down).paramsBad 0 1 (paramBody 7) = true ∧
    (stS .down).paramsBad 0 1 (paramBody 8) = false ∧ (stS .down).domOn 0 (36 + (1 : EdgeId).val) = true ∧ ((stS .active).edge 0 1).trained = true ∧
    ((stS .down).edge 0 1).st ≠ .active ∧ (sbMsg 0x40).length = 16 ∧ (stS .down).msgOk (0 :: (sbMsg 0x40).drop 1) = false ∧
    ((stS .down).tile 0).evidence = none := by decide +kernel

/-- A CTL message on the sideband: FW_MSG with no data. -/
def sbCtl : List Byte := [0x3F, 3] ++ leBytes 2 20 ++ [0, 0, 0, 0] ++ List.replicate 12 0

theorem test_w41_ctl : (stS .down).msgOk sbCtl = true ∧ byteAt sbCtl 1 = 3 ∧ sbCtl.length = field sbCtl 2 2 ∧ sbCtl.length ≤ 64 := by decide +kernel

/-- A tile on which one edge is fenced and which others reach. -/
def ringS : State := { base with tiles := base.tiles.map fun x => { x with edges := x.edges.map fun e => { e with st := .active } } }

def ringBroken : State := ringS.onTile 0 fun x => { x with edges := x.edges.set 1 { st := .fenced } }

theorem test_w41_routes : ringBroken.routesBroken = true ∧ ringBroken.dev.mode ≠ .cold ∧ ringBroken.dev.mode ≠ .halt ∧
    ringBroken.dev.mode ≠ .test ∧ allTiles.all (fun t => !ringBroken.live t || (ringBroken.reached ringBroken.masterTile.val).contains t.val) = true := by
  decide +kernel

/-- Both sides of edge 1 of tile 0 in L1. -/
def l1S : State := (stS .l1).onTile 1 fun x => { x with edges := x.edges.set 3 { st := .l1 } }

theorem test_w41_sleep : ((stS .active).edge 0 1).up = true ∧ ((stS .active).edge 0 1).held = [] ∧
    (List.range 6).all (fun i => (((stS .active).edge 0 1).module i).replay == []) = true ∧
    (let s := base.onTile 0 fun x => { x with edges := x.edges.set 1 { st := .active, held := [(0, [])], sleeping := true } }
    (s.edge 0 1).held ≠ [] ∧ (s.edge 0 1).up = true ∧ (s.edge 0 1).sleeping = true) ∧
    (l1S.edge 0 1).st = .l1 ∧ l1S.domOn 0 37 = true ∧ l1S.far 0 1 = some (1, 3) ∧ (l1S.edge 1 3).st = .l1 ∧ l1S.domOn 1 39 = true ∧
    (l1S.edge 0 1).held = [] ∧ (l1S.edge 1 3).held = [] ∧
    (List.range 6).all (fun i => !((l1S.edge 0 1).module i).training && !((l1S.edge 1 3).module i).training) = true ∧
    (let s := l1S.onDom 0 37 fun d => { d with st := .ret }
    (s.edge 0 1).st = .l1 ∧ s.domOn 0 37 = false) ∧
    (let s := l1S.onDom 1 39 fun d => { d with st := .ret }
    s.domOn 0 37 = true ∧ (s.edge 1 3).st = .l1 ∧ s.domOn 1 39 = false) := by decide +kernel

/-- Domain 5 of tile 2 as given. -/
def domS (d : Dom) : State := base.onDom 2 5 fun _ => d

theorem test_w42 : ((domS { st := .on, idleOff := true }).dom 2 5).entryDue = true ∧ (domS { st := .on, idleOff := true }).entryRefusal 2 5 none = none ∧
    domEdge 5 = none ∧ ((domS { st := .on, idleOff := true }).dom 2 5).target = .off ∧ ((domS { st := .on }).dom 2 5).target = .ret ∧
    ((domS { st := .on }).dom 2 5).entryDue = true ∧ (domS { st := .on }).entryRefusal 2 5 none = none ∧
    ((domS { st := .on }).tile 2).agentBusy 5 = none ∧ ((domS { st := .on }).tile 2).childUp 5 = none ∧
    (domS { st := .on }).entryRefusal 2 5 (some 63) = some (0x01, 0x7F) ∧ ((domS { st := .on, dbgHold := true }).dom 2 5).dbgHold = true ∧
    ((domS { st := .on }).tile 2).portHeld = [] ∧ ((base.tile 2).childUp 46).isSome = true ∧ (base.tile 2).agentBusy 46 = none ∧
    (let s := (domS { st := .on }).setBlock (blockNo 2 ((domBlocks 30).headD 0)) { buffer := [{ port := 0, off := 0, value := 0 }] }
    s.domPosted 2 30 = true ∧ (s.tile 2).childUp 30 = none ∧ (s.tile 2).agentBusy 30 = none ∧ (s.dom 2 30).dbgHold = false) ∧
    (let s := domS { st := .ret, entered := true, votes := [0, 0, 0, 2, 0, 0, 0, 0] }
    (s.dom 2 5).entered = true ∧ (s.dom 2 5).st ≠ .on ∧ (s.dom 2 5).target = .on ∧ (s.dom 2 5).wakeFail = false) := by decide +kernel

def wakeS (d : Dom) : State := domS { d with st := .ret, phase := .waking, ramping := true }

theorem test_w43 : (let s := domS { st := .ret, phase := .waking }
    s.wantsRamp 2 5 = true ∧ (List.finRange 5).all (fun c => !s.wantsRamp 2 ⟨c.val, by omega⟩) = true ∧
      ((s.tile 2).doms.toList.filter (·.ramping)).length < max 1 (min 4 (s.tile 2).maxRamps)) ∧
    (let s := wakeS {}
    (s.dom 2 5).phase = .waking ∧ (s.dom 2 5).ramping = true ∧ (s.tile 2).parentsOn 5 = true ∧ (s.dom 2 5).pending = [] ∧ (s.tile 2).portHeld = [] ∧
      (s.dom 2 5).sigTaken = false ∧ (s.dom 2 5).st = .ret ∧ (s.tile 2).evidence = none ∧ (s.dom 2 5).tries < 2) ∧
    2 ≤ ((wakeS { tries := 2 }).dom 2 5).tries ∧ ((domS { st := .off, phase := .retryWait }).dom 2 5).phase = .retryWait ∧
    base.fabricHas 2 5 = false ∧ (base.onTile 2 fun x => { x with portHeld := [(5, [])] }).fabricHas 2 5 = true ∧
    (base.tile 2).large[3].call = none ∧ (base.tile 2).large[3].queue = [] ∧ (base.tile 2).large[3].idleAt + 1000 * base.feat.slIdle ≤ base.now := by
  decide +kernel

def hotS : State := base.onTile 1 fun x => { x with mon := { x.mon with
  throttle := true, clock := 12, winCnt := 3, tripped := List.replicate 24 true, temps := List.replicate 24 { value := 1150, valid := true } } }

theorem test_w44 : hottest [{ value := 900, valid := true }, { value := 950, valid := false }, { value := 910, valid := true }] = some (2, 910) ∧
    (base.tile 1).mon.trips ((base.tile 1).mon.temps.zipIdx.map fun r => r.1.take ((base.tile 1).sensorOn r.2) (List.replicate 24 880)[r.2]?) = false ∧
    ((base.tile 1).mon.temps.zipIdx.map fun r => r.1.take ((base.tile 1).sensorOn r.2) (List.replicate 24 880)[r.2]?).any
      (fun r => r.valid && decide (min (base.tile 1).mon.thrHi 880 ≤ r.value)) = true ∧ (base.tile 1).mon.thrEn = true ∧
    (hotS.tile 1).mon.trips ((hotS.tile 1).mon.temps.zipIdx.map fun r => r.1.take ((hotS.tile 1).sensorOn r.2) (List.replicate 24 1150)[r.2]?) = true ∧
    hotS.dev.mode ≠ .test ∧ hotS.dev.mode ≠ .halt ∧ (hotS.tile 1).mon.throttle = true ∧ (hotS.tile 1).mon.anyAt (hotS.tile 1).mon.hi = true ∧
    0 < (hotS.tile 1).mon.winCnt ∧ (hotS.tile 1).mon.winCool = true ∧
    (hotS.tile 1).mon.winAt ≠ hotS.now / (hotS.tile 1).mon.avgNs ∧ (({ hotS with now := 5 } : State).tile 1).mon.winAt = 5 / (hotS.tile 1).mon.avgNs ∧
    (base.tile 1).mon.throttle = false ∧ ({ (hotS.tile 1).mon with winCool := false } : Mon).winCool = false := by decide +kernel

def nightS : State := { base with
  dev := { base.dev with mode := .nightwatch }
  nw := { thr := [{ en := true, tile := 1, src := 0, index := 0, persist := 1, action := 3, level := 0 }] } }

theorem test_w45 : base.present 0 = true ∧ base.domOn 1 40 = true ∧ (base.tile 1).mon.droopEn = true ∧ base.domOn 1 15 = true ∧ 29 ∈ base.railsOf ∧
    nightS.dev.mode = .nightwatch ∧ nightS.dev.change = none ∧ nwExitChange ∉ nightS.dev.waiting ∧ nwExitChange ∉ nightS.dev.retry ∧
    (nightS.nw.thr.any fun e => e.en && decide (max 1 e.persist ≤ e.held + 1) && bit e.action 1 &&
      e.met (nightS.nwSeen { tile := 1, temps := [some 1], supply := [], rings := [] })) = true := by decide +kernel

/-! ### Queries -/

/-- An image of the given sections (R183, R184), its CRC left 0. -/
def imgOf (npipe nseg : Nat) (sects : List (Nat × Nat × List Byte)) : List Byte :=
  let start := 64 + 16 * sects.length
  let body := sects.foldl (fun (a : List Byte × List Byte) e =>
    (a.1 ++ leBytes 2 e.1 ++ leBytes 1 e.2.1 ++ [0] ++ leBytes 4 (start + a.2.length) ++ leBytes 4 e.2.2.length ++ leBytes 4 0, a.2 ++ e.2.2)) ([], [])
  leBytes 4 0x49504C5A ++ leBytes 2 1 ++ leBytes 2 sects.length ++ leBytes 4 (start + body.2.length) ++ leBytes 4 0 ++ leBytes 1 npipe ++ [0] ++
    leBytes 2 nseg ++ List.replicate 44 0 ++ body.1 ++ body.2

def opOf (kind : Nat) (body : List Byte) : List Byte := leBytes 1 kind ++ [0] ++ leBytes 2 body.length ++ leBytes 4 0 ++ body

def planOf (src prod nops order wait : Nat) : List Byte :=
  leBytes 1 src ++ leBytes 1 prod ++ leBytes 1 nops ++ leBytes 1 order ++ leBytes 4 wait ++ leBytes 8 0

def slotOf (role : Nat) : List Byte := leBytes 1 role ++ [0x05, 0, 0, 0, 0xFF, 0, 0]
def scanOp : List Byte := opOf 1 ([1] ++ List.replicate 15 0)
def readOp : List Byte := opOf 2 ([1] ++ List.replicate 15 0)
def computeOp : List Byte := opOf 4 ([0xFF] ++ List.replicate 7 0)
def emitOp (target : Nat) : List Byte :=
  opOf 12 (leBytes 1 target ++ [1, 0, 0] ++ leBytes 2 1 ++ leBytes 2 0 ++ leBytes 8 0 ++ [0] ++ List.replicate 15 0xFF ++ [1] ++
    List.replicate 15 0xFF ++ leBytes 8 0)
/-- GATHER of one column; one MiB of buffer and one of spill. -/
def exchOp : List Byte := opOf 6 ([5, 0, 0, 1, 0, 0, 0, 0, 0, 0, 0, 0, 1, 0, 1, 0] ++ List.replicate 32 0)
def sortOp : List Byte := opOf 9 ([1, 1] ++ List.replicate 62 0)

/-- Pipeline 0 scans slot 0 into the sink; pipeline 1 reads what it left and emits. -/
def twoPipes (sink rest : List Byte) (src nops : Nat) (more : List (Nat × Nat × List Byte)) : List Byte :=
  imgOf 2 2 ([(1, 0xFF, planOf 1 0xFF 2 0 0 ++ planOf src 0 nops 1 1), (2, 0xFF, slotOf 0 ++ slotOf 3), (4, 0, scanOp ++ sink),
    (4, 1, readOp ++ rest)] ++ more)

/-- One micro-op: CALL of UDF 0 with argument slot 0 into slot 1, an INT64. -/
def callProg : List Byte :=
  [1, 1] ++ List.replicate 6 0 ++ ((List.range 64).flatMap fun i => if i ≤ 1 then [0x05, 0, 0, 0] else [0, 0, 0, 0]) ++
    leBytes 8 0x0150 ++ [1]

def udfSect : List Byte := leBytes 2 1 ++ List.replicate 14 0 ++ (leBytes 4 0 ++ leBytes 4 128 ++ [0, 1] ++ List.replicate 6 0)

def exchImg : List Byte := twoPipes exchOp (emitOp 0) 2 2 []
def sortImg : List Byte := twoPipes sortOp (emitOp 0) 4 2 []
def callImg : List Byte := twoPipes exchOp (computeOp ++ emitOp 0) 2 3 [(5, 1, callProg), (7, 0xFF, udfSect)]
def ringImg : List Byte := twoPipes exchOp (emitOp 1) 2 2 []

def rec0 : List Byte := exchangeRecord 0 0 2 0 [{ code := 0x05 }] [.int 7]
def part0 : Part_ := { part := 0, tile := 0, open_ := some { recs := [rec0] } }
def pm (n : Nat) : MorselAt := { tile := 0, morsel := n, seq := n, count := 1 }
def pipe0 : PipeState := { released := true, planned := true, morsels := [pm 0], verified := [(0, 0)], parts := [part0] }
def pipe1 : PipeState := { released := true, planned := true, morsels := [pm 0, pm 1] }

def qOf (image : List Byte) (pipes : List PipeState) : Query :=
  { qid := 5, c := tc, home := 0, handle := 2, image := image, slice := 0, sgen := 1, qgen := 1, prio := 3, segs := [3, 4], params := [],
    frames := [65], sets := [1, 1], masks := [1, 0], resolved := [], pipes := pipes, charged := [], sram := [], ringAddr := 0, ringLen := 65536 + 4096 }

def qS (q : Query) : State := { segS with queries := [q], cmds := [{ cmdOf 0x32 [] (.query 5) with ref := tc }] }

def run1 : Run :=
  { qid := 5, pipe := 1, at_ := pm 0, slice := 0, sgen := 1, qgen := 1, attempt := 0, prio := 3, order := 1, eclass := 3, est := 100, first := 100 }

def runS (q : Query) (r : Run) : State := (qS q).setRun 3 (some r)

def tok (n : Nat) : Token :=
  { qid := 5, home := 0, pipe := 1, morsels := [pm n], slice := 0, sgen := 1, qgen := 1, prio := 3, order := 0, eclass := 3 }

def schedS (q : Query) (f : Sched → Sched) : State := (qS q).onSched 0 f

def callQ : Query := qOf callImg [pipe0, pipe1]
def exchQ : Query := qOf exchImg [pipe0, pipe1]

theorem test_w27 : (let q := qOf exchImg []
    (qS q).progOp? tc 0x32 = some (.query 5) ∧ (qS q).query? 5 = some q ∧ q.pipes = [] ∧ q.failing = false ∧ (qS q).imageLost q.handle = false ∧ (qS q).startLost q.img q = none ∧
    q.img.npipe = 2 ∧ (q.img.pipes.getD 1 default).plan.src ≠ 1 ∧
    (q.img.pipes[0]?).any (fun p => p.plan.src == 1 && p.plan.wait == 0 && ceilDiv (q.scanFrames p) 64 == 2) = true) ∧
    (let q := qOf exchImg []
    let s : State := { qS q with images := [(2, some { bytes := [], slice := 0, tiles := 255, withdrawn := 1 })] }
    s.progOp? tc 0x32 = some (.query 5) ∧ s.query? 5 = some q ∧ q.fails = [] ∧ s.imageLost q.handle = true ∧ s.queryRuns 5 = false) ∧
    (let q := { exchQ with toPost := [(1, tok 0), (0, tok 1)] }
    (qS q).live 0 = true ∧ (qS q).dev.mode.runsCommands = true ∧ ((qS q).sched 0).tokens.length < 16384 ∧
      (qS q).queries.findSome? (fun q => (takePost 0 q.toPost).map fun x => (q, x)) = some (q, tok 1, [(1, tok 0)])) := by decide +kernel

theorem sched_tokens (l : List Token) : ((schedS exchQ fun c => { c with tokens := l }).sched 0).tokens = l := by
  simp [schedS, State.sched, State.onSched, Machine.onSched, State.onTile, State.tile]

theorem test_w27_full : 16384 ≤ ((schedS exchQ fun c => { c with tokens := List.replicate 16384 (tok 0) }).sched 0).tokens.length := by
  simp only [sched_tokens, List.length_replicate, Nat.le_refl]

/-- Two runs of one group, one of them empty. -/
def sortRuns : List SRun :=
  [{ tile := 0, group := 0, recs := [{ nkey := [1], cols := [.int 1], morsel := 0, attempt := 0 }] }, { tile := 0, group := 0, recs := [] }]

theorem test_w28 : (let q := qOf exchImg [pipe0, {}]
    (qS q).query? 5 = some q ∧ 1 < q.pipes.length ∧ (q.pipe 1).released = false ∧ q.barrierMet q.img 1 = true) ∧
    (qS exchQ).query? 5 = some exchQ ∧ (qS exchQ).live 1 = true ∧ (exchQ.pipe 1).released = true ∧
    (let q := qOf sortImg [{ pipe0 with parts := [], runs := sortRuns }, {}]
    let s := qS q
    let out := s.sortRecs 3 (sortRuns.flatMap (·.recs))
    out.length = 1 ∧ out.all (fun r => !s.rowBad 5 0 0 (q.img.pipes.getD 0 default).sink r.row) = true ∧
      (passChecks 1 2 ((passCounts sortRuns out).upset []).val).all (·.ok) = true ∧ (q.pipe 0).planned = true ∧
    (qS q).query? 5 = some q ∧ (q.pipe 0).allVerified = true ∧ (q.img.pipes.getD 0 default).sink.kind = kSort ∧ ((qS q).sortTile 0).isSome = true ∧
      (q.pipe 0).unmerged.find? (fun k => k.1 == (0 : TileId).val) = some (0, 0)) := by decide +kernel

theorem test_w28_spill : (let q := qOf exchImg [{ pipe0 with parts := [{ part0 with closed := List.replicate 63 { recs := [] } }] }, {}]
    (qS q).query? 5 = some q ∧ (q.img.pipes.getD 0 default).sink.kind = kExchange ∧
    (q.img.pipes.getD 0 default).sink.b 12 * pagesPerMib ≤ (q.pipe 0).sramPages 0 ∧
    (q.pipe 0).spilledPages 0 < (q.img.pipes.getD 0 default).sink.u 14 2 * pagesPerMib) := by decide +kernel

theorem test_w28_call : (let s := runS callQ run1
    let e := callQ.env 1 0 (pm 0)
    let fd := s.feed e
    s.working? 3 = some (run1, callQ) ∧ e.p.formula.isSome = true ∧
    (match e.p.formula, s.frontBlock e [] 0 (fd.rows.filter fun x => x.blk == 0) with
      | some f, .wait b u _ _ rs => b == 0 && u == 0 &&
          (s.argPoison e (callArgs e f (Uop.ofWord (f.words.getD 0 0)) (byteAt ((udfDescs ((e.img.udf.map (·.2)).getD [])).getD 0 []) 9) rs)).isNone
      | _, _ => false) = true ∧
    s.blocksBefore e run1 fd false 0 = true ∧ byteAt ((udfDescs ((e.img.udf.map (·.2)).getD [])).getD 0 []) 8 = 0 ∧
    (s.sumen (.small 3)).call = none) := by decide +kernel

theorem test_w29 : base.live 0 = true ∧ (base.tile 0).mode.dispatches = true ∧
    (let w := (schedS exchQ fun c => { c with tokens := [{ tok 0 with age := 16 }] }).forDispatch 0 .clean
    w.idlePes 0 = 0 :: (List.range 15).map (· + 1) ∧
    agedToken (((w.sched 0).tokens.zipIdx.map fun e => (e.2, e.1)).filter fun e => w.eligible 0 e.2) = some (0, { tok 0 with age := 16 })) := by
  decide +kernel

def steal0 : Steal := { tag := 9, tile := 1, pe := 5, est := 50 }

theorem test_w30 : (hdr 1 0 28).dstTile ≠ (hdr 1 0 28).srcTile ∧
    (let s := schedS exchQ fun c => { c with tokens := [tok 0, { tok 1 with skipped := true }], windowEnd := some 1100000 }
    let w := (s.rollSched 0).markSeen 0 1 0x36 9
    s.live 0 = true ∧ s.seen 0 1 0x36 9 = false ∧ w.seen 0 1 0x36 9 = true ∧ (∀ k ∈ (w.sched 0).tokens, k.prio = 4 → k.skipped = false) ∧
    (w.sched 0).tokens = [tok 0] ++ { tok 1 with skipped := true } :: [] ∧ (∀ j ∈ [tok 0], w.grantable 0 1 3 j = false) ∧
    w.grantable 0 1 3 { tok 1 with skipped := true } = true ∧ (tok 1).morsels = pm 1 :: []) ∧
    (let s := schedS exchQ fun c => { c with steals := [steal0] }
    let w := s.rollSched 0
    (s.sched 0).steals.find? (fun x => x.tag == 9 && x.tile == (hdr 1 0 28).srcTile.val) = some steal0 ∧ w.query? 5 = some exchQ ∧
    (hdr 1 0 28).sgen = (w.slc (hdr 1 0 28).slice).gen ∧ (hdr 1 0 28).qgen = (w.queue exchQ.c.q.val).gen ∧
    ((exchQ.pipe 1).morsels.filter fun m => m.morsel == 1 && m.seq == 1) = [pm 1] ∧ w.peOk 5 = true ∧ w.run? (gpeN 5) = none ∧
    w.canRun 0 exchQ 1 = true) := by decide +kernel

def failQ : Query := { exchQ with failing := true, fails := [{ status := stResultSpace, detail := 0x0041, pipe := 1, op := 0, morsel := 0, time := 0 }] }

/-- A morsel of the EXCHANGE pipeline whose records have been sent. -/
def run0 : Run := { run1 with pipe := 0, xs := some [] }
def twoQ : Query := { exchQ with masks := [3, 0] }

theorem test_w31 : (let s := runS exchQ run1
    let w := s.rollSched (gpeTile 3)
    let e := exchQ.env 1 0 (pm 0)
    s.working? 3 ≠ none ∧ w.working? 3 = some (run1, exchQ) ∧ run1.xs = none ∧ run1.pipe < exchQ.pipes.length ∧ e.p.sink.kind ≠ kExchange ∧
    e.p.sink.kind ≠ kAgg ∧ e.p.sink.kind ≠ kWindow ∧ w.sinkReady e = true ∧
    (match w.stages e run1 (w.feed e) with
      | .rows rows cs => (match w.sink e 0 rows with
        | .ok k => k.merge.isEmpty && decide (k.pass.ready.length = 1) && (e.checks ((cs ++ k.counts).upset [])).all (·.ok)
        | .error _ => false)
      | _ => false) = true ∧
    ((w.rollVerify 0).tile 0).err.peMiss.getD 3 0 = 0 ∧ (w.tile 0).evidence = none ∧ w.peOk 0 = true ∧ 0 ∉ run1.used ++ [3]) ∧
    (let w := (runS exchQ run0).rollSched 0
    let e := exchQ.env 0 0 (pm 0)
    w.working? 3 = some (run0, exchQ) ∧ run0.xs.isSome = true ∧ run0.answered e = true ∧
      (e.checks ((run0.counts ++ exchangeCounts 0 [] [(0, 0, 0)]).upset [])).all (·.ok) = true ∧ (exchQ.pipe 0).recvTally 0 3 0 0 = (0, 0)) ∧
    (let w := (runS twoQ run0).rollSched 0
    w.working? 3 = some (run0, twoQ) ∧ run0.answered (twoQ.env 0 0 (pm 0)) = false) ∧
    (qS failQ).query? 5 = some failQ ∧ failQ.failing = true ∧ failQ.fails ≠ [] ∧ (runS failQ run1).run? 3 = some run1 ∧
    (∀ f ∈ failQ.fails, undefResults f.status = false) := by decide +kernel

def ready0 : EmitReady := { seq := 0, morsel := 0, tile := 0, rows := [[.int 7]] }
def emitQ : Query := qOf exchImg [pipe0, { pipe1 with verified := [(0, 0)], ready := [ready0] }]
def ringQ : Query := { qOf ringImg [pipe0, { pipe1 with verified := [(0, 0)], ready := [ready0] }] with consWait := some (1, 0) }

/-- The same with a full frame of rows ready. -/
def bigQ : Query := qOf exchImg [pipe0, { pipe1 with verified := [(0, 0)], ready := [{ ready0 with rows := List.replicate 1024 [.int 7] }] }]

set_option maxRecDepth 100000 in
theorem test_w32 : (qS emitQ).query? 5 = some emitQ ∧ 1 < emitQ.pipes.length ∧ 1 < emitQ.img.pipes.length ∧
    (emitQ.img.pipes.getD 1 default).sink.kind = kEmit ∧ (emitQ.img.pipes.getD 1 default).sink.b 0 = 0 ∧
    (emitQ.img.pipes.getD 1 default).sink.limit = 0 ∧ (emitQ.img.pipes.getD 1 default).plan.order = 1 ∧
    (emitQ.pipe 1).nextCommit 1 = some ready0 ∧ (emitQ.pipe 1).isVerified (pm 1) = false ∧
    (emitQ.pipe 1).begun? = none ∧ (qS emitQ).pageBad 5 1 0 0 true = false ∧ (emitQ.pipe 1).carry.length + ready0.rows.length < 1024 ∧
    (qS emitQ).codecTile (tid 0) = some 0 ∧ (bigQ.pipe 1).nextCommit 1 = some { ready0 with rows := List.replicate 1024 [.int 7] } ∧
    (let a : RingDest := { addr := 0, size := 65536, port := 0, pasid := none }
    ringRoom a { prod := 64, cons := 0 } { bytes := [] } 640 = ({ prod := 64, cons := 0 }, .done)) ∧
    (qS ringQ).query? 5 = some ringQ ∧ ringQ.consWait = some (1, 0) ∧ (ringQ.pipe 1).ready.find? (fun x => x.seq == 0) = some ready0 ∧
    ((qS ringQ).commitRing (ringQ.commitEnv 1 ready0) ready0 { bytes := leBytes 16 0 } none).2.1 = .done := by decide +kernel

theorem test_w37 : (let h := { hdr 1 0 28 with dstAgent := 28 }
    (qS exchQ).live 0 = true ∧ (qS exchQ).stale? h = false ∧ (exchQ.img.pipes.getD 0 default).sink.kind = kExchange ∧ bit (exchQ.masks.getD 0 0) 0 = true ∧
    ((exchQ.pipe 0).deposit (exchQ.img.pipes.getD 0 default).sink 0 0 (cut rec0 0 (field rec0 14 2))).isSome = true ∧
    (runS exchQ run1).runOf? 5 3 0 0 = some run1 ∧ (runS exchQ run1).query? 5 = some exchQ ∧ (runS exchQ run1).live 0 = true ∧
    (runS exchQ run1).stale? h = false) := by decide +kernel

theorem test_w37_served : served (qS exchQ) (hdr 1 0 28) := by
  unfold served; exact ⟨by decide +kernel, fun d h => by cases h <;> decide +kernel, by decide +kernel⟩

/-- R111: two of three bytes of a batch are moved before the fault, so the offset in the stream is two beyond PROD. -/
theorem test_ring_write_fault :
    let r := ringPut { addr := 0, size := 100, port := 0, pasid := none } { prod := 7, cons := 0 } [1, 2, 3] 1 (some (0, 2))
    r.2 = .fail stTranslation 0 (some 4105) 2 ∧ r.1.prod = 7 ∧ r.1.outs = [.hostWrite 0 none 4103 [1, 2]] := by decide
/-! ### Reset inputs, ports, management and Cinch -/

/-- A slot whose image passes R49, and COLD with it in slot A. -/
def goodSlot : Slot := { magicOk := true, length := 4096, keyOk := true, sigOk := true, svn := 1, version := 7 }
def coldS : State := { State.reset with flash := { State.reset.flash with slotA := goodSlot } }
def seen0 : BootSeen :=
  { test := false, recovery := false, smbAddr := 0, gpio := 0, lowNs := 1000, highNs := 1000, selfTestFail := 0, imageFail := 0 }

theorem test_w47 : (49 : Nat) < 50 ∧ ({ base with pins := { base.pins with pwrok := true } } : State).pins.pwrok = true ∧ base.pins.pwrok = false ∧
    coldS.dev.mode = .cold ∧ (coldS.flash.slot 0).valid coldS.man.minSvn = true ∧
    (let s : State := { coldS with flash := { coldS.flash with slotA := {}, slotB := {}, recovery := {} } }
    ∀ k ∈ [0, 1, 2], (s.flash.slot k).valid s.man.minSvn = false) ∧ bit (0x01 : Byte).toNat 0 = true ∧
    (let s : State := { base with dev := { base.dev with mode := .train } }
    s.dev.mode = .train ∧ s.dev.phase = .idle ∧ s.dev.trained = false ∧ base.dev.mode ≠ .train) := by decide +kernel

theorem test_w48 : base.present 0 = true ∧ base.hostRole 1 = false ∧ base.hostRole 0 = true ∧ base.dev.mode ≠ .activate ∧ base.dev.mode ≠ .halt ∧
    base.live 0 = true ∧ ({ base with pins := { base.pins with perstN := base.pins.perstN.set 0 true } } : State).pins.perstN.getD 0 false = true ∧ base.dev.mode ≠ .cold ∧ base.dev.mode ≠ .test ∧ (base.tile 0).linkUp = true ∧
    (0 : TileId) = base.masterTile ∧ (3 : TileId) ≠ base.masterTile := by decide +kernel

def modeS (m : Mode) : State := { base with dev := { base.dev with mode := m } }
def upd (u : Update) : State := { base with update := u }

theorem test_w49 : base.serves .smbus = true ∧ base.serves (.vdm 0) = true ∧ base.serves (.vdm 1) = false ∧ (base.sensor 0x21).isSome = true ∧
    (base.sensor 0x20).isSome = true ∧ (base.sensor 0x08).isSome = true ∧ base.sensor 0x22 = none ∧ (modeS .halt).serves .smbus = true ∧
    (limitRange base.man.part).1 ≤ (limitRange base.man.part).2 ∧ base.present 7 = true ∧ base.fwInFlight = false ∧
    { base with cmds := [cmdOf 0x04 []] }.fwInFlight = true ∧ base.update.active = false ∧ base.dev.bootSlot < 2 ∧ base.fencedT 0 = false ∧
    evidenceSize - 1024 + 1024 ≤ evidenceSize ∧
    (let s := { upd { active := true, slot := 1 } with flash := coldS.flash }
    s.update.slot < 2 ∧ (0 : Nat) + ([1, 2] : List Byte).length ≤ 41943040 ∧ s.update.verified = false) ∧
    (upd { active := true, slot := 1, verified := true }).update.verified = true ∧
    (let s := { upd { active := true, lastAt := 1 } with now := 120000000001 }
    s.update.lastAt + 120000000000 ≤ s.now) ∧
    (let s := { upd { active := true, lastAt := 1 } with now := 120000000000 }
    s.now < s.update.lastAt + 120000000000) := by decide +kernel

def chg : Change := { code := 1, arg := 9, origin := .device }
def busyS (p : Phase) (f : Dev → Dev) : State := { base with dev := f { base.dev with phase := p, change := some chg } }
def prepS (t : TileId) (p : Nat × Nat × Nat) (a : Bool) : State := base.onTile t fun x => { x with prepared := some p, answered := a }
def calm : SafeSeen := { imageInvalid := false, dfllUnlocked := false, localFault := false }

theorem test_w50 : base.dev.mode.devWritable = true ∧ reqTarget base.dev.mode 0 = none ∧
    ((List.range 16).any fun m => (reqTarget base.dev.mode m).isSome) = true ∧ base.dev.phase = .idle ∧ base.dev.change = none ∧
    base.dev.activation = none ∧ base.dev.mode ≠ .dusk ∧ (busyS .prepare id).dev.phase ≠ .idle ∧
    (let c : Change := { code := 2, arg := 1, origin := .modeReq }
    let s : State := { base with dev := { base.dev with waiting := [c], epoch := 65535 } }
    s.dev.waiting = c :: [] ∧ s.stale c = false) ∧
    base.cinchable 3 = true ∧ (3 : TileId) ≠ base.masterTile ∧
    (prepS 3 (2, 1, 1) false).refusal 3 (2, 1, 1) calm = none ∧ (prepS 3 (2, 1, 2) false).refusal 3 (2, 1, 2) calm = some 2 ∧
    (prepS 3 (2, 1, 1) true).cinchable 3 = true ∧ (base.tile 3).prepared = none := by decide +kernel

/-- Every tile but 3 has answered READY. -/
def lastReady : State := busyS .prepare fun d => { d with ready := 0xF7 }

theorem test_w51 : (busyS .prepare id).dev.change = some chg ∧ base.live 3 = true ∧
    (let s := busyS .prepare id
    ({ s.onTile 3 fun x => { x with timeouts := 0 } with dev := { s.dev with ready := setBit s.dev.ready 3 } } : State).allReady = false) ∧
    (let s := lastReady
    ({ s.onTile 3 fun x => { x with timeouts := 0 } with dev := { s.dev with ready := setBit s.dev.ready 3 } } : State).allReady = true) ∧
    chg.origin = .device ∧ ((prepS 3 (1, 9, 4) true).tile 3).prepared = some (1, 9, 4) ∧
    ((base.onTile 3 fun x => { x with taken := some (1, 4) }).tile 3).taken = some (1, 4) ∧
    ((busyS .commit id).tile (busyS .commit id).masterTile).taken = none ∧
    (let s := (busyS .commit id).onTile 0 fun x => { x with taken := some (1, 0) }
    (s.tile s.masterTile).taken = some (1, s.dev.epoch) ∧ setBit s.dev.applied 3 ≠ s.presentMask ∧ (s.tile s.masterTile).strobeSeq = 0) ∧
    (let s : State := { base with dev := { base.dev with phase := .resend, change := some { chg with origin := .modeReq }, applied := 0xF7, resends := 3 } }
    ((s.onTile 0 fun x => { x with taken := some (1, 0) }).tile s.masterTile).taken = some (1, s.dev.epoch) ∧
    ([((3 : TileId).val, 0)].filter fun r => r.2 == (s.tile s.masterTile).strobeSeq && s.live (tid r.1)).foldl (fun b r => setBit b r.1) s.dev.applied =
      s.presentMask ∧ s.dev.activation = none ∧ s.dev.resends = 3 ∧ bit s.dev.applied 3 = false) ∧
    (busyS .commit id).dev.resends < 3 ∧ (0 : Nat) ≠ (busyS .commit fun d => { d with epoch := 1 }).dev.epoch ∧
    ({ base with dev := { base.dev with retry := [chg] } } : State).dev.retry = chg :: [] := by decide +kernel

theorem test_w51_lost : bit (busyS .prepare id).dev.ready 3 = false ∧ (∀ u, base.live u = true → (base.tile u).timeouts < 2) ∧
    (let s := (busyS .prepare id).onTile 3 fun x => { x with prepared := some (1, 9, 1), answered := true }
    s.ownsChange 3 = true ∧ (3 : TileId) ≠ s.masterTile ∧ s.live 3 = true ∧ s.dev.phase = .prepare) ∧
    (let s := (busyS .commit id).onTile 3 fun x => { x with taken := some (1, 0) }
    s.ownsChange 3 = true ∧ s.live 3 = true ∧ s.dev.phase = .commit ∧ s.dev.change = some chg) ∧
    base.present 5 = true ∧ base.dev.mode ≠ .cold ∧ base.dev.mode ≠ .test ∧ (modeS .halt).dev.haltMsg = false ∧ (modeS .halt).tile0Dead = false ∧
    (let s : State := { base with dev := { base.dev with mode := .dusk, drainTo := some .ready } }
    s.dev.phase = .idle ∧ s.dev.activation = none ∧ s.dev.drainTo = some .ready ∧ s.cmds = [] ∧ modeChange .ready .device ∉ s.dev.waiting ∧
      modeChange .ready .device ∉ s.dev.retry) ∧
    (let a : Activation := { c := tc, slot := 1, commit := false }
    let s : State := { base with dev := { base.dev with mode := .activate, activation := some a } }
    s.dev.activation = some a ∧ s.dev.phase = .idle ∧ a.restarted = false ∧ a.commit = false) := by decide +kernel
/-! ### Sumen -/

def call0 : Call := { pe := 3, qid := 5, handle := 2, block := 0, uop := 0, udf := 0, rows := 4, select := 0xA, nargs := 1, entry := 0 }

/-- A core on which call 0 runs, at the first word of its code. -/
def coreS (k : CoreId) (f : Core → Core) : State := (qS callQ).setSumen k (f { call := some call0 })

def small3 : CoreId := .small 3
def ctx0 (large : Bool) : UdfCtx := udfCtx callQ.img large call0

/-- Integer registers 1 and 2. -/
def xs (a b : Word64) (c : Core) : Core := (c.setX 1 a).setX 2 b

/-- Vector registers of 32-bit or 128-bit elements. -/
def packV (w : Nat) (l : List Int) : BitVec 2048 := BitVec.ofNat 2048 ((l.zipIdx.map fun e => ofSigned w e.1 * 2 ^ (w * e.2)).sum)

theorem test_w52_ready : sumenReady (coreS small3 (xs 5 0)) small3 call0 (ctx0 false) ∧ sumenReady (coreS (.large 2) id) (.large 2) call0 (ctx0 true) := by
  unfold sumenReady; decide +kernel

theorem test_w52 : ((coreS small3 (xs 5 0)).sumen small3).getX 2 = 0 ∧ ((coreS small3 (xs 5 63)).sumen small3).getX 2 ≠ 0 ∧
    (63 : Word64).toNat < 64 ∧ ((coreS small3 (xs 5 63)).sumen small3).getX 2 = 63 := by decide +kernel

theorem test_w53 : (let c := (coreS small3 (xs 5 5)).sumen small3
    c.getX 1 = c.getX 2 ∧ ¬ (c.getX 1).toInt < (c.getX 2).toInt ∧ c.csr 1 = some 0 ∧ c.csr 6 = some 0 ∧ (6 : BitVec 16).toNat ≤ 6 ∧
    (4 : BitVec 16).toNat ≤ 4 ∧ c.vrem = 0 ∧ c.vact ≤ c.vresume.toNat) ∧
    (let c := (coreS small3 fun c => { xs 5 1 c with vrem := 5, vact := 2, vshape := 3, vresume := 1 }).sumen small3
    c.vrem ≠ 0 ∧ c.vresume.toNat < c.vact ∧ (c.getX 2).toNat < vlen (coreLarge small3) / c.ew) := by decide +kernel

theorem test_w54 : (let c := (coreS small3 (xs 0x400600 0)).sumen small3
    (c.load (ctx0 false) false (BitVec.ofInt 64 ((c.getX 1).toInt + 0)).toNat 8).toOption = some (List.replicate 8 0) ∧
    (c.store (ctx0 false) false (BitVec.ofInt 64 ((c.getX 1).toInt + 0)).toNat (leBytes 8 7)).isOk = true ∧
    (c.load (ctx0 false) false 0x400FF8 8).isOk = true ∧ (c.load (ctx0 false) false 0x400FFC 8).isOk = false) ∧
    (let c := (coreS small3 fun c => { xs 0x400600 0 c with vrem := 2, vact := 2, vshape := 3 }).sumen small3
    (∀ e < 2, (c.load (ctx0 false) true ((0x400600 + c.elem 5 e) % 2 ^ 64) 8).isOk = true) ∧ (∀ e < 2, (c.load (ctx0 false) true ((0x400600 + e * 8) % 2 ^ 64) 8).isOk = true) ∧
    ((c.activeFrom false).foldlM (fun (x : Core) (e : Nat) => x.store (ctx0 false) true (0x400600 + e * 8) (leBytes 8 (c.elem 4 e))) c).isOk = true) := by
  decide +kernel

theorem test_w55 : fmt64.toDec 0 0x3FF8000000000000 0 = some (2, false) ∧ fmt64.toDec 0 0x7FF0000000000000 0 = none ∧
    (fmt64.toDec 0 0x43E0000000000000 0 = some (2 ^ 63, true)) ∧ ((coreS small3 id).sumen small3).trap = false ∧
    ((coreS small3 fun c => { c with fxcsr := 8 }).sumen small3).trap = true := by decide +kernel

theorem test_w56_w57 : (let c := (coreS small3 fun c => { c with vrem := 2, vact := 2, vshape := 3 }).sumen small3
    c.ew = 64 ∧ c.elem 2 0 < c.ew ∧ c.trap = false ∧ c.vresume.toNat < c.vact ∧ (2 : RegNo).val % 2 = 0 ∧ c.ew ≠ 128 ∧
    (c.getX 1).toInt.natAbs ≤ 38) ∧ 38 < ((39 : Word64)).toInt.natAbs ∧
    (let c := (coreS small3 fun c => { c with vrem := 2, vact := 2, vshape := 1 }).sumen small3
    c.ew ≠ 32 ∧ c.ew ≠ 64) ∧
    (let c := (coreS small3 fun c => { c.setV 2 (packV 64 [2 ^ 63 - 1, 1]) with vrem := 2, vact := 2, vshape := 3, fxcsr := 8 }).sumen small3
    c.trap = true ∧ (c.activeFrom false).head? = some 0 ∧ (2 ^ 63 - 1 : Int) < c.selem 2 0 + c.selem 2 0) ∧
    (let c := (coreS small3 id).sumen small3
    c.vact ≤ c.vresume.toNat) := by decide +kernel

theorem test_w58 : decodeSumen (.large 0) (0 : Word32).toNat = none ∧
    (let c : Core := (coreS small3 fun c => { c with frame := frameWriteBytes [] 0x80C [0xA] }).sumen small3
    (resultVal (ctx0 false) c.frame 1) = some (.int 0) ∧ call0.select.testBit 1 = true ∧ call0.select.testBit 0 = false) ∧
    resultVal (ctx0 false) [] 1 = none ∧ ((coreS small3 id).sumen small3).queue = [] ∧ base.coreReady small3 = none ∧
    encodeSumen (.add small3 1 2 3) = some 0x04221801 ∧ decodeSumen small3 0x04221801 = some (.add small3 1 2 3) ∧
    ((coreS small3 fun c => { c with miss := some strBase }).sumen small3).miss = some strBase := by decide +kernel

theorem test_w59 : sumenFields (.csr small3 1 2 6) = true ∧ sumenFields (.csr small3 1 2 7) = false ∧ sumenFields (.csr small3 1 2 0) = false ∧
    sumenFields (.vsetl small3 1 2 4) = true ∧ sumenFields (.vsetl small3 1 2 5) = false ∧ sumenFields (.vscale10 small3 1 2 3 true 38) = true ∧
    sumenFields (.vscale10 small3 1 2 3 true 39) = false ∧ (encodeSumen (.vscale10 small3 1 2 3 true 39)).isSome = true := by decide +kernel

/-! Words written out from the tables "Instruction formats" and "Major opcodes", one or more for each family. -/

def wordTests : List (Nat × Instr) := [
  (0x01 <<< 26 ||| 31 <<< 21 ||| 1 <<< 16 ||| 2 <<< 11 ||| 0x002, .sub small3 31 1 2),
  (0x01 <<< 26 ||| 3 <<< 21 ||| 4 <<< 16 ||| 0x012, .jr small3 3 4),
  (0x02 <<< 26 ||| 1 <<< 21 ||| 2 <<< 16 ||| 0xFFFF, .addi small3 1 2 0xFFFF),
  (0x05 <<< 26 ||| 1 <<< 21 ||| 2 <<< 16 ||| 0x8000, .xori small3 1 2 0x8000),
  (0x06 <<< 26 ||| 9 <<< 21 ||| 0x1234, .lui small3 9 0x1234),
  (0x08 <<< 26 ||| 1 <<< 21 ||| 2 <<< 16 ||| 4, .lb small3 1 2 4),
  (0x0E <<< 26 ||| 1 <<< 21 ||| 2 <<< 16 ||| 4, .lwu small3 1 2 4),
  (0x10 <<< 26 ||| 1 <<< 21 ||| 2 <<< 16 ||| 4, .sb small3 1 2 4),
  (0x1D <<< 26 ||| 1 <<< 21 ||| 2 <<< 16 ||| 0xFFFE, .bgeu small3 1 2 0xFFFE),
  (0x1E <<< 26 ||| 0x2000001, .jmp small3 0x2000001),
  (0x20 <<< 26 ||| 1 <<< 21 ||| 2 <<< 16 ||| 3 <<< 11 ||| 0x001, .fadd small3 false 1 2 3),
  (0x20 <<< 26 ||| 1 <<< 21 ||| 2 <<< 16 ||| 1 <<< 10 ||| 0x00F, .fcvtw small3 true 1 2),
  (0x21 <<< 26 ||| 1 <<< 21 ||| 2 <<< 16 ||| 0x11, .fld small3 1 2 0x11),
  (0x28 <<< 26 ||| 1 <<< 21 ||| 2 <<< 16 ||| 6, .csr small3 1 2 6),
  (0x30 <<< 26 ||| 1 <<< 21 ||| 2 <<< 16 ||| 3 <<< 11 ||| 1 <<< 10 ||| 0x026, .vfmax small3 1 2 3 true),
  (0x33 <<< 26 ||| 1 <<< 21 ||| 2 <<< 16 ||| 3 <<< 11 ||| 0x011, .vfredsum small3 1 2 3 false),
  (0x34 <<< 26 ||| 1 <<< 21 ||| 2 <<< 16 ||| 8, .vld small3 1 2 8),
  (0x37 <<< 26 ||| 1 <<< 21 ||| 2 <<< 16 ||| 3 <<< 11 ||| 1 <<< 10, .vstx small3 1 2 3 true),
  (0x38 <<< 26 ||| 9 <<< 21 ||| 1 <<< 16 ||| 4, .vsetl small3 9 1 4),
  (0x3A <<< 26 ||| 9 <<< 21, .vstep small3 9),
  (0x39 <<< 26 ||| 1 <<< 21 ||| 2 <<< 16 ||| 3 <<< 11 ||| 0x003, .vins small3 1 2 3 false),
  (0x3E <<< 26 ||| 0x002, .brk small3)]

theorem test_words : wordTests.all (fun e => decodeSumen small3 e.1 == some e.2 && encodeSumen e.2 == some e.1) = true := by decide +kernel

/-- Undefined words: an unlisted major, an unlisted FN, RA of LUI not 0, IMM16[15:3] of VSETL not 0. -/
theorem test_undefined_words : [0x07 <<< 26, 0x3F <<< 26, 0x01 <<< 26 ||| 0x013, 0x06 <<< 26 ||| 1 <<< 16, 0x38 <<< 26 ||| 8, 0x3A <<< 26 ||| 1].all
    (fun w => (decodeSumen small3 w).isNone) = true := by decide +kernel

/-- "Worked example — rescaling four decimals" (chapter 14): elements of V4 and FXCSR after its VSCALE10, under a RMODE. -/
def rescaled (rmode : Word64) : List Int × Word64 :=
  let k : CoreId := .large 0
  let s := coreS k fun c => { (c.setX 7 (BitVec.ofInt 64 (-1))).setV 2 (packV 128 [18585, -4445, 1234567, 99994]) with
    vshape := 4, vrem := 4, vact := 4, fxcsr := rmode }
  match exec (.vscale10 k 4 2 7 false 5) s with
  | .next t => ((List.range 4).map fun e => (t.sumen k).selem 4 e, (t.sumen k).fxcsr)
  | _ => ([], 0)

theorem test_rescale : rescaled 0 = ([1859, -445, 99999, 9999], 4) ∧ rescaled 1 = ([1858, -444, 99999, 9999], 5) := by decide +kernel

/-- With OVFTRAP set the same instruction writes two elements, sets VRESUME to 2 and faults with FIXED_OVERFLOW. -/
theorem test_rescale_trap : (let k : CoreId := .large 0
    let s := (coreS k fun c => { (c.setX 7 (BitVec.ofInt 64 (-1))).setV 2 (packV 128 [18585, -4445, 1234567, 99994]) with
      vshape := 4, vrem := 4, vact := 4, fxcsr := 8 }).setRun 3 (some run1)
    match exec (.vscale10 k 4 2 7 false 5) s with
    | .next t => decide ((t.sumen k).selem 4 0 = 1859 ∧ (t.sumen k).selem 4 1 = -445 ∧ (t.sumen k).selem 4 2 = 0 ∧ (t.sumen k).vresume = 2 ∧
        (t.run? 3).map (·.udf) = some [{ block := 0, uop := 0, vals := [], fault := some (6, 2) }])
    | _ => false) = true := by decide +kernel

/-- DIV of −2^63 by −1 gives −2^63, and REM gives 0 (R400). -/
theorem test_div_corner : (match exec (.div small3 3 1 2) (coreS small3 (xs 0x8000000000000000 0xFFFFFFFFFFFFFFFF)) with
    | .next t => decide ((t.sumen small3).getX 3 = 0x8000000000000000)
    | _ => false) = true ∧ (match exec (.rem small3 3 1 2) (coreS small3 (xs 0x8000000000000000 0xFFFFFFFFFFFFFFFF)) with
    | .next t => decide ((t.sumen small3).getX 3 = 0)
    | _ => false) = true := by decide +kernel

/-- A flit's fields at the ends of their ranges. -/
theorem test_w39 : (255 : Nat) < 256 ∧ (63 : Nat) < 64 ∧ (31 : Nat) < 32 ∧ (List.replicate 244 (0xFF : Byte)).length = 244 := by decide +kernel

/-! ### Ill-formed commands -/

def wide : MsgHdr := { hdr 1 0 36 with sgen := 65536 }
def emptyLine : TileTrain := { (default : TileTrain) with modules := [[], [], [], []] }

/-- One ill-formed command for each check. -/
theorem test_ill_formed : ([.cinchPrepare 0 256 0 0, .cinchPrepare 0 0 256 0, .cinchPrepare 0 0 0 65536, .cinchReady 0 65536, .cinchRefuse 0 0 256, .cinchAbort 0 65536,
  .cinchPulse 0 65536, .cinchCommit 0 65536, .cinchApplied 0 0 (2 ^ 32), .cinchHalt 0 1 256,
  .doorbell { q := 0, off := 4096, size := 4, value := 0, port := 0, pasid := none }, .ringEntryRead 0 [.ok []], .ownReread 0 (.ok [0]),
  .registerWrite { port := 0, addr := 2 ^ 26, size := 4, value := 0 }, .aliasWrite { port := 0, addr := 0, size := 2, value := 0 },
  .applyModeClear { port := 0, addr := 0, size := 4, value := 2 ^ 32 }, .dataFlit 0 0 0 [], .idleFlit 0 0 0 (List.replicate 255 0), .linkParams 0 0 [],
  .sidebandCtl 0 0 (List.replicate 65 0), .sidebandCtl 0 0 (List.replicate 15 0)] : List Instr).all (fun c => !c.wf) = true := by decide +kernel

/-- One ill-formed command for each check. -/
theorem test_ill_formed_messages : ([.rdLine wide 0 0, .rdLine (hdr 1 0 36) 65536 0,
  .rdLine (hdr 1 0 36) 0 (2 ^ 52), .wrLine (hdr 1 0 36) 0 0 0 [], .regRd (hdr 1 0 36) 0 (2 ^ 32), .regWr (hdr 1 0 36) 65536 0 0,
  .rdData (hdr 1 0 36) 0 256 (List.replicate 64 0), .rdData (hdr 1 0 36) 0 0 [], .wrAck (hdr 1 0 36) 0 256, .regData (hdr 1 0 36) 65536 0 0,
  .xack (hdr 1 0 36) 5 0 4 0 0, .xrec (hdr 1 0 36) 5 0 65536 [], .xtallyReq (hdr 1 0 36) 65536 0 0 0, .xchgTally (hdr 1 0 36) 5 0 0 0 (2 ^ 64) 0,
  .barrier (hdr 1 0 36) 65536 0, .emitBase (hdr 1 0 36) 5 0 (2 ^ 64), .schedState wide 0 0 0 0, .stealReq wide 0 0, .stealGrant wide 0 default,
  .stealRefuse wide 0, .trainSequence [], .trainSequence (List.replicate 8 default), .trainSequence (List.replicate 8 { emptyLine with dimm0Gib := 512, dimm1Gib := 1 }),
  .trainSequence (List.replicate 8 { emptyLine with expanders := [{ volatile_ := 0, persistent := 1, brought := some [[]] }] })] : List Instr).all (fun c => !c.wf) = true := by decide +kernel

theorem test_well_formed : [Instr.cinchPrepare 0 255 255 65535, .dataFlit 0 0 0 (List.replicate 256 0), .rdLine (hdr 1 0 36) 65535 (2 ^ 52 - 1),
    .trainSequence (List.replicate 8 emptyLine), .add small3 1 2 3].all Instr.wf = true := by decide +kernel
/-! ### Worked examples of the data path -/

/-- A WINDOW body with ORIGIN 0 and the given WIDTH and HOP in seconds. -/
def windowOp (width hop : Nat) : Op :=
  { kind := kWindow, off := 0, body := List.replicate 16 0 ++ leBytes 8 (width * 10 ^ 9) ++ leBytes 8 (hop * 10 ^ 9) }

/-- "Worked example — rows on a window boundary" (chapter 9). -/
theorem test_window_boundary : windowStarts (windowOp 60 20) 120000000000 = [80000000000, 100000000000, 120000000000] ∧
    windowStarts (windowOp 60 20) 119999999999 = [60000000000, 80000000000, 100000000000] ∧ windowStarts (windowOp 20 30) 25000000000 = [] := by
  decide +kernel

end Sys2Proof.Tests
end

section
/-!
Ring positions and occupancy (R69).
-/
namespace Sys2Proof.Machine

theorem Queue.depth_pos (u : Queue) : 0 < u.depth := Nat.two_pow_pos _

@[simp] theorem Queue.pos_false (u : Queue) (ix : Nat) : u.pos ix false = ix := rfl

@[simp] theorem Queue.pos_true (u : Queue) (ix : Nat) : u.pos ix true = ix + u.depth := rfl

theorem Queue.pos_eq_index_add_depth_mul_wrap (u : Queue) (ix : Nat) (wrap : Bool) :
    u.pos ix wrap = ix + u.depth * (if wrap then 1 else 0) := by
  cases wrap <;> simp

theorem Queue.pos_lt_two_mul_depth {u : Queue} {ix : Nat} (h : ix < u.depth) (wrap : Bool) :
    u.pos ix wrap < 2 * u.depth := by
  cases wrap with
  | false => simp only [pos_false]; omega
  | true => simp only [pos_true]; omega

/-- The model adds 2D before it subtracts, so that its subtraction of natural numbers never goes below 0. -/
theorem Queue.occupancy_eq_sub_emod {u : Queue} (h : u.headIx < u.depth) :
    (u.occupancy : Int) = ((u.tailPos : Int) - (u.headPos : Int)) % (2 * u.depth : Int) := by
  have hlt : u.headPos < 2 * u.depth := pos_lt_two_mul_depth h u.headWrap
  have hdist : ((u.tailPos + 2 * u.depth - u.headPos : Nat) : Int) = (u.tailPos : Int) - u.headPos + 2 * u.depth := by omega
  have hperiod : ((2 * u.depth : Nat) : Int) = 2 * u.depth := Int.natCast_mul 2 u.depth
  rw [occupancy, Int.natCast_emod, hdist, hperiod, Int.add_emod_right]

theorem Queue.occupancy_eq_zero_of_same_pos {u : Queue} (hix : u.headIx = u.tailIx) (hwrap : u.headWrap = u.tailWrap) :
    u.occupancy = 0 := by
  have hpos : u.headPos = u.tailPos := by rw [headPos, tailPos, hix, hwrap]
  rw [occupancy, hpos, Nat.add_sub_cancel_left, Nat.mod_self]

theorem Queue.pos_apart_of_wraps_differ {u : Queue} (hix : u.headIx = u.tailIx) (hwrap : u.headWrap ≠ u.tailWrap) :
    u.tailPos = u.headPos + u.depth ∨ u.headPos = u.tailPos + u.depth := by
  have htail : u.tailWrap = !u.headWrap := Bool.eq_not.mpr hwrap.symm
  cases hhead : u.headWrap with
  | false => left; simp [headPos, tailPos, htail, hhead, hix]
  | true => right; simp [headPos, tailPos, htail, hhead, hix]

/-- A full ring: the tail is D past the head, counted modulo 2D. -/
theorem Queue.occupancy_eq_depth_of_wraps_differ {u : Queue} (hix : u.headIx = u.tailIx) (hwrap : u.headWrap ≠ u.tailWrap) :
    u.occupancy = u.depth := by
  have hlt : u.depth < 2 * u.depth := by have := u.depth_pos; omega
  obtain htail | hhead := pos_apart_of_wraps_differ hix hwrap
  · have hdist : u.tailPos + 2 * u.depth - u.headPos = u.depth + 2 * u.depth := by omega
    rw [occupancy, hdist, Nat.add_mod_right, Nat.mod_eq_of_lt hlt]
  · have hdist : u.tailPos + 2 * u.depth - u.headPos = u.depth := by omega
    rw [occupancy, hdist, Nat.mod_eq_of_lt hlt]

theorem Queue.copyAt_eq_none_of_occupancy_le {u : Queue} {k : Nat} (h : u.occupancy ≤ k) : u.copyAt k = none :=
  if_neg (Nat.not_lt.mpr h)

/-- Settles O21, from the positions' bound and the two cases of equal indices. -/
theorem occupancyCountsTheCoveredEntries : Obligations.OccupancyCountsTheCoveredEntries := by
  unfold Obligations.OccupancyCountsTheCoveredEntries
  intro u hhead _ d head tail
  have hheadPos : u.headPos = head := u.pos_eq_index_add_depth_mul_wrap _ _
  have htailPos : u.tailPos = tail := u.pos_eq_index_add_depth_mul_wrap _ _
  have hoccupancy : (u.occupancy : Int) = ((tail : Int) - (head : Int)) % (2 * d : Int) := by
    rw [← hheadPos, ← htailPos]
    exact Queue.occupancy_eq_sub_emod hhead
  exact ⟨hoccupancy, Queue.occupancy_eq_zero_of_same_pos, Queue.occupancy_eq_depth_of_wraps_differ,
    fun _ => Queue.copyAt_eq_none_of_occupancy_le⟩

end Sys2Proof.Machine
end

section
/-!
The layout of striped segments (R142).
-/
namespace Sys2Proof.Machine

/-- A stripe is one allocation unit of 2 MiB. -/
theorem unitB_eq_two_pow : unitB = 2 ^ 21 := rfl

theorem maskTiles_eq_filter (m : Nat) : maskTiles m = (List.range 8).filter fun t => bit m t := rfl

theorem Seg.locs_striped {g : Seg} (hp : g.placement = 1) (b : Nat) : g.locs b = [g.stripeAddr b] := if_pos hp

/-- The fields of R142's address: the tile of the stripe, the tier of BASE, and the offset of the stripe's row in the tile's range. -/
theorem Seg.stripeAddr_eq_storeAddr (g : Seg) (b : Nat) :
    g.stripeAddr b = storeAddr ((maskTiles g.tiles).getD (b / unitB % (maskTiles g.tiles).length) 0) (addrTier g.base)
      (addrOff g.base + b / unitB / (maskTiles g.tiles).length * unitB + b % unitB) := rfl

/-- Settles O20: a striped byte has the one store address of its stripe's tile and row. -/
theorem stripedBytesLieByRows : Obligations.StripedBytesLieByRows := by
  unfold Obligations.StripedBytesLieByRows
  intro g b hp
  rw [Seg.locs_striped hp, Seg.stripeAddr_eq_storeAddr, unitB_eq_two_pow, maskTiles_eq_filter, storeAddr]

end Sys2Proof.Machine
end

section
/-!
One instruction on a core that runs: what it leaves where it completes and where it stops (R411, R412), and the register writes in the
form of the statements (R395).
-/
namespace Sys2Proof.Machine

theorem State.sumenRun_of_ready {s : State} {k : CoreId} {call : Call} {m : UdfCtx} (h : sumenReady s k call m)
    (f : UdfCtx → Core → Core × Option Stop) : s.sumenRun k f = s.landOn k call (f m (s.sumen k)) := by
  obtain ⟨hready, hfetch⟩ := h
  simp only [sumenRun, hready, hfetch]

theorem State.sumenRun_tryOp_of_ok {s : State} {k : CoreId} {call : Call} {m : UdfCtx} (h : sumenReady s k call m)
    {f : UdfCtx → Core → Except Stop Core} {d : Core} (hf : f m (s.sumen k) = .ok d) :
    s.sumenRun k (tryOp f) = s.setSumen k d.next := by
  simp only [sumenRun_of_ready h, tryOp, hf, landOn]

/-- The stop of a scalar instruction: its fault is no element's, so that its row is that of ROWBASE alone (R413). -/
def Stop.NamesNoElement : Stop → Prop
  | .fault _ elem => elem = false
  | .miss _ => True

theorem State.sumenRun_tryOp_of_error {s : State} {k : CoreId} {call : Call} {m : UdfCtx} (h : sumenReady s k call m)
    {f : UdfCtx → Core → Except Stop Core} {x : Stop} (hf : f m (s.sumen k) = .error x) (hx : x.NamesNoElement) :
    s.sumenRun k (tryOp f) = stoppedAt s k call x := by
  simp only [sumenRun_of_ready h, tryOp, hf]
  cases x with
  | miss l => rfl
  | fault cause elem => cases hx; rfl

theorem Core.setX_eq_withX (c : Core) (r : RegNo) (v : Word64) : c.setX r v = withX c r v := by
  by_cases hr : r = 0
  · simp [setX, withX, hr]
  · have hx : c.x.set r.val v r.isLt = Vector.ofFn fun q => if q = r ∧ r ≠ 0 then v else c.x[q] := by
      ext i hi : 1
      simp [hr, Vector.getElem_set, Fin.ext_iff, eq_comm]
    rw [setX, if_neg hr, hx, withX]

theorem Core.setF_eq_withF (c : Core) (r : RegNo) (v : Nat) : c.setF r v = withF c r v := by
  have hv : c.v.set r.val (BitVec.ofNat 2048 (v % 2 ^ 64)) r.isLt =
      Vector.ofFn fun q => if q = r then BitVec.ofNat 2048 (v % 2 ^ 64) else c.v[q] := by
    ext i hi : 1
    simp [Vector.getElem_set, Fin.ext_iff, eq_comm]
  rw [setF, setV, hv, withF]

theorem Core.orFlags_none (c : Core) : c.orFlags {} = c := by
  simp [orFlags, packBits, boolNat]

theorem Core.addr_eq_ofInt_add (c : Core) (ra : RegNo) (imm : BitVec 16) :
    c.addr ra imm = (BitVec.ofInt 64 ((c.getX ra).toInt + imm.toInt)).toNat := by
  rw [addr, BitVec.ofInt_add, BitVec.ofInt_toInt, BitVec.signExtend]

theorem Core.load_error_namesNoElement {m : UdfCtx} {c : Core} {a n : Nat} {x : Stop} (h : c.load m false a n = .error x) :
    x.NamesNoElement := by
  unfold load at h
  split at h
  next => cases h; rfl
  next =>
    split at h
    case h_4 | h_5 =>
      split at h <;> cases h
      trivial
    all_goals cases h
    rfl

theorem Core.store_error_namesNoElement {m : UdfCtx} {c : Core} {a : Nat} {bs : List Byte} {x : Stop}
    (h : c.store m false a bs = .error x) : x.NamesNoElement := by
  unfold store at h
  split at h
  next => cases h; rfl
  next =>
    split at h
    next => cases h
    next =>
      split at h <;> cases h
      rfl
    next => cases h; rfl

/-- A store writes the data region or the frame, and no register. -/
theorem Core.store_changes_memory {m : UdfCtx} {c d : Core} {elem : Bool} {a : Nat} {bs : List Byte}
    (h : c.store m elem a bs = .ok d) : d = { c with frame := d.frame, data := d.data } := by
  unfold store at h
  split at h
  next => cases h
  next =>
    split at h
    next => cases h; rfl
    next =>
      split at h <;> cases h
      rfl
    next => cases h

end Sys2Proof.Machine
end

section
/-!
Elements of a vector register (R395): writing one leaves every other one as it was, bit by bit.
-/
namespace Sys2Proof.Machine

/-- Replacing the field of `w` bits at `a` by subtracting it and adding the new one touches no other bit. -/
theorem testBit_replace_field (n v a w j : Nat) : (n - n / 2 ^ a % 2 ^ w * 2 ^ a + v % 2 ^ w * 2 ^ a).testBit j =
    if a ≤ j ∧ j < a + w then v.testBit (j - a) else n.testBit j := by
  have hlow : n % 2 ^ a < 2 ^ a := Nat.mod_lt _ (Nat.two_pow_pos a)
  have hfield : v % 2 ^ w < 2 ^ w := Nat.mod_lt _ (Nat.two_pow_pos w)
  have hold : n = 2 ^ a * (2 ^ w * (n / 2 ^ a / 2 ^ w) + n / 2 ^ a % 2 ^ w) + n % 2 ^ a := by
    rw [Nat.div_add_mod, Nat.div_add_mod]
  have hnew : n - n / 2 ^ a % 2 ^ w * 2 ^ a + v % 2 ^ w * 2 ^ a =
      2 ^ a * (2 ^ w * (n / 2 ^ a / 2 ^ w) + v % 2 ^ w) + n % 2 ^ a := by
    simp only [Nat.mul_add] at hold ⊢
    rw [Nat.mul_comm _ (2 ^ a), Nat.mul_comm _ (2 ^ a)]
    omega
  rw [hnew, Nat.testBit_two_pow_mul_add _ hlow, Nat.testBit_two_pow_mul_add _ hfield]
  by_cases hbelow : j < a
  · simp [hbelow, Nat.testBit_mod_two_pow, Nat.not_le.mpr hbelow]
  by_cases hin : j < a + w
  · have hoff : j - a < w := by omega
    simp [hbelow, hin, hoff, Nat.le_of_not_lt hbelow, Nat.testBit_mod_two_pow]
  · have hoff : ¬j - a < w := by omega
    have hback : a + (w + (j - a - w)) = j := by omega
    simp [hbelow, hin, hoff, hback, Nat.testBit_div_two_pow, Nat.add_comm]

/-- Bit `i` of element `e'` lies in no other element. -/
theorem elemBit_outside {w e e' i : Nat} (he : e' ≠ e) (hi : i < w) : ¬(w * e ≤ w * e' + i ∧ w * e' + i < w * e + w) := by
  rintro ⟨hlow, hhigh⟩
  have hle : e' < e + 1 := Nat.lt_of_mul_lt_mul_left (a := w) (by rw [Nat.mul_succ]; omega)
  have hge : e < e' + 1 := Nat.lt_of_mul_lt_mul_left (a := w) (by rw [Nat.mul_succ]; omega)
  omega

theorem Core.testBit_elem (c : Core) (r : RegNo) (e i : Nat) :
    (c.elem r e).testBit i = (decide (i < c.ew) && c.v[r].getLsbD (c.ew * e + i)) := by
  rw [elem, elemW, Nat.testBit_mod_two_pow, Nat.testBit_div_two_pow, BitVec.testBit_toNat, Nat.add_comm i]

@[simp] theorem Core.setElem_ew (c : Core) (r : RegNo) (e v : Nat) : (c.setElem r e v).ew = c.ew := rfl

theorem Core.setElem_v_of_ne (c : Core) {r q : RegNo} (hq : q ≠ r) (e v : Nat) : (c.setElem r e v).v[q] = c.v[q] := by
  have hne : r.val ≠ q.val := fun h => hq (Fin.ext h.symm)
  simp [setElem, setV, hne]

theorem Core.getLsbD_setElem (c : Core) (r : RegNo) (e v j : Nat) : (c.setElem r e v).v[r].getLsbD j =
    (decide (j < 2048) && if c.ew * e ≤ j ∧ j < c.ew * e + c.ew then v.testBit (j - c.ew * e) else c.v[r].getLsbD j) := by
  simp only [setElem, setV, Fin.getElem_fin, Vector.getElem_set_self, elem, elemW, BitVec.getLsbD_ofNat, testBit_replace_field,
    BitVec.testBit_toNat]

theorem Core.elem_setElem_of_ne (c : Core) (r q : RegNo) {e e' : Nat} (he : e' ≠ e) (v : Nat) :
    (c.setElem r e v).elem q e' = c.elem q e' := by
  by_cases hq : q = r
  · subst hq
    refine Nat.eq_of_testBit_eq fun i => ?_
    rw [testBit_elem, testBit_elem, getLsbD_setElem, setElem_ew]
    by_cases hi : i < c.ew
    · rw [if_neg (elemBit_outside he hi)]
      by_cases hj : c.ew * e' + i < 2048
      · simp [hj]
      · rw [BitVec.getLsbD_of_ge _ _ (Nat.not_lt.mp hj), Bool.and_false]
    · simp [hi]
  · rw [elem, elem, elemW, setElem_v_of_ne c hq]; rfl

theorem Core.elem_setElem_self (c : Core) (r : RegNo) {e : Nat} (he : (e + 1) * c.ew ≤ 2048) (v : Nat) :
    (c.setElem r e v).elem r e = v % 2 ^ c.ew := by
  refine Nat.eq_of_testBit_eq fun i => ?_
  rw [testBit_elem, getLsbD_setElem, Nat.testBit_mod_two_pow, setElem_ew]
  by_cases hi : i < c.ew
  · have hin : c.ew * e + i < 2048 := by rw [Nat.add_mul, Nat.mul_comm] at he; omega
    simp [hi, hin]
  · simp [hi]

end Sys2Proof.Machine
end

section
/-!
Element loops (R402): one induction over the elements left, then the loops that write elements of Vd and the loops that store.
-/
namespace Sys2Proof.Machine

theorem vecLoop_completes {act : Core → Nat → Bool} {step : Core → Nat → Except Stop Core} {I : Nat → Core → Prop}
    (hskip : ∀ e d, I e d → act d e = false → I (e + 1) d)
    (hstep : ∀ e d, I e d → act d e = true → ∃ d', step d e = .ok d' ∧ I (e + 1) d') (n : Nat) :
    ∀ e d, I e d → ∃ d', vecLoop act step n e d = ({ d' with vresume := 0 }.next, none) ∧ I (e + n) d' := by
  induction n with
  | zero => exact fun e d hI => ⟨d, rfl, hI⟩
  | succ n ih =>
    intro e d hI
    rw [← Nat.add_assoc, Nat.add_right_comm]
    cases hact : act d e with
    | false =>
      obtain ⟨d', hloop, hI'⟩ := ih (e + 1) d (hskip e d hI hact)
      exact ⟨d', by simpa [vecLoop, hact] using hloop, hI'⟩
    | true =>
      obtain ⟨d₁, hd₁, hI₁⟩ := hstep e d hI hact
      obtain ⟨d', hloop, hI'⟩ := ih (e + 1) d₁ hI₁
      exact ⟨d', by simpa [vecLoop, hact, hd₁] using hloop, hI'⟩

theorem Core.elements_complete {act : Core → Nat → Bool} {step : Core → Nat → Except Stop Core} {I : Nat → Core → Prop} {c : Core}
    (hI : I c.vresume.toNat c) (hskip : ∀ e d, I e d → act d e = false → I (e + 1) d)
    (hstep : ∀ e d, I e d → act d e = true → ∃ d', step d e = .ok d' ∧ I (e + 1) d') :
    ∃ n d, c.vact ≤ n ∧ c.elements act step = ({ d with vresume := 0 }.next, none) ∧ I n d := by
  obtain ⟨d, hloop, hd⟩ := vecLoop_completes hskip hstep (c.vact - c.vresume.toNat) _ c hI
  exact ⟨_, d, by omega, hloop, hd⟩

theorem Core.active_of_vact_le (c : Core) (m : Bool) {e : Nat} (he : c.vact ≤ e) : c.active m e = false := by
  simp [active, Nat.not_lt.mpr he]

/-- Midway through a loop that writes elements of Vd: those below `n` are settled, and those from `n` on are as `c` has them in every
register, the mask and the indices among them. -/
structure WroteBelow (c : Core) (m : Bool) (vd : RegNo) (f : Nat → Nat) (n : Nat) (d : Core) : Prop where
  reached : c.vresume.toNat ≤ n
  onlyV : d = { c with v := d.v }
  others : ∀ r : RegNo, r ≠ vd → d.v[r] = c.v[r]
  below : ∀ e, e < n → (e + 1) * c.ew ≤ 2048 →
    d.elem vd e = if c.vresume.toNat ≤ e ∧ c.active m e = true then f e % 2 ^ c.ew else c.elem vd e
  above : ∀ e, n ≤ e → ∀ r, d.elem r e = c.elem r e

section
variable {c d : Core} {m : Bool} {vd : RegNo} {f : Nat → Nat} {n : Nat}

theorem WroteBelow.start : WroteBelow c m vd f c.vresume.toNat c where
  reached := Nat.le_refl _
  onlyV := rfl
  others _ _ := rfl
  below e he _ := by rw [if_neg fun h => Nat.not_le.mpr he h.1]
  above _ _ _ := rfl

theorem WroteBelow.active_eq (h : WroteBelow c m vd f n d) : d.active m n = c.active m n := by
  have hvact : d.vact = c.vact := by rw [h.onlyV]
  rw [Core.active, Core.active, hvact, h.above n (Nat.le_refl n)]

theorem WroteBelow.skip (h : WroteBelow c m vd f n d) (hoff : c.active m n = false) : WroteBelow c m vd f (n + 1) d where
  reached := Nat.le_succ_of_le h.reached
  onlyV := h.onlyV
  others := h.others
  below e he hfit := by
    obtain hlt | rfl := Nat.lt_succ_iff_lt_or_eq.mp he
    · exact h.below e hlt hfit
    · simp [h.above, hoff]
  above e he := h.above e (Nat.le_of_succ_le he)

theorem WroteBelow.write (h : WroteBelow c m vd f n d) (hon : c.active m n = true) :
    WroteBelow c m vd f (n + 1) (d.setElem vd n (f n)) where
  reached := Nat.le_succ_of_le h.reached
  onlyV := congrArg (fun x : Core => { x with v := (d.setElem vd n (f n)).v }) h.onlyV
  others r hr := by rw [Core.setElem_v_of_ne d hr, h.others r hr]
  below e he hfit := by
    have hew : d.ew = c.ew := by rw [h.onlyV]; rfl
    obtain hlt | rfl := Nat.lt_succ_iff_lt_or_eq.mp he
    · rw [Core.elem_setElem_of_ne d vd vd (Nat.ne_of_lt hlt), h.below e hlt hfit]
    · rw [Core.elem_setElem_self d vd (hew ▸ hfit), hew, if_pos ⟨h.reached, hon⟩]
  above e he r := by
    rw [Core.elem_setElem_of_ne d vd r (Nat.ne_of_gt he), h.above e (Nat.le_of_succ_le he)]

theorem WroteBelow.wroteElems (h : WroteBelow c m vd f n d) (hn : c.vact ≤ n) : wroteElems c m vd f { d with vresume := 0 } := by
  refine ⟨fun e hfit => ?_, h.others, congrArg (fun x : Core => { x with vresume := 0 }) h.onlyV⟩
  change d.elem vd e = _
  by_cases he : e < n
  · exact h.below e he hfit
  · rw [h.above e (Nat.le_of_not_lt he), c.active_of_vact_le m (Nat.le_trans hn (Nat.le_of_not_lt he))]
    simp

end

/-- The value of element `e` may be read from the core as it then stands: no element from `e` on has been written. -/
theorem Core.elements_write {c : Core} {m : Bool} {vd : RegNo} {f : Nat → Nat} {step : Core → Nat → Except Stop Core}
    (hstep : ∀ d e, d = { c with v := d.v } → (∀ r, d.elem r e = c.elem r e) → c.vresume.toNat ≤ e → c.active m e = true →
      step d e = .ok (d.setElem vd e (f e))) :
    ∃ d, c.elements (fun d e => d.active m e) step = (d.next, none) ∧ wroteElems c m vd f d := by
  obtain ⟨n, d, hn, hloop, hd⟩ := elements_complete (c := c) (I := WroteBelow c m vd f) .start
    (fun _ _ hI hoff => hI.skip (hI.active_eq ▸ hoff))
    (fun e d hI hon =>
      have hon' : c.active m e = true := hI.active_eq ▸ hon
      ⟨_, hstep d e hI.onlyV (hI.above e (Nat.le_refl e)) hI.reached hon', hI.write hon'⟩)
  exact ⟨_, hloop, hd.wroteElems hn⟩

/-- Midway through a loop that stores: only memory has changed, and the stores of the active elements from `n` on end in `last`. -/
structure StoresLeft (c : Core) (m : Bool) (step : Core → Nat → Except Stop Core) (last : Core) (n : Nat) (d : Core) : Prop where
  onlyMem : d = { c with frame := d.frame, data := d.data }
  rest : ((List.range' n (c.vact - n)).filter (c.active m)).foldlM step d = .ok last

theorem filter_range_le (k n : Nat) : (List.range n).filter (fun e => decide (k ≤ e)) = List.range' k (n - k) := by
  induction n with
  | zero => rw [Nat.zero_sub]; rfl
  | succ n ih =>
    rw [List.range_succ, List.filter_append, List.filter_cons, List.filter_nil, ih]
    by_cases hk : k ≤ n
    · rw [if_pos (decide_eq_true hk), Nat.succ_sub hk, List.range'_1_concat, Nat.add_sub_cancel' hk]
    · rw [if_neg (mt of_decide_eq_true hk), List.append_nil]
      congr 1
      omega

theorem range'_eq_cons {n m : Nat} (h : n < m) : List.range' n (m - n) = n :: List.range' (n + 1) (m - (n + 1)) := by
  rw [← List.range'_succ]
  congr 1
  omega

theorem range'_eq_nil {n m : Nat} (h : m ≤ n) : List.range' n (m - n) = [] := by
  rw [Nat.sub_eq_zero_of_le h, List.range'_zero]

theorem Core.activeFrom_eq_filter_range' (c : Core) (m : Bool) :
    c.activeFrom m = (List.range' c.vresume.toNat (c.vact - c.vresume.toNat)).filter (c.active m) := by
  rw [← filter_range_le, List.filter_filter, activeFrom]
  simp only [Bool.and_comm]

section
variable {c d last : Core} {m : Bool} {step : Core → Nat → Except Stop Core} {n : Nat}

theorem StoresLeft.start (h : (c.activeFrom m).foldlM step c = .ok last) : StoresLeft c m step last c.vresume.toNat c where
  onlyMem := rfl
  rest := by rwa [← c.activeFrom_eq_filter_range' m]

theorem StoresLeft.active_eq (h : StoresLeft c m step last n d) : d.active m n = c.active m n := by
  rw [h.onlyMem]; rfl

theorem StoresLeft.skip (h : StoresLeft c m step last n d) (hoff : c.active m n = false) : StoresLeft c m step last (n + 1) d where
  onlyMem := h.onlyMem
  rest := by
    have hrest := h.rest
    by_cases hn : n < c.vact
    · rwa [range'_eq_cons hn, List.filter_cons_of_neg (by simp [hoff])] at hrest
    · rwa [range'_eq_nil (by omega)] at hrest ⊢

theorem StoresLeft.store (h : StoresLeft c m step last n d) (hon : c.active m n = true)
    (hmem : ∀ d', step d n = .ok d' → d' = { d with frame := d'.frame, data := d'.data }) :
    ∃ d', step d n = .ok d' ∧ StoresLeft c m step last (n + 1) d' := by
  have hn : n < c.vact := Nat.not_le.mp fun hge => Bool.false_ne_true (c.active_of_vact_le m hge ▸ hon)
  have hrest := h.rest
  rw [range'_eq_cons hn, List.filter_cons_of_pos hon, List.foldlM_cons] at hrest
  cases hd : step d n with
  | error x => rw [hd] at hrest; cases hrest
  | ok d' =>
    rw [hd] at hrest
    exact ⟨d', rfl, (hmem d' hd).trans (congrArg (fun x : Core => { x with frame := d'.frame, data := d'.data }) h.onlyMem), hrest⟩

theorem StoresLeft.eq_last (h : StoresLeft c m step last n d) (hn : c.vact ≤ n) : d = last := by
  have hrest := h.rest
  rw [range'_eq_nil hn] at hrest
  cases hrest; rfl

end

/-- A loop of stores is the fold of its stores over the active elements. -/
theorem Core.elements_store {c last : Core} {m : Bool} {op step : Core → Nat → Except Stop Core}
    (hop : ∀ d e, d = { c with frame := d.frame, data := d.data } → op d e = step d e)
    (hmem : ∀ d e d', step d e = .ok d' → d' = { d with frame := d'.frame, data := d'.data })
    (hlast : (c.activeFrom m).foldlM step c = .ok last) :
    c.elements (fun d e => d.active m e) op = ({ last with vresume := 0 }.next, none) ∧ last.pc = c.pc := by
  obtain ⟨n, d, hn, hloop, hd⟩ := elements_complete (I := StoresLeft c m step last) (.start hlast)
    (fun _ _ hI hoff => hI.skip (hI.active_eq ▸ hoff))
    (fun e d hI hon => hop d e hI.onlyMem ▸ hI.store (hI.active_eq ▸ hon) (hmem d e))
  have hpc : d.pc = c.pc := by rw [hd.onlyMem]
  rw [← hd.eq_last hn]
  exact ⟨hloop, hpc⟩

end Sys2Proof.Machine
end

section
/-!
Scalar and vector loads and stores (R400, R408, R409).
-/
namespace Sys2Proof.Machine

section
variable {s : State} {k : CoreId} {call : Call} {m : UdfCtx} {rd ra : RegNo} {imm : BitVec 16} {n : Nat} {bs : List Byte} {d : Core} {x : Stop}

theorem State.xLoad_of_ok (h : sumenReady s k call m) (sign : Bool)
    (hload : (s.sumen k).load m false ((s.sumen k).addr ra imm) n = .ok bs) :
    s.xLoad k rd ra imm n sign =
      .next (putX s k rd (if sign then BitVec.ofInt 64 (toSigned (8 * n) (leNat bs)) else BitVec.ofNat 64 (leNat bs))) := by
  rw [xLoad, sumenRun_tryOp_of_ok h (by simp only [hload]; rfl), Core.setX_eq_withX, putX]

theorem State.xLoad_of_error (h : sumenReady s k call m) {sign : Bool}
    (hload : (s.sumen k).load m false ((s.sumen k).addr ra imm) n = .error x) :
    s.xLoad k rd ra imm n sign = .next (stoppedAt s k call x) := by
  rw [xLoad, sumenRun_tryOp_of_error h (by simp only [hload]) (Core.load_error_namesNoElement hload)]

theorem State.xStore_of_ok (h : sumenReady s k call m)
    (hstore : (s.sumen k).store m false ((s.sumen k).addr ra imm) (leBytes n ((s.sumen k).getX rd).toNat) = .ok d) :
    s.xStore k rd ra imm n = .next (s.setSumen k d.next) := by
  rw [xStore, sumenRun_tryOp_of_ok h hstore]

theorem State.xStore_of_error (h : sumenReady s k call m)
    (hstore : (s.sumen k).store m false ((s.sumen k).addr ra imm) (leBytes n ((s.sumen k).getX rd).toNat) = .error x) :
    s.xStore k rd ra imm n = .next (stoppedAt s k call x) := by
  rw [xStore, sumenRun_tryOp_of_error h hstore (Core.store_error_namesNoElement hstore)]

theorem execFld_of_ok (h : sumenReady s k call m)
    (hload : (s.sumen k).load m false ((s.sumen k).addr ra (fImm imm)) (if imm.getLsbD 0 then 8 else 4) = .ok bs) :
    execFld k rd ra imm s = .next (putF s k rd (leNat bs, {})) := by
  rw [execFld, State.sumenRun_tryOp_of_ok h (by simp only [hload]; rfl), Core.setF_eq_withF, putF, Core.orFlags_none]

theorem execFsd_of_ok (h : sumenReady s k call m)
    (hstore : (s.sumen k).store m false ((s.sumen k).addr ra (fImm imm))
      (leBytes (if imm.getLsbD 0 then 8 else 4) ((s.sumen k).getF rd)) = .ok d) :
    execFsd k rd ra imm s = .next (s.setSumen k d.next) := by
  rw [execFsd, State.sumenRun_tryOp_of_ok h hstore]

end

/-- The number that the map answers for an element at `a`; 0 where it answers none. -/
def Core.elemAt (u : UdfCtx) (c : Core) (a : Nat) : Nat :=
  match c.load u true a (c.ew / 8) with
  | .ok bs => leNat bs
  | .error _ => 0

theorem Core.elemAt_of_ok {u : UdfCtx} {c : Core} {a : Nat} {bs : List Byte} (h : c.load u true a (c.ew / 8) = .ok bs) :
    c.elemAt u a = leNat bs := by
  rw [elemAt, h]

/-- What a load answers depends on no vector register. -/
theorem Core.loadElem_of_onlyV {u : UdfCtx} {c d : Core} {a : Nat} {bs : List Byte} (hd : d = { c with v := d.v })
    (h : c.load u true a (c.ew / 8) = .ok bs) (vd : RegNo) (e : Nat) :
    d.loadElem u vd e a = .ok (d.setElem vd e (c.elemAt u a)) := by
  have hload : d.load u true a (d.ew / 8) = .ok bs := by rw [← h, hd]; rfl
  rw [loadElem, hload, elemAt_of_ok h]

theorem Core.storeElem_of_onlyMem {u : UdfCtx} {c d : Core} (hd : d = { c with frame := d.frame, data := d.data })
    (vd : RegNo) (e a : Nat) : d.storeElem u vd e a = d.store u true a (leBytes (c.ew / 8) (c.elem vd e)) := by
  have hew : d.ew = c.ew := by rw [hd]; rfl
  have helem : d.elem vd e = c.elem vd e := by rw [hd]; rfl
  rw [storeElem, hew, helem]

section
variable {s : State} {k : CoreId} {call : Call} {m : UdfCtx}

theorem State.vRun_of_complete (h : sumenReady s k call m) {mk : Bool} {step : UdfCtx → Core → Nat → Except Stop Core} {d : Core}
    (hd : (s.sumen k).elements (fun d e => d.active mk e) (step m) = (d.next, none)) :
    s.vRun k mk (fun _ => true) step = .next (s.setSumen k d.next) := by
  simp only [vRun, sumenRun_of_ready h, hd, if_true, landOn]

theorem State.vecDone_of_wroteElems {mk : Bool} {vd : RegNo} {f : Nat → Nat} {d : Core} (hd : wroteElems (s.sumen k) mk vd f d) :
    vecDone s k mk vd f (s.setSumen k d.next) := by
  have ⟨_, _, hframe⟩ := hd
  have hpc : d.pc = (s.sumen k).pc := by rw [hframe]
  exact ⟨d, by rw [coreStep, ← hpc, Core.next], hd⟩

/-- The address of an element is that of the core as the instruction found it, also where elements loaded before it overwrite the
register of the indices. -/
theorem State.vRun_loadElem (h : sumenReady s k call m) (mk : Bool) (vd : RegNo) (addr : Core → Nat → Nat)
    (haddr : ∀ d e, d = { s.sumen k with v := d.v } → (∀ r, d.elem r e = (s.sumen k).elem r e) → addr d e = addr (s.sumen k) e)
    (hok : ∀ e, (s.sumen k).vresume.toNat ≤ e → (s.sumen k).active mk e = true →
      ∃ bs, (s.sumen k).load m true (addr (s.sumen k) e) ((s.sumen k).ew / 8) = .ok bs) :
    ∃ (t : State) (f : Nat → Nat), s.vRun k mk (fun _ => true) (fun u d e => d.loadElem u vd e (addr d e)) = .next t ∧
      vecDone s k mk vd f t ∧
      ∀ e bs, (s.sumen k).load m true (addr (s.sumen k) e) ((s.sumen k).ew / 8) = .ok bs → f e = leNat bs := by
  obtain ⟨d, hloop, hd⟩ := Core.elements_write (c := s.sumen k) (m := mk) (vd := vd)
    (f := fun e => (s.sumen k).elemAt m (addr (s.sumen k) e)) (step := fun d e => d.loadElem m vd e (addr d e))
    fun d e honlyV hsame hfrom hon => by
      obtain ⟨bs, hbs⟩ := hok e hfrom hon
      rw [haddr d e honlyV hsame]
      exact Core.loadElem_of_onlyV honlyV hbs vd e
  exact ⟨_, _, vRun_of_complete h hloop, vecDone_of_wroteElems hd, fun _ _ => Core.elemAt_of_ok⟩

theorem State.vRun_storeElem (h : sumenReady s k call m) (mk : Bool) (vd : RegNo) (addr : Core → Nat → Nat)
    (haddr : ∀ d e, d = { s.sumen k with frame := d.frame, data := d.data } → addr d e = addr (s.sumen k) e) {last : Core}
    (hlast : ((s.sumen k).activeFrom mk).foldlM
      (fun x e => x.store m true (addr (s.sumen k) e) (leBytes ((s.sumen k).ew / 8) ((s.sumen k).elem vd e))) (s.sumen k) = .ok last) :
    s.vRun k mk (fun _ => true) (fun u d e => d.storeElem u vd e (addr d e)) =
      .next (s.setSumen k { last with vresume := 0, pc := (s.sumen k).pc + 4 }) := by
  obtain ⟨hloop, hpc⟩ := Core.elements_store (op := fun d e => d.storeElem m vd e (addr d e))
    (fun d e honlyMem => by rw [Core.storeElem_of_onlyMem honlyMem, haddr d e honlyMem])
    (fun _ _ _ => Core.store_changes_memory) hlast
  rw [vRun_of_complete h hloop, ← hpc, Core.next]

end

/-- Settles O54: each scalar access by its rule, each vector access by the rule of its loop at its addresses. -/
theorem loadsAndStoresMoveTheirBytes : Obligations.LoadsAndStoresMoveTheirBytes := by
  unfold Obligations.LoadsAndStoresMoveTheirBytes
  intro s k call m rd ra rb imm mk h
  simp only [← Core.addr_eq_ofInt_add, List.forall_mem_cons]
  have hsigned {n : Nat} (bs : List Byte) := State.xLoad_of_ok (rd := rd) (ra := ra) (imm := imm) (n := n) (bs := bs) h true
  have hunsigned {n : Nat} (bs : List Byte) := State.xLoad_of_ok (rd := rd) (ra := ra) (imm := imm) (n := n) (bs := bs) h false
  have hstored {n : Nat} (d : Core) := State.xStore_of_ok (rd := rd) (ra := ra) (imm := imm) (n := n) (d := d) h
  have hloadStop {n : Nat} (sign : Bool) (x : Stop) :=
    State.xLoad_of_error (rd := rd) (ra := ra) (imm := imm) (n := n) (x := x) h (sign := sign)
  have hstoreStop {n : Nat} (x : Stop) := State.xStore_of_error (rd := rd) (ra := ra) (imm := imm) (n := n) (x := x) h
  refine ⟨hsigned, hsigned, hsigned, hsigned, hunsigned, hunsigned, hunsigned, hstored, hstored, hstored, hstored,
    fun _ => execFld_of_ok h, fun _ => execFsd_of_ok h, ?loadsStop, ?storesStop, ?vld, ?vldx, ?vst, ?vstx⟩
  case loadsStop =>
    exact ⟨hloadStop true, hloadStop true, hloadStop true, hloadStop true, hloadStop false, hloadStop false, hloadStop false,
      List.forall_mem_nil _⟩
  case storesStop => exact ⟨hstoreStop, hstoreStop, hstoreStop, hstoreStop, List.forall_mem_nil _⟩
  case vld => exact State.vRun_loadElem h false rd (fun d e => d.unitAddr ra imm e) fun d e hd _ => by rw [hd]; rfl
  case vldx =>
    exact State.vRun_loadElem h mk rd (fun d e => d.gatherAddr ra rb e) fun d e hd hsame => by
      rw [Core.gatherAddr, hsame, hd]; rfl
  case vst => exact fun _ => State.vRun_storeElem h false rd (fun d e => d.unitAddr ra imm e) fun d e hd => by rw [hd]; rfl
  case vstx => exact fun _ => State.vRun_storeElem h mk rd (fun d e => d.gatherAddr ra rb e) fun d e hd => by rw [hd]; rfl

end Sys2Proof.Machine
end

section
/-!
What every command keeps, whatever its operands: the frame of `exec`, from the frames of the 308 meanings (R26, R161).
-/
namespace Sys2Proof.Machine

/-- Every arm of `exec` computes to a next state. -/
theorem exec_runs (c : Instr) (s : State) : ∃ t, exec c s = .next t := by
  cases c <;> exact ⟨_, rfl⟩

theorem resState_of_next {r : Res} {t : State} (h : r = .next t) (s : State) : resState r s = t := by rw [h]; rfl

theorem exec_pending_man (c : Instr) (s : State) :
    (resState (exec c s) s).pending = s.pending ∧ (resState (exec c s) s).man = s.man := by
  cases c <;> simp [exec]

theorem exec_mem {c : Instr} (h : touchesMemory c = false) (s : State) : (resState (exec c s) s).mem = s.mem := by
  cases c <;> first | exact Bool.noConfusion h | simp [exec]

theorem exec_durable {c : Instr} (h : touchesDurable c = false) (s : State) : (resState (exec c s) s).durable = s.durable := by
  cases c <;> first | exact Bool.noConfusion h | simp [exec]

/-- Where a command touches neither memory, both are as they were; the others keep the canonical form each by its own law. -/
theorem exec_memOk (c : Instr) {s : State} (h : s.memOk = true) : (resState (exec c s) s).memOk = true := by
  by_cases hc : touchesMemory c = false ∧ touchesDurable c = false
  · exact (memOk_of_eq (exec_mem hc.1 s) (exec_durable hc.2 s)).trans h
  · cases c <;> first | exact absurd ⟨rfl, rfl⟩ hc | simp [exec, h]

/-- Settles O3, arm by arm. -/
theorem everyCommandAnswersANextState : Obligations.EveryCommandAnswersANextState := exec_runs

/-- Settles O4, by the frame of `exec`. -/
theorem commandsLeaveQueueAndManufacture : Obligations.CommandsLeaveQueueAndManufacture := by
  unfold Obligations.CommandsLeaveQueueAndManufacture
  intro c s t h
  rw [← resState_of_next h s]
  exact exec_pending_man c s

/-- Settles O6, by the frame of `exec` outside the two lists. -/
theorem otherCommandsLeaveMemory : Obligations.OtherCommandsLeaveMemory := by
  unfold Obligations.OtherCommandsLeaveMemory
  intro c s t h
  rw [← resState_of_next h s]
  exact ⟨fun hc a => by rw [exec_mem hc], fun hc a => by rw [exec_durable hc]⟩

/-- Settles O1, by the definition of a step. -/
theorem stepRunsTheFrontCommand : Obligations.StepRunsTheFrontCommand := fun _ _ _ => rfl

theorem step_of_pending_nil {s : State} (h : s.pending = []) : step s = .next s.idle := by
  simp only [step, h]

theorem step_of_pending_cons {s : State} {c : Instr} {rest : List Instr} (h : s.pending = c :: rest) :
    step s = exec c { s with pending := rest } := by
  simp only [step, h]

theorem idle_memOk (s : State) : s.idle.memOk = s.memOk := by
  unfold State.idle
  split <;> rfl

/-- Settles O5: the idle step moves no byte, and the front command keeps the form from a state that differs in the queue alone. -/
theorem stepKeepsMemoryCanonical : Obligations.StepKeepsMemoryCanonical := by
  unfold Obligations.StepKeepsMemoryCanonical
  intro s t h hstep
  cases hp : s.pending with
  | nil =>
    rw [step_of_pending_nil hp] at hstep
    cases hstep
    exact (idle_memOk s).trans h
  | cons c rest =>
    rw [step_of_pending_cons hp] at hstep
    rw [← resState_of_next hstep { s with pending := rest }]
    exact exec_memOk c h

/-- Settles O2, by the two cases of the idle step. -/
theorem emptyQueueCountsTheTimebase : Obligations.EmptyQueueCountsTheTimebase := by
  unfold Obligations.EmptyQueueCountsTheTimebase
  intro s hp
  rw [step_of_pending_nil hp, State.idle]
  exact ⟨fun h => by rw [if_pos h], fun h => by rw [if_neg h]⟩

end Sys2Proof.Machine
end

section
/-!
The words of Sumen instructions (R399, R400): the fields of each format read back, and with them every instruction.
-/
namespace Sys2Proof

section
variable (major : Nat) (rd ra rb : RegNo) (m : Bool) (imm : BitVec 16) {fn : Nat}

@[simp] theorem wordR_div_major (h : fn < 2048) : wordR major rd ra rb fn / 67108864 = major := by
  unfold wordR; omega

@[simp] theorem regAt_wordR_rd (h : fn < 2048) : regAt (wordR major rd ra rb fn) 21 = rd := by
  apply Fin.ext; simp only [regAt, wordR]; omega

@[simp] theorem regAt_wordR_ra (h : fn < 2048) : regAt (wordR major rd ra rb fn) 16 = ra := by
  apply Fin.ext; simp only [regAt, wordR]; omega

@[simp] theorem regAt_wordR_rb (h : fn < 2048) : regAt (wordR major rd ra rb fn) 11 = rb := by
  apply Fin.ext; simp only [regAt, wordR]; omega

@[simp] theorem wordR_mod_fn (h : fn < 2048) : wordR major rd ra rb fn % 2048 = fn := by
  unfold wordR; omega

theorem fnV_lt (h : fn < 1024) : m.toNat * 2 ^ 10 + fn < 2048 := by
  have := m.toNat_lt; omega

@[simp] theorem wordV_div_major (h : fn < 1024) : wordV major rd ra rb m fn / 67108864 = major :=
  wordR_div_major _ _ _ _ (fnV_lt m h)

@[simp] theorem regAt_wordV_rd (h : fn < 1024) : regAt (wordV major rd ra rb m fn) 21 = rd := regAt_wordR_rd _ _ _ _ (fnV_lt m h)

@[simp] theorem regAt_wordV_ra (h : fn < 1024) : regAt (wordV major rd ra rb m fn) 16 = ra := regAt_wordR_ra _ _ _ _ (fnV_lt m h)

@[simp] theorem regAt_wordV_rb (h : fn < 1024) : regAt (wordV major rd ra rb m fn) 11 = rb := regAt_wordR_rb _ _ _ _ (fnV_lt m h)

@[simp] theorem wordV_mod_fn (h : fn < 1024) : wordV major rd ra rb m fn % 1024 = fn := by
  unfold wordV wordR; omega

@[simp] theorem wordV_mask (h : fn < 1024) : decide (wordV major rd ra rb m fn / 1024 % 2 = 1) = m := by
  have hm : wordV major rd ra rb m fn / 1024 % 2 = m.toNat := by
    have := m.toNat_lt
    unfold wordV wordR; omega
  rw [hm]; cases m <;> rfl

@[simp] theorem wordI_div_major : wordI major rd ra imm / 67108864 = major := by
  unfold wordI; omega

@[simp] theorem regAt_wordI_rd : regAt (wordI major rd ra imm) 21 = rd := by
  apply Fin.ext; simp only [regAt, wordI]; omega

@[simp] theorem regAt_wordI_ra : regAt (wordI major rd ra imm) 16 = ra := by
  apply Fin.ext; simp only [regAt, wordI]; omega

@[simp] theorem immAt_wordI : immAt (wordI major rd ra imm) = imm := by
  apply BitVec.eq_of_toNat_eq; simp only [immAt, wordI, BitVec.toNat_ofNat]; omega

@[simp] theorem wordR_lt (hm : major < 64) (h : fn < 2048) : wordR major rd ra rb fn < 4294967296 := by unfold wordR; omega

@[simp] theorem wordV_lt (hm : major < 64) (h : fn < 1024) : wordV major rd ra rb m fn < 4294967296 := wordR_lt _ _ _ _ hm (fnV_lt m h)

@[simp] theorem wordI_lt (hm : major < 64) : wordI major rd ra imm < 4294967296 := by unfold wordI; omega

end

/-- Formats R, V and I by their bounds, format J by its sum. -/
theorem encodeSumen_lt {i : Instr} {w : Nat} (h : encodeSumen i = some w) : w < 2 ^ 32 := by
  cases i <;> cases h
  case vscale10.refl => exact wordV_lt _ _ _ _ _ (by decide) (by omega)
  case jmp.refl => omega
  case jal.refl => omega
  all_goals simp

section
variable (k : CoreId)

theorem decodeSumen_jmp (off : BitVec 26) : decodeSumen k (0x1E * 2 ^ 26 + off.toNat) = some (.jmp k off) := by
  have hmajor : (2013265920 + off.toNat) / 67108864 = 0x1E := by omega
  have hoff : BitVec.ofNat 26 (2013265920 + off.toNat) = off := by
    apply BitVec.eq_of_toNat_eq
    rw [BitVec.toNat_ofNat]; omega
  simp [decodeSumen, decodeImm, hmajor, hoff]

theorem decodeSumen_jal (off : BitVec 26) : decodeSumen k (0x1F * 2 ^ 26 + off.toNat) = some (.jal k off) := by
  have hmajor : (2080374784 + off.toNat) / 67108864 = 0x1F := by omega
  have hoff : BitVec.ofNat 26 (2080374784 + off.toNat) = off := by
    apply BitVec.eq_of_toNat_eq
    rw [BitVec.toNat_ofNat]; omega
  simp [decodeSumen, decodeImm, hmajor, hoff]

theorem decodeSumen_csr (rd ra : RegNo) (imm : BitVec 16) :
    decodeSumen k (wordI 0x28 rd ra imm) = if 1 ≤ imm.toNat ∧ imm.toNat ≤ 6 then some (.csr k rd ra imm) else none := by
  simp [decodeSumen, decodeImm]

theorem decodeSumen_vsetl (rd ra : RegNo) (imm : BitVec 16) :
    decodeSumen k (wordI 0x38 rd ra imm) = if imm.toNat ≤ 4 then some (.vsetl k rd ra imm) else none := by
  simp [decodeSumen, decodeImm]

theorem decodeSumen_vscale10 (vd va xb : RegNo) (m : Bool) (p : Fin 64) :
    decodeSumen k (wordV 0x32 vd va xb m (p.val * 16)) = if p.val ≤ 38 then some (.vscale10 k vd va xb m p) else none := by
  have hfn : p.val * 16 < 1024 := by omega
  have hlow : wordV 0x32 vd va xb m (p.val * 16) % 16 = 0 := by unfold wordV wordR; omega
  have hp : wordV 0x32 vd va xb m (p.val * 16) / 16 % 64 = p.val := by unfold wordV wordR; omega
  simp [decodeSumen, decodeScale, hfn, hlow, hp]

end

/-- An instruction whose fields the encoding admits is read back on the core that it names. -/
theorem decodeSumen_of_encodeSumen {i : Instr} {w : Nat} (h : encodeSumen i = some w) (hf : Machine.sumenFields i = true) :
    ∃ k, decodeSumen k w = some i := by
  cases i <;> cases h
  case jmp.refl => exact ⟨_, decodeSumen_jmp _ _⟩
  case jal.refl => exact ⟨_, decodeSumen_jal _ _⟩
  case csr.refl => exact ⟨_, (decodeSumen_csr _ _ _ _).trans (if_pos (of_decide_eq_true hf))⟩
  case vsetl.refl => exact ⟨_, (decodeSumen_vsetl _ _ _ _).trans (if_pos (of_decide_eq_true hf))⟩
  case vscale10.refl => exact ⟨_, (decodeSumen_vscale10 _ _ _ _ _ _).trans (if_pos (of_decide_eq_true hf))⟩
  all_goals simp [decodeSumen, decodeInt, decodeFp, decodeVec, decodeFixed, decodeRed, decodeMove, decodeImm]

/-- Only a CSR number, a width code and P are restricted; out of range the word is refused on every core. -/
theorem decodeSumen_eq_none_of_fields {i : Instr} {w : Nat} (h : encodeSumen i = some w) (hf : Machine.sumenFields i = false) (k : CoreId) :
    decodeSumen k w = none := by
  cases i <;> first | exact Bool.noConfusion hf | cases h
  case csr.refl => exact (decodeSumen_csr _ _ _ _).trans (if_neg (of_decide_eq_false hf))
  case vsetl.refl => exact (decodeSumen_vsetl _ _ _ _).trans (if_neg (of_decide_eq_false hf))
  case vscale10.refl => exact (decodeSumen_vscale10 _ _ _ _ _ _).trans (if_neg (of_decide_eq_false hf))

/-- Settles O59, by the fields of each format. -/
theorem sumenDecodeOfEncode : Obligations.SumenDecodeOfEncode := by
  unfold Obligations.SumenDecodeOfEncode
  exact fun i w h => ⟨encodeSumen_lt h, decodeSumen_of_encodeSumen h, decodeSumen_eq_none_of_fields h⟩

/-- Settles O60: the words are literals, which the decoder computes. -/
theorem sumenWordsOfTheSpec : Obligations.SumenWordsOfTheSpec := by
  unfold Obligations.SumenWordsOfTheSpec
  exact ⟨fun k => ⟨rfl, rfl, rfl, rfl, rfl, rfl, rfl, rfl, rfl, rfl, rfl⟩, fun _ _ => rfl⟩

end Sys2Proof
end

section
/-!
Integer instructions (R400, R412): each by the rule of its format, and its value as the statement writes it.
-/
namespace Sys2Proof.Machine

theorem State.sumenRun_pureOp_of_ready {s : State} {k : CoreId} {call : Call} {m : UdfCtx} (h : sumenReady s k call m) (f : Core → Core) :
    s.sumenRun k (pureOp f) = s.setSumen k (f (s.sumen k)).next := by
  simp only [sumenRun_of_ready h, pureOp, landOn]

section
variable {s : State} {k : CoreId} {call : Call} {m : UdfCtx} {rd ra rb : RegNo} {f : Word64 → Word64 → Word64} {v w : Word64}

theorem State.xOp_of_ready (h : sumenReady s k call m) :
    s.xOp k rd ra rb f = .next (putX s k rd (f ((s.sumen k).getX ra) ((s.sumen k).getX rb))) := by
  rw [xOp, sumenRun_pureOp_of_ready h, Core.setX_eq_withX, putX]

theorem State.xOp_eq (h : sumenReady s k call m) (hv : f ((s.sumen k).getX ra) ((s.sumen k).getX rb) = v) :
    s.xOp k rd ra rb f = .next (putX s k rd v) := by
  rw [xOp_of_ready h, hv]

theorem State.xImm_eq (h : sumenReady s k call m) (hv : f ((s.sumen k).getX ra) w = v) :
    s.xImm k rd ra w f = .next (putX s k rd v) := by
  rw [xImm, sumenRun_pureOp_of_ready h, Core.setX_eq_withX, hv, putX]

theorem State.xDiv_eq (h : sumenReady s k call m) (hb : (s.sumen k).getX rb ≠ 0)
    (hv : f ((s.sumen k).getX ra) ((s.sumen k).getX rb) = v) : s.xDiv k rd ra rb f = .next (putX s k rd v) := by
  rw [xDiv, sumenRun_tryOp_of_ok h (if_neg hb), Core.setX_eq_withX, hv, putX]

theorem State.xDiv_by_zero (h : sumenReady s k call m) (hb : (s.sumen k).getX rb = 0) :
    s.xDiv k rd ra rb f = .next (s.faultCall k (s.sumen k) call fDivide (faultRow (s.sumen k) call.select false)) := by
  rw [xDiv, sumenRun_tryOp_of_error h (x := .fault fDivide false) (if_pos hb) rfl]; rfl

theorem execLui_eq (h : sumenReady s k call m) {imm : BitVec 16} :
    execLui k rd imm s = .next (putX s k rd ((imm ++ (0 : BitVec 16)).signExtend 64)) := by
  rw [execLui, State.sumenRun_pureOp_of_ready h, Core.setX_eq_withX, putX]

end

section
variable (a b : Word64) (imm : BitVec 16)

theorem flag64_slt : flag64 (a.slt b) = if a.toInt < b.toInt then 1 else 0 := by
  simp [flag64, BitVec.slt]

theorem flag64_ult : flag64 (a.ult b) = if a.toNat < b.toNat then 1 else 0 := by
  simp [flag64, BitVec.ult]

theorem add_eq_ofNat : a + b = BitVec.ofNat 64 (a.toNat + b.toNat) := BitVec.eq_of_toNat_eq (by simp)

theorem sub_eq_ofInt : a - b = BitVec.ofInt 64 (a.toInt - b.toInt) := BitVec.eq_of_toInt_eq (by simp)

theorem mul_eq_ofInt : a * b = BitVec.ofInt 64 (a.toInt * b.toInt) := BitVec.eq_of_toInt_eq (by simp)

theorem shiftLeft_eq_ofNat (n : Nat) : a <<< n = BitVec.ofNat 64 (a.toNat * 2 ^ n) :=
  BitVec.eq_of_toNat_eq (by simp [Nat.shiftLeft_eq])

theorem ushiftRight_eq_ofNat (n : Nat) : a >>> n = BitVec.ofNat 64 (a.toNat / 2 ^ n) := by
  rw [← Nat.shiftRight_eq_div_pow, ← BitVec.toNat_ushiftRight, BitVec.ofNat_toNat, BitVec.setWidth_eq]

theorem sshiftRight_eq_ofInt (n : Nat) : a.sshiftRight n = BitVec.ofInt 64 (a.toInt / 2 ^ n) := by
  rw [BitVec.sshiftRight, Int.shiftRight_eq_div_pow, Int.natCast_pow]; rfl

theorem sdiv_eq_ofInt : a.sdiv b = BitVec.ofInt 64 (a.toInt.tdiv b.toInt) :=
  BitVec.eq_of_toInt_eq (by rw [BitVec.toInt_sdiv, BitVec.toInt_ofInt])

theorem udiv_eq_ofNat : a / b = BitVec.ofNat 64 (a.toNat / b.toNat) := by
  rw [← BitVec.toNat_udiv, BitVec.ofNat_toNat, BitVec.setWidth_eq]

theorem srem_eq_ofInt : a.srem b = BitVec.ofInt 64 (a.toInt.tmod b.toInt) := by
  rw [← BitVec.toInt_srem, BitVec.ofInt_toInt]

theorem umod_eq_ofNat : a % b = BitVec.ofNat 64 (a.toNat % b.toNat) := by
  rw [← BitVec.toNat_umod, BitVec.ofNat_toNat, BitVec.setWidth_eq]

theorem add_signExtend_eq_ofInt : a + imm.signExtend 64 = BitVec.ofInt 64 (a.toInt + imm.toInt) := by
  rw [BitVec.ofInt_add, BitVec.ofInt_toInt, BitVec.signExtend]

theorem zeroExtend_eq_ofNat : imm.zeroExtend 64 = BitVec.ofNat 64 imm.toNat := (BitVec.ofNat_toNat 64 imm).symm

/-- LUI's immediate stands above 16 zero bits. -/
theorem signExtend_append_zero : (imm ++ (0 : BitVec 16)).signExtend 64 = BitVec.ofInt 64 (imm.toInt * 2 ^ 16) := by
  have hshift : (imm ++ (0 : BitVec 16)).toInt = imm.toInt * 2 ^ 16 := by
    rw [BitVec.toInt_append, if_neg (by decide)]
    simp [Int.mul_comm]
  rw [BitVec.signExtend, hshift]

theorem shift64_of_lt {fn : Nat} {f : Word64 → Nat → Word64} (h : b.toNat < 64) : shift64 fn f a b = f a b.toNat := if_pos h

end

/-- Settles O52, instruction by instruction, from the rules of the formats. -/
theorem integerInstructionsWriteTheirResult : Obligations.IntegerInstructionsWriteTheirResult := by
  unfold Obligations.IntegerInstructionsWriteTheirResult
  intro s k call m rd ra rb imm h c a b zeroDivisor
  simp only [exec]
  refine ⟨State.xOp_eq h ?add, State.xOp_eq h ?sub, State.xOp_of_ready h, State.xOp_of_ready h, State.xOp_of_ready h,
    ⟨_, State.xOp_of_ready h, ?sll⟩, ⟨_, State.xOp_of_ready h, ?srl⟩, ⟨_, State.xOp_of_ready h, ?sra⟩,
    State.xOp_eq h ?slt, State.xOp_eq h ?sltu, State.xOp_eq h ?mul, State.xOp_of_ready h, State.xOp_of_ready h,
    fun hb => State.xDiv_eq h hb ?div, fun hb => State.xDiv_eq h hb ?divu, fun hb => State.xDiv_eq h hb ?rem, fun hb => State.xDiv_eq h hb ?remu,
    fun hb => ⟨State.xDiv_by_zero h hb, State.xDiv_by_zero h hb, State.xDiv_by_zero h hb, State.xDiv_by_zero h hb⟩,
    State.xImm_eq h ?addi, State.xImm_eq h ?andi, State.xImm_eq h ?ori, State.xImm_eq h ?xori, (execLui_eq h).trans ?lui⟩
  case add => exact add_eq_ofNat _ _
  case sub => exact sub_eq_ofInt _ _
  case sll => exact fun hb => by rw [shift64_of_lt _ _ hb, shiftLeft_eq_ofNat]
  case srl => exact fun hb => by rw [shift64_of_lt _ _ hb, ushiftRight_eq_ofNat]
  case sra => exact fun hb => by rw [shift64_of_lt _ _ hb, sshiftRight_eq_ofInt]
  case slt => exact flag64_slt _ _
  case sltu => exact flag64_ult _ _
  case mul => exact mul_eq_ofInt _ _
  case div => exact sdiv_eq_ofInt _ _
  case divu => exact udiv_eq_ofNat _ _
  case rem => exact srem_eq_ofInt _ _
  case remu => exact umod_eq_ofNat _ _
  case addi => exact add_signExtend_eq_ofInt _ _
  case andi | ori | xori => exact congrArg _ (zeroExtend_eq_ofNat _)
  case lui => rw [signExtend_append_zero]

end Sys2Proof.Machine
end

section
/-!
Branches, jumps, control registers and strips (R396, R400, R401).
-/
namespace Sys2Proof.Machine

theorem sumenReady.large_eq {s : State} {k : CoreId} {call : Call} {m : UdfCtx} (h : sumenReady s k call m) : m.large = coreLarge k := by
  obtain ⟨hready, -⟩ := h
  unfold State.coreReady at hready
  dsimp only at hready
  repeat' split at hready
  all_goals cases hready
  rfl

theorem four_mul_signExtend {w : Nat} (off : BitVec w) : 4 * off.signExtend 64 = BitVec.ofInt 64 (4 * off.toInt) := by
  rw [BitVec.ofInt_mul, BitVec.signExtend]; rfl

theorem Core.setCsr_of_imm (d : Core) (imm : BitVec 16) (v : Word64) : d.setCsr imm.toNat v =
    if imm = 1 then { d with fxcsr := v &&& 0x1FF } else if imm = 4 then { d with vresume := v }
    else if imm = 5 then { d with rowbase := v } else d := by
  have hne {n : BitVec 16} (h : imm ≠ n) : imm.toNat ≠ n.toNat := fun e => h (BitVec.eq_of_toNat_eq e)
  by_cases h1 : imm = 1
  · subst h1; rfl
  by_cases h4 : imm = 4
  · subst h4; rfl
  by_cases h5 : imm = 5
  · subst h5; rfl
  rw [if_neg h1, if_neg h4, if_neg h5]
  unfold setCsr
  split
  next h => exact absurd h (hne h1)
  next h => exact absurd h (hne h4)
  next h => exact absurd h (hne h5)
  next => rfl

theorem Core.csr_isSome_iff (c : Core) (n : Nat) : (c.csr n).isSome = true ↔ 1 ≤ n ∧ n ≤ 6 := by
  match n with
  | 0 | 1 | 2 | 3 | 4 | 5 | 6 => simp [csr]
  | n + 7 => simp [csr]

theorem bne_eq_decide_ne (a b : Word64) : (a != b) = decide (a ≠ b) := Bool.eq_iff_iff.mpr (by simp)

theorem not_slt_eq_decide_le (a b : Word64) : (!a.slt b) = decide (b.toInt ≤ a.toInt) := by simp [BitVec.slt, ← decide_not]

theorem not_ult_eq_decide_le (a b : Word64) : (!a.ult b) = decide (b.toNat ≤ a.toNat) := by simp [BitVec.ult, ← decide_not]

section
variable {s : State} {k : CoreId} {call : Call} {m : UdfCtx} {rd ra rb : RegNo} {imm : BitVec 16}

theorem State.sumenRun_of_done (h : sumenReady s k call m) {f : UdfCtx → Core → Core × Option Stop} {d : Core}
    (hf : f m (s.sumen k) = (d, none)) : s.sumenRun k f = s.setSumen k d := by
  rw [sumenRun_of_ready h, hf, landOn]

theorem State.branch_eq (h : sumenReady s k call m) {p : Word64 → Word64 → Bool} {taken : Bool}
    (hp : p ((s.sumen k).getX ra) ((s.sumen k).getX rb) = taken) :
    s.branch k ra rb imm p = .next (s.setSumen k { s.sumen k with
      pc := if taken then (s.sumen k).pc + BitVec.ofInt 64 (4 * imm.toInt) else (s.sumen k).pc + 4 }) := by
  rw [branch, sumenRun_of_done h rfl, hp, four_mul_signExtend]

theorem execJmp_of_ready (h : sumenReady s k call m) (off : BitVec 26) :
    execJmp k off s = .next (s.setSumen k { s.sumen k with pc := (s.sumen k).pc + BitVec.ofInt 64 (4 * off.toInt) }) := by
  rw [execJmp, State.jump, State.sumenRun_of_done h rfl, four_mul_signExtend]

theorem State.jump_link_of_ready (h : sumenReady s k call m) (f : Core → Word64) :
    s.jump k (some rd) f = .next (s.setSumen k { withX (s.sumen k) rd ((s.sumen k).pc + 4) with pc := f (s.sumen k) }) := by
  rw [jump, sumenRun_of_done h (d := { withX (s.sumen k) rd ((s.sumen k).pc + 4) with pc := f (s.sumen k) }) (by rw [← Core.setX_eq_withX])]

theorem execCsr_of_some (h : sumenReady s k call m) {v : Word64} (hv : (s.sumen k).csr imm.toNat = some v) :
    execCsr k rd ra imm s = .next (s.setSumen k (if ra = 0 then withX (s.sumen k) rd v else
      (withX (s.sumen k) rd v).setCsr imm.toNat ((s.sumen k).getX ra)).next) := by
  rw [execCsr, State.sumenRun_tryOp_of_ok h (by simp only [hv]; rfl), Core.setX_eq_withX]

theorem execVsetl_of_width (h : sumenReady s k call m) (himm : imm.toNat ≤ 4) :
    let n := min ((s.sumen k).getX ra).toNat (vlen (coreLarge k) / (8 * 2 ^ imm.toNat))
    execVsetl k rd ra imm s = .next (s.setSumen k { (withX (s.sumen k) rd (BitVec.ofNat 64 n)).next with
      vshape := imm.toNat, vrem := ((s.sumen k).getX ra).toNat, vact := n }) := by
  rw [execVsetl, State.sumenRun_tryOp_of_ok h (if_neg (Nat.not_lt.mpr himm)), Core.setX_eq_withX, Core.vcap, h.large_eq]
  rfl

theorem execVstep_of_done (h : sumenReady s k call m) (hrem : (s.sumen k).vrem = 0) : execVstep k rd s = .next (putX s k rd 0) := by
  rw [execVstep, State.sumenRun_of_done h (if_pos hrem), Core.setX_eq_withX, putX]

theorem execVstep_of_left (h : sumenReady s k call m) (hrem : (s.sumen k).vrem ≠ 0) :
    let c := s.sumen k
    let n := min (c.vrem - c.vact) (vlen (coreLarge k) / c.ew)
    execVstep k rd s = .next (s.setSumen k { (withX c rd (BitVec.ofNat 64 n)).next with
      rowbase := c.rowbase + BitVec.ofNat 64 c.vact, vrem := c.vrem - c.vact, vact := n }) := by
  rw [execVstep, State.sumenRun_of_done h (if_neg hrem), Core.setX_eq_withX, Core.vcap, h.large_eq]
  rfl

theorem execVext_of_settled (h : sumenReady s k call m) (hv : (s.sumen k).vact ≤ (s.sumen k).vresume.toNat) (mk : Bool) :
    execVext k rd ra rb mk s = .next (s.setSumen k { (s.sumen k).next with vresume := 0 }) := by
  rw [execVext, State.sumenRun_of_done h (if_pos hv)]; rfl

theorem execVext_of_left (h : sumenReady s k call m) (hv : (s.sumen k).vresume.toNat < (s.sumen k).vact) (mk : Bool) :
    let c := s.sumen k
    let e := (c.getX rb).toNat
    execVext k rd ra rb mk s = .next (s.setSumen k { (withX c rd (BitVec.ofNat 64
      (if e < vlen (coreLarge k) / c.ew then c.elem ra e else Config.sumenVal 0x3902 c.v[ra].toNat e))).next with vresume := 0 }) := by
  rw [execVext, State.sumenRun_of_done h (if_neg (Nat.not_le.mpr hv)), Core.setX_eq_withX, Core.vcap, h.large_eq]
  rfl

end

/-- Settles O53, instruction by instruction. -/
theorem jumpsAndControlRegisters : Obligations.JumpsAndControlRegisters := by
  unfold Obligations.JumpsAndControlRegisters
  intro s k call m rd ra rb imm off mk h c a b go
  simp only [exec]
  refine ⟨State.branch_eq h ?beq, State.branch_eq h ?bne, State.branch_eq h ?blt, State.branch_eq h ?bge, State.branch_eq h ?bltu,
    State.branch_eq h ?bgeu, execJmp_of_ready h off, ?jal, State.jump_link_of_ready h _, fun v hv => ?csr, Core.csr_isSome_iff c _,
    execVsetl_of_width h, execVstep_of_done h, execVstep_of_left h, fun hv => ⟨_, execVext_of_left h hv mk, fun hb => ?vext⟩,
    fun hv => execVext_of_settled h hv mk⟩
  case beq => rfl
  case bne => exact bne_eq_decide_ne _ _
  case blt => rfl
  case bge => exact not_slt_eq_decide_le _ _
  case bltu => rfl
  case bgeu => exact not_ult_eq_decide_le _ _
  case jal => rw [execJal, State.jump_link_of_ready h, four_mul_signExtend]
  case csr => rw [execCsr_of_some h hv, Core.setCsr_of_imm]
  case vext => rw [if_pos hb]

end Sys2Proof.Machine
end

section
/-!
Scalar floating point (R400, R404, R407): each instruction by the rule of its format.
-/
namespace Sys2Proof.Machine

theorem Core.orFlags_withF (c : Core) (r : RegNo) (v : Nat) (f : FFlags) : (withF c r v).orFlags f = withF (c.orFlags f) r v := by
  unfold orFlags withF; rfl

theorem Core.orFlags_withX (c : Core) (r : RegNo) (v : Word64) (f : FFlags) :
    (withX c r v).orFlags f = { withX c r v with fxcsr := (c.orFlags f).fxcsr } := by
  unfold orFlags withX; rfl

theorem Core.orFlags_setSat_withX (c : Core) (r : RegNo) (v : Word64) (f : FFlags) :
    (withX c r v).setSat.orFlags f = { withX c r v with fxcsr := (c.setSat.orFlags f).fxcsr } := by
  unfold orFlags setSat withX; rfl

section
variable {s : State} {k : CoreId} {call : Call} {m : UdfCtx} {dbl : Bool} {rd ra rb : RegNo}

theorem State.sumenRun_tryOp_of_fault (h : sumenReady s k call m) {f : UdfCtx → Core → Except Stop Core} {cause : Nat} {elem : Bool}
    (hf : f m (s.sumen k) = .error (.fault cause elem)) :
    s.sumenRun k (tryOp f) = s.faultCall k (s.sumen k) call cause (faultRow (s.sumen k) call.select elem) := by
  simp only [sumenRun_of_ready h, tryOp, hf, landOn]

/-- An instruction that writes Fd and ORs its flags into FFLAGS. -/
theorem State.sumenRun_setF_orFlags (h : sumenReady s k call m) {f : Core → Core} {r : Nat × FFlags}
    (hf : f (s.sumen k) = ((s.sumen k).setF rd r.1).orFlags r.2) : s.sumenRun k (pureOp f) = putF s k rd r := by
  rw [sumenRun_pureOp_of_ready h, hf, Core.setF_eq_withF, Core.orFlags_withF, putF]

theorem State.fOp_of_ready (h : sumenReady s k call m) (f : Fmt → Nat → Nat → Nat × FFlags) :
    s.fOp k dbl rd ra rb f = .next (putF s k rd (f (fmtOf dbl) ((s.sumen k).getFp dbl ra) ((s.sumen k).getFp dbl rb))) := by
  rw [fOp, sumenRun_setF_orFlags h rfl]

theorem State.fCmp_eq (h : sumenReady s k call m) {quiet : Bool} {p : Nat → Nat → Bool} {v : Word64} {nv : Bool}
    (hv : flag64 (p ((fmtOf dbl).rank ((s.sumen k).getFp dbl ra)) ((fmtOf dbl).rank ((s.sumen k).getFp dbl rb))) = v)
    (hnv : (if quiet then (fmtOf dbl).isSnan ((s.sumen k).getFp dbl ra) || (fmtOf dbl).isSnan ((s.sumen k).getFp dbl rb)
      else (fmtOf dbl).isNan ((s.sumen k).getFp dbl ra) || (fmtOf dbl).isNan ((s.sumen k).getFp dbl rb)) = nv) :
    s.fCmp k dbl rd ra rb quiet p = .next (putXf s k rd v ((s.sumen k).orFlags { nv := nv }).fxcsr) := by
  rw [fCmp, sumenRun_pureOp_of_ready h]
  dsimp only
  rw [hv, hnv, Core.setX_eq_withX, Core.orFlags_withX, putXf, Core.next, Core.next]

theorem flag64_decide (p : Prop) [Decidable p] : flag64 (decide p) = if p then 1 else 0 := by
  by_cases h : p <;> simp [flag64, h]

theorem execFcvtf_of_ready (h : sumenReady s k call m) :
    execFcvtf k dbl rd ra s = .next (putF s k rd ((fmtOf dbl).ofDec ((s.sumen k).getX ra).toInt 0)) := by
  rw [execFcvtf, State.sumenRun_setF_orFlags h rfl]

theorem execFcvtw_of_ready (h : sumenReady s k call m) :
    execFcvtw k dbl rd ra s = .next (putF s k rd ((fmtOf dbl).convert (fmtOf !dbl) ((s.sumen k).getFp dbl ra))) := by
  rw [execFcvtw, State.sumenRun_setF_orFlags h rfl]

theorem execFmvf_of_ready (h : sumenReady s k call m) :
    execFmvf k dbl rd ra s = .next (putF s k rd (((s.sumen k).getX ra).toNat % 2 ^ (if dbl then 64 else 32), {})) := by
  have hwidth : (if dbl then ((s.sumen k).getX ra).toNat else ((s.sumen k).getX ra).toNat % 2 ^ 32) =
      ((s.sumen k).getX ra).toNat % 2 ^ (if dbl then 64 else 32) := by
    cases dbl
    · rfl
    · exact (Nat.mod_eq_of_lt (BitVec.isLt _)).symm
  rw [execFmvf, State.sumenRun_setF_orFlags h (r := (_, {}))]
  rw [Core.orFlags_none, hwidth]

theorem execFmvx_of_ready (h : sumenReady s k call m) :
    execFmvx k dbl rd ra s = .next (putX s k rd (BitVec.ofNat 64 (if dbl then (s.sumen k).getFp dbl ra
      else (s.sumen k).getFp dbl ra + 2 ^ 32 * Config.sumenVal 0x200D ((s.sumen k).getFp dbl ra) 0))) := by
  rw [execFmvx, State.sumenRun_pureOp_of_ready h, Core.setX_eq_withX, putX]

/-- A binary32 moved to Xd keeps its 32 bits, whatever stands above them. -/
theorem fmvx_low_bits (dbl : Bool) (a hi : Nat) :
    (BitVec.ofNat 64 (if dbl then a else a + 2 ^ 32 * hi)).toNat % 2 ^ (if dbl then 64 else 32) = a % 2 ^ (if dbl then 64 else 32) := by
  cases dbl <;> simp

/-! ### To INT64 -/

/-- What FCVTI gives for an operand that no INT64 holds (R404, R407). -/
def misfitInt (f : Fmt) (rm a : Nat) : Int :=
  match f.toDec rm a 0 with
  | some (i, _) => if i < 0 then -(2 ^ 63) else 2 ^ 63 - 1
  | none => if f.isNan a then 0 else if a.testBit (f.eb + f.mb) then -(2 ^ 63) else 2 ^ 63 - 1

/-- No INT64 holds the rounded operand. -/
def misfits (f : Fmt) (rm a : Nat) : Prop := ∀ i ex, f.toDec rm a 0 = some (i, ex) → fitsSigned 64 i = false

theorem fitsSigned_64_iff (i : Int) : fitsSigned 64 i = true ↔ -(2 ^ 63) ≤ i ∧ i < 2 ^ 63 := by
  simp [fitsSigned]

theorem fitsSigned_64_eq_false {i : Int} (h : i < -(2 ^ 63) ∨ 2 ^ 63 ≤ i) : fitsSigned 64 i = false :=
  Bool.eq_false_iff.mpr fun hf => by have := (fitsSigned_64_iff i).mp hf; omega

theorem misfits_of_none {f : Fmt} {rm a : Nat} (h : f.toDec rm a 0 = none) : misfits f rm a := fun i ex hi => by
  rw [h] at hi; cases hi

theorem misfits_of_some {f : Fmt} {rm a : Nat} {i : Int} {ex : Bool} (h : f.toDec rm a 0 = some (i, ex))
    (hi : i < -(2 ^ 63) ∨ 2 ^ 63 ≤ i) : misfits f rm a := fun j ey hj => by
  rw [h] at hj; cases hj
  exact fitsSigned_64_eq_false hi

theorem misfitInt_of_none {f : Fmt} {rm a : Nat} (h : f.toDec rm a 0 = none) : BitVec.ofInt 64 (misfitInt f rm a) =
    if f.isNan a then 0 else if a.testBit (f.eb + f.mb) then BitVec.ofInt 64 (-(2 ^ 63)) else BitVec.ofInt 64 (2 ^ 63 - 1) := by
  simp only [misfitInt, h, apply_ite (BitVec.ofInt 64)]; rfl

theorem misfitInt_of_some {f : Fmt} {rm a : Nat} {i : Int} {ex : Bool} (h : f.toDec rm a 0 = some (i, ex))
    (hi : i < -(2 ^ 63) ∨ 2 ^ 63 ≤ i) : misfitInt f rm a = clampTo (-(2 ^ 63), 2 ^ 63 - 1) i := by
  simp only [misfitInt, h, clampTo]
  split <;> split <;> omega

theorem execFcvti_of_fits (h : sumenReady s k call m) {i : Int} {ex : Bool}
    (hdec : (fmtOf dbl).toDec (s.sumen k).rmode ((s.sumen k).getFp dbl ra) 0 = some (i, ex)) (hi : fitsSigned 64 i = true) :
    execFcvti k dbl rd ra s = .next (putXf s k rd (BitVec.ofInt 64 i) ((s.sumen k).orFlags { nx := !ex }).fxcsr) := by
  rw [execFcvti, State.sumenRun_tryOp_of_ok h (d := ((s.sumen k).setX rd (BitVec.ofInt 64 i)).orFlags { nx := !ex })
    (by simp only [hdec, hi, if_true]), Core.setX_eq_withX, Core.orFlags_withX, putXf, Core.next, Core.next]

theorem execFcvti_of_misfit (h : sumenReady s k call m) (hmis : misfits (fmtOf dbl) (s.sumen k).rmode ((s.sumen k).getFp dbl ra))
    (htrap : (s.sumen k).trap = false) :
    execFcvti k dbl rd ra s = .next (putXf s k rd (BitVec.ofInt 64 (misfitInt (fmtOf dbl) (s.sumen k).rmode ((s.sumen k).getFp dbl ra)))
      ((s.sumen k).setSat.orFlags { nv := true }).fxcsr) := by
  rw [execFcvti, State.sumenRun_tryOp_of_ok h (d := ((s.sumen k).setX rd
    (BitVec.ofInt 64 (misfitInt (fmtOf dbl) (s.sumen k).rmode ((s.sumen k).getFp dbl ra)))).setSat.orFlags { nv := true }),
    Core.setX_eq_withX, Core.orFlags_setSat_withX, putXf, Core.next, Core.next]
  cases hdec : (fmtOf dbl).toDec (s.sumen k).rmode ((s.sumen k).getFp dbl ra) 0 with
  | none => simp only [misfitInt, hdec, htrap, Bool.false_eq_true, if_false]
  | some p => simp only [misfitInt, hdec, htrap, hmis _ _ hdec, Bool.false_eq_true, if_false]

theorem execFcvti_of_trap (h : sumenReady s k call m) (hmis : misfits (fmtOf dbl) (s.sumen k).rmode ((s.sumen k).getFp dbl ra))
    (htrap : (s.sumen k).trap = true) :
    execFcvti k dbl rd ra s = .next (s.faultCall k (s.sumen k) call fFixed (faultRow (s.sumen k) call.select true)) := by
  rw [execFcvti, State.sumenRun_tryOp_of_fault h (cause := fFixed) (elem := true)]
  cases hdec : (fmtOf dbl).toDec (s.sumen k).rmode ((s.sumen k).getFp dbl ra) 0 with
  | none => simp only [hdec, htrap, if_true]
  | some p => simp only [hdec, htrap, hmis _ _ hdec, Bool.false_eq_true, if_false, if_true]

end

/-- Settles O55, instruction by instruction; FCVTI by whether an INT64 holds the rounded operand. -/
theorem floatInstructionsWriteTheirResult : Obligations.FloatInstructionsWriteTheirResult := by
  unfold Obligations.FloatInstructionsWriteTheirResult
  intro s k call m dbl rd ra rb h c f a b nv misfit
  simp only [exec]
  refine ⟨State.fOp_of_ready h _, State.fOp_of_ready h _, State.fOp_of_ready h _, State.fOp_of_ready h _, State.fOp_of_ready h _,
    State.fOp_of_ready h _, State.fOp_of_ready h _, State.fCmp_eq h ?feq rfl, State.fCmp_eq h ?flt rfl, State.fCmp_eq h ?fle rfl,
    fun i ex hdec hlo hhi => execFcvti_of_fits h hdec ((fitsSigned_64_iff i).mpr ⟨hlo, hhi⟩), fun i ex hdec hi htrap => ?clamped,
    fun hdec htrap => ?special, fun hmis htrap => execFcvti_of_trap h ?trapped htrap, execFcvtf_of_ready h,
    ⟨_, execFmvx_of_ready h, fmvx_low_bits dbl _ _⟩, execFmvf_of_ready h, execFcvtw_of_ready h⟩
  case feq => exact flag64_decide _
  case flt => exact flag64_decide _
  case fle => exact flag64_decide _
  case clamped => rw [execFcvti_of_misfit h (misfits_of_some hdec hi) htrap, misfitInt_of_some hdec hi]
  case special => rw [execFcvti_of_misfit h (misfits_of_none hdec) htrap, misfitInt_of_none hdec]
  case trapped =>
    obtain hdec | ⟨i, ex, hdec, hi⟩ := hmis
    · exact misfits_of_none hdec
    · exact misfits_of_some hdec hi

end Sys2Proof.Machine
end

section
/-!
Loops that write elements of Vd and leave flags in FXCSR (R402, R404, R407): one induction, with what is known of each element's value
and of FXCSR on the way as parameters.
-/
namespace Sys2Proof.Machine

theorem WroteBelow.congr {c d : Core} {m : Bool} {vd : RegNo} {f g : Nat → Nat} {n : Nat} (h : WroteBelow c m vd f n d)
    (hfg : ∀ e, e < n → f e = g e) : WroteBelow c m vd g n d where
  reached := h.reached
  onlyV := h.onlyV
  others := h.others
  below e he hfit := by rw [h.below e he hfit, hfg e he]
  above := h.above

/-- Midway: the elements settled so far have values that `Q` admits, and FXCSR is as `Y` says. -/
structure WroteWith (c : Core) (m : Bool) (vd : RegNo) (Q : Nat → Nat → Prop) (Y : Nat → Word64 → Prop) (n : Nat) (d : Core) : Prop where
  wrote : ∃ f, WroteBelow c m vd f n { d with fxcsr := c.fxcsr } ∧ ∀ e, Q e (f e)
  flags : Y n d.fxcsr

/-- The core midway, as a step of the loop finds it: only vector registers and FXCSR have changed, no register but Vd, and no element from `e` on. -/
structure MidLoop (c : Core) (vd : RegNo) (e : Nat) (d : Core) : Prop where
  frame : d = { c with v := d.v, fxcsr := d.fxcsr }
  others : ∀ r : RegNo, r ≠ vd → d.v[r] = c.v[r]
  above : ∀ e', e ≤ e' → ∀ r, d.elem r e' = c.elem r e'

section
variable {c d : Core} {m : Bool} {vd : RegNo} {Q : Nat → Nat → Prop} {Y : Nat → Word64 → Prop} {n : Nat}

theorem WroteWith.midLoop (h : WroteWith c m vd Q Y n d) : MidLoop c vd n d := by
  obtain ⟨⟨f, hw, -⟩, -⟩ := h
  exact ⟨congrArg (fun x : Core => { x with fxcsr := d.fxcsr }) hw.onlyV, hw.others, hw.above⟩

theorem WroteWith.active_eq (h : WroteWith c m vd Q Y n d) : d.active m n = c.active m n := by
  obtain ⟨⟨f, hw, -⟩, -⟩ := h
  exact hw.active_eq

theorem WroteWith.start {f₀ : Nat → Nat} (hf₀ : ∀ e, Q e (f₀ e)) (hY : Y c.vresume.toNat c.fxcsr) :
    WroteWith c m vd Q Y c.vresume.toNat c := ⟨⟨f₀, .start, hf₀⟩, hY⟩

theorem WroteWith.skip (h : WroteWith c m vd Q Y n d) (hoff : c.active m n = false) (hY : Y (n + 1) d.fxcsr) :
    WroteWith c m vd Q Y (n + 1) d := by
  obtain ⟨⟨f, hw, hf⟩, -⟩ := h
  exact ⟨⟨f, hw.skip hoff, hf⟩, hY⟩

/-- The values of the elements with that of element `n` set. -/
def withElem (f : Nat → Nat) (n v : Nat) : Nat → Nat := fun e => if e = n then v else f e

theorem withElem_self (f : Nat → Nat) (n v : Nat) : withElem f n v n = v := if_pos rfl

theorem withElem_ne (f : Nat → Nat) {n e : Nat} (h : e ≠ n) (v : Nat) : withElem f n v e = f e := if_neg h

theorem WroteWith.write (h : WroteWith c m vd Q Y n d) (hon : c.active m n = true) {v : Nat} {y : Word64} (hv : Q n v) (hY : Y (n + 1) y) :
    WroteWith c m vd Q Y (n + 1) { d.setElem vd n v with fxcsr := y } := by
  obtain ⟨⟨f, hw, hf⟩, -⟩ := h
  refine ⟨⟨withElem f n v, ?_, fun e => ?_⟩, hY⟩
  · have hw' := (hw.congr (g := withElem f n v) fun e he => (withElem_ne f (Nat.ne_of_lt he) v).symm).write hon
    rw [withElem_self] at hw'
    exact hw'
  · by_cases he : e = n
    · subst he
      rw [withElem_self]
      exact hv
    · rw [withElem_ne f he]
      exact hf e

end

/-- A loop whose step writes its element and FXCSR runs to its end. -/
theorem Core.elements_write_with {c : Core} {m : Bool} {vd : RegNo} {f₀ : Nat → Nat} {Q : Nat → Nat → Prop} {Y : Nat → Word64 → Prop}
    {step : Core → Nat → Except Stop Core} (hf₀ : ∀ e, Q e (f₀ e)) (hY : Y c.vresume.toNat c.fxcsr)
    (hskip : ∀ e x, Y e x → c.active m e = false → Y (e + 1) x)
    (hstep : ∀ d e, MidLoop c vd e d → Y e d.fxcsr → c.active m e = true →
      ∃ v y, step d e = .ok { d.setElem vd e v with fxcsr := y } ∧ Q e v ∧ Y (e + 1) y) :
    ∃ (d : Core) (f : Nat → Nat) (n : Nat) (y : Word64), c.elements (fun d e => d.active m e) step = ({ d with fxcsr := y }.next, none) ∧
      wroteElems c m vd f d ∧ (∀ e, Q e (f e)) ∧ c.vact ≤ n ∧ Y n y := by
  obtain ⟨n, d, hn, hloop, ⟨f, hw, hf⟩, hflags⟩ := elements_complete (c := c) (I := WroteWith c m vd Q Y) (.start hf₀ hY)
    (fun e d hI hoff => hI.skip (hI.active_eq ▸ hoff) (hskip e _ hI.flags (hI.active_eq ▸ hoff)))
    (fun e d hI hon => by
      have hon' : c.active m e = true := hI.active_eq ▸ hon
      obtain ⟨v, y, hok, hv, hy⟩ := hstep d e hI.midLoop hI.flags hon'
      exact ⟨_, hok, hI.write hon' hv hy⟩)
  exact ⟨{ d with fxcsr := c.fxcsr, vresume := 0 }, f, n, d.fxcsr, hloop, hw.wroteElems hn, hf, hn, hflags⟩

/-- The same where the values are known and FXCSR is a fold over the active elements; `P` is what the steps need to know of FXCSR. -/
theorem Core.elements_write_fold {c : Core} {m : Bool} {vd : RegNo} {f : Nat → Nat} {g : Word64 → Nat → Word64} {P : Word64 → Prop}
    {step : Core → Nat → Except Stop Core} (hP : P c.fxcsr) (hPg : ∀ x e, P x → P (g x e))
    (hstep : ∀ d e, MidLoop c vd e d → P d.fxcsr → c.active m e = true →
      step d e = .ok { d.setElem vd e (f e) with fxcsr := g d.fxcsr e }) :
    ∃ d : Core, c.elements (fun d e => d.active m e) step = ({ d with fxcsr := (c.activeFrom m).foldl g c.fxcsr }.next, none) ∧
      wroteElems c m vd f d := by
  obtain ⟨d, f', n, y, hloop, hw, hf, hn, -, hy⟩ := elements_write_with (c := c) (m := m) (vd := vd) (f₀ := f) (Q := fun e v => v = f e)
    (Y := fun n x => P x ∧ ((List.range' n (c.vact - n)).filter (c.active m)).foldl g x = (c.activeFrom m).foldl g c.fxcsr) (step := step)
    (fun _ => rfl) ⟨hP, by rw [← c.activeFrom_eq_filter_range' m]⟩
    (fun e x hY hoff => ⟨hY.1, by
      by_cases he : e < c.vact
      · rw [← hY.2, range'_eq_cons he, List.filter_cons_of_neg (by simp [hoff])]
      · rw [← hY.2, range'_eq_nil (by omega), range'_eq_nil (by omega)]⟩)
    (fun d e hmid hY hon => by
      have he : e < c.vact := Nat.not_le.mp fun hge => Bool.false_ne_true (c.active_of_vact_le m hge ▸ hon)
      refine ⟨f e, _, hstep d e hmid hY.1 hon, rfl, hPg _ _ hY.1, ?_⟩
      rw [← hY.2, range'_eq_cons he, List.filter_cons_of_pos hon, List.foldl_cons])
  rw [range'_eq_nil hn] at hy
  exact ⟨d, hy ▸ hloop, funext hf ▸ hw⟩

theorem wroteElems.congr {c d : Core} {m : Bool} {vd : RegNo} {f g : Nat → Nat} (h : wroteElems c m vd f d)
    (hfg : ∀ e, f e % 2 ^ c.ew = g e % 2 ^ c.ew) : wroteElems c m vd g d := by
  obtain ⟨helems, hothers, hframe⟩ := h
  exact ⟨fun e hfit => by rw [helems e hfit, hfg e], hothers, hframe⟩

section
variable {s : State} {k : CoreId} {call : Call} {m : UdfCtx}

theorem State.vRun_of_flags (h : sumenReady s k call m) {mk : Bool} {ok : Core → Bool} (hok : ok (s.sumen k) = true)
    {step : UdfCtx → Core → Nat → Except Stop Core} {d : Core} {y : Word64} {vd : RegNo} {f : Nat → Nat}
    (hloop : (s.sumen k).elements (fun d e => d.active mk e) (step m) = ({ d with fxcsr := y }.next, none))
    (hd : wroteElems (s.sumen k) mk vd f d) :
    ∃ t, s.vRun k mk ok step = .next t ∧ coreStep s k { d with fxcsr := y } t := by
  have ⟨_, _, hframe⟩ := hd
  have hpc : d.pc = (s.sumen k).pc := by rw [hframe]
  refine ⟨s.setSumen k { d with fxcsr := y }.next, by simp only [vRun, sumenRun_of_ready h, hok, hloop, if_true, landOn], ?_⟩
  rw [coreStep, ← hpc, Core.next]

theorem State.vRun_of_illegal (h : sumenReady s k call m) {mk : Bool} {ok : Core → Bool} (hok : ok (s.sumen k) = false)
    (step : UdfCtx → Core → Nat → Except Stop Core) :
    s.vRun k mk ok step = .next (s.faultCall k (s.sumen k) call fIllegal (faultRow (s.sumen k) call.select false)) := by
  simp only [vRun, sumenRun_of_ready h, hok, Bool.false_eq_true, if_false, landOn]

end

end Sys2Proof.Machine
end

section
/-!
Vector instructions of majors 0x30 and 0x39 (R400, R402, R407).
-/
namespace Sys2Proof.Machine

/-- The value reads of the vector registers only the element that it is for. -/
def ReadsOwnElement (c : Core) (F : Core → Nat → Nat) : Prop :=
  ∀ d e, d = { c with v := d.v } → (∀ r, d.elem r e = c.elem r e) → F d e = F c e

section
variable {s : State} {k : CoreId} {call : Call} {m : UdfCtx} {mk : Bool} {vd va vb : RegNo}

theorem State.vMap_done (h : sumenReady s k call m) {F : Core → Nat → Nat} (hF : ReadsOwnElement (s.sumen k) F) {g : Nat → Nat}
    (hg : ∀ e, F (s.sumen k) e % 2 ^ (s.sumen k).ew = g e % 2 ^ (s.sumen k).ew) :
    ∃ t, s.vMap k mk vd F = .next t ∧ vecDone s k mk vd g t := by
  obtain ⟨d, hloop, hd⟩ := Core.elements_write (c := s.sumen k) (m := mk) (vd := vd) (f := F (s.sumen k))
    (step := fun d e => .ok (d.setElem vd e (F d e))) fun d e hd hsame _ _ => by rw [hF d e hd hsame]
  exact ⟨_, vRun_of_complete h hloop, vecDone_of_wroteElems (hd.congr hg)⟩

theorem State.vMap_own (h : sumenReady s k call m) {F : Core → Nat → Nat} (hF : ReadsOwnElement (s.sumen k) F) :
    ∃ t, s.vMap k mk vd F = .next t ∧ vecDone s k mk vd (F (s.sumen k)) t := vMap_done h hF fun _ => rfl

theorem Core.ew_onlyV {c d : Core} (hd : d = { c with v := d.v }) : d.ew = c.ew := by rw [hd]; rfl

theorem Core.selem_onlyV {c d : Core} (hd : d = { c with v := d.v }) {e : Nat} (hsame : ∀ r, d.elem r e = c.elem r e) (r : RegNo) :
    d.selem r e = c.selem r e := by
  rw [selem, selem, hsame, ew_onlyV hd]

theorem Core.getX_onlyV {c d : Core} (hd : d = { c with v := d.v }) (r : RegNo) : d.getX r = c.getX r := by rw [hd]; rfl

theorem State.vBin_done (h : sumenReady s k call m) {f : Nat → Nat → Nat → Nat} {g : Nat → Nat}
    (hg : ∀ e, f (s.sumen k).ew ((s.sumen k).elem va e) ((s.sumen k).elem vb e) % 2 ^ (s.sumen k).ew = g e % 2 ^ (s.sumen k).ew) :
    ∃ t, s.vBin k mk vd va vb f = .next t ∧ vecDone s k mk vd g t :=
  vMap_done h (fun d e hd hsame => by simp only [hsame, Core.ew_onlyV hd]) hg

theorem State.vBin_own (h : sumenReady s k call m) {f : Nat → Nat → Nat → Nat} :
    ∃ t, s.vBin k mk vd va vb f = .next t ∧
      vecDone s k mk vd (fun e => f (s.sumen k).ew ((s.sumen k).elem va e) ((s.sumen k).elem vb e)) t := vBin_done h fun _ => rfl

theorem State.vSig_own (h : sumenReady s k call m) {f : Int → Int → Int} :
    ∃ t, s.vSig k mk vd va vb f = .next t ∧
      vecDone s k mk vd (fun e => ofSigned (s.sumen k).ew (f ((s.sumen k).selem va e) ((s.sumen k).selem vb e))) t :=
  vMap_own h fun d e hd hsame => by simp only [Core.selem_onlyV hd hsame, Core.ew_onlyV hd]

/-- A shift below the width has its stated value. -/
theorem vshift_of_lt {fn w a b : Nat} {f : Nat → Nat → Nat → Nat} (h : b < w) : vshift fn f w a b = f w a b := if_pos h

theorem State.vCmp_own (h : sumenReady s k call m) {p : Core → Nat → Bool}
    (hp : ∀ d e, d = { s.sumen k with v := d.v } → (∀ r, d.elem r e = (s.sumen k).elem r e) → p d e = p (s.sumen k) e) :
    ∃ t, s.vCmp k mk vd p = .next t ∧ vecDone s k mk vd (fun e => if p (s.sumen k) e then 2 ^ (s.sumen k).ew - 1 else 0) t :=
  vMap_own h fun d e hd hsame => by simp only [hp d e hd hsame, Core.ew_onlyV hd]

/-! ### Differences modulo the width -/

theorem toSigned_emod (w v : Nat) : toSigned w v % 2 ^ w = (v : Int) % 2 ^ w := by
  unfold toSigned
  dsimp only
  split <;> simp

theorem ofSigned_cast (w : Nat) (i : Int) : (ofSigned w i : Int) = i % 2 ^ w := by
  have hpos : (0 : Int) < 2 ^ w := Int.pow_pos (by decide)
  rw [ofSigned, Int.toNat_of_nonneg] <;> push_cast
  · rfl
  · exact Int.emod_nonneg _ (Int.ne_of_gt hpos)

theorem Core.elem_lt (c : Core) (r : RegNo) (e : Nat) : c.elem r e < 2 ^ c.ew := Nat.mod_lt _ (Nat.two_pow_pos _)

theorem sub_mod_eq_ofSigned {w a b : Nat} (hb : b < 2 ^ w) :
    (a + 2 ^ w - b) % 2 ^ w = ofSigned w (toSigned w a - toSigned w b) % 2 ^ w := by
  apply Int.ofNat_inj.mp
  have hsub : ((a + 2 ^ w - b : Nat) : Int) = (a : Int) - b + (2 : Int) ^ w := by
    rw [Int.ofNat_sub (by omega : b ≤ a + 2 ^ w)]
    push_cast
    omega
  push_cast [hsub]
  rw [ofSigned_cast, Int.emod_emod, Int.sub_emod (toSigned w a), toSigned_emod, toSigned_emod, ← Int.sub_emod, Int.add_emod_right]

/-! ### Floating point -/

theorem Core.orFlags_setElem (c : Core) (r : RegNo) (e v : Nat) (f : FFlags) :
    (c.setElem r e v).orFlags f = { c.setElem r e v with fxcsr := (c.orFlags f).fxcsr } := by
  unfold orFlags setElem setV; rfl

/-- FXCSR with the flags of an operation ORed in. -/
def withFlags (y : Word64) (f : FFlags) : Word64 :=
  y ||| BitVec.ofNat 64 (packBits [false, false, false, false, f.nv, f.dz, f.of, f.uf, f.nx])

theorem Core.orFlags_fxcsr (c : Core) (f : FFlags) : (c.orFlags f).fxcsr = withFlags c.fxcsr f := rfl

theorem Core.foldl_orFlags_fxcsr (r : Nat → FFlags) (es : List Nat) (d : Core) :
    (es.foldl (fun x e => x.orFlags (r e)) d).fxcsr = es.foldl (fun y e => withFlags y (r e)) d.fxcsr := by
  induction es generalizing d with
  | nil => rfl
  | cons e es ih => rw [List.foldl_cons, List.foldl_cons, ih, orFlags_fxcsr]

section
variable {c d : Core} {e : Nat}

theorem MidLoop.ew_eq (h : MidLoop c vd e d) : d.ew = c.ew := by rw [h.frame]; rfl

theorem MidLoop.elem_eq (h : MidLoop c vd e d) (r : RegNo) : d.elem r e = c.elem r e := h.above e (Nat.le_refl e) r

end

theorem State.vFloat_done (h : sumenReady s k call m) (hw : (s.sumen k).ew = 32 ∨ (s.sumen k).ew = 64) (f : Fmt → Nat → Nat → Nat × FFlags) :
    ∃ t, s.vFloat k mk vd va vb f = .next t ∧
      vecFloat s k mk vd (fun e => f (fmtOf ((s.sumen k).ew == 64)) ((s.sumen k).elem va e) ((s.sumen k).elem vb e)) t := by
  have hok : (s.sumen k).fpWidth = true := by simpa [Core.fpWidth] using hw
  obtain ⟨d, hloop, hd⟩ := Core.elements_write_fold (c := s.sumen k) (m := mk) (vd := vd) (P := fun _ => True)
    (f := fun e => (f (fmtOf ((s.sumen k).ew == 64)) ((s.sumen k).elem va e) ((s.sumen k).elem vb e)).1)
    (g := fun y e => withFlags y (f (fmtOf ((s.sumen k).ew == 64)) ((s.sumen k).elem va e) ((s.sumen k).elem vb e)).2)
    (step := fun d e => .ok ((d.setElem vd e (f d.vfmt (d.elem va e) (d.elem vb e)).1).orFlags (f d.vfmt (d.elem va e) (d.elem vb e)).2))
    trivial (fun _ _ _ => trivial) fun d e hmid _ _ => by
      rw [Core.vfmt, hmid.ew_eq, hmid.elem_eq, hmid.elem_eq, Core.orFlags_setElem, Core.orFlags_fxcsr]
  obtain ⟨t, hrun, hstep⟩ := vRun_of_flags (step := fun _ d e =>
    .ok ((d.setElem vd e (f d.vfmt (d.elem va e) (d.elem vb e)).1).orFlags (f d.vfmt (d.elem va e) (d.elem vb e)).2)) h hok hloop hd
  rw [← Core.foldl_orFlags_fxcsr] at hstep
  exact ⟨t, hrun, d, hd, hstep⟩

theorem State.vFloat_illegal (h : sumenReady s k call m) (h32 : (s.sumen k).ew ≠ 32) (h64 : (s.sumen k).ew ≠ 64)
    (f : Fmt → Nat → Nat → Nat × FFlags) :
    s.vFloat k mk vd va vb f = .next (s.faultCall k (s.sumen k) call fIllegal (faultRow (s.sumen k) call.select false)) :=
  vRun_of_illegal h (by simp [Core.fpWidth, h32, h64]) _

end

/-- Settles O56: each instruction by the rule of its kind, whose value reads the element that it is for. -/
theorem vectorInstructionsWriteActiveElements : Obligations.VectorInstructionsWriteActiveElements := by
  unfold Obligations.VectorInstructionsWriteActiveElements
  intro s k call m vd va vb mk h c w f signed holds illegal
  simp only [exec]
  refine ⟨State.vBin_own h, State.vBin_done h fun e => sub_mod_eq_ofSigned (c.elem_lt vb e), State.vBin_own h, State.vBin_own h, State.vBin_own h,
    State.vBin_own h, ?vsll, ?vsrl, ?vsra, State.vSig_own h, State.vSig_own h, State.vBin_own h, State.vBin_own h,
    State.vCmp_own h ?vseq, State.vCmp_own h ?vslt, State.vCmp_own h ?vsltu, State.vMap_own h ?vmerge, State.vMap_own h ?vbcast,
    State.vMap_own h ?vins, State.vMap_own h fun _ _ _ _ => rfl, fun hw => State.vFloat_done h hw _, fun hw => State.vFloat_done h hw _,
    fun hw => State.vFloat_done h hw _, fun hw => State.vFloat_done h hw _, fun hw => State.vFloat_done h hw _,
    fun hw => State.vFloat_done h hw _, fun h32 h64 => ?illegal⟩
  case vsll | vsrl | vsra =>
    obtain ⟨t, hrun, hdone⟩ := State.vBin_own h
    exact ⟨t, _, hrun, hdone, fun e he => vshift_of_lt he⟩
  case vseq => exact fun d e _ hsame => by rw [hsame, hsame]
  case vslt => exact fun d e hd hsame => by rw [Core.selem_onlyV hd hsame, Core.selem_onlyV hd hsame]
  case vsltu => exact fun d e _ hsame => by rw [hsame, hsame]
  case vmerge => exact fun d e _ hsame => by rw [hsame, hsame, hsame]
  case vbcast => exact fun d e hd _ => by rw [Core.ew_onlyV hd, Core.getX_onlyV hd]
  case vins => exact fun d e hd hsame => by rw [hsame, Core.ew_onlyV hd, Core.getX_onlyV hd, Core.getX_onlyV hd]
  case illegal =>
    exact ⟨State.vFloat_illegal h h32 h64 _, State.vFloat_illegal h h32 h64 _, State.vFloat_illegal h h32 h64 _,
      State.vFloat_illegal h h32 h64 _, State.vFloat_illegal h h32 h64 _, State.vFloat_illegal h h32 h64 _⟩

end Sys2Proof.Machine
end

section
/-!
Fixed point (R403, R404): the fit of an exact value, and the element loops that fit.
-/
namespace Sys2Proof.Machine

theorem ewBounds_eq (w : Nat) : ewBounds w = (-(2 ^ (w - 1) : Int), (2 ^ (w - 1) : Int) - 1) := by
  simp [ewBounds]

theorem scaleBounds_eq (w p : Nat) : scaleBounds w p =
    if p = 0 then (-(2 ^ (w - 1) : Int), (2 ^ (w - 1) : Int) - 1) else (-((10 : Int) ^ p - 1), (10 : Int) ^ p - 1) := by
  have hpos : 1 ≤ 10 ^ p := Nat.one_le_pow _ _ (by decide)
  rw [scaleBounds, ewBounds_eq]
  push_cast [hpos]
  rfl

/-- FXCSR with the rounding mode and the trap bit that a loop started with; SAT and the flags may have been set since. -/
def SameModes (c : Core) (y : Word64) : Prop := y.toNat % 4 = c.rmode ∧ y.getLsbD 3 = c.trap

theorem SameModes.start (c : Core) : SameModes c c.fxcsr := ⟨rfl, rfl⟩

theorem SameModes.satIf {c : Core} {y : Word64} (h : SameModes c y) (p : Prop) [Decidable p] : SameModes c (satIf p y) := by
  unfold Machine.satIf
  split
  · refine ⟨?_, ?_⟩
    · rw [BitVec.toNat_or, show (4 : Nat) = 2 ^ 2 from rfl, Nat.or_mod_two_pow, ← h.1]; simp
    · rw [BitVec.getLsbD_or, h.2]; simp
  · exact h

theorem SameModes.rmode_eq {c d : Core} (h : SameModes c d.fxcsr) : d.rmode = c.rmode := h.1

theorem SameModes.trap_eq {c d : Core} (h : SameModes c d.fxcsr) : d.trap = c.trap := h.2

theorem foldl_satIf (p : Nat → Prop) [DecidablePred p] (es : List Nat) (y : Word64) :
    es.foldl (fun y e => satIf (p e) y) y = satIf (es.any (fun e => decide (p e)) = true) y := by
  induction es generalizing y with
  | nil => rfl
  | cons e es ih =>
    rw [List.foldl_cons, ih]
    by_cases he : p e <;> by_cases hes : es.any (fun e => decide (p e)) = true <;> simp [satIf, he, hes, BitVec.or_assoc]

section
variable {c : Core} {vd : RegNo} {e : Nat} {b : Int × Int} {v : Int}

theorem Core.fitElem_of_no_trap (h : c.trap = false) :
    c.fitElem vd e b v = .ok { c.setElem vd e (ofSigned c.ew (clampTo b v)) with fxcsr := satIf (v < b.1 ∨ b.2 < v) c.fxcsr } := by
  by_cases hfit : b.1 ≤ v ∧ v ≤ b.2
  · have hlo : ¬v < b.1 := by omega
    have hhi : ¬b.2 < v := by omega
    simp only [fitElem, fit, hfit, and_self, if_true, clampTo, hlo, hhi, if_false, satIf, or_self]
    rfl
  · by_cases hlo : v < b.1
    · simp only [fitElem, fit, hfit, h, Bool.false_eq_true, if_false, clampTo, hlo, if_true, satIf, true_or]
      unfold setSat setElem setV; rfl
    · have hhi : b.2 < v := by omega
      simp only [fitElem, fit, hfit, h, Bool.false_eq_true, if_false, clampTo, hlo, hhi, if_true, satIf, or_true]
      unfold setSat setElem setV; rfl

theorem Core.fitElem_of_trap (h : c.trap = true) (hv : ¬(b.1 ≤ v ∧ v ≤ b.2)) : c.fitElem vd e b v = .error (.fault fFixed true) := by
  simp only [fitElem, fit, hv, h, if_false, if_true]

end

/-- A loop that fits each value and writes it: the values, and SAT where one lay outside (R404). -/
theorem Core.elements_fit {c : Core} {m : Bool} {vd : RegNo} {b : Int × Int} {v : Nat → Int} {step : Core → Nat → Except Stop Core}
    (htrap : c.trap = false) (hstep : ∀ d e, MidLoop c vd e d → d.rmode = c.rmode → step d e = d.fitElem vd e b (v e)) :
    ∃ d : Core, c.elements (fun d e => d.active m e) step =
        ({ d with fxcsr := satIf ((c.activeFrom m).any (fun e => decide (v e < b.1 ∨ b.2 < v e)) = true) c.fxcsr }.next, none) ∧
      wroteElems c m vd (fun e => ofSigned c.ew (clampTo b (v e))) d := by
  rw [← foldl_satIf]
  exact elements_write_fold (SameModes.start c) (fun _ _ hy => hy.satIf _) fun d e hmid hy _ => by
    rw [hstep d e hmid hy.rmode_eq, fitElem_of_no_trap (hy.trap_eq.trans htrap), hmid.ew_eq]

section
variable {c d : Core} {vd : RegNo} {e : Nat}

theorem MidLoop.selem_eq (h : MidLoop c vd e d) (r : RegNo) : d.selem r e = c.selem r e := by
  rw [Core.selem, Core.selem, h.elem_eq, h.ew_eq]

theorem MidLoop.getX_eq (h : MidLoop c vd e d) (r : RegNo) : d.getX r = c.getX r := by rw [h.frame]; rfl

theorem MidLoop.shiftBy_eq (h : MidLoop c vd e d) (r : RegNo) : d.shiftBy r = c.shiftBy r := by
  rw [Core.shiftBy, Core.shiftBy, h.getX_eq]

/-- An element of twice the width is two elements side by side. -/
theorem Core.elemW_double (c : Core) (r : RegNo) (e : Nat) :
    c.elemW (2 * c.ew) r e = c.elem r (2 * e) + 2 ^ c.ew * c.elem r (2 * e + 1) := by
  have hsplit : 2 * c.ew * e = c.ew * (2 * e) := by rw [Nat.mul_comm 2, Nat.mul_assoc]
  rw [elemW, elem, elem, elemW, elemW, hsplit, Nat.two_mul c.ew, Nat.pow_add, Nat.mod_mul, Nat.mul_add c.ew, Nat.mul_one, Nat.pow_add,
    Nat.div_div_eq_div_mul]

/-- The pair's elements of VA lie at or above the element being written; those of VA + 1 may not. -/
theorem MidLoop.pairElem_eq (h : MidLoop c vd e d) (u : UdfCtx) (va : RegNo) (hva : vd ≠ va + 1 ∨ e < vlen u.large / (2 * c.ew)) :
    d.pairElem u va e = c.pairElem u va e := by
  unfold Core.pairElem
  dsimp only
  rw [h.ew_eq]
  by_cases he : e < vlen u.large / (2 * c.ew)
  · have hlow : d.elemW (2 * c.ew) va e = c.elemW (2 * c.ew) va e := by
      rw [← h.ew_eq, Core.elemW_double, h.ew_eq, Core.elemW_double, h.above _ (by omega), h.above _ (by omega)]
    rw [if_pos he, if_pos he, hlow]
  · have hother : va + 1 ≠ vd := fun heq => (hva.resolve_right he) heq.symm
    rw [if_neg he, if_neg he, Core.elemW, Core.elemW, h.others _ hother]

end

section
variable {s : State} {k : CoreId} {call : Call} {m : UdfCtx} {mk : Bool} {vd va vb : RegNo}

theorem State.vRun_fit (h : sumenReady s k call m) (htrap : (s.sumen k).trap = false) {ok : Core → Bool} (hok : ok (s.sumen k) = true)
    {F : UdfCtx → Core → Nat → Int} {v : Nat → Int}
    (hF : ∀ d e, MidLoop (s.sumen k) vd e d → d.rmode = (s.sumen k).rmode → F m d e = v e) :
    ∃ t, s.vRun k mk ok (fun u d e => d.fitElem vd e (ewBounds d.ew) (F u d e)) = .next t ∧
      vecFixed s k mk vd (ewBounds (s.sumen k).ew) v t := by
  obtain ⟨d, hloop, hd⟩ := Core.elements_fit (c := s.sumen k) (m := mk) (vd := vd) (b := ewBounds (s.sumen k).ew) (v := v)
    (step := fun d e => d.fitElem vd e (ewBounds d.ew) (F m d e)) htrap fun d e hmid hrm => by rw [hF d e hmid hrm, hmid.ew_eq]
  obtain ⟨t, hrun, hstep⟩ := vRun_of_flags (step := fun u d e => d.fitElem vd e (ewBounds d.ew) (F u d e)) h hok hloop hd
  exact ⟨t, hrun, d, hd, hstep⟩

/-- VNARROWS of any destination: the elements of VA are stated, the others are read as the loop finds them (R409, log 23). -/
theorem execVnarrows_low (h : sumenReady s k call m) (htrap : (s.sumen k).trap = false) (hva : va.val % 2 = 0) (hw : (s.sumen k).ew ≠ 128) :
    let c := s.sumen k
    ∃ (t : State) (d : Core) (f : Nat → Nat) (y : Word64), execVnarrows k vd va vb mk s = .next t ∧ wroteElems c mk vd f d ∧
      coreStep s k { d with fxcsr := y } t ∧ ∀ e, e < vlen m.large / (2 * c.ew) →
        f e = ofSigned c.ew (clampTo (ewBounds c.ew) (roundInt c.rmode (c.pairElem m va e) (c.shiftBy vb))) := by
  intro c
  obtain ⟨d, f, n, y, hloop, hd, hf, -, -⟩ := Core.elements_write_with (c := c) (m := mk) (vd := vd)
    (f₀ := fun e => ofSigned c.ew (clampTo (ewBounds c.ew) (roundInt c.rmode (c.pairElem m va e) (c.shiftBy vb))))
    (Q := fun e v => e < vlen m.large / (2 * c.ew) →
      v = ofSigned c.ew (clampTo (ewBounds c.ew) (roundInt c.rmode (c.pairElem m va e) (c.shiftBy vb))))
    (Y := fun _ y => SameModes c y)
    (step := fun d e => d.fitElem vd e (ewBounds d.ew) (roundInt d.rmode (d.pairElem m va e) (d.shiftBy vb)))
    (fun _ _ => rfl) (SameModes.start c) (fun _ _ hy _ => hy) fun d e hmid hy _ => by
      refine ⟨_, _, Core.fitElem_of_no_trap (hy.trap_eq.trans htrap), fun he => ?_, hy.satIf _⟩
      rw [hmid.ew_eq, hy.rmode_eq, hmid.shiftBy_eq, hmid.pairElem_eq m va (.inr he)]
  obtain ⟨t, hrun, hstep⟩ := State.vRun_of_flags (ok := fun c => va.val % 2 == 0 && c.ew != 128)
    (step := fun u d e => d.fitElem vd e (ewBounds d.ew) (roundInt d.rmode (d.pairElem u va e) (d.shiftBy vb)))
    h (by simp [hva, hw]) hloop hd
  exact ⟨t, d, f, y, hrun, hd, hstep, hf⟩

/-! ### VSCALE10 -/

theorem execVscale10_of_range (h : sumenReady s k call m) (htrap : (s.sumen k).trap = false) {p : Fin 64} (hp : p.val ≤ 38)
    (hw : 64 ≤ (s.sumen k).ew) (hx : ((s.sumen k).getX vb).toInt.natAbs ≤ 38) :
    let c := s.sumen k
    let x := (c.getX vb).toInt
    ∃ t, execVscale10 k vd va vb mk p s = .next t ∧ vecFixed s k mk vd (scaleBounds c.ew p.val)
      (fun e => if 0 ≤ x then c.selem va e * 10 ^ x.natAbs else roundInt c.rmode (c.selem va e) (10 ^ x.natAbs)) t := by
  intro c x
  obtain ⟨d, hloop, hd⟩ := Core.elements_fit (c := c) (m := mk) (vd := vd) (b := scaleBounds c.ew p.val)
    (v := fun e => if 0 ≤ x then c.selem va e * 10 ^ x.natAbs else roundInt c.rmode (c.selem va e) (10 ^ x.natAbs))
    (step := fun d e => d.fitElem vd e (scaleBounds d.ew p.val)
        (if 0 ≤ x then d.selem va e * 10 ^ x.toNat else roundInt d.rmode (d.selem va e) (10 ^ x.natAbs))) htrap fun d e hmid hrm => by
      rw [hmid.ew_eq, hmid.selem_eq, hrm]
      congr 1
      by_cases hx : 0 ≤ x
      · rw [if_pos hx, if_pos hx, show x.toNat = x.natAbs by omega]
      · rw [if_neg hx, if_neg hx]
  have ⟨_, _, hframe⟩ := hd
  have hpc : d.pc = c.pc := by rw [hframe]
  have hfields : ¬(38 < p.val ∨ (s.sumen k).ew < 64) := by omega
  refine ⟨s.setSumen k (Core.next _), ?_, d, hd, by rw [coreStep, ← hpc, Core.next]⟩
  rw [execVscale10, State.sumenRun_of_ready h]
  simp only [if_neg hfields, if_neg (Nat.not_lt.mpr hx)]
  exact congrArg (fun r => Host.Outcome.next (s.landOn k call r)) hloop

theorem execVscale10_of_operand (h : sumenReady s k call m) {p : Fin 64} (hp : p.val ≤ 38)
    (hw : 64 ≤ (s.sumen k).ew) (hx : 38 < ((s.sumen k).getX vb).toInt.natAbs) :
    execVscale10 k vd va vb mk p s = .next (s.faultCall k (s.sumen k) call fOperand (faultRow (s.sumen k) call.select false)) := by
  have hfields : ¬(38 < p.val ∨ (s.sumen k).ew < 64) := by omega
  rw [execVscale10, State.sumenRun_of_ready h]
  simp only [if_neg hfields, if_pos hx, State.landOn]

/-! ### A trap -/

/-- A loop whose first active element stops does nothing but name it (R409). -/
theorem vecLoop_of_first_error {act : Core → Nat → Bool} {step : Core → Nat → Except Stop Core} {c : Core} {x : Stop} {e : Nat}
    (hx : step c e = .error x) (n : Nat) : ∀ e₀, ((List.range' e₀ n).filter (act c)).head? = some e →
      vecLoop act step n e₀ c = ({ c with vresume := BitVec.ofNat 64 e }, some x) := by
  induction n with
  | zero => intro e₀ h; cases h
  | succ n ih =>
    intro e₀ h
    rw [List.range'_succ] at h
    cases hact : act c e₀ with
    | false =>
      rw [List.filter_cons_of_neg (by simp [hact])] at h
      simpa [vecLoop, hact] using ih (e₀ + 1) h
    | true =>
      rw [List.filter_cons_of_pos hact] at h
      cases h
      simp [vecLoop, hact, hx]

theorem execVsadd_of_trap (h : sumenReady s k call m) (htrap : (s.sumen k).trap = true) {e : Nat}
    (he : ((s.sumen k).activeFrom mk).head? = some e) {b : Int × Int} (hb : ewBounds (s.sumen k).ew = b)
    (hv : ¬(b.1 ≤ (s.sumen k).selem va e + (s.sumen k).selem vb e ∧ (s.sumen k).selem va e + (s.sumen k).selem vb e ≤ b.2)) :
    let d := { s.sumen k with vresume := BitVec.ofNat 64 e }
    execVsadd k vd va vb mk s = .next (s.faultCall k d call fFixed (faultRow d call.select true)) := by
  rw [Core.activeFrom_eq_filter_range'] at he
  rw [execVsadd, State.vFixed, State.vRun, State.sumenRun_of_ready h]
  simp only [if_true]
  rw [Core.elements, vecLoop_of_first_error (Core.fitElem_of_trap htrap (hb ▸ hv)) _ _ he]
  rfl

end

end Sys2Proof.Machine
end

section
/-!
Reductions (R406): what is folded, and where it is written.
-/
namespace Sys2Proof.Machine

section
variable {s : State} {k : CoreId} {call : Call} {m : UdfCtx} {mk : Bool} {vd va vb : RegNo}

theorem State.vecFolded_setElem (s : State) (k : CoreId) (vd : RegNo) (v : Nat) (x : Word64) :
    vecFolded s k vd v x (s.setSumen k { (s.sumen k).setElem vd 0 v with fxcsr := x, vresume := 0 }.next) := by
  refine ⟨(s.sumen k).setElem vd 0 v, fun e hfit => ?_, fun r hr => Core.setElem_v_of_ne _ hr _ _, rfl, rfl⟩
  by_cases he : e = 0
  · subst he; rw [if_pos rfl, Core.elem_setElem_self _ _ hfit]
  · rw [if_neg he, Core.elem_setElem_of_ne _ _ _ he]

theorem State.vReduce_of_ok (h : sumenReady s k call m) (hv : (s.sumen k).vresume.toNat < (s.sumen k).vact) {ok : Core → Bool}
    (hok : ok (s.sumen k) = true) {f : Core → List Nat → Except Stop Core} {v : Nat} {x : Word64}
    (hf : f (s.sumen k) ((s.sumen k).activeFrom mk) = .ok { (s.sumen k).setElem vd 0 v with fxcsr := x }) :
    ∃ t, s.vReduce k mk ok f = .next t ∧ vecFolded s k vd v x t := by
  refine ⟨_, ?_, s.vecFolded_setElem k vd v x⟩
  rw [vReduce, sumenRun_of_ready h]
  simp only [hok, Bool.true_eq_false, if_false, if_neg (Nat.not_le.mpr hv), hf, landOn]

theorem State.vReduce_of_settled (h : sumenReady s k call m) (hv : (s.sumen k).vact ≤ (s.sumen k).vresume.toNat) {ok : Core → Bool}
    (hok : ok (s.sumen k) = true) (f : Core → List Nat → Except Stop Core) :
    s.vReduce k mk ok f = .next (s.setSumen k { (s.sumen k).next with vresume := 0 }) := by
  rw [vReduce, sumenRun_of_ready h]
  simp only [hok, Bool.true_eq_false, if_false, if_pos hv, landOn]
  rfl

theorem State.vFold_of_settled (h : sumenReady s k call m) (hv : (s.sumen k).vact ≤ (s.sumen k).vresume.toNat) (f : Core → Nat → Nat → Nat) :
    s.vFold k mk vd va vb f = .next (s.setSumen k { (s.sumen k).next with vresume := 0 }) := vReduce_of_settled h hv rfl _

theorem State.vFold_eq (h : sumenReady s k call m) (hv : (s.sumen k).vresume.toNat < (s.sumen k).vact) {f : Core → Nat → Nat → Nat} {v : Nat}
    (hf : ((s.sumen k).activeFrom mk).foldl (fun a e => f (s.sumen k) a ((s.sumen k).elem va e)) ((s.sumen k).elem vb 0) = v) :
    ∃ t, s.vFold k mk vd va vb f = .next t ∧ vecFolded s k vd v (s.sumen k).fxcsr t :=
  vReduce_of_ok h hv rfl (by rw [hf]; rfl)

theorem execVredsum_of_no_trap (h : sumenReady s k call m) (htrap : (s.sumen k).trap = false)
    (hv : (s.sumen k).vresume.toNat < (s.sumen k).vact) {b : Int × Int} (hb : ewBounds (s.sumen k).ew = b) :
    let c := s.sumen k
    let sum := ((c.activeFrom mk).map fun e => c.selem va e).sum + c.selem vb 0
    ∃ t, execVredsum k vd va vb mk s = .next t ∧
      vecFolded s k vd (ofSigned c.ew (clampTo b sum)) (satIf (sum < b.1 ∨ b.2 < sum) c.fxcsr) t :=
  State.vReduce_of_ok h hv rfl (hb ▸ Core.fitElem_of_no_trap htrap)

/-! ### Signed minimum and maximum -/

theorem ofSigned_toSigned {w v : Nat} (hv : v < 2 ^ w) : ofSigned w (toSigned w v) = v := by
  apply Int.ofNat_inj.mp
  rw [ofSigned_cast, toSigned_emod]
  exact_mod_cast Nat.mod_eq_of_lt hv

theorem toSigned_sgnMin (w a b : Nat) : toSigned w (sgnMin w a b) = min (toSigned w a) (toSigned w b) := by
  unfold sgnMin
  split <;> omega

theorem toSigned_sgnMax (w a b : Nat) : toSigned w (sgnMax w a b) = max (toSigned w a) (toSigned w b) := by
  unfold sgnMax
  split <;> omega

/-- A fold that picks one of its arguments at each step stays within the width, and on signed values is the fold of `g`. -/
theorem foldl_signed {w : Nat} {pick : Nat → Nat → Nat} {g : Int → Int → Int} (hpick : ∀ a b, pick a b = a ∨ pick a b = b)
    (hg : ∀ a b, toSigned w (pick a b) = g (toSigned w a) (toSigned w b)) {f : Nat → Nat} (hf : ∀ e, f e < 2 ^ w) (es : List Nat) :
    ∀ a, a < 2 ^ w → es.foldl (fun a e => pick a (f e)) a = ofSigned w ((es.map fun e => toSigned w (f e)).foldl g (toSigned w a)) := by
  induction es with
  | nil => exact fun a ha => (ofSigned_toSigned ha).symm
  | cons e es ih =>
    intro a ha
    have hlt : pick a (f e) < 2 ^ w := by
      obtain h | h := hpick a (f e) <;> rw [h]
      · exact ha
      · exact hf e
    rw [List.foldl_cons, ih _ hlt, hg, List.map_cons, List.foldl_cons]

theorem sgnMin_pick (w a b : Nat) : sgnMin w a b = a ∨ sgnMin w a b = b := by
  unfold sgnMin
  split
  · exact .inr rfl
  · exact .inl rfl

theorem sgnMax_pick (w a b : Nat) : sgnMax w a b = a ∨ sgnMax w a b = b := by
  unfold sgnMax
  split
  · exact .inr rfl
  · exact .inl rfl

/-! ### Floating point -/

theorem Core.orFlags_onto (c : Core) (y : Word64) (f : FFlags) :
    { c with fxcsr := y }.orFlags f = { c with fxcsr := withFlags y f } := by
  unfold orFlags withFlags; rfl

/-- The core of the fold differs from the first in FXCSR alone. -/
theorem Core.foldl_float (c : Core) (g : Nat → Nat → Nat × FFlags) (es : List Nat) : ∀ (y : Word64) (a : Nat),
    es.foldl (fun (a : Core × Nat) e => (a.1.orFlags (g a.2 e).2, (g a.2 e).1)) ({ c with fxcsr := y }, a) =
      let r := es.foldl (fun (y : Nat × Word64) e => ((g y.1 e).1, ({ c with fxcsr := y.2 }.orFlags (g y.1 e).2).fxcsr)) (a, y)
      ({ c with fxcsr := r.2 }, r.1) := by
  induction es with
  | nil => exact fun _ _ => rfl
  | cons e es ih =>
    intro y a
    rw [List.foldl_cons, List.foldl_cons, orFlags_onto]
    exact ih _ _

theorem Core.setElem_onto (c : Core) (y : Word64) (r : RegNo) (e v : Nat) :
    { c with fxcsr := y }.setElem r e v = { c.setElem r e v with fxcsr := y } := by
  unfold setElem setV; rfl

theorem State.vFloatFold_eq (h : sumenReady s k call m) (hw : (s.sumen k).ew = 32 ∨ (s.sumen k).ew = 64)
    (hv : (s.sumen k).vresume.toNat < (s.sumen k).vact) (f : Fmt → Nat → Nat → Nat × FFlags) :
    let c := s.sumen k
    let r := (c.activeFrom mk).foldl (fun (y : Nat × Word64) (e : Nat) => ((f (fmtOf (c.ew == 64)) y.1 (c.elem va e)).1,
      ({ c with fxcsr := y.2 }.orFlags (f (fmtOf (c.ew == 64)) y.1 (c.elem va e)).2).fxcsr)) (c.elem vb 0, c.fxcsr)
    ∃ t, s.vFloatFold k mk vd va vb f = .next t ∧ vecFolded s k vd r.1 r.2 t :=
  vReduce_of_ok h hv (by simpa [Core.fpWidth] using hw) (by
    have hfold := (s.sumen k).foldl_float (fun a e => f (s.sumen k).vfmt a ((s.sumen k).elem va e)) ((s.sumen k).activeFrom mk)
      (s.sumen k).fxcsr ((s.sumen k).elem vb 0)
    dsimp only at hfold ⊢
    rw [hfold, Core.setElem_onto]
    rfl)

end

/-- Settles O57: the loops that fit, VNARROWS and VSCALE10 among them, and the folds. -/
theorem fixedPointAndReductions : Obligations.FixedPointAndReductions := by
  unfold Obligations.FixedPointAndReductions
  intro s k call m vd va vb mk p h c w sh x whole digits es sum ordered
  have hwhole : ewBounds c.ew = whole := ewBounds_eq _
  have hdigits : scaleBounds c.ew p.val = digits := scaleBounds_eq _ _
  simp only [exec]
  rw [← hwhole, ← hdigits]
  refine ⟨fun htrap => State.vRun_fit h htrap rfl ?vsadd, fun htrap => State.vRun_fit h htrap rfl ?vssub,
    fun htrap => State.vRun_fit h htrap rfl ?vrshr, fun htrap => State.vRun_fit h htrap rfl ?vmulhr,
    fun htrap hva hw hvd => State.vRun_fit h htrap ?narrowsOk ?vnarrows, fun htrap hva hw => execVnarrows_low h htrap hva hw,
    fun htrap hp hw hx => execVscale10_of_range h htrap hp hw hx, fun hp hw hx => execVscale10_of_operand h hp hw hx,
    fun htrap e he hv => execVsadd_of_trap h htrap he rfl hv, fun hv => ?settled,
    fun htrap hv => execVredsum_of_no_trap h htrap hv rfl, fun hv => State.vFold_eq h hv ?vredmin, fun hv => State.vFold_eq h hv ?vredmax,
    fun hv => State.vFold_eq h hv ?vredminu, fun hv => State.vFold_eq h hv ?vredmaxu,
    fun hw hv => State.vFloatFold_eq h hw hv _, fun hw hv => State.vFloatFold_eq h hw hv _, fun hw hv => State.vFloatFold_eq h hw hv _⟩
  case vsadd | vssub => exact fun d e hmid _ => by rw [hmid.selem_eq, hmid.selem_eq]
  case vrshr => exact fun d e hmid hrm => by rw [hmid.selem_eq, hmid.shiftBy_eq, hrm]; rfl
  case vmulhr => exact fun d e hmid hrm => by rw [hmid.selem_eq, hmid.selem_eq, hmid.ew_eq, hrm]
  case narrowsOk =>
    have hw' : (s.sumen k).ew ≠ 128 := hw
    simp [hva, hw']
  case vnarrows => exact fun d e hmid hrm => by rw [hmid.pairElem_eq m va (.inl hvd), hmid.shiftBy_eq, hrm]; rfl
  case settled =>
    exact ⟨State.vReduce_of_settled h hv rfl _, State.vFold_of_settled h hv _, State.vFold_of_settled h hv _,
      State.vFold_of_settled h hv _, State.vFold_of_settled h hv _⟩
  case vredmin => exact foldl_signed (sgnMin_pick w) (toSigned_sgnMin w) (c.elem_lt va) es _ (c.elem_lt vb 0)
  case vredmax => exact foldl_signed (sgnMax_pick w) (toSigned_sgnMax w) (c.elem_lt va) es _ (c.elem_lt vb 0)
  case vredminu | vredmaxu => rw [List.foldl_map]

end Sys2Proof.Machine
end

section
/-!
The end of a call, its faults, and a core that has none (R410 to R413, R419).
-/
namespace Sys2Proof.Machine

/-! ### Reading a core back -/

theorem State.sumen_setSumen (s : State) (k : CoreId) (c : Core) : (s.setSumen k c).sumen k = c := by
  cases k <;> simp [sumen, setSumen, coreTile]

theorem State.sumen_onTile {s : State} {f : Tile → Tile} (t : TileId) (hsmall : ∀ x, (f x).small = x.small) (hlarge : ∀ x, (f x).large = x.large)
    (k : CoreId) : (s.onTile t f).sumen k = s.sumen k := by
  have htile (u : TileId) : ((s.onTile t f).tile u).small = (s.tile u).small ∧ ((s.onTile t f).tile u).large = (s.tile u).large := by
    by_cases hu : u = t
    · subst hu; rw [onTile_tile]; exact ⟨hsmall _, hlarge _⟩
    · rw [onTile_tile_ne _ hu]; exact ⟨rfl, rfl⟩
  cases k with
  | small g => simp only [sumen, (htile _).1]
  | large g => simp only [sumen, (htile _).2]

theorem State.sumen_onRun (s : State) (g : Gpe) (f : Run → Run) (k : CoreId) : (s.onRun g f).sumen k = s.sumen k :=
  sumen_onTile (f := fun x => { x with runs := x.runs.set (gpeLocal g).val ((s.run? g).map f) (gpeLocal g).isLt }) _ (fun _ => rfl) (fun _ => rfl) k

theorem Core.serve_of_queue_nil {c : Core} (h : c.queue = []) : c.serve = c := by
  unfold serve
  split
  next h' => rw [h] at h'; cases h'
  next => rfl

/-- The core after the end of a call that no other call waits behind. -/
theorem State.sumen_endCall (s : State) (k : CoreId) {c : Core} (call : Call) (r : UdfResult) (hq : c.queue = []) :
    (s.endCall k c call r).sumen k = { c with
      call := none, miss := none, idleAt := s.now
      faults := if r.fault.isSome then min 0xFFFFFFFF (c.faults + 1) else c.faults } := by
  rw [endCall, sumen_onRun, sumen_setSumen]
  exact Core.serve_of_queue_nil hq

theorem State.setSumen_out (s : State) (k : CoreId) (c : Core) : (s.setSumen k c).out = s.out := by cases k <;> rfl

theorem State.endCall_out (s : State) (k : CoreId) (c : Core) (call : Call) (r : UdfResult) : (s.endCall k c call r).out = s.out :=
  setSumen_out s k _

theorem State.endCall_mem (s : State) (k : CoreId) (c : Core) (call : Call) (r : UdfResult) : (s.endCall k c call r).mem = s.mem := by
  rw [endCall]; simp

/-! ### What ends a call -/

section
variable {s : State} {k : CoreId} {call : Call} {m : UdfCtx}

theorem State.sumenRun_of_fault (h : sumenReady s k call m) {f : UdfCtx → Core → Core × Option Stop} {cause : Nat} {elem : Bool}
    (hf : f m (s.sumen k) = (s.sumen k, some (.fault cause elem))) :
    s.sumenRun k f = s.faultCall k (s.sumen k) call cause (faultRow (s.sumen k) call.select elem) := by
  rw [sumenRun_of_ready h, hf, landOn]

theorem execBrk_of_ready (h : sumenReady s k call m) :
    execBrk k s = .next (s.faultCall k (s.sumen k) call fBreak (faultRow (s.sumen k) call.select false)) := by
  rw [execBrk, State.sumenRun_of_fault h rfl]

theorem execIllegal_of_undefined (h : sumenReady s k call m) {word : Word32} (hword : decodeSumen (.large 0) word.toNat = none) :
    execIllegal k word s = .next (s.faultCall k (s.sumen k) call fIllegal (faultRow (s.sumen k) call.select false)) := by
  have hdef : wordDefined word.toNat = false := by rw [wordDefined, hword]; rfl
  rw [execIllegal, hdef, State.sumenRun_of_fault h rfl]; rfl

theorem execRet_of_ready (h : sumenReady s k call m) : execRet k s = .next (s.retCall k (s.sumen k) call m) := by
  obtain ⟨hready, hfetch⟩ := h
  simp only [execRet, hready, hfetch]

/-- What RET finds in the result area for row `r`. -/
def retVal (m : UdfCtx) (c : Core) (call : Call) (r : Nat) : Option Val :=
  if bit call.select r then resultVal m c.frame r else some .null

theorem State.retCall_of_values {vs : List Val} (hlen : vs.length = 32) (hvs : ∀ r, r < 32 → retVal m (s.sumen k) call r = vs[r]?) :
    s.retCall k (s.sumen k) call m = s.endCall k (s.sumen k) call { block := call.block, uop := call.uop, vals := vs, fault := none } := by
  have hall : (List.range 32).map (retVal m (s.sumen k) call) = vs.map some := by
    refine List.ext_getElem (by simp [hlen]) fun r hr _ => ?_
    have hr : r < 32 := by simpa using hr
    rw [List.getElem_map, List.getElem_range, hvs r hr, List.getElem_map, List.getElem?_eq_getElem (by omega)]
  have hnone : (List.range 32).find? (fun r => ((vs.map some).getD r (some .null)).isNone) = none := by
    rw [List.find?_eq_none]
    intro r hr
    have hr : r < 32 := by simpa using hr
    simp [hlen, hr]
  have hback : (vs.map some).map (·.getD Val.null) = vs := (List.map_map ..).trans (List.map_id vs)
  unfold retVal at hall
  unfold retCall
  simp only [hall, hnone, hback]

theorem State.retCall_of_lowest {r : Nat} (hr : r < 32) (hnone : retVal m (s.sumen k) call r = none)
    (hbelow : ∀ q, q < r → retVal m (s.sumen k) call q ≠ none) :
    s.retCall k (s.sumen k) call m = s.faultCall k (s.sumen k) call fResult r := by
  have hget {q : Nat} (hq : q < 32) : ((List.range 32).map (retVal m (s.sumen k) call)).getD q (some .null) = retVal m (s.sumen k) call q := by
    rw [List.getD_eq_getElem?_getD, List.getElem?_map, List.getElem?_range hq]; rfl
  have hfind : (List.range 32).find? (fun q => (((List.range 32).map (retVal m (s.sumen k) call)).getD q (some .null)).isNone) = some r := by
    rw [List.find?_range_eq_some]
    refine ⟨by rw [hget hr, hnone]; rfl, List.mem_range.mpr hr, fun q hq => ?_⟩
    rw [hget (Nat.lt_trans hq hr), Bool.not_eq_true', Option.isNone_eq_false_iff]
    exact Option.isSome_iff_ne_none.mpr (hbelow q hq)
  unfold retVal at hfind
  unfold retCall
  simp only [hfind]

/-! ### A core that is not ready, and a fill -/

theorem State.sumenRun_of_not_ready (h : s.coreReady k = none) (f : UdfCtx → Core → Core × Option Stop) : s.sumenRun k f = s := by
  simp only [sumenRun, h]

theorem execRet_of_not_ready (h : s.coreReady k = none) : execRet k s = .next s := by
  simp only [execRet, h]

/-- A command whose meaning is one instruction on a core leaves the device as it is while the core is not ready. -/
theorem State.idle_of_sumenRun (h : s.coreReady k = none) {r : Res} {f : UdfCtx → Core → Core × Option Stop} (hr : r = .next (s.sumenRun k f)) :
    r = .next s := by
  rw [hr, sumenRun_of_not_ready h]

/-- An instruction names the core that its word was decoded for. -/
theorem exec_of_not_ready (h : s.coreReady k = none) {i : Instr} {w : Nat} (he : encodeSumen i = some w) (hd : decodeSumen k w = some i) :
    exec i s = .next s := by
  cases i <;> cases he
  case jmp.refl =>
    rw [decodeSumen_jmp] at hd; cases hd
    exact State.idle_of_sumenRun h rfl
  case jal.refl =>
    rw [decodeSumen_jal] at hd; cases hd
    exact State.idle_of_sumenRun h rfl
  case csr.refl =>
    rw [decodeSumen_csr] at hd
    split at hd <;> cases hd
    exact State.idle_of_sumenRun h rfl
  case vsetl.refl =>
    rw [decodeSumen_vsetl] at hd
    split at hd <;> cases hd
    exact State.idle_of_sumenRun h rfl
  case vscale10.refl =>
    rw [decodeSumen_vscale10] at hd
    split at hd <;> cases hd
    exact State.idle_of_sumenRun h rfl
  all_goals
    simp [decodeSumen, decodeInt, decodeFp, decodeVec, decodeFixed, decodeRed, decodeMove, decodeImm] at hd
    subst hd
  case ret.refl => exact execRet_of_not_ready h
  all_goals exact State.idle_of_sumenRun h rfl

theorem Core.fill_of_miss {c : Core} {l : Nat} (h : c.miss = some l) (large : Bool) (tick : Nat) : ∃ ls,
    c.fill large tick = { c with miss := none, lines := ls ++ [l] } ∧ (c.lines.length < windowLines large → ls = c.lines) := by
  refine ⟨if c.lines.length < windowLines large then c.lines else c.lines.eraseIdx (Config.freeNat tick % c.lines.length), ?_, fun hlt => if_pos hlt⟩
  simp only [fill, h]

theorem execWindowMissFill_of_miss {l : Nat} (h : (s.sumen k).miss = some l) :
    execWindowMissFill k s = .next (s.setSumen k ((s.sumen k).fill (coreLarge k) s.tick)).bump := by
  rw [execWindowMissFill, h]; rfl

end

/-- Settles O58. -/
theorem callsEndAndFillsResume : Obligations.CallsEndAndFillsResume := by
  unfold Obligations.CallsEndAndFillsResume
  refine ⟨fun s k call m word h => ?ends, fun s k call cause row hcall hq => ?fault, fun s k i w h he hd => exec_of_not_ready h he hd,
    fun s k l hl => ?fill⟩
  case ends =>
    intro c row
    simp only [exec]
    refine ⟨execBrk_of_ready h, execIllegal_of_undefined h, fun vs hvs hlen => ?_, fun r hr hsel hres hbelow => ?_⟩
    · rw [execRet_of_ready h, State.retCall_of_values hlen fun r hr => ?_]
      unfold retVal
      split
      next hsel => exact (hvs r hr).1 hsel
      next hsel => exact ((hvs r hr).2 (Bool.not_eq_true _ ▸ hsel)).symm
    · rw [execRet_of_ready h, State.retCall_of_lowest hr ((if_pos hsel).trans hres) fun q hq => ?_]
      · rfl
      · unfold retVal
        split
        next hq' => exact hbelow q hq hq'
        next => exact Option.some_ne_none _
  case fault =>
    intro t
    have hcore : t.sumen k = _ := State.sumen_endCall s k call _ hq
    rw [hcore]
    exact ⟨rfl, rfl, rfl, rfl, rfl, State.endCall_mem s k _ _ _, State.endCall_out s k _ _ _⟩
  case fill =>
    obtain ⟨ls, hfill, hls⟩ := Core.fill_of_miss hl (coreLarge k) s.tick
    refine ⟨_, _, execWindowMissFill_of_miss hl, rfl, ?_⟩
    rw [hfill]
    exact ⟨by simp, rfl, rfl, fun hlt => by rw [hls hlt]⟩

end Sys2Proof.Machine
end

section
/-!
Little-endian fields, and flits (R472, R473).
-/
namespace Sys2Proof.Machine

@[simp] theorem length_leBytes (n v : Nat) : (leBytes n v).length = n := by
  induction n generalizing v with
  | zero => rfl
  | succ n ih => rw [leBytes, List.length_cons, ih]

theorem leNat_leBytes (n v : Nat) : leNat (leBytes n v) = v % 2 ^ (8 * n) := by
  induction n generalizing v with
  | zero => rw [Nat.mul_zero, Nat.pow_zero, Nat.mod_one]; rfl
  | succ n ih => rw [leBytes, leNat, ih, BitVec.toNat_ofNat, Nat.mul_succ, Nat.pow_add, Nat.mul_comm (2 ^ (8 * n)), Nat.mod_mul]

/-- A field written between `pre` and `post`. -/
theorem field_append_leBytes (pre post : List Byte) (n v : Nat) :
    field (pre ++ (leBytes n v ++ post)) pre.length n = v % 2 ^ (8 * n) := by
  have hcut : (leBytes n v ++ post).take n = leBytes n v := List.take_left' (length_leBytes n v)
  rw [field, List.drop_left, hcut, leNat_leBytes]

theorem cut_zero_of_length {bs : List Byte} {n : Nat} (h : bs.length = n) : cut bs 0 n = bs := by
  have htake : bs.take n = bs := List.take_of_length_le (Nat.le_of_eq h)
  simp only [cut, List.drop_zero, htake, h, Nat.sub_self, List.replicate_zero, List.append_nil]

theorem cut_between {pre bs post : List Byte} {n : Nat} (h : bs.length = n) : cut (pre ++ (bs ++ post)) pre.length n = bs := by
  have htake : (bs ++ post).take n = bs := List.take_left' h
  simp only [cut, List.drop_left, htake, h, Nat.sub_self, List.replicate_zero, List.append_nil]

theorem crc64_lt (bs : List Byte) : crc64 bs < 2 ^ 64 := BitVec.isLt _

/-- The word of a flit's fields. -/
def flitWord (seq ack ftype : Nat) (nak : Bool) (foff cvc ccnt : Nat) : Nat :=
  seq + 2 ^ 8 * ack + 2 ^ 16 * ftype + 2 ^ 17 * boolNat nak + 2 ^ 18 * foff + 2 ^ 24 * cvc + 2 ^ 27 * ccnt

theorem bit_eq_beq_one (v i : Nat) : bit v i = (v / 2 ^ i % 2 == 1) := by
  rw [bit, Nat.testBit_eq_decide_div_mod_eq]; rfl

section
variable {seq ack ftype foff cvc ccnt : Nat} {nak : Bool}

/-- The fields of the word do not overlap. -/
theorem fields_flitWord (hseq : seq < 256) (hack : ack < 256) (hftype : ftype < 2) (hfoff : foff < 64) (hcvc : cvc < 8) (hccnt : ccnt < 32) :
    let w := flitWord seq ack ftype nak foff cvc ccnt
    w < 2 ^ 32 ∧ bits w 7 0 = seq ∧ bits w 15 8 = ack ∧ bit w 16 = (ftype == 1) ∧ bit w 17 = nak ∧ bits w 23 18 = foff ∧ bits w 26 24 = cvc ∧
      bits w 31 27 = ccnt := by
  intro w
  have hnak : boolNat nak < 2 := by cases nak <;> decide
  have hw : w = seq + 256 * ack + 65536 * ftype + 131072 * boolNat nak + 262144 * foff + 16777216 * cvc + 134217728 * ccnt := rfl
  have hidle : w / 2 ^ 16 % 2 = ftype := by omega
  have hnakBit : w / 2 ^ 17 % 2 = boolNat nak := by omega
  refine ⟨by omega, ?_, ?_, by rw [bit_eq_beq_one, hidle], ?_, ?_, ?_, ?_⟩
  case refine_3 => rw [bit_eq_beq_one, hnakBit]; cases nak <;> rfl
  all_goals simp only [bits]; omega

end

/-- Settles O39: the CRC covers the bytes before it, and the fields of the first word are apart. -/
theorem flitsReadBack : Obligations.FlitsReadBack := by
  unfold Obligations.FlitsReadBack
  intro seq ack ftype foff cvc ccnt nak payload hseq hack hftype hfoff hcvc hccnt hpayload
  obtain ⟨hw, hfields⟩ := fields_flitWord (nak := nak) hseq hack hftype hfoff hcvc hccnt
  obtain ⟨h0, h8, h16, h17, h18, h24, h27⟩ := hfields
  have hbytes : flitBytes seq ack ftype nak foff cvc ccnt payload = (leBytes 4 (flitWord seq ack ftype nak foff cvc ccnt) ++ payload) ++
      (leBytes 8 (crc64 (leBytes 4 (flitWord seq ack ftype nak foff cvc ccnt) ++ payload)) ++ []) := by
    rw [flitBytes, cut_zero_of_length hpayload, List.append_nil]; rfl
  generalize flitWord seq ack ftype nak foff cvc ccnt = w at *
  have hlen : (leBytes 4 w ++ payload).length = 248 := by rw [List.length_append, length_leBytes, hpayload]
  have htake : ((leBytes 4 w ++ payload) ++ (leBytes 8 (crc64 (leBytes 4 w ++ payload)) ++ [])).take 248 = leBytes 4 w ++ payload :=
    List.take_left' hlen
  have hcrc : field ((leBytes 4 w ++ payload) ++ (leBytes 8 (crc64 (leBytes 4 w ++ payload)) ++ [])) 248 8 = crc64 (leBytes 4 w ++ payload) := by
    rw [← hlen, field_append_leBytes, Nat.mod_eq_of_lt (crc64_lt _)]
  have hword : field ((leBytes 4 w ++ payload) ++ (leBytes 8 (crc64 (leBytes 4 w ++ payload)) ++ [])) 0 4 = w := by
    rw [List.append_assoc]
    exact (field_append_leBytes [] _ 4 w).trans (Nat.mod_eq_of_lt hw)
  have hdata : cut ((leBytes 4 w ++ payload) ++ (leBytes 8 (crc64 (leBytes 4 w ++ payload)) ++ [])) 4 244 = payload := by
    rw [List.append_assoc]
    exact cut_between (pre := leBytes 4 w) hpayload
  have hall : ((leBytes 4 w ++ payload) ++ (leBytes 8 (crc64 (leBytes 4 w ++ payload)) ++ [])).length = 256 := by
    rw [List.length_append, hlen, List.length_append, length_leBytes]; rfl
  rw [hbytes]
  simp only [readFlit, hall, htake, hcrc, hword, hdata, ne_eq, not_true_eq_false, or_self, if_false, h0, h8, h16, h17, h18, h24, h27]

end Sys2Proof.Machine
end

section
/-!
The split of the package limit (R350).
-/
namespace Sys2Proof.Machine

theorem sum_div_le (l : List Nat) (m : Nat) : (l.map (· / m)).sum ≤ l.sum / m := by
  induction l with
  | nil => simp
  | cons a l ih =>
    simp only [List.map_cons, List.sum_cons]
    exact Nat.le_trans (Nat.add_le_add_left ih _) Nat.div_add_div_le_add_div

/-- A row of the split: tile, headroom, budget, and whether it is still open. -/
abbrev SplitRow := Nat × Nat × Nat × Bool

/-- The share of the rest that a row takes in a pass. -/
def SplitRow.share (rest hs : Nat) (x : SplitRow) : Nat := if x.2.2.2 then rest * x.2.1 / hs else 0

def openHeadroom (l : List SplitRow) : Nat := ((l.filter fun x => x.2.2.2).map fun x => x.2.1).sum

def budgets (l : List SplitRow) : Nat := (l.map fun x => x.2.2.1).sum

theorem sum_map_mul (f : SplitRow → Nat) (n : Nat) (l : List SplitRow) : (l.map fun x => n * f x).sum = n * (l.map f).sum := by
  induction l with
  | nil => rfl
  | cons x l ih => simp only [List.map_cons, List.sum_cons, ih, Nat.mul_add]

/-- The shares together are at most the rest. -/
theorem sum_share_le (l : List SplitRow) (rest : Nat) : (l.map (SplitRow.share rest (openHeadroom l))).sum ≤ rest := by
  have hopen (hs : Nat) : (l.map (SplitRow.share rest hs)).sum = (((l.filter fun x => x.2.2.2).map fun x => rest * x.2.1).map (· / hs)).sum := by
    induction l with
    | nil => rfl
    | cons x l ih =>
      cases hx : x.2.2.2 <;> simp [SplitRow.share, hx, ih]
  have hmul : ((l.filter fun x => x.2.2.2).map fun x => rest * x.2.1).sum = rest * openHeadroom l := sum_map_mul _ _ _
  calc (l.map (SplitRow.share rest (openHeadroom l))).sum
      ≤ ((l.filter fun x => x.2.2.2).map fun x => rest * x.2.1).sum / openHeadroom l := hopen _ ▸ sum_div_le _ _
    _ = rest * openHeadroom l / openHeadroom l := by rw [hmul]
    _ ≤ rest := Nat.div_le_of_le_mul (Nat.le_of_eq (Nat.mul_comm _ _))

/-- What the rows of the loop keep: a floor, and a closed row at the cap. -/
def SplitRow.ok (x : SplitRow) : Prop := 25000 ≤ x.2.2.1 ∧ x.2.2.1 ≤ 150000

/-- A row after its share: one above the cap is cut off and closed. -/
def SplitRow.capped (x : SplitRow) : SplitRow := if 150000 < x.2.2.1 then (x.1, x.2.1, 150000, false) else x

def SplitRow.grown (rest hs : Nat) (x : SplitRow) : SplitRow := if x.2.2.2 then (x.1, x.2.1, x.2.2.1 + rest * x.2.1 / hs, true) else x

theorem splitPass_eq (l : List SplitRow) (rest : Nat) : splitPass l rest =
    (l.map fun x => (x.grown rest (openHeadroom l)).capped,
      (l.map fun x => if (x.grown rest (openHeadroom l)).2.2.2 then (x.grown rest (openHeadroom l)).2.2.1 - 150000 else 0).sum) := by
  simp only [splitPass, List.map_map]; rfl

theorem SplitRow.grown_budget (rest hs : Nat) (x : SplitRow) : (x.grown rest hs).2.2.1 = x.2.2.1 + x.share rest hs := by
  unfold grown share
  split <;> rfl

theorem SplitRow.capped_ok {x : SplitRow} (h : 25000 ≤ x.2.2.1) : x.capped.ok := by
  unfold capped ok
  split
  · exact ⟨(by decide : 25000 ≤ 150000), Nat.le_refl 150000⟩
  · omega

/-- Cutting a row off gives back what it loses; a closed row is at the cap already. -/
theorem SplitRow.capped_budget_le {rest hs : Nat} {x : SplitRow} :
    (x.grown rest hs).capped.2.2.1 + (if (x.grown rest hs).2.2.2 then (x.grown rest hs).2.2.1 - 150000 else 0) ≤ x.2.2.1 + x.share rest hs := by
  rw [← grown_budget]
  unfold capped
  split <;> split <;> simp_all <;> omega

theorem splitPass_budgets (l : List SplitRow) (rest : Nat) : budgets (splitPass l rest).1 + (splitPass l rest).2 ≤ budgets l + rest := by
  have hrows (hs : Nat) : ∀ l : List SplitRow, (l.map fun x => (x.grown rest hs).capped.2.2.1).sum +
      (l.map fun x => if (x.grown rest hs).2.2.2 then (x.grown rest hs).2.2.1 - 150000 else 0).sum ≤
      (l.map fun x => x.2.2.1).sum + (l.map (SplitRow.share rest hs)).sum := by
    intro l
    induction l with
    | nil => simp
    | cons x l ih =>
      have hx := SplitRow.capped_budget_le (rest := rest) (hs := hs) (x := x)
      simp only [List.map_cons, List.sum_cons]
      omega
  rw [splitPass_eq, budgets, List.map_map]
  exact Nat.le_trans (hrows _ l) (Nat.add_le_add_left (sum_share_le l rest) _)

theorem splitPass_fst (l : List SplitRow) (rest : Nat) : (splitPass l rest).1.map Prod.fst = l.map Prod.fst := by
  rw [splitPass_eq, List.map_map]
  refine List.map_congr_left fun x _ => ?_
  simp only [Function.comp, SplitRow.capped, SplitRow.grown]
  split <;> split <;> rfl

theorem splitPass_ok {l : List SplitRow} (h : ∀ x ∈ l, 25000 ≤ x.2.2.1) (rest : Nat) : ∀ x ∈ (splitPass l rest).1, SplitRow.ok x := by
  rw [splitPass_eq]
  intro y hy
  obtain ⟨x, hx, rfl⟩ := List.mem_map.mp hy
  have := h x hx
  exact SplitRow.capped_ok (by rw [SplitRow.grown_budget]; omega)

/-- The loop gives no more than what it is given, on the same tiles, and every row ends within its bounds. -/
theorem splitLoop_spec (n : Nat) : ∀ (l : List SplitRow) (rest : Nat), (∀ x ∈ l, 25000 ≤ x.2.2.1) →
    (splitLoop n l rest).map Prod.fst = l.map Prod.fst ∧ budgets (splitLoop n l rest) ≤ budgets l + rest ∧
    (n ≠ 0 → ∀ x ∈ splitLoop n l rest, SplitRow.ok x) := by
  induction n with
  | zero => exact fun l rest _ => ⟨rfl, Nat.le_add_right _ _, fun h => absurd rfl h⟩
  | succ n ih =>
    intro l rest h
    have hfst := splitPass_fst l rest
    have hsum := splitPass_budgets l rest
    have hok := splitPass_ok h rest
    rw [splitLoop]
    split
    · exact ⟨hfst, by omega, fun _ => hok⟩
    next hcont =>
      obtain ⟨hfst', hsum', hok'⟩ := ih (splitPass l rest).1 (splitPass l rest).2 fun x hx => (hok x hx).1
      refine ⟨hfst'.trans hfst, Nat.le_trans hsum' hsum, fun _ => ?_⟩
      by_cases hn : n = 0
      · subst hn; exact hok
      · exact hok' hn

/-- The rows that the loop starts with: 25 W each. -/
theorem startRows_floor (l : List (Nat × Nat)) : ∀ x ∈ l.map (fun t => ((t.1, t.2, 25000, true) : SplitRow)), 25000 ≤ x.2.2.1 := by
  intro x hx
  obtain ⟨t, -, rfl⟩ := List.mem_map.mp hx
  exact Nat.le_refl 25000

theorem powerSplit_fst (limit other : Nat) (l : List (Nat × Nat)) : (powerSplit limit other l).map Prod.fst = l.map Prod.fst := by
  unfold powerSplit
  dsimp only
  split
  · rw [List.map_map]; rfl
  · have hloop := (splitLoop_spec 9 (l.map fun t => (t.1, t.2, 25000, true)) (limit - other - l.length * 25000) (startRows_floor l)).1
    rw [List.map_map] at hloop ⊢
    exact hloop

theorem powerSplit_sum_le (limit other : Nat) (l : List (Nat × Nat)) : ((powerSplit limit other l).map Prod.snd).sum ≤ limit - other := by
  unfold powerSplit
  dsimp only
  split
  · have hconst : (l.map fun _ => (limit - other) / l.length).sum = l.length * ((limit - other) / l.length) := by
      rw [List.map_const', List.sum_replicate_nat]
    rw [List.map_map]
    exact Nat.le_trans (Nat.le_of_eq hconst) (Nat.mul_div_le _ _)
  · have hloop := (splitLoop_spec 9 (l.map fun t => (t.1, t.2, 25000, true)) (limit - other - l.length * 25000) (startRows_floor l)).2.1
    have hstart : budgets (l.map fun t => (t.1, t.2, 25000, true)) = l.length * 25000 := by
      rw [budgets, List.map_map]
      exact (congrArg List.sum List.map_const').trans List.sum_replicate_nat
    rw [List.map_map]
    change budgets _ ≤ _
    omega

theorem powerSplit_bounds {limit other : Nat} {l : List (Nat × Nat)} (h : l.length * 25000 ≤ limit - other) :
    ∀ p ∈ powerSplit limit other l, 25000 ≤ p.2 ∧ p.2 ≤ 150000 := by
  unfold powerSplit
  dsimp only
  rw [if_neg (Nat.not_lt.mpr h)]
  intro p hp
  obtain ⟨x, hx, rfl⟩ := List.mem_map.mp hp
  exact (splitLoop_spec 9 _ _ (startRows_floor l)).2.2 (by decide) x hx

/-! ### The budgets that the master sends -/

/-- The state with the budgets of the next epoch, in the order of the list. -/
def sendBudgets (ps : List (Nat × Nat)) (s : State) : State :=
  ps.foldl (fun s p => s.onSched (tid p.1) fun c => { c with nextMw := some p.2 }) s

theorem sendBudgets_cons (p : Nat × Nat) (ps : List (Nat × Nat)) (s : State) :
    sendBudgets (p :: ps) s = sendBudgets ps (s.onSched (tid p.1) fun c => { c with nextMw := some p.2 }) := rfl

theorem sendBudgets_frame (ps : List (Nat × Nat)) (s : State) : sendBudgets ps s = { s with tiles := (sendBudgets ps s).tiles } := by
  induction ps generalizing s with
  | nil => rfl
  | cons p ps ih => rw [sendBudgets_cons, ih]; rfl

theorem onSched_tile_self (s : State) (t : TileId) (f : Sched → Sched) : (s.onSched t f).tile t = { s.tile t with sched := f (s.sched t) } :=
  State.onTile_tile _ _ _

theorem onSched_tile_ne (s : State) {t u : TileId} (h : u ≠ t) (f : Sched → Sched) : (s.onSched t f).tile u = s.tile u :=
  State.onTile_tile_ne _ h _

theorem sendBudgets_tile (ps : List (Nat × Nat)) (s : State) (t : TileId) : (sendBudgets ps s).tile t =
    { s.tile t with sched := { s.sched t with nextMw := ((sendBudgets ps s).sched t).nextMw } } := by
  induction ps generalizing s with
  | nil => rfl
  | cons p ps ih =>
    rw [sendBudgets_cons, ih]
    by_cases h : t = tid p.1
    · subst h; simp only [State.sched, onSched_tile_self]
    · simp only [State.sched, onSched_tile_ne s h]

theorem sendBudgets_tile_of_not_mem {ps : List (Nat × Nat)} {t : TileId} (s : State) (h : ∀ p ∈ ps, tid p.1 ≠ t) :
    (sendBudgets ps s).tile t = s.tile t := by
  induction ps generalizing s with
  | nil => rfl
  | cons p ps ih =>
    rw [sendBudgets_cons, ih _ fun q hq => h q (List.mem_cons_of_mem _ hq), onSched_tile_ne _ (h p List.mem_cons_self).symm]

theorem sendBudgets_nextMw {ps : List (Nat × Nat)} {t : TileId} (s : State) (h : ∃ p ∈ ps, tid p.1 = t) :
    ∃ p ∈ ps, tid p.1 = t ∧ ((sendBudgets ps s).sched t).nextMw = some p.2 := by
  induction ps generalizing s with
  | nil => obtain ⟨_, hp, _⟩ := h; cases hp
  | cons p ps ih =>
    by_cases hrest : ∃ q ∈ ps, tid q.1 = t
    · obtain ⟨q, hq, htid, hmw⟩ := ih (s.onSched (tid p.1) fun c => { c with nextMw := some p.2 }) hrest
      exact ⟨q, List.mem_cons_of_mem _ hq, htid, hmw⟩
    · have hp : tid p.1 = t := by
        obtain ⟨q, hq, htid⟩ := h
        obtain rfl | hq := List.mem_cons.mp hq
        · exact htid
        · exact absurd ⟨q, hq, htid⟩ hrest
      refine ⟨p, List.mem_cons_self, hp, ?_⟩
      subst hp
      rw [sendBudgets_cons, State.sched, sendBudgets_tile_of_not_mem _ fun q hq htid => hrest ⟨q, hq, htid⟩, onSched_tile_self]

theorem tid_val (t : TileId) : tid t.val = t := Fin.ext (Nat.mod_eq_of_lt t.isLt)

theorem mem_liveTiles {s : State} {t : TileId} : t ∈ s.liveTiles ↔ s.live t = true := by
  have hall : t ∈ allTiles := by revert t; decide
  rw [State.liveTiles, List.mem_filter, and_iff_right hall]

theorem rollEpochs_of_lt {s : State} {e : Nat} (hend : s.dev.epochEnd = some e) (h : s.now < e) (n : Nat) : s.rollEpochs n = s := by
  cases n with
  | zero => rfl
  | succ n => simp only [State.rollEpochs, hend, if_neg (Nat.not_le.mpr h)]

/-- A budget of the list is that of the live tile which it names. -/
theorem fst_powerSplit_liveTiles {s : State} {limit other : Nat} {p : Nat × Nat}
    (hp : p ∈ powerSplit limit other (s.liveTiles.map fun u => (u.val, headroom (s.tjMax u)))) : s.live (tid p.1) = true ∧ (tid p.1).val = p.1 := by
  have hmem : p.1 ∈ (powerSplit limit other (s.liveTiles.map fun u => (u.val, headroom (s.tjMax u)))).map Prod.fst := List.mem_map_of_mem hp
  rw [powerSplit_fst, List.map_map, List.mem_map] at hmem
  obtain ⟨u, hu, huv⟩ := hmem
  have huv : u.val = p.1 := huv
  rw [← huv, tid_val]
  exact ⟨mem_liveTiles.mp hu, rfl⟩

theorem exists_powerSplit_of_live {s : State} {t : TileId} (ht : s.live t = true) (limit other : Nat) :
    ∃ p ∈ powerSplit limit other (s.liveTiles.map fun u => (u.val, headroom (s.tjMax u))), tid p.1 = t := by
  have hmem : t.val ∈ (powerSplit limit other (s.liveTiles.map fun u => (u.val, headroom (s.tjMax u)))).map Prod.fst := by
    rw [powerSplit_fst, List.map_map]
    exact List.mem_map_of_mem (f := fun u : TileId => u.val) (mem_liveTiles.mpr ht)
  obtain ⟨p, hp, hpt⟩ := List.mem_map.mp hmem
  exact ⟨p, hp, by rw [hpt, tid_val]⟩

/-- Settles O34: the loop's invariant, and the fold that sends the budgets. -/
theorem powerSplitStaysWithinTheLimit : Obligations.PowerSplitStaysWithinTheLimit := by
  unfold Obligations.PowerSplitStaysWithinTheLimit
  refine ⟨fun limit other l => ⟨powerSplit_fst _ _ _, powerSplit_sum_le _ _ _, powerSplit_bounds⟩, fun s other hmode => ?_,
    fun s n e hend h => rollEpochs_of_lt hend h n⟩
  intro w
  let ps := powerSplit (w.dev.limitAt.getD w.dev.limitW * 1000) other (w.liveTiles.map fun u => (u.val, headroom (w.tjMax u)))
  let v : State := { w with otherMw := other }
  have hexec : exec (.powerSplit other) s = .next (sendBudgets ps v) := by
    simp only [exec, execPowerSplit, hmode, if_true]; rfl
  refine ⟨_, hexec, ?_, fun t ht => ?_, fun t ht => ?_, fun t => ?_, ?_⟩
  · rw [sendBudgets_frame]
  · obtain ⟨p, hp, htid, hmw⟩ := sendBudgets_nextMw (ps := ps) v (exists_powerSplit_of_live ht _ _)
    obtain ⟨-, hval⟩ := fst_powerSplit_liveTiles hp
    refine ⟨p.2, ?_, hmw⟩
    rw [← htid, hval]; exact hp
  · refine sendBudgets_tile_of_not_mem (ps := ps) v fun p hp htid => ?_
    have hlive := (fst_powerSplit_liveTiles hp).1
    rw [htid, ht] at hlive; cases hlive
  · exact sendBudgets_tile ps v t
  · exact sendBudgets_frame ps v

end Sys2Proof.Machine
end

section
/-!
The state after reset (R36, R521), and the monitors of a tile (R383 to R387).
-/
namespace Sys2Proof.Machine

theorem vecOf_get {α : Type} {n : Nat} (f : Fin n → α) (i : Fin n) : (vecOf f)[i] = f i :=
  List.getElem_ofFn ..

theorem State.reset_tile (t : TileId) : State.reset.tile t = resetTile := by simp [State.tile, State.reset]

theorem resetTile_dom (d : DomId) : resetTile.dom d = { idleOff := resetIdleOff d.val } := vecOf_get (n := 56) _ d

/-- Settles O46: reset's fields, with every tile at its reset value. -/
theorem resetLeavesTheDeviceInCold : Obligations.ResetLeavesTheDeviceInCold := by
  unfold Obligations.ResetLeavesTheDeviceInCold
  refine ⟨⟨rfl, rfl, rfl, rfl, rfl, rfl, rfl, rfl, rfl, rfl, fun q => ⟨rfl, rfl, rfl⟩, fun t => ?_⟩, rfl, rfl, rfl⟩
  have hd (d : DomId) : (State.reset.dom t d).st = .off := by rw [State.dom, State.reset_tile, resetTile_dom]
  rw [State.reset_tile]
  exact ⟨hd, rfl, rfl, rfl, rfl, rfl, rfl, rfl⟩

end Sys2Proof.Machine
end

section
/-!
The monitors of a tile (R383 to R387).
-/
namespace Sys2Proof.Machine

/-! ### The hottest valid sample -/

/-- One more reading: the hottest so far, unless the new one is valid and hotter. -/
theorem hottest_concat (l : List Reading) (r : Reading) :
    hottest (l ++ [r]) = if r.valid = false then hottest l else
      match hottest l with
      | none => some (l.length, r.value)
      | some b => if b.2 < r.value then some (l.length, r.value) else some b := by
  rw [hottest, List.zipIdx_append, List.foldl_append, ← hottest]
  cases hottest l <;> simp

/-- What `hottest` answers about the valid readings of a list. -/
def HottestOf (l : List Reading) : Option (Nat × Int) → Prop
  | none => ∀ r ∈ l, r.valid = false
  | some (i, v) => (∃ r, l[i]? = some r ∧ r.valid = true ∧ r.value = v) ∧ ∀ r ∈ l, r.valid = true → r.value ≤ v

theorem HottestOf.concat_invalid {l : List Reading} {m : Option (Nat × Int)} {r : Reading} (h : HottestOf l m) (hr : r.valid = false) :
    HottestOf (l ++ [r]) m := by
  match m with
  | none => simpa [HottestOf, or_imp, forall_and, hr] using h
  | some (i, v) =>
    obtain ⟨⟨a, ha, hv⟩, hle⟩ := h
    refine ⟨⟨a, ?_, hv⟩, ?_⟩
    · rw [List.getElem?_append_left (List.getElem?_eq_some_iff.mp ha).1, ha]
    · simpa [or_imp, forall_and, hr] using hle

theorem HottestOf.concat_last {l : List Reading} {r : Reading} (hr : r.valid = true) (h : ∀ a ∈ l, a.valid = true → a.value ≤ r.value) :
    HottestOf (l ++ [r]) (some (l.length, r.value)) := by
  refine ⟨⟨r, by simp, hr, rfl⟩, ?_⟩
  simpa [or_imp, forall_and] using h

theorem HottestOf.concat_kept {l : List Reading} {b : Nat × Int} {r : Reading} (h : HottestOf l (some b)) (hr : r.value ≤ b.2) :
    HottestOf (l ++ [r]) (some b) := by
  obtain ⟨⟨a, ha, hv⟩, hle⟩ := h
  refine ⟨⟨a, ?_, hv⟩, ?_⟩
  · rw [List.getElem?_append_left (List.getElem?_eq_some_iff.mp ha).1, ha]
  · simpa [or_imp, forall_and, hr] using hle

/-- Induction on a list by its last entry. -/
theorem list_concat_induction {α : Type} {P : List α → Prop} (nil : P []) (append_singleton : ∀ l a, P l → P (l ++ [a])) (l : List α) : P l := by
  have hrev : ∀ r : List α, P r.reverse := fun r => by
    induction r with
    | nil => exact nil
    | cons a r ih => exact List.reverse_cons ▸ append_singleton _ a ih
  exact List.reverse_reverse l ▸ hrev l.reverse

theorem hottestOf_hottest (l : List Reading) : HottestOf l (hottest l) := by
  induction l using list_concat_induction with
  | nil => simp [hottest, HottestOf]
  | append_singleton l r ih =>
    rw [hottest_concat]
    cases hr : r.valid with
    | false => exact ih.concat_invalid hr
    | true =>
      simp only [Bool.true_eq_false, if_false]
      cases hm : hottest l with
      | none =>
        rw [hm] at ih
        exact .concat_last hr fun a ha hav => by simp [ih a ha] at hav
      | some b =>
        rw [hm] at ih
        dsimp only
        split
        next hlt => exact .concat_last hr fun a ha hav => Int.le_of_lt (Int.lt_of_le_of_lt (ih.2 a ha hav) hlt)
        next hge => exact ih.concat_kept (by omega)

/-! ### The averaging window and a sample -/

/-- What the end of an averaging window leaves of the settings and the readings. -/
theorem Mon.roll_kept (m : Mon) (now : Nat) :
    (m.roll now).temps = m.temps ∧ (m.roll now).thrEn = m.thrEn ∧ (m.roll now).thrHi = m.thrHi ∧ (m.roll now).thrFreq = m.thrFreq := by
  unfold Mon.roll Mon.endWindow
  dsimp only
  split
  · exact ⟨rfl, rfl, rfl, rfl⟩
  · split
    · exact ⟨rfl, rfl, rfl, rfl⟩
    · split <;> exact ⟨rfl, rfl, rfl, rfl⟩

/-- A sample set without the throttle and the alert: its readings, TJ_MAX and the averaging window. -/
def Mon.read (m : Mon) (now : Nat) (temps : List Reading) : Mon :=
  let m := { m.roll now with temps := temps, sampleAt := now / 10000 * 10000 }
  let m := match hottest temps with
    | some h => { m with tjSensor := h.1, tjMax := h.2, winSum := m.winSum + h.2, winCnt := m.winCnt + 1 }
    | none => m
  { m with winCool := m.winCool && temps.all fun r => !r.valid || decide (r.value < m.thrLo) }

/-- The throttle of a sample set (R384). -/
def Mon.throttled (m : Mon) (setting : Nat) : Mon :=
  if m.thrEn ∧ m.anyAt m.hi = true then
    { m with throttle := true, clock := min (if m.clock = 0 then setting else m.clock) (min setting m.freq) }
  else m

/-- The alert of a sample set. -/
def Mon.alerted (m : Mon) : Mon := if m.alertEn ∧ m.anyAt m.alertT = true then { m with alert := true } else m

theorem Mon.sample_eq (m : Mon) (now setting : Nat) (rs : List Reading) :
    m.sample now setting rs = ((m.read now rs).throttled setting).alerted := rfl

theorem Mon.alerted_eq (m : Mon) : m.alerted = { m with alert := m.alerted.alert } := by
  unfold Mon.alerted; split <;> rfl

theorem Mon.throttled_eq (m : Mon) (setting : Nat) :
    m.throttled setting = { m with throttle := (m.throttled setting).throttle, clock := (m.throttled setting).clock } := by
  unfold Mon.throttled; split <;> rfl

/-- What a sample set keeps of what it read. -/
theorem Mon.sample_read (m : Mon) (now setting : Nat) (rs : List Reading) :
    (m.sample now setting rs).temps = (m.read now rs).temps ∧ (m.sample now setting rs).tjMax = (m.read now rs).tjMax ∧
    (m.sample now setting rs).tjSensor = (m.read now rs).tjSensor := by
  rw [Mon.sample_eq, Mon.alerted_eq, Mon.throttled_eq]
  exact ⟨rfl, rfl, rfl⟩

theorem Mon.read_temps (m : Mon) (now : Nat) (rs : List Reading) : (m.read now rs).temps = rs := by
  unfold Mon.read; cases hottest rs <;> rfl

theorem Mon.read_tj (m : Mon) (now : Nat) {rs : List Reading} {i : Nat} {v : Int} (h : hottest rs = some (i, v)) :
    (m.read now rs).tjMax = v ∧ (m.read now rs).tjSensor = i := by
  unfold Mon.read; rw [h]; exact ⟨rfl, rfl⟩

theorem Mon.read_settings (m : Mon) (now : Nat) (rs : List Reading) :
    (m.read now rs).thrEn = m.thrEn ∧ (m.read now rs).thrHi = m.thrHi ∧ (m.read now rs).thrFreq = m.thrFreq := by
  obtain ⟨-, hE, hH, hF⟩ := m.roll_kept now
  unfold Mon.read
  cases hottest rs <;> exact ⟨hE, hH, hF⟩

theorem Mon.sample_temps (m : Mon) (now setting : Nat) (rs : List Reading) : (m.sample now setting rs).temps = rs :=
  (m.sample_read now setting rs).1.trans (m.read_temps now rs)

theorem Mon.sample_tj (m : Mon) (now setting : Nat) {rs : List Reading} {i : Nat} {v : Int} (h : hottest rs = some (i, v)) :
    (m.sample now setting rs).tjMax = v ∧ (m.sample now setting rs).tjSensor = i := by
  obtain ⟨-, hmax, hsensor⟩ := m.sample_read now setting rs
  rw [hmax, hsensor]
  exact m.read_tj now h

/-- A sample at THR_HI throttles, and the clock is at most THR_FREQ (R384). -/
theorem Mon.sample_throttles (m : Mon) (now setting : Nat) {rs : List Reading} (hen : m.thrEn = true)
    (h : ∃ r ∈ rs, r.valid = true ∧ min m.thrHi 880 ≤ r.value) :
    (m.sample now setting rs).throttle = true ∧ (m.sample now setting rs).clock ≤ max 6 (min 22 m.thrFreq) := by
  obtain ⟨hE, hH, hF⟩ := m.read_settings now rs
  have hany : (m.read now rs).anyAt (m.read now rs).hi = true := by
    rw [Mon.anyAt, Mon.read_temps, Mon.hi, hH]; simpa using h
  rw [Mon.sample_eq, Mon.alerted_eq, Mon.throttled, if_pos ⟨hE.trans hen, hany⟩]
  refine ⟨rfl, ?_⟩
  rw [← hF]
  exact Nat.le_trans (Nat.min_le_right _ _) (Nat.min_le_right _ _)

/-! ### THERMTRIP_N (R385) -/

/-- What HALT leaves where the device can enter it: the mode, the cause and the tile are set, and only tiles and outputs change besides. -/
theorem State.halt_dev {s : State} (t : TileId) (cause : Nat) (hc : s.dev.mode ≠ .cold) (ht : s.dev.mode ≠ .test) (hh : s.dev.mode ≠ .halt) :
    (s.halt t cause).dev.mode = .halt ∧ (s.halt t cause).dev.haltCause = cause ∧ (s.halt t cause).dev.haltTile = t.val ∧
    (s.halt t cause).pins = s.pins := by
  unfold State.halt
  rw [if_neg (by simp [hc, ht, hh])]
  rw [revoteAll_frame, logErr_frame]
  unfold State.haltTile
  dsimp only
  split <;> exact ⟨rfl, rfl, rfl, rfl⟩

theorem Tile.openAll_dom (x : Tile) (d : DomId) : (x.openAll.dom d).st = .off := by
  simp [Tile.openAll, Tile.dom, vecMap]

/-- Opening the head switches of a list of tiles changes tiles alone, and leaves every domain of those tiles OFF. -/
theorem foldl_openAll (l : List TileId) (s : State) :
    let s' := l.foldl (fun s u => s.onTile u Tile.openAll) s
    s' = { s with tiles := s'.tiles } ∧ ∀ u d, (u ∈ l ∨ (s.dom u d).st = .off) → (s'.dom u d).st = .off := by
  induction l generalizing s with
  | nil => exact ⟨rfl, fun u d h => h.resolve_left (List.not_mem_nil)⟩
  | cons a l ih =>
    obtain ⟨hf, hd⟩ := ih (s.onTile a Tile.openAll)
    refine ⟨hf, fun u d h => hd u d ?_⟩
    by_cases hu : u = a
    · subst hu
      exact .inr (by rw [State.dom, State.onTile_tile]; exact Tile.openAll_dom _ d)
    · rw [State.dom, State.onTile_tile_ne _ hu]
      exact h.imp_left fun hm => (List.mem_cons.mp hm).resolve_left hu

theorem State.mem_presentTiles {s : State} {u : TileId} : u ∈ s.presentTiles ↔ s.present u = true := by
  have : u ∈ allTiles := by revert u; decide
  simp [State.presentTiles, this]

/-- THERMTRIP_N leads to HALT with cause 0x04 and opens every head switch (R385). -/
theorem State.thermtrip_halts {s : State} (t : TileId) (hc : s.dev.mode ≠ .cold) (ht : s.dev.mode ≠ .test) (hh : s.dev.mode ≠ .halt) :
    (s.thermtrip t).dev.mode = .halt ∧ (s.thermtrip t).dev.haltCause = 0x04 ∧ (s.thermtrip t).dev.haltTile = t.val ∧
    (s.thermtrip t).pins.thermtripN = false ∧ (∀ u d, s.present u = true → ((s.thermtrip t).dom u d).st = .off) := by
  generalize hs1 : ({ (s.onTile t fun x => { x with mon := { x.mon with trip := true } }) with
    pins := { s.pins with thermtripN := false } } : State) = s1
  have hdev : s1.dev = s.dev := by subst hs1; rfl
  have hpins : s1.pins.thermtripN = false := by subst hs1; rfl
  have hman : s1.man = s.man := by subst hs1; rfl
  have heq : s.thermtrip t = (s1.halt t 0x04).presentTiles.foldl (fun s u => s.onTile u Tile.openAll) (s1.halt t 0x04) := by
    subst hs1; rfl
  rw [← hdev] at hc ht hh
  obtain ⟨hmode, hcause, htile, hp⟩ := State.halt_dev t 0x04 hc ht hh
  obtain ⟨hf, hd⟩ := foldl_openAll (s1.halt t 0x04).presentTiles (s1.halt t 0x04)
  have hpres (u : TileId) : (s1.halt t 0x04).present u = s.present u := by
    rw [State.present, State.presentMask, (s1.halt_kept t 0x04).2.1, hman, State.present, State.presentMask]
  rw [heq]
  refine ⟨?_, ?_, ?_, ?_, fun u d hu => hd u d (.inl (mem_presentTiles.mpr ((hpres u).trans hu)))⟩ <;> rw [hf]
  · exact hmode
  · exact hcause
  · exact htile
  · exact (congrArg Pins.thermtripN hp).trans hpins

/-! ### The rows of the monitors -/

theorem State.aonUp_of {s : State} {t : TileId} (hp : s.present t = true) (hc : s.dev.mode ≠ .cold) : s.aonUp t = true := by
  simp [State.aonUp, hp, hc]

/-- A change of one tile's fields leaves the other tiles, and the rest of the device. -/
theorem State.onTile_others (s : State) (t : TileId) (f : Tile → Tile) :
    (∀ u, u ≠ t → (s.onTile t f).tile u = s.tile u) ∧ s.onTile t f = { s with tiles := (s.onTile t f).tiles } :=
  ⟨fun _ h => State.onTile_tile_ne s h f, rfl⟩

/-- The readings of a sample set: a sensor whose domain is off keeps its last value, not VALID. -/
def State.readingsOf (s : State) (t : TileId) (temps : List Int) : List Reading :=
  (s.tile t).mon.temps.zipIdx.map fun r => r.1.take ((s.tile t).sensorOn r.2) temps[r.2]?

/-- The device after a sample set, but for the trip. -/
def State.sampled (s : State) (t : TileId) (rs : List Reading) : State :=
  s.onTile t fun x => { x with mon := { x.mon.sample s.now x.sched.peFreq rs with
    tripped := (s.tile t).mon.tripped.zipIdx.map fun b =>
      if (rs.getD b.2 {}).valid then decide (tripLevel ≤ (rs.getD b.2 {}).value) else b.1 } }

theorem thermalEff_eq (t : TileId) (temps : List Int) (s : State) :
    thermalEff t temps s = if (s.tile t).mon.trips (s.readingsOf t temps) then (s.sampled t (s.readingsOf t temps)).thermtrip t
      else s.sampled t (s.readingsOf t temps) := (rfl)

theorem thermalEff_quiet {t : TileId} {temps : List Int} {s : State} (h : (s.tile t).mon.trips (s.readingsOf t temps) = false) :
    thermalEff t temps s = s.sampled t (s.readingsOf t temps) := by
  rw [thermalEff_eq, if_neg (by rw [h]; exact Bool.false_ne_true)]

theorem thermalEff_trips {t : TileId} {temps : List Int} {s : State} (h : (s.tile t).mon.trips (s.readingsOf t temps) = true) :
    thermalEff t temps s = (s.sampled t (s.readingsOf t temps)).thermtrip t := by
  rw [thermalEff_eq, if_pos h]

theorem State.sampled_others (s : State) (t : TileId) (rs : List Reading) :
    (∀ u, u ≠ t → (s.sampled t rs).tile u = s.tile u) ∧ s.sampled t rs = { s with tiles := (s.sampled t rs).tiles } :=
  s.onTile_others t _

/-- The monitor after a sample set (R383, R384). -/
theorem State.sampled_mon (s : State) (t : TileId) (rs : List Reading) :
    ((s.sampled t rs).tile t).mon.temps = rs ∧
    (∀ i v, hottest rs = some (i, v) → ((s.sampled t rs).tile t).mon.tjMax = v ∧ ((s.sampled t rs).tile t).mon.tjSensor = i) ∧
    ((s.tile t).mon.thrEn = true → (∃ r ∈ rs, r.valid = true ∧ min (s.tile t).mon.thrHi 880 ≤ r.value) →
      ((s.sampled t rs).tile t).mon.throttle = true ∧ ((s.sampled t rs).tile t).mon.clock ≤ max 6 (min 22 (s.tile t).mon.thrFreq)) := by
  rw [State.sampled, State.onTile_tile]
  exact ⟨Mon.sample_temps .., fun i v h => Mon.sample_tj _ _ _ h, fun hen hex => Mon.sample_throttles _ _ _ hen hex⟩

/-- A change that leaves its tile as it is leaves the device as it is. -/
theorem State.onTile_self {s : State} {t : TileId} {f : Tile → Tile} (h : f (s.tile t) = s.tile t) : s.onTile t f = s := by
  unfold State.onTile State.tile at *
  rw [h]
  simp

/-- The mean of a window that ended is of the window's own counts (R387). -/
theorem Mon.roll_ended {m : Mon} {now : Nat} (hw : m.winAt ≠ now / m.avgNs) (hc : 0 < m.winCnt) :
    (m.roll now).winCnt = 0 ∧ (m.roll now).winSum = 0 ∧ (m.roll now).avgTj = m.mean ∧ (m.roll now).winAt = now / m.avgNs ∧
    (m.roll now).temps = m.temps ∧
    (m.throttle = true → m.winCool = true → (m.roll now).throttle = false ∧ (m.roll now).clock = 0) ∧
    (m.winCool = false → (m.roll now).throttle = m.throttle ∧ (m.roll now).clock = m.clock) := by
  rw [Mon.roll, if_neg hw, Mon.endWindow, if_neg (by omega)]
  dsimp only
  split
  next h => exact ⟨rfl, rfl, rfl, rfl, rfl, fun _ _ => ⟨rfl, rfl⟩, fun hcool => by simp [hcool] at h⟩
  next h => exact ⟨rfl, rfl, rfl, rfl, rfl, fun ht hcool => absurd ⟨ht, hcool⟩ h, fun _ => ⟨rfl, rfl⟩⟩

/-- Settles O44, by what a sample set, a throttle step and the end of an averaging window make of the monitor's record, and by the HALT of
THERMTRIP_N. -/
theorem thermalSamplesThrottleAndTrip : Obligations.ThermalSamplesThrottleAndTrip := by
  unfold Obligations.ThermalSamplesThrottleAndTrip
  refine ⟨fun l i v h => ?hot, ?samples, fun s t hp hc hthr hhi => ?step, fun s t h => ?still, ?windows⟩
  case' samples => intro s t temps hp hc m rs; refine ⟨fun htrip => ?sample, fun htrip ht hh => ?trip⟩
  case' windows => intro s t hp hc m; refine ⟨fun hw => ?runs, fun hw hcnt => ?ended⟩
  case hot =>
    have := hottestOf_hottest l
    rw [h] at this
    exact this
  case sample =>
    simp only [exec, execThermalSample, State.aonUp_of hp hc, if_true]
    refine ⟨_, congrArg _ (thermalEff_quiet htrip), ?_⟩
    obtain ⟨hothers, hframe⟩ := s.sampled_others t rs
    obtain ⟨htemps, htj, hthr⟩ := s.sampled_mon t rs
    exact ⟨htemps, htj, hthr, hothers, hframe⟩
  case trip =>
    simp only [exec, execThermalSample, State.aonUp_of hp hc, if_true]
    refine ⟨_, congrArg _ (thermalEff_trips htrip), ?_⟩
    obtain ⟨hmode, hcause, htile, hpin, hoff⟩ := State.thermtrip_halts (s := s.sampled t rs) t hc ht hh
    exact ⟨hmode, hcause, htile, hpin, hoff, (State.thermtrip_kept _ t).2.2.1⟩
  case step => simp only [exec, execThrottleStep, State.aonUp_of hp hc, hthr, hhi, and_self, if_true]
  case still =>
    simp only [exec, execThrottleStep]
    rw [if_neg (by rcases h with h | h <;> simp [h])]
  case runs =>
    simp only [exec, execMonitorAverageWindowEnd, State.aonUp_of hp hc, if_true]
    rw [State.onTile_self]
    rw [Mon.roll, if_pos hw]
  case ended =>
    simp only [exec, execMonitorAverageWindowEnd, State.aonUp_of hp hc, if_true]
    obtain ⟨hothers, hframe⟩ := s.onTile_others t fun x => { x with mon := x.mon.roll s.now }
    obtain ⟨h1, h2, h3, h4, h5, h6, h7⟩ := Mon.roll_ended hw hcnt
    refine ⟨_, rfl, ?_⟩
    rw [State.onTile_tile]
    exact ⟨h1, h2, h3, h4, h5, h6, h7, hothers, hframe⟩

end Sys2Proof.Machine
end

section
/-!
Rings: doorbells, reads of entries and what a queue's change leaves of the others (R68 to R75, R547).
-/
namespace Sys2Proof.Machine

/-! ### One queue's entry -/

@[simp] theorem State.queue_setQueue_self (s : State) (q : Nat) (v : Queue) : (s.setQueue q v).queue q = v := tblGet_set_self ..

theorem State.queue_setQueue_ne (s : State) {p q : Nat} (h : p ≠ q) (v : Queue) : (s.setQueue q v).queue p = s.queue p :=
  tblGet_set_ne _ _ h v

@[simp] theorem State.queue_onQueue_self (s : State) (q : Nat) (f : Queue → Queue) : (s.onQueue q f).queue q = f (s.queue q) :=
  s.queue_setQueue_self q _

theorem State.queue_onQueue_ne (s : State) {p q : Nat} (h : p ≠ q) (f : Queue → Queue) : (s.onQueue q f).queue p = s.queue p :=
  s.queue_setQueue_ne h _

theorem State.queue_congr {s t : State} (h : t.queues = s.queues) (p : Nat) : t.queue p = s.queue p := by
  rw [State.queue, State.queue, h]

/-! ### Doorbells (R68, R70, R448) -/

theorem State.doorbellBad_iff (s : State) (w : DoorbellWrite) : s.doorbellBad w = false ↔
    let u := s.queue w.q.val
    let d := 2 ^ u.depthLog2
    let tail := w.value.toNat % 65536
    w.off = 0 ∧ w.size = 4 ∧ (∀ p, w.pasid = some p → u.slice ≠ 0 ∧ (s.slc u.slice).pasid = p) ∧ tail < d ∧ u.enable = true ∧
      u.resetBusy = false ∧ (u.pos tail (bit w.value.toNat 16) + 2 * d - u.headPos) % (2 * d) ≤ d := by
  have hbits (v : Nat) : bits v 15 0 = v % 65536 := by simp [bits]
  unfold State.doorbellBad Queue.depth
  simp only [hbits]
  cases w.pasid <;> simp [and_assoc]

theorem doorbellEff_eq {s : State} {w : DoorbellWrite} (hm : s.dev.mode.doorbells = true) (hp : s.portUp w.port = true) :
    doorbellEff w s = if s.doorbellBad w then s.onQueue w.q.val fun u => { u with dbErr := true } else
      s.onQueue w.q.val fun u => { u with tailIx := w.value.toNat % 65536, tailWrap := bit w.value.toNat 16, stalls := [] } := by
  have hbits (v : Nat) : bits v 15 0 = v % 65536 := by simp [bits]
  simp only [doorbellEff, hm, hp, hbits, Bool.true_eq_false, or_self, if_false]

/-! ### Reads of entries (R72 to R75, R547) -/

/-- A ring fault sets RING_FAULT of its queue; the other queues, the commands and the store stay. -/
theorem State.faultRing_queue (s : State) (q cid addr status : Nat) :
    (s.faultRing q cid addr status).queue q = { s.queue q with ringFault := true } ∧
    (∀ p, p ≠ q → (s.faultRing q cid addr status).queue p = s.queue p) ∧
    (s.faultRing q cid addr status).cmds = s.cmds ∧ (s.faultRing q cid addr status).slices = s.slices ∧
    (s.faultRing q cid addr status).segs = s.segs := by
  unfold State.faultRing
  dsimp only
  rw [logErr_frame]
  exact ⟨State.queue_onQueue_self _ _ _, fun p h => State.queue_onQueue_ne _ h _, rfl, rfl, rfl⟩

theorem State.queueLive_ringFault {s : State} {q : Nat} (h : s.queueLive q = true) : (s.queue q).ringFault = false := by
  simp only [State.queueLive, Bool.and_eq_true, Bool.not_eq_true'] at h
  exact h.1.1.1.1.2

/-- The read of one entry is the read of the first entry of the window. -/
theorem execRingEntryRead_one {s : State} {q : QueueId} {k : Nat} {ks : List Nat} (hl : s.queueLive q.val = true)
    (hk : s.toRead q.val = k :: ks) (r : EntryRead) : exec (.ringEntryRead q [r]) s = .next (s.takeEntry q.val k r) := by
  simp [exec, execRingEntryRead, hl, hk]

theorem rereadNext_eq_some {u : Queue} {k : Stall} (h : u.rereadNext = some k) : k ∈ u.stalls ∧ k.reads < 8 :=
  ⟨List.mem_of_find?_eq_some h, of_decide_eq_true (List.find?_some (p := fun e : Stall => decide (e.reads < 8)) h)⟩

/-- Settles O22, by the checks of a doorbell, the three cases of a read entry and those of an entry that is read again. -/
theorem doorbellsAndRingReads : Obligations.DoorbellsAndRingReads := by
  unfold Obligations.DoorbellsAndRingReads
  refine ⟨?bell, ?read, fun s q k bs hk hl => ?again, fun s q r hall => ?none⟩
  case bell =>
    intro s w hm hp u d tail good
    have hgood : s.doorbellBad w = false ↔ good := s.doorbellBad_iff w
    simp only [exec, execDoorbell, doorbellEff_eq hm hp]
    refine ⟨fun h => ?_, fun h => ?_⟩
    · rw [if_neg (by rw [hgood.mpr h]; exact Bool.false_ne_true)]
    · rw [if_pos (Bool.of_not_eq_false fun hb => h (hgood.mp hb))]
  case read =>
    intro s q k ks hl hk u
    have hnf := State.queueLive_ringFault hl
    refine ⟨fun bs how => ?_, fun bs how => ?_, fun e hc => ?_⟩ <;> rw [execRingEntryRead_one hl hk]
    · simp only [State.takeEntry, hnf, ownSet, how, if_true, Bool.false_eq_true, if_false]; rfl
    · simp only [State.takeEntry, hnf, ownSet, how, Bool.false_eq_true, if_false, decide_eq_true_eq]; rfl
    · refine ⟨_, rfl, ?_⟩
      have hc' : k < (s.queue q.val).occupancy := hc
      simp only [State.takeEntry, hnf, hc', Bool.false_eq_true, if_false, decide_true, if_true]
      exact s.faultRing_queue ..
  case again =>
    obtain ⟨hmem, hlt⟩ := rereadNext_eq_some hk
    have hok (bs : List Byte) : exec (.ownReread q (.ok bs)) s = .next (s.onQueue q.val fun u =>
        if ownSet (cut bs 0 64) then u.takeReread k (cut bs 0 64) else u.countReread k) := by
      simp only [exec, execOwnReread, ownRereadEff, hk, hl, Bool.true_eq_false, if_false]
    have hbad (e : HostErr) : exec (.ownReread q (.bad e)) s =
        .next (s.faultRing q.val 0 ((s.queue q.val).base + 64 * k.ix) (hostStatus e)) := by
      simp only [exec, execOwnReread, ownRereadEff, hk, hl, Bool.true_eq_false, if_false]
    refine ⟨hmem, hlt, fun how => ?_, fun how => ?_, fun e => ?_⟩
    · rw [hok]; simp only [ownSet, how, if_true]; rfl
    · have h8 : decide (8 ≤ k.reads + 1) = decide (k.reads = 7) := decide_eq_decide.mpr (by omega)
      rw [hok]; simp only [ownSet, how, Bool.false_eq_true, if_false, Queue.countReread, h8]
    · obtain ⟨hself, -, hcmds, -⟩ := s.faultRing_queue q.val 0 ((s.queue q.val).base + 64 * k.ix) (hostStatus e)
      exact ⟨_, hbad e, hself, hcmds⟩
  case none =>
    have hnone : (s.queue q.val).rereadNext = none := List.find?_eq_none.mpr fun k hk => by simpa using hall k hk
    simp only [exec, execOwnReread, ownRereadEff, hnone]

end Sys2Proof.Machine
end

section
/-!
Arbitration and fetch (R77, R78, R88 to R90): what a fetch and the choice of a queue leave as it was.
-/
namespace Sys2Proof.Machine

/-! ### What operations on commands leave -/

/-- Registration changes commands alone. -/
theorem tryRegister_frame (s : State) (x : Cmd) : s.tryRegister x = { s with cmds := (s.tryRegister x).cmds } := by
  unfold State.tryRegister
  split
  · rfl
  · dsimp only; split <;> rfl

theorem registerAll_frame (s : State) : s.registerAll = { s with cmds := s.registerAll.cmds } := by
  unfold State.registerAll
  refine List.foldlRecOn (motive := fun t : State => t = { s with cmds := t.cmds }) s.cmds _ rfl fun t ht x _ => ?_
  rw [tryRegister_frame, ht]

/-- A completion that is formed changes commands, and with its record tiles and outputs. -/
theorem finish_frame (s : State) (c : CmdRef) (k : Completion) :
    s.finish c k = { s with cmds := (s.finish c k).cmds, tiles := (s.finish c k).tiles, out := (s.finish c k).out } := by
  unfold State.finish
  split
  · rfl
  · split
    · rfl
    · rw [logErr_frame]; rfl
    · rfl

theorem giveQid_frame (s : State) (x : Cmd) :
    s.giveQid x = { s with cmds := (s.giveQid x).cmds, order := s.order + 1, qidNext := (s.giveQid x).qidNext } := by
  unfold State.giveQid; split <;> rfl

/-! ### A fetch -/

/-- From `s` to `t` only queue `q` may have moved, and commands may have been fetched. -/
def onlyQueue (q : Nat) (s t : State) : Prop := s.order ≤ t.order ∧ ∀ p, p ≠ q → t.queue p = s.queue p

theorem onlyQueue.trans {q : Nat} {s t u : State} (h : onlyQueue q s t) (h' : onlyQueue q t u) : onlyQueue q s u :=
  ⟨Nat.le_trans h.1 h'.1, fun p hp => (h'.2 p hp).trans (h.2 p hp)⟩

/-- A queue's new record and its new command: the next order, and every other queue as it was. -/
theorem giveQid_setQueue (s : State) (q n m : Nat) (u : Queue) (x : Cmd) :
    (((s.setQueue q u).fenceAdvance q n m).giveQid x).order = s.order + 1 ∧
    ∀ p, p ≠ q → (((s.setQueue q u).fenceAdvance q n m).giveQid x).queue p = s.queue p := by
  rw [giveQid_frame]
  exact ⟨rfl, fun p hp => s.queue_setQueue_ne hp u⟩

/-- A fetch of a whole command takes the next order, and no other queue changes. -/
theorem fetchOne_order {s : State} {q : QueueId} (h : (s.queue q.val).headChain.isSome = true) :
    (s.fetchOne q).order = s.order + 1 ∧ ∀ p, p ≠ q.val → (s.fetchOne q).queue p = s.queue p := by
  obtain ⟨⟨n, bad⟩, hc⟩ := Option.isSome_iff_exists.mp h
  simp only [State.fetchOne, hc]
  split
  · rw [finish_frame]; exact giveQid_setQueue ..
  · split
    · rw [finish_frame]; exact giveQid_setQueue ..
    · rw [registerAll_frame]; exact giveQid_setQueue ..

theorem fetchOne_onlyQueue (s : State) (q : QueueId) : onlyQueue q.val s (s.fetchOne q) := by
  cases h : (s.queue q.val).headChain with
  | none => rw [State.fetchOne, h]; exact ⟨Nat.le_refl _, fun _ _ => rfl⟩
  | some c =>
    obtain ⟨ho, hq⟩ := fetchOne_order (s := s) (q := q) (by rw [h]; rfl)
    exact ⟨by omega, hq⟩

theorem serveTurn_onlyQueue (t : TileId) (q : QueueId) (burst fuel n : Nat) (s : State) :
    onlyQueue q.val s (s.serveTurn t q burst fuel n) := by
  induction fuel generalizing s n with
  | zero => exact ⟨Nat.le_refl _, fun _ _ => rfl⟩
  | succ fuel ih =>
    rw [State.serveTurn]
    split
    · exact (fetchOne_onlyQueue s q).trans (ih _ _)
    · exact ⟨Nat.le_refl _, fun _ _ => rfl⟩

/-- A turn of a ready queue fetches at least one command. -/
theorem serveTurn_fetches {t : TileId} {q : QueueId} {burst fuel : Nat} {s : State} (hb : 1 ≤ burst) (hr : s.ready t q.val = true) :
    s.order < (s.serveTurn t q burst (fuel + 1) 0).order := by
  rw [State.serveTurn, if_pos ⟨hb, hr⟩]
  have hc : (s.queue q.val).headChain.isSome = true := by
    simp only [State.ready, Bool.and_eq_true] at hr; exact hr.2
  have h1 := (fetchOne_order hc).1
  have h2 := (serveTurn_onlyQueue t q burst fuel (0 + ((s.queue q.val).headChain.map (·.1)).getD 1) (s.fetchOne q)).1
  omega

/-! ### The choice of a queue -/

/-- From `s` to `t` only the turns left to queues and to classes have changed. -/
def turnsOnly (s t : State) : Prop :=
  (∃ qs ts, t = { s with queues := qs, tiles := ts }) ∧
  (∀ p, ∃ n, t.queue p = { s.queue p with turnsLeft := n }) ∧ ∀ u, ∃ l, t.tile u = { s.tile u with classLeft := l }

theorem turnsOnly.refl (s : State) : turnsOnly s s := ⟨⟨_, _, rfl⟩, fun _ => ⟨_, rfl⟩, fun _ => ⟨_, rfl⟩⟩

theorem turnsOnly.trans {s t u : State} (h : turnsOnly s t) (h' : turnsOnly t u) : turnsOnly s u := by
  obtain ⟨⟨qs, ts, rfl⟩, hq, ht⟩ := h
  obtain ⟨⟨qs', ts', rfl⟩, hq', ht'⟩ := h'
  refine ⟨⟨qs', ts', rfl⟩, fun p => ?_, fun u => ?_⟩
  · obtain ⟨n, hn⟩ := hq p
    obtain ⟨n', hn'⟩ := hq' p
    exact ⟨n', by rw [hn', hn]⟩
  · obtain ⟨l, hl⟩ := ht u
    obtain ⟨l', hl'⟩ := ht' u
    exact ⟨l', by rw [hl', hl]⟩

theorem tblFind_mapVal {α : Type} (f : Nat → α → α) (t : Tbl α) (k : Nat) :
    tblFind (t.map fun e => (e.1, f e.1 e.2)) k = (tblFind t k).map (f k) := by
  induction t with
  | nil => rfl
  | cons e t ih =>
    obtain ⟨j, v⟩ := e
    simp only [List.map_cons, tblFind]
    split
    next h => rw [h]; rfl
    next => exact ih

theorem onTile_classLeft (s : State) (t : TileId) (l : List Nat) : turnsOnly s (s.onTile t fun x => { x with classLeft := l }) := by
  refine ⟨⟨_, _, rfl⟩, fun _ => ⟨_, rfl⟩, fun u => ?_⟩
  by_cases hu : u = t
  · subst hu; exact ⟨l, State.onTile_tile ..⟩
  · exact ⟨(s.tile u).classLeft, State.onTile_tile_ne s hu _⟩

theorem forfeit_turnsOnly (s : State) (t : TileId) (c m : Nat) : turnsOnly s (s.forfeit t c m) := by
  let f (k : Nat) (u : Queue) : Queue := if u.home = t.val ∧ s.classOf k = c ∧ k < m then { u with turnsLeft := 0 } else u
  have hf : s.forfeit t c m = { s with queues := s.queues.map fun e => (e.1, f e.1 e.2) } := by
    unfold State.forfeit
    congr 1
    refine List.map_congr_left fun e _ => ?_
    dsimp only [f]
    split <;> rfl
  rw [hf]
  refine ⟨⟨_, _, rfl⟩, fun p => ?_, fun _ => ⟨_, rfl⟩⟩
  rw [State.queue, tblGet, tblFind_mapVal, State.queue, tblGet]
  cases tblFind s.queues p with
  | none => exact ⟨0, rfl⟩
  | some u =>
    dsimp only [Option.map_some, Option.getD_some, f]
    split
    · exact ⟨_, rfl⟩
    · exact ⟨_, rfl⟩

theorem onQueue_turnsOnly (s : State) (q : Nat) (f : Nat → Nat) :
    turnsOnly s (s.onQueue q fun u => { u with turnsLeft := f u.turnsLeft }) := by
  refine ⟨⟨_, _, rfl⟩, fun p => ?_, fun _ => ⟨_, rfl⟩⟩
  by_cases hp : p = q
  · subst hp; exact ⟨_, State.queue_onQueue_self ..⟩
  · exact ⟨(s.queue p).turnsLeft, State.queue_onQueue_ne s hp _⟩

theorem onQueue_weight_turnsOnly (s : State) (q : Nat) : turnsOnly s (s.onQueue q fun u => { u with turnsLeft := u.weight }) := by
  refine ⟨⟨_, _, rfl⟩, fun p => ?_, fun _ => ⟨_, rfl⟩⟩
  by_cases hp : p = q
  · subst hp; exact ⟨_, State.queue_onQueue_self ..⟩
  · exact ⟨(s.queue p).turnsLeft, State.queue_onQueue_ne s hp _⟩

theorem chainFrom_turnsLeft (u : Queue) (m fuel k : Nat) : ({ u with turnsLeft := m } : Queue).chainFrom fuel k = u.chainFrom fuel k := by
  induction fuel generalizing k with
  | zero => rfl
  | succ fuel ih =>
    simp only [Queue.chainFrom, ih]
    rfl

/-- Whether a queue is ready does not depend on the turns left. -/
theorem turnsOnly.ready {s s' : State} (h : turnsOnly s s') (t : TileId) (q : Nat) : s'.ready t q = s.ready t q := by
  obtain ⟨⟨qs, ts, rfl⟩, hq, ht⟩ := h
  obtain ⟨n, hn⟩ := hq q
  have hmode (u : TileId) : (({ s with queues := qs, tiles := ts } : State).tile u).mode = (s.tile u).mode := by
    obtain ⟨l, hl⟩ := ht u; rw [hl]
  simp only [State.ready, State.queueLive, hn, hmode, Queue.headChain, chainFrom_turnsLeft]
  rfl

/-- The queue that a class serves next is a ready queue of it, and only turns change. -/
theorem nextWrr_some {s s' : State} {t : TileId} {c q : Nat} (h : s.nextWrr t c = some (q, s')) : q ∈ s.readyIn t c ∧ turnsOnly s s' := by
  unfold State.nextWrr at h
  split at h
  next p hp =>
    cases h
    exact ⟨List.mem_of_find?_eq_some hp, (forfeit_turnsOnly ..).trans (onQueue_turnsOnly _ _ (· - 1))⟩
  next =>
    dsimp only at h
    split at h
    · cases h
    next p hp =>
      cases h
      refine ⟨List.mem_of_head? hp, ((forfeit_turnsOnly s t c 4096).trans ?_).trans (onQueue_turnsOnly _ _ (· - 1))⟩
      exact List.foldlRecOn (motive := turnsOnly _) _ _ (.refl _) fun v hv x _ => hv.trans (onQueue_weight_turnsOnly v x)

theorem nextWrr_isSome {s : State} {t : TileId} {c : Nat} (h : s.readyIn t c ≠ []) : ∃ r, s.nextWrr t c = some r := by
  unfold State.nextWrr
  split
  · exact ⟨_, rfl⟩
  · obtain ⟨q, l, hl⟩ := List.exists_cons_of_ne_nil h
    rw [hl]
    exact ⟨_, rfl⟩

/-- The class served next has a ready queue, and only its turn is taken. -/
theorem nextClass_some {s : State} {t : TileId} (h : ∃ c ∈ [1, 2, 3], s.readyIn t c ≠ []) :
    ∃ c l, s.nextClass t = some (c, s.onTile t fun x => { x with classLeft := l }) ∧ s.readyIn t c ≠ [] := by
  have hmem (c : Nat) (hc : c ∈ [1, 2, 3].filter fun c => !(s.readyIn t c).isEmpty) : s.readyIn t c ≠ [] := by
    simpa using (List.mem_filter.mp hc).2
  unfold State.nextClass
  dsimp only
  split
  next c hc => exact ⟨c, _, rfl, hmem c (List.mem_of_find?_eq_some hc)⟩
  next =>
    split
    next c hc => exact ⟨c, _, rfl, hmem c (List.mem_of_head? hc)⟩
    next hnone =>
      obtain ⟨c, hc, hr⟩ := h
      have : c ∈ [1, 2, 3].filter fun c => !(s.readyIn t c).isEmpty := List.mem_filter.mpr ⟨hc, by simpa using hr⟩
      rw [List.head?_eq_none_iff.mp hnone] at this
      cases this

/-- The turn of a chosen queue fetches from it and moves no other queue's head. -/
theorem turn_serves {s s' : State} {t : TileId} {c q : Nat} (hb : ∀ e ∈ s.queues, 1 ≤ (s.queue e.1).burst) (hq : q ∈ s.readyIn t c)
    (h : turnsOnly s s') :
    s.order < (s'.serveTurn t (qid q) (s'.queue q).burst 64 0).order ∧
    ∀ p, p ≠ q → ((s'.serveTurn t (qid q) (s'.queue q).burst 64 0).queue p).headIx = (s.queue p).headIx ∧
      ((s'.serveTurn t (qid q) (s'.queue q).burst 64 0).queue p).headWrap = (s.queue p).headWrap := by
  obtain ⟨hkey, hr⟩ := List.mem_filter.mp hq
  obtain ⟨⟨k, u⟩, hmem, rfl⟩ := List.mem_map.mp hkey
  simp only [Bool.and_eq_true, decide_eq_true_eq] at hr
  obtain ⟨⟨hlt, -⟩, hready⟩ := hr
  have hqid : (qid k).val = k := Nat.mod_eq_of_lt hlt
  have hready' := (h.ready t k).trans hready
  obtain ⟨⟨qs, ts, rfl⟩, hturns, htiles⟩ := h
  refine ⟨?_, fun p hp => ?_⟩
  · refine serveTurn_fetches (s := { s with queues := qs, tiles := ts }) ?_ (by rw [hqid]; exact hready')
    obtain ⟨n, hn⟩ := hturns k
    rw [hn]
    exact hb _ hmem
  · rw [(serveTurn_onlyQueue t (qid k) _ 64 0 _).2 p (by rw [hqid]; exact hp)]
    obtain ⟨n, hn⟩ := hturns p
    rw [hn]
    exact ⟨rfl, rfl⟩

/-- Settles O23: the queue chosen is ready, its turn fetches at least one command, and a fetch moves its own queue's head alone. -/
theorem urgentQueuesAreServedFirst : Obligations.UrgentQueuesAreServedFirst := by
  unfold Obligations.UrgentQueuesAreServedFirst
  intro s t hb
  refine ⟨fun hu => ?urgent, fun hu hc => ?other⟩ <;> simp only [exec, execArbitrate, arbitrateEff]
  case urgent =>
    obtain ⟨⟨q, s'⟩, hn⟩ := nextWrr_isSome hu
    obtain ⟨hq, ht⟩ := nextWrr_some hn
    rw [if_neg (by simpa using hu), hn]
    exact ⟨_, q, rfl, hq, turn_serves hb hq ht⟩
  case other =>
    obtain ⟨c, l, hcl, hr⟩ := nextClass_some hc
    have hl := onTile_classLeft s t l
    have hin : (s.onTile t fun x => { x with classLeft := l }).readyIn t c = s.readyIn t c :=
      List.filter_congr fun q _ => by rw [hl.ready]; rfl
    obtain ⟨⟨q, s'⟩, hn⟩ := nextWrr_isSome (hin ▸ hr)
    obtain ⟨hq, ht⟩ := nextWrr_some hn
    rw [hin] at hq
    rw [if_pos (by rw [hu]; rfl), hcl]
    dsimp only
    rw [hn]
    exact ⟨_, q, c, rfl, hq, turn_serves hb hq (hl.trans ht)⟩

end Sys2Proof.Machine
end

section
/-!
What the stopping of commands changes (R91 to R94): the operations that end queries, jobs and directory records.
-/
namespace Sys2Proof.Machine

/-! ### Ending work -/

/-- From `s` to `t` work has ended: queries, jobs, segments and what they hold may have changed, and of a command only the note that a
segment of it has gone; queues, keys, images' bytes, the order of fetches and the outputs stay. -/
def endsWork (s t : State) : Prop :=
  t = { s with
    tiles := t.tiles, slices := t.slices, queries := t.queries, tick := t.tick, segs := t.segs, images := t.images, dev := t.dev
    durable := t.durable, stuck := t.stuck, mapCopies := t.mapCopies, cmds := t.cmds } ∧
  ∃ g : Cmd → Cmd, t.cmds = s.cmds.map g ∧ ∀ y, g y = { y with goneSegs := (g y).goneSegs }

/-- An update that leaves the commands. -/
theorem endsWork.of_eq {s t : State} (h : t = { s with
    tiles := t.tiles, slices := t.slices, queries := t.queries, tick := t.tick, segs := t.segs, images := t.images, dev := t.dev
    durable := t.durable, stuck := t.stuck, mapCopies := t.mapCopies }) : endsWork s t := by
  have hc : t.cmds = s.cmds := by rw [h]
  exact ⟨by rw [hc]; exact h, id, by rw [hc, List.map_id], fun _ => rfl⟩

theorem endsWork.refl (s : State) : endsWork s s := .of_eq rfl

theorem endsWork.trans {s t u : State} (h : endsWork s t) (h' : endsWork t u) : endsWork s u := by
  obtain ⟨ht, g, hg, hgy⟩ := h
  obtain ⟨hu, g', hg', hgy'⟩ := h'
  refine ⟨by rw [hu, ht], g' ∘ g, by rw [hg', hg, List.map_map], fun y => ?_⟩
  rw [Function.comp_apply, hgy' (g y), hgy y]

theorem endsWork.foldl {α : Type} {f : State → α → State} (h : ∀ s a, endsWork s (f s a)) (l : List α) (s : State) :
    endsWork s (l.foldl f s) :=
  List.foldlRecOn (motive := endsWork s) l f (.refl s) fun t ht a _ => ht.trans (h t a)

theorem endsWork.onTile (s : State) (t : TileId) (f : Tile → Tile) : endsWork s (s.onTile t f) := .of_eq rfl

theorem endsWork.onSlc (s : State) (n : Nat) (f : Slice → Slice) : endsWork s (s.onSlc n f) := .of_eq rfl

theorem endsWork.onQuery (s : State) (n : Nat) (f : Query → Query) : endsWork s (s.onQuery n f) := .of_eq rfl

theorem endsWork.revoteAll (s : State) : endsWork s s.revoteAll := .of_eq (by rw [revoteAll_frame])

theorem endsWork.discard (s : State) (p : Token → Bool) (reason : Nat) : endsWork s (s.discard p reason) :=
  .foldl (fun s t => (endsWork.onTile s t _).trans (.foldl (fun s _ => .onTile s t _) _ _)) _ s

theorem endsWork.settleEnergy (s : State) (t : TileId) (h : Nat) (r : Run) (em : Nat) : endsWork s (s.settleEnergy t h r em) := by
  unfold State.settleEnergy
  exact (endsWork.onSlc ..).trans (.onTile ..)

theorem endsWork.bump (s : State) : endsWork s s.bump := .of_eq rfl

theorem endsWork.stopRun (s : State) (qid : Nat) (g : Gpe) : endsWork s (s.stopRun qid g) := by
  unfold State.stopRun
  split
  · split
    · unfold State.setRun State.stopCalls
      exact (((endsWork.onTile ..).trans (.onTile ..)).trans (.settleEnergy ..)).trans (.bump _)
    · exact .refl s
  · exact .refl s

theorem endsWork.releaseQuery (s : State) (q : Query) : endsWork s (s.releaseQuery q) := by
  unfold State.releaseQuery
  dsimp only
  have h := endsWork.foldl (f := fun s r => s.onSlc q.slice fun y => y.charge r.2.1 (· - r.2.2)) (fun s _ => .onSlc s _ _) q.charged s
  exact (h.trans (.onQuery _ q.qid _)).trans (.revoteAll _)

theorem endsWork.removeQuery (s : State) (qid reason : Nat) : endsWork s (s.removeQuery qid reason) := by
  have hrelease (s : State) : endsWork s (match s.query? qid with | some q => s.releaseQuery q | none => s) := by
    split
    · exact .releaseQuery ..
    · exact .refl _
  have hstop (l : List Nat) (s : State) : endsWork s (l.foldl (fun s n => s.stopRun qid (gpeN n)) s) :=
    .foldl (fun s n => .stopRun s qid _) l s
  have hdrop (l : List TileId) (s : State) : endsWork s (l.foldl (fun s t => s.onTile t (Tile.dropQuery qid)) s) :=
    .foldl (fun s t => .onTile s t _) l s
  have hqueries (s : State) : endsWork s { s with queries := s.queries.filter fun q => decide (q.qid ≠ qid) } := .of_eq rfl
  unfold State.removeQuery
  exact ((((endsWork.discard ..).trans (hrelease _)).trans (hstop _ _)).trans (hdrop _ _)).trans (hqueries _)

theorem endsWork.undefine (s : State) (id : Nat) : endsWork s (s.undefine id) := by
  unfold State.undefine
  dsimp only
  split
  · exact .refl s
  · exact endsWork.trans (.of_eq rfl) (.foldl (fun s c => .onTile ..) _ _)

theorem endsWork.releaseRecord (s : State) (j : Job) : endsWork s (s.releaseRecord j) := by
  unfold State.releaseRecord
  split
  · exact .refl s
  · exact .onTile ..

theorem endsWork.removeJobs (s : State) (c : CmdRef) : endsWork s (s.removeJobs c) :=
  .foldl (fun s t => ((endsWork.foldl (fun s j => .releaseRecord s j) _ s).trans (.onTile _ t _)).trans (.onTile _ t _)) _ s

theorem endsWork.cancelActivation (s : State) (c : CmdRef) : endsWork s (s.cancelActivation c) := by
  unfold State.cancelActivation
  split
  · dsimp only
    split <;> exact .of_eq rfl
  · exact .refl s

theorem endsWork.goneSeg (s : State) (n : Nat) : endsWork s (s.goneSeg n) := ⟨rfl, _, rfl, fun y => by split <;> rfl⟩

theorem endsWork.setSeg (s : State) (n : Nat) (g : Seg) : endsWork s (s.setSeg n g) := .of_eq rfl

theorem endsWork.strand (s : State) (n : Nat) : endsWork s (s.strand n) := .of_eq rfl

theorem endsWork.clearSeg (s : State) (n : Nat) : endsWork s (s.clearSeg n) := by
  unfold State.clearSeg
  dsimp only
  split
  · exact .refl s
  · split
    · exact ((((endsWork.onSlc ..).trans (.strand ..)).trans (.goneSeg ..)).trans (.setSeg ..)).trans (.revoteAll _)
    · exact (((endsWork.onSlc ..).trans (.goneSeg ..)).trans (.setSeg ..)).trans (.revoteAll _)

theorem endsWork.dirSettle (s : State) (w : DirWait) : endsWork s (s.dirSettle w) := by
  unfold State.dirSettle
  dsimp only
  split
  · exact endsWork.trans (.of_eq rfl) (.clearSeg ..)
  · exact .of_eq rfl

theorem endsWork.stopCmd (s : State) (x : Cmd) : endsWork s (s.stopCmd x) := by
  unfold State.stopCmd
  split
  · split
    · exact (endsWork.onQuery ..).trans (.discard ..)
    · exact .refl s
  · exact .refl s

/-- A command that is dropped with no completion leaves the list of commands, and its work ends (R92). -/
theorem endsWork.abortCmd (s : State) (x : Cmd) : endsWork (s.dropCmd x.ref) (s.abortCmd x) := by
  unfold State.abortCmd
  refine endsWork.trans (t := (s.dropCmd x.ref).releaseHeld x.ref) (.of_eq rfl) ?_
  dsimp only
  split
  · exact .removeJobs ..
  · exact (endsWork.foldl (fun s id => .undefine s id) _ _).trans (.removeQuery ..)
  · exact .cancelActivation ..
  · exact .dirSettle ..
  · exact .refl _

/-- The commands and queues after work has ended: each command stands where it stood, with its phase and its program. -/
theorem endsWork.cmd {s t : State} (h : endsWork s t) {y : Cmd} (hy : y ∈ t.cmds) :
    ∃ x ∈ s.cmds, y = { x with goneSegs := y.goneSegs } := by
  obtain ⟨-, g, hg, hgy⟩ := h
  rw [hg] at hy
  obtain ⟨x, hx, rfl⟩ := List.mem_map.mp hy
  exact ⟨x, hx, hgy x⟩

theorem endsWork.queues {s t : State} (h : endsWork s t) : t.queues = s.queues := by rw [h.1]

/-- After a list of commands is dropped the queues stand as they stood, and every command left is an earlier one not on the list. -/
theorem foldl_abortCmd (l : List Cmd) (s : State) :
    (l.foldl State.abortCmd s).queues = s.queues ∧
    ∀ y ∈ (l.foldl State.abortCmd s).cmds, ∃ x ∈ s.cmds, y = { x with goneSegs := y.goneSegs } ∧ ∀ z ∈ l, x.ref ≠ z.ref := by
  induction l generalizing s with
  | nil => exact ⟨rfl, fun y hy => ⟨y, hy, rfl, fun z hz => absurd hz List.not_mem_nil⟩⟩
  | cons a l ih =>
    obtain ⟨hq, hc⟩ := ih (s.abortCmd a)
    have ha := endsWork.abortCmd s a
    refine ⟨hq.trans ha.queues, fun y hy => ?_⟩
    obtain ⟨x, hx, hyx, hxl⟩ := hc y hy
    obtain ⟨x', hx', hxx⟩ := ha.cmd hx
    obtain ⟨hmem, hne⟩ := List.mem_filter.mp hx'
    have href : x.ref = x'.ref := by rw [hxx]
    refine ⟨x', hmem, by rw [hyx, hxx], fun z hz => ?_⟩
    rcases List.mem_cons.mp hz with rfl | hz
    · exact of_decide_eq_true hne
    · rw [← href]; exact hxl z hz

end Sys2Proof.Machine
end

section
/-!
Queues that are enabled, disabled and reset, completions that are stale, and the coalescing timer (R82 to R95, R547).
-/
namespace Sys2Proof.Machine

/-! ### Commands after a registration -/

/-- Registration gives a command its ranges and changes nothing else of it. -/
theorem registerAll_cmd {s : State} : ∀ y ∈ s.registerAll.cmds,
    ∃ x ∈ s.cmds, y = { x with ranges := y.ranges, whole := y.whole, registered := y.registered } := by
  unfold State.registerAll
  refine List.foldlRecOn (motive := fun t : State => ∀ y ∈ t.cmds, ∃ x ∈ s.cmds,
    y = { x with ranges := y.ranges, whole := y.whole, registered := y.registered }) _ _ (fun y hy => ⟨y, hy, rfl⟩) fun t ht a _ y hy => ?_
  unfold State.tryRegister at hy
  split at hy
  · exact ht y hy
  · dsimp only at hy
    split at hy
    · obtain ⟨z, hz, hzy⟩ := List.mem_map.mp hy
      obtain ⟨x, hx, hxz⟩ := ht z hz
      refine ⟨x, hx, ?_⟩
      split at hzy
      · rw [← hzy, hxz]
      · rw [← hzy]; exact hxz
    · exact ht y hy

/-- A slice that no longer waits for a command (R442). -/
def Slice.freed (c : CmdRef) (v : Slice) : Slice := if v.busy = some c then { v with busy := none } else v

theorem Slice.freed_eq (c : CmdRef) (v : Slice) : v.freed c = { v with busy := (v.freed c).busy } := by
  unfold Slice.freed; split <;> rfl

/-- A command that leaves the in-flight count is gone; only commands and the slice that it held change besides. -/
theorem retire_frame (s : State) (c : CmdRef) :
    s.retire c = { s with cmds := (s.retire c).cmds, slices := s.slices.map fun e => (e.1, e.2.freed c) } := by
  have hmap : (s.slices.map fun e => if e.2.busy = some c then (e.1, { e.2 with busy := none }) else e) =
      s.slices.map fun e => (e.1, e.2.freed c) :=
    List.map_congr_left fun e _ => by unfold Slice.freed; split <;> rfl
  rw [State.retire, registerAll_frame, hmap]; rfl

theorem retire_cmd? (s : State) (c : CmdRef) : (s.retire c).cmd? c = none := by
  refine List.find?_eq_none.mpr fun y hy => ?_
  obtain ⟨x, hx, hxy⟩ := registerAll_cmd y hy
  have hne : x.ref ≠ c := of_decide_eq_true (List.mem_filter.mp hx).2
  rw [hxy]
  simpa using hne

theorem retire_slc (s : State) (c : CmdRef) (n : Nat) :
    (s.retire c).slc n = { s.slc n with busy := ((s.retire c).slc n).busy } := by
  have hfind : tblFind (s.slices.map fun e => (e.1, e.2.freed c)) n = (tblFind s.slices n).map (Slice.freed c) :=
    tblFind_mapVal (fun _ => Slice.freed c) s.slices n
  rw [retire_frame]
  simp only [State.slc, tblGet]
  rw [hfind]
  cases tblFind s.slices n with
  | none => rfl
  | some v => exact v.freed_eq c

@[simp] theorem State.slc_onSlc_self (s : State) (n : Nat) (f : Slice → Slice) : (s.onSlc n f).slc n = f (s.slc n) := tblGet_set_self ..

theorem State.slc_onSlc_ne (s : State) {m n : Nat} (h : m ≠ n) (f : Slice → Slice) : (s.onSlc n f).slc m = s.slc m :=
  tblGet_set_ne _ _ h _

/-! ### A queue's interrupt (R83) -/

theorem queueIrq_frame (s : State) (q : Nat) :
    s.queueIrq q = { s with out := (s.queueIrq q).out, tiles := (s.queueIrq q).tiles, queues := (s.queueIrq q).queues } := by
  unfold State.queueIrq
  dsimp only
  rw [msix_frame]; rfl

theorem queueIrq_queue (s : State) (q : Nat) : (s.queueIrq q).queue q = { s.queue q with irqPend := 0, irqStamp := 0 } := by
  have h : (s.msix (s.queue q).port (s.queue q).vector).queue q = s.queue q := State.queue_congr (by rw [msix_frame]) q
  unfold State.queueIrq
  rw [State.queue_onQueue_self, h]

/-! ### Reset (R91 to R95) -/

/-- The end of a reset: head and tail at 0, RESET_DONE set, and the queue's other fields as they were. -/
theorem resetEnd_queue (s : State) (q : Nat) :
    (s.resetEnd q).queue q = { s.queue q with
      headIx := 0, headWrap := false, tailIx := 0, tailWrap := false, resetBusy := false, resetDone := true, copies := [], stalls := []
      ringFault := false, irqPend := 0, irqStamp := 0 } := by
  unfold State.resetEnd
  rw [queueIrq_queue]
  have hq (t : State) : (t.fenceReached q).queue q = t.queue q := rfl
  rw [hq, State.queue_onQueue_self, State.queue_congr (foldl_abortCmd _ s).1]

/-- A fence that a reset reaches keeps its reference and its phase. -/
theorem fenceReached_cmd {s : State} {q : Nat} {y : Cmd} (hy : y ∈ (s.fenceReached q).cmds) :
    ∃ x ∈ s.cmds, y = { x with prog := y.prog } := by
  obtain ⟨x, hx, rfl⟩ := List.mem_map.mp hy
  refine ⟨x, hx, ?_⟩
  split
  · split <;> rfl
  · split <;> rfl
  · rfl

/-- At the end of a reset no command of the queue is left. -/
theorem resetEnd_cmds (s : State) (q : Nat) : ∀ y ∈ (s.resetEnd q).cmds, y.q ≠ q := by
  intro y hy
  unfold State.resetEnd at hy
  rw [queueIrq_frame] at hy
  obtain ⟨x, hx, hxy⟩ := fenceReached_cmd hy
  obtain ⟨z, hz, hzx, hne⟩ := (foldl_abortCmd _ s).2 x hx
  intro hq
  have hzq : z.q = q := by rw [hxy, hzx] at hq; exact hq
  exact hne z (List.mem_filter.mpr ⟨hz, decide_eq_true hzq⟩) rfl

/-- The state in which the commands of a queue stop: its record as the reset leaves it, its fences reached. -/
def State.resetMarked (s : State) (q : Nat) : State :=
  (s.setQueue q { s.queue q with
    resetBusy := true, resetDone := false, gen := nextGen (s.queue q).gen, copies := [], stalls := [], turnsLeft := 0 }).fenceReached q

/-- Steps 1 to 3 of a reset, but for its end where the home is lost. -/
def State.resetStopped (s : State) (q : Nat) : State :=
  let t := (((s.resetMarked q).cmdsOf q).filter fun x => !x.settles).foldl State.abortCmd (s.resetMarked q)
  (t.cmdsOf q).foldl State.stopCmd t

theorem resetBegin_eq {s : State} {q : Nat} (h : (s.queue q).resetBusy = false) :
    s.resetBegin q = if (s.queue q).homeLost then (s.resetStopped q).resetEnd q else s.resetStopped q := by
  unfold State.resetBegin
  dsimp only
  rw [if_neg (by rw [h]; exact Bool.false_ne_true)]
  rfl

theorem resetStopped_queue (s : State) (q : Nat) :
    (s.resetStopped q).queue q = { s.queue q with
      resetBusy := true, resetDone := false, gen := nextGen (s.queue q).gen, copies := [], stalls := [], turnsLeft := 0 } := by
  unfold State.resetStopped
  rw [State.queue_congr (endsWork.foldl endsWork.stopCmd _ _).queues, State.queue_congr (foldl_abortCmd _ _).1]
  exact s.queue_setQueue_self q _

theorem Cmd.settles_phase {x : Cmd} (h : x.settles = true) : x.phase ≠ .fetched := by
  intro hp
  simp [Cmd.settles, Cmd.lingers, hp] at h

/-- Once a reset has begun no command of the queue is fetched and not started. -/
theorem resetStopped_cmds (s : State) (q : Nat) : ∀ y ∈ (s.resetStopped q).cmds, y.q = q → y.phase ≠ .fetched := by
  intro y hy hq
  unfold State.resetStopped at hy
  obtain ⟨x, hx, hxy⟩ := (endsWork.foldl endsWork.stopCmd _ _).cmd hy
  obtain ⟨z, hz, hzx, hne⟩ := (foldl_abortCmd _ _).2 x hx
  have hzq : z.q = q := by rw [hxy, hzx] at hq; exact hq
  have hphase : y.phase = z.phase := by rw [hxy, hzx]
  rw [hphase]
  refine Cmd.settles_phase (Bool.of_not_eq_false fun hs => ?_)
  exact hne z (List.mem_filter.mpr ⟨List.mem_filter.mpr ⟨hz, decide_eq_true hzq⟩, by rw [hs]; rfl⟩) rfl

/-- The forced stop leaves no command of the queue that lingers. -/
theorem forceStop_cmds (s : State) (q : Nat) : ∀ y ∈ (s.forceStop q).cmds, y.q = q → y.lingers = false := by
  intro y hy hq
  obtain ⟨z, hz, hzx, hne⟩ := (foldl_abortCmd _ s).2 y hy
  have hzq : z.q = q := by rw [hzx] at hq; exact hq
  have hl : y.lingers = z.lingers := by rw [hzx]; rfl
  rw [hl]
  refine Bool.of_not_eq_true fun hs => ?_
  exact hne z (List.mem_filter.mpr ⟨List.mem_filter.mpr ⟨hz, decide_eq_true hzq⟩, hs⟩) rfl

/-! ### Writes of the queue registers -/

theorem State.queueWrite_of {s : State} {q : QueueId} (h : queueWritable s q) (off value : Nat) (f : State → State) :
    s.queueWrite q off value f = f s := by
  obtain ⟨hup, hmode, hbuf⟩ := h
  unfold State.queueWrite
  rw [if_neg (by rw [hup]; simp), if_pos ⟨hmode, hbuf⟩]

/-- The record of a queue that is enabled: at index 0 after a change of its ring, else where it stood (R85). -/
def Queue.started (u : Queue) : Queue :=
  let v := { u with enable := true, copies := [], stalls := [], turnsLeft := 0, freshStart := false, homeLost := false }
  if u.freshStart then { v with headIx := 0, headWrap := false, tailIx := 0, tailWrap := false } else v

/-- A queue that passes the checks starts (R85). -/
theorem enableQueue_of {s : State} {q : Nat} (he : (s.queue q).enable = false) (hok : s.enableError q = none) :
    s.enableQueue q = ((s.setQueue q (s.queue q).started).onSlc (s.queue q).slice fun y => { y with qUsed := y.qUsed + 1 }).fenceKnown q := by
  unfold State.enableQueue Queue.started
  simp only [he, hok, Bool.false_eq_true, if_false]
  cases (s.queue q).freshStart <;> rfl

/-- No fence waits for a ring: knowing the ring changes no command. -/
theorem fenceKnown_cmds {s : State} {q : Nat} (h : ∀ y ∈ s.cmds, ∀ os, y.prog ≠ .fenceHold os) : (s.fenceKnown q).cmds = s.cmds := by
  have hmap : ∀ y ∈ s.cmds, (match y.prog with
      | .fenceHold os => if y.f 4 2 = q then { y with prog := .fenceWait ((s.queue q).fenceLeft y) os } else y
      | _ => y) = y := by
    intro y hy
    split
    next os hos => exact absurd hos (h y hy os)
    next => rfl
  exact (List.map_congr_left hmap).trans (List.map_id' _)

/-! ### Interrupts (R83) -/

theorem msix_lost {s : State} {p v : Nat} (h : s.portUp (tid p) = false) : s.msix p v = s := by
  rw [State.msix, if_pos (.inr h)]

theorem msix_sent {s : State} {p v : Nat} (hm : s.dev.mode ≠ .halt) (hp : s.portUp (tid p) = true)
    (hv : v ∉ (s.tile (tid p)).msixMask) : s.msix p v = s.emit (.msix p v) := by
  rw [State.msix, if_neg (by simp [hm, hp]), if_neg (by simpa using hv)]

theorem msix_masked {s : State} {p v : Nat} (hm : s.dev.mode ≠ .halt) (hp : s.portUp (tid p) = true)
    (hv : v ∈ (s.tile (tid p)).msixMask) :
    s.msix p v = s.onTile (tid p) fun x => { x with msixPend := v :: x.msixPend.filter fun w => decide (w ≠ v) } := by
  rw [State.msix, if_neg (by simp [hm, hp]), if_pos (by simpa using hv)]

/-- Settles O25: a stale completion is dropped and counted; a register write that lands enables, disables or resets its queue; a reset's
steps leave the queue's record and its commands as they say; the timer sends what `msix` sends. -/
theorem queuesStopAndEmpty : Obligations.QueuesStopAndEmpty := by
  unfold Obligations.QueuesStopAndEmpty
  refine ⟨fun s c x f hc hd hm hstale => ?stale,
    ⟨fun s q hw he hok => ?starts, fun s q e hw he hbad => ?refused, fun s q hw he => ?stops⟩,
    ⟨fun s q hw hb hh => ?begins, fun s q hw hb hh => ?lost, fun s q hb => ?forced, fun s q hb hs => ?ends⟩,
    ?timer, fun s q hd => ?early, fun s q hw => ?clear⟩
  case stale =>
    have href : x.ref = c := by simpa using List.find?_some hc
    simp only [exec, execCommandComplete, hc, hd, hm, and_self, if_true, commandCompleteEff]
    rw [if_pos hstale]
    refine ⟨_, rfl, ?_⟩
    rw [href]
    have hq (f : Queue → Queue) (g : Slice → Slice) (p : Nat) :
        (((s.onQueue x.q f).onSlc x.slice g).retire c).queue p = (s.onQueue x.q f).queue p :=
      State.queue_congr (by rw [retire_frame]; rfl) p
    refine ⟨by rw [retire_frame]; rfl, retire_cmd? _ c, ?_, ?_, fun p hp => ?_, by rw [retire_frame]; rfl, by rw [retire_frame]; rfl⟩
    · rw [hq, State.queue_onQueue_self]
    · rw [retire_slc, State.slc_onSlc_self]; rfl
    · rw [hq, State.queue_onQueue_ne s hp]
  case starts =>
    simp only [exec, execQueueEnable, State.queueWrite_of hw, enableQueue_of he hok]
    refine ⟨_, rfl, ?_⟩
    have hself (w : Queue) (g : Slice → Slice) : (((s.setQueue q.val w).onSlc (s.queue q.val).slice g).fenceKnown q.val).queue q.val = w :=
      s.queue_setQueue_self q.val w
    have hne (w : Queue) (g : Slice → Slice) (p : Nat) (hp : p ≠ q.val) :
      (((s.setQueue q.val w).onSlc (s.queue q.val).slice g).fenceKnown q.val).queue p = s.queue p := s.queue_setQueue_ne hp w
    have hslc (w : Queue) (g : Slice → Slice) :
      (((s.setQueue q.val w).onSlc (s.queue q.val).slice g).fenceKnown q.val).slc (s.queue q.val).slice = g (s.slc (s.queue q.val).slice) :=
      (s.setQueue q.val w).slc_onSlc_self _ g
    simp only [hself, hslc, Queue.started]
    refine ⟨?_, ?_, fun hf => ?_, fun hf => ?_, trivial, hne _ _, rfl, fun h => fenceKnown_cmds h⟩
    · split <;> rfl
    · split <;> rfl
    · rw [if_pos hf]; exact ⟨rfl, rfl⟩
    · rw [if_neg (by rw [hf]; exact Bool.false_ne_true)]; exact ⟨rfl, rfl⟩
  case refused =>
    simp only [exec, execQueueEnable, State.queueWrite_of hw, State.enableQueue]
    rw [if_neg (by rw [he]; exact Bool.false_ne_true), hbad]
    rfl
  case stops =>
    simp only [exec, execQueueDisable, State.queueWrite_of hw, State.disableQueue, he]
    rfl
  case begins =>
    simp only [exec, execQueueReset, State.queueWrite_of hw, resetBegin_eq hb, hh, Bool.false_eq_true, if_false]
    refine ⟨_, rfl, ?_⟩
    have hq : (s.resetStopped q.val).registerAll.queue q.val = (s.resetStopped q.val).queue q.val :=
      State.queue_congr (by rw [registerAll_frame]) _
    rw [hq, resetStopped_queue]
    refine ⟨rfl, rfl, rfl, rfl, rfl, fun y hy hyq => ?_⟩
    obtain ⟨x, hx, hyx⟩ := registerAll_cmd y hy
    rw [hyx] at hyq ⊢
    exact resetStopped_cmds s q.val x hx hyq
  case lost =>
    simp only [exec, execQueueReset, State.queueWrite_of hw, resetBegin_eq hb, hh, if_true]
    refine ⟨_, rfl, ?_⟩
    have hq : ((s.resetStopped q.val).resetEnd q.val).registerAll.queue q.val = ((s.resetStopped q.val).resetEnd q.val).queue q.val :=
      State.queue_congr (by rw [registerAll_frame]) _
    rw [hq, resetEnd_queue, resetStopped_queue]
    refine ⟨rfl, rfl, rfl, rfl, rfl, fun y hy => ?_⟩
    obtain ⟨x, hx, hyx⟩ := registerAll_cmd y hy
    rw [hyx]
    exact resetEnd_cmds _ q.val x hx
  case forced =>
    simp only [exec, execQueueResetForceStop, hb, if_true]
    refine ⟨_, rfl, fun y hy hyq => ?_⟩
    obtain ⟨x, hx, hyx⟩ := registerAll_cmd y hy
    rw [hyx] at hyq ⊢
    exact forceStop_cmds s q.val x hx hyq
  case ends =>
    simp only [exec, execQueueResetDone, hb, hs, and_self, if_true]
    refine ⟨_, rfl, ?_⟩
    have hq : (s.resetEnd q.val).registerAll.queue q.val = (s.resetEnd q.val).queue q.val := State.queue_congr (by rw [registerAll_frame]) _
    rw [hq, resetEnd_queue]
    refine ⟨rfl, rfl, rfl, rfl, rfl, rfl, rfl, fun y hy => ?_⟩
    obtain ⟨x, hx, hyx⟩ := registerAll_cmd y hy
    rw [hyx]
    exact resetEnd_cmds _ q.val x hx
  case timer =>
    intro s q hd u p sent
    simp only [exec, execQueueIrqTimer, hd, if_true, State.queueIrq]
    refine ⟨fun hm hp hv => ?_, fun hm hp hv => ?_, fun hp => ?_⟩
    · rw [msix_sent hm hp hv]; rfl
    · rw [msix_masked hm hp hv]
      refine ⟨_, rfl, fun v => ?_, fun k hk => State.onTile_tile_ne s hk _, rfl⟩
      rw [State.onTile_tile]
      by_cases h : v = u.vector <;> simp [h, u, p]
    · rw [msix_lost hp]
  case early => simp only [exec, execQueueIrqTimer, hd, Bool.false_eq_true, if_false]
  case clear => simp only [exec, execRingFaultClear, State.queueWrite_of hw]

end Sys2Proof.Machine
end

section
/-!
Commands that end, and SEG_WRITE, SEG_READ and SEG_COPY (R111, R143, R155 to R158).
-/
namespace Sys2Proof.Machine

/-! ### Records and completions -/

/-- An interrupt adds to the outputs at most. -/
theorem msix_out (s : State) (p v : Nat) : ∃ more, (s.msix p v).out = s.out ++ more := by
  unfold State.msix
  split
  · exact ⟨[], (List.append_nil _).symm⟩
  · split
    · exact ⟨[], (List.append_nil _).symm⟩
    · exact ⟨[_], rfl⟩

theorem logErr_out (s : State) (t : TileId) (r : ErrRec) : ∃ more, (s.logErr t r).out = s.out ++ more := by
  unfold State.logErr
  split
  · exact ⟨[], (List.append_nil _).symm⟩
  · dsimp only
    split
    · exact msix_out (s.onTile t _) _ _
    · exact ⟨[], (List.append_nil _).symm⟩

/-- A record leaves every tile but its ERR block and its pending interrupts. -/
theorem logErr_tile_any (s : State) (t : TileId) (r : ErrRec) (u : TileId) :
    (s.logErr t r).tile u = { s.tile u with err := ((s.logErr t r).tile u).err, msixPend := ((s.logErr t r).tile u).msixPend } := by
  by_cases h : u = t
  · subst h
    rw [logErr_tile]
    split <;> rfl
  · rw [logErr_tile_ne s t r h]

/-- A completion that is formed: its status and its result stand in the command, which waits for its write (R79, R102). -/
theorem finish_ended {s : State} {c : CmdRef} {x : Cmd} (k : Completion) (h : s.cmd? c = some x) :
    endedIn (s.finish c k) c k.status k.result := by
  have hform (t : State) (ht : t.cmds = s.cmds) : endedIn
      (t.onCmd c fun y => { y with phase := .done, prog := .idle, comp := { k with tstamp := t.now } }) c k.status k.result :=
    ⟨_, onCmd_cmd? _ (fun _ => rfl) ((cmd?_congr c ht).trans h), rfl, rfl, rfl⟩
  unfold State.finish
  rw [h]
  dsimp only
  split
  · exact hform s rfl
  · exact hform _ (by rw [logErr_frame])
  · exact hform s rfl

theorem finish_tile (s : State) (c : CmdRef) (k : Completion) (u : TileId) :
    (s.finish c k).tile u = { s.tile u with err := ((s.finish c k).tile u).err, msixPend := ((s.finish c k).tile u).msixPend } := by
  unfold State.finish
  split
  · rfl
  · split
    · rfl
    · exact logErr_tile_any ..
    · rfl

/-- A command that ends changes no stored byte. -/
theorem finish_cell (s : State) (c : CmdRef) (k : Completion) (a : Nat) : (s.finish c k).cell? a = s.cell? a :=
  cell?_congr a (by rw [finish_tile]) (by rw [finish_frame])

theorem finish_out (s : State) (c : CmdRef) (k : Completion) : ∃ more, (s.finish c k).out = s.out ++ more := by
  unfold State.finish
  split
  · exact ⟨[], (List.append_nil _).symm⟩
  · split
    · exact ⟨[], (List.append_nil _).symm⟩
    · exact logErr_out ..
    · exact ⟨[], (List.append_nil _).symm⟩

theorem failHost_frame (s : State) (c : CmdRef) (e : HostErr) (parts : List (Nat × Nat)) (off fault : Nat) :
    s.failHost c e parts off fault = { s with
      cmds := (s.failHost c e parts off fault).cmds, tiles := (s.failHost c e parts off fault).tiles
      out := (s.failHost c e parts off fault).out } := finish_frame ..

theorem seg_congr {s t : State} (h : t.segs = s.segs) (j : Nat) : t.seg j = s.seg j := by
  rw [State.seg, State.seg, h]

theorem storedIn_congr {s t u : State} {g : Seg} {off : Nat} {bs : List Byte} (h : ∀ a, u.cell? a = t.cell? a) (hs : storedIn s t g off bs) :
    storedIn s u g off bs :=
  ⟨fun i hi a ha => (h a).trans (hs.1 i hi a ha), fun a ha => (h a).trans (hs.2 a ha)⟩

/-- The command with poisoned data ends, whatever record is written before. -/
theorem failPoison_eq {s : State} {c : CmdRef} {x : Cmd} (off addr : Nat) (h : s.cmd? c = some x) :
    s.failPoison c off addr = (s.logErr (tid x.home) (x.errRecord evEccUncorrectable stUncorrectable addr)).finish c
      { status := stUncorrectable, detail := 0, result := leBytes 8 off } := by
  unfold State.failPoison
  rw [h]; rfl

theorem failPoison_ended {s : State} {c : CmdRef} {x : Cmd} (off addr : Nat) (h : s.cmd? c = some x) :
    endedIn (s.failPoison c off addr) c stUncorrectable (leBytes 8 off) := by
  rw [failPoison_eq off addr h]
  exact finish_ended _ ((cmd?_congr c (by rw [logErr_frame])).trans h)

theorem logErr_cell (s : State) (t : TileId) (r : ErrRec) (a : Nat) : (s.logErr t r).cell? a = s.cell? a :=
  cell?_congr a (by rw [logErr_tile_any]) (by rw [logErr_frame])

/-- A command that ends on poisoned data leaves the store as it was, and adds to the outputs at most. -/
theorem failPoison_store {s : State} {c : CmdRef} {x : Cmd} (off addr : Nat) (h : s.cmd? c = some x) :
    (∀ a, (s.failPoison c off addr).cell? a = s.cell? a) ∧ (s.failPoison c off addr).mem = s.mem ∧
    (s.failPoison c off addr).segs = s.segs ∧ ∃ more, (s.failPoison c off addr).out = s.out ++ more := by
  rw [failPoison_eq off addr h]
  obtain ⟨m1, h1⟩ := logErr_out s (tid x.home) (x.errRecord evEccUncorrectable stUncorrectable addr)
  refine ⟨fun a => (finish_cell ..).trans (logErr_cell ..), ?_, ?_, ?_⟩
  · rw [finish_frame, logErr_frame]
  · rw [finish_frame, logErr_frame]
  · obtain ⟨m2, h2⟩ := finish_out (s.logErr (tid x.home) (x.errRecord evEccUncorrectable stUncorrectable addr)) c
      { status := stUncorrectable, detail := 0, result := leBytes 8 off }
    exact ⟨m1 ++ m2, by rw [h2, h1, List.append_assoc]⟩

/-! ### A segment's store -/

@[simp] theorem length_cut (bs : List Byte) (off n : Nat) : (cut bs off n).length = n := by
  simp only [cut, List.length_append, List.length_take, List.length_drop, List.length_replicate]
  omega

theorem unitFloor_le (a o : Nat) : unitFloor a o ≤ o := by
  unfold unitFloor; omega

/-- DIRTY is set where a byte was stored (R163); every other entry stays. -/
theorem segStore_segs (s : State) (n : Nat) (g : Seg) (off : Nat) (bs : List Byte) :
    (s.segStore n g off bs).seg n = { s.seg n with dirty := (s.seg n).dirty || !bs.isEmpty } ∧
    ∀ j, j ≠ n → (s.segStore n g off bs).seg j = s.seg j := by
  cases bs with
  | nil =>
    rw [segStore_nil, List.isEmpty_nil, Bool.not_true, Bool.or_false]
    exact ⟨rfl, fun _ _ => rfl⟩
  | cons b bs =>
    have h := segStore_seg s n g off (b :: bs) (List.cons_ne_nil b bs)
    refine ⟨?_, fun j hj => by rw [h, if_neg hj]⟩
    rw [h, if_pos rfl, List.isEmpty_cons, Bool.not_false, Bool.or_true]

theorem segStore_cmd? (s : State) (n : Nat) (g : Seg) (off : Nat) (bs : List Byte) (c : CmdRef) :
    (s.segStore n g off bs).cmd? c = s.cmd? c := cmd?_congr c (by rw [segStore_frame])

/-- A read after a write gives the bytes written (R157). -/
theorem segBytes_stored {s t : State} {g : Seg} {off : Nat} {bs : List Byte} (hl : g.laid) (hs : storedIn s t g off bs) {u : Nat} (hu : u < 8) :
    t.segBytes u g off bs.length = bs := by
  refine List.ext_getElem (by simp [State.segBytes]) fun i h1 h2 => ?_
  simp only [State.segBytes, List.getElem_map, List.getElem_range, State.storeByte]
  rw [hs.1 i h2 _ (readLoc_mem t hl hu _)]
  rfl

/-- Settles O10: the bytes go to their places by `segStore`, and only then does the command end. -/
theorem segWriteStoresItsBytes : Obligations.SegWriteStoresItsBytes := by
  unfold Obligations.SegWriteStoresItsBytes
  intro s c x src hf hr id off g hl
  have hc := fresh?_cmd hf
  have href := cmd?_ref hc
  have heff : exec (.segWrite c src) s = .next (segWriteEff x src s) := by simp only [exec, execSegWrite, hf]
  rw [heff, segWriteEff, if_neg (by rw [hr]; simp)]
  refine ⟨?stored, ?refused⟩
  case stored =>
    intro hok bs hn
    have hst := segStore_stored s id g off bs hl hn
    obtain ⟨hself, hother⟩ := segStore_segs s id g off bs
    rw [hok]
    refine ⟨s.segStore id g off bs, ?_, hst, fun h hh => segBytes_stored hl hst hh, hself, hother, segStore_frame .., segStore_tile s id g off bs⟩
    exact congrArg _ ((succeed_formed _ (by rw [href, segStore_cmd?, hc])).trans (by rw [href]))
  case refused =>
    intro e o herr m hn
    have hlen : (cut src.bytes 0 m).length = m := length_cut ..
    have hst := segStore_stored s id g off (cut src.bytes 0 m) hl (by rw [hlen]; exact hn)
    rw [herr]
    dsimp only
    refine ⟨_, rfl, ?_, storedIn_congr (fun a => finish_cell ..) hst, fun j hj => ?_, ?_⟩
    · rw [href]
      exact finish_ended _ ((segStore_cmd? ..).trans hc)
    · rw [← (segStore_segs s id g off (cut src.bytes 0 m)).2 j hj]
      exact seg_congr (by rw [failHost_frame]) j
    · rw [failHost_frame]
      dsimp only
      rw [segStore_frame]

/-! ### SEG_READ and SEG_COPY -/

theorem segReadEff_eq {x : Cmd} {s : State} (wfail : Option Nat) (hr : s.reachable [x.f 4 4] = true) :
    segReadEff x wfail s =
      let g := s.segFor x (x.f 4 4)
      let n := (x.dref 16).total
      let p := s.poisonAt x.home g (x.f 8 8) n
      let bs := s.segBytes x.home g (x.f 8 8) (p.getD n)
      match faultIn (p.getD n) wfail with
      | some o => (s.dmaOut x (x.stream 16) bs (some o)).failHost x.ref .translation (x.stream 16) o o
      | none =>
        match p with
        | some o => (s.dmaOut x (x.stream 16) bs none).failPoison x.ref o (s.readLoc x.home g (x.f 8 8 + o))
        | none => (s.dmaOut x (x.stream 16) bs none).succeed x.ref (leBytes 8 n) := by
  unfold segReadEff
  exact if_neg (by rw [hr]; simp)

theorem poisonAt_lt {s : State} {t : Nat} {g : Seg} {off n o : Nat} (h : s.poisonAt t g off n = some o) : o < n := by
  unfold State.poisonAt at h
  split at h
  · cases h
  · exact List.mem_range.mp (List.mem_of_find?_eq_some h)

/-- Settles O11: SEG_READ gives its bytes to the host before it ends; SEG_COPY stores what it read by `segStore`. -/
theorem segReadAndCopyMoveTheBytes : Obligations.SegReadAndCopyMoveTheBytes := by
  unfold Obligations.SegReadAndCopyMoveTheBytes
  refine ⟨?read, ?copy⟩
  case read =>
    intro s c x hf hr g n sent
    have hc := fresh?_cmd hf
    have href := cmd?_ref hc
    have heff (wfail : Option Nat) : exec (.segRead c wfail) s = .next (segReadEff x wfail s) := by simp only [exec, execSegRead, hf]
    refine ⟨fun hp wfail hw => ?all, fun hp o ho => ?host, fun p hp => ?poison⟩ <;> rw [heff, segReadEff_eq _ hr] <;> dsimp only <;> rw [hp]
    case all =>
      have hfault : faultIn n wfail = none := by
        cases wfail with
        | none => rfl
        | some o => simp [faultIn, hw o rfl]
      dsimp only [Option.getD_none]
      rw [hfault, href]
      exact congrArg _ (succeed_formed (s := sent (s.segBytes x.home g (x.f 8 8) n)) _ hc)
    case host =>
      have hfault : faultIn n (some o) = some o := by simp [faultIn, ho]
      dsimp only [Option.getD_none]
      rw [hfault, href]
      dsimp only
      refine ⟨_, rfl, finish_ended (s := sent ((s.segBytes x.home g (x.f 8 8) n).take o)) _ hc, finish_out .., ?_, ?_⟩
      · rw [failHost_frame]; rfl
      · rw [failHost_frame]; rfl
    case poison =>
      have hfault : faultIn p none = none := rfl
      dsimp only [Option.getD_some]
      rw [hfault, href]
      obtain ⟨-, hmem, hsegs, hout⟩ := failPoison_store (s := sent (s.segBytes x.home g (x.f 8 8) p)) p
        (s.readLoc x.home g (x.f 8 8 + p)) hc
      exact ⟨_, rfl, failPoison_ended (s := sent (s.segBytes x.home g (x.f 8 8) p)) _ _ hc, hout, hmem, hsegs⟩
  case copy =>
    intro s c x hf hr g h hraw hl hn
    have hc := fresh?_cmd hf
    have href := cmd?_ref hc
    have hlen (m : Nat) : (s.segBytes x.home g (x.f 16 8) m).length = m := by simp [State.segBytes]
    have heff : exec (.segCopy c) s = .next (segCopyEff x s) := by simp only [exec, execSegCopy, hf]
    rw [heff, segCopyEff, if_neg (by rw [hr]; simp), if_neg hraw]
    refine ⟨?good, ?bad⟩
    case good =>
      intro hp bs
      rw [hp]
      have hst := segStore_stored s (x.f 8 4) h (x.f 24 8) bs hl (by rw [hlen]; exact hn)
      obtain ⟨hself, hother⟩ := segStore_segs s (x.f 8 4) h (x.f 24 8) bs
      refine ⟨s.segStore (x.f 8 4) h (x.f 24 8) bs, ?_, hst, hself, hother, segStore_frame ..⟩
      exact congrArg _ ((succeed_formed _ (by rw [href, segStore_cmd?, hc])).trans (by rw [href]))
    case bad =>
      intro o hp m
      rw [hp]
      have hm : m ≤ o := unitFloor_le ..
      have ho := poisonAt_lt hp
      have hst := segStore_stored s (x.f 8 4) h (x.f 24 8) (s.segBytes x.home g (x.f 16 8) m) hl (by rw [hlen]; omega)
      have hc' := (segStore_cmd? s (x.f 8 4) h (x.f 24 8) (s.segBytes x.home g (x.f 16 8) m) c).trans hc
      rw [href]
      obtain ⟨hcell, -, hsegs, -⟩ := failPoison_store m (s.readLoc x.home g (x.f 16 8 + o)) hc'
      refine ⟨_, rfl, failPoison_ended _ _ hc', storedIn_congr hcell hst, fun j hj => ?_⟩
      exact (seg_congr hsegs j).trans ((segStore_segs ..).2 j hj)

end Sys2Proof.Machine
end

section
/-!
The draining of staging buffers, SEG_FLUSH, directory records and FENCE (R132 to R134, R157, R159, R161, R162).
-/
namespace Sys2Proof.Machine

/-! ### Drains (R157) -/

/-- A drain takes from its tile's buffer the bytes that it names, and leaves every other buffer. -/
theorem drainTile_staging (s : State) (p : Nat → Bool) (t u : TileId) (a : Nat) :
    memRead ((s.drainTile p t).tile u).staging a =
      if u = t ∧ p a = true ∧ addrTile a = t.val then none else memRead (s.tile u).staging a := by
  unfold State.drainTile
  by_cases hu : u = t
  · subst hu
    rw [State.onTile_tile]
    refine (memRead_filter _ _ a (!(p a && addrTile a == u.val)) fun c _ e => by subst e; rfl).trans ?_
    by_cases h : p a = true ∧ addrTile a = u.val
    · rw [if_pos (c := u = u ∧ _) ⟨rfl, h⟩, if_neg (by simp [h.1, h.2])]
    · rw [if_neg (c := u = u ∧ _) (fun h' => h h'.2), if_pos (by simpa [Decidable.imp_iff_not_or] using h)]; rfl
  · rw [State.onTile_tile_ne _ hu, if_neg fun h => hu h.1]; rfl

/-- A drain changes in the store memory the bytes that it names alone. -/
theorem drainTile_mem (s : State) (p : Nat → Bool) (t : TileId) {a : Nat} (h : p a = false ∨ addrTile a ≠ t.val) :
    memRead (s.drainTile p t).mem a = memRead s.mem a := by
  have hnone : memRead ((s.tile t).staging.filter fun c => p c.1 && addrTile c.1 == t.val) a = none := by
    rw [memRead_filter _ _ a false fun c _ e => by subst e; simpa [Decidable.imp_iff_not_or] using h]; rfl
  exact (memRead_foldr ..).trans (by rw [hnone]; rfl)

/-- What a drain of every buffer leaves: the other fields, each tile but its buffer, each buffer but the bytes named, and the store memory
but at the bytes named. -/
theorem foldl_drainTile (p : Nat → Bool) (l : List TileId) (s : State) :
    let t := l.foldl (fun s u => s.drainTile p u) s
    t = { s with mem := t.mem, tiles := t.tiles } ∧ (∀ u, t.tile u = { s.tile u with staging := (t.tile u).staging }) ∧
    (∀ u a, memRead (t.tile u).staging a = if u ∈ l ∧ p a = true ∧ addrTile a = u.val then none else memRead (s.tile u).staging a) ∧
    (∀ a, p a = false → memRead t.mem a = memRead s.mem a) := by
  induction l generalizing s with
  | nil => exact ⟨rfl, fun _ => rfl, fun u a => by rw [if_neg (by simp)]; rfl, fun _ _ => rfl⟩
  | cons v l ih =>
    obtain ⟨hf, ht, hs, hm⟩ := ih (s.drainTile p v)
    refine ⟨by rw [List.foldl_cons, hf]; rfl, fun u => by rw [List.foldl_cons, ht, drainTile_tile], fun u a => ?_, fun a ha => ?_⟩
    · rw [List.foldl_cons, hs, drainTile_staging]
      by_cases hu : u = v
      · subst hu
        by_cases hA : p a = true ∧ addrTile a = u.val
        · rw [if_pos (c := u = u ∧ _) ⟨rfl, hA⟩, if_pos (c := u ∈ u :: l ∧ _) ⟨List.mem_cons_self, hA⟩, ite_self]
        · rw [if_neg fun h => hA h.2, if_neg fun h => hA h.2, if_neg fun h => hA h.2]
      · rw [if_neg (c := u = v ∧ _) fun h => hu h.1]
        simp only [List.mem_cons, hu, false_or]
    · rw [List.foldl_cons, hm a ha, drainTile_mem _ _ _ (.inl ha)]

theorem mem_allTiles (u : TileId) : u ∈ allTiles := by revert u; decide

theorem drainWhere_frame (s : State) (p : Nat → Bool) :
    s.drainWhere p = { s with mem := (s.drainWhere p).mem, tiles := (s.drainWhere p).tiles } := (foldl_drainTile p allTiles s).1

theorem drainWhere_tile (s : State) (p : Nat → Bool) (u : TileId) :
    (s.drainWhere p).tile u = { s.tile u with staging := ((s.drainWhere p).tile u).staging } := (foldl_drainTile p allTiles s).2.1 u

theorem drainWhere_staging (s : State) (p : Nat → Bool) (u : TileId) (a : Nat) :
    memRead ((s.drainWhere p).tile u).staging a = if p a = true ∧ addrTile a = u.val then none else memRead (s.tile u).staging a := by
  refine ((foldl_drainTile p allTiles s).2.2.1 u a).trans ?_
  simp [mem_allTiles]

theorem drainWhere_mem (s : State) (p : Nat → Bool) {a : Nat} (h : p a = false) : memRead (s.drainWhere p).mem a = memRead s.mem a :=
  (foldl_drainTile p allTiles s).2.2.2 a h

/-- A byte that a drain names stands in the store memory after it as every read saw it before. -/
theorem drainWhere_drained (s : State) (p : Nat → Bool) {a : Nat} (h : p a = true) (h8 : addrTile a < 8) :
    memRead (s.drainWhere p).mem a = s.cell? a := by
  have htid : (tid (addrTile a)).val = addrTile a := Nat.mod_eq_of_lt h8
  have hnone : memRead ((s.drainWhere p).tile (tid (addrTile a))).staging a = none := by
    rw [drainWhere_staging, if_pos ⟨h, htid.symm⟩]
  rw [← drainWhere_cell s p a, State.cell?, hnone]

/-! ### SEG_FLUSH (R134, R161, R162) -/

/-- A drain moves no segment and no expander. -/
theorem expandersOf_drain (s : State) (p : Nat → Bool) (ids : List Nat) : (s.bump.drainWhere p).expandersOf ids = s.expandersOf ids := by
  have htile (u : TileId) : ((s.bump.drainWhere p).tile u).cxl = (s.tile u).cxl := by rw [drainWhere_tile]; rfl
  have hseg (i : Nat) : (s.bump.drainWhere p).seg i = s.seg i := seg_congr (by rw [drainWhere_frame]; rfl) i
  simp only [State.expandersOf, State.expanderOf, Tile.regionAt, htile, hseg]

theorem inSegs_drain (s : State) (p : Nat → Bool) (ids : List Nat) (a : Nat) : (s.bump.drainWhere p).inSegs ids a = s.inSegs ids a := by
  have hseg (i : Nat) : (s.bump.drainWhere p).seg i = s.seg i := seg_congr (by rw [drainWhere_frame]; rfl) i
  simp only [State.inSegs, hseg]

/-- Writing the cells of a canonical memory one by one leaves each of its bytes, and the other bytes as they were. -/
theorem memRead_foldl {cs : List Host.Cell} (h : Memory.wf cs = true) (m : Mem) (a : Nat) :
    memRead (cs.foldl (fun m c => memWrite m c.1 c.2) m) a = (memRead cs a).orElse fun _ => memRead m a := by
  induction cs generalizing m with
  | nil => rfl
  | cons c cs ih =>
    obtain ⟨k, v⟩ := c
    obtain ⟨habove, hwf⟩ := tblWf_cons.mp h
    rw [List.foldl_cons, ih hwf, memRead_write]
    by_cases hk : a = k
    · subst hk
      have hnone : tblFind cs a = none := tblFind_above habove (Nat.le_refl _)
      simp [hnone, memRead, tblFind]
    · have hcons : memRead ((k, v) :: cs) a = memRead cs a := by simp [memRead, tblFind, Ne.symm hk]
      rw [if_neg hk, hcons]

@[simp] theorem seg_noteSeg_self (s : State) (n : Nat) (f : Seg → Seg) : (s.noteSeg n f).seg n = f (s.seg n) := tblGet_set_self ..

theorem seg_noteSeg_ne (s : State) {n j : Nat} (h : j ≠ n) (f : Seg → Seg) : (s.noteSeg n f).seg j = s.seg j := tblGet_set_ne _ _ h _

/-- The bytes that a flush made durable: those of its snapshot that lie in the segments that no later flush has covered (R134). -/
theorem makeDurable_durable (s : State) (ids : List Nat) (f : Flush) (hw : Memory.wf f.snap = true) (a : Nat) :
    memRead (s.makeDurable ids f).durable a =
      if s.inSegs (ids.filter fun i => decide ((s.seg i).flushed ≤ f.began)) a then memRead f.snap a else memRead s.durable a := by
  have hfold (l : List Nat) (u : State) : (l.foldl (fun s i => s.noteSeg i fun g => { g with flushed := f.began }) u).durable = u.durable :=
    foldl_keeps State.durable (fun s i => s.noteSeg i fun g => { g with flushed := f.began }) (fun _ _ => rfl) l u
  unfold State.makeDurable
  dsimp only
  rw [hfold]
  generalize ids.filter (fun i => decide ((s.seg i).flushed ≤ f.began)) = good
  rw [memRead_foldl (memFilter_wf hw _), memRead_filter _ _ a (s.inSegs good a) (fun c _ e => by subst e; rfl),
    memRead_filter _ _ a (!s.inSegs good a) (fun c _ e => by subst e; rfl)]
  cases s.inSegs good a with
  | true => cases memRead f.snap a <;> rfl
  | false => rfl

/-- A flush that becomes durable changes of the segments the model's own note alone. -/
theorem makeDurable_frame (s : State) (ids : List Nat) (f : Flush) :
    s.makeDurable ids f = { s with durable := (s.makeDurable ids f).durable, segs := (s.makeDurable ids f).segs } ∧
    ∀ i, (s.makeDurable ids f).seg i = { s.seg i with flushed := ((s.makeDurable ids f).seg i).flushed } := by
  unfold State.makeDurable
  refine List.foldlRecOn (motive := fun t : State => t = { s with durable := t.durable, segs := t.segs } ∧
    ∀ i, t.seg i = { s.seg i with flushed := (t.seg i).flushed }) _ _ ⟨rfl, fun _ => rfl⟩ fun t ht j _ => ?_
  obtain ⟨hf, hs⟩ := ht
  refine ⟨by rw [hf]; rfl, fun i => ?_⟩
  by_cases h : i = j
  · subst h; rw [seg_noteSeg_self, hs]
  · rw [seg_noteSeg_ne _ h]; exact hs i

theorem flushGo_more {s : State} {c : CmdRef} {f : Flush} (h : f.phases ≠ []) :
    s.flushGo c f = s.onCmd c fun y => { y with prog := .flush f } := by
  rw [State.flushGo, if_neg (by simpa using h)]

/-- The last phase of a flush whose segments are all well completes it. -/
theorem flushGo_done {s : State} {c : CmdRef} {x : Cmd} {f : Flush} (hc : s.cmd? c = some x) (hp : f.phases = [])
    (h : ∀ i ∈ f.segs, s.flushedWell f i = true) :
    s.flushGo c f = (s.makeDurable f.segs f).formed c { result := leBytes 4 f.segs.length } := by
  have hgood : f.segs.filter (s.flushedWell f) = f.segs := List.filter_eq_self.mpr h
  rw [State.flushGo, if_pos (by rw [hp]; rfl), hgood, if_pos rfl]
  exact succeed_formed _ ((cmd?_congr c (by rw [(makeDurable_frame ..).1])).trans hc)

/-- A flush with a segment whose expander failed ends as failed (R162). -/
theorem flushGo_failed {s : State} {c : CmdRef} {f : Flush} (hp : f.phases = []) (h : ∃ i ∈ f.segs, s.flushedWell f i = false) :
    ∃ r, s.flushGo c f = (s.makeDurable (f.segs.filter (s.flushedWell f)) f).finish c { status := stUncorrectable, result := r } := by
  obtain ⟨i, hi, hbad⟩ := h
  have hlt : (f.segs.filter (s.flushedWell f)).length ≠ f.segs.length := by
    intro he
    have := (List.length_filter_eq_length_iff.mp he) i hi
    rw [hbad] at this
    cases this
  rw [State.flushGo, if_pos (by rw [hp]; rfl), if_neg hlt]
  exact ⟨_, rfl⟩

/-- An expander that fails ends the flush that waits for it alone, with PERSIST_FAILED as the tile's last record (R162). -/
theorem gpfFail_persistFailed {s : State} {c : CmdRef} {x : Cmd} {k : TileId} {n : Nat} {f : Flush} (hc : s.cmd? c = some x)
    (hp : (f.drop k n).phases = []) (hseg : ∃ i ∈ f.segs, (addrTile (s.seg i).base, s.expanderOf (s.seg i)) = (k.val, n))
    (hev : (s.tile k).evidence = none) : persistFailed s c k n (s.gpfFail c k n f) := by
  obtain ⟨s1, hs1⟩ : ∃ s1, s1 = s.logPersist k n := ⟨_, rfl⟩
  have hframe : s1 = { s with tiles := s1.tiles, out := s1.out } := by
    rw [hs1]
    exact logErr_frame ..
  have hc1 : s1.cmd? c = some x := (cmd?_congr c (by rw [hframe])).trans hc
  have hsegs (i : Nat) : s1.seg i = s.seg i := seg_congr (by rw [hframe]) i
  have hring : (s1.tile k).err.ring.getLast?.any (fun r => r.event == evPersistFailed && r.index == n % 256) = true := by
    rw [hs1, State.logPersist, logErr_tile, hev, if_neg (by simp)]
    dsimp only
    rw [Err.push, ringPush_last]
    simp [errRec, evPersistFailed]
  obtain ⟨i, hi, hik⟩ := hseg
  have hexp : s1.expanderOf (s1.seg i) = s.expanderOf (s.seg i) := by
    have htile (u : TileId) : (s1.tile u).cxl = (s.tile u).cxl := by rw [hs1, State.logPersist, logErr_tile_any]
    simp only [State.expanderOf, Tile.regionAt, htile, hsegs]
  have hbad : s1.flushedWell { f.drop k n with failed := f.failed ++ [(k.val, n)] } i = false := by
    rw [State.flushedWell, hexp, hsegs, hik]
    simp
  obtain ⟨r, hgo⟩ := flushGo_failed (s := s1) (c := c) (f := { f.drop k n with failed := f.failed ++ [(k.val, n)] }) hp ⟨i, hi, hbad⟩
  rw [State.gpfFail, ← hs1, hgo]
  generalize hl : List.filter _ _ = good
  obtain ⟨hd, -⟩ := makeDurable_frame s1 good { f.drop k n with failed := f.failed ++ [(k.val, n)] }
  generalize s1.makeDurable good _ = s2 at hd
  have hc2 : s2.cmd? c = some x := (cmd?_congr c (by rw [hd])).trans hc1
  have hquiet : statusEvent stUncorrectable = none := by decide
  rw [finish_quiet hc2 hquiet]
  obtain ⟨y, hy, hdone, hstatus, -⟩ := finish_ended { status := stUncorrectable, result := r } hc2
  rw [finish_quiet hc2 hquiet] at hy
  refine ⟨⟨y, hy, hdone, hstatus⟩, ?_, ?_, ?_⟩
  · have ht : (s2.formed c { status := stUncorrectable, result := r }).tile k = s1.tile k := by
      show s2.tile k = _
      rw [hd]; rfl
    rw [ht]; exact hring
  · show s2.queues = _
    rw [hd, hframe]
  · show s2.mem = _
    rw [hd, hframe]

/-! ### Directory records (R159) -/

/-- Work that ends leaves each command under its reference. -/
theorem endsWork.cmd? {s t : State} (h : endsWork s t) {c : CmdRef} {x : Cmd} (hx : s.cmd? c = some x) : ∃ y, t.cmd? c = some y := by
  obtain ⟨-, g, hg, hgy⟩ := h
  have href (y : Cmd) : (g y).ref = y.ref := by rw [hgy]
  have hmap : t.cmd? c = (s.onCmd c g).cmd? c := by
    unfold State.cmd? State.onCmd
    rw [hg]
    generalize s.cmds = l
    induction l with
    | nil => rfl
    | cons a l ih =>
      simp only [List.map_cons, List.find?_cons]
      by_cases ha : a.ref = c
      · simp [ha, href]
      · simp [ha, href, ih]
  exact ⟨g x, hmap.trans (onCmd_cmd? g href hx)⟩

theorem clearSeg_invalid (s : State) (n : Nat) : ((s.clearSeg n).seg n).valid = false := by
  unfold State.clearSeg
  dsimp only
  split
  next h => simpa using h
  next =>
    rw [revoteAll_frame]
    have h (u : State) : (((u.setSeg n {}).seg n)).valid = false := by rw [seg_setSeg, if_pos rfl]
    exact h _

theorem dirSettle_durable {s : State} (w : DirWait) (h : Memory.wf s.mem = true) (a : Nat) :
    memRead (s.dirSettle w).durable a =
      if s.dirBase w.phase.tile w.phase.expander + 64 * w.slot ≤ a ∧ a < s.dirBase w.phase.tile w.phase.expander + 64 * w.slot + 64
      then memRead s.mem a else memRead s.durable a := by
  have hd : (s.dirSettle w).durable = (s.dirDurable w.phase.tile w.phase.expander w.slot).durable := by
    unfold State.dirSettle
    dsimp only
    split
    · exact (State.clearSeg_kept _ _).2.2.2
    · rfl
  rw [hd]
  unfold State.dirDurable
  dsimp only
  generalize s.dirBase w.phase.tile w.phase.expander + 64 * w.slot = lo
  rw [memRead_foldl (memFilter_wf h _), memRead_filter _ _ a (decide (lo ≤ a ∧ a < lo + 64)) (fun c _ e => by subst e; rfl), memRead_erase]
  by_cases hin : lo ≤ a ∧ a < lo + 64
  · rw [if_pos (decide_eq_true hin), if_pos hin, if_neg (by omega)]
    cases memRead s.mem a <;> rfl
  · rw [if_neg (by simpa using hin), if_neg hin, if_pos (by omega)]; rfl

/-- Both phases of a record are done: its command ends, its slot is durable, and a segment taken out is free. -/
theorem dirDone_ended {s : State} {c : CmdRef} {x : Cmd} (w : DirWait) (hc : s.cmd? c = some x) (hw : Memory.wf s.mem = true) :
    endedIn (s.dirDone c w) c stSuccess w.result ∧ (s.dirDone c w).mem = s.mem ∧
    (w.removal = true → ((s.dirDone c w).seg w.segid).valid = false) ∧ (w.removal = false → (s.dirDone c w).segs = s.segs) ∧
    ∀ a, memRead (s.dirDone c w).durable a =
      if s.dirBase w.phase.tile w.phase.expander + 64 * w.slot ≤ a ∧ a < s.dirBase w.phase.tile w.phase.expander + 64 * w.slot + 64
      then memRead s.mem a else memRead s.durable a := by
  have hs := endsWork.dirSettle s w
  obtain ⟨y, hy⟩ := hs.cmd? hc
  have hfin : s.dirDone c w = (s.dirSettle w).finish c { status := stSuccess, result := w.result } := rfl
  have hsegs : (s.dirDone c w).segs = (s.dirSettle w).segs := by rw [hfin, finish_frame]
  refine ⟨finish_ended _ hy, ?_, fun hr => ?_, fun hr => ?_, fun a => ?_⟩
  · rw [hfin, finish_frame]
    show (s.dirSettle w).mem = s.mem
    rw [hs.1]
  · rw [seg_congr hsegs]
    unfold State.dirSettle
    dsimp only
    rw [if_pos hr]
    exact clearSeg_invalid ..
  · rw [hsegs]
    unfold State.dirSettle
    dsimp only
    rw [hr]; rfl
  · rw [← dirSettle_durable w hw a, hfin, finish_frame]

/-! ### FENCE (R132, R133) -/

theorem exec_fence {s : State} {c : CmdRef} {os : List Nat} (h : s.progOp? c 0x26 = some (.fenceWait 0 os)) :
    exec (.fence c) s = .next (if s.cmds.any fun y => decide (y.ref ≠ c) && os.contains y.order then s else s.succeed c []) := by
  simp only [exec, execFence, h]

/-- Settles O12: drains by what `drainTile` moves, flushes by `flushGo` and `makeDurable`, directory records by `dirSettle`, and FENCE by its one
condition. -/
theorem stagingDrainsFlushesAndFences : Obligations.StagingDrainsFlushesAndFences := by
  unfold Obligations.StagingDrainsFlushesAndFences
  refine ⟨fun s t line hl hm => ?drain, ⟨fun s c x hf he => ?flushNone, ?flushSome, fun s c x k n f p hr hx hp => ⟨fun h1 => ?second, fun h1 hd => ?drop,
    fun h1 hd hgood hw => ?last, fun hd hseg hev => ?failed⟩, ?dir⟩, ⟨fun s c os h => ⟨fun hall => ?fence, fun hex => ?waits⟩, fun s c n os h => ?holds⟩⟩
  case drain =>
    simp only [exec, execStagingDrain, hl, hm, and_self, if_true]
    refine ⟨_, rfl, drainWhere_cell s _, fun a hline htile => ?_, fun a h => drainWhere_mem s _ ?_, drainWhere_frame .., drainWhere_tile s _⟩
    · rw [drainWhere_staging, if_pos ⟨by simp [hline, htile], htile⟩]
    · simpa [Decidable.imp_iff_not_or] using h
  case flushNone =>
    have hc := fresh?_cmd hf
    have href := cmd?_ref hc
    simp only [exec, execSegFlush, hf, segFlushEff, expandersOf_drain, he, List.isEmpty_nil, if_true, href]
    have hframe := drainWhere_frame s.bump (s.inSegs (s.flushScope x))
    refine ⟨s.bump.drainWhere (s.inSegs (s.flushScope x)), ?_, hframe, fun a => drainWhere_cell s.bump _ a⟩
    exact congrArg _ (succeed_formed _ ((cmd?_congr c (by rw [hframe]; rfl)).trans hc))
  case flushSome =>
    intro s c x hf he es
    have href := cmd?_ref (fresh?_cmd hf)
    have hes : (s.expandersOf (s.flushScope x)).isEmpty = false := by simpa using he
    have hframe := drainWhere_frame s.bump (s.inSegs (s.flushScope x))
    have htick : (s.bump.drainWhere (s.inSegs (s.flushScope x))).tick = s.tick + 1 := by rw [hframe]; rfl
    have hout : (s.bump.drainWhere (s.inSegs (s.flushScope x))).out = s.out := by rw [hframe]; rfl
    have hcell := drainWhere_cell s.bump (s.inSegs (s.flushScope x))
    have hmem (a : Nat) (hin : s.inSegs (s.flushScope x) a = true) (h8 : addrTile a < 8) :=
      drainWhere_drained s.bump (s.inSegs (s.flushScope x)) hin h8
    simp only [exec, execSegFlush, hf, segFlushEff, expandersOf_drain, inSegs_drain, hes, Bool.false_eq_true, if_false, href, htick]
    generalize s.bump.drainWhere (s.inSegs (s.flushScope x)) = d at hframe htick hout hcell hmem
    refine ⟨d.emitAll (es.map fun p => .gpf p.1 p.2 1), rfl, ?_, hcell, hmem⟩
    rw [State.emitAll, hout, hframe]; rfl
  case second =>
    have hne : (f.second k n).phases ≠ [] := by
      intro h
      have := List.mem_of_find?_eq_some hp
      rw [List.map_eq_nil_iff.mp h] at this
      cases this
    simp only [exec, execGpfPhaseDone, gpfEff, hr, hx, hp, State.flushPhase, h1, if_true, Bool.false_eq_true, if_false]
    rw [flushGo_more hne]; rfl
  case drop =>
    simp only [exec, execGpfPhaseDone, gpfEff, hr, hx, hp, State.flushPhase, h1, Bool.false_eq_true, if_false, flushGo_more hd]
  case last =>
    have hc := running?_cmd hr
    simp only [exec, execGpfPhaseDone, gpfEff, hr, hx, hp, State.flushPhase, h1, Bool.false_eq_true, if_false]
    obtain ⟨hframe, hsegs⟩ := makeDurable_frame s (f.drop k n).segs (f.drop k n)
    have hw' : Memory.wf (f.drop k n).snap = true := hw
    refine ⟨s.makeDurable (f.drop k n).segs (f.drop k n), congrArg _ (flushGo_done hc hd hgood), hframe, hsegs, fun a ha => ?_, fun hall a ha => ?_⟩
    · have hin : s.inSegs ((f.drop k n).segs.filter fun i => decide ((s.seg i).flushed ≤ (f.drop k n).began)) a = false := by
        refine List.any_eq_false.mpr fun i hi => ?_
        exact List.any_eq_false.mp ha i (List.mem_filter.mp hi).1
      rw [makeDurable_durable _ _ _ hw', hin]; rfl
    · have hin : (f.drop k n).segs.filter (fun i => decide ((s.seg i).flushed ≤ (f.drop k n).began)) = f.segs :=
        List.filter_eq_self.mpr fun i hi => decide_eq_true (hall i hi)
      rw [makeDurable_durable _ _ _ hw', hin, ha]; rfl
  case failed =>
    have hc := running?_cmd hr
    have heff : gpfEff c k n true s = s.gpfFail c k n f := by simp only [gpfEff, hr, hx, hp, State.flushPhase, if_true]
    have hfail := gpfFail_persistFailed hc hd hseg hev
    simp only [exec, execGpfPhaseDone, execGpfTimeout, heff]
    exact ⟨⟨_, rfl, hfail⟩, _, rfl, hfail⟩
  case dir =>
    intro s c x k n w hr hx ht hn
    have heff : exec (.gpfPhaseDone c k n false) s = .next (if w.phase.phase = 1 then
        (s.emit (.gpf k.val n 2)).onCmd c fun y => { y with prog := .dirWait { w with phase := { w.phase with phase := 2 } } }
        else s.dirDone c w) := by
      simp only [exec, execGpfPhaseDone, gpfEff, hr, hx, State.dirPhase, ht, hn]
      rw [if_neg (by simp), if_neg Bool.false_ne_true]
    refine ⟨fun h1 => ?_, fun h1 hmem => ?_⟩
    · rw [heff, if_pos h1]; rfl
    · rw [heff, if_neg h1]
      obtain ⟨hmw, -⟩ := Bool.and_eq_true_iff.mp hmem
      obtain ⟨hend, hm, hrem, hkeep, hdur⟩ := dirDone_ended w (running?_cmd hr) hmw
      rw [ht, hn] at hdur
      exact ⟨_, rfl, hend, hm, hrem, hkeep, hdur⟩
  case fence =>
    obtain ⟨x, hc, -⟩ := progOp?_cmd h
    have hnone : s.cmds.any (fun y => decide (y.ref ≠ c) && os.contains y.order) = false := by
      refine List.any_eq_false.mpr fun y hy => ?_
      rcases hall y hy with h | h <;> simp [h]
    rw [exec_fence h, hnone]
    exact congrArg _ (succeed_formed [] hc)
  case waits =>
    obtain ⟨y, hy, hne, hin⟩ := hex
    have hsome : s.cmds.any (fun y => decide (y.ref ≠ c) && os.contains y.order) = true :=
      List.any_eq_true.mpr ⟨y, hy, by simp [hne, hin]⟩
    rw [exec_fence h, hsome]; rfl
  case holds => rcases h with h | h <;> simp only [exec, execFence, h]

end Sys2Proof.Machine
end

section
/-!
COMMAND_START (R97, R98, R107, R131, R132, R327).
-/
namespace Sys2Proof.Machine

/-- A command that names no segment and passes its checks starts. -/
theorem plainStart_starts {u : State} {x : Cmd} {fetched : List HostRead} (votes : List VoteSeen) (h21 : x.op ≠ 0x21) (h31 : x.op ≠ 0x31)
    (h32 : x.op ≠ 0x32) (hsegs : x.segFields = []) (hobj : u.objectCheck x = none) (hlen : fetched.length = u.listCount x)
    (hlist : u.listStatus x fetched = none) (hfrags : u.freeingFrags x fetched = []) (hunit : u.unitOk x = true) :
    u.plainStart x fetched votes = u.onCmd x.ref fun y => { y with
      phase := .started, lists := x.keptLists fetched, named := u.namedBy x (x.keptLists fetched)
      prog := if x.op = 0x26 then u.fenceProg x else .idle } := by
  simp only [State.plainStart, hsegs, State.lookup, hobj, firstFail, State.lastChecks, hlist, hfrags, hunit, if_true]
  rw [if_neg (by simpa using hlen), if_neg (by simp), State.startCmd]
  split
  · exact absurd ‹_› h21
  · exact absurd ‹_› h31
  · exact absurd ‹_› h32
  · rfl

/-- An entry of the Buckle table or the prefetch buffer that is lost ends the command (R327). -/
theorem startEcc_lost {s : State} {c : CmdRef} {x : Cmd} {e : EccUnit} (he : e ≠ .imageStore) (hc : s.cmd? c = some x) :
    (s.startEcc x (some (e, .uncorrectable))).2 = false ∧ endedIn (s.startEcc x (some (e, .uncorrectable))).1 c stUncorrectable [] := by
  have heq : s.startEcc x (some (e, .uncorrectable)) =
      ((s.logErr (tid x.home) (x.errRecord evEccUncorrectable stUncorrectable 0)).finish x.ref { status := stUncorrectable }, false) := by
    cases e with
    | imageStore => exact absurd rfl he
    | _ => rfl
  rw [heq]
  refine ⟨rfl, ?_⟩
  rw [cmd?_ref hc]
  exact finish_ended _ ((cmd?_congr c (by rw [logErr_frame])).trans hc)

theorem BRange.conflicts_of {a b : BRange} (hs : a.seg = b.seg) (ho : ∃ o, a.lo ≤ o ∧ o < a.hi ∧ b.lo ≤ o ∧ o < b.hi)
    (hw : a.write = true ∨ b.write = true) : a.conflicts b = true := by
  obtain ⟨o, h1, h2, h3, h4⟩ := ho
  simp only [BRange.conflicts, Bool.and_eq_true, Bool.or_eq_true, beq_iff_eq, decide_eq_true_eq]
  exact ⟨⟨hs, by omega⟩, hw⟩

/-- An earlier command that blocks keeps a command from starting (R97, R98, R131). -/
theorem mayStart_blocked {s : State} {x y : Cmd} (hy : y ∈ s.earlier x) (hb : y.blocks x = true) : s.mayStart x = false := by
  have hall : (s.earlier x).all (fun y => !y.blocks x) = false := List.all_eq_false.mpr ⟨y, hy, by simp [hb]⟩
  rw [State.mayStart, hall, Bool.and_false]

/-- Settles O13, by the checks of a start that names no segment and the blocking of an earlier command. -/
theorem commandsStartInOrder : Obligations.CommandsStartInOrder := by
  unfold Obligations.CommandsStartInOrder
  refine ⟨?starts, ?blocked⟩
  case starts =>
    intro s c x fetched votes ecc hc hmay u
    have hexec : exec (.commandStart c fetched ⟨votes, ecc⟩) s = .next (if (s.startEcc x ecc).2 = false then u
        else if (u.slc x.slice).st = .failed then u.finish c { status := stUncorrectable }
        else if x.op = 0x32 then u.queryStart x fetched votes else u.plainStart x fetched votes) := by
      simp only [exec, execCommandStart, hc, hmay, if_true, u]
    refine ⟨fun hgo hfailed h21 h31 h32 hsegs hobj hlen hlist hfrags hunit => ?_, fun hecc => ?_, fun e he hecc => ?_⟩
    · rw [hexec, if_neg (by rw [hgo]; simp), if_neg hfailed, if_neg h32,
        plainStart_starts votes h21 h31 h32 hsegs hobj hlen hlist hfrags hunit, cmd?_ref hc]
    · rcases hecc with rfl | ⟨e, rfl⟩
      · exact ⟨rfl, rfl⟩
      · cases e <;> exact ⟨rfl, rfl⟩
    · subst hecc
      obtain ⟨hstop, hend⟩ := startEcc_lost he hc
      rw [hexec, if_pos hstop]
      exact ⟨_, rfl, hend⟩
  case blocked =>
    intro s c x y fetched votes ecc hc hy hb
    have hblocks : y.blocks x = true := by
      simp only [Cmd.blocks, Bool.or_eq_true, List.any_eq_true]
      rcases hb with h | h | h | h | ⟨a, ha, b, hb, hs, ho, hw⟩
      · simp [h]
      · simp [h]
      · simp [h]
      · simp [h]
      · exact .inr ⟨a, ha, b, hb, BRange.conflicts_of hs ho hw⟩
    simp only [exec, execCommandStart, hc, mayStart_blocked hy hblocks, Bool.false_eq_true, if_false]

end Sys2Proof.Machine
end

section
/-!
The slice commands (R118, R119, R441 to R443, R451 to R455).
-/
namespace Sys2Proof.Machine

/-! ### Tables -/

theorem mem_of_tblFind {α : Type} {t : Tbl α} {k : Nat} {v : α} (h : tblFind t k = some v) : (k, v) ∈ t := by
  induction t with
  | nil => cases h
  | cons e t ih =>
    obtain ⟨j, w⟩ := e
    rw [tblFind] at h
    split at h
    next hj => cases h; rw [hj]; exact List.mem_cons_self
    next => exact List.mem_cons_of_mem _ (ih h)

/-- A fold that takes nothing from the entry of a key takes the same from the table with another such entry. -/
theorem foldl_tblPut {α β : Type} (g : β → Nat × α → β) {k : Nat} {v : α} (hv : ∀ b, g b (k, v) = b) (t : Tbl α)
    (ht : ∀ b w, tblFind t k = some w → g b (k, w) = b) (b : β) : (tblPut t k v).foldl g b = t.foldl g b := by
  induction t generalizing b with
  | nil => exact hv b
  | cons e t ih =>
    obtain ⟨j, w⟩ := e
    rw [tblPut]
    split
    · rw [List.foldl_cons, hv]
    · split
      next hkj =>
        subst hkj
        rw [List.foldl_cons, List.foldl_cons, hv, ht b w (by rw [tblFind, if_pos rfl])]
      next hkj =>
        rw [List.foldl_cons, List.foldl_cons]
        refine ih (fun b w' hw' => ht b w' ?_) _
        rw [tblFind, if_neg (Ne.symm hkj)]
        exact hw'

theorem any_tblPut {α : Type} (p : Nat × α → Bool) {k : Nat} (hk : ∀ w, p (k, w) = false) (t : Tbl α) (v : α) :
    (tblPut t k v).any p = t.any p := by
  induction t with
  | nil => simp [tblPut, hk]
  | cons e t ih =>
    obtain ⟨j, w⟩ := e
    rw [tblPut]
    split
    · simp [hk]
    · split
      next hkj => subst hkj; simp [hk]
      next => simp [ih]

/-! ### The turn of a slice command (R441, R442) -/

/-- The state in which a slice command acts: it holds its slice. -/
def State.taken (s : State) (x : Cmd) : State := s.onSlc x.sl fun y => { y with busy := some x.ref }

theorem taken_slc (s : State) (x : Cmd) : (s.taken x).slc x.sl = { s.slc x.sl with busy := some x.ref } := s.slc_onSlc_self _ _

theorem taken_slc_ne (s : State) (x : Cmd) {n : Nat} (h : n ≠ x.sl) : (s.taken x).slc n = s.slc n := s.slc_onSlc_ne h _

theorem taken_slices (s : State) (x : Cmd) : (s.taken x).slices = tblPut s.slices x.sl { s.slc x.sl with busy := some x.ref } := by
  show tblSet _ _ _ _ = _
  rw [tblSet, if_neg]
  intro h
  exact Option.some_ne_none x.ref (congrArg Slice.busy h)

theorem taken_status (s : State) (x : Cmd) : (s.taken x).sliceStatus x = s.sliceStatus x := by
  simp only [State.sliceStatus, taken_slc]

/-- A slice command whose turn it is, on a slice that allows it, acts. -/
theorem sliceRun_ready {s : State} {x : Cmd} (h : sliceReady s x) (f : State → State) : s.sliceRun x f = f (s.taken x) := by
  obtain ⟨hturn, hst⟩ := h
  have hst' : (s.onSlc x.sl fun y => { y with busy := some x.ref }).sliceStatus x = none := (taken_status s x).trans hst
  unfold State.sliceRun
  rw [if_pos hturn]
  dsimp only
  rw [hst']; rfl

theorem fresh?_prog {s : State} {c : CmdRef} {op : Nat} {x : Cmd} (h : s.fresh? c op = some x) : x.prog = .idle := by
  unfold State.fresh? at h
  split at h
  · split at h
    next hp => cases h; exact hp
    next => cases h
  · cases h

theorem fresh?_op {s : State} {c : CmdRef} {op : Nat} {x : Cmd} (h : s.fresh? c op = some x) : x.op = op := by
  have h := fresh?_running h
  unfold State.runningOp? at h
  split at h
  · split at h
    next hp => cases h; exact hp
    next => cases h
  · cases h

/-! ### SLICE_CREATE (R118, R443) -/

/-- Taking a free slice changes no check of its creation. -/
theorem taken_createCheck {s : State} {x : Cmd} (h10 : x.op = 0x10) (hst : s.sliceStatus x = none) :
    (s.taken x).createCheck x = s.createCheck x := by
  have hfree : (s.slc x.sl).st = .free := by
    unfold State.sliceStatus at hst
    dsimp only at hst
    split at hst
    · cases hst
    · simpa [need, sliceFrom, h10] using hst
  have hpasid : (s.taken x).pasidBound (x.f 8 4) x.sl = s.pasidBound (x.f 8 4) x.sl := by
    rw [State.pasidBound, taken_slices]
    exact any_tblPut _ (fun w => by simp) _ _
  have hsum (f : Slice → Nat) : (s.taken x).tenantSum f = s.tenantSum f := by
    rw [State.tenantSum, taken_slices]
    refine foldl_tblPut (k := x.sl) (v := { s.slc x.sl with busy := some x.ref })
      (fun a e => if e.1 = 0 ∨ e.2.st = .free then a else a + f e.2) (fun b => if_pos (Or.inr hfree)) s.slices
      (fun b w hw => if_pos (Or.inr ?_)) 0
    have : s.slc x.sl = w := by rw [State.slc, tblGet, hw]; rfl
    rw [← this]; exact hfree
  have hzero : (s.taken x).slc 0 = { s.slc 0 with busy := ((s.taken x).slc 0).busy } := by
    by_cases h0 : 0 = x.sl
    · rw [h0, taken_slc]
    · rw [taken_slc_ne s x h0]
  have hcap (t : Nat) : (s.taken x).tierCapacity t = s.tierCapacity t := rfl
  have hquota : (s.taken x).quotasFit x.newSlice = s.quotasFit x.newSlice := by
    unfold State.quotasFit
    rw [hzero]
    simp only [hsum, hcap]
  simp only [State.createCheck, taken_status, hpasid, hquota]

/-- Where slice 0 holds no persistent segment for a PASID, the slice that binds it adopts none (R160). -/
theorem adopt_none {s : State} {n p : Nat}
    (h : ∀ e ∈ s.segs, e.2.valid = true → e.2.persistent = true → e.2.slice = 0 → e.2.ownerPasid ≠ some p) : s.adopt n p = s := by
  have hnil : s.validSegs.filter (fun e => e.2.persistent && e.2.slice == 0 && e.2.ownerPasid == some p) = [] := by
    refine List.filter_eq_nil_iff.mpr fun e he => ?_
    obtain ⟨hmem, hvalid⟩ := List.mem_filter.mp he
    simp only [Bool.and_eq_true, beq_iff_eq, not_and]
    exact fun hps => h e hmem hvalid hps.1 hps.2
  rw [State.adopt, hnil]; rfl

@[simp] theorem State.slc_setSlc_self (s : State) (n : Nat) (v : Slice) : (s.setSlc n v).slc n = v := tblGet_set_self ..

theorem State.slc_setSlc_ne (s : State) {m n : Nat} (h : m ≠ n) (v : Slice) : (s.setSlc n v).slc m = s.slc m := tblGet_set_ne _ _ h _

/-! ### Freeze, reset and thaw (R451, R453, R455) -/

/-- What is found under a reference after a command has been changed. -/
theorem cmd?_onCmd (s : State) (c d : CmdRef) (f : Cmd → Cmd) (hf : ∀ y, (f y).ref = y.ref) :
    (s.onCmd c f).cmd? d = (s.cmd? d).map fun y => if y.ref = c then f y else y := by
  unfold State.cmd? State.onCmd
  rw [List.find?_map]
  have hp : (fun x : Cmd => decide (x.ref = d)) ∘ (fun y => if y.ref = c then f y else y) = fun x => decide (x.ref = d) := by
    funext y
    rw [Function.comp_apply]
    split
    · rw [hf]
    · rfl
  rw [hp]

/-- A command that waits is quiet for its slice as it was. -/
theorem holdSlice_quiet (s : State) (c : CmdRef) (n m : Nat) : (s.holdSlice c n).sliceQuiet m = s.sliceQuiet m := by
  have hcmd (d : CmdRef) : ((s.holdSlice c n).cmd? d).all (fun y => y.slice != m) = (s.cmd? d).all (fun y => y.slice != m) := by
    have h := cmd?_onCmd (s.onSlc n fun y => { y with busy := some c, noFetch := true }) c d
      (fun y => { y with prog := .sliceWait n 0 }) fun _ => rfl
    rw [State.holdSlice, h]
    show Option.all _ (Option.map _ (s.cmd? d)) = _
    cases s.cmd? d with
    | none => rfl
    | some y => rw [Option.map_some]; split <;> rfl
  have htile (t : TileId) : (s.holdSlice c n).tile t = s.tile t := rfl
  simp only [State.sliceQuiet, htile, hcmd]

theorem holdSlice_startedQueries (s : State) (c : CmdRef) (n m : Nat) : (s.holdSlice c n).startedQueries m = s.startedQueries m := by
  unfold State.startedQueries State.holdSlice State.onCmd
  dsimp only [State.onSlc_cmds]
  rw [List.filter_map, List.length_map]
  congr 1
  refine List.filter_congr fun y _ => ?_
  rw [Function.comp_apply]
  split <;> rfl

/-- Two updates of one command are one. -/
theorem onCmd_onCmd (s : State) (c : CmdRef) (f g : Cmd → Cmd) (hf : ∀ y, (f y).ref = y.ref) :
    (s.onCmd c f).onCmd c g = s.onCmd c fun y => g (f y) := by
  simp only [State.onCmd, List.map_map]
  congr 1
  refine List.map_congr_left fun y _ => ?_
  rw [Function.comp_apply]
  by_cases h : y.ref = c
  · rw [if_pos h, if_pos h, if_pos ((hf y).trans h)]
  · rw [if_neg h, if_neg h, if_neg h]

theorem State.onCmd_slc (s : State) (c : CmdRef) (f : Cmd → Cmd) (n : Nat) : (s.onCmd c f).slc n = s.slc n := (rfl)

/-- The slice that a command takes and holds. -/
theorem taken_holdSlice (s : State) (x : Cmd) :
    ((s.taken x).holdSlice x.ref x.sl).slc x.sl = { s.slc x.sl with noFetch := true, busy := some x.ref } ∧
    ∀ n, n ≠ x.sl → ((s.taken x).holdSlice x.ref x.sl).slc n = s.slc n := by
  refine ⟨?_, fun n hn => ?_⟩
  · rw [State.holdSlice, State.onCmd_slc, State.slc_onSlc_self, taken_slc]
  · rw [State.holdSlice, State.onCmd_slc, State.slc_onSlc_ne _ hn, taken_slc_ne s x hn]

/-- The end of a reset of a slice whose queues have all been reset (R451). -/
theorem sliceResetEnd_of {s : State} {c : CmdRef} {x : Cmd} {n : Nat} (hc : s.cmd? c = some x) (h : s.resetsDone n = true) :
    s.sliceResetEnd c n = (s.onSlc n fun y => { y with st := .active, noFetch := false }).formed c { result := leBytes 2 (s.slc n).gen } := by
  rw [State.sliceResetEnd, if_pos h]
  exact succeed_formed _ hc

theorem registerAll_cmd? {s : State} {c : CmdRef} {x : Cmd} (h : s.cmd? c = some x) : ∃ y, s.registerAll.cmd? c = some y := by
  have hkeep : ∀ t : State, (∃ y, t.cmd? c = some y) → ∀ z, ∃ y, (t.tryRegister z).cmd? c = some y := by
    intro t ⟨y, hy⟩ z
    unfold State.tryRegister
    split
    · exact ⟨y, hy⟩
    · dsimp only
      split
      · rw [cmd?_onCmd, hy]
        · exact ⟨_, rfl⟩
        · exact fun _ => rfl
      · exact ⟨y, hy⟩
  exact List.foldlRecOn (motive := fun t : State => ∃ y, t.cmd? c = some y) s.cmds _ ⟨x, h⟩ fun t ht z _ => hkeep t ht z

/-! ### SLICE_DESTROY (R452) -/

theorem orphanQueue_queue (s : State) (q : Nat) :
    ((s.orphanQueue q).queue q).slice = 0 ∧ (∀ p, p ≠ q → (s.orphanQueue q).queue p = s.queue p) ∧
    s.orphanQueue q = { s with queues := (s.orphanQueue q).queues, slices := (s.orphanQueue q).slices } := by
  have hdis : (∀ p, p ≠ q → (s.disableQueue q).queue p = s.queue p) ∧
      s.disableQueue q = { s with queues := (s.disableQueue q).queues, slices := (s.disableQueue q).slices } := by
    unfold State.disableQueue
    dsimp only
    split
    · exact ⟨fun _ _ => rfl, rfl⟩
    · exact ⟨fun p hp => s.queue_setQueue_ne hp _, rfl⟩
  obtain ⟨hne, hframe⟩ := hdis
  refine ⟨?_, fun p hp => ?_, ?_⟩
  · rw [State.orphanQueue, State.queue_onQueue_self]
  · rw [State.orphanQueue, State.queue_onQueue_ne _ hp, hne p hp]
  · rw [State.orphanQueue, hframe]; rfl

/-- After a list of queues is orphaned, a queue of a tenant slice is not on the list and was the slice's before. -/
theorem foldl_orphanQueue {n : Nat} (hn : n ≠ 0) (l : List Nat) (s : State) :
    let t := l.foldl State.orphanQueue s
    t = { s with queues := t.queues, slices := t.slices } ∧ ∀ p, (t.queue p).slice = n → (s.queue p).slice = n ∧ p ∉ l := by
  induction l generalizing s with
  | nil => exact ⟨rfl, fun p h => ⟨h, List.not_mem_nil⟩⟩
  | cons q l ih =>
    obtain ⟨hzero, hne, hframe⟩ := orphanQueue_queue s q
    obtain ⟨hf, hp⟩ := ih (s.orphanQueue q)
    refine ⟨?_, fun p h => ?_⟩
    · rw [List.foldl_cons, hf, hframe]
    · obtain ⟨hs, hl⟩ := hp p h
      by_cases hpq : p = q
      · subst hpq
        exact absurd (hs.symm.trans hzero) hn
      · rw [hne p hpq] at hs
        exact ⟨hs, fun hm => (List.mem_cons.mp hm).elim hpq hl⟩

theorem mem_queuesOf {s : State} {n q : Nat} (hn : n ≠ 0) (h : (s.queue q).slice = n) : q ∈ s.queuesOf n := by
  unfold State.queue tblGet at h
  cases hf : tblFind s.queues q with
  | none => rw [hf] at h; exact absurd h.symm hn
  | some u =>
    rw [hf] at h
    exact List.mem_map.mpr ⟨_, List.mem_filter.mpr ⟨mem_of_tblFind hf, decide_eq_true h⟩, rfl⟩

/-- A segment that changes its owner: work ends in the sense that queues and commands stay, and no other entry changes. -/
theorem giveSeg_seg (s : State) (id m : Nat) :
    endsWork s (s.giveSeg id m) ∧ ((s.giveSeg id m).seg id).slice = m ∧ ∀ j, j ≠ id → (s.giveSeg id m).seg j = s.seg j := by
  unfold State.giveSeg
  dsimp only
  refine ⟨((endsWork.onSlc ..).trans (.onSlc ..)).trans (.setSeg ..), ?_, fun j hj => ?_⟩
  · rw [State.onSeg, seg_setSeg, if_pos rfl]
  · rw [State.onSeg, seg_setSeg, if_neg hj]; rfl

theorem clearSeg_seg_ne (s : State) {n j : Nat} (h : j ≠ n) : (s.clearSeg n).seg j = s.seg j := by
  have hset (u : State) : (u.setSeg n {}).revoteAll.seg j = u.seg j := by
    rw [seg_congr (show _ = (u.setSeg n {}).segs by rw [revoteAll_frame]), seg_setSeg, if_neg h]
  unfold State.clearSeg
  dsimp only
  split
  · rfl
  · rw [hset]
    split
    · exact seg_congr rfl j
    · exact seg_congr rfl j

/-- A segment of a slice that goes is freed, or passes to slice 0. -/
theorem leaveSeg_seg (s : State) (id : Nat) :
    endsWork s (s.leaveSeg id) ∧ (((s.leaveSeg id).seg id).valid = true → ((s.leaveSeg id).seg id).slice = 0) ∧
    ∀ j, j ≠ id → (s.leaveSeg id).seg j = s.seg j := by
  unfold State.leaveSeg
  split
  · obtain ⟨hw, hs, hne⟩ := giveSeg_seg s id 0
    exact ⟨hw, fun _ => hs, hne⟩
  next hp =>
    have hfree : s.freeSeg id = s.clearSeg id := by
      rw [State.freeSeg, if_neg (by simp [hp])]
    rw [hfree]
    exact ⟨.clearSeg .., fun h => absurd h (by simp [clearSeg_invalid]), fun j hj => clearSeg_seg_ne s hj⟩

theorem foldl_leaveSeg {n : Nat} (hn : n ≠ 0) (l : List Nat) (s : State) :
    endsWork s (l.foldl State.leaveSeg s) ∧
    ∀ j, ((l.foldl State.leaveSeg s).seg j).valid = true → ((l.foldl State.leaveSeg s).seg j).slice = n →
      (s.seg j).valid = true ∧ (s.seg j).slice = n ∧ j ∉ l := by
  induction l generalizing s with
  | nil => exact ⟨.refl s, fun j hv h => ⟨hv, h, List.not_mem_nil⟩⟩
  | cons a l ih =>
    obtain ⟨hw, hzero, hne⟩ := leaveSeg_seg s a
    obtain ⟨hw', hj⟩ := ih (s.leaveSeg a)
    refine ⟨hw.trans hw', fun j hv h => ?_⟩
    obtain ⟨hv', hs, hl⟩ := hj j hv h
    by_cases hja : j = a
    · subst hja
      exact absurd (hs.symm.trans (hzero hv')) hn
    · rw [hne j hja] at hv' hs
      exact ⟨hv', hs, fun hm => (List.mem_cons.mp hm).elim hja hl⟩

theorem mem_segsOf {s : State} {n j : Nat} (hv : (s.seg j).valid = true) (h : (s.seg j).slice = n) : j ∈ s.segsOf n := by
  unfold State.seg tblGet at hv h
  cases hf : tblFind s.segs j with
  | none => rw [hf] at hv; cases hv
  | some g =>
    rw [hf] at hv h
    exact List.mem_map.mpr ⟨_, List.mem_filter.mpr ⟨List.mem_filter.mpr ⟨mem_of_tblFind hf, hv⟩, decide_eq_true h⟩, rfl⟩

/-- An image that is removed leaves its handle empty; images, commands and what tiles keep of it change. -/
theorem uninstall_image (s : State) (h : Nat) :
    tblGet (s.uninstall h).images h none = none ∧ (∀ k, k ≠ h → tblGet (s.uninstall h).images k none = tblGet s.images k none) ∧
    s.uninstall h = { s with images := (s.uninstall h).images, cmds := (s.uninstall h).cmds, tiles := (s.uninstall h).tiles } ∧
    (s.uninstall h).cmds = s.cmds.map fun y => if y.phase = .fetched ∧ y.op = 0x32 ∧ y.f 4 4 = h then { y with goneImage := true } else y := by
  have hfold (f : TileId → Tile → Tile) (l : List TileId) (u : State) :
      (l.foldl (fun s t => s.onTile t (f t)) u) = { u with tiles := (l.foldl (fun s t => s.onTile t (f t)) u).tiles } := by
    refine List.foldlRecOn (motive := fun v : State => v = { u with tiles := v.tiles }) l _ rfl fun v hv t _ => ?_
    rw [hv]; rfl
  have himages : (s.uninstall h).images = tblSet none s.images h none := by rw [State.uninstall, hfold]
  refine ⟨?_, fun k hk => ?_, ?_, ?_⟩
  · rw [himages, tblGet_set_self]
  · rw [himages, tblGet_set_ne _ _ hk]
  · rw [State.uninstall, hfold]
  · rw [State.uninstall, hfold]

theorem uninstall_cmd? {s : State} {c : CmdRef} {x : Cmd} (h : Nat) (hc : s.cmd? c = some x) : ∃ y, (s.uninstall h).cmd? c = some y := by
  obtain ⟨-, -, -, hcmds⟩ := uninstall_image s h
  have hfind : (s.uninstall h).cmd? c =
      (s.cmd? c).map fun y => if y.phase = .fetched ∧ y.op = 0x32 ∧ y.f 4 4 = h then { y with goneImage := true } else y := by
    unfold State.cmd?
    rw [hcmds, List.find?_map]
    have hp : (fun x : Cmd => decide (x.ref = c)) ∘
        (fun y : Cmd => if y.phase = .fetched ∧ y.op = 0x32 ∧ y.f 4 4 = h then { y with goneImage := true } else y) =
        fun x => decide (x.ref = c) := by
      funext y
      rw [Function.comp_apply]
      split <;> rfl
    rw [hp]
  rw [hfind, hc]
  exact ⟨_, rfl⟩

theorem foldl_uninstall {c : CmdRef} (l : List Nat) (s : State) (hc : ∃ x, s.cmd? c = some x) :
    let t := l.foldl State.uninstall s
    t = { s with images := t.images, cmds := t.cmds, tiles := t.tiles } ∧ (∃ y, t.cmd? c = some y) ∧
    ∀ h i, tblGet t.images h none = some i → tblGet s.images h none = some i ∧ h ∉ l := by
  induction l generalizing s with
  | nil => exact ⟨rfl, hc, fun h i hi => ⟨hi, List.not_mem_nil⟩⟩
  | cons a l ih =>
    obtain ⟨hnone, hne, hframe, -⟩ := uninstall_image s a
    obtain ⟨x, hx⟩ := hc
    obtain ⟨hf, hc', hi⟩ := ih (s.uninstall a) (uninstall_cmd? a hx)
    simp only [List.foldl_cons]
    refine ⟨?_, hc', fun h i hhi => ?_⟩
    · rw [hf, hframe]
    · obtain ⟨hi', hl⟩ := hi h i hhi
      by_cases hha : h = a
      · subst hha; rw [hnone] at hi'; cases hi'
      · exact ⟨(hne h hha).symm.trans hi', fun hm => (List.mem_cons.mp hm).elim hha hl⟩

theorem mem_handlesOf {s : State} {n h : Nat} {i : Image} (hi : tblGet s.images h none = some i) (hs : i.slice = n) : h ∈ s.handlesOf n := by
  unfold tblGet at hi
  cases hf : tblFind s.images h with
  | none => rw [hf] at hi; cases hi
  | some v =>
    rw [hf] at hi
    refine List.mem_map.mpr ⟨_, List.mem_filter.mpr ⟨mem_of_tblFind hf, ?_⟩, rfl⟩
    rw [show v = some i from hi]
    simpa using hs

theorem clearKey_slot (s : State) (n : Nat) :
    (s.clearKey n).keySlot n = none ∧ (∀ m, m ≠ n → (s.clearKey n).keySlot m = s.keySlot m) ∧
    s.clearKey n = { s with keys := (s.clearKey n).keys, slices := (s.clearKey n).slices } := by
  unfold State.clearKey
  split
  next h => exact ⟨h, fun _ _ => rfl, rfl⟩
  next k h => exact ⟨tblGet_set_self none s.keys n none, fun m hm => tblGet_set_ne none s.keys hm none, rfl⟩

theorem foldl_clearKey (l : List Nat) (s : State) :
    let t := l.foldl State.clearKey s
    t = { s with keys := t.keys, slices := t.slices } ∧ ∀ m k, t.keySlot m = some k → s.keySlot m = some k ∧ m ∉ l := by
  induction l generalizing s with
  | nil => exact ⟨rfl, fun m k hk => ⟨hk, List.not_mem_nil⟩⟩
  | cons a l ih =>
    obtain ⟨hnone, hne, hframe⟩ := clearKey_slot s a
    obtain ⟨hf, hk⟩ := ih (s.clearKey a)
    refine ⟨?_, fun m k hmk => ?_⟩
    · rw [List.foldl_cons, hf, hframe]
    · obtain ⟨hk', hl⟩ := hk m k hmk
      by_cases hma : m = a
      · subst hma; rw [hnone] at hk'; cases hk'
      · exact ⟨(hne m hma).symm.trans hk', fun hm => (List.mem_cons.mp hm).elim hma hl⟩

theorem State.formed_slc (s : State) (c : CmdRef) (k : Completion) (n : Nat) : (s.formed c k).slc n = s.slc n := (rfl)

theorem State.queuesOf_congr {s t : State} (h : t.queues = s.queues) (n : Nat) : t.queuesOf n = s.queuesOf n := by
  rw [State.queuesOf, State.queuesOf, h]

theorem State.onSlc_onCmd_cmds (s : State) (n : Nat) (f : Slice → Slice) (c : CmdRef) (g : Cmd → Cmd) :
    ((s.onSlc n f).onCmd c g).cmds = (s.onCmd c g).cmds := (rfl)

theorem State.onCmd_cmds_congr {s t : State} (h : t.cmds = s.cmds) (c : CmdRef) (g : Cmd → Cmd) : (t.onCmd c g).cmds = (s.onCmd c g).cmds := by
  simp only [State.onCmd, h]

/-- What SLICE_FREEZE leaves of its command: its completion, whatever its program stood at. -/
theorem frozen_cmds {s u : State} {c : CmdRef} {n : Nat} (hcmds : u.cmds = (s.onCmd c fun y => { y with prog := .sliceWait n 0 }).cmds)
    (hnow : u.now = s.now) (k : Completion) : (u.formed c k).cmds = (s.formed c k).cmds := by
  rw [State.formed, State.formed, State.onCmd_cmds_congr hcmds, hnow, onCmd_onCmd _ _ (fun y => { y with prog := .sliceWait n 0 }) _ fun _ => rfl]

theorem taken_startedQueries (s : State) (x : Cmd) (n : Nat) : (s.taken x).startedQueries n = s.startedQueries n := by
  rw [State.startedQueries, State.startedQueries, State.taken, State.onSlc_cmds]

theorem holdSlice_cmds (s : State) (x : Cmd) (c : CmdRef) :
    ((s.taken x).holdSlice c x.sl).cmds = (s.onCmd c fun y => { y with prog := .sliceWait x.sl 0 }).cmds := by
  rw [State.holdSlice, State.onSlc_onCmd_cmds]
  exact State.onCmd_cmds_congr (State.onSlc_cmds ..) ..

/-- A completion keeps what the slice commands change: slices and commands. -/
theorem sliceFrame_formed {s u : State} {sl : Tbl Slice} {cs : List Cmd} (h : u = { s with slices := sl, cmds := cs }) (c : CmdRef)
    (k : Completion) : u.formed c k = { s with slices := (u.formed c k).slices, cmds := (u.formed c k).cmds } := by
  subst h; rfl

theorem State.onSlc_frame (s : State) (n : Nat) (f : Slice → Slice) : s.onSlc n f = { s with slices := (s.onSlc n f).slices } := (rfl)

theorem State.onCmd_frame (s : State) (c : CmdRef) (f : Cmd → Cmd) : s.onCmd c f = { s with cmds := (s.onCmd c f).cmds } := (rfl)

/-- What a command that holds its slice has changed when it moves the slice. -/
theorem taken_holdSlice_frame (s : State) (x : Cmd) (c : CmdRef) (f : Slice → Slice) :
    ∃ sl cs, ((s.taken x).holdSlice c x.sl).onSlc x.sl f = { s with slices := sl, cmds := cs } := by
  rw [State.onSlc_frame, State.holdSlice, State.onCmd_frame, State.onSlc_frame, State.taken, State.onSlc_frame s]
  exact ⟨_, _, rfl⟩

theorem created_frame (s : State) (x : Cmd) (v : Slice) : ∃ sl, (s.taken x).setSlc x.sl v = { s with slices := sl, cmds := s.cmds } :=
  ⟨_, rfl⟩

theorem holdSlice_frame (s : State) (x : Cmd) (c : CmdRef) :
    ∃ sl cs, (s.taken x).holdSlice c x.sl = { s with slices := sl, cmds := cs } := by
  rw [State.holdSlice, State.onCmd_frame, State.onSlc_frame, State.taken, State.onSlc_frame s]
  exact ⟨_, _, rfl⟩

theorem taken_holdSlice_queues (s : State) (x : Cmd) : ((s.taken x).holdSlice x.ref x.sl).queues = s.queues := by
  obtain ⟨sl, cs, h⟩ := holdSlice_frame s x x.ref
  rw [h]

theorem holdSlice_cmd? {s : State} {c : CmdRef} {x : Cmd} (n : Nat) (hc : s.cmd? c = some x) :
    (s.holdSlice c n).cmd? c = some { x with prog := .sliceWait n 0 } := by
  rw [State.holdSlice]
  exact onCmd_cmd? (s := s.onSlc n fun y => { y with busy := some c, noFetch := true }) _ (fun _ => rfl) hc

theorem mem_keysOf {s : State} {n m : Nat} {k : KeySlot} (hk : s.keySlot m = some k) (hs : k.slice = n) : m ∈ s.keysOf n := by
  unfold State.keySlot tblGet at hk
  cases hf : tblFind s.keys m with
  | none => rw [hf] at hk; cases hk
  | some v =>
    rw [hf] at hk
    refine List.mem_map.mpr ⟨_, List.mem_filter.mpr ⟨mem_of_tblFind hf, ?_⟩, rfl⟩
    rw [show v = some k from hk]
    simpa using hs

/-- The end of SLICE_DESTROY: the slice is free, and nothing of it is left (R452). -/
theorem destroyEnd_gone {s : State} {c : CmdRef} {x : Cmd} {n : Nat} (hn : n ≠ 0) (hc : s.cmd? c = some x) (hr : s.resetsDone n = true)
    (hi : s.condemnedIdle c n = true) :
    (s.destroyEnd c n).slc n = { busy := some c } ∧ endedIn (s.destroyEnd c n) c stSuccess [] ∧
    (∀ id, ((s.destroyEnd c n).seg id).valid = true → ((s.destroyEnd c n).seg id).slice ≠ n) ∧
    (∀ q, ((s.destroyEnd c n).queue q).slice ≠ n) ∧
    (∀ h i, tblGet (s.destroyEnd c n).images h none = some i → i.slice ≠ n) ∧
    ∀ m, ((s.destroyEnd c n).keySlot m).all (fun k => k.slice != n) = true := by
  rw [State.destroyEnd, if_pos ⟨hr, hi⟩]
  dsimp only
  obtain ⟨hf1, hq⟩ := foldl_orphanQueue hn (s.queuesOf n) s
  have hqueue : ∀ p, (((s.queuesOf n).foldl State.orphanQueue s).queue p).slice ≠ n := fun p hp =>
    (hq p hp).2 (mem_queuesOf hn (hq p hp).1)
  generalize (s.queuesOf n).foldl State.orphanQueue s = s1 at *
  obtain ⟨hw, hs⟩ := foldl_leaveSeg hn (s1.segsOf n) s1
  have hseg : ∀ j, (((s1.segsOf n).foldl State.leaveSeg s1).seg j).valid = true → (((s1.segsOf n).foldl State.leaveSeg s1).seg j).slice ≠ n :=
    fun j hv h => by
      obtain ⟨hv', hs', hl⟩ := hs j hv h
      exact hl (mem_segsOf hv' hs')
  have hc1 : s1.cmd? c = some x := (cmd?_congr c (by rw [hf1])).trans hc
  have hc2 := hw.cmd? hc1
  have hq2 := hw.queues
  generalize (s1.segsOf n).foldl State.leaveSeg s1 = s2 at *
  obtain ⟨hf3, hc3, hm⟩ := foldl_uninstall (s2.handlesOf n) s2 hc2
  have himage : ∀ h i, tblGet ((s2.handlesOf n).foldl State.uninstall s2).images h none = some i → i.slice ≠ n := fun h i hi hsl => by
    obtain ⟨hi', hl⟩ := hm h i hi
    exact hl (mem_handlesOf hi' hsl)
  generalize (s2.handlesOf n).foldl State.uninstall s2 = s3 at *
  obtain ⟨hf4, hk⟩ := foldl_clearKey (s3.keysOf n) s3
  have hkey : ∀ m k, ((s3.keysOf n).foldl State.clearKey s3).keySlot m = some k → k.slice ≠ n := fun m k hmk hsl => by
    obtain ⟨hk', hl⟩ := hk m k hmk
    exact hl (mem_keysOf hk' hsl)
  generalize (s3.keysOf n).foldl State.clearKey s3 = s4 at *
  obtain ⟨y, hy⟩ := hc3
  have hy' : (s4.setSlc n { busy := some c }).cmd? c = some y := (cmd?_congr c (by rw [hf4]; rfl)).trans hy
  rw [succeed_formed [] hy']
  refine ⟨by rw [State.formed_slc, State.slc_setSlc_self], ⟨_, formed_cmd? _ hy', rfl, rfl, rfl⟩, fun j hv => ?_, fun p => ?_, fun h i hi => himage h i ?_, fun m => ?_⟩
  · have hj : ((s4.setSlc n { busy := some c }).formed c { result := [] }).seg j = s2.seg j :=
      seg_congr (show s4.segs = s2.segs by rw [hf4, hf3]) j
    rw [hj] at hv ⊢
    exact hseg j hv
  · have hp : ((s4.setSlc n { busy := some c }).formed c { result := [] }).queue p = s1.queue p :=
      State.queue_congr (show s4.queues = s1.queues by rw [hf4, hf3, hq2]) p
    rw [hp]
    exact hqueue p
  · rw [← hi]
    show _ = tblGet s4.images h none
    rw [hf4]
  · have hm' : ((s4.setSlc n { busy := some c }).formed c { result := [] }).keySlot m = s4.keySlot m := rfl
    rw [hm']
    cases hmk : s4.keySlot m with
    | none => rfl
    | some k => simpa using hkey m k hmk

theorem exec_sliceReset {s : State} {c : CmdRef} {x : Cmd} (hf : s.fresh? c 0x12 = some x) (hr : sliceReady s x) :
    exec (.sliceReset c) s = .next (((s.taken x).resetSlice c x.sl).sliceResetEnd c x.sl) := by
  simp only [exec, execSliceReset, fresh?_running hf, fresh?_prog hf, sliceRun_ready hr]

/-- The state of a slice that is reset while it has no queue: the next generation, and every other slice as before. -/
theorem resetSlice_noQueue {s : State} {x : Cmd} (hq : s.queuesOf x.sl = []) :
    (s.taken x).resetSlice x.ref x.sl =
      (((s.taken x).holdSlice x.ref x.sl).onSlc x.sl fun y => { y with gen := nextGen y.gen }).registerAll := by
  have hq' : (((s.taken x).holdSlice x.ref x.sl).onSlc x.sl fun y => { y with gen := nextGen y.gen }).queuesOf x.sl = [] :=
    (State.queuesOf_congr (s := s) ((State.onSlc_queues ..).trans (taken_holdSlice_queues s x)) _).trans hq
  rw [State.resetSlice, hq']; rfl

/-- SLICE_FREEZE of a quiet slice freezes it (R453). -/
theorem sliceFreeze_frozen {s : State} {c : CmdRef} {x : Cmd} (hf : s.fresh? c 0x13 = some x) (hr : sliceReady s x)
    (hst : (s.slc x.sl).st = .active) (hquiet : s.sliceQuiet x.sl = true) :
    ∃ t : State, exec (.sliceFreeze c) s = .next t ∧
      t.slc x.sl = { s.slc x.sl with st := .frozen, noFetch := true, busy := some c } ∧ (∀ n, n ≠ x.sl → t.slc n = s.slc n) ∧
      t.cmds = (s.formed c { result := leBytes 4 (s.startedQueries x.sl) }).cmds ∧ t = { s with slices := t.slices, cmds := t.cmds } := by
  have hc := fresh?_cmd hf
  have href := cmd?_ref hc
  obtain ⟨hself, hother⟩ := taken_holdSlice s x
  have hact : ((s.taken x).slc x.sl).st ≠ .frozen := by rw [taken_slc]; simp [hst]
  have hquiet' : ((s.taken x).holdSlice c x.sl).sliceQuiet x.sl = true := (holdSlice_quiet ..).trans hquiet
  rw [href] at hself hother
  have hc' : (((s.taken x).holdSlice c x.sl).onSlc x.sl fun y => { y with st := .frozen }).cmd? c =
      some { x with prog := .sliceWait x.sl 0 } := (cmd?_congr c (State.onSlc_cmds ..)).trans (holdSlice_cmd? (s := s.taken x) x.sl hc)
  simp only [exec, execSliceFreeze, fresh?_running hf, fresh?_prog hf, sliceRun_ready hr, if_neg hact, State.freezeEnd, hquiet', if_true]
  rw [holdSlice_startedQueries, succeed_formed _ hc', taken_startedQueries]
  have hslc := State.slc_onSlc_self ((s.taken x).holdSlice c x.sl) x.sl fun y => { y with st := .frozen }
  have hslcs (n : Nat) (hne : n ≠ x.sl) :=
    State.slc_onSlc_ne ((s.taken x).holdSlice c x.sl) hne fun y => { y with st := .frozen }
  obtain ⟨sl, cs, hframe⟩ := taken_holdSlice_frame s x c fun y => { y with st := .frozen }
  have hcmds := (State.onSlc_cmds _ x.sl fun y => { y with st := .frozen }).trans (holdSlice_cmds s x c)
  generalize ((s.taken x).holdSlice c x.sl).onSlc x.sl (fun y => { y with st := .frozen }) = u at *
  refine ⟨_, rfl, ?_, fun n hne => ?_, ?_, sliceFrame_formed hframe c _⟩
  · rw [State.formed_slc, hslc, hself]
  · rw [State.formed_slc, hslcs n hne, hother n hne]
  · exact frozen_cmds hcmds (by rw [hframe]) _

/-- SLICE_RESET of a slice without queues: the next generation, and the slice is ACTIVE (R451). -/
theorem sliceReset_noQueue {s : State} {c : CmdRef} {x : Cmd} (hf : s.fresh? c 0x12 = some x) (hr : sliceReady s x)
    (hq : s.queuesOf x.sl = []) :
    ∃ (t : State) (y : Cmd), exec (.sliceReset c) s = .next t ∧
      t.slc x.sl = { s.slc x.sl with st := .active, noFetch := false, busy := some c, gen := nextGen (s.slc x.sl).gen } ∧
      (∀ n, n ≠ x.sl → t.slc n = s.slc n) ∧ t.cmd? c = some y ∧ y.phase = .done ∧ y.comp.status = stSuccess ∧
      y.comp.result = leBytes 2 (nextGen (s.slc x.sl).gen) ∧ t.segs = s.segs ∧ t.keys = s.keys ∧ t.images = s.images := by
  have hc := fresh?_cmd hf
  have href := cmd?_ref hc
  obtain ⟨hself, hother⟩ := taken_holdSlice s x
  rw [exec_sliceReset hf hr, ← href, resetSlice_noQueue hq]
  have hheld : (((s.taken x).holdSlice x.ref x.sl).onSlc x.sl fun y => { y with gen := nextGen y.gen }).cmd? x.ref =
      some { x with prog := .sliceWait x.sl 0 } :=
    (cmd?_congr x.ref (State.onSlc_cmds ..)).trans (holdSlice_cmd? (s := s.taken x) x.sl (href ▸ hc))
  have hgen : (((s.taken x).holdSlice x.ref x.sl).onSlc x.sl fun y => { y with gen := nextGen y.gen }).slc x.sl =
      { s.slc x.sl with noFetch := true, busy := some x.ref, gen := nextGen (s.slc x.sl).gen } := by
    rw [State.slc_onSlc_self, hself]
  have hne (n : Nat) (hne : n ≠ x.sl) :
      (((s.taken x).holdSlice x.ref x.sl).onSlc x.sl fun y => { y with gen := nextGen y.gen }).slc n = s.slc n := by
    rw [State.slc_onSlc_ne _ hne, hother n hne]
  obtain ⟨sl, cs, hframe⟩ := taken_holdSlice_frame s x x.ref fun y => { y with gen := nextGen y.gen }
  generalize ((s.taken x).holdSlice x.ref x.sl).onSlc x.sl (fun y => { y with gen := nextGen y.gen }) = u at hheld hgen hne hframe
  obtain ⟨y, hy⟩ := registerAll_cmd? hheld
  have hslc (n : Nat) : u.registerAll.slc n = u.slc n := by rw [State.slc, registerAll_frame]; rfl
  have hdone : u.registerAll.resetsDone x.sl = true := by
    have : u.registerAll.queuesOf x.sl = [] := by rw [registerAll_frame, hframe]; exact hq
    rw [State.resetsDone, this]; rfl
  rw [sliceResetEnd_of hy hdone, hslc, hgen]
  refine ⟨_, _, rfl, ?_, fun n hn => ?_, formed_cmd? _ (s := u.registerAll.onSlc x.sl _) hy, rfl, rfl, rfl, ?_, ?_, ?_⟩
  · rw [State.formed_slc, State.slc_onSlc_self, hslc, hgen]
  · rw [State.formed_slc, State.slc_onSlc_ne _ hn, hslc, hne n hn]
  · show u.registerAll.segs = s.segs
    rw [registerAll_frame, hframe]
  · show u.registerAll.keys = s.keys
    rw [registerAll_frame, hframe]
  · show u.registerAll.images = s.images
    rw [registerAll_frame, hframe]

/-- SLICE_THAW of a slice without queues and lost commands lets it fetch again (R455). -/
theorem sliceThaw_active {s : State} {c : CmdRef} {x : Cmd} (hf : s.fresh? c 0x16 = some x) (hr : sliceReady s x)
    (hst : (s.slc x.sl).st = .frozen) (hq : ∀ e ∈ s.queues, e.2.slice ≠ x.sl) (hlost : ∀ y ∈ s.cmds, y.slice ≠ x.sl ∨ y.lost = false) :
    ∃ (t : State) (y : Cmd), exec (.sliceThaw c) s = .next t ∧
      t.slc x.sl = { s.slc x.sl with st := .active, noFetch := false, busy := some c } ∧ (∀ n, n ≠ x.sl → t.slc n = s.slc n) ∧
      t.cmd? c = some y ∧ y.phase = .done ∧ y.comp.status = stSuccess ∧ t = { s with slices := t.slices, cmds := t.cmds } := by
  have hc := fresh?_cmd hf
  have href := cmd?_ref hc
  have hact : ((s.taken x).slc x.sl).st ≠ .active := by rw [taken_slc]; simp [hst]
  simp only [exec, execSliceThaw, hf, sliceRun_ready hr, if_neg hact]
  have hslc : ((s.taken x).onSlc x.sl fun y => { y with st := .active, noFetch := false }).slc x.sl =
      { s.slc x.sl with st := .active, noFetch := false, busy := some x.ref } := by
    rw [State.slc_onSlc_self, taken_slc]
  have hne (n : Nat) (hne : n ≠ x.sl) :
      ((s.taken x).onSlc x.sl fun y => { y with st := .active, noFetch := false }).slc n = s.slc n := by
    rw [State.slc_onSlc_ne _ hne, taken_slc_ne s x hne]
  have hframe : (s.taken x).onSlc x.sl (fun y => { y with st := .active, noFetch := false }) =
      { s with slices := ((s.taken x).onSlc x.sl fun y => { y with st := .active, noFetch := false }).slices } := rfl
  generalize (s.taken x).onSlc x.sl (fun y => { y with st := .active, noFetch := false }) = u at hslc hne hframe
  have hlostNone : u.finishLost x.sl = u := by
    have hnil : u.cmds.filter (fun y => y.lost && y.slice == x.sl && y.phase == .fetched) = [] := by
      refine List.filter_eq_nil_iff.mpr fun y hy => ?_
      have hy' : y ∈ s.cmds := by rw [hframe] at hy; exact hy
      rcases hlost y hy' with h | h <;> simp [h]
    rw [State.finishLost, hnil]; rfl
  have hqnil : u.registerAll.queuesOf x.sl = [] := by
    rw [registerAll_frame, hframe]
    refine List.map_eq_nil_iff.mpr (List.filter_eq_nil_iff.mpr fun e he => ?_)
    simpa using hq e he
  have henable : u.registerAll.enableRestored x.sl = u.registerAll := by
    rw [State.enableRestored, hqnil]; rfl
  obtain ⟨y, hy⟩ := registerAll_cmd? (s := u) (c := c) (x := x) ((cmd?_congr c (by rw [hframe])).trans hc)
  rw [hlostNone, henable, succeed_formed _ hy]
  have hreg (n : Nat) : (u.registerAll.formed c { result := [] }).slc n = u.slc n := by
    show u.registerAll.slc n = _
    rw [State.slc, registerAll_frame]; rfl
  refine ⟨_, _, rfl, by rw [hreg, hslc, href], fun n hn => by rw [hreg, hne n hn], formed_cmd? _ hy, rfl, rfl, ?_⟩
  rw [State.formed, State.onCmd, registerAll_frame, hframe]

/-- Settles O14, slice command by slice command: what each does once it holds its slice. -/
theorem sliceCommandsMoveTheirSlice : Obligations.SliceCommandsMoveTheirSlice := by
  unfold Obligations.SliceCommandsMoveTheirSlice
  refine ⟨fun s c x hf hr hok hnone => ?create, ⟨fun s c x => sliceFreeze_frozen, fun s c x hf hr hst => ?again,
    fun s c x hf hr hst hquiet => ?holds⟩, ⟨fun s c x => sliceReset_noQueue, fun s c n k hp hd => ?resetEnd⟩,
    ⟨fun s c x hf hr hst => ?active, fun s c x => sliceThaw_active⟩, fun s c n k hn hp hd hi => ?destroy⟩
  case create =>
    have hc := fresh?_cmd hf
    have href := cmd?_ref hc
    have hadopt : ((s.taken x).setSlc x.sl { x.newSlice with busy := some x.ref }).adopt x.sl x.newSlice.pasid =
        (s.taken x).setSlc x.sl { x.newSlice with busy := some x.ref } := adopt_none hnone
    have hc' : ((s.taken x).setSlc x.sl { x.newSlice with busy := some x.ref }).cmd? c = some x := hc
    simp only [exec, execSliceCreate, hf, sliceRun_ready hr, sliceCreateEff, taken_createCheck (fresh?_op hf) hr.2, hok, hadopt]
    rw [href] at hc' ⊢
    rw [succeed_formed _ hc']
    have hslc := State.slc_setSlc_self (s.taken x) x.sl { x.newSlice with busy := some c }
    have hslcs (n : Nat) (hne : n ≠ x.sl) := State.slc_setSlc_ne (s.taken x) hne { x.newSlice with busy := some c }
    obtain ⟨sl, hframe⟩ := created_frame s x { x.newSlice with busy := some c }
    generalize (s.taken x).setSlc x.sl { x.newSlice with busy := some c } = u at *
    refine ⟨_, rfl, ?_, fun n hne => ?_, ?_, sliceFrame_formed hframe _ _⟩
    · rw [State.formed_slc, hslc]; rfl
    · rw [State.formed_slc, hslcs n hne, taken_slc_ne s x hne]
    · rw [hframe]; rfl
  case again =>
    have hc := fresh?_cmd hf
    have href := cmd?_ref hc
    have hfro : ((s.taken x).slc x.sl).st = .frozen := by rw [taken_slc]; exact hst
    simp only [exec, execSliceFreeze, fresh?_running hf, fresh?_prog hf, sliceRun_ready hr, if_pos hfro]
    rw [succeed_formed (s := s.taken x) _ hc, State.taken, href]
  case holds =>
    have href := cmd?_ref (fresh?_cmd hf)
    obtain ⟨hself, hother⟩ := taken_holdSlice s x
    have hact : ((s.taken x).slc x.sl).st ≠ .frozen := by rw [taken_slc]; simp [hst]
    have hquiet' : ((s.taken x).holdSlice c x.sl).sliceQuiet x.sl = false := (holdSlice_quiet ..).trans hquiet
    rw [href] at hself hother
    simp only [exec, execSliceFreeze, fresh?_running hf, fresh?_prog hf, sliceRun_ready hr, if_neg hact, State.freezeEnd, hquiet',
      Bool.false_eq_true, if_false]
    obtain ⟨sl, cs, hframe⟩ := holdSlice_frame s x c
    exact ⟨_, rfl, hself, hother, holdSlice_cmds s x c, by rw [hframe]⟩
  case resetEnd =>
    obtain ⟨x, hc, hrun, hprog⟩ := progOp?_cmd hp
    simp only [exec, execSliceReset, hrun, hprog]
    rw [sliceResetEnd_of hc hd]
  case active =>
    have hc := fresh?_cmd hf
    have href := cmd?_ref hc
    have hact : ((s.taken x).slc x.sl).st = .active := by rw [taken_slc]; exact hst
    simp only [exec, execSliceThaw, hf, sliceRun_ready hr, if_pos hact]
    rw [succeed_formed (s := s.taken x) _ hc, State.taken, href]
  case destroy =>
    obtain ⟨x, hc, hrun, hprog⟩ := progOp?_cmd hp
    simp only [exec, execSliceDestroy, hrun, hprog]
    obtain ⟨hslc, ⟨y, hy, hph, hst, -⟩, hseg, hqueue, himage, hkey⟩ := destroyEnd_gone hn hc hd hi
    exact ⟨_, y, rfl, by rw [hslc], hslc, hy, hph, hst, hseg, hqueue, himage, hkey⟩

end Sys2Proof.Machine
end

section
/-!
Monitors, rails and Nightwatch (R383, R386, R389, R390, R513, R519).
-/
namespace Sys2Proof.Machine

theorem State.onTile_congr {s : State} {t : TileId} {f g : Tile → Tile} (h : f (s.tile t) = g (s.tile t)) : s.onTile t f = s.onTile t g := by
  rw [State.onTile, State.onTile, show f s.tiles[t] = g s.tiles[t] from h]

/-! ### Readings -/

/-- Readings taken from raw samples, one by one. -/
theorem takeAll_natReadings (on : Bool) (old : List Reading) (l : List Nat) :
    takeAll on old (natReadings l) = old.zipIdx.map fun r => r.1.take on (l[r.2]?.map Int.ofNat) := by
  unfold takeAll natReadings
  refine List.map_congr_left fun r _ => ?_
  rw [List.getD_eq_getElem?_getD, List.getElem?_map]
  cases l[r.2]? with
  | none => rfl
  | some n => rfl

/-! ### Rails (R519) -/

theorem railsOf_nodup (s : State) : s.railsOf.Nodup := by
  have hts : (s.presentTiles.map (·.val)).Nodup :=
    List.Pairwise.map _ (fun _ _ hne h => hne (Fin.ext h)) ((List.filter_sublist (p := s.present)).nodup (by decide : allTiles.Nodup))
  have hlt : ∀ r ∈ s.presentTiles.map (·.val), r < 8 := fun r h => by
    obtain ⟨t, -, rfl⟩ := List.mem_map.mp h
    exact t.isLt
  unfold State.railsOf
  dsimp only
  generalize s.presentTiles.map (·.val) = ts at hts hlt
  simp only [List.nodup_append, List.mem_append, List.mem_map, List.mem_cons, List.not_mem_nil, or_false, ne_eq]
  have hshift (n : Nat) : (ts.map (n + ·)).Nodup := List.Pairwise.map _ (fun _ _ hne h => hne (Nat.add_left_cancel h)) hts
  refine ⟨⟨⟨⟨hts, by decide, ?_⟩, hshift 10, ?_⟩, hshift 18, ?_⟩, by decide, ?_⟩
  · intro a ha b hb; have := hlt a ha; omega
  · rintro a ha b ⟨c, hc, rfl⟩
    rcases ha with ha | ha
    · have := hlt a ha; omega
    · have := hlt c hc; omega
  · rintro a ha b ⟨c, hc, rfl⟩
    have := hlt c hc
    rcases ha with (ha | ha) | ⟨d, hd, rfl⟩
    · have := hlt a ha; omega
    · omega
    · have := hlt d hd; omega
  · rintro a ha b hb
    rcases ha with ((ha | ha) | ⟨d, hd, rfl⟩) | ⟨d, hd, rfl⟩
    · have := hlt a ha; omega
    · omega
    · have := hlt d hd; omega
    · have := hlt d hd; omega

/-- The status that an alert reads from one regulator. -/
def State.readStatus (s : State) (r : Nat × Nat) : State :=
  { s with rails := tblSet {} s.rails r.1 { tblGet s.rails r.1 {} with status := r.2 % 65536 } }

theorem foldl_readStatus (l : List (Nat × Nat)) (hl : (l.map (·.1)).Nodup) (s : State) :
    l.foldl State.readStatus s = { s with rails := (l.foldl State.readStatus s).rails } ∧
    (∀ r w, (r, w) ∈ l → (tblGet (l.foldl State.readStatus s).rails r {}).status = w % 65536) ∧
    ∀ r, r ∉ l.map (·.1) → tblGet (l.foldl State.readStatus s).rails r {} = tblGet s.rails r {} := by
  induction l generalizing s with
  | nil => exact ⟨rfl, fun _ _ h => absurd h List.not_mem_nil, fun _ _ => rfl⟩
  | cons e l ih =>
    obtain ⟨hnot, hl⟩ := List.nodup_cons.mp hl
    obtain ⟨hframe, hin, hout⟩ := ih hl (s.readStatus e)
    have hself := tblGet_set_self {} s.rails e.1 { tblGet s.rails e.1 {} with status := e.2 % 65536 }
    refine ⟨hframe, fun r w h => ?_, fun r h => ?_⟩
    · rcases List.mem_cons.mp h with rfl | h
      · exact (congrArg Rail.status (hout r hnot)).trans (congrArg Rail.status hself)
      · exact hin r w h
    · obtain ⟨hne, hnl⟩ := not_or.mp (fun h' => h (List.mem_cons.mpr h'))
      exact (hout r hnl).trans (tblGet_set_ne ({} : Rail) s.rails hne _)

theorem pmbAlert_reads (s : State) (status : List Nat) :
    ∃ s' : State, (s.railsOf.zip status).foldl State.readStatus (s.emitAll (s.railsOf.map Out.pmbusStatus)) = s' ∧
      s'.out = s.out ++ s.railsOf.map Out.pmbusStatus ∧
      (∀ (i r w : Nat), s.railsOf[i]? = some r → status[i]? = some w → (tblGet s'.rails r {}).status = w % 65536) ∧
      (∀ r, r ∉ s.railsOf → tblGet s'.rails r {} = tblGet s.rails r {}) ∧ s' = { s with rails := s'.rails, out := s'.out } := by
  have hfst : ∀ r, r ∈ (s.railsOf.zip status).map (·.1) → r ∈ s.railsOf := fun r h => by
    obtain ⟨e, he, rfl⟩ := List.mem_map.mp h
    exact (List.of_mem_zip he).1
  have hnodup : ((s.railsOf.zip status).map (·.1)).Nodup := by
    rw [List.zip_eq_zip_take_min, List.map_fst_zip (by simp)]
    exact (List.take_sublist _ _).nodup (railsOf_nodup s)
  obtain ⟨hframe, hin, hout⟩ := foldl_readStatus _ hnodup (s.emitAll (s.railsOf.map Out.pmbusStatus))
  generalize (s.railsOf.zip status).foldl State.readStatus (s.emitAll (s.railsOf.map Out.pmbusStatus)) = s' at *
  refine ⟨s', rfl, by rw [hframe]; rfl, fun i r w hr hw => hin r w ?_, fun r hr => hout r fun h => hr (hfst r h), ?_⟩
  · have : (s.railsOf.zip status)[i]? = some (r, w) := by rw [List.getElem?_zip_eq_some]; exact ⟨hr, hw⟩
    exact List.mem_of_getElem? this
  · rw [hframe]; rfl

/-! ### Nightwatch (R389, R390, R513) -/

theorem nwTile_frame (s : State) (x : NwSample) : s.nwTile x = { s with tiles := (s.nwTile x).tiles } := by
  unfold State.nwTile
  dsimp only
  rw [castVote_frame]
  split
  · rw [State.onTile, castVote_frame]
  · rw [State.onTile, State.onDom, State.onTile, castVote_frame]

theorem foldl_nwTile (l : List NwSample) (s : State) : l.foldl State.nwTile s = { s with tiles := (l.foldl State.nwTile s).tiles } :=
  List.foldlRecOn (motive := fun t : State => t = { s with tiles := t.tiles }) l State.nwTile rfl
    fun t ht x _ => by rw [nwTile_frame, ht]

/-- An entry that trips stands among the tripped ones with its number, and none else. -/
theorem any_trips (thr : List NwThr) (i : Nat) :
    ((thr.zipIdx.filter fun e => e.1.trips).any fun e => bit e.1.action i) = true ↔
      ∃ e ∈ thr, e.en = true ∧ max 1 e.persist ≤ e.held ∧ bit e.action i = true := by
  rw [List.any_filter, List.any_eq_true]
  constructor
  · rintro ⟨e, he, h⟩
    obtain ⟨ht, hb⟩ := Bool.and_eq_true_iff.mp h
    obtain ⟨hen, hheld⟩ := Bool.and_eq_true_iff.mp ht
    exact ⟨e.1, List.fst_mem_of_mem_zipIdx he, hen, of_decide_eq_true hheld, hb⟩
  · rintro ⟨e, he, hen, hheld, hb⟩
    obtain ⟨j, hj⟩ := List.getElem?_of_mem he
    exact ⟨(e, j), List.mk_mem_zipIdx_iff_getElem?.mpr hj, by simp [NwThr.trips, hen, hheld, hb]⟩

/-- The entries that trip in a period, with their numbers. -/
def State.nwTripped (s : State) (seen : List NwSample) : List (NwThr × Nat) :=
  (s.nw.thr.map fun e => e.after seen).zipIdx.filter fun e => e.1.trips

/-- The block's registers after a period. -/
def State.nwAfter (s : State) (seen : List NwSample) : Nw :=
  { s.nw with
    thr := s.nw.thr.map fun e => e.after seen
    periods := (s.nw.periods + 1) % 2 ^ 32
    alert := s.nw.alert || (s.nwTripped seen).any fun e => bit e.1.action 0 }

/-- What a period leaves, whatever its tiles do: the counts of R389, and the change that a tripped EXIT entry asks for. -/
theorem nightwatchEff_eq (l : List NwSample) (s : State) :
    ∃ (tl : Vector Tile 8) (n : Nat), nightwatchEff l s =
      let seen := (l.filter fun x => s.live x.tile).map s.nwSeen
      if ((s.nwTripped seen).any fun e => bit e.1.action 1) = false then { s with tiles := tl, nw := s.nwAfter seen }
      else if nwExitChange ∈ s.dev.waiting ∨ nwExitChange ∈ s.dev.retry ∨ s.dev.change ≠ none then
        { s with tiles := tl, nw := s.nwAfter seen }
      else ({ s with tiles := tl, nw := { s.nwAfter seen with cause := n } } : State).require nwExitChange := by
  obtain ⟨tl, hframe⟩ : ∃ tl, ((l.filter fun x => s.live x.tile).map s.nwSeen).foldl State.nwTile s = { s with tiles := tl } :=
    ⟨_, foldl_nwTile _ s⟩
  generalize hex : (s.nwTripped ((l.filter fun x => s.live x.tile).map s.nwSeen)).filter (fun e => bit e.1.action 1) = exits
  unfold State.nwTripped at hex
  unfold nightwatchEff
  dsimp only
  rw [hframe]
  dsimp only
  rw [hex]
  cases exits with
  | nil =>
    exact ⟨tl, 0, (if_pos (List.any_eq_false.mpr (List.filter_eq_nil_iff.mp hex))).symm⟩
  | cons e es =>
    have hmem : e ∈ e :: es := List.mem_cons_self
    rw [← hex] at hmem
    obtain ⟨hin, hbit⟩ := List.mem_filter.mp hmem
    exact ⟨tl, e.2, (if_neg (by rw [Bool.not_eq_false, List.any_eq_true]; exact ⟨e, hin, hbit⟩)).symm⟩

theorem nwAfter_thr (s : State) (seen : List NwSample) : (s.nwAfter seen).thr = s.nw.thr.map fun e => e.after seen := rfl

/-- NIGHTWATCH_PERIOD, clause by clause (R389, R390, R513). -/
theorem nightwatchPeriod_counts (s : State) (l : List NwSample) :
    let seen := (l.filter fun x => s.live x.tile).map s.nwSeen
    let s' := nightwatchEff l s
    s'.nw.periods = (s.nw.periods + 1) % 2 ^ 32 ∧ s'.nw.thr = (s.nw.thr.map fun e => e.after seen) ∧
    s'.nw.alert = (s.nw.alert || (s.nwTripped seen).any fun e => bit e.1.action 0) ∧
    (((s.nwTripped seen).any fun e => bit e.1.action 1) = false → s'.dev = s.dev) ∧
    (((s.nwTripped seen).any fun e => bit e.1.action 1) = true → s.dev.change = none → nwExitChange ∉ s.dev.waiting →
      nwExitChange ∉ s.dev.retry → s'.dev = { s.dev with waiting := s.dev.waiting ++ [nwExitChange] }) ∧
    s'.mem = s.mem ∧ s'.segs = s.segs ∧ s'.cmds = s.cmds ∧ s'.queues = s.queues := by
  intro seen s'
  obtain ⟨tl, n, h⟩ := nightwatchEff_eq l s
  have h' : s' = _ := h
  clear_value s'
  dsimp only at h'
  change s' = (if ((s.nwTripped seen).any fun e => bit e.1.action 1) = false then _ else _) at h'
  by_cases hq : ((s.nwTripped seen).any fun e => bit e.1.action 1) = false
  · rw [if_pos hq] at h'
    subst h'
    exact ⟨rfl, rfl, rfl, fun _ => rfl, fun h => absurd (hq.symm.trans h) (by decide), rfl, rfl, rfl, rfl⟩
  · rw [if_neg hq] at h'
    by_cases hb : nwExitChange ∈ s.dev.waiting ∨ nwExitChange ∈ s.dev.retry ∨ s.dev.change ≠ none
    · rw [if_pos hb] at h'
      subst h'
      refine ⟨rfl, rfl, rfl, fun _ => rfl, fun _ hn hw hr => ?_, rfl, rfl, rfl, rfl⟩
      exact absurd hb (by simp [hn, hw, hr])
    · rw [if_neg hb] at h'
      subst h'
      exact ⟨rfl, rfl, rfl, fun h => absurd h hq, fun _ _ _ _ => rfl, rfl, rfl, rfl, rfl⟩

/-- Settles O45, monitor by monitor. -/
theorem monitorReadingsAndNightwatch : Obligations.MonitorReadingsAndNightwatch := by
  unfold Obligations.MonitorReadingsAndNightwatch
  refine ⟨fun s t l hp hc => ?samples, fun s t v hp hc hd => ?hbm, fun s t i hp hc he hd => ?droop, fun s t i => rfl,
    fun s status hp hc => ?alert, fun s rail mv ma hp hc hr => ?reading, fun s l hm => ?period⟩
  case samples =>
    intro kept
    have hkept (old : List Reading) : takeAll (s.domOn t 55) old (natReadings l) = kept old := by
      rw [takeAll_natReadings]
      refine List.map_congr_left fun r _ => ?_
      generalize l[r.2]? = o
      cases o <;> rfl
    have hup := State.aonUp_of hp hc
    simp only [exec, execSupplySample, execProcessMonitorSample, hup, if_true]
    exact ⟨congrArg _ (State.onTile_congr (by rw [← hkept]; rfl)), congrArg _ (State.onTile_congr (by rw [← hkept]; rfl))⟩
  case hbm => simp only [exec, execHbmTemperatureRead, State.aonUp_of hp hc, hd, and_self, if_true]
  case droop => simp only [exec, execDroop, State.aonUp_of hp hc, he, hd, and_self, if_true, satInc]
  case alert =>
    simp only [exec, execPmbAlert, State.pmbusUp, State.aonUp_of hp hc, if_true]
    obtain ⟨s', heq, h⟩ := pmbAlert_reads s status
    exact ⟨s', congrArg _ heq, h⟩
  case reading =>
    have hin : s.railsOf.contains rail = true := by simpa using hr
    simp only [exec, execPmbusReading, State.pmbusUp, State.aonUp_of hp hc, hin, and_self, if_true]
    exact ⟨_, rfl, tblGet_set_self .., fun r hne => tblGet_set_ne _ _ hne _, rfl⟩
  case period =>
    simp only [exec, execNightwatchPeriod, if_pos hm]
    obtain ⟨hper, hthr, halert, hstay, hexit, hrest⟩ := nightwatchPeriod_counts s l
    have hact (i : Nat) := any_trips (s.nw.thr.map fun e => e.after ((l.filter fun x => s.live x.tile).map s.nwSeen)) i
    refine ⟨_, rfl, hper, ⟨hthr, ?_, fun h => hstay ?_, fun h => hexit ?_⟩, hrest⟩
    · rw [halert, Bool.or_eq_true]
      exact or_congr_right (hact 0)
    · refine Bool.eq_false_iff.mpr fun ht => ?_
      obtain ⟨e, he, hen, hheld, hb⟩ := (hact 1).mp ht
      rw [h e he hen hheld] at hb
      cases hb
    · exact (hact 1).mpr h

end Sys2Proof.Machine
end

section
/-!
Digest jobs wait for a lane of their engine (R429).
-/
namespace Sys2Proof.Machine

theorem State.onTile_onTile (s : State) (t : TileId) (f g : Tile → Tile) : (s.onTile t f).onTile t g = s.onTile t fun x => g (f x) := by
  simp [State.onTile]

/-- The step by which a free lane chooses: the highest class, the oldest within it. -/
def Job.outranked (b : Option Job) (j : Job) : Option Job :=
  match b with
  | none => some j
  | some k => if j.cls < k.cls then some j else some k

theorem nextJob_eq (s : State) (t : TileId) : s.nextJob t = ((s.digest t).waiting.filter s.jobEligible).foldl Job.outranked none := (rfl)

/-- What a job that the lane takes is among those that wait. -/
def Job.first (p : Job → Bool) (l : List Job) (j : Job) : Prop :=
  ∃ before after, l = before ++ j :: after ∧ p j = true ∧ (∀ k ∈ before, p k = true → j.cls < k.cls) ∧
    ∀ k ∈ after, p k = true → j.cls ≤ k.cls

theorem Job.first_le {p : Job → Bool} {l : List Job} {j k : Job} (h : Job.first p l j) (hk : k ∈ l) (hp : p k = true) : j.cls ≤ k.cls := by
  obtain ⟨before, after, rfl, -, hbefore, hafter⟩ := h
  rcases List.mem_append.mp hk with hk | hk
  · exact Nat.le_of_lt (hbefore k hk hp)
  · rcases List.mem_cons.mp hk with rfl | hk
    · exact Nat.le_refl _
    · exact hafter k hk hp

/-- The choice over a list: nothing where no job may run, else the first of the highest class. -/
theorem foldl_outranked (p : Job → Bool) (l : List Job) :
    ((l.filter p).foldl Job.outranked none = none ∧ ∀ k ∈ l, p k = false) ∨
    ∃ j, (l.filter p).foldl Job.outranked none = some j ∧ Job.first p l j := by
  induction l using list_concat_induction with
  | nil => exact .inl ⟨rfl, fun _ h => absurd h List.not_mem_nil⟩
  | append_singleton l a ih =>
    rw [List.filter_append, List.foldl_append]
    cases hp : p a with
    | false =>
      have hnil : [a].filter p = [] := by simp [hp]
      rw [hnil, List.foldl_nil]
      rcases ih with ⟨hnone, hall⟩ | ⟨j, hj, before, after, hl, hpj, hbefore, hafter⟩
      · refine .inl ⟨hnone, fun k hk => ?_⟩
        rcases List.mem_append.mp hk with hk | hk
        · exact hall k hk
        · rw [List.mem_singleton.mp hk]; exact hp
      · refine .inr ⟨j, hj, before, after ++ [a], by rw [hl]; simp, hpj, hbefore, fun k hk hpk => ?_⟩
        rcases List.mem_append.mp hk with hk | hk
        · exact hafter k hk hpk
        · rw [List.mem_singleton.mp hk, hp] at hpk; cases hpk
    | true =>
      have hone : [a].filter p = [a] := by simp [hp]
      rw [hone, List.foldl_cons, List.foldl_nil]
      right
      rcases ih with ⟨hnone, hall⟩ | ⟨j, hj, hfirst⟩
      · refine ⟨a, by rw [hnone]; rfl, l, [], rfl, hp, fun k hk hpk => ?_, fun _ h => absurd h List.not_mem_nil⟩
        rw [hall k hk] at hpk; cases hpk
      · rw [hj, Job.outranked]
        by_cases hlt : a.cls < j.cls
        · exact ⟨a, if_pos hlt, l, [], rfl, hp, fun k hk hpk => Nat.lt_of_lt_of_le hlt (Job.first_le hfirst hk hpk),
            fun _ h => absurd h List.not_mem_nil⟩
        · obtain ⟨before, after, hl, hpj, hbefore, hafter⟩ := hfirst
          refine ⟨j, if_neg hlt, before, after ++ [a], by rw [hl]; simp, hpj, hbefore, fun k hk hpk => ?_⟩
          rcases List.mem_append.mp hk with hk | hk
          · exact hafter k hk hpk
          · rw [List.mem_singleton.mp hk]; exact Nat.le_of_not_lt hlt

/-- A lane that waits while a job may run finds the first of the highest class (R429). -/
theorem nextJob_first {s : State} {t : TileId} (h : ∃ j ∈ (s.digest t).waiting, s.jobEligible j = true) :
    ∃ j, s.nextJob t = some j ∧ Job.first s.jobEligible (s.digest t).waiting j := by
  obtain ⟨k, hk, hp⟩ := h
  rcases foldl_outranked s.jobEligible (s.digest t).waiting with ⟨-, hall⟩ | hfirst
  · rw [hall k hk] at hp; cases hp
  · exact hfirst

/-- Settles O17: the queue of the engine, and the choice of a free lane. -/
theorem digestJobsWaitForLanes : Obligations.DigestJobsWaitForLanes := by
  unfold Obligations.DigestJobsWaitForLanes
  refine ⟨⟨fun s c x u hf hu => ?digest, fun s c x u hf hu => ?hmac⟩, fun s t lane hidle hlive hfence hjob => ?take⟩
  case digest => simp only [exec, execDigest, hf, State.postJob, hu, State.onDigest, cmd?_ref (fresh?_cmd hf)]
  case hmac => simp only [exec, execHmac, hf, State.postJob, hu, State.onDigest, cmd?_ref (fresh?_cmd hf)]
  case take =>
    obtain ⟨j, hnext, before, after, hl, hpj, hbefore, hafter⟩ := nextJob_first hjob
    refine ⟨j, before, after, _, hl, hpj, hbefore, hafter, ?_, rfl⟩
    simp only [exec, execDigestLaneTake, hidle, hlive, hfence, and_self, if_true, hnext, State.setLane, State.onDigest,
      State.onTile_onTile, Job.onLane]

end Sys2Proof.Machine
end

section
/-!
What the fabric changes: a message that is sent (R466, R479, R489), and the abandoning of morsels (R323, R325).
-/
namespace Sys2Proof.Machine

/-! ### Sending -/

/-- From `s` to `t` messages have gone out over the edges: outputs are added, and of each tile only its edges and the votes on its domains
may have changed. -/
def wired (s t : State) : Prop :=
  (∃ more, t.out = s.out ++ more) ∧ t = { s with tiles := t.tiles, out := t.out } ∧
    ∀ u, t.tile u = { s.tile u with edges := (t.tile u).edges, doms := (t.tile u).doms }

theorem wired.refl (s : State) : wired s s := ⟨⟨[], (List.append_nil _).symm⟩, rfl, fun _ => rfl⟩

theorem wired.trans {s t u : State} (h : wired s t) (h' : wired t u) : wired s u := by
  obtain ⟨⟨l, hl⟩, ht, htile⟩ := h
  obtain ⟨⟨l', hl'⟩, hu, hutile⟩ := h'
  exact ⟨⟨l ++ l', by rw [hl', hl, List.append_assoc]⟩, by rw [hu, ht], fun v => by rw [hutile v, htile v]⟩

theorem wired.onEdge (s : State) (t : TileId) (e : EdgeId) (f : Edge → Edge) : wired s (s.onEdge t e f) := by
  refine ⟨⟨[], (List.append_nil _).symm⟩, rfl, fun u => ?_⟩
  by_cases h : u = t
  · subst h; rw [State.onEdge, State.onTile_tile]
  · rw [State.onEdge, State.onTile_tile_ne _ h]

theorem wired.castVote (s : State) (t : TileId) (d : DomId) (voter v : Nat) : wired s (s.castVote t d voter v) := by
  refine ⟨⟨[], by rw [castVote_frame, List.append_nil]⟩, by rw [castVote_frame], fun u => ?_⟩
  rw [castVote_tile]

theorem wired.emit (s : State) (o : Out) : wired s (s.emit o) := ⟨⟨[o], rfl⟩, rfl, fun _ => rfl⟩

theorem wired.emitAll (s : State) (l : List Out) : wired s (s.emitAll l) := ⟨⟨l, rfl⟩, rfl, fun _ => rfl⟩

theorem wired.pumpEdge (s : State) (t : TileId) (e : EdgeId) : wired s (s.pumpEdge t e) :=
  (wired.onEdge s t e _).trans (.emitAll _ _)

theorem wired.wakeLink (s : State) (t : TileId) (e : EdgeId) : wired s (s.wakeLink t e) := by
  unfold State.wakeLink
  split
  · exact .refl s
  · dsimp only
    have hcall (s : State) (v : TileId) (x : EdgeId) :
        wired s (if s.domOn v (domStir x.val) = true then s else s.castVote v (domN (domStir x.val)) 3 2) := by
      split
      · exact .refl s
      · exact .castVote ..
    split
    · exact ((wired.onEdge ..).trans (.onEdge ..)).trans (.pumpEdge ..)
    · exact (hcall s _ _).trans (hcall _ _ _)

/-- A message whose loss changes nothing at once: a request is found lost when its time is up. -/
def quietLoss (b : List Byte) : Prop := ∀ s : State, s.loseMsg b = s

theorem wired.sendEdge {b : List Byte} (hb : quietLoss b) (s : State) (t : TileId) (e : EdgeId) (vc : Nat) : wired s (s.sendEdge t e vc b) := by
  unfold State.sendEdge
  dsimp only
  have hpump := (wired.onEdge s t e fun y => { y with held := y.held ++ [(vc, b)] }).trans (.pumpEdge _ t e)
  split
  · exact hpump
  · rw [hb]; exact .refl s
  · rw [hb]; exact .refl s
  · split
    · exact .emit ..
    · split
      · exact hpump
      · split
        · exact (wired.onEdge ..).trans (.wakeLink ..)
        · exact (wired.onEdge ..).trans (.castVote ..)

theorem wired.forward {b : List Byte} (hb : quietLoss b) (s : State) (t : TileId) : wired s (s.forward t b) := by
  unfold State.forward
  dsimp only
  split
  · rw [hb]; exact .refl s
  · exact .sendEdge hb ..

/-- The messages of the response class but XACK, and the requests, are not found lost where they are sent. -/
theorem quietLoss_of {mtype : Nat} (h : mtype < 256) (hvc : msgVc mtype ≠ some 3) (hx : mtype ≠ 0x20 ∧ mtype ≠ 0x14) (hd : MsgHdr) (body : List Byte) :
    quietLoss (msgBytes mtype hd body) := by
  intro s
  have hbyte : byteAt (msgBytes mtype hd body) 0 = mtype := by
    show (BitVec.ofNat 8 mtype).toNat = mtype
    rw [BitVec.toNat_ofNat]
    exact Nat.mod_eq_of_lt h
  unfold State.loseMsg
  dsimp only
  rw [hbyte, if_neg (not_or.mpr hx), if_neg (fun h => hvc h.1)]

/-- The header of a message that a tile sends. -/
def sentHdr (mtype len : Nat) (src : TileId) (sa : Fin 64) (dst : TileId) (da : Fin 64) (x : MsgCtx) : MsgHdr :=
  { vc := (msgVc mtype).getD 0, len := len, srcTile := src, srcAgent := sa, dstTile := dst, dstAgent := da
    slice := x.slice, sgen := x.sgen, queue := x.queue, qgen := x.qgen }

/-- A message that is sent stands in the outputs, with what the links make of it behind it. -/
theorem sendMsg_wired {mtype : Nat} (h : mtype < 256) (hvc : msgVc mtype ≠ some 3) (hx : mtype ≠ 0x20 ∧ mtype ≠ 0x14) (s : State) (len : Nat)
    (src : TileId) (sa : Fin 64) (dst : TileId) (da : Fin 64) (x : MsgCtx) (body : List Byte) :
    wired (s.emit (.msg mtype (sentHdr mtype len src sa dst da x) (cut body 0 (len - 16)))) (s.sendMsg mtype len src sa dst da x body) := by
  unfold State.sendMsg
  dsimp only
  split
  · exact .refl _
  · exact .forward (quietLoss_of h hvc hx _ _) ..

/-- An answer is on its way, and of the state only edges and votes have changed. -/
theorem answer_wired {mtype : Nat} (hm : mtype = 0x11 ∨ mtype = 0x12 ∨ mtype = 0x13) (s : State) (h : MsgHdr) (body : List Byte) :
    wired (s.emit (.msg mtype (sentHdr mtype (msgLen mtype).1 h.dstTile h.dstAgent h.srcTile h.srcAgent (ctxOf h))
      (cut body 0 ((msgLen mtype).1 - 16)))) (s.answer h mtype body) := by
  refine sendMsg_wired ?_ ?_ ?_ ..
  · rcases hm with rfl | rfl | rfl <;> decide
  · rcases hm with rfl | rfl | rfl <;> decide
  · rcases hm with rfl | rfl | rfl <;> decide

/-- An answer as the requester sees it. -/
theorem answer_answers {mtype : Nat} (hm : mtype = 0x11 ∨ mtype = 0x12 ∨ mtype = 0x13) (s : State) (h : MsgHdr) (body : List Byte) :
    answers s (s.answer h mtype body) h mtype (cut body 0 ((msgLen mtype).1 - 16)) := by
  obtain ⟨⟨more, hmore⟩, -⟩ := answer_wired hm s h body
  refine ⟨sentHdr mtype (msgLen mtype).1 h.dstTile h.dstAgent h.srcTile h.srcAgent (ctxOf h), more, rfl, rfl, rfl, rfl, hmore.trans ?_⟩
  rw [State.emit, List.append_assoc]
  rfl

/-! ### Abandoning -/

/-- From `s` to `t` morsels have stopped and queries failed: no queue, key or byte of the tiers, and no request that waits, has changed,
and a PE runs what it ran or nothing. -/
def endsRuns (s t : State) : Prop :=
  t.queues = s.queues ∧ t.keys = s.keys ∧ t.mem = s.mem ∧
    ∀ u, (t.tile u).reqs = (s.tile u).reqs ∧ ∀ i : Fin 16, (t.tile u).runs[i] = (s.tile u).runs[i] ∨ (t.tile u).runs[i] = none

/-- An update that leaves requests and runs. -/
theorem endsRuns.of_eq {s t : State} (hq : t.queues = s.queues) (hk : t.keys = s.keys) (hm : t.mem = s.mem)
    (h : ∀ u, (t.tile u).reqs = (s.tile u).reqs ∧ (t.tile u).runs = (s.tile u).runs) : endsRuns s t :=
  ⟨hq, hk, hm, fun u => ⟨(h u).1, fun i => .inl (by rw [(h u).2])⟩⟩

theorem endsRuns.refl (s : State) : endsRuns s s := .of_eq rfl rfl rfl fun _ => ⟨rfl, rfl⟩

theorem endsRuns.trans {s t u : State} (h : endsRuns s t) (h' : endsRuns t u) : endsRuns s u := by
  obtain ⟨hq, hk, hm, htile⟩ := h
  obtain ⟨hq', hk', hm', htile'⟩ := h'
  refine ⟨hq'.trans hq, hk'.trans hk, hm'.trans hm, fun v => ⟨(htile' v).1.trans (htile v).1, fun i => ?_⟩⟩
  rcases (htile' v).2 i with h | h
  · rw [h]; exact (htile v).2 i
  · exact .inr h

theorem endsRuns.foldl {α : Type} {f : State → α → State} (h : ∀ s a, endsRuns s (f s a)) (l : List α) (s : State) : endsRuns s (l.foldl f s) :=
  List.foldlRecOn (motive := endsRuns s) l f (.refl s) fun t ht a _ => ht.trans (h t a)

/-- A tile whose requests and runs stay. -/
theorem endsRuns.onTile (s : State) (t : TileId) (f : Tile → Tile) (hf : ∀ x, (f x).reqs = x.reqs ∧ (f x).runs = x.runs) :
    endsRuns s (s.onTile t f) := by
  refine .of_eq rfl rfl rfl fun u => ?_
  by_cases h : u = t
  · subst h; rw [State.onTile_tile]; exact hf _
  · rw [State.onTile_tile_ne _ h]; exact ⟨rfl, rfl⟩

theorem endsRuns.onSlc (s : State) (n : Nat) (f : Slice → Slice) : endsRuns s (s.onSlc n f) := .of_eq rfl rfl rfl fun _ => ⟨rfl, rfl⟩

theorem endsRuns.onQuery (s : State) (n : Nat) (f : Query → Query) : endsRuns s (s.onQuery n f) := .of_eq rfl rfl rfl fun _ => ⟨rfl, rfl⟩

theorem endsRuns.bump (s : State) : endsRuns s s.bump := .of_eq rfl rfl rfl fun _ => ⟨rfl, rfl⟩

theorem endsRuns.revoteAll (s : State) : endsRuns s s.revoteAll :=
  .of_eq (by rw [revoteAll_frame]) (by rw [revoteAll_frame]) (by rw [revoteAll_frame]) fun u => by rw [revoteAll_tile]; exact ⟨rfl, rfl⟩

theorem endsRuns.finish (s : State) (c : CmdRef) (k : Completion) : endsRuns s (s.finish c k) :=
  .of_eq (by rw [finish_frame]) (by rw [finish_frame]) (by rw [finish_frame]) fun u => by rw [finish_tile]; exact ⟨rfl, rfl⟩

theorem endsRuns.logErr (s : State) (t : TileId) (r : ErrRec) : endsRuns s (s.logErr t r) :=
  .of_eq (by rw [logErr_frame]) (by rw [logErr_frame]) (by rw [logErr_frame]) fun u => by rw [logErr_tile_any]; exact ⟨rfl, rfl⟩

theorem endsRuns.trace (s : State) (t : TileId) (r : Trace) : endsRuns s (s.trace t r) :=
  .onTile s t _ fun x => by split <;> exact ⟨rfl, rfl⟩

theorem endsRuns.discardOn (s : State) (t : TileId) (p : Token → Bool) (reason : Nat) : endsRuns s (s.discardOn t p reason) := by
  unfold State.discardOn
  refine (endsRuns.onTile s t _ ?_).trans (.foldl (fun s _ => .trace s t _) _ _)
  exact fun _ => ⟨rfl, rfl⟩

theorem endsRuns.discard (s : State) (p : Token → Bool) (reason : Nat) : endsRuns s (s.discard p reason) :=
  .foldl (fun s t => .discardOn s t p reason) _ s

theorem endsRuns.settleEnergy (s : State) (t : TileId) (h : Nat) (r : Run) (em : Nat) : endsRuns s (s.settleEnergy t h r em) := by
  unfold State.settleEnergy
  exact (endsRuns.onSlc ..).trans (.onTile _ _ _ fun _ => ⟨rfl, rfl⟩)

theorem endsRuns.stopCalls (s : State) (g : Gpe) : endsRuns s (s.stopCalls g) := .onTile s _ _ fun _ => ⟨rfl, rfl⟩

theorem endsRuns.setRun (s : State) (g : Gpe) : endsRuns s (s.setRun g none) := by
  refine ⟨rfl, rfl, rfl, fun u => ?_⟩
  by_cases h : u = gpeTile g
  · subst h
    rw [State.setRun, State.onTile_tile]
    refine ⟨rfl, fun i => ?_⟩
    show ((s.tile (gpeTile g)).runs.set (gpeLocal g).val none (gpeLocal g).isLt)[i.val] = _ ∨ _
    rw [Vector.getElem_set]
    split
    · right
      show ((s.tile (gpeTile g)).runs.set (gpeLocal g).val none (gpeLocal g).isLt)[i.val] = _
      rw [Vector.getElem_set, if_pos (by assumption)]
    · exact .inl rfl
  · rw [State.setRun, State.onTile_tile_ne _ h]
    exact ⟨rfl, fun _ => .inl rfl⟩

theorem endsRuns.stopRun (s : State) (qid : Nat) (g : Gpe) : endsRuns s (s.stopRun qid g) := by
  unfold State.stopRun
  split
  · split
    · exact (((endsRuns.setRun ..).trans (.stopCalls ..)).trans (.settleEnergy ..)).trans (.bump _)
    · exact .refl s
  · exact .refl s

theorem endsRuns.releaseQuery (s : State) (q : Query) : endsRuns s (s.releaseQuery q) := by
  unfold State.releaseQuery
  have h := endsRuns.foldl (f := fun s r => s.onSlc q.slice fun y => y.charge r.2.1 (· - r.2.2)) (fun s _ => .onSlc s _ _) q.charged s
  exact (h.trans (.onQuery ..)).trans (.revoteAll _)

theorem endsRuns.removeQuery (s : State) (qid reason : Nat) : endsRuns s (s.removeQuery qid reason) := by
  unfold State.removeQuery
  dsimp only
  have hstop (l : List Nat) (s : State) : endsRuns s (l.foldl (fun s n => s.stopRun qid (gpeN n)) s) := .foldl (fun s n => .stopRun s _ _) l s
  have hdrop (l : List TileId) (s : State) : endsRuns s (l.foldl (fun s t => s.onTile t (Tile.dropQuery qid)) s) :=
    .foldl (fun s t => .onTile s t (Tile.dropQuery qid) fun _ => ⟨rfl, rfl⟩) l s
  have hqueries (s : State) : endsRuns s { s with queries := s.queries.filter fun q => decide (q.qid ≠ qid) } :=
    .of_eq rfl rfl rfl fun _ => ⟨rfl, rfl⟩
  refine endsRuns.trans ?_ (hqueries _)
  refine endsRuns.trans ?_ (hdrop _ _)
  refine endsRuns.trans ?_ (hstop _ _)
  split
  · exact (endsRuns.discard ..).trans (.releaseQuery ..)
  · exact .discard ..

theorem endsRuns.stage (s : State) (cs : List Host.Cell) : endsRuns s (s.stage cs) :=
  .of_eq (by rw [stage_eq]) (by rw [stage_eq]) (by rw [stage_eq]) fun u => by rw [stage_tile]; exact ⟨rfl, rfl⟩

theorem endsRuns.undefine (s : State) (id : Nat) : endsRuns s (s.undefine id) := by
  unfold State.undefine
  dsimp only
  split
  · exact .refl s
  · exact endsRuns.trans (.of_eq rfl rfl rfl fun _ => ⟨rfl, rfl⟩) (.stage ..)

theorem endsRuns.settleFailing (s : State) (qid : Nat) : endsRuns s (s.settleFailing qid) := by
  unfold State.settleFailing
  split
  · exact .refl s
  · split
    · exact .refl s
    · split
      · exact .refl s
      · dsimp only
        refine endsRuns.trans ?_ (.revoteAll _)
        refine endsRuns.trans ?_ (.removeQuery ..)
        refine endsRuns.trans ?_ (.finish ..)
        split
        · exact .foldl .undefine _ _
        · exact .refl s

theorem endsRuns.failQuery (s : State) (qid : Nat) (f : Fail) : endsRuns s (s.failQuery qid f) := by
  unfold State.failQuery
  split
  · exact .refl s
  · dsimp only
    refine endsRuns.trans ?_ (.settleFailing ..)
    have hlog (q : Query) (o : Option Nat) :
        endsRuns s (match o with | some e => s.logErr (tid q.home) (s.failRecord q f e) | none => s) := by
      cases o
      · exact .refl s
      · exact .logErr ..
    split
    · split
      · exact (endsRuns.logErr ..).trans (.onQuery ..)
      · exact (endsRuns.refl _).trans (.onQuery ..)
    · refine endsRuns.trans ?_ (.discard ..)
      split
      · exact (endsRuns.logErr ..).trans (.onQuery ..)
      · exact (endsRuns.refl _).trans (.onQuery ..)

theorem endsRuns.plan (s : State) (qid : Nat) (t : Nat) (k : Token) : endsRuns s (s.plan qid t k) :=
  (endsRuns.onQuery ..).trans (.onSlc ..)

theorem run?_setRun (s : State) (g : Gpe) (r : Option Run) : (s.setRun g r).run? g = r := by
  unfold State.run? State.setRun
  rw [State.onTile_tile]
  show ((s.tile (gpeTile g)).runs.set (gpeLocal g).val r (gpeLocal g).isLt)[(gpeLocal g).val] = r
  rw [Vector.getElem_set_self]

/-- A run that has stopped stays stopped. -/
theorem endsRuns.run_none {s t : State} (h : endsRuns s t) {g : Gpe} (hg : s.run? g = none) : t.run? g = none := by
  obtain ⟨-, -, -, htile⟩ := h
  rcases (htile (gpeTile g)).2 (gpeLocal g) with h | h
  · exact h.trans hg
  · exact h

/-- An abandoned morsel's PE runs nothing (R323). -/
theorem abandon_stops (s : State) (g : Gpe) : endsRuns s (s.abandon g) ∧ (s.abandon g).run? g = none := by
  unfold State.abandon
  split
  next hnone => exact ⟨.refl s, hnone⟩
  next r hr =>
    have hstop : endsRuns (s.setRun g none) ((((s.setRun g none).stopCalls g).settleEnergy (gpeTile g)
        (((s.setRun g none).stopCalls g).handleOf r.qid) r (Config.freeNat ((s.setRun g none).stopCalls g).tick)).bump) :=
      ((endsRuns.stopCalls ..).trans (.settleEnergy ..)).trans (.bump _)
    dsimp only
    refine (fun h : ∀ t, endsRuns (s.setRun g none) t → endsRuns s t ∧ t.run? g = none => h _ ?_)
      fun t ht => ⟨(endsRuns.setRun s g).trans ht, ht.run_none (run?_setRun ..)⟩
    have htrace (e : Trace) := hstop.trans (.trace _ (gpeTile g) e)
    split
    · exact htrace _
    · split
      · exact htrace _
      · split
        · exact (htrace _).trans (.plan ..)
        · exact (htrace _).trans (.failQuery ..)

end Sys2Proof.Machine
end

section
/-!
Requests at their destination and their responses (R92, R329, R367, R481, R490).
-/
namespace Sys2Proof.Machine

/-! ### Requests outstanding -/

/-- From `s` to `t` only the requests outstanding at tiles have changed. -/
def onlyReqs (s t : State) : Prop := t = { s with tiles := t.tiles } ∧ ∀ u, t.tile u = { s.tile u with reqs := (t.tile u).reqs }

theorem addReq_onlyReqs (s : State) (h : MsgHdr) (mtype tag : Nat) : onlyReqs s (s.addReq h mtype tag) := by
  unfold State.addReq
  dsimp only
  split
  · exact ⟨rfl, fun _ => rfl⟩
  · refine ⟨rfl, fun u => ?_⟩
    by_cases hu : u = h.srcTile
    · subst hu; rw [State.onTile_tile]
    · rw [State.onTile_tile_ne _ hu]

theorem onlyReqs.stale {s t : State} (ht : onlyReqs s t) (h : MsgHdr) : t.stale? h = s.stale? h := by
  rw [State.stale?, State.stale?, State.slc, State.slc, State.queue, State.queue, ht.1]

theorem onlyReqs.served {s t : State} {h : MsgHdr} (ht : onlyReqs s t) (hs : served s h) : served t h := by
  obtain ⟨hlive, hdom, hstale⟩ := hs
  refine ⟨?_, fun d hd => ?_, (ht.stale h).trans hstale⟩
  · rw [ht.1]; exact hlive
  · rw [State.domOn, ht.2]; exact hdom d hd

theorem onlyReqs.cell {s t : State} (ht : onlyReqs s t) (a : Nat) : t.cell? a = s.cell? a :=
  cell?_congr a (by rw [ht.2]) (by rw [ht.1])

theorem onlyReqs.sameStore {s t : State} (ht : onlyReqs s t) : sameStore s t :=
  ⟨by rw [ht.1], by rw [ht.1], fun u => by rw [ht.2]⟩

theorem onlyReqs.lineStat {s t : State} (ht : onlyReqs s t) (h : MsgHdr) (a : Nat) : t.lineStat h a = s.lineStat h a := by
  have hcap (n tier : Nat) : t.tierCap n tier = s.tierCap n tier := by
    unfold State.tierCap
    rw [ht.2]
  have hbad : t.addrBad a = s.addrBad a := by
    have hlive : t.live (tid (addrTile a)) = s.live (tid (addrTile a)) := by rw [ht.1]; rfl
    rw [State.addrBad, State.addrBad, hlive, hcap]
  have hseg : t.segAt a = s.segAt a := by rw [State.segAt, State.segAt, ht.1]
  have hpoison : t.poison = s.poison := by rw [ht.1]
  have hsram : (t.tile h.dstTile).sramPoison = (s.tile h.dstTile).sramPoison := by rw [ht.2]
  unfold State.lineStat
  rw [hbad, hseg, hpoison, hsram]

theorem onlyReqs.lineBytes {s t : State} (ht : onlyReqs s t) (h : MsgHdr) (a : Nat) : t.lineBytes h a = s.lineBytes h a := by
  have hseg : t.segAt a = s.segAt a := by rw [State.segAt, State.segAt, ht.1]
  have htick : t.tick = s.tick := by rw [ht.1]
  unfold State.lineBytes State.storeByte
  simp only [hseg, htick, ht.cell]

/-- What is served where it arrives is delivered. -/
theorem arrive_served {s : State} {h : MsgHdr} (hs : served s h) (b : List Byte) (go : State → State) : s.arrive h b go = go s := by
  obtain ⟨hlive, hdom, hstale⟩ := hs
  unfold State.arrive
  rw [if_neg (by rw [hlive]; decide), hstale]
  cases hd : agentDom h.dstAgent with
  | none => rfl
  | some d => dsimp only; rw [if_pos (hdom d hd)]; rfl

/-! ### What a message that goes out leaves -/

theorem wired.cell {s t : State} (h : wired s t) (a : Nat) : t.cell? a = s.cell? a :=
  cell?_congr a (by rw [h.2.2]) (by rw [h.2.1])

theorem wired.sameStore {s t : State} (h : wired s t) : sameStore s t :=
  ⟨by rw [h.2.1], by rw [h.2.1], fun u => by rw [h.2.2]⟩

theorem sameStore.trans {s t u : State} (h : sameStore s t) (h' : sameStore t u) : sameStore s u :=
  ⟨h'.1.trans h.1, h'.2.1.trans h.2.1, fun v => (h'.2.2 v).trans (h.2.2 v)⟩

/-- An answer leaves the store as it was. -/
theorem answer_sent {mtype : Nat} (hm : mtype = 0x11 ∨ mtype = 0x12 ∨ mtype = 0x13) (s : State) (h : MsgHdr) (body : List Byte) :
    let t := s.answer h mtype body
    sameStore s t ∧ (∀ a, t.cell? a = s.cell? a) ∧ (∀ j, t.seg j = s.seg j) ∧ t.poison = s.poison ∧ t.cmds = s.cmds ∧ t.blocks = s.blocks ∧
      ∀ u, (t.tile u).sramPoison = (s.tile u).sramPoison := by
  intro t
  have hw : wired _ t := answer_wired hm s h body
  clear_value t
  refine ⟨hw.sameStore, fun a => hw.cell a, fun j => seg_congr (s := s) (by rw [hw.2.1]; rfl) j, by rw [hw.2.1]; rfl, by rw [hw.2.1]; rfl, by rw [hw.2.1]; rfl,
    fun u => by rw [hw.2.2]; rfl⟩

/-- The answer of a state that has put out nothing since `s` is an answer from `s`. -/
theorem answers_of_out {s u t : State} (hu : u.out = s.out) {h : MsgHdr} {mtype : Nat} {body : List Byte} (ha : answers u t h mtype body) :
    answers s t h mtype body := by
  obtain ⟨h', more, h1, h2, h3, h4, hout⟩ := ha
  exact ⟨h', more, h1, h2, h3, h4, by rw [hout, hu]⟩

/-! ### Lines (R481) -/

/-- The body of an answer to a line write: the padding that fills its length. -/
theorem cut_ack (tag st : Nat) : cut (leBytes 2 tag ++ leBytes 1 st) 0 4 = leBytes 2 tag ++ leBytes 1 st ++ [0] := rfl

theorem mem_maskedCells {a : Nat} {mask : BitVec 64} {data : List Byte} {c : Host.Cell} :
    c ∈ maskedCells a mask data ↔ ∃ i, i < 64 ∧ mask.getLsbD i = true ∧ c = (a + i, data.getD i 0) := by
  have hcut (i : Nat) (b : Byte) : (cut data 0 64)[i]? = some b ↔ i < 64 ∧ b = data.getD i 0 := by
    unfold cut
    dsimp only
    rw [List.drop_zero, List.length_take, List.getD_eq_getElem?_getD]
    rcases Nat.lt_or_ge i (min 64 data.length) with h | h
    · rw [List.getElem?_append_left (by simpa using h), List.getElem?_take_of_lt (by omega)]
      have hlen : i < data.length := by omega
      rw [List.getElem?_eq_getElem hlen]
      constructor
      · intro hb; exact ⟨by omega, (Option.some.inj hb).symm⟩
      · rintro ⟨-, rfl⟩; rfl
    · rw [List.getElem?_append_right (by simpa using h), List.getElem?_replicate, List.length_take]
      have hmin : min 64 data.length ≤ i := h
      split
      next hlt =>
        have hnone : data[i]? = none := List.getElem?_eq_none (by omega)
        rw [hnone]
        constructor
        · intro hb; exact ⟨by omega, (Option.some.inj hb).symm⟩
        · rintro ⟨-, rfl⟩; rfl
      next hlt =>
        constructor
        · intro hb; cases hb
        · rintro ⟨hi, -⟩; omega
  unfold maskedCells
  simp only [List.mem_map, List.mem_filter, List.mem_zipIdx_iff_getElem?]
  constructor
  · rintro ⟨⟨b, i⟩, ⟨hb, hm⟩, rfl⟩
    obtain ⟨hi, rfl⟩ := (hcut i b).mp hb
    exact ⟨i, hi, hm, rfl⟩
  · rintro ⟨i, hi, hm, rfl⟩
    exact ⟨(data.getD i 0, i), ⟨(hcut i _).mpr ⟨hi, rfl⟩, hm⟩, rfl⟩

/-- What a line write does to the store before it answers. -/
def storeLine (s : State) (a : Nat) (cells : List Host.Cell) : State :=
  let u := ((s.stage cells).cleanse cells).drainFull
  if cells ≠ [] then (s.segAt a).elim u fun e => u.onSeg e.1 fun g => { g with dirty := true } else u

theorem storeLine_cells (s : State) (a : Nat) (mask : BitVec 64) (data : List Byte) :
    (∀ i < 64, mask.getLsbD i = true → (storeLine s a (maskedCells a mask data)).cell? (a + i) = some (data.getD i 0)) ∧
    ∀ x, (∀ i < 64, mask.getLsbD i = true → x ≠ a + i) → (storeLine s a (maskedCells a mask data)).cell? x = s.cell? x := by
  have hcell (x : Nat) : (storeLine s a (maskedCells a mask data)).cell? x = (s.stage (maskedCells a mask data)).cell? x := by
    have hdrain : ((s.stage (maskedCells a mask data)).cleanse (maskedCells a mask data)).drainFull.cell? x =
        (s.stage (maskedCells a mask data)).cell? x := by rw [drainFull_cell, cleanse_cell]
    unfold storeLine
    dsimp only
    generalize ((s.stage (maskedCells a mask data)).cleanse (maskedCells a mask data)).drainFull = u at hdrain
    split
    · cases s.segAt a with
      | some e => rw [Option.elim_some, onSeg_cell, hdrain]
      | none => rw [Option.elim_none, hdrain]
    · exact hdrain
  refine ⟨fun i hi hm => ?_, fun x hx => ?_⟩
  · rw [hcell]
    refine stage_cell_in _ _ _ _ ⟨_, mem_maskedCells.mpr ⟨i, hi, hm, rfl⟩, rfl⟩ fun c hc he => ?_
    obtain ⟨j, -, -, rfl⟩ := mem_maskedCells.mp hc
    have hij : j = i := Nat.add_left_cancel he
    rw [hij]
  · rw [hcell]
    refine stage_cell_out _ _ _ fun c hc he => ?_
    obtain ⟨j, hj, hm, rfl⟩ := mem_maskedCells.mp hc
    exact hx j hj hm he.symm

theorem storeLine_frame (s : State) (a : Nat) (cells : List Host.Cell) :
    (storeLine s a cells).out = s.out ∧ (storeLine s a cells).cmds = s.cmds ∧
      ∀ j, (∀ e, s.segAt a = some e → j ≠ e.1) → (storeLine s a cells).seg j = s.seg j := by
  have hframe : ((s.stage cells).cleanse cells).drainFull =
      { s with
        mem := ((s.stage cells).cleanse cells).drainFull.mem
        tiles := ((s.stage cells).cleanse cells).drainFull.tiles
        poison := ((s.stage cells).cleanse cells).poison } := by
    rw [drainFull_eq, cleanse_eq, stage_eq]
  unfold storeLine
  dsimp only
  generalize ((s.stage cells).cleanse cells).drainFull = u at hframe
  have hsegs (j : Nat) : u.seg j = s.seg j := seg_congr (by rw [hframe]) j
  split
  · cases hat : s.segAt a with
    | none =>
      rw [Option.elim_none]
      exact ⟨by rw [hframe], by rw [hframe], fun j _ => hsegs j⟩
    | some e =>
      rw [Option.elim_some]
      refine ⟨?_, ?_, fun j hj => ?_⟩
      · show u.out = _; rw [hframe]
      · show u.cmds = _; rw [hframe]
      · rw [State.onSeg, seg_setSeg, if_neg (hj e rfl), hsegs]
  · exact ⟨by rw [hframe], by rw [hframe], fun j _ => hsegs j⟩

/-- A line write of a memory agent at a line that is good or poisoned. -/
theorem writeLine_stores {s : State} {h : MsgHdr} {addr : Nat} (hag : agentTier h.dstAgent ≠ none) (hst : s.lineStat h (lineBase addr) ≤ 1)
    (tag : Nat) (mask : BitVec 64) (data : List Byte) :
    writeLine h tag addr mask data s = (storeLine s (lineBase addr) (maskedCells (lineBase addr) mask data)).answer h 0x12
      (leBytes 2 tag ++ leBytes 1 0) := by
  have hsome : (agentTier h.dstAgent).isSome = true := Option.isSome_iff_ne_none.mpr hag
  have hnone : (agentTier h.dstAgent).isNone = false := by rw [← Option.not_isSome, hsome]; rfl
  have hok : (s.lineStat h (lineBase addr) == 0 || s.lineStat h (lineBase addr) == 1) = true := by
    rcases Nat.le_one_iff_eq_zero_or_eq_one.mp hst with h | h <;> rw [h] <;> rfl
  have hzero : (if s.lineStat h (lineBase addr) = 1 then 0 else s.lineStat h (lineBase addr)) = 0 := by
    split <;> omega
  unfold writeLine storeLine
  dsimp only
  generalize maskedCells (lineBase addr) mask data = cells
  rw [hsome, hok, hzero, hnone, if_neg (c := false = true ∧ mask = BitVec.allOnes 64) (fun h => absurd h.1 (by decide)),
    if_pos (c := (true && true) = true) rfl]
  have hseg : ((s.stage cells).cleanse cells).drainFull.segAt (lineBase addr) = s.segAt (lineBase addr) := by
    rw [State.segAt, State.segAt, drainFull_eq, cleanse_eq, stage_eq]
  generalize ((s.stage cells).cleanse cells).drainFull = u at hseg
  by_cases hc : cells ≠ []
  · rw [if_pos ⟨rfl, hc⟩, if_pos hc, hseg]
    cases s.segAt (lineBase addr) with
    | none => rfl
    | some e => rfl
  · rw [if_neg fun h => hc h.2, if_neg hc]

/-- A line write that stores nothing: the agent of a working SRAM, or a line in error. -/
theorem writeLine_answers {s : State} {h : MsgHdr} {addr : Nat}
    (hno : ((agentTier h.dstAgent).isSome && (s.lineStat h (lineBase addr) == 0 || s.lineStat h (lineBase addr) == 1)) = false)
    (tag : Nat) (mask : BitVec 64) (data : List Byte) :
    writeLine h tag addr mask data s =
      (if (agentTier h.dstAgent).isNone = true ∧ mask = BitVec.allOnes 64 then
        s.onTile h.dstTile fun x => { x with sramPoison := x.sramPoison.filter (· ≠ sramLineOf h (lineBase addr)) }
      else s).answer h 0x12 (leBytes 2 tag ++ leBytes 1 (if s.lineStat h (lineBase addr) = 1 then 0 else s.lineStat h (lineBase addr))) := by
  unfold writeLine
  dsimp only
  rw [hno, if_neg (by simp)]
  exact congrArg (fun u : State => u.answer h 0x12 _) (if_neg (by simp))

end Sys2Proof.Machine
end

section
/-!
RD_LINE, WR_LINE, register accesses, responses and lost requests (R92, R329, R481, R490).
-/
namespace Sys2Proof.Machine

/-! ### Lines -/

theorem length_lineBytes (s : State) (h : MsgHdr) (a : Nat) : (s.lineBytes h a).length = 64 := by
  rw [State.lineBytes, List.length_map, List.length_range]

/-- The data of an answer to RD_LINE: the line, or bytes that nothing states. -/
def State.lineData (s : State) (h : MsgHdr) (a : Nat) : List Byte :=
  if s.lineStat h a = 0 then s.lineBytes h a else (List.range 64).map fun i => Config.undefByte s.tick (a + i)

theorem length_lineData (s : State) (h : MsgHdr) (a : Nat) : (s.lineData h a).length = 64 := by
  unfold State.lineData
  split
  · exact length_lineBytes ..
  · rw [List.length_map, List.length_range]

theorem exec_rdLine {s : State} {h : MsgHdr} (hs : served s h) (tag addr : Nat) :
    exec (.rdLine h tag addr) s = .next (readLine h tag addr (s.addReq h 0x01 tag)) := by
  simp only [exec, execRdLine, arrive_served ((addReq_onlyReqs s h 0x01 tag).served hs)]

theorem exec_wrLine {s : State} {h : MsgHdr} (hs : served s h) (tag addr : Nat) (mask : BitVec 64) (data : List Byte) :
    exec (.wrLine h tag addr mask data) s = .next (writeLine h tag addr mask data (s.addReq h 0x02 tag)) := by
  simp only [exec, execWrLine, arrive_served ((addReq_onlyReqs s h 0x02 tag).served hs)]

theorem rdLine_answers {s : State} {h : MsgHdr} (hs : served s h) (tag addr : Nat) :
    ∃ t : State, exec (.rdLine h tag addr) s = .next t ∧
      answers s t h 0x11 (leBytes 2 tag ++ leBytes 1 (s.lineStat h (lineBase addr)) ++ leBytes 5 0 ++ s.lineData h (lineBase addr)) ∧
      sameStore s t ∧ t.poison = s.poison ∧ t.cmds = s.cmds ∧ ∀ x, t.cell? x = s.cell? x := by
  have hreq := addReq_onlyReqs s h 0x01 tag
  rw [exec_rdLine hs]
  generalize s.addReq h 0x01 tag = u at hreq
  have hdata : u.lineData h (lineBase addr) = s.lineData h (lineBase addr) := by
    rw [State.lineData, State.lineData, hreq.lineStat, hreq.lineBytes, show u.tick = s.tick by rw [hreq.1]]
  have hread : readLine h tag addr u = u.answer h 0x11
      (leBytes 2 tag ++ leBytes 1 (u.lineStat h (lineBase addr)) ++ leBytes 5 0 ++ u.lineData h (lineBase addr)) := rfl
  rw [hreq.lineStat, hdata] at hread
  have hlen : (leBytes 2 tag ++ leBytes 1 (s.lineStat h (lineBase addr)) ++ leBytes 5 0 ++ s.lineData h (lineBase addr)).length = 72 := by
    simp [length_lineData]
  generalize leBytes 2 tag ++ leBytes 1 (s.lineStat h (lineBase addr)) ++ leBytes 5 0 ++ s.lineData h (lineBase addr) = body at hread hlen
  obtain ⟨hstore, hcell, -, hpoison, hcmds, -⟩ := answer_sent (.inl rfl) u h body
  have hans := answer_answers (.inl rfl) u h body
  rw [show cut body 0 ((msgLen 0x11).1 - 16) = body from cut_zero_of_length hlen] at hans
  refine ⟨_, congrArg _ hread, answers_of_out (by rw [hreq.1]) hans, hreq.sameStore.trans hstore, ?_, ?_, fun x => (hcell x).trans (hreq.cell x)⟩
  · rw [hpoison, hreq.1]
  · rw [hcmds, hreq.1]

/-- The answer to a line write, after what it did to the store. -/
theorem ack_answers (u : State) (h : MsgHdr) (tag st : Nat) :
    answers u (u.answer h 0x12 (leBytes 2 tag ++ leBytes 1 st)) h 0x12 (leBytes 2 tag ++ leBytes 1 st ++ [0]) :=
  answer_answers (.inr (.inl rfl)) u h (leBytes 2 tag ++ leBytes 1 st)

theorem byteAt_cast (bs : List Byte) (i : Nat) : ((byteAt bs i : Nat) : Byte) = bs.getD i 0 := by
  show BitVec.ofNat 8 (bs.getD i 0).toNat = _
  rw [BitVec.ofNat_toNat, BitVec.setWidth_eq]

/-- WR_LINE at a memory agent: the bytes of the mask are stored. -/
theorem wrLine_stores {s : State} {h : MsgHdr} {addr : Nat} (hs : served s h) (hag : agentTier h.dstAgent ≠ none)
    (hst : s.lineStat h (lineBase addr) ≤ 1) (tag : Nat) (mask : BitVec 64) (data : List Byte) :
    ∃ t : State, exec (.wrLine h tag addr mask data) s = .next t ∧ answers s t h 0x12 (leBytes 2 tag ++ [0, 0]) ∧
      (∀ i < 64, mask.getLsbD i = true → t.cell? (lineBase addr + i) = some (data.getD i 0)) ∧
      (∀ x, (∀ i < 64, mask.getLsbD i = true → x ≠ lineBase addr + i) → t.cell? x = s.cell? x) ∧
      (∀ j, (∀ e, s.segAt (lineBase addr) = some e → j ≠ e.1) → t.seg j = s.seg j) ∧ t.cmds = s.cmds := by
  have hreq := addReq_onlyReqs s h 0x02 tag
  rw [exec_wrLine hs]
  generalize s.addReq h 0x02 tag = u at hreq
  rw [writeLine_stores hag (by rw [hreq.lineStat]; exact hst)]
  obtain ⟨hin, hout⟩ := storeLine_cells u (lineBase addr) mask data
  obtain ⟨houts, hcmds, hsegs⟩ := storeLine_frame u (lineBase addr) (maskedCells (lineBase addr) mask data)
  generalize storeLine u (lineBase addr) (maskedCells (lineBase addr) mask data) = v at *
  obtain ⟨-, hcell, hseg, -, hcmds', -⟩ := answer_sent (.inr (.inl rfl)) v h (leBytes 2 tag ++ leBytes 1 0)
  have hat : u.segAt (lineBase addr) = s.segAt (lineBase addr) := by rw [State.segAt, State.segAt, hreq.1]
  refine ⟨_, rfl, answers_of_out (houts.trans (by rw [hreq.1])) (ack_answers v h tag 0), fun i hi hm => ?_, fun x hx => ?_, fun j hj => ?_, ?_⟩
  · rw [hcell, hin i hi hm]
  · rw [hcell, hout x hx, hreq.cell]
  · rw [hseg, hsegs j fun e he => hj e (hat ▸ he)]
    exact seg_congr (by rw [hreq.1]) j
  · rw [hcmds', hcmds, hreq.1]

/-- WR_LINE at the agent of a working SRAM, or at a line in error: nothing of the store changes. -/
theorem wrLine_onlyAnswers {s : State} {h : MsgHdr} {addr : Nat} (hs : served s h)
    (hno : ((agentTier h.dstAgent).isSome && (s.lineStat h (lineBase addr) == 0 || s.lineStat h (lineBase addr) == 1)) = false)
    (tag : Nat) (mask : BitVec 64) (data : List Byte) :
    ∃ t : State, exec (.wrLine h tag addr mask data) s = .next t ∧
      answers s t h 0x12 (leBytes 2 tag ++ leBytes 1 (if s.lineStat h (lineBase addr) = 1 then 0 else s.lineStat h (lineBase addr)) ++ [0]) ∧
      (∀ x, t.cell? x = s.cell? x) ∧ sameStore s t ∧ t.poison = s.poison ∧ t.cmds = s.cmds ∧
      (agentTier h.dstAgent = none → mask = BitVec.allOnes 64 → sramLineOf h (lineBase addr) ∉ (t.tile h.dstTile).sramPoison) := by
  have hreq := addReq_onlyReqs s h 0x02 tag
  rw [exec_wrLine hs]
  generalize s.addReq h 0x02 tag = u at hreq
  rw [writeLine_answers (by rw [hreq.lineStat]; exact hno), hreq.lineStat]
  have hclear : ∃ v, (if (agentTier h.dstAgent).isNone = true ∧ mask = BitVec.allOnes 64 then
        u.onTile h.dstTile fun x => { x with sramPoison := x.sramPoison.filter (· ≠ sramLineOf h (lineBase addr)) } else u) = v ∧
      v = { u with tiles := v.tiles } ∧ (∀ w, v.tile w = { u.tile w with sramPoison := (v.tile w).sramPoison }) ∧
      (agentTier h.dstAgent = none → mask = BitVec.allOnes 64 → sramLineOf h (lineBase addr) ∉ (v.tile h.dstTile).sramPoison) := by
    refine ⟨_, rfl, ?_⟩
    split
    next hc =>
      refine ⟨rfl, fun w => ?_, fun _ _ hmem => ?_⟩
      · by_cases hw : w = h.dstTile
        · subst hw; rw [State.onTile_tile]
        · rw [State.onTile_tile_ne _ hw]
      · rw [State.onTile_tile] at hmem
        simp at hmem
    next hc => exact ⟨rfl, fun _ => rfl, fun hn hm => absurd ⟨by rw [hn]; rfl, hm⟩ hc⟩
  obtain ⟨v, hv, hframe, htile, hsram⟩ := hclear
  rw [hv]
  generalize (if s.lineStat h (lineBase addr) = 1 then 0 else s.lineStat h (lineBase addr)) = st
  obtain ⟨hstore, hcell, -, hpoison, hcmds, -, hsram'⟩ := answer_sent (.inr (.inl rfl)) v h (leBytes 2 tag ++ leBytes 1 st)
  have hstore' : sameStore u v := ⟨by rw [hframe], by rw [hframe], fun w => by rw [htile]⟩
  refine ⟨_, rfl, answers_of_out (by rw [hframe, hreq.1]) (ack_answers v h tag st), fun x => ?_, (hreq.sameStore.trans hstore').trans hstore, ?_, ?_,
    fun hn hm => by rw [hsram']; exact hsram hn hm⟩
  · rw [hcell, cell?_congr (s := u) x (by rw [htile]) (by rw [hframe]), hreq.cell]
  · rw [hpoison, hframe, hreq.1]
  · rw [hcmds, hframe, hreq.1]

/-! ### Responses -/

theorem respond_ends {s : State} {h : MsgHdr} {tag rstat : Nat} {p : Pending} {kinds : List Nat} (hp : s.req? h tag = some p)
    (hst : s.stale? h = false) (hr : rstat ≠ 1) (hk : kinds.contains p.mtype = true) :
    s.respond h tag kinds rstat = s.dropReq h.dstTile p := by
  have hst' : (s.dropReq h.dstTile p).stale? h = false := hst
  simp only [State.respond, hp, hk, hst', if_neg hr, Bool.not_true, Bool.false_eq_true, if_false]

theorem respond_none {s : State} {h : MsgHdr} {tag : Nat} (hp : s.req? h tag = none) (kinds : List Nat) (rstat : Nat) :
    s.respond h tag kinds rstat = s := by
  simp only [State.respond, hp]

theorem respond_stale {s : State} {h : MsgHdr} {tag : Nat} {p : Pending} {kinds : List Nat} (hp : s.req? h tag = some p)
    (hst : s.stale? h = true) (hk : kinds.contains p.mtype = true) (rstat : Nat) :
    s.respond h tag kinds rstat = (s.dropReq h.dstTile p).dropItem h := by
  have hst' : (s.dropReq h.dstTile p).stale? h = true := hst
  simp only [State.respond, hp, hk, hst', Bool.not_true, Bool.false_eq_true, if_false, if_true]

/-- A stale item is counted at its queue and its slice. -/
theorem dropItem_counts (s : State) (h : MsgHdr) :
    (s.dropItem h).queue h.queue =
      { s.queue h.queue with staleDrops := min 0xFFFFFFFF ((s.queue h.queue).staleDrops + 1) } ∧
    (s.dropItem h).slc h.slice = { s.slc h.slice with stale := (s.slc h.slice).stale + 1 } ∧
    ∀ q, q ≠ h.queue → (s.dropItem h).queue q = s.queue q := by
  unfold State.dropItem
  refine ⟨?_, State.slc_onSlc_self .., fun q hq => ?_⟩
  · exact (State.queue_congr (State.onSlc_queues ..) _).trans (State.queue_onQueue_self ..)
  · exact (State.queue_congr (State.onSlc_queues ..) _).trans (State.queue_onQueue_ne _ hq _)

/-! ### Lost requests (R490) -/

theorem reqTimeout_morsel {s : State} {t : TileId} {p : Pending} {g : Gpe} (hm : p.mtype = 0x01 ∨ p.mtype = 0x02) (hg : p.pe = some g) :
    (s.dropReq t p).loseReq p = (s.dropReq t p).abandon g := by
  rw [State.loseReq, if_neg (by rcases hm with h | h <;> rw [h] <;> decide), hg]

theorem dropReq_gone (s : State) (t : TileId) (p : Pending) : p ∉ ((s.dropReq t p).tile t).reqs := by
  rw [State.dropReq, State.onTile_tile]
  intro h
  exact absurd rfl (of_decide_eq_true (List.mem_filter.mp h).2)

/-- Settles O36, request by request. -/
theorem requestsAreServedAndEnded : Obligations.RequestsAreServedAndEnded := by
  unfold Obligations.RequestsAreServedAndEnded
  refine ⟨⟨fun s h tag addr hs => ?read, fun s h tag addr mask data hs => ?write⟩, fun s h tag rstat data p hp hst hr => ?ends,
    fun s h tag rstat data w hp => ?unknown, fun s h tag rstat p hp hst hk => ?stale, fun s t agent tag p hp => ?timeout,
    fun s h tag off w hpres => ?regs⟩
  case read =>
    intro a st
    obtain ⟨t, hexec, hans, hrest⟩ := rdLine_answers hs tag addr
    exact ⟨t, s.lineData h a, hexec, length_lineData .., fun h0 => if_pos h0, hans, hrest.1, hrest.2⟩
  case write =>
    intro a st
    refine ⟨fun hag hst => ?_, fun hag hst => ?_, fun hst => ?_⟩
    · obtain ⟨t, hexec, hans, hin, hrest⟩ := wrLine_stores hs hag hst tag mask data
      exact ⟨t, hexec, hans, fun i hi hm => (hin i hi hm).trans (congrArg some (byteAt_cast data i).symm), hrest⟩
    · have hno : ((agentTier h.dstAgent).isSome && (s.lineStat h (lineBase addr) == 0 || s.lineStat h (lineBase addr) == 1)) = false := by
        rw [hag]; rfl
      obtain ⟨t, hexec, hans, hcell, hstore, hpoison, hcmds, hsram⟩ := wrLine_onlyAnswers hs hno tag mask data
      have hzero : (if s.lineStat h (lineBase addr) = 1 then 0 else s.lineStat h (lineBase addr)) = 0 := by
        have hle : s.lineStat h (lineBase addr) ≤ 1 := hst
        split <;> omega
      rw [hzero] at hans
      exact ⟨t, hexec, hans, hstore, hsram hag, hpoison, hcmds⟩
    · have hge : 2 ≤ s.lineStat h (lineBase addr) := hst
      have hno : ((agentTier h.dstAgent).isSome && (s.lineStat h (lineBase addr) == 0 || s.lineStat h (lineBase addr) == 1)) = false := by
        rw [beq_false_of_ne (by omega), beq_false_of_ne (by omega)]
        simp
      obtain ⟨t, hexec, hans, hcell, hstore, hpoison, hcmds, -⟩ := wrLine_onlyAnswers hs hno tag mask data
      rw [if_neg (by omega)] at hans
      exact ⟨t, hexec, hans, hcell, hstore, hpoison, hcmds⟩
  case ends =>
    intro ended
    refine ⟨fun hm hlen => ?_, fun hm => ?_, fun hm w => ?_⟩
    · simp only [exec, execRdData, if_pos hlen]
      exact congrArg _ (respond_ends hp hst hr (by rw [hm]; rfl))
    · simp only [exec, execWrAck]
      exact congrArg _ (respond_ends hp hst hr (by rcases hm with hm | hm <;> rw [hm] <;> rfl))
    · simp only [exec, execRegData]
      exact congrArg _ (respond_ends hp hst hr (by rw [hm]; rfl))
  case unknown =>
    simp only [exec, execRdData, execWrAck, execRegData, respond_none hp, ite_self, and_self]
  case stale =>
    have hresp := respond_stale hp hst (kinds := [0x02, 0x04]) (by rcases hk with hk | hk <;> rw [hk] <;> rfl) rstat
    simp only [exec, execWrAck, hresp]
    obtain ⟨hself, hslc, hothers⟩ := dropItem_counts (s.dropReq h.dstTile p) h
    refine ⟨_, rfl, ?_, ?_, fun q hq => hothers q hq, rfl, rfl⟩
    · rw [hself]; rfl
    · rw [hslc]; rfl
  case timeout =>
    refine ⟨fun hm => ?_, fun g hm hg => ?_⟩
    · simp only [exec, execReqTimeout, hp, State.loseReq, if_pos hm, State.dropReq]
    · simp only [exec, execReqTimeout, hp, reqTimeout_morsel hm hg]
      obtain ⟨⟨hqueues, hkeys, hmem, htile⟩, hrun⟩ := abandon_stops (s.dropReq t p) g
      refine ⟨_, rfl, ?_, hrun, hmem, hqueues, hkeys⟩
      rw [(htile t).1]
      exact dropReq_gone s t p
  case regs =>
    have hreach (u : State) (hu : onlyReqs s u) : u.regReach h = true := by
      have : u.present h.dstTile = true := by rw [hu.1]; exact hpres
      rw [State.regReach, this, Bool.or_true]
    have hreq := addReq_onlyReqs s h 0x03 tag
    simp only [exec, execRegRd, execRegWr, hreach _ hreq, hreach _ (addReq_onlyReqs s h 0x04 tag), if_true, and_true]
    generalize (if off % 4 = 0 then (s.addReq h 0x03 tag).read32 h.srcTile.val off else 0) = v
    generalize s.addReq h 0x03 tag = u at hreq
    have hans := answer_answers (.inr (.inr rfl)) u h (leBytes 2 tag ++ [0, 0] ++ leBytes 4 v)
    obtain ⟨hstore, -, -, -, hcmds, hblocks, -⟩ := answer_sent (.inr (.inr rfl)) u h (leBytes 2 tag ++ [0, 0] ++ leBytes 4 v)
    refine ⟨_, rfl, answers_of_out (by rw [hreq.1]) hans, ?_, ?_, ?_, ?_⟩
    · rw [hstore.1, hreq.1]
    · rw [hstore.2.1, hreq.1]
    · rw [hcmds, hreq.1]
    · rw [hblocks, hreq.1]

end Sys2Proof.Machine
end

section
/-!
PIPE_UNLOAD_REMOVE in a state whose command list holds two commands under one reference: the completion of the one reaches both, and the
query that was fetched for the removed image is not kept as fetched (R122).
-/
namespace Sys2Proof.Machine

/-- A PIPE_UNLOAD that waits to remove the image of handle 0. -/
def clashUnload : Cmd := { ref := ⟨0, 0⟩, entries := [[0x31]], phase := .started, prog := .unloadWait 0 }

/-- A QUERY_RUN fetched for handle 0, listed under the reference of the PIPE_UNLOAD. -/
def clashQuery : Cmd := { ref := ⟨0, 0⟩, entries := [[0x32]], phase := .fetched }

/-- The state of the counterexample. -/
def clashState : State :=
  { State.reset with
    cmds := [clashUnload, clashQuery]
    images := [(0, some { bytes := [], slice := 0, tiles := 0, unloading := [⟨0, 0⟩] })] }

theorem clashState_waits : clashState.progOp? ⟨0, 0⟩ 0x31 = some (.unloadWait 0) := by
  have hcmd : clashState.cmd? ⟨0, 0⟩ = some clashUnload := rfl
  rw [State.progOp?, State.runningOp?, State.running?, hcmd]
  rfl

/-- A completion reaches every command under its reference. -/
theorem formed_phase {s : State} {c : CmdRef} {k : Completion} {y : Cmd} (hy : y ∈ (s.formed c k).cmds) (hr : y.ref = c) : y.phase = .done := by
  obtain ⟨x, -, rfl⟩ := List.mem_map.mp hy
  by_cases h : x.ref = c
  · rw [if_pos h]
  · rw [if_neg h] at hr
    exact absurd hr h

/-- Refutes O16: a PIPE_UNLOAD and a fetched QUERY_RUN listed under one reference are both completed when the image is removed, so the
query does not stay among the fetched commands. -/
theorem not_imageAndKeyCommandsChangeTheirEntry : ¬ Obligations.ImageAndKeyCommandsChangeTheirEntry := by
  unfold Obligations.ImageAndKeyCommandsChangeTheirEntry
  rintro ⟨⟨-, -, -, hremove⟩, -⟩
  obtain ⟨hidle, -, -⟩ := hremove clashState ⟨0, 0⟩ 0 clashState_waits
  obtain ⟨t, -, -, -, hcmds, hgone, -⟩ := hidle { bytes := [], slice := 0, tiles := 0, unloading := [⟨0, 0⟩] } rfl
    List.mem_cons_self (by decide)
  have hmem := hgone clashQuery (List.mem_cons_of_mem _ List.mem_cons_self) rfl (by decide) (by decide)
  rw [hcmds] at hmem
  exact absurd (formed_phase hmem rfl) (by decide)

end Sys2Proof.Machine
end

section
/-!
SLICE_SAVE and SLICE_RESTORE (R111, R119, R163, R456, R458 to R460).
-/
namespace Sys2Proof.Machine

/-! ### What an image holds -/

/-- The records of an image do not depend on the command that holds the slice. -/
theorem taken_saveRecs (s : State) (x : Cmd) (t : Nat) (d : Bool) : (s.taken x).saveRecs t x.sl d = s.saveRecs t x.sl d := by
  have hsl : ∃ sl, s.taken x = { s with slices := sl } := ⟨_, rfl⟩
  have hslc := taken_slc s x
  obtain ⟨sl, h⟩ := hsl
  have hst : ((s.taken x).slc x.sl).st = (s.slc x.sl).st := by rw [hslc]
  have hrec : saveSlice ((s.taken x).slc x.sl) = saveSlice (s.slc x.sl) := by rw [hslc]; rfl
  unfold State.saveRecs
  dsimp only
  rw [hst, hrec, h]
  rfl

theorem taken_saveHeader (s : State) (x : Cmd) (nrec len : Nat) :
    saveHeader ((s.taken x).slc x.sl) x.sl nrec len = saveHeader (s.slc x.sl) x.sl nrec len := by
  rw [taken_slc]; rfl

theorem taken_pasidOf (s : State) (x : Cmd) (n : Nat) : (s.taken x).pasidOf n = s.pasidOf n := by
  unfold State.pasidOf
  by_cases h : n = x.sl
  · subst h; rw [taken_slc]
  · rw [taken_slc_ne s x h]

theorem length_saveHeader (y : Slice) (n nrec len : Nat) : (saveHeader y n nrec len).length = 64 := by
  simp [saveHeader]

/-- A record holds its descriptor at least. -/
theorem length_saveRec (rtype rflags : Nat) (fields payload : List Byte) : 64 ≤ (saveRec rtype rflags fields payload).length := by
  simp [saveRec]; omega

/-- Only a SEGMENT record carries a segment's data. -/
theorem saveRecs_data {s : State} {t n : Nat} {d : Bool} {r : SaveRec} (hr : r ∈ s.saveRecs t n d) {id : Nat} (hd : r.data = some id) :
    64 ≤ r.bytes.length := by
  have hrest : ∀ l : List SaveRec, (∀ q ∈ l, q.data = none) → r ∉ l := fun l hl hm => by rw [hl r hm] at hd; cases hd
  unfold State.saveRecs at hr
  dsimp only at hr
  rcases List.mem_append.mp hr with hr | hr
  · rcases List.mem_cons.mp hr with rfl | hr
    · cases hd
    · obtain ⟨i, -, rfl⟩ := List.mem_map.mp hr
      exact length_saveRec ..
  · split at hr
    · refine absurd hr (hrest _ fun q hq => ?_)
      simp only [List.mem_append, List.mem_map, List.mem_filterMap, List.mem_flatMap] at hq
      rcases hq with ((⟨e, -, rfl⟩ | ⟨k, -, hk⟩) | ⟨h, -, hi⟩) | ⟨p, -, hp⟩
      · rfl
      · obtain ⟨v, -, rfl⟩ := Option.map_eq_some_iff.mp hk; rfl
      · obtain ⟨v, -, rfl⟩ := Option.map_eq_some_iff.mp hi; rfl
      · obtain ⟨e, -, rfl⟩ := List.mem_map.mp hp; rfl
    · cases hr

theorem recOffsets_snd (o : Nat) (l : List SaveRec) : (recOffsets o l).map (·.2) = l := by
  induction l generalizing o with
  | nil => rfl
  | cons r l ih => rw [recOffsets, List.map_cons, ih]

/-- A record ends within the image. -/
theorem recOffsets_le {o : Nat} {l : List SaveRec} {e : Nat × SaveRec} (he : e ∈ recOffsets o l) :
    e.1 + e.2.bytes.length ≤ o + (l.flatMap (·.bytes)).length := by
  induction l generalizing o with
  | nil => cases he
  | cons r l ih =>
    rw [List.flatMap_cons, List.length_append]
    rcases List.mem_cons.mp he with rfl | he
    · dsimp only; omega
    · have := ih he; omega

/-! ### DIRTY after a copy (R163) -/

theorem cleanBelow_cons (s : State) (r : Nat × SaveRec) (rs : List (Nat × SaveRec)) (m : Nat) :
    s.cleanBelow (r :: rs) m = (s.cleanBelow [r] m).cleanBelow rs m := rfl

theorem cleanBelow_one (s : State) (r : Nat × SaveRec) (m : Nat) :
    (s.cleanBelow [r] m = { s with segs := (s.cleanBelow [r] m).segs, mapCopies := (s.cleanBelow [r] m).mapCopies }) ∧
    (∀ j, ((s.cleanBelow [r] m).seg j).dirty = true → (s.seg j).dirty = true) ∧
    (∀ j, r.2.data ≠ some j → (s.cleanBelow [r] m).seg j = s.seg j) ∧
    (∀ j, r.2.data = some j → r.1 + 64 < m → ((s.cleanBelow [r] m).seg j).dirty = false) := by
  unfold State.cleanBelow
  rw [List.foldl_cons, List.foldl_nil]
  split
  next i hi =>
    split
    next hlt =>
      have hseg (j : Nat) := seg_setSeg s i { s.seg i with dirty := false } j
      refine ⟨rfl, fun j hj => ?_, fun j hj => ?_, fun j hj _ => ?_⟩
      · rw [State.onSeg, hseg] at hj
        split at hj
        · cases hj
        · exact hj
      · rw [State.onSeg, hseg, if_neg fun h => hj (by rw [hi, h])]
      · rw [State.onSeg, hseg, if_pos (Option.some.inj (hj.symm.trans hi))]
    next hlt => exact ⟨rfl, fun _ h => h, fun _ _ => rfl, fun j _ h => absurd h hlt⟩
  next hnone => exact ⟨rfl, fun _ h => h, fun _ _ => rfl, fun j hj => by rw [hnone] at hj; cases hj⟩

/-- What clearing DIRTY on the segments that were copied does: those of the records below the offset, and no other. -/
theorem cleanBelow_segs (rs : List (Nat × SaveRec)) (m : Nat) (s : State) :
    (s.cleanBelow rs m = { s with segs := (s.cleanBelow rs m).segs, mapCopies := (s.cleanBelow rs m).mapCopies }) ∧
    (∀ j, ((s.cleanBelow rs m).seg j).dirty = true → (s.seg j).dirty = true) ∧
    (∀ j, (∀ r ∈ rs, r.2.data ≠ some j) → (s.cleanBelow rs m).seg j = s.seg j) ∧
    (∀ j, ∀ r ∈ rs, r.2.data = some j → r.1 + 64 < m → ((s.cleanBelow rs m).seg j).dirty = false) := by
  induction rs generalizing s with
  | nil => exact ⟨rfl, fun _ h => h, fun _ _ => rfl, fun _ _ h => absurd h List.not_mem_nil⟩
  | cons r rs ih =>
    rw [cleanBelow_cons]
    obtain ⟨hf, hd, hk, hc⟩ := cleanBelow_one s r m
    obtain ⟨hf', hd', hk', hc'⟩ := ih (s.cleanBelow [r] m)
    refine ⟨by rw [hf', hf], fun j h => hd j (hd' j h), fun j h => ?_, fun j q hq hj hlt => ?_⟩
    · rw [hk' j fun q hq => h q (List.mem_cons_of_mem _ hq), hk j (h r List.mem_cons_self)]
    · rcases List.mem_cons.mp hq with rfl | hq
      · have hclean := hc j hj hlt
        cases hdj : (((s.cleanBelow [q] m).cleanBelow rs m).seg j).dirty with
        | false => rfl
        | true => rw [hd' j hdj] at hclean; cases hclean
      · exact hc' j q hq hj hlt

/-! ### The end of SLICE_SAVE -/

theorem faultIn_none {n : Nat} {w : Option Nat} (h : ∀ o, w = some o → n ≤ o) : faultIn n w = none := by
  cases w with
  | none => rfl
  | some o => exact Option.filter_eq_none_iff.mpr fun a ha => by cases ha; simpa using h o rfl

theorem faultIn_some {n o : Nat} (h : o < n) : faultIn n (some o) = some o := by
  simp [faultIn, h]

/-- An image without poison is written in full. -/
theorem findSome_poison {o : Nat} {l : List SaveRec} (h : ∀ r ∈ l, r.poison = none) :
    ((recOffsets o l).findSome? fun r => r.2.poison.map fun q => (r.1 + q.1, q.2)) = none := by
  refine List.findSome?_eq_none_iff.mpr fun e he => ?_
  have hmem : e.2 ∈ l := by rw [← recOffsets_snd o l]; exact List.mem_map_of_mem he
  rw [h _ hmem]; rfl

/-- The image that SLICE_SAVE writes, and the segments it counts. -/
def State.saveImg (s : State) (x : Cmd) : List Byte :=
  let recs := s.saveRecs x.home x.sl (bit x.cflags 0)
  saveHeader (s.slc x.sl) x.sl recs.length (64 + (recs.flatMap (·.bytes)).length) ++ recs.flatMap (·.bytes)

theorem length_saveImg (s : State) (x : Cmd) :
    (s.saveImg x).length = 64 + ((s.saveRecs x.home x.sl (bit x.cflags 0)).flatMap (·.bytes)).length := by
  rw [State.saveImg, List.length_append, length_saveHeader]

theorem taken_saveImg (s : State) (x : Cmd) : (s.taken x).saveImg x = s.saveImg x := by
  rw [State.saveImg, State.saveImg, taken_saveRecs, taken_saveHeader]

/-- SLICE_SAVE with room for an image without poison, where the host takes every byte (R458). -/
theorem sliceSaveEff_room {x : Cmd} {s : State} (hroom : (s.saveImg x).length ≤ (x.dref 16).total)
    (hp : ∀ r ∈ s.saveRecs x.home x.sl (bit x.cflags 0), r.poison = none) {wfail : Option Nat}
    (hw : faultIn (s.saveImg x).length wfail = none) :
    sliceSaveEff x wfail s =
      ((s.cleanBelow (recOffsets 64 (s.saveRecs x.home x.sl (bit x.cflags 0))) ((s.saveImg x).length + 1)).dmaOut x (x.stream 16)
        (s.saveImg x) none).succeed x.ref (leBytes 8 (s.saveImg x).length ++
          leBytes 4 ((s.saveRecs x.home x.sl (bit x.cflags 0)).filter fun r => byteAt r.bytes 0 == rtSegment).length) := by
  have hlen := length_saveImg s x
  rw [hlen] at hroom hw ⊢
  have htake : (s.saveImg x).take (64 + ((s.saveRecs x.home x.sl (bit x.cflags 0)).flatMap (·.bytes)).length) = s.saveImg x :=
    List.take_of_length_le (Nat.le_of_eq hlen)
  unfold State.saveImg at htake ⊢
  unfold sliceSaveEff
  dsimp only at htake ⊢
  rw [if_neg (Nat.not_lt.mpr hroom), findSome_poison hp]
  dsimp only
  rw [hw, htake]

/-- The same where the host refuses byte `o` of the image. -/
theorem sliceSaveEff_fault {x : Cmd} {s : State} (hroom : (s.saveImg x).length ≤ (x.dref 16).total)
    (hp : ∀ r ∈ s.saveRecs x.home x.sl (bit x.cflags 0), r.poison = none) {wfail : Option Nat} {o : Nat}
    (hw : faultIn (s.saveImg x).length wfail = some o) :
    sliceSaveEff x wfail s =
      ((s.cleanBelow (recOffsets 64 (s.saveRecs x.home x.sl (bit x.cflags 0))) (o + 1)).dmaOut x (x.stream 16) (s.saveImg x)
        (some o)).failHost x.ref .translation (x.stream 16) o o := by
  have hlen := length_saveImg s x
  rw [hlen] at hroom hw
  have htake : (s.saveImg x).take (64 + ((s.saveRecs x.home x.sl (bit x.cflags 0)).flatMap (·.bytes)).length) = s.saveImg x :=
    List.take_of_length_le (Nat.le_of_eq hlen)
  unfold State.saveImg at htake ⊢
  unfold sliceSaveEff
  dsimp only at htake ⊢
  rw [if_neg (Nat.not_lt.mpr hroom), findSome_poison hp]
  dsimp only
  rw [hw, htake]

/-- SLICE_SAVE into too little room writes nothing (R119). -/
theorem sliceSaveEff_small {x : Cmd} {s : State} (hroom : (x.dref 16).total < (s.saveImg x).length) (wfail : Option Nat) :
    sliceSaveEff x wfail s = s.finish x.ref { status := stInvalidField, errloc := 24, result := leBytes 8 (s.saveImg x).length } := by
  rw [length_saveImg] at hroom ⊢
  unfold sliceSaveEff
  dsimp only
  rw [if_pos hroom]

end Sys2Proof.Machine
end

section
/-!
The slice that a restore leaves (R459, R460), and the two commands over a state image.
-/
namespace Sys2Proof.Machine

/-! ### What the second pass keeps of the slice's entry -/

/-- The part of a slice's entry that a restore sets once: its state, binding and generation. -/
def Slice.bound (y : Slice) : SliceState × Nat × Nat × Bool := (y.st, y.pasid, y.gen, y.noFetch)

/-- From `s` to `t` the state, binding and generation of slice `n` stay. -/
def keepsSlice (n : Nat) (s t : State) : Prop := (t.slc n).bound = (s.slc n).bound

theorem keepsSlice.of_slices {n : Nat} {s t : State} (h : t.slices = s.slices) : keepsSlice n s t := by
  rw [keepsSlice, State.slc, State.slc, h]

theorem keepsSlice.refl (n : Nat) (s : State) : keepsSlice n s s := rfl

theorem keepsSlice.trans {n : Nat} {s t u : State} (h : keepsSlice n s t) (h' : keepsSlice n t u) : keepsSlice n s u := Eq.trans h' h

theorem keepsSlice.foldl {n : Nat} {α : Type} {f : State → α → State} (h : ∀ s a, keepsSlice n s (f s a)) (l : List α) (s : State) :
    keepsSlice n s (l.foldl f s) :=
  List.foldlRecOn (motive := keepsSlice n s) l f (.refl n s) fun t ht a _ => ht.trans (h t a)

theorem keepsSlice.onSlc (n : Nat) (s : State) (m : Nat) (f : Slice → Slice) (hf : ∀ y, (f y).bound = y.bound) :
    keepsSlice n s (s.onSlc m f) := by
  rw [keepsSlice]
  by_cases h : n = m
  · subst h; rw [State.slc_onSlc_self]; exact hf _
  · rw [State.slc_onSlc_ne _ h]

theorem charge_bound (y : Slice) (tier : Nat) (f : Nat → Nat) : (y.charge tier f).bound = y.bound := by
  unfold Slice.charge
  split <;> rfl

/-- A segment charged to a slice, or its charge returned. -/
theorem keepsSlice.charged (n : Nat) (s : State) (m tier : Nat) (g : Slice → Nat) (h : Nat → Nat) :
    keepsSlice n s (s.onSlc m fun y => ({ y with segUsed := g y } : Slice).charge tier h) :=
  .onSlc n s m _ fun _ => charge_bound ..

theorem keepsSlice.revoteAll (n : Nat) (s : State) : keepsSlice n s s.revoteAll := .of_slices (by rw [revoteAll_frame])

theorem keepsSlice.onSeg (n : Nat) (s : State) (id : Nat) (f : Seg → Seg) : keepsSlice n s (s.onSeg id f) := .of_slices rfl

theorem keepsSlice.setSeg (n : Nat) (s : State) (id : Nat) (g : Seg) : keepsSlice n s (s.setSeg id g) := .of_slices rfl

theorem keepsSlice.emitAll (n : Nat) (s : State) (l : List Out) : keepsSlice n s (s.emitAll l) := .of_slices rfl

theorem keepsSlice.onTile (n : Nat) (s : State) (t : TileId) (f : Tile → Tile) : keepsSlice n s (s.onTile t f) := .of_slices rfl

theorem keepsSlice.dirPut (n : Nat) (s : State) (id i : Nat) : keepsSlice n s (s.dirPut id i) :=
  .of_slices (by unfold State.dirPut; dsimp only)

theorem keepsSlice.dirTake (n : Nat) (s : State) (t k i : Nat) : keepsSlice n s (s.dirTake t k i) := .of_slices rfl

theorem keepsSlice.dirDurable (n : Nat) (s : State) (t k i : Nat) : keepsSlice n s (s.dirDurable t k i) := .of_slices rfl

theorem keepsSlice.strand (n : Nat) (s : State) (id : Nat) : keepsSlice n s (s.strand id) := .of_slices rfl

theorem keepsSlice.goneSeg (n : Nat) (s : State) (id : Nat) : keepsSlice n s (s.goneSeg id) := .of_slices rfl

theorem keepsSlice.bump (n : Nat) (s : State) : keepsSlice n s s.bump := .of_slices rfl

theorem keepsSlice.dirRemove (n : Nat) (s : State) (id : Nat) : keepsSlice n s (s.dirRemove id) := by
  unfold State.dirRemove
  dsimp only
  split
  · exact .refl n s
  · exact ((keepsSlice.dirTake ..).trans (.dirDurable ..)).trans (.emitAll ..)

theorem keepsSlice.dirWrite (n : Nat) (s : State) (id : Nat) : keepsSlice n s (s.dirWrite id) := by
  unfold State.dirWrite
  dsimp only
  split
  · exact .refl n s
  · exact ((keepsSlice.dirPut ..).trans (.dirDurable ..)).trans (.emitAll ..)

theorem keepsSlice.clearSeg (n : Nat) (s : State) (id : Nat) : keepsSlice n s (s.clearSeg id) := by
  unfold State.clearSeg
  dsimp only
  split
  · exact .refl n s
  · have hcharge : keepsSlice n s (s.onSlc (s.seg id).slice fun y =>
        ({ y with segUsed := y.segUsed - 1 } : Slice).charge (s.seg id).tier (· - (s.seg id).charged * unitB)) :=
      .charged ..
    refine hcharge.trans (keepsSlice.trans ?_ (.revoteAll n _))
    split
    · exact ((keepsSlice.strand ..).trans (.goneSeg ..)).trans (.setSeg ..)
    · exact (keepsSlice.goneSeg ..).trans (.setSeg ..)

theorem keepsSlice.freeSeg (n : Nat) (s : State) (id : Nat) : keepsSlice n s (s.freeSeg id) := by
  unfold State.freeSeg
  split
  · exact (keepsSlice.dirRemove ..).trans (.clearSeg ..)
  · exact .clearSeg ..

theorem keepsSlice.giveSeg (n : Nat) (s : State) (id m : Nat) : keepsSlice n s (s.giveSeg id m) := by
  unfold State.giveSeg
  dsimp only
  exact ((keepsSlice.charged n s ..).trans (keepsSlice.charged ..)).trans (.onSeg ..)

theorem keepsSlice.adopt (n : Nat) (s : State) (m p : Nat) : keepsSlice n s (s.adopt m p) := .foldl (fun s id => .giveSeg n s id m) _ s

theorem keepsSlice.forgetSeg (n : Nat) (s : State) (g : Seg) : keepsSlice n s (s.forgetSeg g) := by
  unfold State.forgetSeg
  refine keepsSlice.foldl (fun s t => ?_) _ s
  exact keepsSlice.trans (.of_slices rfl) (.onTile ..)

theorem keepsSlice.restoreAlloc {n : Nat} {s t : State} {m p : Nat} {r : RestRec} (h : s.restoreAlloc m p r = some t) : keepsSlice n s t := by
  unfold State.restoreAlloc at h
  dsimp only at h
  obtain ⟨-, h⟩ := Option.ite_none_left_eq_some.mp h
  split at h
  · cases h
  · rw [← Option.some.inj h]
    exact (((keepsSlice.bump n s).trans (.forgetSeg ..)).trans (.setSeg ..)).trans (.charged ..)

theorem keepsSlice.segPut (n : Nat) (s : State) (g : Seg) (off : Nat) (bs : List Byte) : keepsSlice n s (s.segPut g off bs) :=
  .of_slices (by rw [segPut_eq])

theorem keepsSlice.indexStore (n : Nat) (s : State) (g : Seg) (off : Nat) (bs : List Byte) : keepsSlice n s (s.indexStore g off bs) := by
  unfold State.indexStore
  exact .of_slices (by rw [drainFull_eq, cleanse_eq, stage_eq])

theorem keepsSlice.segGen (n : Nat) (s : State) (id g : Nat) :
    keepsSlice n s ({ (s.onSeg id fun h => { h with gen := g }) with segGen := tblSet 0 s.segGen id g } : State) :=
  (keepsSlice.onSeg ..).trans (.of_slices (by dsimp only))

theorem keepsSlice.restoreSeg {n : Nat} {s t : State} {m p : Nat} {r : RestRec} (h : s.restoreSeg m p r = some t) : keepsSlice n s t := by
  unfold State.restoreSeg at h
  dsimp only at h
  obtain ⟨u, hu, rfl⟩ := Option.map_eq_some_iff.mp h
  have hplaced : keepsSlice n s u := by
    split at hu
    · cases hu; exact .refl n s
    · split at hu
      · cases hu
      · exact .restoreAlloc hu
  refine hplaced.trans ((keepsSlice.segGen n u (r.f 16 4) (r.f 20 2)).trans ?_)
  generalize ({ (u.onSeg (r.f 16 4) fun h => { h with gen := r.f 20 2 }) with segGen := tblSet 0 u.segGen (r.f 16 4) (r.f 20 2) } : State) = v
  have hdata : keepsSlice n v (if r.flags = 0 then v
      else if r.f 26 1 = 1 then
        ((v.segPut (v.seg (r.f 16 4)) 0 (r.pay.take (r.pay.length - 48 * r.f 28 4))).indexStore (v.seg (r.f 16 4)) 0
          (r.pay.drop (r.pay.length - 48 * r.f 28 4))).onSeg (r.f 16 4) fun g => { g with nframes := r.f 28 4 }
      else v.segPut (v.seg (r.f 16 4)) 0 r.pay) := by
    split
    · exact .refl n v
    · split
      · exact ((keepsSlice.segPut ..).trans (.indexStore ..)).trans (.onSeg ..)
      · exact .segPut ..
  split
  · exact hdata.trans (.dirWrite ..)
  · exact hdata

theorem keepsSlice.restoreQueue (n : Nat) (s : State) (m : Nat) (r : RestRec) : keepsSlice n s (s.restoreQueue m r) := .of_slices rfl

theorem keepsSlice.keys (n : Nat) (s : State) (ks : Tbl (Option KeySlot)) : keepsSlice n s { s with keys := ks } := .of_slices rfl

theorem keepsSlice.clearKey (n : Nat) (s : State) (k : Nat) : keepsSlice n s (s.clearKey k) := by
  unfold State.clearKey
  split
  · exact .refl n s
  · exact (keepsSlice.keys n s _).trans (.onSlc n _ _ _ fun _ => rfl)

theorem keepsSlice.putKey (n : Nat) (s : State) (k : Nat) (v : KeySlot) : keepsSlice n s (s.putKey k v) := by
  unfold State.putKey
  dsimp only
  have hholes (l : List TileId) (u : State) :
      keepsSlice n u (l.foldl (fun s t => s.onTile t fun x => { x with keyHoles := x.keyHoles.filter (· != k) }) u) :=
    keepsSlice.foldl (fun _ t => .onTile n _ t _) l u
  exact ((keepsSlice.clearKey n s k).trans (hholes s.presentTiles _)).trans ((keepsSlice.keys n _ _).trans (.onSlc n _ _ _ fun _ => rfl))

theorem keepsSlice.restoreKey {n : Nat} {s t : State} {m : Nat} {r : RestRec} (h : s.restoreKey m r = some t) : keepsSlice n s t := by
  unfold State.restoreKey at h
  dsimp only at h
  split at h
  · cases h
  · split at h
    · cases h; exact .putKey ..
    · cases h

theorem keepsSlice.restoreImage {n : Nat} {s t : State} {m : Nat} {r : RestRec} (h : s.restoreImage m r = some t) : keepsSlice n s t := by
  obtain ⟨-, -, hframe, -⟩ := uninstall_image s (r.f 16 4)
  unfold State.restoreImage at h
  dsimp only at h
  split at h
  · cases h
    have huninstall : keepsSlice n s (s.uninstall (r.f 16 4)) := .of_slices (by rw [hframe])
    exact huninstall.trans (.of_slices (by unfold State.install; dsimp only))
  · cases h

theorem keepsSlice.restoreCmd (n : Nat) (s : State) (m : Nat) (r : RestRec) : keepsSlice n s (s.restoreCmd m r) := .of_slices rfl

theorem forRecs_none (f : State → RestRec → Option State) (rs : List RestRec) :
    rs.foldl (fun o r => o.bind fun s => f s r) (none : Option State) = none := by
  induction rs with
  | nil => rfl
  | cons r rs ih => exact ih

theorem keepsSlice.forRecs {n : Nat} {f : State → RestRec → Option State} {rs : List RestRec} {s t : State}
    (hf : ∀ s r t, f s r = some t → keepsSlice n s t) (h : s.forRecs f rs = some t) : keepsSlice n s t := by
  induction rs generalizing s with
  | nil => rw [← Option.some.inj h]; exact .refl n s
  | cons r rs ih =>
    rw [State.forRecs, List.foldl_cons, Option.bind_some] at h
    cases hr : f s r with
    | none => rw [hr, forRecs_none] at h; cases h
    | some u => rw [hr] at h; exact (hf s r u hr).trans (ih h)

/-- The slice after the second pass: FROZEN, bound to the PASID asked for, with the generation after the saved one. -/
theorem restoreApply_slice {s t : State} {x : Cmd} {rs : List RestRec} {sgen : Nat} (h : s.restoreApply x rs sgen = some t) :
    (t.slc x.sl).bound = (.frozen, x.f 8 4, nextGen sgen, true) := by
  unfold State.restoreApply at h
  dsimp only at h
  split at h
  · cases h
  · obtain ⟨s1, h1, h⟩ := Option.bind_eq_some_iff.mp h
    obtain ⟨s2, h2, h⟩ := Option.bind_eq_some_iff.mp h
    obtain ⟨s3, h3, rfl⟩ := Option.map_eq_some_iff.mp h
    have hcmds (l : List RestRec) (u : State) : keepsSlice x.sl u (l.foldl (fun s r => s.restoreCmd x.sl r) u) :=
      .foldl (fun s r => .restoreCmd x.sl s x.sl r) l u
    have hqueues (l : List RestRec) (u : State) : keepsSlice x.sl u (l.foldl (fun s r => s.restoreQueue x.sl r) u) :=
      .foldl (fun s r => .restoreQueue x.sl s x.sl r) l u
    have hfree (l : List Nat) (u : State) : keepsSlice x.sl u (l.foldl State.freeSeg u) := .foldl (.freeSeg x.sl) l u
    have hlast := ((keepsSlice.adopt x.sl s1 x.sl (x.f 8 4)).trans (hqueues _ _)).trans
      ((keepsSlice.forRecs (fun _ _ _ => .restoreKey) h2).trans (.forRecs (fun _ _ _ => .restoreImage) h3))
    have hfirst := (hfree _ _).trans (keepsSlice.forRecs (fun _ _ _ => .restoreSeg) h1)
    have hall := hfirst.trans hlast
    rw [keepsSlice, State.slc_setSlc_self] at hall
    exact Eq.trans ((hcmds _ s3).trans (.revoteAll ..)) hall

/-! ### SLICE_RESTORE -/

theorem sliceRestoreEff_ok {x : Cmd} {src : HostRead} {s s2 : State} {rs : List RestRec} (he : src.err = none)
    (hlen : field (cut src.bytes 0 (x.dref 16).total) 24 8 = (x.dref 16).total) (hread : readState (cut src.bytes 0 (x.dref 16).total) = some rs)
    (hcheck : s.restoreCheck x rs = none) (happly : s.restoreApply x rs (field (cut src.bytes 0 (x.dref 16).total) 10 2) = some s2) :
    sliceRestoreEff x src s = s2.succeed x.ref (leBytes 2 (s2.slc x.sl).gen) := by
  simp only [sliceRestoreEff, he, hlen, hread, hcheck, happly, ne_eq, not_true_eq_false, if_false]

theorem sliceRestoreEff_badForm {x : Cmd} {src : HostRead} (s : State) (he : src.err = none)
    (hlen : field (cut src.bytes 0 (x.dref 16).total) 24 8 = (x.dref 16).total) (hread : readState (cut src.bytes 0 (x.dref 16).total) = none) :
    sliceRestoreEff x src s = s.finish x.ref { status := stInvalidField, errloc := 16, detail := 0x0020 } := by
  simp only [sliceRestoreEff, he, hlen, hread, ne_eq, not_true_eq_false, if_false]

/-! ### SLICE_SAVE, run by its command -/

theorem exec_sliceSave {s : State} {c : CmdRef} {x : Cmd} (hf : s.fresh? c 0x14 = some x) (hr : sliceReady s x) (wfail : Option Nat) :
    exec (.sliceSave c wfail) s = .next (sliceSaveEff x wfail (s.taken x)) := by
  simp only [exec, execSliceSave, hf, sliceRun_ready hr]

theorem cleanBelow_pasidOf (s : State) (rs : List (Nat × SaveRec)) (m n : Nat) : (s.cleanBelow rs m).pasidOf n = s.pasidOf n := by
  obtain ⟨hf, -⟩ := cleanBelow_segs rs m s
  rw [State.pasidOf, State.pasidOf, State.slc, State.slc, hf]

/-- What SLICE_SAVE sends of an image. -/
def savedOut (s : State) (x : Cmd) (bs : List Byte) : List Out :=
  (scatter (x.stream 16) bs).map fun p => Out.hostWrite x.ring.port (s.pasidOf x.slice) p.1 p.2

theorem saved_dmaOut (s : State) (x : Cmd) (rs : List (Nat × SaveRec)) (m : Nat) (bs : List Byte) :
    ((s.taken x).cleanBelow rs m).dmaOut x (x.stream 16) bs none = ((s.taken x).cleanBelow rs m).emitAll (savedOut s x bs) ∧
    ∀ o, ((s.taken x).cleanBelow rs m).dmaOut x (x.stream 16) bs (some o) =
      ((s.taken x).cleanBelow rs m).emitAll (savedOut s x (bs.take o)) := by
  have hp : ((s.taken x).cleanBelow rs m).pasidOf x.slice = s.pasidOf x.slice := (cleanBelow_pasidOf ..).trans (taken_pasidOf ..)
  unfold State.dmaOut savedOut
  rw [hp]
  exact ⟨rfl, fun _ => rfl⟩

theorem sliceSave_room {s : State} {c : CmdRef} {x : Cmd} (hf : s.fresh? c 0x14 = some x) (hr : sliceReady s x)
    (hroom : (s.saveImg x).length ≤ (x.dref 16).total) (hp : ∀ r ∈ s.saveRecs x.home x.sl (bit x.cflags 0), r.poison = none)
    {wfail : Option Nat} (hw : ∀ o, wfail = some o → (s.saveImg x).length ≤ o) :
    ∃ t : State, exec (.sliceSave c wfail) s = .next t ∧ t.out = s.out ++ savedOut s x (s.saveImg x) ∧
      (∀ id, (∃ r ∈ s.saveRecs x.home x.sl (bit x.cflags 0), r.data = some id) → (t.seg id).dirty = false) ∧
      (∀ id, (∀ r ∈ s.saveRecs x.home x.sl (bit x.cflags 0), r.data ≠ some id) → t.seg id = s.seg id) ∧
      (∃ y, t.cmd? c = some y ∧ y.phase = .done ∧ y.comp.status = stSuccess ∧
        y.comp.result = leBytes 8 (s.saveImg x).length ++
          leBytes 4 ((s.saveRecs x.home x.sl (bit x.cflags 0)).filter fun r => byteAt r.bytes 0 == rtSegment).length) ∧
      t = { s with out := t.out, segs := t.segs, mapCopies := t.mapCopies, slices := t.slices, cmds := t.cmds } := by
  have hc := fresh?_cmd hf
  have href := cmd?_ref hc
  have hrecs := taken_saveRecs s x x.home (bit x.cflags 0)
  have himg := taken_saveImg s x
  rw [exec_sliceSave hf hr, sliceSaveEff_room (by rw [himg]; exact hroom) (by rw [hrecs]; exact hp) (faultIn_none (by rw [himg]; exact hw)),
    himg, hrecs, (saved_dmaOut s x _ _ _).1]
  obtain ⟨hframe, -, hkeep, hclean⟩ :=
    cleanBelow_segs (recOffsets 64 (s.saveRecs x.home x.sl (bit x.cflags 0))) ((s.saveImg x).length + 1) (s.taken x)
  have hdata : ∀ r ∈ s.saveRecs x.home x.sl (bit x.cflags 0), ∃ o, (o, r) ∈ recOffsets 64 (s.saveRecs x.home x.sl (bit x.cflags 0)) := by
    intro r h
    rw [← recOffsets_snd 64 (s.saveRecs x.home x.sl (bit x.cflags 0))] at h
    obtain ⟨e, he, rfl⟩ := List.mem_map.mp h
    exact ⟨e.1, he⟩
  have hlen := length_saveImg s x
  generalize (s.taken x).cleanBelow (recOffsets 64 (s.saveRecs x.home x.sl (bit x.cflags 0))) ((s.saveImg x).length + 1) = u at *
  have hcu : (u.emitAll (savedOut s x (s.saveImg x))).cmd? c = some x :=
    (cmd?_congr c (by rw [State.emitAll, hframe]; rfl)).trans hc
  rw [href, succeed_formed _ hcu]
  refine ⟨_, rfl, ?_, fun id hid => ?_, fun id hid => ?_, ⟨_, formed_cmd? _ hcu, rfl, rfl, rfl⟩, ?_⟩
  · show u.out ++ _ = _
    rw [hframe]; rfl
  · obtain ⟨r, hr', hrd⟩ := hid
    obtain ⟨o, ho⟩ := hdata r hr'
    have hend := recOffsets_le ho
    have h64 := saveRecs_data hr' hrd
    exact hclean id (o, r) ho hrd (by dsimp only at hend ⊢; omega)
  · refine (hkeep id fun e he => hid e.2 ?_).trans rfl
    rw [← recOffsets_snd 64 (s.saveRecs x.home x.sl (bit x.cflags 0))]
    exact List.mem_map_of_mem he
  · rw [State.formed, State.onCmd, State.emitAll, hframe]; rfl

/-- Settles O15: the image that is written, and the slice that is read back. -/
theorem slicesAreSavedAndRestored : Obligations.SlicesAreSavedAndRestored := by
  unfold Obligations.SlicesAreSavedAndRestored
  refine ⟨fun s c x hf hr => ?save, fun s c x src rs s2 hf hr he => ?ok, fun s x rs sgen s2 ha _ => ?slice,
    fun s c x src hf hr he hread hlen => ?badForm, fun s c x src e o hf hr he => ?host⟩
  case save =>
    intro recs img sent
    have hc := fresh?_cmd hf
    have href := cmd?_ref hc
    refine ⟨fun hroom hp wfail hw => sliceSave_room hf hr hroom hp hw, fun hroom hp o ho => ?fault, fun hroom wfail => ?small⟩
    case fault =>
      have hrecs := taken_saveRecs s x x.home (bit x.cflags 0)
      have himg := taken_saveImg s x
      rw [exec_sliceSave hf hr, sliceSaveEff_fault (by rw [himg]; exact hroom) (by rw [hrecs]; exact hp) (faultIn_some (by rw [himg]; exact ho)),
        himg, hrecs, (saved_dmaOut s x _ _ _).2]
      obtain ⟨hframe, -⟩ := cleanBelow_segs (recOffsets 64 (s.saveRecs x.home x.sl (bit x.cflags 0))) (o + 1) (s.taken x)
      generalize (s.taken x).cleanBelow (recOffsets 64 (s.saveRecs x.home x.sl (bit x.cflags 0))) (o + 1) = u at hframe
      have hcu : (u.emitAll (savedOut s x ((s.saveImg x).take o))).cmd? c = some x :=
        (cmd?_congr c (by rw [State.emitAll, hframe]; rfl)).trans hc
      rw [href]
      obtain ⟨more, hmore⟩ := finish_out (u.emitAll (savedOut s x ((s.saveImg x).take o))) c
        { status := hostStatus .translation, result := leBytes 8 o, faddr := streamAddr (x.stream 16) o }
      refine ⟨_, rfl, finish_ended _ hcu, more, hmore.trans (congrArg (· ++ more) ?_)⟩
      show u.out ++ _ = _
      rw [hframe]; rfl
    case small =>
      have himg := taken_saveImg s x
      rw [exec_sliceSave hf hr, sliceSaveEff_small (by rw [himg]; exact hroom), himg, href,
        finish_quiet (s := s.taken x) hc (show statusEvent stInvalidField = none by decide), State.taken, href]
      rfl
  case ok =>
    intro bs s1 hlen hread hcheck happly hc2
    have href := cmd?_ref (fresh?_cmd hf)
    have hs1 : s.taken x = s1 := by rw [State.taken, href]
    simp only [exec, execSliceRestore, hf, sliceRun_ready hr, hs1, sliceRestoreEff_ok he hlen hread hcheck happly]
    rw [href, succeed_formed _ hc2]
  case slice =>
    have h := restoreApply_slice ha
    exact ⟨congrArg Prod.fst h, congrArg (fun p => p.2.2.1) h, congrArg (fun p => p.2.1) h, congrArg (fun p => p.2.2.2) h⟩
  case badForm =>
    have hc := fresh?_cmd hf
    have href := cmd?_ref hc
    simp only [exec, execSliceRestore, hf, sliceRun_ready hr, sliceRestoreEff_badForm _ he hlen hread]
    rw [href, finish_quiet (s := s.taken x) hc (by decide), State.taken, href]
  case host =>
    have hc := fresh?_cmd hf
    have href := cmd?_ref hc
    have heff : sliceRestoreEff x src (s.taken x) = (s.taken x).failHost x.ref e (x.stream 16) o o := by
      simp only [sliceRestoreEff, he]
    simp only [exec, execSliceRestore, hf, sliceRun_ready hr, heff, href]
    refine ⟨_, rfl, finish_ended (s := s.taken x) _ hc, ?_, ?_, ?_, ?_, ?_⟩
    all_goals rw [failHost_frame]; rfl

end Sys2Proof.Machine
end

section
/-!
SEG_ALLOC and SEG_FREE: the entry, the charge, and the bytes of the data area (R121, R141, R144, R146, R159).
-/
namespace Sys2Proof.Machine

/-! ### Charges -/

theorem tierUsed_charge (tier : Nat) (y : Slice) (f : Nat → Nat) : tierUsed tier (y.charge tier f) = f (tierUsed tier y) := by
  match tier with
  | 0 => rfl
  | 1 => rfl
  | _ + 2 => rfl

theorem segUsed_charge (y : Slice) (tier : Nat) (f : Nat → Nat) : (y.charge tier f).segUsed = y.segUsed := by
  unfold Slice.charge
  split <;> rfl

theorem tierUsed_segUsed (tier : Nat) (y : Slice) (n : Nat) : tierUsed tier { y with segUsed := n } = tierUsed tier y := by
  unfold tierUsed
  split <;> rfl

/-! ### What an allocation chooses -/

theorem pick_mem {s : State} {l : List Nat} (h : l ≠ []) : ∃ u ∈ l, s.pick l = some u := by
  have hpos : 0 < l.length := List.length_pos_iff.mpr h
  have hlt := Nat.mod_lt (Config.freeNat s.tick) hpos
  refine ⟨l[Config.freeNat s.tick % l.length], List.getElem_mem _, ?_⟩
  rw [State.pick, if_neg (by simpa using h), List.getElem?_eq_getElem hlt]

theorem mem_freeOffsets {s : State} {mask tier n u : Nat} {p : Bool} (h : u ∈ s.freeOffsets mask tier p n) :
    ∀ k ∈ maskTiles mask, s.unitsFree k tier p u n = true := by
  have hall := (List.mem_filter.mp h).2
  exact fun k hk => List.all_eq_true.mp hall k hk

theorem fidx_rowUnits (g : Seg) (n : Nat) : ({ g with fidx := n } : Seg).rowUnits = g.rowUnits := (rfl)

/-- The index of a segment stands behind its data units (R141). -/
theorem withIndex_fidx {g : Seg} (h : g.codec = 1) :
    (if g.codec = 1 then { g with fidx := g.base + g.rowUnits * unitB } else g).fidx =
      (if g.codec = 1 then { g with fidx := g.base + g.rowUnits * unitB } else g).base +
        (if g.codec = 1 then { g with fidx := g.base + g.rowUnits * unitB } else g).rowUnits * 2 ^ 21 := by
  rw [if_pos h, ← unitB_eq_two_pow]
  exact (congrArg (fun n => g.base + n * unitB) (fidx_rowUnits g _)).symm

theorem allocSeg_fidx (x : Cmd) (u gen tick : Nat) (h : x.f 21 1 = 1) :
    (x.allocSeg u gen tick).fidx = (x.allocSeg u gen tick).base + (x.allocSeg u gen tick).rowUnits * 2 ^ 21 :=
  withIndex_fidx h

theorem allocSeg_fields (x : Cmd) (u gen tick : Nat) :
    (x.allocSeg u gen tick).base = storeAddr ((maskTiles x.allocTiles).headD 0) (x.f 16 1) (u * unitB) ∧
    (x.allocSeg u gen tick).tiles = x.allocTiles ∧ (x.allocSeg u gen tick).length = x.f 8 8 ∧ (x.allocSeg u gen tick).placement = x.f 17 1 ∧
    (x.allocSeg u gen tick).codec = x.f 21 1 ∧ (x.allocSeg u gen tick).slice = x.allocOwner ∧ (x.allocSeg u gen tick).nframes = 0 ∧
    (x.allocSeg u gen tick).dirty = true ∧
    (x.f 21 1 = 1 → (x.allocSeg u gen tick).fidx = (x.allocSeg u gen tick).base + (x.allocSeg u gen tick).rowUnits * 2 ^ 21) ∧
    (x.allocSeg u gen tick).persistent = bit (x.f 20 1) 0 ∧ (x.allocSeg u gen tick).zeroFill = bit (x.f 20 1) 1 := by
  have h2 := allocSeg_fidx x u gen tick
  unfold Cmd.allocSeg at h2 ⊢
  dsimp only at h2 ⊢
  split
  next h => rw [if_pos h] at h2; exact ⟨rfl, rfl, rfl, rfl, rfl, rfl, rfl, rfl, h2, rfl, rfl⟩
  next h => exact ⟨rfl, rfl, rfl, rfl, rfl, rfl, rfl, rfl, fun hc => absurd hc h, rfl, rfl⟩

/-- The units that a segment takes on each tile do not depend on where it lies. -/
theorem tileUnits_congr {g h : Seg} (hl : g.length = h.length) (hc : g.codec = h.codec) (hp : g.placement = h.placement) (ht : g.tiles = h.tiles) :
    g.tileUnits = h.tileUnits := by
  simp only [Seg.tileUnits, Seg.rowUnits, Seg.indexUnits, Seg.dataUnits, hl, hc, hp, ht]

theorem allocSeg_tileUnits (x : Cmd) (u gen tick u' gen' tick' : Nat) :
    (x.allocSeg u gen tick).tileUnits = (x.allocSeg u' gen' tick').tileUnits := by
  obtain ⟨-, ht, hl, hp, hc, -⟩ := allocSeg_fields x u gen tick
  obtain ⟨-, ht', hl', hp', hc', -⟩ := allocSeg_fields x u' gen' tick'
  exact tileUnits_congr (hl.trans hl'.symm) (hc.trans hc'.symm) (hp.trans hp'.symm) (ht.trans ht'.symm)

theorem addrTier_storeAddr_zero {t r : Nat} (hr : r < 4) : addrTier (storeAddr t r 0) = r := by
  unfold addrTier storeAddr bits
  omega

theorem addrTile_storeAddr {t r o : Nat} (ht : t < 8) (hr : r < 4) (ho : o < 2 ^ 47) : addrTile (storeAddr t r o) = t := by
  unfold addrTile storeAddr bits
  omega

theorem lt_of_mem_maskTiles {m t : Nat} (h : t ∈ maskTiles m) : t < 8 := List.mem_range.mp (List.mem_filter.mp h).1

/-! ### The data area after an allocation (R146) -/

/-- What a segment of these units forgets on one tile. -/
def State.forgetOn (s : State) (g : Seg) (t : Nat) : State :=
  let lo := storeAddr t g.tier g.off
  let n := g.tileUnits * unitB
  ({ s with
    mem := memErase s.mem lo n
    durable := memErase s.durable lo n
    poison := s.poison.filter fun u => decide (64 * u + 63 < lo ∨ lo + n ≤ 64 * u) } : State).onTile (tid t) fun x =>
      { x with staging := memErase x.staging lo n }

theorem forgetSeg_eq (s : State) (g : Seg) : s.forgetSeg g = (maskTiles g.tiles).foldl (fun s t => s.forgetOn g t) s := (rfl)

theorem forgetOn_frame (s : State) (g : Seg) (t : Nat) :
    s.forgetOn g t = { s with
      mem := (s.forgetOn g t).mem, durable := (s.forgetOn g t).durable, poison := (s.forgetOn g t).poison
      tiles := (s.forgetOn g t).tiles } := (rfl)

theorem forgetOn_staging (s : State) (g : Seg) (t : Nat) (u : TileId) :
    ((s.forgetOn g t).tile u).staging =
      if u = tid t then memErase (s.tile u).staging (storeAddr t g.tier g.off) (g.tileUnits * unitB) else (s.tile u).staging := by
  unfold State.forgetOn
  dsimp only
  split
  next h => subst h; rw [State.onTile_tile]; rfl
  next h => rw [State.onTile_tile_ne _ h]; rfl

/-- An address that holds nothing still holds nothing after more is forgotten. -/
theorem forgetOn_cell {s : State} {g : Seg} {t a : Nat} (h : s.cell? a = none ∨
    (addrTile a = t ∧ t < 8 ∧ storeAddr t g.tier g.off ≤ a ∧ a < storeAddr t g.tier g.off + g.tileUnits * unitB)) :
    (s.forgetOn g t).cell? a = none := by
  have hstag := forgetOn_staging s g t (tid (addrTile a))
  have hmem : memRead (s.forgetOn g t).mem a =
      if a < storeAddr t g.tier g.off ∨ storeAddr t g.tier g.off + g.tileUnits * unitB ≤ a then memRead s.mem a else none :=
    memRead_erase ..
  have hnone (m : Mem) (lo n : Nat) (hm : memRead m a = none) : memRead (memErase m lo n) a = none := by
    rw [memRead_erase, hm, ite_self]
  rcases h with h | ⟨ht, h8, hlo, hhi⟩
  · have hboth : memRead (s.tile (tid (addrTile a))).staging a = none ∧ memRead s.mem a = none := by
      unfold State.cell? at h
      cases hs : memRead (s.tile (tid (addrTile a))).staging a with
      | none => rw [hs] at h; exact ⟨rfl, h⟩
      | some b => rw [hs] at h; cases h
    unfold State.cell?
    rw [hstag, hmem, hboth.2, ite_self]
    split <;> rename_i hs
    · split at hs
      · rw [hnone _ _ _ hboth.1] at hs; cases hs
      · rw [hboth.1] at hs; cases hs
    · rfl
  · unfold State.cell?
    rw [hstag, if_pos (by rw [ht]), hmem, if_neg (by omega), memRead_erase, if_neg (by omega)]

/-- The reserved bytes of a segment hold nothing once it has been allocated. -/
theorem forgetSeg_cell (s : State) (g : Seg) {k o : Nat} (hk : k ∈ maskTiles g.tiles) (ho : o < g.tileUnits * unitB) (hlt : g.off + o < 2 ^ 47) :
    (s.forgetSeg g).cell? (storeAddr k g.tier (g.off + o)) = none := by
  have h8 := lt_of_mem_maskTiles hk
  have htile := addrTile_storeAddr h8 (tier_lt g) hlt
  rw [forgetSeg_eq]
  generalize maskTiles g.tiles = l at hk
  induction l generalizing s with
  | nil => cases hk
  | cons t l ih =>
    rw [List.foldl_cons]
    rcases List.mem_cons.mp hk with rfl | hk
    · have hnow : (s.forgetOn g k).cell? (storeAddr k g.tier (g.off + o)) = none :=
        forgetOn_cell (.inr ⟨htile, h8, by unfold storeAddr; omega, by unfold storeAddr; omega⟩)
      exact List.foldlRecOn (motive := fun u : State => u.cell? (storeAddr k g.tier (g.off + o)) = none) l (fun s t => s.forgetOn g t) hnow
        fun u hu t _ => forgetOn_cell (.inl hu)
    · exact ih _ hk

theorem forgetSeg_frame (s : State) (g : Seg) :
    s.forgetSeg g = { s with
      mem := (s.forgetSeg g).mem, durable := (s.forgetSeg g).durable, poison := (s.forgetSeg g).poison, tiles := (s.forgetSeg g).tiles } := by
  rw [forgetSeg_eq]
  exact List.foldlRecOn (motive := fun u : State => u = { s with mem := u.mem, durable := u.durable, poison := u.poison, tiles := u.tiles })
    (maskTiles g.tiles) (fun s t => s.forgetOn g t) rfl fun u hu t _ => by rw [forgetOn_frame, hu]

theorem onSlc_slices_congr {s t : State} (h : t.slices = s.slices) (n : Nat) (f : Slice → Slice) : (t.onSlc n f).slices = (s.onSlc n f).slices := by
  unfold State.onSlc State.setSlc State.slc
  dsimp only
  rw [h]

theorem revoteAll_onSlc_slices {s t : State} (h : t.slices = s.slices) (n : Nat) (f : Slice → Slice) :
    (t.onSlc n f).revoteAll.slices = (s.onSlc n f).slices := by
  rw [revoteAll_frame]
  exact onSlc_slices_congr h n f

/-! ### The entry of an allocation (R141, R144) -/

/-- The entry that an allocation at a unit writes. -/
def State.allocEntry (s : State) (x : Cmd) (u gen : Nat) : Seg :=
  { x.allocSeg u gen s.tick with
    charged := (x.allocSeg 0 1 0).chargeUnits, ownerPasid := if bit (x.f 20 1) 0 then some (s.dirPasid x.allocOwner) else none }

/-- The state once the entry is written and the owner charged. -/
def State.allocEntered (s : State) (x : Cmd) (id u gen : Nat) : State :=
  let g := s.allocEntry x u gen
  let t := (s.bump.forgetSeg g).setSeg id g
  (({ t with segGen := tblSet 0 t.segGen id gen } : State).onSlc x.allocOwner fun y =>
    ({ y with segUsed := y.segUsed + 1 } : Slice).charge g.tier (· + g.charged * unitB)).revoteAll

theorem allocCheck_none {s : State} {x : Cmd} (h : s.allocCheck x = none) :
    s.freeOffsets (x.allocSeg 0 1 0).tiles (x.allocSeg 0 1 0).tier (x.allocSeg 0 1 0).persistent (x.allocSeg 0 1 0).tileUnits ≠ [] ∧
    ¬(x.f 4 4 = 0 ∧ s.lowestFreeId = none) := by
  unfold State.allocCheck at h
  dsimp only at h
  split at h
  · cases h
  · split at h
    · cases h
    · split at h
      · cases h
      · split at h
        · cases h
        next hno => exact not_or.mp hno

/-- The ID that an allocation takes: the one asked for, or the lowest free one (R120, R145). -/
theorem allocId_some {s : State} {x : Cmd} (h : ¬(x.f 4 4 = 0 ∧ s.lowestFreeId = none)) :
    ∃ id, (if x.f 4 4 = 0 then s.lowestFreeId else some (x.f 4 4)) = some id := by
  split
  next h0 => exact Option.ne_none_iff_exists'.mp fun hn => h ⟨h0, hn⟩
  next => exact ⟨_, rfl⟩

theorem allocate_entered {s : State} {x : Cmd} {id u : Nat}
    (hu : s.pick (s.freeOffsets (x.allocSeg 0 1 0).tiles (x.allocSeg 0 1 0).tier (x.allocSeg 0 1 0).persistent (x.allocSeg 0 1 0).tileUnits) = some u)
    (hid : (if x.f 4 4 = 0 then s.lowestFreeId else some (x.f 4 4)) = some id) :
    ∃ gen, s.allocate x = (s.allocEntered x id u gen).allocated x.ref id (leBytes 4 id ++ leBytes 2 gen) := by
  refine ⟨nextGen (tblGet s.segGen id 0), ?_⟩
  unfold State.allocate
  dsimp only
  rw [hu, hid]
  rfl

theorem allocEntry_tileUnits (s : State) (x : Cmd) (u gen u' gen' tick' : Nat) :
    (s.allocEntry x u gen).tileUnits = (x.allocSeg u' gen' tick').tileUnits :=
  allocSeg_tileUnits x u gen s.tick u' gen' tick'

theorem allocEntered_frame (s : State) (x : Cmd) (id u gen : Nat) :
    (s.allocEntered x id u gen).segs = tblSet {} s.segs id (s.allocEntry x u gen) ∧ (s.allocEntered x id u gen).cmds = s.cmds ∧
    (s.allocEntered x id u gen).slices = (s.onSlc x.allocOwner fun y => ({ y with segUsed := y.segUsed + 1 } : Slice).charge
      (s.allocEntry x u gen).tier (· + (s.allocEntry x u gen).charged * unitB)).slices ∧
    ∀ a, (s.allocEntered x id u gen).cell? a = (s.bump.forgetSeg (s.allocEntry x u gen)).cell? a := by
  have hsegs : (s.bump.forgetSeg (s.allocEntry x u gen)).segs = s.segs := by rw [forgetSeg_frame]; rfl
  have hcmds : (s.bump.forgetSeg (s.allocEntry x u gen)).cmds = s.cmds := by rw [forgetSeg_frame]; rfl
  have hslices : (s.bump.forgetSeg (s.allocEntry x u gen)).slices = s.slices := by rw [forgetSeg_frame]; rfl
  unfold State.allocEntered
  dsimp only
  generalize s.bump.forgetSeg (s.allocEntry x u gen) = t at *
  have hset (v : Tbl Nat) : ({ t.setSeg id (s.allocEntry x u gen) with segGen := v } : State).slices = s.slices := hslices
  refine ⟨?_, ?_, ?_, fun a => cell?_congr a ?_ ?_⟩
  · rw [revoteAll_frame, ← hsegs]; rfl
  · rw [revoteAll_frame]; exact hcmds
  · exact revoteAll_onSlc_slices (hset _) _ _
  · rw [revoteAll_tile]; rfl
  · rw [revoteAll_frame]; rfl

theorem dirPut_entries (s : State) (id i : Nat) : (s.dirPut id i).segs = s.segs ∧ (s.dirPut id i).slices = s.slices := by
  unfold State.dirPut
  dsimp only
  exact ⟨rfl, rfl⟩

theorem dirFlush_frame (s : State) (c : CmdRef) (t k i id : Nat) (removal : Bool) (r : List Byte) :
    s.dirFlush c t k i id removal r = { s with
      cmds := (s.dirFlush c t k i id removal r).cmds, out := (s.dirFlush c t k i id removal r).out } := (rfl)

/-- An allocation that completes or waits for its directory record keeps the entries and the charges. -/
theorem allocated_frame (s : State) (c : CmdRef) (id : Nat) (r : List Byte) :
    (s.allocated c id r).segs = s.segs ∧ (s.allocated c id r).slices = s.slices := by
  unfold State.allocated
  dsimp only
  split
  · rw [dirFlush_frame]
    dsimp only
    exact dirPut_entries s id _
  · exact ⟨by rw [State.succeed, finish_frame], by rw [State.succeed, finish_frame]⟩

/-- An allocation that is not persistent completes at once, and the bytes of the store are as they were. -/
theorem allocated_cell {s : State} (c : CmdRef) {id : Nat} (r : List Byte) (hp : (s.seg id).persistent = false) (a : Nat) :
    (s.allocated c id r).cell? a = s.cell? a := by
  unfold State.allocated
  dsimp only
  rw [hp, if_neg Bool.false_ne_true]
  exact finish_cell ..

theorem segAlloc_enters {s : State} {c : CmdRef} {x : Cmd} (hx : s.fresh? c 0x20 = some x) (hc : s.allocCheck x = none) (htier : x.f 16 1 ≤ 2) :
    ∃ (id u gen : Nat), exec (.segAlloc c) s = .next ((s.allocEntered x id u gen).allocated c id (leBytes 4 id ++ leBytes 2 gen)) ∧
      ∀ k ∈ maskTiles x.allocTiles, s.unitsFree k (x.f 16 1) (bit (x.f 20 1) 0) u (s.allocEntry x u gen).tileUnits = true := by
  obtain ⟨hfree, hids⟩ := allocCheck_none hc
  obtain ⟨id, hid⟩ := allocId_some hids
  obtain ⟨u, hmem, hu⟩ := pick_mem hfree
  obtain ⟨gen, hgen⟩ := allocate_entered hu hid
  refine ⟨id, u, gen, ?_, fun k hk => ?_⟩
  · simp only [exec, execSegAlloc]
    rw [hx]
    dsimp only
    rw [hc]
    dsimp only
    rw [hgen, cmd?_ref (fresh?_cmd hx)]
  · obtain ⟨hb, ht, -, -, -, -, -, -, -, hp, -⟩ := allocSeg_fields x 0 1 0
    have htr : (x.allocSeg 0 1 0).tier = x.f 16 1 := by
      rw [Seg.tier, hb, Nat.zero_mul, addrTier_storeAddr_zero (by omega)]
    rw [ht, htr, hp] at hmem
    rw [allocEntry_tileUnits s x u gen 0 1 0]
    exact mem_freeOffsets hmem k hk

/-! ### The entry of a free (R121, R144, R159) -/

/-- The state in which the charges of a segment have returned, before its entry goes. -/
def State.uncharged (s : State) (id : Nat) : State :=
  let t := s.onSlc (s.seg id).slice fun y =>
    ({ y with segUsed := y.segUsed - 1 } : Slice).charge (s.seg id).tier (· - (s.seg id).charged * unitB)
  if (s.seg id).poison then t.strand id else t

theorem clearSeg_eq {s : State} {id : Nat} (h : (s.seg id).valid = true) :
    s.clearSeg id = (((s.uncharged id).goneSeg id).setSeg id {}).revoteAll := by
  unfold State.clearSeg
  dsimp only
  rw [h]
  rfl

theorem uncharged_frame (s : State) (id : Nat) :
    ∃ st, s.uncharged id = { s with
      stuck := st
      slices := (s.onSlc (s.seg id).slice fun y =>
        ({ y with segUsed := y.segUsed - 1 } : Slice).charge (s.seg id).tier (· - (s.seg id).charged * unitB)).slices } := by
  unfold State.uncharged
  dsimp only
  split
  · exact ⟨_, rfl⟩
  · exact ⟨_, rfl⟩

theorem clearSeg_frame {s : State} {id : Nat} (h : (s.seg id).valid = true) :
    (s.clearSeg id).cmds = (s.goneSeg id).cmds ∧ (s.clearSeg id).queues = s.queues ∧ (s.clearSeg id).keys = s.keys ∧
    (s.clearSeg id).mem = s.mem ∧ (s.clearSeg id).now = s.now ∧ (∀ u, ((s.clearSeg id).tile u).staging = (s.tile u).staging) ∧
    (s.clearSeg id).slices = (s.onSlc (s.seg id).slice fun y =>
      ({ y with segUsed := y.segUsed - 1 } : Slice).charge (s.seg id).tier (· - (s.seg id).charged * unitB)).slices ∧
    (s.clearSeg id).seg id = {} := by
  obtain ⟨st, hun⟩ := uncharged_frame s id
  rw [clearSeg_eq h]
  generalize s.uncharged id = t at hun
  generalize (s.onSlc _ _).slices = sl at hun ⊢
  subst hun
  refine ⟨?_, ?_, ?_, ?_, ?_, fun u => ?_, ?_, ?_⟩
  case refine_6 => rw [revoteAll_tile]; rfl
  case refine_8 => rw [seg_congr (show _ = (State.setSeg _ id {}).segs by rw [revoteAll_frame]), seg_setSeg, if_pos rfl]
  all_goals rw [revoteAll_frame]; rfl

/-- A running command is found as it was after a segment has gone. -/
theorem goneSeg_cmd? {s : State} {c : CmdRef} {x : Cmd} (id : Nat) (h : s.cmd? c = some x) (hp : x.phase ≠ .fetched) :
    (s.goneSeg id).cmd? c = some x := by
  unfold State.goneSeg State.cmd? at *
  dsimp only
  rw [List.find?_map]
  have hsame : ((fun y : Cmd => decide (y.ref = c)) ∘ fun y : Cmd =>
      if y.phase = .fetched ∧ ((y.segFields.map (·.1)).contains id || y.held.contains id) = true then { y with goneSegs := id :: y.goneSegs }
      else y) = fun y : Cmd => decide (y.ref = c) := by
    funext y
    dsimp only [Function.comp]
    split
    · rfl
    · rfl
  rw [hsame, h, Option.map_some, if_neg fun hf => hp hf.1]

theorem runningOp?_started {s : State} {c : CmdRef} {op : Nat} {x : Cmd} (h : s.runningOp? c op = some x) : x.phase = .started := by
  unfold State.runningOp? State.running? at h
  split at h
  next y hy =>
    split at hy
    next z _ =>
      obtain ⟨hph, hz⟩ := Option.ite_none_right_eq_some.mp hy
      obtain ⟨-, hyx⟩ := Option.ite_none_right_eq_some.mp h
      rw [← Option.some.inj hyx, ← Option.some.inj hz]
      exact hph
    · cases hy
  · cases h

theorem segFree_waits {s : State} {c : CmdRef} {x : Cmd} (hx : s.fresh? c 0x21 = some x) :
    exec (.segFree c) s = .next ((s.noteSeg (x.f 4 4) fun g => { g with freeing := some c }).onCmd c fun y => { y with prog := .freeWait (x.f 4 4) }) := by
  simp only [exec, execSegFree]
  rw [hx]

theorem segFreeEffect_runs {s : State} {c : CmdRef} {id : Nat} (h : s.progOp? c 0x21 = some (.freeWait id)) :
    exec (.segFreeEffect c) s = .next (if s.cmds.any fun y => decide (y.ref ≠ c) && y.named.contains id then s else s.freeEffect c id) := by
  obtain ⟨x, -, hr, hp⟩ := progOp?_cmd h
  simp only [exec, execSegFreeEffect]
  rw [hr]
  dsimp only
  rw [hp]

theorem segFreeEffect_waits {s : State} {c : CmdRef} {id : Nat} (h : s.progOp? c 0x21 = some (.freeWait id))
    (hy : ∃ y ∈ s.cmds, y.ref ≠ c ∧ id ∈ y.named) : exec (.segFreeEffect c) s = .next s := by
  obtain ⟨y, hmem, hne, hid⟩ := hy
  rw [segFreeEffect_runs h, if_pos]
  exact List.any_eq_true.mpr ⟨y, hmem, by simp [hne, hid]⟩

theorem segFreeEffect_effects {s : State} {c : CmdRef} {id : Nat} (h : s.progOp? c 0x21 = some (.freeWait id))
    (hall : ∀ y ∈ s.cmds, y.ref = c ∨ id ∉ y.named) : exec (.segFreeEffect c) s = .next (s.freeEffect c id) := by
  rw [segFreeEffect_runs h, if_neg]
  rw [List.any_eq_true]
  rintro ⟨y, hmem, hy⟩
  rcases hall y hmem with hr | hn
  · simp [hr] at hy
  · simp [hn] at hy

/-- A segment without a directory record is free at once. -/
theorem freeEffect_clears {s : State} (c : CmdRef) {id : Nat} (h : (s.seg id).persistent = false ∨
    s.dirFind (addrTile (s.seg id).base) (s.expanderOf (s.seg id)) (fun r => dirRecordOk r && field r 32 4 == id) = none) :
    s.freeEffect c id = (s.clearSeg id).succeed c [] := by
  unfold State.freeEffect
  dsimp only
  rcases h with hp | hn
  · rw [hp, Bool.and_false, if_neg Bool.false_ne_true]
  · rw [hn, ite_self]

/-- A persistent segment's record goes first, and its removal is made durable (R159). -/
theorem freeEffect_flushes {s : State} (c : CmdRef) {id i : Nat} (hv : (s.seg id).valid = true) (hp : (s.seg id).persistent = true)
    (hi : s.dirFind (addrTile (s.seg id).base) (s.expanderOf (s.seg id)) (fun r => dirRecordOk r && field r 32 4 == id) = some i) :
    s.freeEffect c id =
      (s.dirTake (addrTile (s.seg id).base) (s.expanderOf (s.seg id)) i).dirFlush c (addrTile (s.seg id).base) (s.expanderOf (s.seg id)) i id true [] := by
  unfold State.freeEffect
  dsimp only
  rw [hv, hp, Bool.and_self, if_pos rfl, hi]

/-- What a free without a directory record leaves. -/
theorem cleared_free {s : State} {c : CmdRef} {x : Cmd} {id : Nat} (hc : s.cmd? c = some x) (hph : x.phase = .started)
    (hv : (s.seg id).valid = true) : ∃ t : State, (s.clearSeg id).succeed c [] = t ∧
      (t.seg id).valid = false ∧ (∀ j, j ≠ id → t.seg j = s.seg j) ∧
      (t.slc (s.seg id).slice).segUsed = (s.slc (s.seg id).slice).segUsed - 1 ∧
      tierUsed (s.seg id).tier (t.slc (s.seg id).slice) = tierUsed (s.seg id).tier (s.slc (s.seg id).slice) - (s.seg id).charged * 2 ^ 21 ∧
      t.cmds = ((s.goneSeg id).formed c {}).cmds ∧ t.queues = s.queues ∧ t.keys = s.keys ∧ t.mem = s.mem ∧ ∀ b, t.cell? b = s.cell? b := by
  obtain ⟨hcmds, hq, hk, hm, hnow, hst, hsl, hseg⟩ := clearSeg_frame hv
  have hfound : (s.clearSeg id).cmd? c = some x := by
    rw [cmd?_congr c hcmds]
    exact goneSeg_cmd? id hc (by rw [hph]; decide)
  have hslc : (s.clearSeg id).slc (s.seg id).slice = ({ s.slc (s.seg id).slice with segUsed := (s.slc (s.seg id).slice).segUsed - 1 } : Slice).charge
      (s.seg id).tier (· - (s.seg id).charged * unitB) := by
    rw [State.slc, hsl]
    exact State.slc_onSlc_self ..
  have hne (j : Nat) (hj : j ≠ id) : (s.clearSeg id).seg j = s.seg j := clearSeg_seg_ne s hj
  rw [succeed_formed [] hfound]
  generalize s.clearSeg id = t at *
  refine ⟨_, rfl, ?_, fun j hj => ?_, ?_, ?_, ?_, hq, hk, hm, fun b => ?_⟩
  · exact congrArg Seg.valid hseg
  · exact hne j hj
  · rw [State.formed_slc, hslc, segUsed_charge]
  · rw [State.formed_slc, hslc, tierUsed_charge, tierUsed_segUsed, unitB_eq_two_pow]
  · unfold State.formed State.onCmd
    dsimp only
    rw [hcmds, hnow]
    rfl
  · exact cell?_congr (s := s) b (congrArg (memRead · b) (hst _)) (congrArg (memRead · b) hm)

theorem segAlloc_charges {s : State} {c : CmdRef} {x : Cmd} (hx : s.fresh? c 0x20 = some x) (hc : s.allocCheck x = none) (htier : x.f 16 1 ≤ 2) :
    ∃ (t : State) (id u : Nat), exec (.segAlloc c) s = .next t ∧
      (t.seg id).base = storeAddr ((maskTiles x.allocTiles).headD 0) (x.f 16 1) (u * unitB) ∧
      (t.seg id).tiles = x.allocTiles ∧ (t.seg id).length = x.f 8 8 ∧ (t.seg id).placement = x.f 17 1 ∧ (t.seg id).codec = x.f 21 1 ∧
      (t.seg id).slice = x.allocOwner ∧ (t.seg id).nframes = 0 ∧ (t.seg id).dirty = true ∧
      (x.f 21 1 = 1 → (t.seg id).fidx = (t.seg id).base + (t.seg id).rowUnits * 2 ^ 21) ∧
      (t.seg id).persistent = bit (x.f 20 1) 0 ∧ (t.seg id).zeroFill = bit (x.f 20 1) 1 ∧
      (∀ k ∈ maskTiles x.allocTiles, s.unitsFree k (x.f 16 1) (bit (x.f 20 1) 0) u (t.seg id).tileUnits = true) ∧
      (t.slc x.allocOwner).segUsed = (s.slc x.allocOwner).segUsed + 1 ∧
      tierUsed (t.seg id).tier (t.slc x.allocOwner) =
        tierUsed (t.seg id).tier (s.slc x.allocOwner) + (t.seg id).tileUnits * (maskTiles x.allocTiles).length * 2 ^ 21 ∧
      (∀ j, j ≠ x.allocOwner → t.slc j = s.slc j) ∧
      (bit (x.f 20 1) 0 = false → ∀ k ∈ maskTiles x.allocTiles, ∀ o < (t.seg id).tileUnits * unitB, (t.seg id).off + o < 2 ^ 47 →
        t.cell? (storeAddr k (t.seg id).tier ((t.seg id).off + o)) = none) := by
  obtain ⟨id, u, gen, hexec, hfree⟩ := segAlloc_enters hx hc htier
  obtain ⟨hsegs, -, hsl, hcell⟩ := allocEntered_frame s x id u gen
  obtain ⟨hasegs, hasl⟩ := allocated_frame (s.allocEntered x id u gen) c id (leBytes 4 id ++ leBytes 2 gen)
  have hacell := fun hp => allocated_cell (s := s.allocEntered x id u gen) c (id := id) (leBytes 4 id ++ leBytes 2 gen) hp
  obtain ⟨hb, ht, hl, hp, hcd, hs, hn, hd, hf, hper, hz⟩ := allocSeg_fields x u gen s.tick
  have hcharged : (s.allocEntry x u gen).charged = (s.allocEntry x u gen).tileUnits * (maskTiles x.allocTiles).length := by
    rw [allocEntry_tileUnits s x u gen 0 1 0, ← (allocSeg_fields x 0 1 0).2.1]
    rfl
  have hcells := fun k o => forgetSeg_cell s.bump (s.allocEntry x u gen) (k := k) (o := o)
  have hent : (s.allocEntered x id u gen).seg id = s.allocEntry x u gen := by
    rw [State.seg, hsegs]
    exact tblGet_set_self ..
  have hpers : (s.allocEntry x u gen).persistent = bit (x.f 20 1) 0 := hper
  have htiles : (s.allocEntry x u gen).tiles = x.allocTiles := ht
  refine ⟨_, id, u, hexec, ?_⟩
  generalize (s.allocEntered x id u gen).allocated c id _ = t at *
  have hseg : t.seg id = s.allocEntry x u gen := (seg_congr hasegs id).trans hent
  have hown : t.slc x.allocOwner = ({ s.slc x.allocOwner with segUsed := (s.slc x.allocOwner).segUsed + 1 } : Slice).charge
      (s.allocEntry x u gen).tier (· + (s.allocEntry x u gen).charged * unitB) := by
    rw [State.slc, hasl, hsl]
    exact State.slc_onSlc_self ..
  rw [hseg]
  refine ⟨hb, ht, hl, hp, hcd, hs, hn, hd, hf, hper, hz, hfree, ?_, ?_, fun j hj => ?_, fun hnp k hk o ho hlt => ?_⟩
  · rw [hown, segUsed_charge]
  · rw [hown, tierUsed_charge, tierUsed_segUsed, hcharged, unitB_eq_two_pow]
  · rw [State.slc, hasl, hsl]
    exact State.slc_onSlc_ne s hj _
  · rw [hacell (by rw [hent, hpers, hnp]), hcell]
    exact hcells k o (by rw [htiles]; exact hk) ho hlt

/-- Settles O9: an allocation writes its entry on units that `pick` took among the free ones, and a free clears its entry once
nothing else names it, or takes its directory record out first. -/
theorem segAllocAndFreeKeepTheCharges : Obligations.SegAllocAndFreeKeepTheCharges := by
  unfold Obligations.SegAllocAndFreeKeepTheCharges
  refine ⟨fun s c x hx hc htier => segAlloc_charges hx hc htier, fun s c x hx => segFree_waits hx,
    fun s c id h hy => segFreeEffect_waits h hy, fun s c id h hv hall => ?_⟩
  intro a k rec?
  rw [segFreeEffect_effects h hall]
  obtain ⟨x, hc, hrun, -⟩ := progOp?_cmd h
  refine ⟨fun hno => ?_, fun i hp hi => ?_⟩
  · rw [freeEffect_clears c hno]
    obtain ⟨t, ht, hrest⟩ := cleared_free hc (runningOp?_started hrun) hv
    exact ⟨t, by rw [ht], hrest⟩
  · rw [freeEffect_flushes c hv hp hi]
    rfl

end Sys2Proof.Machine
end

section
/-!
What control messages and the scheduler's windows change (R343 to R345, R356, R482): three relations, each wider than the one before.
-/
namespace Sys2Proof.Machine

/-- What holds of a tile that an update touches, and of every tile with itself, holds of each tile before and after the update. -/
theorem onTile_rel {P : Tile → Tile → Prop} (hr : ∀ x, P x x) (s : State) (t : TileId) (f : Tile → Tile) (h : P (s.tile t) (f (s.tile t)))
    (u : TileId) : P (s.tile u) ((s.onTile t f).tile u) := by
  by_cases hu : u = t
  · subst hu; rw [State.onTile_tile]; exact h
  · rw [State.onTile_tile_ne _ hu]; exact hr _

/-! ### Control messages -/

/-- From `s` to `t` messages have gone out: outputs are added, and of each tile only its edges, the votes on its domains, and the control
messages that it sends again may have changed. -/
def told (s t : State) : Prop :=
  (∃ more, t.out = s.out ++ more) ∧ t = { s with tiles := t.tiles, out := t.out } ∧
    ∀ u, t.tile u = { s.tile u with edges := (t.tile u).edges, doms := (t.tile u).doms, ctl := (t.tile u).ctl }

theorem told.refl (s : State) : told s s := ⟨⟨[], (List.append_nil _).symm⟩, rfl, fun _ => rfl⟩

theorem told.trans {s t u : State} (h : told s t) (h' : told t u) : told s u := by
  obtain ⟨⟨l, hl⟩, ht, htile⟩ := h
  obtain ⟨⟨l', hl'⟩, hu, hutile⟩ := h'
  exact ⟨⟨l ++ l', by rw [hl', hl, List.append_assoc]⟩, by rw [hu, ht], fun v => by rw [hutile v, htile v]⟩

theorem told.of_wired {s t : State} (h : wired s t) : told s t := by
  obtain ⟨ho, ht, htile⟩ := h
  exact ⟨ho, ht, fun u => by rw [htile u]⟩

theorem told.foldl {α : Type} {f : State → α → State} (h : ∀ s a, told s (f s a)) (l : List α) (s : State) : told s (l.foldl f s) :=
  List.foldlRecOn (motive := fun t : State => told s t) l f (.refl s) fun t ht a _ => ht.trans (h t a)

theorem told.onCtl (s : State) (t : TileId) (f : List CtlPending → List CtlPending) :
    told s (s.onTile t fun x => { x with ctl := f x.ctl }) :=
  ⟨⟨[], (List.append_nil _).symm⟩, rfl,
    onTile_rel (P := fun a b => b = { a with edges := b.edges, doms := b.doms, ctl := b.ctl }) (fun _ => rfl) s t _ rfl⟩

/-- A message whose loss is a control message that waits, or nothing: it serves no morsel. -/
def mildLoss (b : List Byte) : Prop := ∀ s : State, told s (s.loseMsg b)

theorem told.sendEdge {b : List Byte} (hb : mildLoss b) (s : State) (t : TileId) (e : EdgeId) (vc : Nat) : told s (s.sendEdge t e vc b) := by
  unfold State.sendEdge
  dsimp only
  have hpump := (wired.onEdge s t e fun y => { y with held := y.held ++ [(vc, b)] }).trans (.pumpEdge _ t e)
  split
  · exact .of_wired hpump
  · exact hb s
  · exact hb s
  · split
    · exact .of_wired (.emit ..)
    · split
      · exact .of_wired hpump
      · split
        · exact .of_wired ((wired.onEdge ..).trans (.wakeLink ..))
        · exact .of_wired ((wired.onEdge ..).trans (.castVote ..))

theorem told.forward {b : List Byte} (hb : mildLoss b) (s : State) (t : TileId) : told s (s.forward t b) := by
  unfold State.forward
  dsimp only
  split
  · exact hb s
  · exact .sendEdge hb ..

theorem mildLoss_of {mtype : Nat} (h : mtype < 256) (hx : mtype ≠ 0x20 ∧ mtype ≠ 0x14) (hd : MsgHdr) (body : List Byte) :
    mildLoss (msgBytes mtype hd body) := by
  intro s
  have hbyte : byteAt (msgBytes mtype hd body) 0 = mtype := by
    show (BitVec.ofNat 8 mtype).toNat = mtype
    rw [BitVec.toNat_ofNat]
    exact Nat.mod_eq_of_lt h
  unfold State.loseMsg
  dsimp only
  rw [hbyte, if_neg (not_or.mpr hx)]
  split
  · split
    · exact .refl s
    · exact .onCtl s _ (· ++ [_])
  · exact .refl s

/-- A message that is sent stands in the outputs, with what the links make of it behind it. -/
theorem sendMsg_told {mtype : Nat} (h : mtype < 256) (hx : mtype ≠ 0x20 ∧ mtype ≠ 0x14) (s : State) (len : Nat)
    (src : TileId) (sa : Fin 64) (dst : TileId) (da : Fin 64) (x : MsgCtx) (body : List Byte) :
    told (s.emit (.msg mtype (sentHdr mtype len src sa dst da x) (cut body 0 (len - 16)))) (s.sendMsg mtype len src sa dst da x body) := by
  unfold State.sendMsg
  dsimp only
  split
  · exact .refl _
  · exact .forward (mildLoss_of h hx _ _) ..

theorem told.sendCtl {mtype : Nat} (h : mtype < 256) (hx : mtype ≠ 0x20 ∧ mtype ≠ 0x14) (s : State) (src dst : TileId) (x : MsgCtx)
    (body : List Byte) : told s (s.sendCtl mtype src dst x body) :=
  (told.of_wired (.emit s _)).trans (sendMsg_told h hx ..)

theorem told.sendState (s : State) (t : TileId) : told s (s.sendState t) := by
  unfold State.sendState
  exact .foldl (fun s u => .sendCtl (by decide) (by decide) ..) _ s

theorem told.sched {s t : State} (h : told s t) (u : TileId) : t.sched u = s.sched u := by
  rw [State.sched, State.sched, h.2.2 u]

/-! ### Messages and votes of the scheduler, with the bases that queries have sent -/

/-- As `told`, and queries may have recorded what was sent. -/
def messaged (s t : State) : Prop :=
  t = { s with tiles := t.tiles, out := t.out, queries := t.queries } ∧
    ∀ u, t.tile u = { s.tile u with edges := (t.tile u).edges, doms := (t.tile u).doms, ctl := (t.tile u).ctl }

theorem messaged.refl (s : State) : messaged s s := ⟨rfl, fun _ => rfl⟩

theorem messaged.trans {s t u : State} (h : messaged s t) (h' : messaged t u) : messaged s u := by
  obtain ⟨ht, htile⟩ := h
  obtain ⟨hu, hutile⟩ := h'
  exact ⟨by rw [hu, ht], fun v => by rw [hutile v, htile v]⟩

theorem messaged.of_told {s t : State} (h : told s t) : messaged s t := by
  obtain ⟨-, ht, htile⟩ := h
  exact ⟨by rw [ht], htile⟩

theorem messaged.foldl {α : Type} {f : State → α → State} (h : ∀ s a, messaged s (f s a)) (l : List α) (s : State) : messaged s (l.foldl f s) :=
  List.foldlRecOn (motive := fun t : State => messaged s t) l f (.refl s) fun t ht a _ => ht.trans (h t a)

theorem messaged.onQuery (s : State) (n : Nat) (f : Query → Query) : messaged s (s.onQuery n f) := ⟨rfl, fun _ => rfl⟩

theorem messaged.onDoms (s : State) (t : TileId) (f : Tile → Vector Dom 56) : messaged s (s.onTile t fun x => { x with doms := f x }.settle) :=
  ⟨rfl, onTile_rel (P := fun a b => b = { a with edges := b.edges, doms := b.doms, ctl := b.ctl }) (fun _ => rfl) s t _ (by
    rw [settle_onto])⟩

theorem messaged.sendBase (s : State) (q : Query) (i : Img) (k : Nat) : messaged s (s.sendBase q i k) := by
  unfold State.sendBase
  split
  · exact .refl s
  · exact (messaged.of_told (.foldl (fun s u => .sendCtl (by decide) (by decide) ..) _ s)).trans (.onQuery ..)

theorem messaged.wantPes (s : State) (t : TileId) : messaged s (s.wantPes t) := by
  unfold State.wantPes
  exact .onDoms s t _

theorem messaged.dropIdle (s : State) (t : TileId) : messaged s (s.dropIdle t) := by
  unfold State.dropIdle
  dsimp only
  split
  · exact .refl s
  · exact .onDoms s t _

theorem messaged.sched {s t : State} (h : messaged s t) (u : TileId) : t.sched u = s.sched u := by
  rw [State.sched, State.sched, h.2 u]

/-! ### Windows and epochs -/

/-- From `s` to `t` the scheduler has worked: commands may have completed, queries recorded what was sent, and of each tile the scheduler,
the edges, the votes, the records and what waits to be sent may have changed; no morsel, no byte and no entry has. -/
def scheduled (s t : State) : Prop :=
  t = { s with tiles := t.tiles, out := t.out, queries := t.queries, cmds := t.cmds, dev := { s.dev with meanW := t.dev.meanW, limitAt := t.dev.limitAt, epochEnd := t.dev.epochEnd }, feat := t.feat } ∧
    ∀ u, t.tile u = { s.tile u with
      edges := (t.tile u).edges, doms := (t.tile u).doms, ctl := (t.tile u).ctl, sched := (t.tile u).sched, err := (t.tile u).err
      msixPend := (t.tile u).msixPend }

theorem scheduled.refl (s : State) : scheduled s s := ⟨rfl, fun _ => rfl⟩

theorem scheduled.trans {s t u : State} (h : scheduled s t) (h' : scheduled t u) : scheduled s u := by
  obtain ⟨ht, htile⟩ := h
  obtain ⟨hu, hutile⟩ := h'
  refine ⟨?_, fun v => by rw [hutile v, htile v]⟩
  rw [hu, ht]

theorem scheduled.of_messaged {s t : State} (h : messaged s t) : scheduled s t := by
  obtain ⟨ht, htile⟩ := h
  exact ⟨by rw [ht], fun u => by rw [htile u]⟩

theorem scheduled.foldl {α : Type} {f : State → α → State} (h : ∀ s a, scheduled s (f s a)) (l : List α) (s : State) : scheduled s (l.foldl f s) :=
  List.foldlRecOn (motive := fun t : State => scheduled s t) l f (.refl s) fun t ht a _ => ht.trans (h t a)

theorem scheduled.onSched (s : State) (t : TileId) (f : Sched → Sched) : scheduled s (s.onSched t f) :=
  ⟨rfl, onTile_rel (P := fun a b => b = { a with
    edges := b.edges, doms := b.doms, ctl := b.ctl, sched := b.sched, err := b.err, msixPend := b.msixPend }) (fun _ => rfl) s t _ rfl⟩

/-- A trace record changes the scheduler's ring and its count alone. -/
theorem trace_eq (s : State) (t : TileId) (r : Trace) : ∃ l n, s.trace t r = s.onSched t fun c => { c with trace := l, traceCnt := n } := by
  by_cases h : (s.tile t).sched.traceEn = true ∧ bit (s.tile t).sched.mask r.type = true
  · refine ⟨ringPush 65536 (s.tile t).sched.trace { r with tstamp := s.now, credit := (s.tile t).sched.credit }, ((s.tile t).sched.traceCnt + 1) % 2 ^ 32, ?_⟩
    refine State.onTile_congr ?_
    rw [if_pos h]
    rfl
  · refine ⟨(s.tile t).sched.trace, (s.tile t).sched.traceCnt, State.onTile_congr ?_⟩
    rw [if_neg h]
    rfl

theorem scheduled.trace (s : State) (t : TileId) (r : Trace) : scheduled s (s.trace t r) := by
  obtain ⟨l, n, h⟩ := trace_eq s t r
  rw [h]
  exact .onSched ..

theorem scheduled.atTime {s : State} {b : Nat} {f : State → State} (h : ∀ s, scheduled s (f s)) : scheduled s (s.atTime b f) := by
  obtain ⟨ht, htile⟩ := h { s with now := b }
  unfold State.atTime
  generalize f { s with now := b } = t at *
  refine ⟨?_, htile⟩
  rw [ht]

theorem scheduled.windowEff (t : TileId) (other : Nat) (s : State) : scheduled s (windowEff t other s) := by
  unfold Machine.windowEff
  dsimp only
  have hstate (c : Bool) (s : State) : scheduled s (if c = true then s.sendState t else s) := by
    split
    · exact .of_messaged (.of_told (.sendState ..))
    · exact .refl s
  exact ((((scheduled.of_messaged (.dropIdle s t)).trans (.onSched ..)).trans (.trace ..)).trans (hstate _ _)).trans
    (.of_messaged ((messaged.foldl (fun s q => .foldl (fun s p => .sendBase ..) _ s) _ _).trans (.wantPes ..)))

theorem scheduled.openWindow (s : State) (t : TileId) (b other : Nat) (charged : Bool) : scheduled s (s.openWindow t b other charged) :=
  .atTime fun s => (scheduled.windowEff t other s).trans (.onSched ..)

theorem scheduled.rollWindows (t : TileId) (e : Nat) : ∀ (n : Nat) (s : State), scheduled s (s.rollWindows t e n)
  | 0, s => .refl s
  | n + 1, s => by
    unfold State.rollWindows
    split
    · exact .refl s
    · split
      · exact (scheduled.openWindow ..).trans (scheduled.rollWindows t e n _)
      · exact .refl s

theorem scheduled.finish (s : State) (c : CmdRef) (k : Completion) : scheduled s (s.finish c k) :=
  ⟨by rw [finish_frame], fun u => by rw [finish_tile]⟩

theorem scheduled.takeWindow (s : State) : scheduled s s.takeWindow := by
  unfold State.takeWindow
  have hfeat : scheduled s { s with feat := { s.feat with schedWindow := s.nextWindow, schedNext := none } } := ⟨rfl, fun _ => rfl⟩
  exact hfeat.trans (.foldl (fun s x => .finish ..) _ _)

theorem scheduled.epochTile (s : State) (t : TileId) : scheduled s (s.epochTile t) := (scheduled.onSched ..).trans (.trace ..)

theorem scheduled.onEpoch (s : State) (w : Nat) (l e : Option Nat) :
    scheduled s { s with dev := { s.dev with meanW := w, limitAt := l, epochEnd := e } } := ⟨rfl, fun _ => rfl⟩

theorem scheduled.epochEff (s : State) : scheduled s (epochEff s) := by
  unfold Machine.epochEff
  dsimp only
  exact ((scheduled.takeWindow s).trans (.foldl .epochTile _ _)).trans (.onEpoch ..)

theorem scheduled.openEpoch (s : State) (k : Nat) : scheduled s (s.openEpoch k) := by
  unfold State.openEpoch
  dsimp only
  exact (scheduled.foldl (fun s t => .rollWindows t _ _ s) _ s).trans (.atTime fun s => (scheduled.epochEff s).trans (.onEpoch ..))

theorem scheduled.rollEpochs : ∀ (n : Nat) (s : State), scheduled s (s.rollEpochs n)
  | 0, s => .refl s
  | n + 1, s => by
    unfold State.rollEpochs
    split
    · exact .refl s
    · split
      · exact (scheduled.openEpoch ..).trans (scheduled.rollEpochs n _)
      · exact .refl s

theorem scheduled.rollSched (s : State) (t : TileId) : scheduled s (s.rollSched t) :=
  (scheduled.rollEpochs _ s).trans (.rollWindows ..)

theorem scheduled.discardOn (s : State) (t : TileId) (p : Token → Bool) (reason : Nat) : scheduled s (s.discardOn t p reason) := by
  unfold State.discardOn
  exact (scheduled.onSched s t fun c => { c with tokens := c.tokens.filter fun k => !p k }).trans (.foldl (fun s k => .trace ..) _ _)

/-- No morsel starts or stops where the scheduler works. -/
theorem scheduled.run? {s t : State} (h : scheduled s t) (p : Gpe) : t.run? p = s.run? p := by
  rw [State.run?, State.run?, h.2]

/-- No byte of a segment changes where the scheduler works. -/
theorem scheduled.sameStore {s t : State} (h : scheduled s t) : sameStore s t :=
  ⟨by rw [h.1], by rw [h.1], fun u => by rw [h.2 u]⟩

end Sys2Proof.Machine
end

section
/-!
TOKEN_DISPATCH: one morsel of an eligible token goes to one idle PE (R340, R343, R352).
-/
namespace Sys2Proof.Machine

/-! ### What stands before a dispatch -/

theorem scheduled.logErr (s : State) (t : TileId) (r : ErrRec) : scheduled s (s.logErr t r) :=
  ⟨by rw [logErr_frame], fun u => by rw [logErr_tile_any]⟩

theorem scheduled.onErr (s : State) (t : TileId) (f : Err → Err) : scheduled s (s.onTile t fun x => { x with err := f x.err }) :=
  ⟨rfl, onTile_rel (P := fun a b => b = { a with
    edges := b.edges, doms := b.doms, ctl := b.ctl, sched := b.sched, err := b.err, msixPend := b.msixPend }) (fun _ => rfl) s t _ rfl⟩

theorem scheduled.rollCoalesce (s : State) (t : TileId) : scheduled s (s.rollCoalesce t) := by
  unfold State.rollCoalesce
  dsimp only
  split
  · exact .refl s
  · exact (scheduled.onErr s t fun e => { e with counts := [], coalAt := s.now / coalesceNs }).trans
      (.foldl (f := fun s c => s.logWindow t _ c) (fun s c => .atTime fun s => .logErr s t _) _ _)

theorem scheduled.logCorrected (s : State) (t : TileId) (r : ErrRec) : scheduled s (s.logCorrected t r) := by
  unfold State.logCorrected
  dsimp only
  split
  · exact (scheduled.rollCoalesce s t).trans (.onErr _ t fun e => { e with counts := e.counts.map fun c =>
      if c.1 = r.kind ∧ c.2.1 = r.index then (c.1, c.2.1, c.2.2.1, c.2.2.2 + 1) else c })
  · exact ((scheduled.rollCoalesce s t).trans (.logErr ..)).trans (.onErr _ t fun e => { e with counts := e.counts ++ [(r.kind, r.index, r.event, 0)] })

/-- Unless an entry of the token store is lost, only the scheduler works before a dispatch. -/
theorem scheduled.forDispatch (s : State) (t : TileId) {ecc : ScrubResult} (h : ecc ≠ .uncorrectable) : scheduled s (s.forDispatch t ecc) := by
  unfold State.forDispatch
  have hecc (s : State) : scheduled s (s.storeEcc t ecc) := by
    cases ecc with
    | clean => exact .refl s
    | corrected => exact .logCorrected ..
    | uncorrectable => exact absurd rfl h
  exact ((scheduled.rollSched s t).trans (hecc _)).trans (.discardOn ..)

/-! ### What a dispatch that passes tokens over leaves -/

/-- The token as it is whether or not energy skipped it. -/
def Token.unskipped (k : Token) : Token := { k with skipped := false }

/-- From `w` to `u` tile `t` has at most passed tokens over: of each tile only the scheduler, the edges, the votes and what waits to be sent
may have changed, and the tokens of `t` only in whether energy skipped them. -/
def passedOver (t : TileId) (w u : State) : Prop :=
  u = { w with tiles := u.tiles, out := u.out } ∧
    (∀ v, u.tile v = { w.tile v with edges := (u.tile v).edges, doms := (u.tile v).doms, ctl := (u.tile v).ctl, sched := (u.tile v).sched }) ∧
    (∀ v, (u.sched v).bases = (w.sched v).bases) ∧ (u.sched t).tokens.map Token.unskipped = (w.sched t).tokens.map Token.unskipped

theorem passedOver.refl (t : TileId) (s : State) : passedOver t s s := ⟨rfl, fun _ => rfl, fun _ => rfl, rfl⟩

theorem passedOver.trans {t : TileId} {s u v : State} (h : passedOver t s u) (h' : passedOver t u v) : passedOver t s v := by
  obtain ⟨hu, htile, hb, hk⟩ := h
  obtain ⟨hv, htile', hb', hk'⟩ := h'
  exact ⟨by rw [hv, hu], fun x => by rw [htile' x, htile x], fun x => by rw [hb', hb], by rw [hk', hk]⟩

theorem passedOver.of_told (t : TileId) {s u : State} (h : told s u) : passedOver t s u :=
  ⟨h.2.1, fun v => by rw [h.2.2 v], fun v => by rw [h.sched], by rw [h.sched]⟩

theorem passedOver.foldl {α : Type} {t : TileId} {f : State → α → State} (h : ∀ s a, passedOver t s (f s a)) (l : List α) (s : State) :
    passedOver t s (l.foldl f s) :=
  List.foldlRecOn (motive := fun u : State => passedOver t s u) l f (.refl t s) fun u hu a _ => hu.trans (h u a)

theorem passedOver.onSched (t : TileId) (s : State) (f : Sched → Sched) (hb : ∀ c, (f c).bases = c.bases)
    (hk : ∀ c, (f c).tokens.map Token.unskipped = c.tokens.map Token.unskipped) : passedOver t s (s.onSched t f) := by
  refine ⟨rfl, fun v => ?_, fun v => ?_, ?_⟩
  · exact onTile_rel (P := fun a b => b = { a with edges := b.edges, doms := b.doms, ctl := b.ctl, sched := b.sched }) (fun _ => rfl) s t _ rfl v
  · exact onTile_rel (P := fun a b => b.sched.bases = a.sched.bases) (fun _ => rfl) s t _ (hb _) v
  · rw [State.sched, onSched_tile_self]
    exact hk _

theorem passedOver.trace (t : TileId) (s : State) (r : Trace) : passedOver t s (s.trace t r) := by
  obtain ⟨l, n, h⟩ := trace_eq s t r
  rw [h]
  exact .onSched t s _ (fun _ => rfl) fun _ => rfl

theorem passedOver.reoffer (t : TileId) (s : State) : passedOver t s (s.reoffer t) := by
  have hoffer (l : Option Nat) : passedOver t s (s.offer t l) := by
    unfold State.offer
    split
    · exact .refl t s
    · dsimp only
      have hset := passedOver.onSched t s (fun c => { c with offered := l }) (fun _ => rfl) fun _ => rfl
      split
      · exact hset.trans (.of_told t (.sendState ..))
      · exact hset
  unfold State.reoffer
  dsimp only
  split
  · exact hoffer _
  · exact .refl t s

theorem passedOver.blockLevel (t : TileId) (s : State) (n lvl : Nat) : passedOver t s (s.blockLevel t n lvl) := by
  unfold State.blockLevel
  dsimp only
  refine ((passedOver.onSched t s (fun c => { c with
    tokens := c.tokens.map fun k => if (k.prio == lvl && s.eligible n k) = true then { k with skipped := true } else k, skipWin := true })
    (fun _ => rfl) fun c => ?_).trans (.foldl (f := fun s' k => s'.trace t _) (fun s' k => .trace ..) _ _)).trans (.reoffer ..)
  rw [List.map_map]
  refine List.map_congr_left fun k _ => ?_
  dsimp only [Function.comp]
  split
  · rfl
  · rfl

theorem passedOver.run? {t : TileId} {w u : State} (h : passedOver t w u) (p : Gpe) : u.run? p = w.run? p := by
  rw [State.run?, State.run?, h.2.1]

/-- Passing tokens over changes no PE's eligibility for a token (R340). -/
theorem passedOver.eligible {t : TileId} {w u : State} (h : passedOver t w u) (n : Nat) (k : Token) : u.eligible n k = w.eligible n k := by
  have hrun := h.run?
  obtain ⟨hu, htile, hb, -⟩ := h
  have hq (n : Nat) : u.query? n = w.query? n := by rw [State.query?, State.query?, hu]
  have hslc (n : Nat) : u.slc n = w.slc n := by rw [State.slc, State.slc, hu]
  have hqueue (n : Nat) : u.queue n = w.queue n := by rw [State.queue, State.queue, hu]
  have hlive (v : TileId) : u.live v = w.live v := by rw [hu]; rfl
  have hmode (v : TileId) : (u.tile v).mode = (w.tile v).mode := by rw [htile]
  have herr (v : TileId) : (u.tile v).err = (w.tile v).err := by rw [htile]
  simp only [State.eligible, State.orderOk, State.domainRuns, State.sliceHeld, State.tokenCurrent, State.peOk, State.hasLarge, hrun, hq, hslc,
    hqueue, hlive, hmode, herr, hb]

/-- Whether energy skipped a token does not bear on its eligibility. -/
theorem eligible_unskipped (w : State) (n : Nat) (k : Token) : w.eligible n k.unskipped = w.eligible n k := (rfl)

/-- A token of the store is one of the store before tokens were passed over, but for being skipped. -/
theorem passedOver.mem {t : TileId} {w u : State} (h : passedOver t w u) {k : Token} (hk : k ∈ (u.sched t).tokens) :
    ∃ j ∈ (w.sched t).tokens, j.unskipped = k.unskipped := by
  have hmem := List.mem_map_of_mem (f := Token.unskipped) hk
  rw [h.2.2.2] at hmem
  exact List.mem_map.mp hmem

/-! ### The token that a PE finds -/

theorem minBy_mem {α : Type} {key : α → Nat} : ∀ {l : List α} {x : α}, minBy key l = some x → x ∈ l
  | [], _, h => by cases h
  | y :: r, x, h => by
    unfold minBy at h
    split at h
    · cases h; exact List.mem_cons_self
    next z hz =>
      split at h
      · cases h; exact List.mem_cons_of_mem _ (minBy_mem hz)
      · cases h; exact List.mem_cons_self

theorem agedToken_mem {l : List (Nat × Token)} {e : Nat × Token} (h : agedToken l = some e) : e ∈ l ∧ e.2.age = 16 := by
  obtain ⟨hmem, hage⟩ := List.mem_filter.mp (minBy_mem h)
  exact ⟨hmem, by simpa using hage⟩

theorem levelToken_mem {s : State} {t : TileId} {lvl : Nat} {c : List (Nat × Token)} {e : Nat × Token × Bool}
    (h : s.levelToken t lvl c = some e) : (e.1, e.2.1) ∈ c := by
  unfold State.levelToken at h
  dsimp only at h
  split at h
  next x hx =>
    obtain ⟨_, -, hs⟩ := List.exists_of_findSome?_eq_some hx
    cases h
    exact (List.mem_filter.mp (minBy_mem hs)).1
  next =>
    obtain ⟨x, hx, rfl⟩ := Option.map_eq_some_iff.mp h
    exact (List.mem_filter.mp (minBy_mem hx)).1

theorem findLevel_mem {s : State} {t : TileId} {es : List (Nat × Token)} {ix : Nat} {k : Token} {type reason : Nat} {sls : List Nat} :
    ∀ {l : Nat}, s.findLevel t es l = .token ix k type reason sls → (ix, k) ∈ es
  | 0, h => by cases h
  | l + 1, h => by
    unfold State.findLevel at h
    dsimp only at h
    split at h
    · exact findLevel_mem h
    · split at h
      next hl =>
        cases h
        exact (List.mem_filter.mp (levelToken_mem hl)).1
      · cases h

/-- The tokens among which a PE finds its own are tokens of the store that are eligible for it. -/
theorem candidate_eligible {s : State} {n : Nat} {l : List Token} {e : Nat × Token}
    (h : e ∈ (l.zipIdx.map fun e => (e.2, e.1)).filter fun e => s.eligible n e.2) : e.2 ∈ l ∧ s.eligible n e.2 = true := by
  obtain ⟨hmem, hel⟩ := List.mem_filter.mp h
  obtain ⟨p, hp, rfl⟩ := List.mem_map.mp hmem
  exact ⟨List.fst_mem_of_mem_zipIdx hp, hel⟩

theorem findToken_eligible {s : State} {t : TileId} {n ix : Nat} {k : Token} {type reason : Nat} {sls : List Nat}
    (h : s.findToken t n = .token ix k type reason sls) : k ∈ (s.sched t).tokens ∧ s.eligible n k = true := by
  unfold State.findToken at h
  dsimp only at h
  split at h
  next e he =>
    cases h
    exact candidate_eligible (agedToken_mem he).1
  next => exact candidate_eligible (findLevel_mem h)

/-! ### Putting a morsel on a PE -/

/-- Of a state only its tiles and outputs change, and of no tile its staging buffer. -/
def onTilesOnly (s t : State) : Prop := t = { s with tiles := t.tiles, out := t.out } ∧ ∀ u, (t.tile u).staging = (s.tile u).staging

theorem onTilesOnly.trans {s t u : State} (h : onTilesOnly s t) (h' : onTilesOnly t u) : onTilesOnly s u :=
  ⟨by rw [h'.1, h.1], fun v => (h'.2 v).trans (h.2 v)⟩

theorem onTilesOnly.of_told {s t : State} (h : told s t) : onTilesOnly s t := ⟨h.2.1, fun u => by rw [h.2.2 u]⟩

theorem passedOver.onTilesOnly {t : TileId} {s u : State} (h : passedOver t s u) : onTilesOnly s u := ⟨h.1, fun v => by rw [h.2.1 v]⟩

theorem onTilesOnly.onTile (s : State) (t : TileId) (f : Tile → Tile) (hf : ∀ x, (f x).staging = x.staging) : onTilesOnly s (s.onTile t f) :=
  ⟨rfl, onTile_rel (P := fun a b => b.staging = a.staging) (fun _ => rfl) s t f (hf _)⟩

theorem onTilesOnly.wantPes (s : State) (t : TileId) : onTilesOnly s (s.wantPes t) :=
  ⟨by unfold State.wantPes; rfl, fun u => by rw [(messaged.wantPes s t).2 u]⟩

theorem gpeN_val {n : Nat} (h : n < 128) : (gpeN n).val = n := Nat.mod_eq_of_lt h

theorem gpe_ext {g p : Gpe} (ht : gpeTile p = gpeTile g) (hl : gpeLocal p = gpeLocal g) : p = g := by
  have h1 : p.val / 16 = g.val / 16 := congrArg Fin.val ht
  have h2 : p.val % 16 = g.val % 16 := congrArg Fin.val hl
  exact Fin.ext (by omega)

theorem run?_setRun_ne (s : State) {g p : Gpe} (r : Option Run) (h : p ≠ g) : (s.setRun g r).run? p = s.run? p := by
  unfold State.run? State.setRun
  by_cases ht : gpeTile p = gpeTile g
  · rw [ht, State.onTile_tile]
    have hl : (gpeLocal g).val ≠ (gpeLocal p).val := fun hl => h (gpe_ext ht (Fin.ext hl.symm))
    exact Vector.getElem_set_ne (gpeLocal g).isLt (gpeLocal p).isLt hl
  · rw [State.onTile_tile_ne _ ht]

/-- An update of a tile that keeps its morsels keeps them on every PE. -/
theorem run?_onTile (s : State) (t : TileId) (f : Tile → Tile) (hf : ∀ x, (f x).runs = x.runs) (p : Gpe) : (s.onTile t f).run? p = s.run? p := by
  have h := onTile_rel (P := fun a b => b.runs = a.runs) (fun _ => rfl) s t f (hf _) (gpeTile p)
  rw [State.run?, State.run?, h]

/-- A started run's fields. -/
def runOf (k : Token) (first est : Nat) : Run :=
  { qid := k.qid, pipe := k.pipe, at_ := k.morsels.headD { tile := 0, morsel := 0, seq := 0 }, slice := k.slice, sgen := k.sgen, qgen := k.qgen
    attempt := k.attempt, prio := k.prio, order := k.order, eclass := k.eclass, est := est, first := first, used := k.used }

/-- Issuing a token puts its lowest morsel on the PE, and no other PE's changes. -/
theorem issue_run (s : State) (t : TileId) (n ix : Nat) (k : Token) (type reason : Nat) :
    ∃ first est, (s.issue t n ix k type reason).run? (gpeN n) = some (runOf k first est) ∧
      (∀ p, p ≠ gpeN n → (s.issue t n ix k type reason).run? p = s.run? p) := by
  refine ⟨(s.tokenEst t k).1, (s.tokenEst t k).2, ?_, fun p hp => ?_⟩
  · unfold State.issue State.startRun
    dsimp only
    rw [(scheduled.trace _ _ _).run?, (scheduled.onSched _ _ _).run?, run?_onTile, run?_setRun]
    · rfl
    · exact fun _ => rfl
  · unfold State.issue State.startRun
    dsimp only
    rw [(scheduled.trace _ _ _).run?, (scheduled.onSched _ _ _).run?, run?_onTile, run?_setRun_ne _ _ hp, (scheduled.onSched _ _ _).run?]
    exact fun _ => rfl

theorem onTilesOnly.onSched (s : State) (t : TileId) (f : Sched → Sched) : onTilesOnly s (s.onSched t f) := .onTile s t _ fun _ => rfl

theorem onTilesOnly.setRun (s : State) (g : Gpe) (r : Option Run) : onTilesOnly s (s.setRun g r) := .onTile s _ _ fun _ => rfl

theorem onTilesOnly.startRun (s : State) (n : Nat) (k : Token) (m : MorselAt) (first est : Nat) : onTilesOnly s (s.startRun n k m first est) := by
  unfold State.startRun
  exact ((onTilesOnly.setRun s (gpeN n) _).trans
    (.onTile _ (tid (n / 16)) (fun x => { x with tally := x.tally.set (n % 16) [] }) fun _ => rfl)).trans (.onSched _ _ _)

theorem onTilesOnly.issue (s : State) (t : TileId) (n ix : Nat) (k : Token) (type reason : Nat) : onTilesOnly s (s.issue t n ix k type reason) := by
  unfold State.issue
  exact ((onTilesOnly.onSched s t _).trans (.startRun _ n k _ _ _)).trans (passedOver.trace t _ _).onTilesOnly

/-! ### Serving the idle PEs -/

/-- From `w` to `u` PE `n` was given the lowest morsel of a token of tile `t` that is eligible for it, and no other PE anything. -/
def servedPe (t : TileId) (n : Nat) (w u : State) : Prop :=
  onTilesOnly w u ∧ (∀ p, p ≠ gpeN n → u.run? p = w.run? p) ∧
    ∃ k ∈ (w.sched t).tokens, w.eligible n k = true ∧ ∃ first est, u.run? (gpeN n) = some (runOf k first est)

/-- What follows an issue keeps the morsels where they are. -/
theorem servedPe.settle {t : TileId} {n : Nat} {w u v : State} (h : servedPe t n w u) (hv : onTilesOnly u v) (hr : ∀ p, v.run? p = u.run? p) :
    servedPe t n w v := by
  obtain ⟨hu, hne, k, hk, he, first, est, hrun⟩ := h
  exact ⟨hu.trans hv, fun p hp => (hr p).trans (hne p hp), k, hk, he, first, est, (hr _).trans hrun⟩

theorem servedPe.wantPes {t : TileId} {n : Nat} {w u : State} (h : servedPe t n w u) : servedPe t n w (u.wantPes t) :=
  h.settle (.wantPes u t) (scheduled.of_messaged (.wantPes u t)).run?

theorem servedPe_issue {t : TileId} {w u : State} (h : passedOver t w u) {n ix : Nat} {k : Token} {type reason : Nat} {sls : List Nat}
    (hf : u.findToken t n = .token ix k type reason sls) : servedPe t n w (u.issue t n ix k type reason) := by
  obtain ⟨first, est, hrun, hne⟩ := issue_run u t n ix k type reason
  obtain ⟨hk, he⟩ := findToken_eligible hf
  obtain ⟨j, hj, hjk⟩ := h.mem hk
  have hrunOf : runOf k first est = runOf j first est := by
    show runOf k.unskipped first est = runOf j.unskipped first est
    rw [hjk]
  refine ⟨h.onTilesOnly.trans (.issue ..), fun p hp => (hne p hp).trans (h.run? p), j, hj, ?_, first, est, hrun.trans (congrArg some hrunOf)⟩
  rw [← eligible_unskipped, hjk, eligible_unskipped, ← h.eligible]
  exact he

/-- Serving a list of PEs gives a morsel to one of them, or passes tokens over for each. -/
theorem serve_one {t : TileId} {w : State} (floor : Nat) : ∀ {ns : List Nat} {u : State}, passedOver t w u →
    passedOver t w (u.serve t floor ns) ∨ ∃ n ∈ ns, servedPe t n w (u.serve t floor ns)
  | [], u, h => .inl h
  | n :: r, u, h => by
    have hnext {v : State} (hv : passedOver t w v) :
        passedOver t w (v.serve t floor r) ∨ ∃ m ∈ n :: r, servedPe t m w (v.serve t floor r) :=
      (serve_one floor hv).imp_right fun ⟨m, hm, hs⟩ => ⟨m, List.mem_cons_of_mem _ hm, hs⟩
    unfold State.serve
    split
    next ix k type reason sls hf =>
      have hi := servedPe_issue h hf
      split
      · exact .inr ⟨n, List.mem_cons_self, hi.wantPes⟩
      · split
        · exact .inr ⟨n, List.mem_cons_self, (hi.settle (.onSched _ t _) (scheduled.onSched _ t _).run?).wantPes⟩
        · exact hnext h
    next lvl hf =>
      refine hnext ?_
      split
      · exact h.trans (.blockLevel ..)
      · exact h
    next => exact hnext h

theorem idlePes_spec {w : State} {t : TileId} {n : Nat} (h : n ∈ w.idlePes t) : n < 128 ∧ gpeTile (gpeN n) = t ∧ w.run? (gpeN n) = none := by
  have hfree : n ∈ (pesOf t.val).filter fun n => w.peOk n && (w.run? (gpeN n)).isNone && !(w.sched t).reserves n := by
    unfold State.idlePes at h
    dsimp only at h
    split at h
    · exact (List.mem_filter.mp h).1
    · exact h
  obtain ⟨hmem, hidle⟩ := List.mem_filter.mp hfree
  obtain ⟨i, hi, rfl⟩ := List.mem_map.mp hmem
  have hi := List.mem_range.mp hi
  have ht := t.isLt
  have hlt : t.val * 16 + i < 128 := by omega
  simp only [Bool.and_eq_true, Option.isNone_iff_eq_none] at hidle
  refine ⟨hlt, Fin.ext ?_, hidle.1.2⟩
  show (gpeN (t.val * 16 + i)).val / 16 = t.val
  rw [gpeN_val hlt]
  omega

/-! ### Asking for a steal -/

theorem askSteal_spec (s : State) (t : TileId) : onTilesOnly s (s.askSteal t) ∧ ∀ p, (s.askSteal t).run? p = s.run? p := by
  unfold State.askSteal
  dsimp only
  split
  · exact ⟨⟨rfl, fun _ => rfl⟩, fun _ => rfl⟩
  · split
    · have htold (u : State) (o : TileId) (b : List Byte) : told u (u.sendCtl 0x36 t o {} b) := .sendCtl (by decide) (by decide) ..
      refine ⟨.trans (.onSched s t _) (.of_told (htold ..)), fun p => ?_⟩
      rw [(scheduled.of_messaged (.of_told (htold _ _ _))).run?, (scheduled.onSched s t _).run?]
    · exact ⟨⟨rfl, fun _ => rfl⟩, fun _ => rfl⟩

/-! ### TOKEN_DISPATCH -/

/-- The PEs of a tile are as they were. -/
def samePes (t : TileId) (w u : State) : Bool :=
  (List.range 16).all fun l => decide ((w.tile t).runs.toList.getD l none = (u.tile t).runs.toList.getD l none)

theorem tokenDispatch_runs {s : State} {t : TileId} (ecc : ScrubResult) (hl : s.live t = true) (hm : (s.tile t).mode.dispatches = true) :
    exec (.tokenDispatch ⟨t, ecc⟩) s = .next (
      let w := s.forDispatch t ecc
      let u := w.serve t (w.blockedFloor t (w.idlePes t)) (w.idlePes t)
      if samePes t w u then u.askSteal t else u) := by
  simp only [exec, execTokenDispatch]
  rw [if_pos ⟨hl, hm⟩]
  rfl

/-- A dispatch leaves the PEs of every tile alone, or gives one of them a morsel. -/
theorem dispatch_one {s : State} {t : TileId} (ecc : ScrubResult) (hl : s.live t = true) (hm : (s.tile t).mode.dispatches = true) :
    ∃ s' : State, exec (.tokenDispatch ⟨t, ecc⟩) s = .next s' ∧ onTilesOnly (s.forDispatch t ecc) s' ∧
      ((∀ p, s'.run? p = (s.forDispatch t ecc).run? p) ∨
        ∃ n ∈ (s.forDispatch t ecc).idlePes t, servedPe t n (s.forDispatch t ecc) s') := by
  refine ⟨_, tokenDispatch_runs ecc hl hm, ?_⟩
  dsimp only
  generalize s.forDispatch t ecc = w
  have hone := serve_one (w.blockedFloor t (w.idlePes t)) (ns := w.idlePes t) (passedOver.refl t w)
  generalize w.serve t _ _ = u at hone
  obtain ⟨hsteal, hrun⟩ := askSteal_spec u t
  rcases hone with hp | ⟨n, hn, hs⟩
  · split
    · exact ⟨hp.onTilesOnly.trans hsteal, .inl fun p => (hrun p).trans (hp.run? p)⟩
    · exact ⟨hp.onTilesOnly, .inl hp.run?⟩
  · split
    · exact ⟨hs.1.trans hsteal, .inr ⟨n, hn, hs.settle hsteal hrun⟩⟩
    · exact ⟨hs.1, .inr ⟨n, hn, hs⟩⟩

/-- The aged token of the lowest idle PE is issued to it, whatever the credit (R352, R355). -/
theorem serve_aged {w : State} {t : TileId} {n ix : Nat} {k : Token} (floor : Nat) (rest : List Nat)
    (h : agedToken (((w.sched t).tokens.zipIdx.map fun e => (e.2, e.1)).filter fun e => w.eligible n e.2) = some (ix, k)) :
    w.serve t floor (n :: rest) = (w.issue t n ix k trDispatchAged 0x08).wantPes t := by
  have hf : w.findToken t n = .token ix k trDispatchAged 0x08 [] := by
    unfold State.findToken
    dsimp only
    rw [h]
  unfold State.serve
  rw [hf]
  exact if_pos rfl

theorem issue_credit {w : State} {t : TileId} {n : Nat} (hn : gpeTile (gpeN n) = t) (hlt : n < 128) (ix : Nat) (k : Token) (type reason : Nat) :
    ((w.issue t n ix k type reason).sched t).credit = clampCredit ((w.sched t).credit - (w.tokenEst t k).2) := by
  have ht : tid (n / 16) = t := by
    rw [← hn]
    exact Fin.ext (by show n / 16 % 8 = (gpeN n).val / 16; rw [gpeN_val hlt]; omega)
  have htrace (s : State) (r : Trace) : ((s.trace t r).sched t).credit = (s.sched t).credit := by
    obtain ⟨l, m, h⟩ := trace_eq s t r
    rw [h, State.sched, onSched_tile_self]
  have hstart (s : State) (m : MorselAt) (first est : Nat) : ((s.startRun n k m first est).sched t).credit = (s.sched t).credit := by
    unfold State.startRun
    rw [ht, State.sched, onSched_tile_self, State.sched, State.onTile_tile, State.setRun, hn, State.onTile_tile]
    rfl
  unfold State.issue
  dsimp only
  rw [htrace, hstart, State.sched, onSched_tile_self]

theorem dispatch_aged {s : State} {t : TileId} (ecc : ScrubResult) {n ix : Nat} {rest : List Nat} {k : Token} (hl : s.live t = true)
    (hm : (s.tile t).mode.dispatches = true) (hidle : (s.forDispatch t ecc).idlePes t = n :: rest)
    (h : agedToken ((((s.forDispatch t ecc).sched t).tokens.zipIdx.map fun e => (e.2, e.1)).filter fun e =>
      (s.forDispatch t ecc).eligible n e.2) = some (ix, k)) :
    ∃ s' : State, exec (.tokenDispatch ⟨t, ecc⟩) s = .next s' ∧ (∃ first est, s'.run? (gpeN n) = some (runOf k first est)) ∧
      (s'.sched t).credit = clampCredit (((s.forDispatch t ecc).sched t).credit - ((s.forDispatch t ecc).tokenEst t k).2) := by
  have hexec := tokenDispatch_runs ecc hl hm
  dsimp only at hexec
  generalize s.forDispatch t ecc = w at *
  obtain ⟨hlt, htile, hnone⟩ := idlePes_spec (by rw [hidle]; exact List.mem_cons_self)
  obtain ⟨first, est, hrun, -⟩ := issue_run w t n ix k trDispatchAged 0x08
  have hwant := scheduled.of_messaged (.wantPes (w.issue t n ix k trDispatchAged 0x08) t)
  have hrun' := (hwant.run? (gpeN n)).trans hrun
  have hcredit := issue_credit (w := w) htile hlt ix k trDispatchAged 0x08
  rw [← (messaged.wantPes (w.issue t n ix k trDispatchAged 0x08) t).sched] at hcredit
  rw [hidle, serve_aged _ rest h] at hexec
  generalize (w.issue t n ix k trDispatchAged 0x08).wantPes t = u at *
  have hdiff : samePes t w u = false := by
    refine List.all_eq_false.mpr ⟨(gpeLocal (gpeN n)).val, List.mem_range.mpr (gpeLocal (gpeN n)).isLt, ?_⟩
    have hget (v : State) : (v.tile t).runs.toList.getD (gpeLocal (gpeN n)).val none = v.run? (gpeN n) := by
      rw [State.run?, htile]
      simp [List.getD_eq_getElem?_getD]
    rw [hget, hget, hnone, hrun']
    simp
  rw [hdiff, if_neg Bool.false_ne_true] at hexec
  exact ⟨u, hexec, ⟨first, est, hrun'⟩, hcredit⟩

/-- Settles O29: serving the idle PEs, lowest first, passes tokens over until one PE finds an eligible token, and an aged token is
found first. -/
theorem dispatchGivesOneEligibleMorsel : Obligations.DispatchGivesOneEligibleMorsel := by
  unfold Obligations.DispatchGivesOneEligibleMorsel
  refine ⟨fun s t ecc hl hm => ?_, fun s t ecc n rest ix k hl hm => ?_⟩
  · intro w
    obtain ⟨s', hexec, hsame, hone⟩ := dispatch_one ecc hl hm
    have hpre (hecc : ecc ≠ .uncorrectable) : scheduled s w := .forDispatch s t hecc
    refine ⟨s', hexec, fun p => ?_, fun p p' hp hp' => ?_, fun hecc => ⟨(hpre hecc).run?, (hpre hecc).sameStore, by rw [(hpre hecc).1]⟩,
      ⟨by rw [hsame.1], by rw [hsame.1], hsame.2⟩, by rw [hsame.1], by rw [hsame.1], by rw [hsame.1]⟩
    · rcases hone with hall | ⟨n, hn, -, hne, k, hk, he, first, est, hrun⟩
      · exact .inl (hall p)
      · by_cases hp : p = gpeN n
        · subst hp
          obtain ⟨hlt, htile, hnone⟩ := idlePes_spec hn
          exact .inr ⟨htile, hnone, k, hk, by rw [gpeN_val hlt]; exact he, _, hrun, rfl, rfl, rfl, rfl, rfl⟩
        · exact .inl (hne p hp)
    · rcases hone with hall | ⟨n, hn, -, hne, -⟩
      · exact absurd (hall p) hp
      · have hthis {p : Gpe} (h : s'.run? p ≠ w.run? p) : p = gpeN n := Decidable.by_contra fun hpn => h (hne p hpn)
        rw [hthis hp, hthis hp']
  · intro w hidle haged
    obtain ⟨s', hexec, ⟨first, est, hrun⟩, hcredit⟩ := dispatch_aged ecc hl hm hidle haged
    exact ⟨s', _, hexec, hrun, (agedToken_mem haged).2, rfl, rfl, rfl, hcredit⟩

end Sys2Proof.Machine
end

section
/-!
Stealing: offers, requests, grants and refusals (R356 to R358, R490).
-/
namespace Sys2Proof.Machine

/-! ### A request -/

/-- The first token of a store that satisfies a predicate none before it does. -/
theorem find?_zipIdx_split {p : Token → Bool} {before after : List Token} {k : Token} (hb : ∀ j ∈ before, p j = false) (hk : p k = true) :
    (before ++ k :: after).zipIdx.find? (fun e => p e.1) = some (k, before.length) := by
  rw [List.zipIdx_append, List.find?_append, List.zipIdx_cons, List.find?_cons]
  have hnone : before.zipIdx.find? (fun e => p e.1) = none :=
    List.find?_eq_none.mpr fun e he => by simp [hb _ (List.fst_mem_of_mem_zipIdx he)]
  rw [hnone, hk]
  simp

theorem replaceAt_split (before after new : List Token) (k : Token) :
    replaceAt (before ++ k :: after) before.length new = before ++ new ++ after := by
  simp [replaceAt]

/-- What is left of a token once its first morsel has been split off. -/
def Token.split (k : Token) (ms : List MorselAt) : List Token := if ms.isEmpty then [] else [{ k with morsels := ms }]

/-- A change of the offer, as it is told, leaves the tokens and the queries. -/
theorem reoffer_tokens (s : State) (t : TileId) :
    ((s.reoffer t).sched t).tokens = (s.sched t).tokens ∧ (s.reoffer t).queries = s.queries := by
  have hoffer (l : Option Nat) : ((s.offer t l).sched t).tokens = (s.sched t).tokens ∧ (s.offer t l).queries = s.queries := by
    unfold State.offer
    split
    · exact ⟨rfl, rfl⟩
    · dsimp only
      have hset : ((s.onSched t fun c => { c with offered := l }).sched t).tokens = (s.sched t).tokens := by rw [State.sched, onSched_tile_self]
      split
      · have htold := told.sendState (s.onSched t fun c => { c with offered := l }) t
        exact ⟨by rw [htold.sched, hset], by rw [htold.2.1]; rfl⟩
      · exact ⟨hset, rfl⟩
  unfold State.reoffer
  dsimp only
  split
  · exact hoffer _
  · exact ⟨rfl, rfl⟩

theorem trace_tokens (s : State) (t : TileId) (r : Trace) : ((s.trace t r).sched t).tokens = (s.sched t).tokens := by
  obtain ⟨l, n, h⟩ := trace_eq s t r
  rw [h, State.sched, onSched_tile_self]

/-- A request is marked at its receiver, and nothing of the store or the morsels changes. -/
theorem markSeen_quiet (s : State) (t : TileId) (src mtype tag : Nat) :
    (∀ p, (s.markSeen t src mtype tag).run? p = s.run? p) ∧ sameStore s (s.markSeen t src mtype tag) :=
  ⟨run?_onTile s t _ fun _ => rfl, rfl, rfl, onTile_rel (P := fun a b => b.staging = a.staging) (fun _ => rfl) s t _ rfl⟩

theorem stealReq_runs {s : State} {h : MsgHdr} (tag level : Nat) (hl : s.live h.dstTile = true) (hne : h.srcTile ≠ h.dstTile)
    (hs : s.seen h.dstTile h.srcTile.val 0x36 tag = false) : exec (.stealReq h tag level) s =
      .next (stealReqEff h tag level ((s.rollSched h.dstTile).markSeen h.dstTile h.srcTile.val 0x36 tag)) := by
  simp only [exec, execStealReq]
  rw [if_pos ⟨hl, hne, hs⟩]

theorem stealReqEff_refuses {w : State} {h : MsgHdr} {tag level : Nat} (hno : ∀ k ∈ (w.sched h.dstTile).tokens, k.prio = level → k.skipped = false) :
    stealReqEff h tag level w = w.sendCtl 0x38 h.dstTile h.srcTile {} (leBytes 2 tag) := by
  have hnone : (w.sched h.dstTile).tokens.zipIdx.find? (fun e => w.grantable h.dstTile h.srcTile level e.1) = none := by
    refine List.find?_eq_none.mpr fun e he => ?_
    have hk := hno e.1 (List.fst_mem_of_mem_zipIdx he)
    intro hg
    simp only [State.grantable, Bool.and_eq_true, beq_iff_eq] at hg
    obtain ⟨⟨⟨⟨⟨⟨⟨⟨hskip, hprio⟩, -⟩, -⟩, -⟩, -⟩, -⟩, -⟩, -⟩ := hg
    rw [hk hprio] at hskip
    cases hskip
  unfold stealReqEff
  dsimp only
  rw [hnone]

/-- The state in which the first morsel has been split off and the grant is on its way (R358). -/
theorem stealReqEff_grants {w : State} {h : MsgHdr} {tag level : Nat} {before after : List Token} {k : Token} {m : MorselAt} {ms : List MorselAt}
    (ht : (w.sched h.dstTile).tokens = before ++ k :: after) (hb : ∀ j ∈ before, w.grantable h.dstTile h.srcTile level j = false)
    (hk : w.grantable h.dstTile h.srcTile level k = true) (hm : k.morsels = m :: ms) :
    ∃ (r : Trace) (x : MsgCtx) (body : List Byte), stealReqEff h tag level w =
      (((w.onSched h.dstTile fun c => { c with tokens := replaceAt c.tokens before.length (k.split ms) }).trace h.dstTile r).sendCtl
        0x37 h.dstTile h.srcTile x body).reoffer h.dstTile := by
  have hfind := find?_zipIdx_split (p := w.grantable h.dstTile h.srcTile level) (after := after) hb hk
  rw [← ht] at hfind
  unfold stealReqEff
  dsimp only
  rw [hfind]
  dsimp only
  rw [hm]
  cases ms with
  | nil => exact ⟨_, _, _, rfl⟩
  | cons m' r => exact ⟨_, _, _, rfl⟩

theorem stealReq_splits {s : State} {h : MsgHdr} {tag level : Nat} {before after : List Token} {k : Token} {m : MorselAt} {ms : List MorselAt}
    (hl : s.live h.dstTile = true) (hne : h.srcTile ≠ h.dstTile) (hs : s.seen h.dstTile h.srcTile.val 0x36 tag = false) :
    let w := (s.rollSched h.dstTile).markSeen h.dstTile h.srcTile.val 0x36 tag
    (w.sched h.dstTile).tokens = before ++ k :: after → (∀ j ∈ before, w.grantable h.dstTile h.srcTile level j = false) →
    w.grantable h.dstTile h.srcTile level k = true → k.morsels = m :: ms →
    ∃ t : State, exec (.stealReq h tag level) s = .next t ∧
      (t.sched h.dstTile).tokens = before ++ (if ms.isEmpty then [] else [{ k with morsels := ms }]) ++ after ∧
      (∀ p, t.run? p = s.run? p) ∧ t.queries = w.queries ∧ sameStore s t := by
  intro w ht hb hk hm
  obtain ⟨hmark, hstore⟩ := markSeen_quiet (s.rollSched h.dstTile) h.dstTile h.srcTile.val 0x36 tag
  have hroll := scheduled.rollSched s h.dstTile
  obtain ⟨r, x, body, heff⟩ := stealReqEff_grants (tag := tag) ht hb hk hm
  rw [stealReq_runs tag level hl hne hs]
  have hw : w = (s.rollSched h.dstTile).markSeen h.dstTile h.srcTile.val 0x36 tag := rfl
  rw [← hw, heff]
  have hsched := (scheduled.onSched w h.dstTile fun c => { c with tokens := replaceAt c.tokens before.length (k.split ms) }).trans
    (.trace _ h.dstTile r)
  have htoks : (((w.onSched h.dstTile fun c => { c with tokens := replaceAt c.tokens before.length (k.split ms) }).trace h.dstTile r).sched h.dstTile).tokens =
      before ++ k.split ms ++ after := by
    rw [trace_tokens, State.sched, onSched_tile_self, ht, replaceAt_split]
  have hquer : ((w.onSched h.dstTile fun c => { c with tokens := replaceAt c.tokens before.length (k.split ms) }).trace h.dstTile r).queries = w.queries := rfl
  generalize (w.onSched h.dstTile fun c => { c with tokens := replaceAt c.tokens before.length (k.split ms) }).trace h.dstTile r = u at *
  have hsent : told u (u.sendCtl 0x37 h.dstTile h.srcTile x body) := .sendCtl (by decide) (by decide) ..
  generalize u.sendCtl 0x37 h.dstTile h.srcTile x body = v at *
  obtain ⟨hvtok, hvq⟩ := reoffer_tokens v h.dstTile
  have hoff := passedOver.reoffer h.dstTile v
  refine ⟨_, rfl, ?_, fun p => ?_, ?_, ?_⟩
  · rw [hvtok, hsent.sched, htoks]; rfl
  · rw [hoff.run?, (scheduled.of_messaged (.of_told hsent)).run?, hsched.run?, hw, hmark, hroll.run?]
  · rw [hvq, hsent.2.1]; exact hquer
  · refine ((hroll.sameStore.trans hstore).trans (hsched.sameStore.trans (scheduled.of_messaged (.of_told hsent)).sameStore)).trans ?_
    exact ⟨by rw [hoff.1], by rw [hoff.1], fun u => by rw [hoff.2.1]⟩

/-! ### A refusal, and a grant -/

theorem unmark_frame (s : State) (t : TileId) (src mtype tag : Nat) :
    s.unmark t src mtype tag = { s with tiles := (s.unmark t src mtype tag).tiles } ∧
      ∀ u, (s.unmark t src mtype tag).tile u = { s.tile u with seenCtl := ((s.unmark t src mtype tag).tile u).seenCtl } :=
  ⟨rfl, onTile_rel (P := fun a b => b = { a with seenCtl := b.seenCtl }) (fun _ => rfl) s t _ rfl⟩

theorem endSteal_sched (s : State) (t : TileId) (x : Steal) (restore : Bool) :
    x ∉ ((s.endSteal t x restore).sched t).steals ∧
    ((s.endSteal t x restore).sched t).credit = if restore then clampCredit ((s.sched t).credit + x.est) else (s.sched t).credit := by
  rw [State.endSteal, State.sched, onSched_tile_self]
  exact ⟨fun h => by simpa using (List.mem_filter.mp h).2, rfl⟩

theorem stealRefuse_returns {s : State} {h : MsgHdr} {tag : Nat} {x : Steal}
    (hx : (s.sched h.dstTile).steals.find? (fun x => x.tag == tag && x.tile == h.srcTile.val) = some x) :
    let w := s.rollSched h.dstTile
    ∃ t : State, exec (.stealRefuse h tag) s = .next t ∧ x ∉ (t.sched h.dstTile).steals ∧
      (t.sched h.dstTile).credit = clampCredit ((w.sched h.dstTile).credit + x.est) ∧ (∀ p, t.run? p = s.run? p) ∧ t = { w with tiles := t.tiles } := by
  intro w
  simp only [exec, execStealRefuse]
  rw [hx]
  have hroll := scheduled.rollSched s h.dstTile
  obtain ⟨hu, hut⟩ := unmark_frame w h.srcTile h.dstTile.val 0x36 tag
  obtain ⟨hgone, hcredit⟩ := endSteal_sched (w.unmark h.srcTile h.dstTile.val 0x36 tag) h.dstTile x true
  refine ⟨_, rfl, hgone, ?_, fun p => ?_, ?_⟩
  · rw [hcredit, if_pos rfl, State.sched, hut]; rfl
  · have hend := (scheduled.onSched (w.unmark h.srcTile h.dstTile.val 0x36 tag) h.dstTile fun c => { c with
      steals := c.steals.filter fun y => decide (y ≠ x), credit := if true then clampCredit (c.credit + x.est) else c.credit }).run? p
    refine hend.trans ?_
    rw [State.run?, hut]
    exact hroll.run? p
  · generalize w.unmark h.srcTile h.dstTile.val 0x36 tag = v at hu
    rw [hu]
    rfl

/-- A grant that is current goes to its PE. -/
theorem stealGrantEff_starts {w : State} {h : MsgHdr} {g : GrantBody} {x : Steal} {q : Query} {m : MorselAt} {ms : List MorselAt}
    (hq : w.query? g.qid = some q) (hf : q.failing = false) (hsg : h.sgen = (w.slc h.slice).gen) (hqg : h.qgen = (w.queue q.c.q.val).gen)
    (hm : ((q.pipe g.pipe).morsels.filter fun m => m.morsel == g.morsel && m.seq == g.seq) = m :: ms) (hok : w.peOk x.pe = true)
    (hidle : w.run? (gpeN x.pe) = none) (hcan : w.canRun h.dstTile q g.pipe = true) :
    ∃ (k : Token) (first : Nat) (r : Trace), k.qid = g.qid ∧ k.pipe = g.pipe ∧ stealGrantEff h x g w =
      (((w.endSteal h.dstTile x false).startRun x.pe k m first x.est).trace h.dstTile r).wantPes h.dstTile := by
  have hcur (k : Token) (hkq : k.qid = g.qid) (hks : k.slice = h.slice) (hksg : k.sgen = h.sgen) (hkqg : k.qgen = h.qgen) : w.tokenCurrent k = true := by
    unfold State.tokenCurrent
    rw [hkq, hq, hks, hksg, hkqg, hsg, hqg]
    simp
  unfold stealGrantEff
  dsimp only
  rw [hq]
  dsimp only
  rw [hf, hcur _ rfl rfl rfl rfl, hm]
  dsimp only
  rw [hok, hidle, hcan]
  exact ⟨_, _, _, rfl, rfl, rfl⟩

/-- Starting a morsel changes tiles alone: of the other PEs nothing, and of the schedulers which PEs were idle. -/
theorem startRun_spec (s : State) (n : Nat) (k : Token) (m : MorselAt) (first est : Nat) :
    s.startRun n k m first est = { s with tiles := (s.startRun n k m first est).tiles } ∧
    (∃ r, (s.startRun n k m first est).run? (gpeN n) = some r ∧ r.qid = k.qid ∧ r.pipe = k.pipe ∧ r.at_ = m ∧ r.est = est) ∧
    (∀ p, p ≠ gpeN n → (s.startRun n k m first est).run? p = s.run? p) ∧
    ∀ u, ((s.startRun n k m first est).sched u).steals = (s.sched u).steals := by
  unfold State.startRun
  dsimp only
  refine ⟨rfl, ⟨{ runOf k first est with at_ := m }, ?_, rfl, rfl, rfl, rfl⟩, fun p hp => ?_, fun u => ?_⟩
  · rw [(scheduled.onSched _ _ _).run?, run?_onTile, run?_setRun]
    · rfl
    · exact fun _ => rfl
  · rw [(scheduled.onSched _ _ _).run?, run?_onTile, run?_setRun_ne _ _ hp]
    exact fun _ => rfl
  · have hkeep (s : State) (t : TileId) (f : Tile → Tile) (hf : ∀ x, (f x).sched.steals = x.sched.steals) :
        ((s.onTile t f).sched u).steals = (s.sched u).steals :=
      onTile_rel (P := fun a b => b.sched.steals = a.sched.steals) (fun _ => rfl) s t f (hf _) u
    have hset (s : State) (r : Option Run) : ((s.setRun (gpeN n) r).sched u).steals = (s.sched u).steals := hkeep s _ _ fun _ => rfl
    have hidle (s : State) (l : List Nat → List Nat) : ((s.onSched (tid (n / 16)) fun c => { c with idleWin := l c.idleWin }).sched u).steals =
        (s.sched u).steals := hkeep s _ _ fun _ => rfl
    rw [hidle _ fun l => if l.contains (n % 16) then l else l ++ [n % 16], hkeep, hset]
    exact fun _ => rfl

theorem stealGrant_starts {w : State} {h : MsgHdr} {tag : Nat} {g : GrantBody} {x : Steal} {q : Query} {m : MorselAt} {ms : List MorselAt}
    (hq : w.query? g.qid = some q) (hf : q.failing = false) (hsg : h.sgen = (w.slc h.slice).gen) (hqg : h.qgen = (w.queue q.c.q.val).gen)
    (hm : ((q.pipe g.pipe).morsels.filter fun m => m.morsel == g.morsel && m.seq == g.seq) = m :: ms) (hok : w.peOk x.pe = true)
    (hidle : w.run? (gpeN x.pe) = none) (hcan : w.canRun h.dstTile q g.pipe = true) :
    ∃ (t : State) (r : Run), (Host.Outcome.next (stealGrantEff h x g (w.unmark h.srcTile h.dstTile.val 0x36 tag)) : Res) = .next t ∧
      t.run? (gpeN x.pe) = some r ∧ r.qid = g.qid ∧ r.pipe = g.pipe ∧ r.at_ = m ∧
      r.est = x.est ∧ x ∉ (t.sched h.dstTile).steals ∧ (∀ p, p ≠ gpeN x.pe → t.run? p = w.run? p) ∧ t = { w with tiles := t.tiles } := by
  obtain ⟨hu, hut⟩ := unmark_frame w h.srcTile h.dstTile.val 0x36 tag
  generalize w.unmark h.srcTile h.dstTile.val 0x36 tag = v at hu hut ⊢
  have hrun (p : Gpe) : v.run? p = w.run? p := by rw [State.run?, State.run?, hut]
  have hvq (n : Nat) : v.query? n = w.query? n := by rw [State.query?, State.query?, hu]
  have hvs (n : Nat) : v.slc n = w.slc n := by rw [State.slc, State.slc, hu]
  have hvqueue (n : Nat) : v.queue n = w.queue n := by rw [State.queue, State.queue, hu]
  have hlive (t : TileId) : v.live t = w.live t := by rw [hu]; rfl
  have hvok : v.peOk x.pe = true := by rw [← hok, State.peOk, State.peOk, hlive, hut]
  have hvcan : v.canRun h.dstTile q g.pipe = true := by rw [← hcan, State.canRun, State.canRun, State.hasLarge, State.hasLarge, hlive, hut]
  obtain ⟨k, first, r, hkq, hkp, heff⟩ := stealGrantEff_starts (w := v) (g := g) (x := x) ((hvq _).trans hq) hf (by rw [hvs, hsg]) (by rw [hvqueue, hqg]) hm hvok
    ((hrun _).trans hidle) hvcan
  have hend := scheduled.onSched v h.dstTile fun c => { c with
    steals := c.steals.filter fun y => decide (y ≠ x), credit := if false then clampCredit (c.credit + x.est) else c.credit }
  have hendf : v.endSteal h.dstTile x false = { v with tiles := (v.endSteal h.dstTile x false).tiles } := (rfl)
  obtain ⟨hgone, -⟩ := endSteal_sched v h.dstTile x false
  rw [heff]
  have hendrun (p : Gpe) : (v.endSteal h.dstTile x false).run? p = v.run? p := hend.run? p
  generalize v.endSteal h.dstTile x false = e at *
  obtain ⟨hsf, ⟨run, hsr, hrq, hrp, hra, hre⟩, hsn, hss⟩ := startRun_spec e x.pe k m first x.est
  generalize e.startRun x.pe k m first x.est = a at *
  have htf : a.trace h.dstTile r = { a with tiles := (a.trace h.dstTile r).tiles } := (rfl)
  have hts (u : TileId) : ((a.trace h.dstTile r).sched u).steals = (a.sched u).steals := by
    obtain ⟨l, n, ht⟩ := trace_eq a h.dstTile r
    rw [ht]
    exact onTile_rel (P := fun a b => b.sched.steals = a.sched.steals) (fun _ => rfl) a h.dstTile _ rfl u
  have htr := (scheduled.trace a h.dstTile r).run?
  generalize a.trace h.dstTile r = b at *
  have hw := messaged.wantPes b h.dstTile
  have hwf : b.wantPes h.dstTile = { b with tiles := (b.wantPes h.dstTile).tiles } := (rfl)
  have hwr := (scheduled.of_messaged hw).run?
  refine ⟨_, run, rfl, ?_, hrq.trans hkq, hrp.trans hkp, hra, hre, ?_, fun p hp => ?_, ?_⟩
  · rw [hwr, htr, hsr]
  · rw [hw.sched, hts, hss]; exact hgone
  · rw [hwr, htr, hsn p hp, hendrun, hrun]
  · rw [hwf, htf, hsf, hendf, hu]

/-- Settles O30: each message of a steal ends in one case of its rule, after the windows that have begun. -/
theorem stealsMoveOneMorsel : Obligations.StealsMoveOneMorsel := by
  unfold Obligations.StealsMoveOneMorsel
  refine ⟨fun s h level tj credit est hl hne => ?_, fun s h tag level hl hne hs => ?_,
    fun s h tag level before after k m ms hl hne hs => stealReq_splits hl hne hs, fun s h tag level hs => ?_,
    fun s h tag x hx => stealRefuse_returns hx, fun s h tag g x q m ms hx hl => ?_⟩
  · simp only [exec, execSchedState]
    rw [if_pos ⟨hl, hne⟩]
    rfl
  · intro w hno
    rw [stealReq_runs tag level hl hne hs, stealReqEff_refuses hno]
  · simp only [exec, execStealReq]
    rw [if_neg (by rw [hs]; simp)]
  · intro w hq hf hsg hqg hm hok hidle hcan
    simp only [exec, execStealGrant]
    rw [hx]
    dsimp only
    rw [hl, if_pos rfl]
    exact stealGrant_starts hq hf hsg hqg hm hok hidle hcan

end Sys2Proof.Machine
end

section
/-!
The starts of windows and epochs, and the ends of the windows that bound counts (R322, R334, R343 to R345, R355).
-/
namespace Sys2Proof.Machine

/-! ### A scheduler window (R343, R345, R355) -/

theorem windowLen_bounds {us : Nat} (now : Nat) (h : 1 ≤ us) : 0 < windowLen now us ∧ windowLen now us ≤ 1000 * us ∧
    now % 1000000 / (1000 * us) * (1000 * us) + windowLen now us ≤ 1000000 := by
  unfold windowLen epochNs
  dsimp only
  rw [Nat.max_eq_right (show 1 ≤ 1000 * us by omega)]
  have hlt := Nat.mod_lt now (show 0 < 1000000 by decide)
  have hle := Nat.div_mul_le_self (now % 1000000) (1000 * us)
  generalize now % 1000000 / (1000 * us) * (1000 * us) = start at *
  generalize now % 1000000 = off at *
  omega

/-- The scheduler of a tile at the start of a window, but for its trace. -/
def Sched.opened (c : Sched) (s : State) (t : TileId) (other : Nat) : Sched :=
  { c with
    tokens := c.tokens.map (s.ageToken t)
    credit := clampCredit (min c.credit 0 + refillOf c.budgetMw (windowLen s.now c.windowUs) other)
    refill := refillOf c.budgetMw (windowLen s.now c.windowUs) other, used := [], shares := s.shareSum t
    ethrottle := c.skipWin, skipWin := false, offered := none
    peFreq := if c.profile = 2 then adaptFreq c.peFreq c.credit c.skipWin else c.peFreq
    idleWin := (List.range 16).filter fun l => ((s.tile t).runs.toList.getD l none).isSome
    energyNj := c.energyNj + other, epochNj := c.epochNj + other }

/-- What a window start sends: the state, where steals are enabled, and the bases of ordered domains; and its votes (R342, R356, R360). -/
def State.tellWindow (s : State) (t : TileId) (steal : Bool) : State :=
  let s := if steal then s.sendState t else s
  ((s.queries.filter fun q => q.home == t.val && !q.failing).foldl (fun s q =>
    (q.img.pipes.filter fun p => p.plan.order == 2).foldl (fun s p => s.sendBase q q.img p.ix) s) s).wantPes t

theorem messaged.tellWindow (s : State) (t : TileId) (steal : Bool) : messaged s (s.tellWindow t steal) := by
  unfold State.tellWindow
  dsimp only
  refine messaged.trans (t := if steal then s.sendState t else s) ?_
    ((messaged.foldl (fun s q => .foldl (fun s p => .sendBase ..) _ s) _ _).trans (.wantPes ..))
  split
  · exact .of_told (.sendState ..)
  · exact .refl s

/-- The state in which the scheduler of a tile has opened a window. -/
def State.openSched (s : State) (t : TileId) (other : Nat) : State := (s.dropIdle t).onSched t fun c => c.opened s t other

theorem openSched_spec (s : State) (t : TileId) (other : Nat) :
    (s.openSched t other).cmds = s.cmds ∧ (s.openSched t other).sched t = (s.sched t).opened s t other := by
  have hdrop := messaged.dropIdle s t
  refine ⟨?_, ?_⟩
  · show (s.dropIdle t).cmds = s.cmds
    rw [hdrop.1]
  · rw [State.openSched, State.sched, onSched_tile_self, hdrop.sched]

theorem windowEff_eq (t : TileId) (other : Nat) (s : State) : ∃ r : Trace,
    windowEff t other s = ((s.openSched t other).trace t r).tellWindow t (s.sched t).stealEn := by
  refine ⟨{ tstamp := 0, type := trWindow, est := refillOf (s.sched t).budgetMw (windowLen s.now (s.sched t).windowUs) other % 2 ^ 32 }, ?_⟩
  have hsame : s.openSched t other = (s.dropIdle t).onSched t fun c => { c with
      tokens := c.tokens.map (s.ageToken t)
      credit := clampCredit (min c.credit 0 + refillOf (s.sched t).budgetMw (windowLen s.now (s.sched t).windowUs) other)
      refill := refillOf (s.sched t).budgetMw (windowLen s.now (s.sched t).windowUs) other, used := [], shares := s.shareSum t
      ethrottle := c.skipWin, skipWin := false, offered := none
      peFreq := if c.profile = 2 then adaptFreq c.peFreq c.credit c.skipWin else c.peFreq
      idleWin := (List.range 16).filter fun l => ((s.tile t).runs.toList.getD l none).isSome
      energyNj := c.energyNj + other, epochNj := c.epochNj + other } := by
    refine State.onTile_congr ?_
    have hd := (messaged.dropIdle s t).sched t
    unfold onSched Sched.opened
    rw [State.sched] at hd
    rw [hd]
  unfold windowEff State.tellWindow
  dsimp only
  rw [hsame]

/-- What a window start does but for its trace is sent, or is in the tile's scheduler. -/
theorem windowEff_spec (t : TileId) (other : Nat) (s : State) : (windowEff t other s).cmds = s.cmds ∧
    ∃ l n, (windowEff t other s).sched t = { (s.sched t).opened s t other with trace := l, traceCnt := n } := by
  obtain ⟨r, heff⟩ := windowEff_eq t other s
  obtain ⟨hcmds, hsched⟩ := openSched_spec s t other
  rw [heff]
  generalize s.openSched t other = u at *
  obtain ⟨l, n, ht⟩ := trace_eq u t r
  have hut : (u.trace t r).cmds = u.cmds := rfl
  have huts : (u.trace t r).sched t = { u.sched t with trace := l, traceCnt := n } := by rw [ht, State.sched, onSched_tile_self]
  have htell := messaged.tellWindow (u.trace t r) t (s.sched t).stealEn
  generalize (u.trace t r).tellWindow t (s.sched t).stealEn = v at *
  refine ⟨?_, l, n, ?_⟩
  · rw [htell.1]; exact hut.trans hcmds
  · rw [htell.sched, huts, hsched]

/-- A window that opens at a time leaves the tile's scheduler as opened then, with the window's end. -/
theorem openWindow_spec (s : State) (t : TileId) (b other : Nat) (charged : Bool) : (s.openWindow t b other charged).cmds = s.cmds ∧
    ∃ l n, (s.openWindow t b other charged).sched t = { (s.sched t).opened { s with now := b } t other with
      trace := l, traceCnt := n, windowEnd := some (b + windowLen b (s.sched t).windowUs), otherIn := charged } := by
  obtain ⟨hcmds, l, n, hsched⟩ := windowEff_spec t other { s with now := b }
  unfold State.openWindow State.atTime
  dsimp only
  generalize windowEff t other { s with now := b } = u at *
  refine ⟨hcmds, l, n, ?_⟩
  have hset : ((u.onSched t fun c => { c with windowEnd := some (b + windowLen b c.windowUs), otherIn := charged }).sched t) =
      { u.sched t with windowEnd := some (b + windowLen b (u.sched t).windowUs), otherIn := charged } := by
    rw [State.sched, onSched_tile_self]
  refine hset.trans ?_
  rw [hsched]
  rfl

theorem rollEpochs_early {s : State} (h : ∀ e, s.dev.epochEnd = some e → s.now < e) (n : Nat) : s.rollEpochs n = s := by
  cases he : s.dev.epochEnd with
  | some e => exact rollEpochs_of_lt he (h e he) n
  | none =>
    cases n with
    | zero => rfl
    | succ n => simp only [State.rollEpochs, he]

/-- A window that begins no earlier than a time is not started before it. -/
theorem rollWindows_early {s : State} {t : TileId} {b : Nat} (h : ∀ e, (s.sched t).windowEnd = some e → b ≤ e) (n : Nat) : s.rollWindows t b n = s := by
  cases n with
  | zero => rfl
  | succ n =>
    unfold State.rollWindows
    cases he : (s.sched t).windowEnd with
    | none => rfl
    | some e => exact if_neg (Nat.not_lt.mpr (h e he))

/-- The start of the window that holds the time. -/
def State.windowAt (s : State) (t : TileId) : Nat := s.now - s.now % epochNs % max 1 (1000 * (s.sched t).windowUs)

theorem schedWindowStart_opens {s : State} {t : TileId} (other : Nat) (hl : s.live t = true) (he : ∀ e, s.dev.epochEnd = some e → s.now < e)
    (hw : (s.sched t).windowEnd = none ∨ (s.sched t).windowEnd = some (s.windowAt t)) :
    exec (.schedWindowStart t other) s = .next (s.openWindow t (s.windowAt t) other true) := by
  simp only [exec, execSchedWindowStart]
  rw [hl, if_pos rfl]
  unfold windowRow
  rcases hw with hw | hw
  · rw [hw]; rfl
  · rw [hw]
    dsimp only
    have hle : s.windowAt t ≤ s.now := Nat.sub_le ..
    have hroll : s.rollWindows t (s.now - s.now % epochNs % max 1 (1000 * (s.sched t).windowUs)) (epochNs / 1000) = s :=
      rollWindows_early (fun e h => by rw [hw] at h; cases h; exact Nat.le_refl _) _
    rw [rollEpochs_early he, hroll, hw]
    dsimp only
    rw [if_pos hle]

theorem chargeOther_eq (c : Sched) (other : Nat) : chargeOther other c = { c with
    refill := c.refill - other, credit := clampCredit (c.credit - (min c.refill other : Nat)), otherIn := true
    energyNj := c.energyNj + other, epochNj := c.epochNj + other } := by
  have h : c.refill - (c.refill - other) = min c.refill other := by omega
  rw [chargeOther, h]

theorem schedWindowStart_charges {s : State} {t : TileId} (other : Nat) {e : Nat} (hl : s.live t = true)
    (he : ∀ e, s.dev.epochEnd = some e → s.now < e) (hw : (s.sched t).windowEnd = some e) (hlt : s.now < e) :
    exec (.schedWindowStart t other) s = .next (if (s.sched t).otherIn then s else s.onSched t (chargeOther other)) := by
  simp only [exec, execSchedWindowStart]
  rw [hl, if_pos rfl]
  unfold windowRow
  rw [hw]
  dsimp only
  have hroll : s.rollWindows t (s.now - s.now % epochNs % max 1 (1000 * (s.sched t).windowUs)) (epochNs / 1000) = s :=
    rollWindows_early (fun d h => by rw [hw] at h; cases h; omega) _
  rw [rollEpochs_early he, hroll, hw]
  dsimp only
  rw [if_neg (Nat.not_le.mpr hlt)]

/-! ### A budget epoch (R343, R344, R350) -/

/-- A fold over tiles in which each step changes its own tile alone: what a step leaves in its tile stands at the end. -/
theorem foldl_ownTile {f : State → TileId → State} {I : State → Prop} {Q : TileId → Tile → Tile → Prop} (hI : ∀ s t, I s → I (f s t))
    (hne : ∀ s t u, u ≠ t → (f s t).tile u = s.tile u) (hQ : ∀ s t, I s → Q t (s.tile t) ((f s t).tile t)) :
    ∀ (l : List TileId) (s : State), l.Nodup → I s → I (l.foldl f s) ∧
      (∀ u ∈ l, Q u (s.tile u) ((l.foldl f s).tile u)) ∧ ∀ u, u ∉ l → (l.foldl f s).tile u = s.tile u
  | [], s, _, hs => ⟨hs, fun _ h => absurd h List.not_mem_nil, fun _ _ => rfl⟩
  | t :: l, s, hn, hs => by
    obtain ⟨hfresh, hn⟩ := List.nodup_cons.mp hn
    obtain ⟨hi, hin, hout⟩ := foldl_ownTile hI hne hQ l (f s t) hn (hI s t hs)
    rw [List.foldl_cons]
    refine ⟨hi, fun u hu => ?_, fun u hu => ?_⟩
    · rcases List.mem_cons.mp hu with rfl | hu
      · rw [hout u hfresh]; exact hQ s u hs
      · have hut : u ≠ t := fun h => hfresh (h ▸ hu)
        rw [← hne s t u hut]; exact hin u hu
    · obtain ⟨hut, hul⟩ := not_or.mp (fun h => hu (List.mem_cons.mpr h))
      rw [hout u hul, hne s t u hut]

theorem liveTiles_nodup (s : State) : s.liveTiles.Nodup := List.filter_sublist.nodup (by decide : allTiles.Nodup)

theorem presentTiles_nodup (s : State) : s.presentTiles.Nodup := List.filter_sublist.nodup (by decide : allTiles.Nodup)

theorem onSched_sched_self (s : State) (t : TileId) (f : Sched → Sched) : (s.onSched t f).sched t = f (s.sched t) := by
  rw [State.sched, onSched_tile_self]

/-- What the start of an epoch leaves in a tile's scheduler: the budget that was sent, else the last, and the window in force. -/
def epochOpened (us : Nat) (x y : Tile) : Prop :=
  y.sched.budgetMw = x.sched.nextMw.getD x.sched.budgetMw ∧ y.sched.nextMw = none ∧ y.sched.epochNj = 0 ∧ y.sched.windowUs = us ∧
    y.sched.tokens = x.sched.tokens

theorem epochTile_spec (s : State) (t : TileId) : s.epochTile t = { s with tiles := (s.epochTile t).tiles } ∧
    epochOpened s.feat.schedWindow (s.tile t) ((s.epochTile t).tile t) ∧ ∀ u, u ≠ t → (s.epochTile t).tile u = s.tile u := by
  obtain ⟨l, n, h⟩ := trace_eq (s.onSched t fun c => { c with
    budgetMw := (s.sched t).nextMw.getD (s.sched t).budgetMw, nextMw := none, meanMw := roundFree c.epochNj 1000, epochNj := 0
    windowUs := s.feat.schedWindow }) t { tstamp := 0, type := trEpoch, reason := if (s.sched t).nextMw.isNone then 0x07 else 0x00, tile := t.val, est := (s.sched t).nextMw.getD (s.sched t).budgetMw }
  unfold State.epochTile
  dsimp only
  refine ⟨rfl, ?_, fun u hu => ?_⟩
  · rw [h, onSched_tile_self, onSched_sched_self]
    exact ⟨rfl, rfl, rfl, rfl, rfl⟩
  · rw [h, onSched_tile_ne _ hu, onSched_tile_ne _ hu]

/-! ### Completions of SET_FEATURE SCHED_WINDOW -/

/-- A completion with SUCCESS changes commands alone. -/
theorem succeed_frame (s : State) (c : CmdRef) (r : List Byte) : s.succeed c r = { s with cmds := (s.succeed c r).cmds } := by
  cases h : s.cmd? c with
  | none => rw [State.succeed, finish_none _ h]
  | some x => rw [succeed_formed r h]; rfl

/-- The command has completed with SUCCESS and this result. -/
def succeeded (r : List Byte) (s : State) (c : CmdRef) : Prop :=
  ∃ y, s.cmd? c = some y ∧ y.phase = .done ∧ y.comp.status = stSuccess ∧ y.comp.result = r

theorem onCmd_cmd?_ne {s : State} {c d : CmdRef} (f : Cmd → Cmd) (hf : ∀ y, (f y).ref = y.ref) (h : d ≠ c) : (s.onCmd c f).cmd? d = s.cmd? d := by
  unfold State.cmd? State.onCmd
  dsimp only
  rw [List.find?_map]
  have hp : ((fun x : Cmd => decide (x.ref = d)) ∘ fun x => if x.ref = c then f x else x) = fun x => decide (x.ref = d) := by
    funext x
    dsimp only [Function.comp]
    split
    · rw [hf]
    · rfl
  rw [hp]
  cases hx : s.cmds.find? fun x => decide (x.ref = d) with
  | none => rfl
  | some x =>
    have hr : x.ref = d := by simpa using List.find?_some hx
    rw [Option.map_some, if_neg fun hc => h (hr.symm.trans hc)]

theorem succeed_cmd? {s : State} {c : CmdRef} {x : Cmd} (r : List Byte) (h : s.cmd? c = some x) : succeeded r (s.succeed c r) c := by
  rw [succeed_formed r h]
  exact ⟨_, formed_cmd? _ h, rfl, rfl, rfl⟩

theorem succeed_cmd?_ne (s : State) {c d : CmdRef} (r : List Byte) (h : d ≠ c) : (s.succeed c r).cmd? d = s.cmd? d := by
  cases hc : s.cmd? c with
  | none => rw [State.succeed, finish_none _ hc]
  | some x => rw [succeed_formed r hc]; exact onCmd_cmd?_ne _ (fun _ => rfl) h

/-- Completing a list of commands completes each of them that the device holds. -/
theorem foldl_succeed {r : List Byte} {c : CmdRef} : ∀ {l : List Cmd} {s : State},
    succeeded r s c ∨ (∃ x ∈ l, x.ref = c) ∧ (∃ x, s.cmd? c = some x) → succeeded r (l.foldl (fun s x => s.succeed x.ref r) s) c
  | [], s, h => h.elim id fun h => absurd h.1 (by simp)
  | y :: l, s, h => by
    refine foldl_succeed (l := l) ?_
    by_cases hy : y.ref = c
    · subst hy
      have hfound : ∃ x, s.cmd? y.ref = some x := h.elim (fun ⟨x, hx, _⟩ => ⟨x, hx⟩) And.right
      obtain ⟨x, hx⟩ := hfound
      exact .inl (succeed_cmd? r hx)
    · have hsame := succeed_cmd?_ne s r (Ne.symm hy)
      refine h.imp (fun ⟨x, hx, hrest⟩ => ⟨x, hsame.trans hx, hrest⟩) fun ⟨⟨x, hx, hxc⟩, hfound⟩ => ⟨?_, by rw [hsame]; exact hfound⟩
      rcases List.mem_cons.mp hx with rfl | hx
      · exact absurd hxc hy
      · exact ⟨x, hx, hxc⟩

theorem foldl_succeed_frame (r : List Byte) (l : List Cmd) (s : State) :
    l.foldl (fun s x => s.succeed x.ref r) s = { s with cmds := (l.foldl (fun s x => s.succeed x.ref r) s).cmds } :=
  List.foldlRecOn (motive := fun t : State => t = { s with cmds := t.cmds }) l (fun s x => s.succeed x.ref r) rfl fun t ht x _ => by
    rw [succeed_frame, ht]

/-- The start of an epoch puts the window in force and completes the commands that asked for one (R344). -/
theorem takeWindow_spec (s : State) :
    s.takeWindow = { s with cmds := s.takeWindow.cmds, feat := { s.feat with schedWindow := s.nextWindow, schedNext := none } } ∧
    ∀ x ∈ s.cmds, x.setsWindow = true → s.cmd? x.ref = some x → succeeded (leBytes 8 s.feat.schedWindow) s.takeWindow x.ref := by
  unfold State.takeWindow
  refine ⟨foldl_succeed_frame _ _ _, fun x hx hw hc => foldl_succeed (.inr ⟨⟨x, List.mem_filter.mpr ⟨hx, hw⟩, rfl⟩, x, hc⟩)⟩

/-- The state at the start of an epoch: the fields of the device and of each live tile. -/
theorem epochEff_spec (s : State) : (epochEff s).feat = { s.feat with schedWindow := s.nextWindow, schedNext := none } ∧
    (epochEff s).dev.limitAt = some s.dev.limitW ∧ (epochEff s).cmds = s.takeWindow.cmds ∧
    (∀ t, s.live t = true → epochOpened s.nextWindow (s.tile t) ((epochEff s).tile t)) ∧
    (∀ t, s.live t = false → (epochEff s).tile t = s.tile t) := by
  obtain ⟨hframe, -⟩ := takeWindow_spec s
  unfold epochEff
  dsimp only
  generalize s.takeWindow = u at hframe
  have hlive : u.liveTiles = s.liveTiles := by rw [hframe]; rfl
  obtain ⟨⟨hi, -⟩, hin, hout⟩ := foldl_ownTile (f := State.epochTile) (I := fun v => v = { u with tiles := v.tiles } ∧ True)
    (Q := fun _ => epochOpened s.nextWindow) (fun v t hv => ⟨by rw [(epochTile_spec v t).1, hv.1], trivial⟩) (fun v t x hx => (epochTile_spec v t).2.2 x hx)
    (fun v t hv => by
      have := (epochTile_spec v t).2.1
      rwa [show v.feat.schedWindow = s.nextWindow by rw [hv.1, hframe]] at this) u.liveTiles u (liveTiles_nodup u) ⟨rfl, trivial⟩
  generalize u.liveTiles.foldl State.epochTile u = v at *
  have htile (t : TileId) : u.tile t = s.tile t := by rw [hframe]; rfl
  refine ⟨by rw [hi, hframe], by rw [hi, hframe], by rw [hi], fun t ht => ?_, fun t ht => ?_⟩
  · have := hin t (by rw [hlive]; exact mem_liveTiles.mpr ht)
    rwa [htile] at this
  · refine (hout t fun hm => ?_).trans (htile t)
    rw [hlive, mem_liveTiles, ht] at hm
    cases hm

/-- An epoch before which no window is still to start. -/
theorem openEpoch_early {s : State} {k : Nat} (h : ∀ t e, s.live t = true → (s.sched t).windowEnd = some e → k * epochNs ≤ e) :
    s.openEpoch k = s.atTime (k * epochNs) fun s =>
      { epochEff s with dev := { (epochEff s).dev with epochEnd := some (k * epochNs + epochNs) } } := by
  have hfold : s.liveTiles.foldl (fun s t => s.rollWindows t (k * epochNs) (epochNs / 1000)) s = s :=
    List.foldlRecOn (motive := fun u : State => u = s) s.liveTiles (fun s t => s.rollWindows t (k * epochNs) (epochNs / 1000)) rfl
      fun u hu t ht => by rw [hu]; exact rollWindows_early (fun e he => h t e (mem_liveTiles.mp ht) he) _
  unfold State.openEpoch
  dsimp only
  rw [hfold]

/-- What the start of an epoch leaves, with no window still to start before it. -/
theorem openEpoch_spec {s : State} {k : Nat} (h : ∀ t e, s.live t = true → (s.sched t).windowEnd = some e → k * epochNs ≤ e) :
    (s.openEpoch k).now = s.now ∧ (s.openEpoch k).feat = { s.feat with schedWindow := s.nextWindow, schedNext := none } ∧
    (s.openEpoch k).dev.limitAt = some s.dev.limitW ∧ (s.openEpoch k).dev.epochEnd = some (k * epochNs + epochNs) ∧
    (∀ x ∈ s.cmds, x.setsWindow = true → s.cmd? x.ref = some x → succeeded (leBytes 8 s.feat.schedWindow) (s.openEpoch k) x.ref) ∧
    (∀ t, s.live t = true → epochOpened s.nextWindow (s.tile t) ((s.openEpoch k).tile t)) ∧
    (∀ t, s.live t = false → (s.openEpoch k).tile t = s.tile t) := by
  obtain ⟨hfeat, hlim, hcmds, hopen, hoff⟩ := epochEff_spec { s with now := k * epochNs }
  obtain ⟨-, hdone⟩ := takeWindow_spec { s with now := k * epochNs }
  rw [openEpoch_early h]
  unfold State.atTime
  dsimp only
  generalize epochEff { s with now := k * epochNs } = u at *
  refine ⟨rfl, hfeat, hlim, rfl, fun x hx hw hc => ?_, hopen, hoff⟩
  obtain ⟨y, hy, hrest⟩ := hdone x hx hw hc
  exact ⟨y, (cmd?_congr _ hcmds).trans hy, hrest⟩

/-- BUDGET_EPOCH_START starts the epoch that holds the time. -/
theorem budgetEpochStart_opens {s : State} (hm : s.dev.mode.runsCommands = true)
    (he : s.dev.epochEnd = none ∨ s.dev.epochEnd = some (s.now / epochNs * epochNs))
    (h : ∀ t e, s.live t = true → (s.sched t).windowEnd = some e → s.now / epochNs * epochNs ≤ e) :
    exec .budgetEpochStart s = .next (s.openEpoch (s.now / epochNs)) := by
  have hpos : 0 < epochNs := by decide
  simp only [exec, execBudgetEpochStart]
  rw [hm, if_pos rfl]
  rcases he with he | he
  · rw [he]
  · rw [he]
    dsimp only
    have hle : s.now / epochNs * epochNs ≤ s.now := Nat.div_mul_le_self ..
    have hend := (openEpoch_spec h).2.2.2.1
    have hnow := (openEpoch_spec h).1
    have hlt : s.now < s.now / epochNs * epochNs + epochNs := by
      rw [Nat.mul_comm]; exact Nat.lt_mul_div_succ s.now hpos
    unfold State.rollEpochs
    rw [he]
    dsimp only
    rw [if_pos hle, Nat.mul_div_cancel _ hpos, rollEpochs_of_lt hend (by rw [hnow]; exact hlt)]

theorem budgetEpochStart_waits {s : State} {e : Nat} (hm : s.dev.mode.runsCommands = true) (he : s.dev.epochEnd = some e) (hlt : s.now < e) :
    exec .budgetEpochStart s = .next s := by
  simp only [exec, execBudgetEpochStart]
  rw [hm, if_pos rfl, he]
  dsimp only
  rw [rollEpochs_of_lt he hlt]

/-! ### Verification windows (R322) -/

theorem mem_vecMap {α β : Type} {n : Nat} {f : α → β} {v : Vector α n} {y : β} (h : y ∈ (vecMap f v).toList) : ∃ x ∈ v.toList, f x = y := by
  have hl : (vecMap f v).toList = v.toArray.toList.map f := rfl
  rw [hl] at h
  exact List.mem_map.mp h

/-- The counts that a verification window bounds stand at zero, and the records and the fences are kept. -/
def countsCleared (n : Nat) (x y : Tile) : Prop :=
  y.err.peMiss = List.replicate 16 0 ∧ y.err.badWord = [] ∧ y.err.verifyAt = n ∧ y.err.ring = x.err.ring ∧ y.err.fence = x.err.fence ∧
    (∀ k ∈ y.large.toList, k.eccHits = 0) ∧ ∀ e ∈ y.edges.toList, ∀ m ∈ e.modules.toList, m.retrains = 0

theorem newVerify_cleared (x : Tile) (n : Nat) : countsCleared n x { x.newVerify with err := { x.newVerify.err with verifyAt := n } } := by
  refine ⟨rfl, rfl, rfl, rfl, rfl, fun k hk => ?_, fun e he m hm => ?_⟩
  · obtain ⟨_, -, rfl⟩ := mem_vecMap hk
    rfl
  · obtain ⟨_, -, rfl⟩ := mem_vecMap he
    obtain ⟨_, -, rfl⟩ := mem_vecMap hm
    rfl

theorem rollVerify_spec (s : State) (t : TileId) : s.rollVerify t = { s with tiles := (s.rollVerify t).tiles } ∧
    ((s.tile t).err.verifyAt ≠ s.now / verifyNs → countsCleared (s.now / verifyNs) (s.tile t) ((s.rollVerify t).tile t)) ∧
    ((s.tile t).err.verifyAt = s.now / verifyNs → (s.rollVerify t).tile t = s.tile t) ∧ ∀ u, u ≠ t → (s.rollVerify t).tile u = s.tile u := by
  unfold State.rollVerify
  split
  next h => exact ⟨rfl, fun hn => absurd h hn, fun _ => rfl, fun _ _ => rfl⟩
  next h =>
    refine ⟨rfl, fun _ => ?_, fun hy => absurd hy h, fun u hu => State.onTile_tile_ne _ hu _⟩
    rw [State.onTile_tile]
    exact newVerify_cleared ..

theorem verificationWindowStart_clears (s : State) : ∃ s' : State, exec .verificationWindowStart s = .next s' ∧ s' = { s with tiles := s'.tiles } ∧
    (∀ t, s.present t = true → (s.tile t).err.verifyAt ≠ s.now / verifyNs → countsCleared (s.now / verifyNs) (s.tile t) (s'.tile t)) ∧
    ∀ t, (s.tile t).err.verifyAt = s.now / verifyNs ∨ s.present t = false → s'.tile t = s.tile t := by
  obtain ⟨hi, hin, hout⟩ := foldl_ownTile (f := State.rollVerify) (I := fun v => v = { s with tiles := v.tiles })
    (Q := fun _ x y => (x.err.verifyAt ≠ s.now / verifyNs → countsCleared (s.now / verifyNs) x y) ∧ (x.err.verifyAt = s.now / verifyNs → y = x))
    (fun v t hv => by rw [(rollVerify_spec v t).1, hv]) (fun v t u hu => (rollVerify_spec v t).2.2.2 u hu)
    (fun v t hv => by
      have hnow : v.now = s.now := by rw [hv]
      obtain ⟨-, hne, heq, -⟩ := rollVerify_spec v t
      rw [hnow] at hne heq
      exact ⟨hne, heq⟩) s.presentTiles s (presentTiles_nodup s) rfl
  refine ⟨_, rfl, hi, fun t hp => (hin t (State.mem_presentTiles.mpr hp)).1, fun t ht => ?_⟩
  by_cases hp : s.present t = true
  · exact (hin t (State.mem_presentTiles.mpr hp)).2 (ht.resolve_right (by rw [hp]; decide))
  · exact hout t fun hm => hp (State.mem_presentTiles.mp hm)

/-! ### Coalescing windows (R334) -/

theorem errorCoalesceWindowEnd_runs {s : State} {t : TileId} (hl : s.live t = true) : exec (.errorCoalesceWindowEnd t) s = .next (s.rollCoalesce t) := by
  simp only [exec, execErrorCoalesceWindowEnd]
  rw [hl, if_pos rfl]

/-- The counts of a tile's coalescing window start again. -/
def State.newCoalesce (s : State) (t : TileId) : State := s.onTile t fun x => { x with err := { x.err with counts := [], coalAt := s.now / coalesceNs } }

theorem rollCoalesce_new {s : State} {t : TileId} (h : (s.tile t).err.coalAt ≠ s.now / coalesceNs) :
    s.rollCoalesce t = ((s.tile t).err.counts.filter fun c => decide (0 < c.2.2.2)).foldl
      (fun u c => u.logWindow t (((s.tile t).err.coalAt + 1) * coalesceNs) c) (s.newCoalesce t) := by
  unfold State.rollCoalesce
  dsimp only
  rw [if_neg h]
  rfl

/-- The record of an ended window: the events that it counted, stamped with its end. -/
theorem logWindow_spec {s : State} {t : TileId} (e : Nat) (c : Nat × Nat × Nat × Nat) (h : (s.tile t).evidence = none) :
    ∃ r : ErrRec, ((s.logWindow t e c).tile t).err.ring.getLast? = some r ∧ r.event = c.2.2.1 ∧ r.sev = 0 ∧ r.kind = c.1 ∧ r.index = c.2.1 ∧
      r.data = leBytes 4 c.2.2.2 ∧ r.tstamp = e ∧ ((s.logWindow t e c).tile t).err.counts = (s.tile t).err.counts ∧
      s.logWindow t e c = { s with tiles := (s.logWindow t e c).tiles, out := (s.logWindow t e c).out } ∧
      ∀ u, u ≠ t → sameTile s (s.logWindow t e c) u := by
  have hframe := logErr_frame { s with now := e } t { errRec c.2.2.1 0 with kind := c.1, index := c.2.1, data := leBytes 4 c.2.2.2 }
  have htile := logErr_tile { s with now := e } t { errRec c.2.2.1 0 with kind := c.1, index := c.2.1, data := leBytes 4 c.2.2.2 }
  have hne := fun u (hu : u ≠ t) => logErr_tile_ne { s with now := e } t { errRec c.2.2.1 0 with kind := c.1, index := c.2.1, data := leBytes 4 c.2.2.2 } hu
  have hev : ((({ s with now := e } : State).tile t).evidence).isSome = false := by show (s.tile t).evidence.isSome = false; rw [h]; rfl
  rw [hev, if_neg Bool.false_ne_true] at htile
  unfold State.logWindow
  generalize State.logErr { s with now := e } t _ = v at *
  have hv : ({ v with now := s.now } : State).tile t = v.tile t := rfl
  refine ⟨{ errRec c.2.2.1 0 with kind := c.1, index := c.2.1, data := leBytes 4 c.2.2.2, tstamp := e, seq := ((s.tile t).err.lastSeq + 1) % 2 ^ 32, tile := t.val },
    ?_, rfl, rfl, rfl, rfl, rfl, rfl, ?_, ?_, fun u hu => hne u hu⟩
  · rw [hv, htile]; exact ringPush_last ..
  · rw [hv, htile]; rfl
  · rw [hframe]

theorem errorCoalesceWindowEnd_reports {s : State} {t : TileId} {kind index event n : Nat} (hl : s.live t = true)
    (hc : (s.tile t).err.counts = [(kind, index, event, n + 1)]) (hne : (s.tile t).err.coalAt ≠ s.now / coalesceNs) (hev : (s.tile t).evidence = none) :
    ∃ (s' : State) (r : ErrRec), exec (.errorCoalesceWindowEnd t) s = .next s' ∧ (s'.tile t).err.counts = [] ∧
      (s'.tile t).err.ring.getLast? = some r ∧ r.event = event ∧ r.sev = 0 ∧ r.kind = kind ∧ r.index = index ∧ r.data = leBytes 4 (n + 1) ∧
      r.tstamp = ((s.tile t).err.coalAt + 1) * coalesceNs ∧ s' = { s with tiles := s'.tiles, out := s'.out } ∧ ∀ u, u ≠ t → sameTile s s' u := by
  have htile : (s.newCoalesce t).tile t = { s.tile t with err := { (s.tile t).err with counts := [], coalAt := s.now / coalesceNs } } := State.onTile_tile ..
  obtain ⟨r, hring, h1, h2, h3, h4, h5, h6, hcounts, hframe, hother⟩ := logWindow_spec (s := s.newCoalesce t) (t := t)
    (((s.tile t).err.coalAt + 1) * coalesceNs) (kind, index, event, n + 1) (by rw [htile]; exact hev)
  have hroll : s.rollCoalesce t = (s.newCoalesce t).logWindow t (((s.tile t).err.coalAt + 1) * coalesceNs) (kind, index, event, n + 1) := by
    rw [rollCoalesce_new hne, hc, List.filter_cons_of_pos (by simp)]
    rfl
  have hnew : s.newCoalesce t = { s with tiles := (s.newCoalesce t).tiles } := rfl
  refine ⟨_, r, errorCoalesceWindowEnd_runs hl, ?_⟩
  rw [hroll]
  refine ⟨?_, hring, h1, h2, h3, h4, h5, h6, ?_, fun u hu => ?_⟩
  · rw [hcounts, htile]
  · rw [hframe, hnew]
  · have := hother u hu
    rwa [sameTile, State.newCoalesce, State.onTile_tile_ne _ hu] at this

/-! ### The statement -/

theorem schedWindowStart_spec {s : State} {t : TileId} (other : Nat) (hl : s.live t = true) (he : ∀ e, s.dev.epochEnd = some e → s.now < e) :
    let c := s.sched t
    let b := s.now - s.now % epochNs % max 1 (1000 * c.windowUs)
    (c.windowEnd = none ∨ c.windowEnd = some b →
      ∃ s' : State, exec (.schedWindowStart t other) s = .next s' ∧
        (s'.sched t).credit = clampCredit (min c.credit 0 + ((c.budgetMw * windowLen b c.windowUs / 1000 - other : Nat) : Int)) ∧
        (s'.sched t).ethrottle = c.skipWin ∧ (s'.sched t).skipWin = false ∧ (s'.sched t).used = [] ∧ (s'.sched t).offered = none ∧
        (s'.sched t).tokens = c.tokens.map (fun k =>
          { k with
            age := if k.skipped && !k.dispatched && (s.tile t).mode.dispatches && !s.sliceHeld k.slice then min 16 (k.age + 1) else k.age
            skipped := false, dispatched := false }) ∧
        (s'.sched t).energyNj = c.energyNj + other ∧ (s'.sched t).windowEnd = some (b + windowLen b c.windowUs) ∧ (s'.sched t).otherIn = true ∧
        (∀ p, s'.run? p = s.run? p) ∧ s'.cmds = s.cmds ∧ sameStore s s' ∧ s'.queues = s.queues) ∧
    (∀ e, c.windowEnd = some e → s.now < e →
      (c.otherIn = true → exec (.schedWindowStart t other) s = .next s) ∧
      (c.otherIn = false → exec (.schedWindowStart t other) s = .next (s.onSched t fun c => { c with
        refill := c.refill - other, credit := clampCredit (c.credit - (min c.refill other : Nat)), otherIn := true
        energyNj := c.energyNj + other, epochNj := c.epochNj + other }))) := by
  intro c b
  refine ⟨fun hw => ?_, fun e hw hlt => ⟨fun ho => ?_, fun ho => ?_⟩⟩
  · have hopen := scheduled.openWindow s t b other true
    obtain ⟨hcmds, l, n, hsched⟩ := openWindow_spec s t b other true
    refine ⟨_, schedWindowStart_opens other hl he hw, ?_⟩
    have hb : s.windowAt t = b := rfl
    rw [hb]
    generalize s.openWindow t b other true = v at *
    rw [hsched]
    exact ⟨rfl, rfl, rfl, rfl, rfl, rfl, rfl, rfl, rfl, hopen.run?, hcmds, hopen.sameStore, by rw [hopen.1]⟩
  · rw [schedWindowStart_charges other hl he hw hlt, if_pos ho]
  · rw [schedWindowStart_charges other hl he hw hlt, if_neg (by rw [show (s.sched t).otherIn = false from ho]; decide)]
    refine congrArg _ (State.onTile_congr ?_)
    unfold onSched
    rw [chargeOther_eq]

theorem budgetEpochStart_spec {s : State} (hm : s.dev.mode.runsCommands = true) :
    let b := s.now / epochNs * epochNs
    (∀ e, s.dev.epochEnd = some e → s.now < e → exec .budgetEpochStart s = .next s) ∧
    (s.dev.epochEnd = none ∨ s.dev.epochEnd = some b → (∀ t e, s.live t = true → (s.sched t).windowEnd = some e → b ≤ e) →
      ∃ s' : State, exec .budgetEpochStart s = .next s' ∧ s'.feat.schedNext = none ∧ s'.feat.schedWindow = s.nextWindow ∧
        (∀ x ∈ s.cmds, x.setsWindow = true → s.cmd? x.ref = some x →
          ∃ y, s'.cmd? x.ref = some y ∧ y.phase = .done ∧ y.comp.status = stSuccess ∧ y.comp.result = leBytes 8 s.feat.schedWindow) ∧
        s'.dev.epochEnd = some (b + epochNs) ∧ s'.dev.limitAt = some s.dev.limitW ∧
        (∀ t, s.live t = true → (s'.sched t).budgetMw = (s.sched t).nextMw.getD (s.sched t).budgetMw ∧ (s'.sched t).nextMw = none ∧
          (s'.sched t).epochNj = 0 ∧ (s'.sched t).windowUs = s'.feat.schedWindow ∧ (s'.sched t).tokens = (s.sched t).tokens) ∧
        (∀ t, s.live t = false → s'.tile t = s.tile t) ∧ sameStore s s' ∧ s'.queues = s.queues) := by
  intro b
  refine ⟨fun e he hlt => budgetEpochStart_waits hm he hlt, fun he h => ?_⟩
  obtain ⟨-, hfeat, hlim, hend, hdone, hopen, hoff⟩ := openEpoch_spec h
  have hsch := scheduled.openEpoch s (s.now / epochNs)
  refine ⟨_, budgetEpochStart_opens hm he h, ?_⟩
  generalize s.openEpoch (s.now / epochNs) = v at *
  refine ⟨by rw [hfeat], by rw [hfeat], hdone, hend, hlim, fun t ht => ?_, hoff, hsch.sameStore, by rw [hsch.1]⟩
  rw [hfeat]
  exact hopen t ht

/-- Settles O33: a window or an epoch that has begun is started once, and the windows that bound counts clear them and report. -/
theorem windowsRefillAndCountsStartAgain : Obligations.WindowsRefillAndCountsStartAgain := by
  unfold Obligations.WindowsRefillAndCountsStartAgain
  refine ⟨⟨fun now us h => windowLen_bounds now h, fun s t other hl he => schedWindowStart_spec other hl he, fun s hm => budgetEpochStart_spec hm⟩,
    fun s => ?_, fun s t hl h => ?_, fun s t hl hc h => ?_, fun s t kind index event n hl hc hne hev => errorCoalesceWindowEnd_reports hl hc hne hev⟩
  · obtain ⟨s', hexec, hframe, hclear, hkeep⟩ := verificationWindowStart_clears s
    exact ⟨s', hexec, hclear, hkeep, hframe⟩
  · rw [errorCoalesceWindowEnd_runs hl, State.rollCoalesce]
    exact congrArg _ (if_pos h)
  · rw [errorCoalesceWindowEnd_runs hl, rollCoalesce_new h, hc]
    rfl

end Sys2Proof.Machine
end

section
/-!
What the end of work and the fence of a tile leave: the fences that stand, the tiles that relay, and what the pipelines of the queries hold
(R323, R325, R326).
-/
namespace Sys2Proof.Machine

/-- From `s` to `t` no fence has fallen or risen, the same tiles relay, and a query that is still there has its pipelines as they were. -/
def steady (s t : State) : Prop :=
  t.dev.fenced = s.dev.fenced ∧ (∀ u, (t.tile u).relays = (s.tile u).relays) ∧
    ∀ n y, t.query? n = some y → ∃ x, s.query? n = some x ∧ y.pipes = x.pipes

/-- An update that leaves the queries. -/
theorem steady.of_eq {s t : State} (hf : t.dev.fenced = s.dev.fenced) (hr : ∀ u, (t.tile u).relays = (s.tile u).relays)
    (hq : t.queries = s.queries) : steady s t :=
  ⟨hf, hr, fun n y hy => ⟨y, by rw [State.query?, ← hq]; exact hy, rfl⟩⟩

theorem steady.refl (s : State) : steady s s := .of_eq rfl (fun _ => rfl) rfl

theorem steady.trans {s t u : State} (h : steady s t) (h' : steady t u) : steady s u := by
  obtain ⟨hf, hr, hq⟩ := h
  obtain ⟨hf', hr', hq'⟩ := h'
  refine ⟨hf'.trans hf, fun v => (hr' v).trans (hr v), fun n y hy => ?_⟩
  obtain ⟨x, hx, hxy⟩ := hq' n y hy
  obtain ⟨w, hw, hwx⟩ := hq n x hx
  exact ⟨w, hw, hxy.trans hwx⟩

theorem steady.foldl {α : Type} {f : State → α → State} (h : ∀ s a, steady s (f s a)) (l : List α) (s : State) : steady s (l.foldl f s) :=
  List.foldlRecOn (motive := fun t : State => steady s t) l f (.refl s) fun t ht a _ => ht.trans (h t a)

theorem steady.onTile (s : State) (t : TileId) (f : Tile → Tile) (hf : ∀ x, (f x).relays = x.relays) : steady s (s.onTile t f) :=
  .of_eq rfl (onTile_rel (P := fun a b => b.relays = a.relays) (fun _ => rfl) s t f (hf _)) rfl

theorem steady.onSlc (s : State) (n : Nat) (f : Slice → Slice) : steady s (s.onSlc n f) := .of_eq rfl (fun _ => rfl) rfl

theorem steady.bump (s : State) : steady s s.bump := .of_eq rfl (fun _ => rfl) rfl

theorem steady.emitAll (s : State) (l : List Out) : steady s (s.emitAll l) := .of_eq rfl (fun _ => rfl) rfl

theorem steady.revoteAll (s : State) : steady s s.revoteAll :=
  .of_eq (by rw [revoteAll_frame]) (fun u => by rw [revoteAll_tile]) (by rw [revoteAll_frame])

theorem steady.finish (s : State) (c : CmdRef) (k : Completion) : steady s (s.finish c k) :=
  .of_eq (by rw [finish_frame]) (fun u => by rw [finish_tile]) (by rw [finish_frame])

theorem steady.logErr (s : State) (t : TileId) (r : ErrRec) : steady s (s.logErr t r) :=
  .of_eq (by rw [logErr_frame]) (fun u => by rw [logErr_tile_any]) (by rw [logErr_frame])

theorem steady.of_told {s t : State} (h : told s t) : steady s t := .of_eq (by rw [h.2.1]) (fun u => by rw [h.2.2 u]) (by rw [h.2.1])

/-! ### Queries -/

/-- A query is found as an update leaves it, where the update keeps its number. -/
theorem query?_onQuery (s : State) (n m : Nat) (f : Query → Query) (hf : ∀ x, (f x).qid = x.qid) :
    (s.onQuery n f).query? m = (s.query? m).map fun x => if x.qid = n then f x else x := by
  unfold State.query? State.onQuery
  dsimp only
  rw [List.find?_map]
  have hp : ((fun x : Query => decide (x.qid = m)) ∘ fun x => if x.qid = n then f x else x) = fun x => decide (x.qid = m) := by
    funext x
    dsimp only [Function.comp]
    split
    · rw [hf]
    · rfl
  rw [hp]

theorem query?_qid {s : State} {n : Nat} {x : Query} (h : s.query? n = some x) : x.qid = n := by
  unfold State.query? at h
  simpa using List.find?_some h

theorem steady.onQuery (s : State) (n : Nat) (f : Query → Query) (hf : ∀ x, (f x).qid = x.qid) (hp : ∀ x, (f x).pipes = x.pipes) :
    steady s (s.onQuery n f) := by
  refine ⟨rfl, fun _ => rfl, fun m y hy => ?_⟩
  rw [query?_onQuery s n m f hf] at hy
  obtain ⟨x, hx, rfl⟩ := Option.map_eq_some_iff.mp hy
  refine ⟨x, hx, ?_⟩
  split
  · exact hp x
  · rfl

theorem steady.dropQuery (s : State) (qid : Nat) : steady s { s with queries := s.queries.filter fun q => decide (q.qid ≠ qid) } := by
  refine ⟨rfl, fun _ => rfl, fun n y hy => ?_⟩
  have hn := query?_qid hy
  unfold State.query? at hy
  dsimp only at hy
  rw [List.find?_filter] at hy
  by_cases hq : n = qid
  · subst hq
    have := List.find?_some hy
    simp [hn] at this
  · refine ⟨y, ?_, rfl⟩
    rw [State.query?, ← hy]
    refine congrArg (List.find? · s.queries) (funext fun x => ?_)
    by_cases hx : x.qid = n
    · simp [hx, hq]
    · simp [hx]

theorem steady.trace (s : State) (t : TileId) (r : Trace) : steady s (s.trace t r) := by
  obtain ⟨l, n, h⟩ := trace_eq s t r
  rw [h]
  exact .onTile s t _ fun _ => rfl

theorem steady.discardOn (s : State) (t : TileId) (p : Token → Bool) (reason : Nat) : steady s (s.discardOn t p reason) := by
  unfold State.discardOn
  refine (steady.onTile s t _ ?_).trans (.foldl (fun s _ => .trace s t _) _ _)
  exact fun _ => rfl

theorem steady.discard (s : State) (p : Token → Bool) (reason : Nat) : steady s (s.discard p reason) :=
  .foldl (fun s t => .discardOn s t p reason) _ s

theorem steady.settleEnergy (s : State) (t : TileId) (h : Nat) (r : Run) (em : Nat) : steady s (s.settleEnergy t h r em) := by
  unfold State.settleEnergy
  exact (steady.onSlc ..).trans (.onTile _ _ _ fun _ => rfl)

theorem steady.stopCalls (s : State) (g : Gpe) : steady s (s.stopCalls g) := .onTile s _ _ fun _ => rfl

theorem steady.setRun (s : State) (g : Gpe) (r : Option Run) : steady s (s.setRun g r) := .onTile s _ _ fun _ => rfl

theorem steady.stopRun (s : State) (qid : Nat) (g : Gpe) : steady s (s.stopRun qid g) := by
  unfold State.stopRun
  split
  · split
    · exact (((steady.setRun ..).trans (.stopCalls ..)).trans (.settleEnergy ..)).trans (.bump _)
    · exact .refl s
  · exact .refl s

theorem steady.releaseQuery (s : State) (q : Query) : steady s (s.releaseQuery q) := by
  unfold State.releaseQuery
  have h := steady.foldl (f := fun s r => s.onSlc q.slice fun y => y.charge r.2.1 (· - r.2.2)) (fun s _ => .onSlc s _ _) q.charged s
  exact (h.trans (.onQuery _ q.qid (fun q => { q with charged := [], sram := [] }) (fun _ => rfl) fun _ => rfl)).trans (.revoteAll _)

theorem steady.removeQuery (s : State) (qid reason : Nat) : steady s (s.removeQuery qid reason) := by
  unfold State.removeQuery
  dsimp only
  have hstop (l : List Nat) (s : State) : steady s (l.foldl (fun s n => s.stopRun qid (gpeN n)) s) := .foldl (fun s n => .stopRun s _ _) l s
  have hdrop (l : List TileId) (s : State) : steady s (l.foldl (fun s t => s.onTile t (Tile.dropQuery qid)) s) :=
    .foldl (fun s t => .onTile s t (Tile.dropQuery qid) fun _ => rfl) l s
  refine steady.trans ?_ (.dropQuery _ qid)
  refine steady.trans ?_ (hdrop _ _)
  refine steady.trans ?_ (hstop _ _)
  split
  · exact (steady.discard ..).trans (.releaseQuery ..)
  · exact .discard ..

theorem steady.stage (s : State) (cs : List Host.Cell) : steady s (s.stage cs) :=
  .of_eq (by rw [stage_eq]) (fun u => by rw [stage_tile]) (by rw [stage_eq])

theorem steady.undefine (s : State) (id : Nat) : steady s (s.undefine id) := by
  unfold State.undefine
  dsimp only
  split
  · exact .refl s
  · exact steady.trans (.of_eq rfl (fun _ => rfl) rfl) (.stage ..)

theorem steady.settleFailing (s : State) (qid : Nat) : steady s (s.settleFailing qid) := by
  unfold State.settleFailing
  split
  · exact .refl s
  · split
    · exact .refl s
    · split
      · exact .refl s
      · dsimp only
        refine steady.trans ?_ (.revoteAll _)
        refine steady.trans ?_ (.removeQuery ..)
        refine steady.trans ?_ (.finish ..)
        split
        · exact .foldl .undefine _ _
        · exact .refl s

theorem steady.failQuery (s : State) (qid : Nat) (f : Fail) : steady s (s.failQuery qid f) := by
  unfold State.failQuery
  split
  · exact .refl s
  · dsimp only
    refine steady.trans ?_ (.settleFailing ..)
    have hmark (s : State) : steady s (s.onQuery qid fun q => { q with fails := q.fails ++ [f], failing := true, toPost := [], consWait := none }) :=
      .onQuery s qid _ (fun _ => rfl) fun _ => rfl
    split
    · split
      · exact (steady.logErr ..).trans (hmark _)
      · exact hmark s
    · refine steady.trans ?_ (.discard ..)
      split
      · exact (steady.logErr ..).trans (hmark _)
      · exact hmark s

theorem steady.plan (s : State) (qid : Nat) (t : Nat) (k : Token) : steady s (s.plan qid t k) :=
  (steady.onQuery s qid (fun q => { q with toPost := q.toPost ++ [(t, k)], reruns := q.reruns + 1 }) (fun _ => rfl) fun _ => rfl).trans (.onSlc ..)

theorem steady.abandon (s : State) (g : Gpe) : steady s (s.abandon g) := by
  unfold State.abandon
  split
  · exact .refl s
  · dsimp only
    have hstop (u : State) (t : TileId) (h : Nat) (r : Run) (em : Nat) (e : Trace) :
        steady u ((((((u.setRun g none).stopCalls g).settleEnergy t h r em).bump).trace t e)) :=
      ((((steady.setRun ..).trans (.stopCalls ..)).trans (.settleEnergy ..)).trans (.bump _)).trans (.trace ..)
    split
    · exact hstop ..
    · split
      · exact hstop ..
      · split
        · exact (hstop ..).trans (.plan ..)
        · exact (hstop ..).trans (.failQuery ..)

/-! ### Commands -/

theorem steady.releaseRecord (s : State) (j : Job) : steady s (s.releaseRecord j) := by
  unfold State.releaseRecord
  split
  · exact .refl s
  · exact .onTile s _ _ fun _ => rfl

theorem steady.removeJobs (s : State) (c : CmdRef) : steady s (s.removeJobs c) := by
  have hrec (s : State) (l : List Job) : steady s (l.foldl State.releaseRecord s) := .foldl .releaseRecord l s
  have hdig (s : State) (t : TileId) (f : Digest → Digest) : steady s (s.onDigest t f) := .onTile s t _ fun _ => rfl
  have hcod (s : State) (t : TileId) (f : List CodecJob → List CodecJob) : steady s (s.onCodec t f) := .onTile s t _ fun _ => rfl
  exact .foldl (fun s t => ((hrec s _).trans (hdig _ t _)).trans (hcod _ t _)) _ s

theorem steady.cancelActivation (s : State) (c : CmdRef) : steady s (s.cancelActivation c) := by
  unfold State.cancelActivation
  split
  · dsimp only
    split
    · exact .of_eq rfl (fun _ => rfl) rfl
    · exact .of_eq rfl (fun _ => rfl) rfl
  · exact .refl s

theorem steady.clearSeg (s : State) (n : Nat) : steady s (s.clearSeg n) := by
  have hgone (s : State) : steady s ((s.goneSeg n).setSeg n {}) := .of_eq rfl (fun _ => rfl) rfl
  have hstrand (s : State) : steady s (s.strand n) := .of_eq rfl (fun _ => rfl) rfl
  unfold State.clearSeg
  dsimp only
  split
  · exact .refl s
  · refine steady.trans (.trans ?_ (hgone _)) (.revoteAll _)
    split
    · exact (steady.onSlc ..).trans (hstrand _)
    · exact .onSlc ..

theorem steady.dirSettle (s : State) (w : DirWait) : steady s (s.dirSettle w) := by
  have hdur (s : State) : steady s (s.dirDurable w.phase.tile w.phase.expander w.slot) := .of_eq rfl (fun _ => rfl) rfl
  unfold State.dirSettle
  dsimp only
  split
  · exact (hdur s).trans (.clearSeg ..)
  · exact hdur s

theorem steady.abortCmd (s : State) (x : Cmd) : steady s (s.abortCmd x) := by
  unfold State.abortCmd
  refine steady.trans (t := (s.dropCmd x.ref).releaseHeld x.ref) (.of_eq rfl (fun _ => rfl) rfl) ?_
  dsimp only
  split
  · exact .removeJobs ..
  · exact (steady.foldl (f := State.undefine) (fun s id => .undefine s id) _ _).trans (.removeQuery ..)
  · exact .cancelActivation ..
  · exact .dirSettle ..
  · exact .refl _

/-! ### The fence of a tile (R326) -/

theorem steady.loseCommands (s : State) (t : TileId) : steady s (s.loseCommands t) := by
  have hqueues (s : State) : steady s (s.loseQueues t) := .of_eq rfl (fun _ => rfl) rfl
  have hcharge (s : State) : steady s (s.chargeLost t) :=
    .foldl (fun s (e : Nat × Queue) => .onSlc s e.2.slice _) _ s
  unfold State.loseCommands
  exact (((steady.discard ..).trans (hcharge _)).trans (.foldl (f := State.abortCmd) (fun s x => .abortCmd s x) _ _)).trans (hqueues _)

theorem steady.dropTile (s : State) (t : TileId) : steady s (s.dropTile t) := by
  have hcod (s : State) (u : TileId) (f : List CodecJob → List CodecJob) : steady s (s.onCodec u f) := .onTile s u _ fun _ => rfl
  have hdig (s : State) (u : TileId) (f : Digest → Digest) : steady s (s.onDigest u f) := .onTile s u _ fun _ => rfl
  have hcodec (s : State) (jobs : List CodecJob) : steady s (s.moveCodec t jobs) := by
    unfold State.moveCodec
    split
    · exact hcod ..
    · exact (hcod s t _).trans (.foldl (fun s (j : CodecJob) => .finish s j.c _) _ _)
  have hfail (s : State) (j : Job) (k : Completion) : steady s (s.jobFail j k) := by
    unfold State.jobFail
    dsimp only
    split
    · exact (steady.releaseRecord ..).trans (.finish ..)
    · exact .releaseRecord ..
  have hdigest (s : State) (jobs : List Job) : steady s (s.moveDigest t jobs) := by
    unfold State.moveDigest
    split
    · exact hdig ..
    · exact .foldl (fun s (j : Job) => hfail s j _) _ s
  unfold State.dropTile
  refine steady.trans (.trans ?_ (hcodec _ _)) (hdigest _ _)
  exact .onTile s t _ fun _ => rfl

theorem steady.degrade (s : State) : steady s s.degrade := by
  unfold State.degrade
  dsimp only
  split
  · exact .of_eq rfl (fun _ => rfl) rfl
  · exact .refl s

theorem steady.haltTile (s : State) (t : TileId) : steady s (s.haltTile t) := by
  unfold State.haltTile
  split
  · exact .refl s
  · exact .onTile s t _ fun _ => rfl

theorem steady.halt (s : State) (t : TileId) (cause : Nat) : steady s (s.halt t cause) := by
  unfold State.halt
  split
  · exact .refl s
  · dsimp only
    have hlog := steady.logErr s t { errRec evHaltEntry 5 with data := [] }
    generalize s.logErr t { errRec evHaltEntry 5 with data := [] } = l at hlog
    generalize hu : ({ l with dev := _ } : State) = u
    have hdev : steady l u := by subst hu; exact .of_eq rfl (fun _ => rfl) rfl
    generalize ho : u.haltOuts t cause = outs
    have hhist (f : Tile → List (Nat × Nat × Nat × Nat)) : steady u (u.onTile t fun x => { x with history := f x }) :=
      .onTile u t _ fun _ => rfl
    exact ((((hlog.trans hdev).trans (hhist _)).trans (.emitAll _ outs)).trans (.haltTile _ t)).trans (.revoteAll _)

theorem steady.cinchToAll (s : State) (op change arg reason : Nat) : steady s (s.cinchToAll op change arg reason) := by
  have hnote (s : State) (m : TileId) (n : Nat) : steady s (s.noteCinch m op change arg n) := .onTile s m _ fun _ => rfl
  unfold State.cinchToAll State.cinchTo
  dsimp only
  exact (steady.foldl (f := fun u _ => u.noteCinch s.masterTile op change arg u.dev.epoch) (fun s _ => hnote ..) _ s).trans (.emitAll ..)

theorem steady.pulse (s : State) (ch : Change) : steady s (s.pulse ch) := by
  unfold State.pulse
  dsimp only
  refine steady.trans ?_ (.cinchToAll ..)
  exact .of_eq rfl (fun _ => rfl) rfl

theorem steady.changeDone (s : State) (ch : Change) : steady s (s.changeDone ch) := by
  have hdone (s : State) (c : CmdRef) (r : List Byte) : steady s (s.succeed c r) := .finish ..
  have hfor (s : State) (c : CmdRef) (n : Nat) (r : List Byte) : steady s (s.forCmd c n fun s => s.succeed c r) := by
    unfold State.forCmd
    split
    · exact hdone ..
    · exact .of_eq rfl (fun _ => rfl) rfl
  have hdeg (s : State) : steady s (if s.anyFence then s.degrade else s) := by
    split
    · exact .degrade s
    · exact .refl s
  unfold State.changeDone
  dsimp only
  generalize hu : ({ s with dev := { s.dev with
    phase := .idle, change := none, ready := 0, resends := 0, reports := [], prev := if ch.code = 1 then s.dev.was else s.dev.prev
    strobeBusy := if ch.origin = .strobe then false else s.dev.strobeBusy } } : State) = u
  have hset : steady s u := by subst hu; exact .of_eq rfl (fun _ => rfl) rfl
  refine hset.trans ((hdeg u).trans ?_)
  generalize (if u.anyFence then u.degrade else u) = v
  split
  · exact steady.trans (.of_eq rfl (fun _ => rfl) rfl) (hfor ..)
  · split
    · split
      · exact steady.trans (.of_eq rfl (fun _ => rfl) rfl) (hdone ..)
      · exact .refl v
    · exact .refl v

theorem steady.afterFence (s : State) : steady s s.afterFence := by
  have hcheck : steady s s.checkApplied := by
    unfold State.checkApplied
    split
    · split
      · exact .changeDone ..
      · exact .refl s
    · exact .refl s
  unfold State.afterFence
  split
  · split
    · exact .pulse ..
    · exact hcheck
  · exact .refl s

end Sys2Proof.Machine
end

section
/-!
Control messages, boot and firmware messages, and errors of the mesh (R464, R487, R490).
-/
namespace Sys2Proof.Machine

/-! ### The fence of a tile -/

/-- Whether a tile is live stands on the part and the fences alone. -/
theorem live_congr {s t : State} (hm : t.man = s.man) (hf : t.dev.fenced = s.dev.fenced) (u : TileId) : t.live u = s.live u := by
  rw [State.live, State.live, State.present, State.present, State.presentMask, State.presentMask, State.fencedT, State.fencedT, hm, hf]

/-- What the fence of a tile brings, once its bit is set: its commands, its work, the queries and segments on it, and HALT with the last
host port (R43, R164, R326). -/
def State.endFence (s : State) (t : TileId) (hit : List Query) (last : Bool) : State :=
  let s := hit.foldl (fun s q => s.failQuery q.qid (s.tileFail q t)) ((s.loseCommands t).dropTile t)
  let s := s.loseSegs t.val none
  if last then s.halt s.masterTile 0x03 else s.degrade

theorem steady.endFence (s : State) (t : TileId) (hit : List Query) (last : Bool) : steady s (s.endFence t hit last) := by
  have hfail (u : State) : steady u (hit.foldl (fun s q => s.failQuery q.qid (s.tileFail q t)) u) :=
    .foldl (fun s (q : Query) => .failQuery s q.qid _) hit u
  have hsegs (u : State) : steady u (u.loseSegs t.val none) := .of_eq rfl (fun _ => rfl) rfl
  have hend (u : State) (last : Bool) : steady u (if last then u.halt u.masterTile 0x03 else u.degrade) := by
    split
    · exact .halt ..
    · exact .degrade u
  exact ((((steady.loseCommands s t).trans (.dropTile _ t)).trans (hfail _)).trans (hsegs _)).trans (hend _ last)

/-- The state with the fence bit of a tile set, and what the master counts. -/
def State.markFence (s : State) (t : TileId) : State :=
  let s : State := { s with dev := { s.dev with
    fenced := setBit s.dev.fenced t.val
    applied := if s.dev.phase = .idle then s.dev.applied else setBit s.dev.applied t.val } }
  { s with dev := { s.dev with master := s.masterTile.val } }

theorem fenceTile_marks {s : State} {t : TileId} (hl : s.live t = true) :
    ∃ hit, s.fenceTile t = ((s.logErr t (errRec evTileFenced 4)).markFence t).endFence t hit (s.lastHostPort t) := by
  refine ⟨((s.logErr t (errRec evTileFenced 4)).markFence t).queries.filter
    fun q => decide (q.home ≠ t.val) && ((s.logErr t (errRec evTileFenced 4)).markFence t).queryOn q t, ?_⟩
  unfold State.fenceTile
  rw [hl, if_neg (by decide)]
  rfl

/-- A tile that is fenced is live no more, and relays as it did. -/
theorem fenceTile_dead (s : State) (t : TileId) :
    (s.fenceTile t).live t = false ∧ ∀ u, ((s.fenceTile t).tile u).relays = (s.tile u).relays := by
  by_cases hl : s.live t = true
  · obtain ⟨hit, heq⟩ := fenceTile_marks hl
    have hlog := steady.logErr s t (errRec evTileFenced 4)
    have hend := steady.endFence ((s.logErr t (errRec evTileFenced 4)).markFence t) t hit (s.lastHostPort t)
    rw [← heq] at hend
    refine ⟨?_, fun u => (hend.2.1 u).trans (hlog.2.1 u)⟩
    have hmark : ((s.logErr t (errRec evTileFenced 4)).markFence t).dev.fenced = setBit (s.logErr t (errRec evTileFenced 4)).dev.fenced t.val := rfl
    have hbit : bit (s.fenceTile t).dev.fenced t.val = true := by
      rw [hend.1, hmark, bit, setBit, Nat.testBit_or, Nat.testBit_two_pow_self, Bool.or_true]
    rw [State.live, State.fencedT, hbit, Bool.not_true, Bool.and_false]
  · have hl' : s.live t = false := by simpa using hl
    unfold State.fenceTile
    rw [hl']
    exact ⟨hl', fun _ => rfl⟩

theorem loseTile_dead (s : State) (t : TileId) :
    (s.loseTile t).live t = false ∧ ∀ u, ((s.loseTile t).tile u).relays = (s.tile u).relays := by
  obtain ⟨hf, hr⟩ := fenceTile_dead s t
  have hstd := steady.afterFence (s.fenceTile t)
  have hman : (s.loseTile t).man = (s.fenceTile t).man := by rw [(State.loseTile_kept s t).2.1, (State.fenceTile_kept s t).2.1]
  refine ⟨?_, fun u => (hstd.2.1 u).trans (hr u)⟩
  rw [live_congr (s := s.fenceTile t) hman hstd.1]
  exact hf

/-! ### Messages -/

theorem mem_insertRising {x u : Nat} : ∀ {l : List Nat}, u ∈ insertRising l x ↔ u = x ∨ u ∈ l
  | [] => by simp [insertRising]
  | y :: r => by
    unfold insertRising
    split
    · exact List.mem_cons
    · split
      next h => subst h; simp
      next => rw [List.mem_cons, mem_insertRising (l := r), List.mem_cons]; exact or_left_comm

theorem ctlResend_spec {s : State} {t : TileId} {tag : Nat} {p : CtlPending} (hp : (s.tile t).ctl.find? (fun x => x.tag == tag) = some p) :
    exec (.ctlResend t tag) s = .next (
      if 3 ≤ p.tries then (s.onTile t fun x => { x with ctl := x.ctl.filter fun y => decide (y ≠ p) }).loseTile (tid p.dst)
      else if s.lostNow t p.dst then s.onTile t fun x => { x with ctl := x.ctl.map fun y => if y = p then { p with tries := p.tries + 1 } else y }
      else (s.onTile t fun x => { x with ctl := x.ctl.filter fun y => decide (y ≠ p) }).forward t (msgBytes p.mtype p.h p.body)) := by
  simp only [exec, execCtlResend]
  rw [hp]

theorem cutOff_dead (s : State) (t : TileId) :
    (s.cutOff t).live t = false ∧ ((s.cutOff t).tile t).relays = false ∧ (s.cutOff t).mem = s.mem := by
  unfold State.cutOff
  obtain ⟨hl, hr⟩ := loseTile_dead (s.onTile t fun x => { x with relays := false }) t
  refine ⟨hl, ?_, (State.loseTile_kept _ t).2.2⟩
  rw [hr, State.onTile_tile]

/-- Settles O38: each message ends in one case of its rule, and a fence that falls stands to the end of the step. -/
theorem controlMessagesAndMeshErrors : Obligations.ControlMessagesAndMeshErrors := by
  unfold Obligations.ControlMessagesAndMeshErrors
  refine ⟨fun s h off data hd hl => ?_, fun s h tag kind data hl hk hlen => ⟨fun hs => ?_, fun hs => ?_⟩, fun s t tag p hp => ?_,
    fun s t f hl => ⟨fun a ha => ?_, fun hne => ?_⟩⟩
  · simp only [exec, execBootData]
    rw [if_pos ⟨hd, hl⟩]
  · simp only [exec, execFwMsg]
    rw [if_pos ⟨hl, hk, hlen, by rw [State.seen]; simpa using hs⟩]
    rfl
  · simp only [exec, execFwMsg]
    rw [if_neg fun hc => by rw [State.seen] at hc; simp [hs] at hc]
  · rw [ctlResend_spec hp]
    refine ⟨fun h3 _ => ?_, fun h3 hl => ?_, fun h3 hl => ?_⟩
    · rw [if_pos h3]
      exact ⟨_, rfl, (loseTile_dead _ _).1⟩
    · rw [if_neg (by omega), if_pos hl]
    · rw [if_neg (by omega), if_neg (by rw [hl]; decide)]
  · subst ha
    simp only [exec, execMeshFlitError]
    rw [if_neg (by rw [hl]; decide)]
    exact ⟨_, rfl, fun u => mem_insertRising, rfl⟩
  · have hcut : exec (.meshFlitError t f) s = .next (s.cutOff t) := by
      simp only [exec, execMeshFlitError]
      rw [if_neg (by rw [hl]; decide)]
      cases f with
      | payload a => exact absurd rfl (hne a)
      | header => rfl
      | router => rfl
      | girth => rfl
    exact ⟨_, hcut, cutOff_dead s t⟩

end Sys2Proof.Machine
end

section
/-!
Exchange records: their deposit, acknowledgements and tallies (R246, R250, R483).
-/
namespace Sys2Proof.Machine

/-! ### Messages that serve a morsel -/

/-- From `s` to `t` morsels have stopped, queries failed or messages gone out: nothing of what `endsRuns` and `steady` keep has changed. -/
def mayAbandon (s t : State) : Prop := endsRuns s t ∧ steady s t

theorem mayAbandon.refl (s : State) : mayAbandon s s := ⟨.refl s, .refl s⟩

theorem mayAbandon.trans {s t u : State} (h : mayAbandon s t) (h' : mayAbandon t u) : mayAbandon s u := ⟨h.1.trans h'.1, h.2.trans h'.2⟩

theorem endsRuns.of_told {s t : State} (h : told s t) : endsRuns s t :=
  .of_eq (by rw [h.2.1]) (by rw [h.2.1]) (by rw [h.2.1]) fun u => by rw [h.2.2 u]; exact ⟨rfl, rfl⟩

theorem mayAbandon.of_told {s t : State} (h : told s t) : mayAbandon s t := ⟨.of_told h, .of_told h⟩

theorem mayAbandon.loseMsg (s : State) (b : List Byte) : mayAbandon s (s.loseMsg b) := by
  unfold State.loseMsg
  dsimp only
  split
  · split
    · exact ⟨(abandon_stops ..).1, .abandon ..⟩
    · exact .refl s
  · split
    · split
      · exact .refl s
      · exact .of_told (.onCtl s _ (· ++ [_]))
    · exact .refl s

theorem mayAbandon.sendMsg (s : State) (mtype len : Nat) (src : TileId) (sa : Fin 64) (dst : TileId) (da : Fin 64) (x : MsgCtx) (body : List Byte) :
    mayAbandon s (s.sendMsg mtype len src sa dst da x body) := by
  have hedge (s : State) (t : TileId) (e : EdgeId) (vc : Nat) (b : List Byte) : mayAbandon s (s.sendEdge t e vc b) := by
    unfold State.sendEdge
    dsimp only
    have hpump := mayAbandon.of_told (.of_wired ((wired.onEdge s t e fun y => { y with held := y.held ++ [(vc, b)] }).trans (.pumpEdge _ t e)))
    split
    · exact hpump
    · exact .loseMsg s b
    · exact .loseMsg s b
    · split
      · exact .of_told (.of_wired (.emit ..))
      · split
        · exact hpump
        · split
          · exact .of_told (.of_wired ((wired.onEdge ..).trans (.wakeLink ..)))
          · exact .of_told (.of_wired ((wired.onEdge ..).trans (.castVote ..)))
  have hforward (s : State) (b : List Byte) : mayAbandon s (s.forward src b) := by
    unfold State.forward
    dsimp only
    split
    · exact .loseMsg s b
    · exact hedge ..
  unfold State.sendMsg
  dsimp only
  split
  · exact .of_told (.of_wired (.emit ..))
  · exact (mayAbandon.of_told (.of_wired (.emit ..))).trans (hforward _ _)

/-! ### Acknowledging the records of a sender -/

/-- A query with the records of one sender acknowledged. -/
def PipeState.ack (ps : PipeState) (x : XrCount) : PipeState := { ps with xr := ps.xr.map fun y => if y = x then { y with unacked := 0 } else y }

/-- The pipelines of a query after an acknowledgement of some sender's records. -/
def Query.ack (q : Query) (k : Nat) (x : XrCount) : Query := { q with pipes := q.pipes.set k ((q.pipe k).ack x) }

theorem sendXack_query? {s : State} {q : Query} {k : Nat} {x : XrCount} {n : Nat} {y : Query} (h : (s.sendXack q k x).query? n = some y) :
    ∃ w, s.query? n = some w ∧ y.pipes = if w.qid = q.qid then (w.ack k x).pipes else w.pipes := by
  unfold State.sendXack at h
  obtain ⟨v, hv, hvy⟩ := (mayAbandon.sendMsg ..).2.2.2 n y h
  rw [State.onPipe, query?_onQuery] at hv
  · obtain ⟨w, hw, rfl⟩ := Option.map_eq_some_iff.mp hv
    refine ⟨w, hw, hvy.trans ?_⟩
    split
    · rfl
    · rfl
  · exact fun _ => rfl

theorem sendXack_keeps (s : State) (q : Query) (k : Nat) (x : XrCount) :
    (s.sendXack q k x).mem = s.mem ∧ (s.sendXack q k x).queues = s.queues ∧ (s.sendXack q k x).keys = s.keys := by
  unfold State.sendXack
  dsimp only
  obtain ⟨⟨hq, hk, hm, -⟩, -⟩ := mayAbandon.sendMsg (s.onPipe q.qid k fun ps => ps.ack x) 0x14 28 (tid x.tile) agXchg (tid (x.pe / 16)) ⟨x.pe % 16, by omega⟩ q.ctx
    (leBytes 2 q.qid ++ leBytes 1 x.pe ++ leBytes 1 x.attempt ++ leBytes 4 x.morsel ++ leBytes 4 x.unacked)
  exact ⟨hm, hq, hk⟩

/-- What an acknowledgement leaves unacknowledged in a pipeline: records of other senders, or those of before but its own. -/
theorem ack_unacked {q : Query} {k j : Nat} {x z : XrCount} (hz : z ∈ ((q.ack k x).pipe j).xr) (hu : z.unacked ≠ 0) :
    z ∈ (q.pipe j).xr ∧ (j = k → z ≠ x) := by
  by_cases hjk : j = k
  · subst hjk
    by_cases hlt : j < q.pipes.length
    · have hpipe : (q.ack j x).pipe j = (q.pipe j).ack x := by simp [Query.pipe, Query.ack, hlt]
      rw [hpipe] at hz
      obtain ⟨y, hy, hyz⟩ := List.mem_map.mp hz
      split at hyz
      · rw [← hyz] at hu; exact absurd rfl hu
      next hne => subst hyz; exact ⟨hy, fun _ => hne⟩
    · have hpipe : (q.ack j x).pipe j = {} := by simp [Query.pipe, Query.ack, Nat.not_lt.mp hlt]
      rw [hpipe] at hz
      cases hz
  · have hpipe : (q.ack k x).pipe j = q.pipe j := by simp [Query.pipe, Query.ack, List.getElem?_set_ne (Ne.symm hjk)]
    rw [hpipe] at hz
    exact ⟨hz, fun h => absurd h hjk⟩

theorem pipe_congr {x y : Query} (h : y.pipes = x.pipes) (k : Nat) : y.pipe k = x.pipe k := by rw [Query.pipe, Query.pipe, h]

/-- After a list of acknowledgements what is unacknowledged was so before, and is not on the list. -/
theorem foldl_sendXack {q : Query} {n : Nat} (hn : q.qid = n) : ∀ {l : List (Nat × XrCount)} {s : State} {y : Query},
    (l.foldl (fun s e => s.sendXack q e.1 e.2) s).query? n = some y →
    ∃ w, s.query? n = some w ∧ ∀ k, ∀ z ∈ (y.pipe k).xr, z.unacked ≠ 0 → z ∈ (w.pipe k).xr ∧ (k, z) ∉ l
  | [], s, y, h => ⟨y, h, fun _ _ hz _ => ⟨hz, List.not_mem_nil⟩⟩
  | e :: l, s, y, h => by
    obtain ⟨v, hv, hrest⟩ := foldl_sendXack hn (l := l) h
    obtain ⟨w, hw, hvw⟩ := sendXack_query? hv
    rw [if_pos (by rw [query?_qid hw, hn])] at hvw
    refine ⟨w, hw, fun k z hz hu => ?_⟩
    obtain ⟨hzv, hzl⟩ := hrest k z hz hu
    rw [pipe_congr hvw] at hzv
    obtain ⟨hzw, hne⟩ := ack_unacked hzv hu
    exact ⟨hzw, fun hm => (List.mem_cons.mp hm).elim (fun he => hne (by rw [← he]) (by rw [← he])) hzl⟩

theorem foldl_sendXack_keeps (q : Query) (l : List (Nat × XrCount)) (s : State) :
    (l.foldl (fun s e => s.sendXack q e.1 e.2) s).mem = s.mem ∧ (l.foldl (fun s e => s.sendXack q e.1 e.2) s).queues = s.queues ∧
      (l.foldl (fun s e => s.sendXack q e.1 e.2) s).keys = s.keys :=
  List.foldlRecOn (motive := fun t : State => t.mem = s.mem ∧ t.queues = s.queues ∧ t.keys = s.keys) l (fun s e => s.sendXack q e.1 e.2)
    ⟨rfl, rfl, rfl⟩ fun t ht e _ => by
      obtain ⟨hm, hq, hk⟩ := sendXack_keeps t q e.1 e.2
      exact ⟨hm.trans ht.1, hq.trans ht.2.1, hk.trans ht.2.2⟩

theorem xackTimer_acks {s : State} {t : TileId} {qid : Nat} {pe : Gpe} {morsel attempt : Nat} {q : Query} (hq : s.query? qid = some q)
    (hl : s.live t = true) : ∃ s' : State, exec (.xackTimer t qid pe morsel attempt) s = .next s' ∧
      (∀ y, s'.query? qid = some y → ∀ k < q.pipes.length, ∀ x ∈ (y.pipe k).xr,
        x.tile = t.val → x.pe = pe.val → x.morsel = morsel → x.attempt = attempt → x.unacked = 0) ∧
      s'.mem = s.mem ∧ s'.queues = s.queues ∧ s'.keys = s.keys := by
  simp only [exec, execXackTimer]
  rw [hq]
  dsimp only
  rw [if_neg (by rw [hl]; decide)]
  refine ⟨_, rfl, fun y hy k hk x hx ht hp hm ha => ?_, foldl_sendXack_keeps ..⟩
  obtain ⟨w, hw, hrest⟩ := foldl_sendXack (query?_qid hq) hy
  have hwq : w = q := Option.some.inj (hw.symm.trans hq)
  subst hwq
  refine Decidable.by_contra fun hu => ?_
  obtain ⟨hxw, hno⟩ := hrest k x hx hu
  refine hno (List.mem_flatMap.mpr ⟨k, List.mem_range.mpr hk, List.mem_map.mpr ⟨x, List.mem_filter.mpr ⟨hxw, ?_⟩, rfl⟩⟩)
  simp only [ht, hp, hm, ha, beq_self_eq_true, Bool.true_and, decide_eq_true_eq]
  omega

/-! ### The deposit of a record -/

/-- A pipeline's new state stands with its query, and the bytes, queues and keys as they were. -/
theorem putPipe_spec (s : State) (q : Query) (k : Nat) (ps : PipeState) :
    (s.putPipe q k ps).queries = (s.onPipe q.qid k fun _ => ps).queries ∧ (s.putPipe q k ps).mem = s.mem ∧ (s.putPipe q k ps).queues = s.queues ∧
      (s.putPipe q k ps).keys = s.keys := by
  have hfresh (t : State) (x : Nat × Nat × Bool) : (t.freshPage q.qid k x.1 x.2.1 x.2.2).queries = t.queries ∧
      (t.freshPage q.qid k x.1 x.2.1 x.2.2).mem = t.mem ∧ (t.freshPage q.qid k x.1 x.2.1 x.2.2).queues = t.queues ∧
      (t.freshPage q.qid k x.1 x.2.1 x.2.2).keys = t.keys := by
    unfold State.freshPage
    split
    · exact ⟨rfl, rfl, rfl, rfl⟩
    · exact ⟨rfl, rfl, rfl, rfl⟩
  unfold State.putPipe
  dsimp only
  generalize List.filter _ _ = l
  refine List.foldlRecOn (motive := fun t : State => t.queries = (s.onPipe q.qid k fun _ => ps).queries ∧ t.mem = s.mem ∧ t.queues = s.queues ∧
    t.keys = s.keys) l (fun s x => s.freshPage q.qid k x.1 x.2.1 x.2.2) ⟨rfl, rfl, rfl, rfl⟩ fun t ht x _ => ?_
  obtain ⟨h1, h2, h3, h4⟩ := hfresh t x
  exact ⟨h1.trans ht.1, h2.trans ht.2.1, h3.trans ht.2.2.1, h4.trans ht.2.2.2⟩

/-- The query of a pipeline that was put has that pipeline. -/
theorem putPipe_pipe {s : State} {q : Query} {k qid : Nat} {ps : PipeState} (hq : s.query? qid = some q) :
    (s.putPipe q k ps).query? qid = some { q with pipes := q.pipes.set k ps } := by
  rw [State.query?, (putPipe_spec s q k ps).1, ← State.query?, State.onPipe, query?_onQuery, hq, Option.map_some]
  · exact congrArg some (if_pos rfl)
  · exact fun _ => rfl

theorem pipe_set {q : Query} {k : Nat} (ps : PipeState) (hk : k < q.pipes.length) : ({ q with pipes := q.pipes.set k ps } : Query).pipe k = ps := by
  simp [Query.pipe, hk]

/-- A record that finds its place stands in its partition. -/
theorem depositRec_parts {s : State} {h : MsgHdr} {qid k part : Nat} {rec : List Byte} {q : Query} {ps : PipeState} (hq : s.query? qid = some q)
    (hf : q.failing = false) (hk : k < q.pipes.length) (hx : (q.img.pipes.getD k default).sink.kind = kExchange)
    (hb : bit (q.masks.getD k 0) h.dstTile.val = true)
    (hd : (q.pipe k).deposit (q.img.pipes.getD k default).sink h.dstTile.val part (cut rec 0 (field rec 14 2)) = some ps) :
    (∀ y, (depositRec h qid k part rec s).query? qid = some y → (y.pipe k).parts = ps.parts) ∧ (depositRec h qid k part rec s).mem = s.mem ∧
      (depositRec h qid k part rec s).queues = s.queues ∧ (depositRec h qid k part rec s).keys = s.keys := by
  obtain ⟨-, hm, hqs, hks⟩ := putPipe_spec s q k ps
  have hput := putPipe_pipe (k := k) (ps := ps) hq
  have hput' (y : Query) (hy : (s.putPipe q k ps).query? qid = some y) : (y.pipe k).parts = ps.parts := by
    cases hput.symm.trans hy
    rw [pipe_set ps hk]
  unfold depositRec
  rw [hq]
  dsimp only
  rw [hf, if_neg (by rw [hx, hb]; decide), hd]
  dsimp only
  split
  · split
    next x _ _ =>
      obtain ⟨hm', hqs', hks'⟩ := sendXack_keeps (s.putPipe q k ps) q k x
      refine ⟨fun y hy => ?_, hm'.trans hm, hqs'.trans hqs, hks'.trans hks⟩
      obtain ⟨w, hw, hyw⟩ := sendXack_query? hy
      cases hput.symm.trans hw
      rw [if_pos rfl] at hyw
      have hlen : k < ({ q with pipes := q.pipes.set k ps } : Query).pipes.length := by simpa using hk
      have hack := pipe_set (({ q with pipes := q.pipes.set k ps } : Query).pipe k |>.ack x) hlen
      rw [pipe_congr hyw]
      refine (congrArg PipeState.parts hack).trans ?_
      rw [pipe_set ps hk]
      rfl
    · exact ⟨hput', hm, hqs, hks⟩
  · exact ⟨hput', hm, hqs, hks⟩

/-! ### Acknowledgements and tallies at the sender -/

theorem runOf?_run {s : State} {qid : Nat} {pe : Gpe} {morsel attempt : Nat} {r : Run} (h : s.runOf? qid pe morsel attempt = some r) : s.run? pe = some r :=
  (Option.filter_eq_some_iff.mp h).1

theorem told.askTallies (s : State) (pe : Gpe) (r : Run) (e : QEnv) : told s (s.askTallies pe r e) := by
  unfold State.askTallies
  split
  · exact .foldl (fun s t => (told.of_wired (.emit s _)).trans (sendMsg_told (by decide) (by decide) ..)) _ s
  · exact .refl s

/-- Settles O37: a record goes to its partition, its counts to its sender, and the counts that are asked for to the one who asks. -/
theorem exchangeRecordsAreCounted : Obligations.ExchangeRecordsAreCounted := by
  unfold Obligations.ExchangeRecordsAreCounted
  refine ⟨fun s h qid pipe part rec q ps hs hq hf hk => ?_, fun s h qid pe attempt morsel count q r hl hst hq hr => ?_,
    fun s t qid pe morsel attempt q hq hl => xackTimer_acks hq hl, fun s h qid pe attempt morsel q r hq hr hl hst => ?_,
    fun s h qid pe attempt morsel cnt x r hr hl hst => ?_⟩
  · intro p hx hb hd
    have hexec : exec (.xrec h qid pipe part rec) s = .next (depositRec h qid pipe.val part rec s) := by
      simp only [exec, execXrec]
      rw [arrive_served hs]
    exact ⟨_, hexec, depositRec_parts hq hf hk hx hb hd⟩
  · intro old
    have hexec : exec (.xack h qid pe attempt morsel count) s = .next (ackEff h qid pe attempt morsel count s) := by
      simp only [exec, execXack]
      rw [if_neg (by rw [hl]; decide), if_neg (by rw [hst]; decide)]
    refine ⟨_, hexec, ?_⟩
    unfold ackEff
    rw [hq, hr]
    dsimp only
    have htold := told.askTallies (s.setRun pe (some { r with acked := (r.acked.filter fun a => decide (a.1 ≠ h.srcTile.val)) ++ [(h.srcTile.val, old + count)] })) pe
      { r with acked := (r.acked.filter fun a => decide (a.1 ≠ h.srcTile.val)) ++ [(h.srcTile.val, old + count)] } (q.env r.pipe (gpeTile pe).val r.at_)
    have hrun := (scheduled.of_messaged (.of_told htold)).run?
    refine ⟨(hrun pe).trans (run?_setRun ..), fun p hp => (hrun p).trans (run?_setRun_ne s _ hp), ?_⟩
    rw [htold.2.1]
    rfl
  · intro x
    simp only [exec, execXtallyReq]
    rw [hq, hr]
    dsimp only
    rw [if_neg (by rw [hl, hst]; decide)]
    have htold := sendMsg_told (mtype := 0x32) (by decide) (by decide) s 40 h.dstTile agXchg h.srcTile h.srcAgent (ctxOf h)
      (leBytes 2 qid ++ leBytes 1 pe.val ++ leBytes 1 attempt ++ leBytes 4 morsel ++ leBytes 8 x.1 ++ leBytes 8 x.2.toNat)
    obtain ⟨⟨more, hmore⟩, hframe, -⟩ := htold
    refine ⟨_, sentHdr 0x32 40 h.dstTile agXchg h.srcTile h.srcAgent (ctxOf h), more, rfl, rfl, ?_, ?_⟩
    · refine hmore.trans ?_
      rw [cut_zero_of_length (by simp), State.emit, List.append_assoc]
      rfl
    · rw [hframe]; rfl
  · simp only [exec, execXchgTally]
    rw [hr]
    dsimp only
    rw [if_neg (by rw [hl, hst]; decide), State.onRun, runOf?_run hr]
    rfl

end Sys2Proof.Machine
end

section
/-!
Changes under Cinch: what requires one, its start, and a tile's answers and pulse (R36, R37, R40, R44, R47, R484).
-/
namespace Sys2Proof.Machine

/-! ### One tile of many -/

/-- From `s` to `u` only tile `t` has changed. -/
def onlyTile (t : TileId) (s u : State) : Prop := u = { s with tiles := u.tiles } ∧ ∀ v, v ≠ t → u.tile v = s.tile v

theorem onlyTile.refl (t : TileId) (s : State) : onlyTile t s s := ⟨rfl, fun _ _ => rfl⟩

theorem onlyTile.trans {t : TileId} {s u v : State} (h : onlyTile t s u) (h' : onlyTile t u v) : onlyTile t s v :=
  ⟨by rw [h'.1, h.1], fun w hw => (h'.2 w hw).trans (h.2 w hw)⟩

theorem onlyTile.onTile (s : State) (t : TileId) (f : Tile → Tile) : onlyTile t s (s.onTile t f) :=
  ⟨rfl, fun _ hv => State.onTile_tile_ne _ hv _⟩

theorem onlyTile.masterTile {t : TileId} {s u : State} (h : onlyTile t s u) : u.masterTile = s.masterTile := by rw [h.1]; rfl

/-- A message that a tile records stands in its history alone. -/
theorem noteCinch_tile (s : State) (t : TileId) (op change arg epoch : Nat) :
    (s.noteCinch t op change arg epoch).tile t = { s.tile t with history := ringPush 64 (s.tile t).history (cinchTag change arg epoch op) } :=
  State.onTile_tile ..

theorem onlyTile.noteCinch (s : State) (t : TileId) (op change arg epoch : Nat) : onlyTile t s (s.noteCinch t op change arg epoch) := .onTile ..

/-! ### A mode request, and the start of a change -/

theorem devModeReqWrite_runs {s : State} (m : Fin 16) (h : s.dev.mode.devWritable = true) :
    exec (.devModeReqWrite m) s = .next (s.modeRequest m.val) := by
  simp only [exec, execDevModeReqWrite]
  rw [if_pos h]

theorem modeRequest_busy {s : State} (n : Nat) (h : s.dev.phase ≠ .idle ∨ s.dev.change ≠ none ∨ s.dev.activation ≠ none) :
    s.modeRequest n = { s with dev := { s.dev with rrej := true } } := by
  unfold State.modeRequest
  split
  · exact if_pos h
  · rfl

theorem modeRequest_none {s : State} {n : Nat} (h : reqTarget s.dev.mode n = none) : s.modeRequest n = { s with dev := { s.dev with rrej := true } } := by
  unfold State.modeRequest
  rw [h]

theorem modeRequest_requires {s : State} {n target : Nat} {drain : Option Mode} (h : reqTarget s.dev.mode n = some (target, drain))
    (hp : s.dev.phase = .idle) (hc : s.dev.change = none) (ha : s.dev.activation = none) (hd : s.dev.mode ≠ .dusk) :
    s.modeRequest n = { s with dev := { s.dev with
      drainTo := drain, waiting := s.dev.waiting ++ [{ code := 1, arg := target, origin := .modeReq }] } } := by
  unfold State.modeRequest
  rw [h]
  dsimp only
  rw [if_neg (by simp [hp, hc, ha]), if_neg hd, if_neg hd]
  rfl

/-- The device in which a change has begun. -/
def State.changeBegun (s : State) (c : Change) (rest : List Change) : State :=
  { s with dev := { s.dev with
    waiting := rest, change := some c, epoch := (s.dev.epoch + 1) % 65536, phase := .prepare, ready := 0, resends := 0, reports := []
    target := s.targetOf c, applied := s.dev.fenced &&& s.presentMask } }

/-- What the master sends to a list of tiles stands in its history and goes out. -/
theorem cinchTo_spec (s : State) (us : List TileId) (op change arg reason : Nat) :
    ∃ u : State, onlyTile s.masterTile s u ∧ s.cinchTo us op change arg reason =
      { u with out := s.out ++ us.map fun v => Out.cinch s.masterTile.val v.val op change arg reason s.dev.epoch 0 } := by
  have hnotes := List.foldlRecOn (motive := fun u : State => onlyTile s.masterTile s u) us
    (fun u _ => u.noteCinch s.masterTile op change arg u.dev.epoch) (.refl _ s) fun u hu _ _ => hu.trans (.noteCinch ..)
  refine ⟨_, hnotes, ?_⟩
  unfold State.cinchTo
  dsimp only
  generalize us.foldl (fun u _ => u.noteCinch s.masterTile op change arg u.dev.epoch) s = u at hnotes
  have hout : u.out = s.out := by rw [hnotes.1]
  rw [State.emitAll, hout]

theorem cinchChangeStart_begins {s : State} {c : Change} {rest : List Change} (hw : s.dev.waiting = c :: rest) (hp : s.dev.phase = .idle)
    (hc : s.dev.change = none) (h1 : s.dev.mode ≠ .cold) (h2 : s.dev.mode ≠ .halt) (h3 : s.dev.mode ≠ .test) (hs : s.stale c = false) :
    exec .cinchChangeStart s = .next (((s.changeBegun c rest).cinchToAll 0x01 c.code c.arg 0).onTile
      ((s.changeBegun c rest).cinchToAll 0x01 c.code c.arg 0).masterTile
      fun x => { x with prepared := some (c.code, c.arg, (s.dev.epoch + 1) % 65536), answered := false }) := by
  simp only [exec, execCinchChangeStart]
  unfold cinchChangeStartEff
  rw [hw]
  dsimp only
  rw [if_neg (by simp [hp, hc, h1, h2, h3]), if_neg (by rw [hs]; decide)]
  rfl

theorem changeStart_spec {s : State} {c : Change} {rest : List Change} (hw : s.dev.waiting = c :: rest) (hp : s.dev.phase = .idle)
    (hc : s.dev.change = none) (h1 : s.dev.mode ≠ .cold) (h2 : s.dev.mode ≠ .halt) (h3 : s.dev.mode ≠ .test) (hs : s.stale c = false) :
    let ep := (s.dev.epoch + 1) % 65536
    ∃ t : State, exec .cinchChangeStart s = .next t ∧ t.dev.phase = .prepare ∧ t.dev.change = some c ∧ t.dev.epoch = ep ∧ t.dev.waiting = rest ∧
      t.dev.ready = 0 ∧ t.dev.mode = s.dev.mode ∧ t.dev.target = s.targetOf c ∧ t.dev.applied = s.dev.fenced &&& s.presentMask ∧
      (t.tile s.masterTile).prepared = some (c.code, c.arg, ep) ∧
      t.out = s.out ++ (s.liveTiles.filter fun u => decide (u ≠ s.masterTile)).map
        (fun u => .cinch s.masterTile.val u.val 0x01 c.code c.arg 0 ep 0) ∧
      (∀ u, u ≠ s.masterTile → t.tile u = s.tile u) ∧ t = { s with dev := t.dev, tiles := t.tiles, out := t.out } := by
  intro ep
  refine ⟨_, cinchChangeStart_begins hw hp hc h1 h2 h3 hs, ?_⟩
  obtain ⟨u, hu, hsent⟩ := cinchTo_spec (s.changeBegun c rest) (s.liveTiles.filter fun u => decide (u ≠ s.masterTile)) 0x01 c.code c.arg 0
  have hall : (s.changeBegun c rest).cinchToAll 0x01 c.code c.arg 0 =
      (s.changeBegun c rest).cinchTo (s.liveTiles.filter fun u => decide (u ≠ s.masterTile)) 0x01 c.code c.arg 0 := rfl
  rw [hall, hsent]
  have hdev : u.dev = (s.changeBegun c rest).dev := by rw [hu.1]
  have hm : ({ u with out := (s.changeBegun c rest).out ++ (s.liveTiles.filter fun u => decide (u ≠ s.masterTile)).map (fun v =>
      Out.cinch (s.changeBegun c rest).masterTile.val v.val 0x01 c.code c.arg 0 (s.changeBegun c rest).dev.epoch 0) } : State).masterTile =
      s.masterTile := hu.masterTile
  rw [hm]
  obtain ⟨huf, hut⟩ := hu
  refine ⟨?_, ?_, ?_, ?_, ?_, ?_, ?_, ?_, ?_, rfl, fun v hv => ?_, ?_⟩
  case refine_9 => rw [State.onTile_tile]
  case refine_10 => rw [State.onTile_tile_ne _ hv]; exact hut v hv
  case refine_11 => rw [huf]; rfl
  all_goals exact (congrArg _ hdev).trans rfl

/-! ### Answers at the safe point -/

theorem safePoint_ready {s : State} {t : TileId} {seen : SafeSeen} {p : Nat × Nat × Nat} (hp : (s.tile t).prepared = some p)
    (ha : (s.tile t).answered = false) (hc : s.cinchable t = true) (hm : t ≠ s.masterTile) (hr : s.refusal t p seen = none) :
    ∃ s' : State, exec (.cinchSafePoint t seen) s = .next s' ∧ (s'.tile t).answered = true ∧
      (s'.tile t).prepared = some p ∧ (s'.tile t).lastEpoch = p.2.2 ∧ ((s'.tile t).heldGroup = if p.1 = 2 then some p.2.1 else none) ∧
      s'.out = s.out ++ [toMaster s t 0x02 p.1 p.2.1 0 p.2.2 0] ∧ s' = { s with tiles := s'.tiles, out := s'.out } := by
  have hexec : exec (.cinchSafePoint t seen) s = .next (((s.onTile t fun x => { x with
      lastEpoch := p.2.2, answered := true, heldGroup := if p.1 = 2 then some p.2.1 else none }).noteCinch t 0x02 p.1 p.2.1 p.2.2).emit
        (toMaster s t 0x02 p.1 p.2.1 0 p.2.2 0)) := by
    simp only [exec, execCinchSafePoint]
    unfold cinchSafePointEff
    rw [hp]
    dsimp only
    rw [if_neg (by simp [ha, hc]), hr]
    dsimp only
    rw [if_neg hm]
    rfl
  refine ⟨_, hexec, ?_⟩
  have htile : (((s.onTile t fun x => { x with
      lastEpoch := p.2.2, answered := true, heldGroup := if p.1 = 2 then some p.2.1 else none }).noteCinch t 0x02 p.1 p.2.1 p.2.2).emit
        (toMaster s t 0x02 p.1 p.2.1 0 p.2.2 0)).tile t = { s.tile t with
      lastEpoch := p.2.2, answered := true, heldGroup := if p.1 = 2 then some p.2.1 else none
      history := ringPush 64 (s.tile t).history (cinchTag p.1 p.2.1 p.2.2 0x02) } := by
    show (State.noteCinch _ t 0x02 p.1 p.2.1 p.2.2).tile t = _
    rw [noteCinch_tile, State.onTile_tile]
  rw [htile]
  exact ⟨rfl, hp, rfl, rfl, rfl, rfl⟩

theorem safePoint_refuse {s : State} {t : TileId} {seen : SafeSeen} {p : Nat × Nat × Nat} {r : Nat} (hp : (s.tile t).prepared = some p)
    (ha : (s.tile t).answered = false) (hc : s.cinchable t = true) (hm : t ≠ s.masterTile) (hr : s.refusal t p seen = some r) :
    ∃ s' : State, exec (.cinchSafePoint t seen) s = .next s' ∧ (s'.tile t).lastEpoch = p.2.2 ∧
      s'.out = s.out ++ [toMaster s t 0x03 p.1 p.2.1 r p.2.2 0] ∧ s' = { s with tiles := s'.tiles, out := s'.out } := by
  have hexec : exec (.cinchSafePoint t seen) s = .next (((s.onTile t fun x => { x with lastEpoch := p.2.2, answered := true }).noteCinch
      t 0x03 p.1 p.2.1 p.2.2).emit (toMaster s t 0x03 p.1 p.2.1 r p.2.2 0)) := by
    simp only [exec, execCinchSafePoint]
    unfold cinchSafePointEff
    rw [hp]
    dsimp only
    rw [if_neg (by simp [ha, hc]), hr]
    dsimp only
    rw [if_neg hm]
    rfl
  refine ⟨_, hexec, ?_, rfl, rfl⟩
  show ((State.noteCinch _ t 0x03 p.1 p.2.1 p.2.2).tile t).lastEpoch = _
  rw [noteCinch_tile, State.onTile_tile]

/-! ### The pulse (R40 step 4, R46) -/

/-- A strobe changes its tile alone, and not the count of strobes. -/
theorem strobe_spec (s : State) (t : TileId) (g : Nat) : onlyTile t s (s.strobe t g) ∧ ((s.strobe t g).tile t).strobeSeq = (s.tile t).strobeSeq := by
  have hset (u : State) (f : Tile → Tile) (hf : ∀ x, (f x).strobeSeq = x.strobeSeq) :
      onlyTile t u (u.onTile t f) ∧ ((u.onTile t f).tile t).strobeSeq = (u.tile t).strobeSeq := ⟨.onTile .., by rw [State.onTile_tile]; exact hf _⟩
  have hblock (u : State) (k : Nat) : onlyTile t u (u.applyBlock t k) ∧ ((u.applyBlock t k).tile t).strobeSeq = (u.tile t).strobeSeq := by
    unfold State.applyBlock
    split
    · exact hset u _ fun _ => rfl
    · exact hset u _ fun _ => rfl
    · exact ⟨.refl t u, rfl⟩
  unfold State.strobe
  refine List.foldlRecOn (motive := fun u : State => onlyTile t s u ∧ (u.tile t).strobeSeq = (s.tile t).strobeSeq) tileBlocks _ ⟨.refl t s, rfl⟩
    fun u hu b _ => ?_
  have hnext {v : State} (hv : onlyTile t u v ∧ (v.tile t).strobeSeq = (u.tile t).strobeSeq) :
      onlyTile t s v ∧ (v.tile t).strobeSeq = (s.tile t).strobeSeq := ⟨hu.1.trans hv.1, hv.2.trans hu.2⟩
  split
  · exact hu
  · split
    · exact hu
    · split
      · exact hnext (hblock u _)
      · exact hnext (hset u _ fun _ => rfl)
      · exact hu

/-- What a change does on a tile that is not the master. -/
theorem applyOn_spec {s : State} {t : TileId} (change arg : Nat) (hm : t ≠ s.masterTile) : onlyTile t s (s.applyOn t change arg) ∧
    (change = 1 → ((s.applyOn t change arg).tile t).mode = s.changeMode arg) ∧
    (change = 2 → ((s.applyOn t change arg).tile t).strobeSeq = ((s.tile t).strobeSeq + 1) % 2 ^ 32) ∧
    (change = 3 → ((s.applyOn t change arg).tile t).sched.profile = arg) := by
  unfold State.applyOn
  split
  next =>
    dsimp only
    have hm' : ¬t = (s.onTile t fun x => { x with mode := s.changeMode arg }).masterTile := hm
    rw [if_neg hm']
    exact ⟨.onTile .., fun _ => by rw [State.onTile_tile], fun h => absurd h (by decide), fun h => absurd h (by decide)⟩
  next =>
    obtain ⟨honly, hseq⟩ := strobe_spec s t arg
    refine ⟨honly.trans (.onTile ..), fun h => absurd h (by decide), fun _ => ?_, fun h => absurd h (by decide)⟩
    rw [State.onTile_tile, ← hseq]
  next =>
    exact ⟨.onTile .., fun h => absurd h (by decide), fun h => absurd h (by decide), fun _ => by rw [State.onTile_tile]⟩
  next h1 h2 h3 => exact ⟨.refl t s, fun h => absurd h h1, fun h => absurd h h2, fun h => absurd h h3⟩

/-- A tile other than the master applies what it has prepared and answers APPLIED. -/
theorem apply_applied {s : State} {t : TileId} (p : Nat × Nat × Nat) (hm : t ≠ s.masterTile) :
    appliedOn s (s.apply t p) t p ∧ s.apply t p = { s with tiles := (s.apply t p).tiles, out := (s.apply t p).out } := by
  obtain ⟨honly, hmode, hseq, hprof⟩ := applyOn_spec p.1 p.2.1 hm
  unfold State.apply
  dsimp only
  generalize s.applyOn t p.1 p.2.1 = u at *
  generalize hv : (u.onTile t fun x => { x with prepared := none, answered := false, taken := some (p.1, p.2.2), heldGroup := none }) = v
  have hvt : v.tile t = { u.tile t with prepared := none, answered := false, taken := some (p.1, p.2.2), heldGroup := none } := by
    rw [← hv, State.onTile_tile]
  have hvo : onlyTile t s v := by rw [← hv]; exact honly.trans (.onTile ..)
  have hnote := onlyTile.noteCinch v t 0x05 p.1 p.2.1 p.2.2
  have hnt := noteCinch_tile v t 0x05 p.1 p.2.1 p.2.2
  generalize v.noteCinch t 0x05 p.1 p.2.1 p.2.2 = w at *
  have hwo := hvo.trans hnote
  have hmw : ¬t = w.masterTile := by rw [hwo.masterTile]; exact hm
  rw [if_neg hmw]
  have hwt : (w.emit (.cinch t.val w.masterTile.val 0x05 p.1 p.2.1 0 p.2.2 (v.tile t).strobeSeq)).tile t = w.tile t := rfl
  refine ⟨⟨?_, ?_, ?_, fun h => ?_, fun h => ?_, fun h => ?_, ?_, fun x hx => hwo.2 x hx⟩, ?_⟩
  · rw [hwt, hnt, hvt]
  · rw [hwt, hnt, hvt]
  · rw [hwt, hnt, hvt]
  · rw [hwt, hnt, hvt]; exact hmode h
  · rw [hwt, hnt, hvt]; exact hseq h
  · rw [hwt, hnt, hvt]; exact hprof h
  · rw [hwt, hnt]
    show w.out ++ [_] = _
    rw [hwo.masterTile, show w.out = s.out by rw [hwo.1]]
    rfl
  · rw [hwo.1]; rfl

theorem noteCinch_changeMode (s : State) (t : TileId) (op change arg epoch a : Nat) :
    (s.noteCinch t op change arg epoch).changeMode a = s.changeMode a := by
  have herr (u : TileId) : ((s.noteCinch t op change arg epoch).tile u).err = (s.tile u).err :=
    onTile_rel (P := fun a b => b.err = a.err) (fun _ => rfl) s t _ rfl u
  have hdev : (s.noteCinch t op change arg epoch).dev = s.dev := rfl
  have hpres : (s.noteCinch t op change arg epoch).presentTiles = s.presentTiles := rfl
  have hany : (s.noteCinch t op change arg epoch).anyFence = s.anyFence := by simp only [State.anyFence, herr, hdev, hpres]
  rw [State.changeMode, State.changeMode, State.modeTarget, State.modeTarget, State.serviceMode, State.serviceMode, hany, hdev]

/-- What was recorded before the pulse bears on none of it. -/
theorem appliedOn_of_noteCinch {s u : State} {t : TileId} {p : Nat × Nat × Nat} {op change arg epoch : Nat}
    (h : appliedOn (s.noteCinch t op change arg epoch) u t p) : appliedOn s u t p := by
  obtain ⟨h1, h2, h3, h4, h5, h6, h7, h8⟩ := h
  rw [noteCinch_tile] at h5
  rw [noteCinch_changeMode] at h4
  exact ⟨h1, h2, h3, h4, h5, h6, h7, fun v hv => (h8 v hv).trans ((onlyTile.noteCinch s t op change arg epoch).2 v hv)⟩

theorem cinchPulse_applies {s : State} {t : TileId} {p : Nat × Nat × Nat} (hp : (s.tile t).prepared = some p) (ha : (s.tile t).answered = true)
    (hc : s.cinchable t = true) (hm : t ≠ s.masterTile) :
    ∃ s' : State, exec (.cinchPulse t p.2.2) s = .next s' ∧ appliedOn s s' t p ∧ s' = { s with tiles := s'.tiles, out := s'.out } := by
  have happ : (s.tile t).applicable = some p := by rw [Tile.applicable, ha, if_pos rfl, hp]
  have hexec : exec (.cinchPulse t p.2.2) s = .next ((s.noteCinch t 0x04 p.1 p.2.1 p.2.2).apply t p) := by
    simp only [exec, execCinchPulse]
    rw [happ]
    exact congrArg _ (if_pos ⟨rfl, hc⟩)
  obtain ⟨happl, hframe⟩ := apply_applied (s := s.noteCinch t 0x04 p.1 p.2.1 p.2.2) p hm
  refine ⟨_, hexec, appliedOn_of_noteCinch happl, ?_⟩
  rw [hframe]
  rfl

theorem cinchWirePulse_runs {s : State} {t : TileId} {ns : Nat} (hc : s.cinchable t = true) (h1 : 100 ≤ ns) (h2 : ns ≤ 1000) :
    exec (.cinchWirePulse t ns) s = .next ((s.tile t).applicable.elim
      (s.bump.onTile t fun x => { x with spurious := min 255 (x.spurious + 1) }) fun p => s.bump.apply t p) := by
  have hreads : s.readsPulse ns = true := if_pos ⟨h1, h2⟩
  simp only [exec, execCinchWirePulse]
  rw [hreads]
  refine congrArg _ ((if_pos ⟨rfl, hc⟩).trans ?_)
  have hb : s.bump.tile t = s.tile t := rfl
  rw [hb]
  cases (s.tile t).applicable with
  | none => rfl
  | some p => rfl

/-- Settles O50: the master starts what waits, and a tile answers and applies what it has prepared. -/
theorem changesStartAndAreAnswered : Obligations.ChangesStartAndAreAnswered := by
  unfold Obligations.ChangesStartAndAreAnswered
  refine ⟨fun s m h => ⟨fun hn => ?_, fun hb => ?_, fun target drain ht hp hc ha hd => ?_⟩,
    fun s c rest hw hp hc h1 h2 h3 hs => changeStart_spec hw hp hc h1 h2 h3 hs, fun s t change arg epoch hc => ?_,
    fun s t seen p hp ha hc hm => ⟨safePoint_ready hp ha hc hm, fun r hr => safePoint_refuse hp ha hc hm hr⟩,
    fun s t p ns hp ha hc hm h1 h2 => ⟨cinchPulse_applies hp ha hc hm, ?_⟩, fun s t ns hc hp h1 h2 => ?_⟩
  · rw [devModeReqWrite_runs m h, modeRequest_none hn]
  · rw [devModeReqWrite_runs m h, modeRequest_busy m.val hb]
  · rw [devModeReqWrite_runs m h, modeRequest_requires ht hp hc ha hd]
  · have hexec : exec (.cinchPrepare t change arg epoch) s = .next ((s.noteCinch t 0x01 change arg epoch).onTile t fun x =>
        { x with prepared := some (change % 256, arg % 256, epoch % 65536), answered := false }) := by
      simp only [exec, execCinchPrepare]
      rw [if_pos hc]
    obtain ⟨hframe, hother⟩ := (onlyTile.noteCinch s t 0x01 change arg epoch).trans
      (.onTile _ t fun x => { x with prepared := some (change % 256, arg % 256, epoch % 65536), answered := false })
    exact ⟨_, hexec, by rw [State.onTile_tile], by rw [State.onTile_tile], hother, hframe⟩
  · have happ : (s.tile t).applicable = some p := by rw [Tile.applicable, ha, if_pos rfl, hp]
    have hexec := cinchWirePulse_runs hc h1 h2
    rw [happ] at hexec
    obtain ⟨happl, hframe⟩ := apply_applied (s := s.bump) p hm
    refine ⟨_, hexec, happl, ?_⟩
    show s.bump.apply t p = _
    rw [hframe]
    rfl
  · have happ : (s.tile t).applicable = none := by rw [Tile.applicable, hp, ite_self]
    rw [cinchWirePulse_runs hc h1 h2, happ]
    rfl

end Sys2Proof.Machine
end

section
/-!
Power domains: what a settling of votes leaves of a domain, and that the loss of contents, of commands and of units leaves each domain's
count of failed wakes and its failure (R366, R368, R379).
-/
namespace Sys2Proof.Machine

/-! ### The domains of a tile -/

/-- Two domains differ in their votes at most. -/
def butVotes (y z : Dom) : Prop := z = { y with votes := z.votes }

theorem butVotes.trans {x y z : Dom} (h : butVotes x y) (h' : butVotes y z) : butVotes x z := by
  unfold butVotes at *
  rw [h', h]

theorem Tile.onDom_dom (x : Tile) (d : DomId) (f : Dom → Dom) : (x.onDom d f).dom d = f (x.dom d) := by
  simp [Tile.onDom, Tile.dom]

theorem Tile.onDom_dom_ne (x : Tile) {d e : DomId} (h : e ≠ d) (f : Dom → Dom) : (x.onDom d f).dom e = x.dom e :=
  Vector.getElem_set_ne d.isLt e.isLt fun hv => h (Fin.ext hv.symm)

/-- Votes cast on every domain of a tile. -/
theorem Tile.castAll_dom (x : Tile) (n : Nat) (v : Fin 56 → Nat) (d : DomId) :
    ({ x with doms := vecOf fun d : Fin 56 => (x.dom d).vote n (v d) } : Tile).dom d = (x.dom d).vote n (v d) :=
  vecOf_get _ d

theorem depPass_dom (x : Tile) (d : DomId) : butVotes (x.dom d) (x.depPass.dom d) := by
  unfold Tile.depPass
  rw [Tile.castAll_dom]
  rfl

theorem settle_dom (x : Tile) (d : DomId) : butVotes (x.dom d) (x.settle.dom d) :=
  ((depPass_dom x d).trans (depPass_dom _ d)).trans (depPass_dom _ d)

/-- An update of one domain, with the votes settled. -/
theorem onDom_settle_dom (x : Tile) (d : DomId) (f : Dom → Dom) : butVotes (f (x.dom d)) ((x.onDom d f).settle.dom d) := by
  have h := settle_dom (x.onDom d f) d
  rwa [Tile.onDom_dom] at h

theorem onDom_settle_dom_ne (x : Tile) {d e : DomId} (h : e ≠ d) (f : Dom → Dom) : butVotes (x.dom e) ((x.onDom d f).settle.dom e) := by
  have h' := settle_dom (x.onDom d f) e
  rwa [Tile.onDom_dom_ne x h] at h'

/-! ### The count of failed wakes -/

/-- From `s` to `t` no domain has failed a wake more or less, and none has failed for good or come back. -/
structure wakesKept (s t : State) : Prop where
  kept : ∀ u d, (t.dom u d).tries = (s.dom u d).tries ∧ (t.dom u d).wakeFail = (s.dom u d).wakeFail

theorem wakesKept.of_doms {s t : State} (h : ∀ u, (t.tile u).doms = (s.tile u).doms) : wakesKept s t :=
  ⟨fun u d => by
    rw [State.dom, State.dom, Tile.dom, Tile.dom, h u]
    exact ⟨rfl, rfl⟩⟩

theorem wakesKept.refl (s : State) : wakesKept s s := ⟨fun _ _ => ⟨rfl, rfl⟩⟩

theorem wakesKept.trans {s t u : State} (h : wakesKept s t) (h' : wakesKept t u) : wakesKept s u :=
  ⟨fun v d => ⟨(h'.kept v d).1.trans (h.kept v d).1, (h'.kept v d).2.trans (h.kept v d).2⟩⟩

theorem wakesKept.foldl {α : Type} {f : State → α → State} (h : ∀ s a, wakesKept s (f s a)) (l : List α) (s : State) :
    wakesKept s (l.foldl f s) :=
  List.foldlRecOn (motive := fun t : State => wakesKept s t) l f (.refl s) fun t ht a _ => ht.trans (h t a)

theorem wakesKept.onTile (s : State) (t : TileId) (f : Tile → Tile) (hf : ∀ x, (f x).doms = x.doms) : wakesKept s (s.onTile t f) :=
  .of_doms (onTile_rel (P := fun a b => b.doms = a.doms) (fun _ => rfl) s t f (hf _))

/-- An update of the domains of a tile that changes votes, states and phases only. -/
theorem wakesKept.onDoms (s : State) (t : TileId) (f : Tile → Tile)
    (hf : ∀ x d, ((f x).dom d).tries = (x.dom d).tries ∧ ((f x).dom d).wakeFail = (x.dom d).wakeFail) : wakesKept s (s.onTile t f) :=
  ⟨onTile_rel (P := fun a b => ∀ d, (b.dom d).tries = (a.dom d).tries ∧ (b.dom d).wakeFail = (a.dom d).wakeFail)
    (fun _ _ => ⟨rfl, rfl⟩) s t f (hf _)⟩

theorem butVotes.wakes {y z : Dom} (h : butVotes y z) : z.tries = y.tries ∧ z.wakeFail = y.wakeFail := by
  rw [h]
  exact ⟨rfl, rfl⟩

theorem wakesKept.castVote (s : State) (t : TileId) (d : DomId) (voter v : Nat) : wakesKept s (s.castVote t d voter v) := by
  unfold State.castVote
  split
  · exact .refl s
  · refine .onDoms s t _ fun x e => ?_
    by_cases he : e = d
    · subst he
      exact (onDom_settle_dom x e _).wakes
    · exact (onDom_settle_dom_ne x he _).wakes

theorem wakesKept.revote (s : State) (t : TileId) : wakesKept s (s.revote t) := by
  unfold State.revote
  refine .onDoms s t _ fun x d => ?_
  have h := settle_dom { x with
    doms := vecOf fun d : Fin 56 => (x.dom d).vote 1 (s.fwVote s.dev.mode t d.val ((x.dom d).votes.getD 1 0)) } d
  rw [Tile.castAll_dom] at h
  exact h.wakes

theorem wakesKept.revoteAll (s : State) : wakesKept s s.revoteAll := .foldl .revote _ s

theorem wakesKept.onSlc (s : State) (n : Nat) (f : Slice → Slice) : wakesKept s (s.onSlc n f) := .of_doms fun _ => rfl

theorem wakesKept.onQuery (s : State) (n : Nat) (f : Query → Query) : wakesKept s (s.onQuery n f) := .of_doms fun _ => rfl

theorem wakesKept.onDigest (s : State) (t : TileId) (f : Digest → Digest) : wakesKept s (s.onDigest t f) := .onTile s t _ fun _ => rfl

theorem wakesKept.onCodec (s : State) (t : TileId) (f : List CodecJob → List CodecJob) : wakesKept s (s.onCodec t f) :=
  .onTile s t _ fun _ => rfl

theorem wakesKept.bump (s : State) : wakesKept s s.bump := .of_doms fun _ => rfl

theorem wakesKept.emitAll (s : State) (l : List Out) : wakesKept s (s.emitAll l) := .of_doms fun _ => rfl

theorem wakesKept.finish (s : State) (c : CmdRef) (k : Completion) : wakesKept s (s.finish c k) := .of_doms fun u => by rw [finish_tile]

theorem wakesKept.logErr (s : State) (t : TileId) (r : ErrRec) : wakesKept s (s.logErr t r) := .of_doms fun u => by rw [logErr_tile_any]

theorem wakesKept.degrade (s : State) : wakesKept s s.degrade := by
  unfold State.degrade
  dsimp only
  split
  · exact .of_doms fun _ => rfl
  · exact .refl s

/-! ### Work that ends -/

theorem wakesKept.trace (s : State) (t : TileId) (r : Trace) : wakesKept s (s.trace t r) := by
  obtain ⟨l, n, h⟩ := trace_eq s t r
  rw [h]
  exact .onTile s t _ fun _ => rfl

theorem wakesKept.discardOn (s : State) (t : TileId) (p : Token → Bool) (reason : Nat) : wakesKept s (s.discardOn t p reason) := by
  unfold State.discardOn
  refine (wakesKept.onTile s t _ ?_).trans (.foldl (fun s _ => .trace s t _) _ _)
  exact fun _ => rfl

theorem wakesKept.discard (s : State) (p : Token → Bool) (reason : Nat) : wakesKept s (s.discard p reason) :=
  .foldl (fun s t => .discardOn s t p reason) _ s

theorem wakesKept.stopCalls (s : State) (g : Gpe) : wakesKept s (s.stopCalls g) := .onTile s _ _ fun _ => rfl

theorem wakesKept.setRun (s : State) (g : Gpe) (r : Option Run) : wakesKept s (s.setRun g r) := .onTile s _ _ fun _ => rfl

theorem wakesKept.settleEnergy (s : State) (t : TileId) (h : Nat) (r : Run) (em : Nat) : wakesKept s (s.settleEnergy t h r em) := by
  unfold State.settleEnergy
  exact (wakesKept.onSlc ..).trans (.onTile _ _ _ fun _ => rfl)

theorem wakesKept.stopRun (s : State) (qid : Nat) (g : Gpe) : wakesKept s (s.stopRun qid g) := by
  unfold State.stopRun
  split
  · split
    · exact (((wakesKept.setRun ..).trans (.stopCalls ..)).trans (.settleEnergy ..)).trans (.bump _)
    · exact .refl s
  · exact .refl s

theorem wakesKept.releaseQuery (s : State) (q : Query) : wakesKept s (s.releaseQuery q) := by
  unfold State.releaseQuery
  have h := wakesKept.foldl (f := fun s r => s.onSlc q.slice fun y => y.charge r.2.1 (· - r.2.2)) (fun s _ => .onSlc s _ _) q.charged s
  exact (h.trans (.onQuery _ q.qid fun q => { q with charged := [], sram := [] })).trans (.revoteAll _)

theorem wakesKept.withQueries (s : State) (qs : List Query) : wakesKept s { s with queries := qs } := .of_doms fun _ => rfl

theorem wakesKept.removeQuery (s : State) (qid reason : Nat) : wakesKept s (s.removeQuery qid reason) := by
  unfold State.removeQuery
  dsimp only
  have hstop (l : List Nat) (s : State) : wakesKept s (l.foldl (fun s n => s.stopRun qid (gpeN n)) s) := .foldl (fun s n => .stopRun s _ _) l s
  have hdrop (l : List TileId) (s : State) : wakesKept s (l.foldl (fun s t => s.onTile t (Tile.dropQuery qid)) s) :=
    .foldl (fun s t => .onTile s t (Tile.dropQuery qid) fun _ => rfl) l s
  refine wakesKept.trans ?_ (.withQueries ..)
  refine wakesKept.trans ?_ (hdrop _ _)
  refine wakesKept.trans ?_ (hstop _ _)
  split
  · exact (wakesKept.discard ..).trans (.releaseQuery ..)
  · exact .discard ..

theorem wakesKept.stage (s : State) (cs : List Host.Cell) : wakesKept s (s.stage cs) := .of_doms fun u => by rw [stage_tile]

theorem wakesKept.undefine (s : State) (id : Nat) : wakesKept s (s.undefine id) := by
  unfold State.undefine
  dsimp only
  split
  · exact .refl s
  · refine wakesKept.trans ?_ (.stage ..)
    exact .of_doms fun _ => rfl

theorem wakesKept.settleFailing (s : State) (qid : Nat) : wakesKept s (s.settleFailing qid) := by
  unfold State.settleFailing
  split
  · exact .refl s
  · split
    · exact .refl s
    · split
      · exact .refl s
      · dsimp only
        refine wakesKept.trans ?_ (.revoteAll _)
        refine wakesKept.trans ?_ (.removeQuery ..)
        refine wakesKept.trans ?_ (.finish ..)
        split
        · exact .foldl .undefine _ _
        · exact .refl s

theorem wakesKept.failQuery (s : State) (qid : Nat) (f : Fail) : wakesKept s (s.failQuery qid f) := by
  unfold State.failQuery
  split
  · exact .refl s
  · dsimp only
    refine wakesKept.trans ?_ (.settleFailing ..)
    have hmark (s : State) : wakesKept s (s.onQuery qid fun q => { q with fails := q.fails ++ [f], failing := true, toPost := [], consWait := none }) :=
      .onQuery s qid _
    split
    · split
      · exact (wakesKept.logErr ..).trans (hmark _)
      · exact hmark s
    · refine wakesKept.trans ?_ (.discard ..)
      split
      · exact (wakesKept.logErr ..).trans (hmark _)
      · exact hmark s

theorem wakesKept.plan (s : State) (qid : Nat) (t : Nat) (k : Token) : wakesKept s (s.plan qid t k) :=
  (wakesKept.onQuery s qid fun q => { q with toPost := q.toPost ++ [(t, k)], reruns := q.reruns + 1 }).trans (.onSlc ..)

theorem wakesKept.abandon (s : State) (g : Gpe) : wakesKept s (s.abandon g) := by
  unfold State.abandon
  split
  · exact .refl s
  · dsimp only
    have hstop (u : State) (t : TileId) (h : Nat) (r : Run) (em : Nat) (e : Trace) :
        wakesKept u ((((((u.setRun g none).stopCalls g).settleEnergy t h r em).bump).trace t e)) :=
      ((((wakesKept.setRun ..).trans (.stopCalls ..)).trans (.settleEnergy ..)).trans (.bump _)).trans (.trace ..)
    split
    · exact hstop ..
    · split
      · exact hstop ..
      · split
        · exact (hstop ..).trans (.plan ..)
        · exact (hstop ..).trans (.failQuery ..)

/-! ### Commands that end -/

theorem wakesKept.releaseRecord (s : State) (j : Job) : wakesKept s (s.releaseRecord j) := by
  unfold State.releaseRecord
  split
  · exact .refl s
  · exact .onDigest ..

theorem wakesKept.removeJobs (s : State) (c : CmdRef) : wakesKept s (s.removeJobs c) := by
  have hrec (s : State) (l : List Job) : wakesKept s (l.foldl State.releaseRecord s) := .foldl .releaseRecord l s
  exact .foldl (fun s t => ((hrec s _).trans (.onDigest _ t _)).trans (.onCodec _ t _)) _ s

theorem wakesKept.cancelActivation (s : State) (c : CmdRef) : wakesKept s (s.cancelActivation c) := by
  unfold State.cancelActivation
  split
  · dsimp only
    split
    · exact .of_doms fun _ => rfl
    · exact .of_doms fun _ => rfl
  · exact .refl s

theorem wakesKept.goneSet (s : State) (n : Nat) : wakesKept s ((s.goneSeg n).setSeg n {}) := .of_doms fun _ => rfl

theorem wakesKept.strand (s : State) (n : Nat) : wakesKept s (s.strand n) := .of_doms fun _ => rfl

theorem wakesKept.clearSeg (s : State) (n : Nat) : wakesKept s (s.clearSeg n) := by
  unfold State.clearSeg
  dsimp only
  split
  · exact .refl s
  · refine wakesKept.trans (.trans ?_ (.goneSet ..)) (.revoteAll _)
    split
    · exact (wakesKept.onSlc ..).trans (.strand ..)
    · exact .onSlc ..

theorem wakesKept.dirSettle (s : State) (w : DirWait) : wakesKept s (s.dirSettle w) := by
  have hdur (s : State) : wakesKept s (s.dirDurable w.phase.tile w.phase.expander w.slot) := .of_doms fun _ => rfl
  unfold State.dirSettle
  dsimp only
  split
  · exact (hdur s).trans (.clearSeg ..)
  · exact hdur s

theorem wakesKept.abortCmd (s : State) (x : Cmd) : wakesKept s (s.abortCmd x) := by
  unfold State.abortCmd
  refine wakesKept.trans (t := (s.dropCmd x.ref).releaseHeld x.ref) (.of_doms fun _ => rfl) ?_
  dsimp only
  split
  · exact .removeJobs ..
  · exact (wakesKept.foldl (f := State.undefine) (fun s id => .undefine s id) _ _).trans (.removeQuery ..)
  · exact .cancelActivation ..
  · exact .dirSettle ..
  · exact .refl _

/-! ### Units that are fenced -/

theorem wakesKept.fenceUnit (s : State) (t : TileId) (kind index : Nat) (f : FenceBits → FenceBits) :
    wakesKept s (s.fenceUnit t kind index f) :=
  ((wakesKept.onTile s t (fun x => { x with err := { x.err with fence := f x.err.fence } }) fun _ => rfl).trans (.logErr ..)).trans (.degrade _)

theorem wakesKept.retarget (s : State) (n : Nat) : wakesKept s (s.retarget n) := by
  unfold State.retarget
  dsimp only
  refine wakesKept.trans (.foldl (fun s t => .onTile s t _ ?_) _ s) (.foldl (fun s k => ?_) _ _)
  · exact fun _ => rfl
  · split
    · exact (wakesKept.bump _).trans (.onQuery ..)
    · exact .failQuery ..

theorem wakesKept.fencePe (s : State) (g : Gpe) : wakesKept s (s.fencePe g) := by
  unfold State.fencePe
  dsimp only
  split
  · exact .refl s
  · exact (((((wakesKept.fenceUnit ..).trans (.castVote ..)).trans (.castVote ..)).trans (.stopCalls ..)).trans (.abandon ..)).trans (.retarget ..)

theorem wakesKept.fenceLarge (s : State) (t : TileId) (k : Nat) : wakesKept s (s.fenceLarge t k) := by
  unfold State.fenceLarge
  split
  · exact .refl s
  · exact ((wakesKept.fenceUnit ..).trans (.foldl (f := State.abandon) .abandon _ _)).trans (.castVote ..)

theorem wakesKept.retireBank (s : State) (t : TileId) (bank : Nat) : wakesKept s (s.retireBank t bank) := by
  unfold State.retireBank
  split
  · exact .refl s
  · refine wakesKept.trans (.trans (.onTile s t _ ?_) (.logErr ..)) (.degrade _)
    exact fun _ => rfl

theorem wakesKept.losePages (s : State) (t : TileId) (lost : Nat → Bool) : wakesKept s (s.losePages t lost) := by
  unfold State.losePages
  refine wakesKept.trans (.foldl (fun s q => ?_) _ s) (.foldl (fun s n => .abandon s (gpeN n)) _ _)
  split
  · exact .failQuery ..
  · exact .refl s

theorem wakesKept.moveCodec (s : State) (t : TileId) (jobs : List CodecJob) : wakesKept s (s.moveCodec t jobs) := by
  unfold State.moveCodec
  split
  · exact .onCodec ..
  · exact (wakesKept.onCodec s t _).trans (.foldl (fun s (j : CodecJob) => .finish s j.c _) _ _)

theorem wakesKept.moveDigest (s : State) (t : TileId) (jobs : List Job) : wakesKept s (s.moveDigest t jobs) := by
  have hfail (s : State) (j : Job) (k : Completion) : wakesKept s (s.jobFail j k) := by
    unfold State.jobFail
    dsimp only
    split
    · exact (wakesKept.releaseRecord ..).trans (.finish ..)
    · exact .releaseRecord ..
  unfold State.moveDigest
  split
  · exact .onDigest ..
  · exact .foldl (fun s (j : Job) => hfail s j _) _ s

theorem wakesKept.fenceCodec (s : State) (t : TileId) : wakesKept s (s.fenceCodec t) := by
  unfold State.fenceCodec
  split
  · exact .refl s
  · exact ((wakesKept.fenceUnit ..).trans (.onCodec ..)).trans (.moveCodec ..)

theorem wakesKept.fenceDigest (s : State) (t : TileId) : wakesKept s (s.fenceDigest t) := by
  unfold State.fenceDigest
  split
  · exact .refl s
  · exact ((wakesKept.fenceUnit ..).trans (.onDigest ..)).trans (.moveDigest ..)

theorem wakesKept.loseSegs (s : State) (t : Nat) (tier : Option Nat) : wakesKept s (s.loseSegs t tier) := .of_doms fun _ => rfl

theorem wakesKept.loseDdr (s : State) (t : TileId) (ch : Nat) : wakesKept s (s.loseDdr t ch) := by
  unfold State.loseDdr
  split
  · exact .refl s
  · exact (wakesKept.loseSegs ..).trans (.fenceUnit ..)

theorem wakesKept.loseMsg (s : State) (b : List Byte) : wakesKept s (s.loseMsg b) := by
  unfold State.loseMsg
  dsimp only
  split
  · split
    · exact .abandon ..
    · exact .refl s
  · split
    · split
      · exact .refl s
      · refine .onTile s _ _ ?_
        exact fun _ => rfl
    · exact .refl s

theorem wakesKept.fenceSide (s : State) (t : TileId) (e : EdgeId) : wakesKept s (s.fenceSide t e) := by
  have hedge (s : State) (f : Edge → Edge) : wakesKept s (s.onEdge t e f) := .onTile s t _ fun _ => rfl
  unfold State.fenceSide
  dsimp only
  split
  · exact .refl s
  · exact (((hedge s _).trans (.fenceUnit ..)).trans (.foldl .loseMsg _ _)).trans (.revote ..)

theorem wakesKept.fenceEdge (s : State) (t : TileId) (e : EdgeId) : wakesKept s (s.fenceEdge t e) := by
  unfold State.fenceEdge
  split
  · exact (wakesKept.fenceSide ..).trans (.fenceSide ..)
  · exact .refl s

/-! ### The fence of a tile (R326) -/

theorem wakesKept.loseCommands (s : State) (t : TileId) : wakesKept s (s.loseCommands t) := by
  have hqueues (s : State) : wakesKept s (s.loseQueues t) := .of_doms fun _ => rfl
  have hcharge (s : State) : wakesKept s (s.chargeLost t) := .foldl (fun s (e : Nat × Queue) => .onSlc s e.2.slice _) _ s
  unfold State.loseCommands
  exact (((wakesKept.discard ..).trans (hcharge _)).trans (.foldl (f := State.abortCmd) .abortCmd _ _)).trans (hqueues _)

theorem wakesKept.dropTile (s : State) (t : TileId) : wakesKept s (s.dropTile t) := by
  unfold State.dropTile
  refine wakesKept.trans (.trans ?_ (.moveCodec ..)) (.moveDigest ..)
  exact .onTile s t _ fun _ => rfl

theorem wakesKept.haltTile (s : State) (t : TileId) : wakesKept s (s.haltTile t) := by
  unfold State.haltTile
  split
  · exact .refl s
  · exact .onTile s t _ fun _ => rfl

theorem wakesKept.halt (s : State) (t : TileId) (cause : Nat) : wakesKept s (s.halt t cause) := by
  unfold State.halt
  split
  · exact .refl s
  · dsimp only
    have hlog := wakesKept.logErr s t { errRec evHaltEntry 5 with data := [] }
    generalize s.logErr t { errRec evHaltEntry 5 with data := [] } = l at hlog
    generalize hu : ({ l with dev := _ } : State) = u
    have hdev : wakesKept l u := by subst hu; exact .of_doms fun _ => rfl
    generalize ho : u.haltOuts t cause = outs
    have hhist (f : Tile → List (Nat × Nat × Nat × Nat)) : wakesKept u (u.onTile t fun x => { x with history := f x }) :=
      .onTile u t _ fun _ => rfl
    exact ((((hlog.trans hdev).trans (hhist _)).trans (.emitAll _ outs)).trans (.haltTile _ t)).trans (.revoteAll _)

theorem wakesKept.fenceTile (s : State) (t : TileId) : wakesKept s (s.fenceTile t) := by
  unfold State.fenceTile
  split
  · exact .refl s
  · dsimp only
    have hlog := wakesKept.logErr s t (errRec evTileFenced 4)
    generalize s.logErr t (errRec evTileFenced 4) = l at hlog
    have hlose (v : State) (hit : List Query) (h : wakesKept l v) : wakesKept s
        ((hit.foldl (fun s q => s.failQuery q.qid (s.tileFail q t)) ((v.loseCommands t).dropTile t)).loseSegs t.val none) :=
      (((hlog.trans h).trans ((wakesKept.loseCommands v t).trans (.dropTile _ t))).trans (.foldl (fun s q => .failQuery ..) _ _)).trans
        (.loseSegs ..)
    split
    · refine wakesKept.trans (hlose _ _ ?_) (.halt ..)
      exact .of_doms fun _ => rfl
    · refine wakesKept.trans (hlose _ _ ?_) (.degrade _)
      exact .of_doms fun _ => rfl

theorem wakesKept.pulse (s : State) (ch : Change) : wakesKept s (s.pulse ch) := by
  have hnote (s : State) (m : TileId) (a b c n : Nat) : wakesKept s (s.noteCinch m a b c n) := .onTile s m _ fun _ => rfl
  have hall (s : State) (op change arg reason : Nat) : wakesKept s (s.cinchToAll op change arg reason) := by
    unfold State.cinchToAll State.cinchTo
    dsimp only
    exact (wakesKept.foldl (f := fun u _ => u.noteCinch s.masterTile op change arg u.dev.epoch) (fun s _ => hnote ..) _ s).trans (.emitAll ..)
  unfold State.pulse
  dsimp only
  refine wakesKept.trans ?_ (hall ..)
  exact .of_doms fun _ => rfl

theorem wakesKept.changeDone (s : State) (ch : Change) : wakesKept s (s.changeDone ch) := by
  have hdone (s : State) (c : CmdRef) (r : List Byte) : wakesKept s (s.succeed c r) := .finish ..
  have hfor (s : State) (c : CmdRef) (n : Nat) (r : List Byte) : wakesKept s (s.forCmd c n fun s => s.succeed c r) := by
    unfold State.forCmd
    split
    · exact hdone ..
    · exact .of_doms fun _ => rfl
  have hdeg (s : State) : wakesKept s (if s.anyFence then s.degrade else s) := by
    split
    · exact .degrade s
    · exact .refl s
  unfold State.changeDone
  dsimp only
  generalize hu : ({ s with dev := { s.dev with
    phase := .idle, change := none, ready := 0, resends := 0, reports := [], prev := if ch.code = 1 then s.dev.was else s.dev.prev
    strobeBusy := if ch.origin = .strobe then false else s.dev.strobeBusy } } : State) = u
  have hset : wakesKept s u := by subst hu; exact .of_doms fun _ => rfl
  refine hset.trans ((hdeg u).trans ?_)
  generalize (if u.anyFence then u.degrade else u) = v
  split
  · refine wakesKept.trans ?_ (hfor ..)
    exact .of_doms fun _ => rfl
  · split
    · split
      · refine wakesKept.trans ?_ (hdone ..)
        exact .of_doms fun _ => rfl
      · exact .refl v
    · exact .refl v

theorem wakesKept.afterFence (s : State) : wakesKept s s.afterFence := by
  have hcheck : wakesKept s s.checkApplied := by
    unfold State.checkApplied
    split
    · split
      · exact .changeDone ..
      · exact .refl s
    · exact .refl s
  unfold State.afterFence
  split
  · split
    · exact .pulse ..
    · exact hcheck
  · exact .refl s

theorem wakesKept.loseTile (s : State) (t : TileId) : wakesKept s (s.loseTile t) := (wakesKept.fenceTile s t).trans (.afterFence _)

theorem wakesKept.cutOff (s : State) (t : TileId) : wakesKept s (s.cutOff t) :=
  (wakesKept.onTile s t (fun x => { x with relays := false }) fun _ => rfl).trans (.loseTile ..)

/-! ### The unit and the contents of a domain -/

theorem wakesKept.failUnit (s : State) (t : TileId) (d : DomId) : wakesKept s (s.failUnit t d) := by
  have hbanks (n : Nat) : wakesKept s ((List.range 8).foldl (fun s i => s.retireBank t (8 * (n - 20) + i)) s) :=
    .foldl (fun s i => .retireBank s t _) _ s
  unfold State.failUnit
  dsimp only
  split
  · exact .fencePe ..
  split
  · exact .fenceLarge ..
  split
  · exact (hbanks _).trans (.losePages ..)
  split
  · exact .cutOff ..
  split
  · exact .fenceEdge ..
  split
  · exact .fenceUnit ..
  · exact .fenceCodec ..
  · exact .fenceDigest ..
  · exact .loseDdr ..
  · exact .loseDdr ..
  · exact .fenceUnit ..
  · exact .fenceUnit ..
  · exact .fenceUnit ..
  · exact .fenceUnit ..
  · exact .fenceUnit ..
  · exact .fenceUnit ..
  · exact .fenceUnit ..
  · exact .loseTile ..

end Sys2Proof.Machine
end

section
/-! Wakes that end, that fail and that are tried again, and the votes that end by themselves (R368, R376, R377, R379, R381, R415). -/
namespace Sys2Proof.Machine

/-! ### What a domain loses in OFF (R366) -/

/-- From `s` to `t` contents may be lost, and neither a command nor a queue nor a domain's failed wakes have changed. -/
structure forgets (s t : State) : Prop where
  wakes : wakesKept s t
  cmds : t.cmds = s.cmds
  queues : t.queues = s.queues

theorem forgets.of_doms {s t : State} (h : ∀ u, (t.tile u).doms = (s.tile u).doms) (hc : t.cmds = s.cmds) (hq : t.queues = s.queues) :
    forgets s t := ⟨.of_doms h, hc, hq⟩

theorem forgets.refl (s : State) : forgets s s := ⟨.refl s, rfl, rfl⟩

theorem forgets.trans {s t u : State} (h : forgets s t) (h' : forgets t u) : forgets s u :=
  ⟨h.wakes.trans h'.wakes, h'.cmds.trans h.cmds, h'.queues.trans h.queues⟩

theorem forgets.foldl {α : Type} {f : State → α → State} (h : ∀ s a, forgets s (f s a)) (l : List α) (s : State) : forgets s (l.foldl f s) :=
  List.foldlRecOn (motive := fun t : State => forgets s t) l f (.refl s) fun t ht a _ => ht.trans (h t a)

theorem forgets.onTile (s : State) (t : TileId) (f : Tile → Tile) (hf : ∀ x, (f x).doms = x.doms) : forgets s (s.onTile t f) :=
  ⟨.onTile s t f hf, rfl, rfl⟩

theorem forgets.setCopy (s : State) (t : TileId) (ix id : Nat) (v : List Byte) : forgets s (s.setCopy t ix id v) := .of_doms (fun _ => rfl) rfl rfl

theorem forgets.clearCopy (s : State) (t : TileId) (ix : Nat) : forgets s (s.clearCopy t ix) := .foldl (fun s id => .setCopy s t ix id _) _ s

theorem forgets.forgetTier (s : State) (t : TileId) (tier : Nat) : forgets s (s.forgetTier t tier) := .of_doms (fun _ => rfl) rfl rfl

theorem forgets.resetCtl (s : State) (t : TileId) (d : Nat) : forgets s (s.resetCtl t d) :=
  .foldl (f := fun s k => s.setBlock (blockNo t.val k) { s.block (blockNo t.val k) with applyMode := false, group := 0 })
    (fun _ _ => .of_doms (fun _ => rfl) rfl rfl) _ s

theorem loseRegs_doms (x : Tile) (d : Nat) : (x.loseRegs d).doms = x.doms := by
  have hcounts : (x.loseCounts d).doms = x.doms := by unfold Tile.loseCounts; split <;> rfl
  unfold Tile.loseRegs
  split
  · rfl
  · exact hcounts
  · exact hcounts

theorem onCore_doms (x : Tile) (n : Nat) (f : Core → Core) : (x.onCore n f).doms = x.doms := by
  unfold Tile.onCore; split <;> rfl

theorem forgets.loseRegs (s : State) (t : TileId) (d : Nat) : forgets s ((s.resetCtl t d).onTile t fun x => x.loseRegs d) :=
  (forgets.resetCtl s t d).trans (.onTile _ t _ fun x => loseRegs_doms x d)

/-- A domain other than a bank group of working SRAM loses contents only. -/
theorem forgets.loseDom (s : State) (t : TileId) (d : DomId) (h : d.val < 20 ∨ 28 ≤ d.val) : forgets s (s.loseDom t d) := by
  unfold State.loseDom
  dsimp only
  refine (forgets.loseRegs s t d.val).trans ?_
  generalize (s.resetCtl t d.val).onTile t (fun x => x.loseRegs d.val) = u
  split
  · refine forgets.trans (t := u.bump) (.of_doms (fun _ => rfl) rfl rfl) (.onTile _ t _ fun x => ?_)
    exact onCore_doms x d.val _
  split
  · omega
  split
  · exact .onTile u t _ fun _ => rfl
  · exact .forgetTier ..
  · exact .forgetTier ..
  · exact .forgetTier ..
  · exact .clearCopy ..
  · exact .clearCopy ..
  · exact .clearCopy ..
  · exact .onTile u t _ fun _ => rfl
  · exact .onTile u t _ fun _ => rfl
  · exact .onTile u t _ fun _ => rfl
  · exact .refl u

theorem endsRuns.losePages (s : State) (t : TileId) (lost : Nat → Bool) : endsRuns s (s.losePages t lost) := by
  unfold State.losePages
  refine endsRuns.trans (.foldl (fun s q => ?_) _ s) (.foldl (fun s n => (abandon_stops s (gpeN n)).1) _ _)
  split
  · exact .failQuery ..
  · exact .refl s

/-- Every domain: its working SRAM pages end runs and queries, so commands may change, but no queue. -/
theorem loseDom_kept (s : State) (t : TileId) (d : DomId) : wakesKept s (s.loseDom t d) ∧ (s.loseDom t d).queues = s.queues := by
  by_cases h : d.val < 20 ∨ 28 ≤ d.val
  · exact ⟨(forgets.loseDom s t d h).wakes, (forgets.loseDom s t d h).queues⟩
  · have hlose : s.loseDom t d = ((((s.resetCtl t d.val).onTile t fun x => x.loseRegs d.val).losePages t (groupBanks d.val)).freshBanks t
        (groupBanks d.val)) := by
      unfold State.loseDom
      dsimp only
      rw [if_neg (by omega), if_pos (by omega)]
    have hregs := forgets.loseRegs s t d.val
    rw [hlose]
    generalize (s.resetCtl t d.val).onTile t (fun x => x.loseRegs d.val) = u at hregs ⊢
    refine ⟨(hregs.wakes.trans (.losePages ..)).trans (.onTile _ t _ fun _ => rfl), ?_⟩
    exact ((endsRuns.losePages u t (groupBanks d.val)).1 : _).trans hregs.queues

/-! ### Failed wakes (R379) -/

theorem State.onDom_dom (s : State) (t : TileId) (d : DomId) (f : Dom → Dom) : (s.onDom t d f).dom t d = f (s.dom t d) := by
  rw [State.onDom, State.dom, State.onTile_tile, Tile.onDom_dom]
  rfl

theorem holdOff_kept (s : State) (t : TileId) (c : Nat) : wakesKept s (s.holdOff t c) := by
  unfold State.holdOff
  dsimp only
  refine wakesKept.trans (.trans ?_ (.onDoms _ t _ fun x e => ?_)) (.failUnit ..)
  · split
    · exact .refl s
    · exact (loseDom_kept ..).1
  · by_cases he : e = domN c
    · subst he
      rw [Tile.onDom_dom]
      exact ⟨rfl, rfl⟩
    · rw [Tile.onDom_dom_ne x he]
      exact ⟨rfl, rfl⟩

theorem wakeFailed_fails (s : State) (t : TileId) (d : DomId) (step : Nat) : ((s.wakeFailed t d step).dom t d).wakeFail = true := by
  unfold State.wakeFailed
  dsimp only
  have hmark : ((s.onTile t fun x => (x.onDom d fun y => { y with wakeFail := true, phase := .failed }).settle).dom t d).wakeFail = true := by
    rw [State.dom, State.onTile_tile, onDom_settle_dom (s.tile t) d]
  generalize s.onTile t (fun x => (x.onDom d fun y => { y with wakeFail := true, phase := .failed }).settle) = u at hmark ⊢
  rw [← hmark]
  have hkept : wakesKept u _ := ((wakesKept.logErr u t { errRec evWakeFail 3 with data := [BitVec.ofNat 8 d.val, BitVec.ofNat 8 step, 3] }).trans
    (.degrade _)).trans (.failUnit _ t d)
  exact ((hkept.trans (.foldl (fun s c => holdOff_kept s t c) (domBelow d.val) _)).kept t d).2

/-- What a wake that fails leaves at first: the domain is OFF and waits for its next try. -/
theorem wakeStep_off {s : State} {t : TileId} {d : DomId} (step : Nat) (h : (s.dom t d).tries < 2) :
    let s' := wakeStepTimeoutEff t d step s
    (s'.dom t d).st = .off ∧ (s'.dom t d).phase = .retryWait ∧ (s'.dom t d).ramping = false ∧
      (s'.dom t d).tries = (s.dom t d).tries + 1 ∧ (s'.dom t d).failStep = step ∧
      ((s.dom t d).st ≠ .ret ∨ d.val < 20 ∨ 28 ≤ d.val → s'.cmds = s.cmds) ∧ s'.queues = s.queues := by
  intro s'
  have hlost : ∃ u : State, s' = (u.onDom t d fun y => { y with
      st := .off, phase := .retryWait, ramping := false, tries := (s.dom t d).tries + 1, failStep := step, sigTaken := false, pending := [] }) ∧
      ((s.dom t d).st ≠ .ret ∨ d.val < 20 ∨ 28 ≤ d.val → u.cmds = s.cmds) ∧ u.queues = s.queues := by
    have htries : ((if (s.dom t d).st = .ret then s.loseDom t d else s).dom t d).tries = (s.dom t d).tries := by
      split
      · exact ((loseDom_kept s t d).1.kept t d).1
      · rfl
    refine ⟨if (s.dom t d).st = .ret then s.loseDom t d else s, ?_, fun hd => ?_, ?_⟩
    · dsimp only [s', wakeStepTimeoutEff]
      rw [htries, if_neg (by omega)]
    · by_cases hret : (s.dom t d).st = .ret
      · rw [if_pos hret]
        exact (forgets.loseDom s t d (hd.resolve_left fun hne => hne hret)).cmds
      · rw [if_neg hret]
    · split
      · exact (loseDom_kept s t d).2
      · rfl
  obtain ⟨u, hu, hc, hq⟩ := hlost
  rw [hu, State.onDom_dom]
  exact ⟨rfl, rfl, rfl, rfl, rfl, hc, hq⟩

theorem wakeStep_fails {s : State} {t : TileId} {d : DomId} (step : Nat) (h : 2 ≤ (s.dom t d).tries) :
    ((wakeStepTimeoutEff t d step s).dom t d).wakeFail = true := by
  unfold wakeStepTimeoutEff
  dsimp only
  have htries : ((if (s.dom t d).st = .ret then s.loseDom t d else s).dom t d).tries = (s.dom t d).tries := by
    split
    · exact ((loseDom_kept s t d).1.kept t d).1
    · rfl
  rw [htries, if_pos (by omega)]
  exact wakeFailed_fails ..

/-! ### What a wake finds lost (R381) -/

/-- The registers of a domain at reset values: one tile, and on it neither a domain, nor the log, nor what its ports hold. -/
theorem resetRegs_onTile (s : State) (t : TileId) (d : DomId) :
    ∃ f : Tile → Tile, s.resetRegs t d = s.onTile t f ∧
      ∀ x, (f x).doms = x.doms ∧ (f x).err = x.err ∧ (f x).evidence = x.evidence ∧ (f x).portHeld = x.portHeld := by
  unfold State.resetRegs
  dsimp only
  split
  · refine ⟨_, rfl, fun x => ?_⟩
    unfold Tile.onCore
    split
    · exact ⟨rfl, rfl, rfl, rfl⟩
    · exact ⟨rfl, rfl, rfl, rfl⟩
  split
  · exact ⟨_, rfl, fun _ => ⟨rfl, rfl, rfl, rfl⟩⟩
  · exact ⟨_, rfl, fun _ => ⟨rfl, rfl, rfl, rfl⟩⟩
  · refine ⟨_, rfl, fun x => ?_⟩
    unfold Tile.loseCounts
    split
    · exact ⟨rfl, rfl, rfl, rfl⟩
    · exact ⟨rfl, rfl, rfl, rfl⟩
    · exact ⟨rfl, rfl, rfl, rfl⟩

/-- A retention loss is counted on its domain and recorded on its tile; other tiles see at most the interrupt. -/
theorem lostRet_spec (s : State) (t : TileId) (d : DomId) (kind bank sev : Nat) :
    let s' := s.lostRet t d kind bank sev
    s' = { s with tiles := s'.tiles, out := s'.out } ∧ (∀ u, u ≠ t → sameTile s s' u) ∧ (s'.tile t).portHeld = (s.tile t).portHeld ∧
      s'.dom t d = { s.dom t d with retLost := true, lostCnt := min 0xFFFF ((s.dom t d).lostCnt + 1) } ∧
      (∀ e, e ≠ d → s'.dom t e = s.dom t e) ∧
      ((s.tile t).evidence = none → ∃ r, (s'.tile t).err.ring.getLast? = some r ∧ r.event = evRetentionLost ∧
        r.data = leBytes 1 d.val ++ leBytes 1 kind ++ leBytes 1 bank) := by
  intro s'
  have hs' : s' = (s.onDom t d fun y => { y with retLost := true, lostCnt := min 0xFFFF (y.lostCnt + 1) }).logErr t
      { errRec evRetentionLost sev with data := leBytes 1 d.val ++ leBytes 1 kind ++ leBytes 1 bank } := rfl
  clear_value s'
  have hdom := State.onDom_dom s t d fun y => { y with retLost := true, lostCnt := min 0xFFFF (y.lostCnt + 1) }
  have hne : ∀ e, e ≠ d → (s.onDom t d fun y => { y with retLost := true, lostCnt := min 0xFFFF (y.lostCnt + 1) }).dom t e = s.dom t e :=
    fun e he => by rw [State.onDom, State.dom, State.onTile_tile, Tile.onDom_dom_ne _ he]; rfl
  have hframe : (s.onDom t d fun y => { y with retLost := true, lostCnt := min 0xFFFF (y.lostCnt + 1) }) =
    { s with tiles := (s.onDom t d fun y => { y with retLost := true, lostCnt := min 0xFFFF (y.lostCnt + 1) }).tiles } := rfl
  have htile : ∀ u, u ≠ t → (s.onDom t d fun y => { y with retLost := true, lostCnt := min 0xFFFF (y.lostCnt + 1) }).tile u = s.tile u :=
    fun u hu => State.onTile_tile_ne _ hu _
  have hown : (s.onDom t d fun y => { y with retLost := true, lostCnt := min 0xFFFF (y.lostCnt + 1) }).tile t =
      (s.tile t).onDom d fun y => { y with retLost := true, lostCnt := min 0xFFFF (y.lostCnt + 1) } := State.onTile_tile ..
  generalize (s.onDom t d fun y => { y with retLost := true, lostCnt := min 0xFFFF (y.lostCnt + 1) }) = u at *
  subst hs'
  refine ⟨?_, fun v hv => ?_, ?_, ?_, fun e he => ?_, fun hev => ?_⟩
  · rw [logErr_frame, hframe]
  · rw [sameTile, logErr_tile_ne _ _ _ hv, htile v hv]
  · rw [logErr_tile_any, hown]; rfl
  · rw [← hdom, State.dom, State.dom, logErr_tile_any]; rfl
  · rw [← hne e he, State.dom, State.dom, logErr_tile_any]; rfl
  · have hev' : (u.tile t).evidence.isSome = false := by rw [hown]; exact (by rw [hev]; rfl : (s.tile t).evidence.isSome = false)
    rw [logErr_tile, hev']
    exact ⟨_, ringPush_last .., rfl, rfl⟩

/-- What a wake finds of a domain without signatures: its own tile alone, of the domains only this one's losses. -/
theorem checkRetention_spec (s : State) (t : TileId) (d : DomId) (parity : Bool) (banks : List Nat) (hsig : (s.dom t d).sigTaken = false) :
    let s' := s.checkRetention t d parity banks
    s' = { s with tiles := s'.tiles, out := s'.out } ∧ (∀ u, u ≠ t → sameTile s s' u) ∧ (s'.tile t).portHeld = (s.tile t).portHeld ∧
      s'.dom t d = { s.dom t d with retLost := (s'.dom t d).retLost, lostCnt := (s'.dom t d).lostCnt } ∧
      (∀ e, e ≠ d → s'.dom t e = s.dom t e) ∧
      ((s.dom t d).st = .ret → parity = true → (s'.dom t d).retLost = true ∧ (s'.dom t d).lostCnt = min 0xFFFF ((s.dom t d).lostCnt + 1) ∧
        ((s.tile t).evidence = none → ∃ r, (s'.tile t).err.ring.getLast? = some r ∧ r.event = evRetentionLost ∧
          r.data = [BitVec.ofNat 8 d.val, 1, 0])) := by
  dsimp only
  have hsame (hn : ¬ ((s.dom t d).st = .ret ∧ parity = true)) : s.checkRetention t d parity banks = s := by
    unfold State.checkRetention
    dsimp only
    split
    · rfl
    next hret =>
      rw [if_neg (by rw [hsig]; exact Bool.false_ne_true), if_neg fun hp => hn ⟨Decidable.not_not.mp hret, hp⟩]
  by_cases h : (s.dom t d).st = .ret ∧ parity = true
  · obtain ⟨hret, rfl⟩ := h
    have hlost : s.checkRetention t d true banks = (s.resetRegs t d).lostRet t d 1 0 1 := by
      unfold State.checkRetention
      dsimp only
      rw [if_neg (Decidable.not_not.mpr hret), if_pos rfl, if_neg (by rw [hsig]; exact Bool.false_ne_true)]
    obtain ⟨f, hf, hkeep⟩ := resetRegs_onTile s t d
    obtain ⟨hdoms, -, hev, hport⟩ := hkeep (s.tile t)
    have htile : (s.onTile t f).tile t = f (s.tile t) := State.onTile_tile ..
    have hdom (e : DomId) : (s.onTile t f).dom t e = s.dom t e := by rw [State.dom, State.dom, htile, Tile.dom, Tile.dom, hdoms]
    obtain ⟨hframe, hne, hheld, hown, hothers, hrec⟩ := lostRet_spec (s.onTile t f) t d 1 0 1
    rw [hlost, hf]
    generalize (s.onTile t f).lostRet t d 1 0 1 = s' at *
    refine ⟨hframe, fun u hu => ?_, ?_, ?_, fun e he => (hothers e he).trans (hdom e), fun _ _ => ⟨by rw [hown], by rw [hown, hdom], fun h => ?_⟩⟩
    · rw [sameTile, hne u hu, State.onTile_tile_ne _ hu]
    · rw [hheld, htile, hport]
    · rw [hown, hdom]
    · exact hrec (by rw [htile, hev, h])
  · rw [hsame h]
    exact ⟨rfl, fun _ _ => rfl, rfl, rfl, fun _ _ => rfl, fun hr hp => absurd ⟨hr, hp⟩ h⟩

/-! ### The wake -/

/-- A domain that is on: what a wake sets on it. -/
def Dom.woken (y : Dom) : Dom :=
  { y with st := .on, phase := .stable, ramping := false, tries := 0, wakes := satInc y.wakes, entered := false, sigTaken := false }

/-- The end of a wake on a tile: the domain is on, has no strobe left, and its port holds nothing. -/
def Tile.wakeEnds (d : DomId) (x : Tile) : Tile :=
  let y := (x.onDom d Dom.woken).settle.onDom d fun y => { y with pending := [] }
  { y with portHeld := y.portHeld.filter fun p => p.1 != d.val }

theorem wakeEnds_doms (x : Tile) (d : DomId) (e : DomId) :
    (x.wakeEnds d).dom e = ((x.onDom d Dom.woken).settle.onDom d fun y => { y with pending := [] }).dom e := by
  unfold Tile.wakeEnds Tile.dom
  rfl

theorem wakeEnds_dom (x : Tile) (d : DomId) : ∃ v, (x.wakeEnds d).dom d = { (x.dom d).woken with votes := v, pending := [] } := by
  refine ⟨((x.onDom d Dom.woken).settle.dom d).votes, ?_⟩
  rw [wakeEnds_doms, Tile.onDom_dom, onDom_settle_dom x d Dom.woken]

theorem wakeEnds_dom_ne (x : Tile) {d e : DomId} (he : e ≠ d) : butVotes (x.dom e) ((x.wakeEnds d).dom e) := by
  rw [wakeEnds_doms, Tile.onDom_dom_ne _ he]
  exact onDom_settle_dom_ne x he Dom.woken

/-- Without a link, a strobe or held traffic, a wake ends on its own tile. -/
theorem domainWake_onTile (s : State) (t : TileId) (d : DomId) (parity : Bool) (banks : List Nat) (hedge : domEdge d = none)
    (hpend : ((s.checkRetention t d parity banks).dom t d).pending = [])
    (hheld : ∀ p ∈ ((s.checkRetention t d parity banks).tile t).portHeld, p.1 ≠ d.val) :
    domainWakeEff t d parity banks s = (s.checkRetention t d parity banks).onTile t (Tile.wakeEnds d) := by
  unfold domainWakeEff
  dsimp only
  generalize s.checkRetention t d parity banks = u at hpend hheld ⊢
  have hsettled : ((u.onTile t fun x => (x.onDom d Dom.woken).settle).dom t d).pending = [] := by
    rw [State.dom, State.onTile_tile, onDom_settle_dom (u.tile t) d Dom.woken]
    exact hpend
  have happly (v : State) (hv : (v.dom t d).pending = []) : v.applyPending t d = v.onDom t d fun y => { y with pending := [] } := by
    unfold State.applyPending
    dsimp only
    rw [hv]
    refine congrArg (fun w : State => w.onDom t d fun y => { y with pending := [] }) ?_
    exact List.foldlRecOn (motive := fun w : State => w = v) _ _ rfl fun w hw a _ => hw
  have hrelease (v : State) (hv : ∀ p ∈ (v.tile t).portHeld, p.1 ≠ d.val) :
      v.release t d = v.onTile t fun x => { x with portHeld := x.portHeld.filter fun p => p.1 != d.val } := by
    unfold State.release
    dsimp only
    rw [List.filter_eq_nil_iff.mpr fun p hp => by simpa using hv p hp]
    rfl
  have hport : ((((u.onTile t fun x => (x.onDom d Dom.woken).settle).onDom t d fun y => { y with pending := [] }).tile t)).portHeld =
      (u.tile t).portHeld := by
    obtain ⟨v, hv⟩ := settle_doms ((u.tile t).onDom d Dom.woken)
    rw [State.onDom, State.onTile_tile, State.onTile_tile, hv]
    rfl
  rw [hedge]
  dsimp only
  rw [show (fun x : Tile => (x.onDom d fun y => { y with
    st := .on, phase := .stable, ramping := false, tries := 0, wakes := satInc y.wakes, entered := false, sigTaken := false }).settle) =
    fun x => (x.onDom d Dom.woken).settle from rfl]
  rw [happly _ hsettled, hrelease _ (by rw [hport]; exact hheld)]
  rw [State.onDom, State.onTile_onTile, State.onTile_onTile]
  rfl

theorem seqOn_of {s : State} {t : TileId} (hp : s.present t = true) (hm : s.dev.mode ≠ .cold) : s.seqOn t = true := by
  simp [State.seqOn, hp, hm]

/-- An update of one domain, with the votes settled, on the state. -/
theorem onDom_settle_state (s : State) (t : TileId) (d : DomId) (f : Dom → Dom) :
    let s' := s.onTile t fun x => (x.onDom d f).settle
    butVotes (f (s.dom t d)) (s'.dom t d) ∧ ∀ e, e ≠ d → butVotes (s.dom t e) (s'.dom t e) := by
  intro s'
  have htile : s'.tile t = ((s.tile t).onDom d f).settle := State.onTile_tile ..
  refine ⟨?_, fun e he => ?_⟩
  · rw [State.dom, State.dom, htile]
    exact onDom_settle_dom ..
  · rw [State.dom, State.dom, htile]
    exact onDom_settle_dom_ne _ he _

/-! ### The commands -/

/-- RAMP_SLOT of the lowest domain that waits, with a slot free (R377). -/
theorem rampSlot_starts {s : State} {t : TileId} {d : DomId} (hp : s.present t = true) (hcold : s.dev.mode ≠ .cold) (hhalt : s.dev.mode ≠ .halt)
    (hw : s.wantsRamp t d = true) (hlow : ∀ c, c < d → s.wantsRamp t c = false)
    (hfree : ((s.tile t).doms.toList.filter (·.ramping)).length < max 1 (min 4 (s.tile t).maxRamps)) :
    ∃ s' : State, exec (.rampSlot t d) s = .next s' ∧ (s'.dom t d).phase = .waking ∧ (s'.dom t d).ramping = true ∧
      (∀ e, e ≠ d → (s'.dom t e).ramping = (s.dom t e).ramping ∧ (s'.dom t e).phase = (s.dom t e).phase) ∧
      (∀ e, (s'.dom t e).st = (s.dom t e).st) ∧ (∀ u, u ≠ t → s'.tile u = s.tile u) ∧ s' = { s with tiles := s'.tiles } := by
  have hall : (allDoms.all fun c => decide (d ≤ c) || !s.wantsRamp t c) = true := List.all_eq_true.mpr fun c _ => by
    by_cases hc : c < d
    · simp [hlow c hc]
    · simp [Fin.not_lt.mp hc]
  obtain ⟨hd, hne⟩ := onDom_settle_state s t d fun y => { y with phase := .waking, ramping := true, entered := false }
  have htile : ∀ u, u ≠ t → (s.onTile t fun x => (x.onDom d fun y => { y with phase := .waking, ramping := true, entered := false }).settle).tile u =
      s.tile u := fun u hu => State.onTile_tile_ne _ hu _
  refine ⟨_, congrArg Host.Outcome.next (if_pos ⟨seqOn_of hp hcold, hhalt, hw, hall, hfree⟩), by rw [hd], by rw [hd], fun e he => ?_, fun e => ?_, htile, rfl⟩
  · rw [hne e he]
    exact ⟨rfl, rfl⟩
  · by_cases he : e = d
    · subst he
      rw [hd]
    · rw [hne e he]

/-- DOMAIN_WAKE of a domain without a link, a strobe or held traffic (R376, R381). -/
theorem domainWake_ends {s : State} {t : TileId} {d : DomId} (parity : Bool) (banks : List Nat) (hp : s.present t = true)
    (hcold : s.dev.mode ≠ .cold) (hphase : (s.dom t d).phase = .waking) (hramp : (s.dom t d).ramping = true)
    (hpar : (s.tile t).parentsOn d.val = true) (hedge : domEdge d = none) (hpend : (s.dom t d).pending = [])
    (hheld : ∀ p ∈ (s.tile t).portHeld, p.1 ≠ d.val) (hsig : (s.dom t d).sigTaken = false) :
    ∃ s' : State, exec (.domainWake t d parity banks) s = .next s' ∧ (s'.dom t d).st = .on ∧ (s'.dom t d).phase = .stable ∧
      (s'.dom t d).ramping = false ∧ (s'.dom t d).wakes = min 0xFFFFFFFF ((s.dom t d).wakes + 1) ∧ (s'.dom t d).tries = 0 ∧
      (∀ e, e ≠ d → (s'.dom t e).st = (s.dom t e).st) ∧ (∀ u, u ≠ t → sameTile s s' u) ∧ s' = { s with tiles := s'.tiles, out := s'.out } ∧
      ((s.dom t d).st = .ret → parity = true → (s'.dom t d).retLost = true ∧ (s'.dom t d).lostCnt = min 0xFFFF ((s.dom t d).lostCnt + 1) ∧
        ((s.tile t).evidence = none → ∃ r, (s'.tile t).err.ring.getLast? = some r ∧ r.event = evRetentionLost ∧
          r.data = [BitVec.ofNat 8 d.val, 1, 0])) := by
  obtain ⟨hframe, hne, hport, hown, hothers, hlost⟩ := checkRetention_spec s t d parity banks hsig
  have heff := domainWake_onTile s t d parity banks hedge (by rw [hown]; exact hpend) (by rw [hport]; exact hheld)
  generalize s.checkRetention t d parity banks = u at *
  have htile : (u.onTile t (Tile.wakeEnds d)).tile t = (u.tile t).wakeEnds d := State.onTile_tile ..
  have herr : ((u.tile t).wakeEnds d).err = (u.tile t).err := by
    obtain ⟨v, hv⟩ := settle_doms ((u.tile t).onDom d Dom.woken)
    unfold Tile.wakeEnds
    rw [hv]
    rfl
  obtain ⟨v, hdom⟩ : ∃ v, (u.onTile t (Tile.wakeEnds d)).dom t d = { (u.dom t d).woken with votes := v, pending := [] } := by
    obtain ⟨v, hv⟩ := wakeEnds_dom (u.tile t) d
    exact ⟨v, by rw [State.dom, htile, hv]; rfl⟩
  refine ⟨u.onTile t (Tile.wakeEnds d), congrArg Host.Outcome.next ((if_pos ⟨seqOn_of hp hcold, hphase, hramp, hpar⟩).trans heff), by rw [hdom]; rfl,
    by rw [hdom]; rfl, by rw [hdom]; rfl, ?_, by rw [hdom]; rfl, fun e he => ?_, fun w hw => ?_, ?_, fun hr hpy => ?_⟩
  · rw [hdom, hown]
    rfl
  · rw [← hothers e he, State.dom, htile, wakeEnds_dom_ne _ he]
    rfl
  · rw [sameTile, State.onTile_tile_ne _ hw, hne w hw]
  · rw [hframe]
    rfl
  · obtain ⟨hl, hc, hrec⟩ := hlost hr hpy
    refine ⟨by rw [hdom]; exact hl, by rw [hdom]; exact hc, fun hev => ?_⟩
    rw [htile, herr]
    exact hrec hev

/-- WAKE_STEP_TIMEOUT (R379). -/
theorem wakeStepTimeout_runs {s : State} {t : TileId} {d : DomId} {step : Fin 8} (hp : s.present t = true) (hcold : s.dev.mode ≠ .cold)
    (hphase : (s.dom t d).phase = .waking) (hramp : (s.dom t d).ramping = true) (hstep : step.val = 2 ∨ step.val = 4 ∨ step.val = 6) :
    exec (.wakeStepTimeout t d step) s = .next (wakeStepTimeoutEff t d step.val s) :=
  congrArg Host.Outcome.next (if_pos ⟨seqOn_of hp hcold, hphase, hramp, hstep⟩)

/-- WAKE_RETRY (R379). -/
theorem wakeRetry_runs {s : State} {t : TileId} {d : DomId} (hp : s.present t = true) (hcold : s.dev.mode ≠ .cold)
    (hphase : (s.dom t d).phase = .retryWait) :
    ∃ s' : State, exec (.wakeRetry t d) s = .next s' ∧ (s'.dom t d).phase = .waking ∧ (s'.dom t d).st = (s.dom t d).st ∧
      (s'.dom t d).retries = min 0xFFFFFFFF ((s.dom t d).retries + 1) ∧ (∀ u, u ≠ t → s'.tile u = s.tile u) ∧ s' = { s with tiles := s'.tiles } := by
  obtain ⟨hd, -⟩ := onDom_settle_state s t d fun y => { y with phase := .waking, retries := satInc y.retries }
  have htile : ∀ u, u ≠ t → (s.onTile t fun x => (x.onDom d fun y => { y with phase := .waking, retries := satInc y.retries }).settle).tile u =
      s.tile u := fun u hu => State.onTile_tile_ne _ hu _
  exact ⟨_, congrArg Host.Outcome.next (if_pos ⟨seqOn_of hp hcold, hphase⟩), by rw [hd], by rw [hd], by rw [hd]; rfl, htile, rfl⟩

/-- Settles O43: each command is its effect where its guard holds; a wake that fails is followed through the loss of the domain's contents and
of its unit, which leave every domain's count of failed wakes. -/
theorem wakesEndOrAreRetried : Obligations.WakesEndOrAreRetried := by
  unfold Obligations.WakesEndOrAreRetried
  refine ⟨?_, ?_, ?_, ?_, ?_, ?_, ?_⟩
  · intro s t d hp hcold hhalt hw hlow hfree
    exact rampSlot_starts hp hcold hhalt hw hlow hfree
  · intro s t d hhalt
    exact congrArg Host.Outcome.next (if_neg fun h => h.2.1 hhalt)
  · intro s t d parity banks hp hcold hphase hramp hpar hedge hpend hheld hsig
    exact domainWake_ends parity banks hp hcold hphase hramp hpar hedge hpend hheld hsig
  · intro s t d step hp hcold hphase hramp hstep
    have hrun := wakeStepTimeout_runs hp hcold hphase hramp hstep
    exact ⟨fun h => ⟨_, hrun, wakeStep_off step.val h⟩, fun h => ⟨_, hrun, wakeStep_fails step.val h⟩⟩
  · intro s t d hp hcold hphase
    exact wakeRetry_runs hp hcold hphase
  · intro s t d
    exact ⟨fun h => congrArg Host.Outcome.next (if_pos h), fun h => congrArg Host.Outcome.next (if_neg (by rw [h]; exact Bool.false_ne_true))⟩
  · intro s t k hcall hqueue hidle
    exact congrArg Host.Outcome.next (if_pos ⟨hcall, hqueue, hidle⟩)

end Sys2Proof.Machine
end

section
/-! Queries: how they are planned, how their tokens are posted, and how one ends (R169, R218, R325, R327, R338, R339). -/
namespace Sys2Proof.Machine

/-! ### Token entries that are taken off -/

/-- From `s` to `t` only schedulers change, and a token entry that is there was there before. -/
structure pruned (s t : State) : Prop where
  frame : t = { s with tiles := t.tiles }
  tile : ∀ u, t.tile u = { s.tile u with sched := (t.tile u).sched }
  tokens : ∀ u k, k ∈ (t.tile u).sched.tokens → k ∈ (s.tile u).sched.tokens

theorem pruned.refl (s : State) : pruned s s := ⟨rfl, fun _ => rfl, fun _ _ h => h⟩

theorem pruned.trans {s t u : State} (h : pruned s t) (h' : pruned t u) : pruned s u :=
  ⟨by rw [h'.frame, h.frame], fun v => by rw [h'.tile v, h.tile v], fun v k hk => h.tokens v k (h'.tokens v k hk)⟩

theorem pruned.foldl {α : Type} {f : State → α → State} (h : ∀ s a, pruned s (f s a)) (l : List α) (s : State) : pruned s (l.foldl f s) :=
  List.foldlRecOn (motive := fun t : State => pruned s t) l f (.refl s) fun t ht a _ => ht.trans (h t a)

theorem pruned.onSched (s : State) (t : TileId) (f : Sched → Sched) (hf : ∀ c, ∀ k ∈ (f c).tokens, k ∈ c.tokens) : pruned s (s.onSched t f) where
  frame := rfl
  tile := onTile_rel (P := fun a b => b = { a with sched := b.sched }) (fun _ => rfl) s t (Machine.onSched f) rfl
  tokens := onTile_rel (P := fun a b => ∀ k ∈ b.sched.tokens, k ∈ a.sched.tokens) (fun _ _ h => h) s t (Machine.onSched f) (hf _)

theorem pruned.trace (s : State) (t : TileId) (r : Trace) : pruned s (s.trace t r) := by
  obtain ⟨l, n, h⟩ := trace_eq s t r
  rw [h]
  exact .onSched s t _ fun _ _ hk => hk

theorem pruned.discardOn (s : State) (t : TileId) (p : Token → Bool) (reason : Nat) : pruned s (s.discardOn t p reason) := by
  unfold State.discardOn
  refine (pruned.onSched s t (fun c => { c with tokens := c.tokens.filter fun k => !p k }) ?_).trans (.foldl (fun s _ => .trace s t _) _ _)
  exact fun c k hk => (List.mem_filter.mp hk).1

theorem pruned.discard (s : State) (p : Token → Bool) (reason : Nat) : pruned s (s.discard p reason) :=
  .foldl (fun s t => .discardOn s t p reason) _ s

/-- A query has a morsel running or a commit under way: what decides it. -/
theorem queryRuns_congr {s t : State} (h : ∀ u, (t.tile u).runs = (s.tile u).runs ∧ (t.tile u).codec = (s.tile u).codec) (qid : Nat) :
    t.queryRuns qid = s.queryRuns qid := by
  have hrun (g : Gpe) : t.run? g = s.run? g := by rw [State.run?, State.run?, (h _).1]
  unfold State.queryRuns
  simp only [hrun, (h _).2]

/-- A query is found as an update of it leaves it. -/
theorem onQuery_found {s : State} {n : Nat} {x : Query} (f : Query → Query) (hf : ∀ x, (f x).qid = x.qid) (h : s.query? n = some x) :
    (s.onQuery n f).query? n = some (f x) := by
  rw [query?_onQuery s n n f hf, h, Option.map_some, if_pos (query?_qid h)]

theorem onQuery_finds {s : State} {n : Nat} {y : Query} (f : Query → Query) (hf : ∀ x, (f x).qid = x.qid) (h : (s.onQuery n f).query? n = some y) :
    ∃ x, s.query? n = some x ∧ y = f x := by
  rw [query?_onQuery s n n f hf] at h
  obtain ⟨x, hx, rfl⟩ := Option.map_eq_some_iff.mp h
  exact ⟨x, hx, if_pos (query?_qid hx)⟩

/-- The SCHEDULER votes change the domains of their tile alone (R360). -/
theorem wantPes_spec (s : State) (t : TileId) :
    s.wantPes t = { s with tiles := (s.wantPes t).tiles } ∧ (∀ u, u ≠ t → (s.wantPes t).tile u = s.tile u) ∧
      ∀ u, (s.wantPes t).tile u = { s.tile u with doms := ((s.wantPes t).tile u).doms } := by
  unfold State.wantPes
  dsimp only
  refine ⟨rfl, fun u hu => State.onTile_tile_ne _ hu _, onTile_rel (P := fun a b => b = { a with doms := b.doms }) (fun _ => rfl) s t _ ?_⟩
  exact settle_onto ..

/-! ### Commands and queries at the end -/

theorem finish_cmd? {s : State} {c : CmdRef} {x : Cmd} (k : Completion) (h : s.cmd? c = some x) :
    (s.finish c k).cmd? c = some { x with phase := .done, prog := .idle, comp := { k with tstamp := s.now } } := by
  have hform (t : State) (ht : t.cmds = s.cmds) (hn : t.now = s.now) :
      (t.onCmd c fun y => { y with phase := .done, prog := .idle, comp := { k with tstamp := t.now } }).cmd? c =
        some { x with phase := .done, prog := .idle, comp := { k with tstamp := s.now } } := by
    rw [hn]
    exact onCmd_cmd? _ (fun _ => rfl) ((cmd?_congr c ht).trans h)
  unfold State.finish
  rw [h]
  dsimp only
  split
  · exact hform s rfl rfl
  · exact hform _ (by rw [logErr_frame]) (by rw [logErr_frame])
  · exact hform s rfl rfl

/-- A command found after work has ended stood there before, but for the segments that it lost. -/
theorem endsWork.cmd?_of {s t : State} (h : endsWork s t) {c : CmdRef} {y : Cmd} (hy : t.cmd? c = some y) :
    ∃ x, s.cmd? c = some x ∧ y = { x with goneSegs := y.goneSegs } := by
  obtain ⟨-, g, hg, hgy⟩ := h
  unfold State.cmd? at *
  rw [hg, List.find?_map] at hy
  obtain ⟨x, hx, rfl⟩ := Option.map_eq_some_iff.mp hy
  have href : ((fun x : Cmd => decide (x.ref = c)) ∘ g) = fun x : Cmd => decide (x.ref = c) := by
    funext z
    dsimp only [Function.comp]
    rw [hgy z]
  exact ⟨x, by rwa [href] at hx, hgy x⟩

theorem removeQuery_query? (s : State) (qid reason : Nat) : (s.removeQuery qid reason).query? qid = none := by
  unfold State.removeQuery State.query?
  dsimp only
  rw [List.find?_filter]
  exact List.find?_eq_none.mpr fun x _ => by simp

theorem revoteAll_query? (s : State) (qid : Nat) : s.revoteAll.query? qid = s.query? qid := by rw [State.query?, State.query?, revoteAll_frame]

/-- A query that fails and has nothing running ends with its first failure: it is gone, and its command, if it is still there, is done. -/
theorem settleFailing_ends {s : State} {qid : Nat} {q : Query} {f : Fail} (hq : s.query? qid = some q) (hf : firstFault q.fails = some f)
    (hfail : q.failing = true) (hrun : s.queryRuns qid = false) :
    (s.settleFailing qid).query? qid = none ∧ ∀ x, (s.settleFailing qid).cmd? q.c = some x →
      x.phase = .done ∧ x.comp.status = f.status ∧ x.comp.tstamp = s.now := by
  unfold State.settleFailing
  rw [hq]
  dsimp only
  rw [hf]
  dsimp only
  rw [if_neg (by rw [hfail, hrun]; decide)]
  have hundef : endsWork s (if undefResults f.status then q.results.foldl State.undefine s else s) := by
    split
    · exact .foldl .undefine _ _
    · exact .refl s
  generalize (if undefResults f.status then q.results.foldl State.undefine s else s) = u at hundef ⊢
  have hnow : u.now = s.now := by rw [hundef.1]
  refine ⟨by rw [revoteAll_query?, removeQuery_query?], fun x hx => ?_⟩
  obtain ⟨y, hy, hxy⟩ := ((endsWork.removeQuery _ qid 0x0A).trans (.revoteAll _)).cmd?_of hx
  cases hc : u.cmd? q.c with
  | none =>
    rw [finish_none _ hc, hc] at hy
    exact absurd hy (by simp)
  | some z =>
    rw [finish_cmd? _ hc] at hy
    obtain rfl := Option.some.inj hy
    rw [hxy, ← hnow]
    exact ⟨rfl, rfl, rfl⟩

/-- A first failure of a query that has nothing running ends it. -/
theorem failQuery_ends {s : State} {qid : Nat} {q : Query} (f : Fail) (hq : s.query? qid = some q) (hfail : q.failing = false)
    (hfails : q.fails = []) (hrun : s.queryRuns qid = false) :
    (s.failQuery qid f).query? qid = none ∧ ∀ x, (s.failQuery qid f).cmd? q.c = some x →
      x.phase = .done ∧ x.comp.status = f.status ∧ x.comp.tstamp = s.now := by
  unfold State.failQuery
  rw [hq]
  dsimp only
  rw [hfail, if_neg Bool.false_ne_true]
  have hlog : ∀ u : State, (u = s ∨ ∃ t r, u = s.logErr t r) →
      let w := (u.onQuery qid fun q => { q with fails := q.fails ++ [f], failing := true, toPost := [], consWait := none }).discard
        (fun k => decide (k.qid = qid)) 0x0A
      (w.settleFailing qid).query? qid = none ∧ ∀ x, (w.settleFailing qid).cmd? q.c = some x →
        x.phase = .done ∧ x.comp.status = f.status ∧ x.comp.tstamp = s.now := by
    intro u hu w
    have hu' : u.queries = s.queries ∧ u.now = s.now ∧ ∀ v, (u.tile v).runs = (s.tile v).runs ∧ (u.tile v).codec = (s.tile v).codec := by
      rcases hu with rfl | ⟨t, r, rfl⟩
      · exact ⟨rfl, rfl, fun _ => ⟨rfl, rfl⟩⟩
      · exact ⟨by rw [logErr_frame], by rw [logErr_frame], fun v => by rw [logErr_tile_any]; exact ⟨rfl, rfl⟩⟩
    obtain ⟨hqs, hnow, htile⟩ := hu'
    have hmark : (u.onQuery qid fun q => { q with fails := q.fails ++ [f], failing := true, toPost := [], consWait := none }).query? qid =
        some { q with fails := [f], failing := true, toPost := [], consWait := none } := by
      have huq : u.query? qid = some q := by rw [State.query?, hqs]; exact hq
      have h := onQuery_found (fun q => { q with fails := q.fails ++ [f], failing := true, toPost := [], consWait := none }) (fun _ => rfl) huq
      rwa [hfails] at h
    have hd : pruned (u.onQuery qid fun q => { q with fails := q.fails ++ [f], failing := true, toPost := [], consWait := none }) w :=
      .discard ..
    have hquery : w.query? qid = some { q with fails := [f], failing := true, toPost := [], consWait := none } := by
      rw [← hmark, State.query?, State.query?, hd.frame]
    have hruns : w.queryRuns qid = false := by
      rw [← hrun]
      refine queryRuns_congr (fun v => ?_) qid
      rw [hd.tile v]
      exact htile v
    have hwnow : w.now = s.now := by rw [hd.frame, ← hnow]; rfl
    rw [← hwnow]
    have hends := settleFailing_ends (f := f) hquery rfl rfl hruns
    exact hends
  split
  · exact hlog _ (.inr ⟨_, _, rfl⟩)
  · exact hlog _ (.inl rfl)

theorem settleQuery_none {s : State} {qid : Nat} (h : s.query? qid = none) : s.settleQuery qid = s := by
  unfold State.settleQuery
  rw [h]

/-- A query that goes on: neither failing nor over. -/
theorem settleQuery_same {s : State} {qid : Nat} {q : Query} (h : s.query? qid = some q) (hf : q.failing = false) (ho : q.over = false) :
    s.settleQuery qid = s := by
  unfold State.settleQuery
  rw [h]
  dsimp only
  rw [hf, ho, if_neg Bool.false_ne_true, if_neg fun hn => Bool.false_ne_true hn.1]

/-! ### The start of a query (R338, R339) -/

theorem startPipe_scan (s : State) (q : Query) {p : Pipe} (h : p.plan.src = 1) :
    (s.startPipe q p).1 = { planned := true, released := decide (p.plan.wait = 0), morsels := s.scanMorsels q p } := by
  rw [State.startPipe, if_pos h]

theorem startPipe_other (s : State) (q : Query) {p : Pipe} (h : p.plan.src ≠ 1) : (s.startPipe q p).1 = {} := by rw [State.startPipe, if_neg h]

/-- A morsel of a SCAN: its number, its place in the sequence and its tile. -/
theorem scanMorsels_get {s : State} {q : Query} {p : Pipe} {n : Nat} {m : MorselAt} (h : (s.scanMorsels q p)[n]? = some m) :
    m.morsel = n ∧ m.seq = n ∧ m.tile = s.scanTile q p n := by
  unfold State.scanMorsels at h
  rw [List.getElem?_map] at h
  obtain ⟨k, hk, rfl⟩ := Option.map_eq_some_iff.mp h
  obtain ⟨-, rfl⟩ : n < ceilDiv (q.scanFrames p) 64 ∧ n = k := by
    obtain ⟨hlt, hget⟩ := List.getElem?_eq_some_iff.mp hk
    exact ⟨by simpa using hlt, by simpa using hget⟩
  exact ⟨rfl, rfl, rfl⟩

theorem scanMorsels_length (s : State) (q : Query) (p : Pipe) : (s.scanMorsels q p).length = ceilDiv (q.scanFrames p) 64 := by
  simp [State.scanMorsels]

theorem ceilDiv_pos {n : Nat} (h : n ≠ 0) : 0 < ceilDiv n 64 := Nat.div_pos (by omega) (by decide)

/-- A pipeline that starts with something to do has not completed: it waits for another, its source is another's, or it has morsels. -/
theorem startPipe_notDone (s : State) (q : Query) {p : Pipe} (h : p.plan.src ≠ 1 ∨ p.plan.wait ≠ 0 ∨ q.scanFrames p ≠ 0) :
    pipeDone p (s.startPipe q p).1 = false := by
  by_cases hsrc : p.plan.src = 1
  · rw [startPipe_scan s q hsrc]
    rcases h with h | h | h
    · exact absurd hsrc h
    · simp [pipeDone, h]
    · have hlen := scanMorsels_length s q p
      have hpos := ceilDiv_pos h
      have hall : ({ planned := true, released := decide (p.plan.wait = 0), morsels := s.scanMorsels q p } : PipeState).allVerified = false := by
        cases hm : s.scanMorsels q p with
        | nil => rw [hm] at hlen; simp at hlen; omega
        | cons a l => rfl
      rw [pipeDone, hall, Bool.and_false, Bool.false_and]
  · rw [startPipe_other s q hsrc]
    rfl

/-- The query as its start leaves it. -/
def Query.begun (s : State) (q y : Query) : Query :=
  { y with
    resolved := s.resolveAll q.img q, pipes := (q.img.pipes.map (s.startPipe q)).map (·.1)
    toPost := (q.img.pipes.map (s.startPipe q)).flatMap (·.2) }

theorem begun_pipe {s : State} {q : Query} {k : Nat} {p : Pipe} (h : q.img.pipes[k]? = some p) : (q.begun s q).pipe k = (s.startPipe q p).1 := by
  simp [Query.pipe, Query.begun, h]

theorem begun_pipe_past {s : State} {q : Query} {k : Nat} (h : q.img.pipes[k]? = none) : (q.begun s q).pipe k = {} := by
  simp [Query.pipe, Query.begun, h]

/-- A query with a pipeline that has something to do is not over at its start. -/
theorem begun_notOver {s : State} {q : Query} {k : Nat} (hk : k < q.img.npipe)
    (h : (q.img.pipes.getD k default).plan.src ≠ 1 ∨ (q.img.pipes.getD k default).plan.wait ≠ 0 ∨ q.scanFrames (q.img.pipes.getD k default) ≠ 0) :
    (q.begun s q).over = false := by
  have hdone : (q.begun s q).done q.img k = false := by
    rw [Query.done]
    cases hp : q.img.pipes[k]? with
    | none =>
      rw [begun_pipe_past hp]
      rfl
    | some p =>
      rw [List.getD_eq_getElem?_getD, hp] at h ⊢
      rw [begun_pipe hp]
      exact startPipe_notDone s q h
  unfold Query.over
  rw [Bool.and_eq_false_iff]
  refine .inr (List.all_eq_false.mpr ⟨k, List.mem_range.mpr hk, ?_⟩)
  rw [show (q.begun s q).img = q.img from rfl, hdone]
  exact Bool.false_ne_true

/-- QUERY_RUN of a query with an image that stands and data to resolve from. -/
theorem queryRun_starts {s : State} {c : CmdRef} {qid : Nat} {q : Query} (hprog : s.progOp? c 0x32 = some (.query qid))
    (hq : s.query? qid = some q) (hp : q.pipes = []) (hf : q.failing = false) (himg : s.imageLost q.handle = false)
    (hres : s.startLost q.img q = none) (ho : (q.begun s q).over = false) :
    exec (.queryRun c) s = .next (s.onQuery qid (q.begun s)) ∧ (s.onQuery qid (q.begun s)).query? qid = some (q.begun s q) := by
  have hqid := query?_qid hq
  have hfound := onQuery_found (q.begun s) (fun _ => rfl) hq
  refine ⟨?_, hfound⟩
  have hrun : queryRunEff q s = s.onQuery qid (q.begun s) := by
    unfold queryRunEff
    rw [if_neg (by rw [himg]; exact Bool.false_ne_true), hres]
    dsimp only
    rw [hqid]
    exact settleQuery_same hfound hf ho
  simp only [exec, execQueryRun, hprog, hq]
  rw [if_pos ⟨by rw [hp]; rfl, hf⟩, hrun]

/-- QUERY_RUN plans each SCAN pipeline and no other. -/
theorem queryRun_plans {s : State} {c : CmdRef} {qid : Nat} {q : Query} (hprog : s.progOp? c 0x32 = some (.query qid))
    (hq : s.query? qid = some q) (hp : q.pipes = []) (hf : q.failing = false) (himg : s.imageLost q.handle = false)
    (hres : s.startLost q.img q = none)
    (hwork : ∃ k < q.img.npipe, let p := q.img.pipes.getD k default; p.plan.src ≠ 1 ∨ p.plan.wait ≠ 0 ∨ q.scanFrames p ≠ 0) :
    ∃ (t : State) (y : Query), exec (.queryRun c) s = .next t ∧ t.query? qid = some y ∧ y.resolved = s.resolveAll q.img q ∧
      y.pipes.length = q.img.pipes.length ∧
      (∀ k p, q.img.pipes[k]? = some p → p.plan.src = 1 →
        (y.pipe k).planned = true ∧ ((y.pipe k).released = true ↔ p.plan.wait = 0) ∧
        (y.pipe k).morsels.length = ceilDiv (q.scanFrames p) 64 ∧
        ∀ n m, (y.pipe k).morsels[n]? = some m → m.morsel = n ∧ m.seq = n ∧ m.tile = s.scanTile q p n) ∧
      (∀ k p, q.img.pipes[k]? = some p → p.plan.src ≠ 1 → y.pipe k = {}) ∧ t = { s with queries := t.queries } := by
  obtain ⟨k, hk, hdo⟩ := hwork
  obtain ⟨hrun, hfound⟩ := queryRun_starts hprog hq hp hf himg hres (begun_notOver hk hdo)
  refine ⟨_, _, hrun, hfound, rfl, by simp [Query.begun], fun k p hp hsrc => ?_, fun k p hp hsrc => ?_, rfl⟩
  · rw [begun_pipe hp, startPipe_scan s q hsrc]
    exact ⟨rfl, decide_eq_true_iff, scanMorsels_length .., fun n m hm => scanMorsels_get hm⟩
  · rw [begun_pipe hp, startPipe_other s q hsrc]

/-- QUERY_RUN of a query whose image has been withdrawn (R327). -/
theorem queryRun_withdrawn {s : State} {c : CmdRef} {qid : Nat} {q : Query} (hprog : s.progOp? c 0x32 = some (.query qid))
    (hq : s.query? qid = some q) (hp : q.pipes = []) (hf : q.failing = false) (hfails : q.fails = []) (himg : s.imageLost q.handle = true)
    (hrun : s.queryRuns qid = false) :
    ∃ t : State, exec (.queryRun c) s = .next t ∧ t.query? qid = none ∧
      ∀ x, t.cmd? q.c = some x → x.phase = .done ∧ x.comp.status = stUncorrectable ∧ x.comp.tstamp = s.now := by
  obtain ⟨hgone, hcmd⟩ := failQuery_ends (s.failure stUncorrectable 0) hq hf hfails hrun
  refine ⟨s.failQuery qid (s.failure stUncorrectable 0), ?_, hgone, hcmd⟩
  have hrun : queryRunEff q s = s.failQuery qid (s.failure stUncorrectable 0) := by
    unfold queryRunEff
    rw [if_pos himg, query?_qid hq, settleQuery_none hgone]
  simp only [exec, execQueryRun, hprog, hq]
  rw [if_pos ⟨by rw [hp]; rfl, hf⟩, hrun]

/-! ### The post of a token (R338) -/

/-- TOKEN_POST with room in the store. -/
theorem tokenPost_posts {s : State} {t : TileId} {q : Query} {k : Token} {rest : List (Nat × Token)} (hlive : s.live t = true)
    (hmode : s.dev.mode.runsCommands = true) (hroom : (s.sched t).tokens.length < 16384)
    (htake : s.queries.findSome? (fun q => (takePost t.val q.toPost).map fun x => (q, x)) = some (q, k, rest)) :
    ∃ s' : State, exec (.tokenPost t) s = .next s' ∧
      (s'.sched t).tokens = (s.sched t).tokens ++ [{ k with barrier := !(q.pipe k.pipe).released }] ∧
      (∀ y, s'.query? q.qid = some y → y.toPost = rest) ∧ (∀ u, u ≠ t → s'.tile u = s.tile u) ∧
      s' = { s with queries := s'.queries, tiles := s'.tiles } := by
  have hrun : exec (.tokenPost t) s = .next (((s.onQuery q.qid fun y => { y with toPost := rest }).onSched t fun c =>
      { c with tokens := c.tokens ++ [{ k with barrier := !(q.pipe k.pipe).released }] }).wantPes t) := by
    simp only [exec, execTokenPost, if_pos (And.intro hlive hmode), postEff, if_neg (Nat.not_le.mpr hroom), htake]
  have hsched := onSched_tile_self (s.onQuery q.qid fun y => { y with toPost := rest }) t fun c =>
    { c with tokens := c.tokens ++ [{ k with barrier := !(q.pipe k.pipe).released }] }
  have hother (u : TileId) (hu : u ≠ t) := onSched_tile_ne (s.onQuery q.qid fun y => { y with toPost := rest }) hu fun c =>
    { c with tokens := c.tokens ++ [{ k with barrier := !(q.pipe k.pipe).released }] }
  have hquery : ∀ y, (s.onQuery q.qid fun y => { y with toPost := rest }).query? q.qid = some y → y.toPost = rest := fun y hy => by
    obtain ⟨x, -, rfl⟩ := onQuery_finds (fun y => { y with toPost := rest }) (fun _ => rfl) hy
    rfl
  have hframe : ((s.onQuery q.qid fun y => { y with toPost := rest }).onSched t fun c =>
      { c with tokens := c.tokens ++ [{ k with barrier := !(q.pipe k.pipe).released }] }) = { s with
        queries := (s.onQuery q.qid fun y => { y with toPost := rest }).queries
        tiles := ((s.onQuery q.qid fun y => { y with toPost := rest }).onSched t fun c =>
          { c with tokens := c.tokens ++ [{ k with barrier := !(q.pipe k.pipe).released }] }).tiles } := rfl
  rw [hrun]
  generalize ((s.onQuery q.qid fun y => { y with toPost := rest }).onSched t fun c =>
    { c with tokens := c.tokens ++ [{ k with barrier := !(q.pipe k.pipe).released }] }) = w at hsched hother hframe ⊢
  obtain ⟨hwant, hne, hdoms⟩ := wantPes_spec w t
  refine ⟨_, rfl, ?_, fun y hy => hquery y ?_, fun u hu => (hne u hu).trans (hother u hu), ?_⟩
  · rw [State.sched, hdoms t, hsched]
    rfl
  · rwa [State.query?, hwant, hframe] at hy
  · rw [hwant, hframe]

theorem tokenPost_full {s : State} {t : TileId} (h : 16384 ≤ (s.sched t).tokens.length) : exec (.tokenPost t) s = .next s := by
  have hfull : postEff t s = s := if_pos h
  simp only [exec, execTokenPost, hfull, ite_self]

/-- Settles O27: the start of a query is one update of it, which leaves it to go on as a pipeline has something to do; a post takes one token
over; a query without its image ends through its first failure. -/
theorem queriesPlanAndPostTheirTokens : Obligations.QueriesPlanAndPostTheirTokens := by
  unfold Obligations.QueriesPlanAndPostTheirTokens
  refine ⟨?_, ?_, ?_, ?_⟩
  · intro s c qid q hprog hq hp hf himg hres hwork
    exact queryRun_plans hprog hq hp hf himg hres hwork
  · intro s c qid q hprog hq hp hf hfails himg hrun
    exact queryRun_withdrawn hprog hq hp hf hfails himg hrun
  · intro s t q k rest hlive hmode hroom htake
    exact tokenPost_posts hlive hmode hroom htake
  · intro s t h
    exact tokenPost_full h

end Sys2Proof.Machine
end

section
/-! Barriers, bases, merge passes, spilled pages and UDF calls (R233, R247, R278, R320, R327, R339, R342, R417). -/
namespace Sys2Proof.Machine

/-! ### What the end of a query leaves -/

/-- From `s` to `t` the store is as it was, and every token entry was there before. -/
structure tidied (s t : State) : Prop where
  mem : t.mem = s.mem
  segs : t.segs = s.segs
  tile : ∀ u, (t.tile u).staging = (s.tile u).staging ∧ ∀ k ∈ (t.tile u).sched.tokens, k ∈ (s.tile u).sched.tokens

theorem tidied.sameStore {s t : State} (h : tidied s t) : sameStore s t := ⟨h.mem, h.segs, fun u => (h.tile u).1⟩

theorem tidied.of_eq {s t : State} (hm : t.mem = s.mem) (hs : t.segs = s.segs)
    (h : ∀ u, (t.tile u).staging = (s.tile u).staging ∧ (t.tile u).sched.tokens = (s.tile u).sched.tokens) : tidied s t :=
  ⟨hm, hs, fun u => ⟨(h u).1, fun _ hk => (h u).2 ▸ hk⟩⟩

theorem tidied.refl (s : State) : tidied s s := .of_eq rfl rfl fun _ => ⟨rfl, rfl⟩

theorem tidied.trans {s t u : State} (h : tidied s t) (h' : tidied t u) : tidied s u :=
  ⟨h'.mem.trans h.mem, h'.segs.trans h.segs, fun v => ⟨(h'.tile v).1.trans (h.tile v).1, fun k hk => (h.tile v).2 k ((h'.tile v).2 k hk)⟩⟩

theorem tidied.foldl {α : Type} {f : State → α → State} (h : ∀ s a, tidied s (f s a)) (l : List α) (s : State) : tidied s (l.foldl f s) :=
  List.foldlRecOn (motive := fun t : State => tidied s t) l f (.refl s) fun t ht a _ => ht.trans (h t a)

theorem tidied.onTile (s : State) (t : TileId) (f : Tile → Tile) (hf : ∀ x, (f x).staging = x.staging ∧ (f x).sched.tokens = x.sched.tokens) :
    tidied s (s.onTile t f) :=
  .of_eq rfl rfl (onTile_rel (P := fun a b => b.staging = a.staging ∧ b.sched.tokens = a.sched.tokens) (fun _ => ⟨rfl, rfl⟩) s t f (hf _))

theorem tidied.of_pruned {s t : State} (h : pruned s t) : tidied s t :=
  ⟨by rw [h.frame], by rw [h.frame], fun u => ⟨by rw [h.tile u], h.tokens u⟩⟩

theorem tidied.of_messaged {s t : State} (h : messaged s t) : tidied s t :=
  .of_eq (by rw [h.1]) (by rw [h.1]) fun u => by rw [h.2 u]; exact ⟨rfl, rfl⟩

theorem tidied.onSlc (s : State) (n : Nat) (f : Slice → Slice) : tidied s (s.onSlc n f) := .of_eq rfl rfl fun _ => ⟨rfl, rfl⟩

theorem tidied.onQuery (s : State) (n : Nat) (f : Query → Query) : tidied s (s.onQuery n f) := .of_eq rfl rfl fun _ => ⟨rfl, rfl⟩

theorem tidied.bump (s : State) : tidied s s.bump := .of_eq rfl rfl fun _ => ⟨rfl, rfl⟩

theorem tidied.revoteAll (s : State) : tidied s s.revoteAll :=
  .of_eq (by rw [revoteAll_frame]) (by rw [revoteAll_frame]) fun u => by rw [revoteAll_tile]; exact ⟨rfl, rfl⟩

theorem tidied.finish (s : State) (c : CmdRef) (k : Completion) : tidied s (s.finish c k) :=
  .of_eq (by rw [finish_frame]) (by rw [finish_frame]) fun u => by rw [finish_tile]; exact ⟨rfl, rfl⟩

theorem tidied.setRun (s : State) (g : Gpe) (r : Option Run) : tidied s (s.setRun g r) := .onTile s _ _ fun _ => ⟨rfl, rfl⟩

theorem tidied.stopCalls (s : State) (g : Gpe) : tidied s (s.stopCalls g) := .onTile s _ _ fun _ => ⟨rfl, rfl⟩

theorem tidied.settleEnergy (s : State) (t : TileId) (h : Nat) (r : Run) (em : Nat) : tidied s (s.settleEnergy t h r em) := by
  unfold State.settleEnergy
  exact (tidied.onSlc ..).trans (.onTile _ _ _ fun _ => ⟨rfl, rfl⟩)

theorem tidied.stopRun (s : State) (qid : Nat) (g : Gpe) : tidied s (s.stopRun qid g) := by
  unfold State.stopRun
  split
  · split
    · exact (((tidied.setRun ..).trans (.stopCalls ..)).trans (.settleEnergy ..)).trans (.bump _)
    · exact .refl s
  · exact .refl s

theorem tidied.releaseQuery (s : State) (q : Query) : tidied s (s.releaseQuery q) := by
  unfold State.releaseQuery
  have h := tidied.foldl (f := fun s r => s.onSlc q.slice fun y => y.charge r.2.1 (· - r.2.2)) (fun s _ => .onSlc s _ _) q.charged s
  exact (h.trans (.onQuery _ q.qid fun q => { q with charged := [], sram := [] })).trans (.revoteAll _)

theorem tidied.withQueries (s : State) (qs : List Query) : tidied s { s with queries := qs } := .of_eq rfl rfl fun _ => ⟨rfl, rfl⟩

theorem tidied.removeQuery (s : State) (qid reason : Nat) : tidied s (s.removeQuery qid reason) := by
  unfold State.removeQuery
  dsimp only
  have hstop (l : List Nat) (s : State) : tidied s (l.foldl (fun s n => s.stopRun qid (gpeN n)) s) := .foldl (fun s n => .stopRun s _ _) l s
  have hdrop (l : List TileId) (s : State) : tidied s (l.foldl (fun s t => s.onTile t (Tile.dropQuery qid)) s) :=
    .foldl (fun s t => .onTile s t (Tile.dropQuery qid) fun _ => ⟨rfl, rfl⟩) l s
  have hdiscard := tidied.of_pruned (.discard s (fun k => decide (k.qid = qid)) reason)
  refine tidied.trans ?_ (.withQueries ..)
  refine tidied.trans ?_ (hdrop _ _)
  refine tidied.trans ?_ (hstop _ _)
  split
  · exact hdiscard.trans (.releaseQuery ..)
  · exact hdiscard

theorem endsRuns.of_messaged {s t : State} (h : messaged s t) : endsRuns s t :=
  .of_eq (by rw [h.1]) (by rw [h.1]) (by rw [h.1]) fun u => by rw [h.2 u]; exact ⟨rfl, rfl⟩

/-- A query that does not fail may be over: then it is finished and removed, and nothing else is lost. -/
theorem settleQuery_tidied {s : State} {qid : Nat} (hf : ∀ q, s.query? qid = some q → q.failing = false) :
    tidied s (s.settleQuery qid) ∧ endsRuns s (s.settleQuery qid) ∧ ∀ y, (s.settleQuery qid).query? qid = some y → s.query? qid = some y := by
  unfold State.settleQuery
  split
  · exact ⟨.refl s, .refl s, fun _ h => h⟩
  next q hq =>
    rw [hf q hq, if_neg Bool.false_ne_true]
    split
    · refine ⟨((tidied.finish ..).trans (.removeQuery ..)).trans (.revoteAll _),
        ((endsRuns.finish ..).trans (.removeQuery ..)).trans (.revoteAll _), fun y hy => ?_⟩
      rw [revoteAll_query?, removeQuery_query?] at hy
      exact absurd hy (by simp)
    · exact ⟨.refl s, .refl s, fun _ h => h⟩

theorem messaged.wantAll (s : State) : messaged s s.wantAll := .foldl .wantPes _ s

/-- The votes of the schedulers leave the queries. -/
theorem wantAll_queries (s : State) : s.wantAll.queries = s.queries :=
  List.foldlRecOn (motive := fun t : State => t.queries = s.queries) _ _ rfl fun t ht u _ => by rw [← ht, (wantPes_spec t u).1]

/-! ### Barriers (R339) -/

theorem freeTokens_spec (s : State) (t : TileId) (qid pipe slice : Nat) :
    let s' := s.freeTokens t qid pipe slice
    s' = { s with tiles := s'.tiles } ∧ (∀ u, u ≠ t → s'.tile u = s.tile u) ∧ (∀ u, s'.tile u = { s.tile u with sched := (s'.tile u).sched }) ∧
      (s'.sched t).tokens = (s.sched t).tokens.map fun k => if k.qid = qid ∧ k.pipe = pipe then { k with barrier := false } else k := by
  intro s'
  obtain ⟨l, n, h⟩ := trace_eq (s.onTile t fun x => { x with sched := { x.sched with
    tokens := x.sched.tokens.map fun k => if k.qid = qid ∧ k.pipe = pipe then { k with barrier := false } else k } }) t
    { tstamp := 0, type := trBarrier, qid := qid, slice := slice, pipe := pipe }
  have hs' : s' = s.onTile t fun x => { x with sched := { x.sched with
      tokens := x.sched.tokens.map fun k => if k.qid = qid ∧ k.pipe = pipe then { k with barrier := false } else k
      trace := l, traceCnt := n } } := h.trans (State.onTile_onTile ..)
  clear_value s'
  subst hs'
  refine ⟨rfl, fun u hu => State.onTile_tile_ne _ hu _, fun u => ?_, ?_⟩
  · exact onTile_rel (P := fun a b => b = { a with sched := b.sched }) (fun _ => rfl) s t _ rfl u
  · rw [State.sched, State.onTile_tile]
    rfl

/-- BARRIER (R339). -/
theorem barrier_frees {s : State} {h : MsgHdr} {qid : Nat} {pipe : Fin 32} {q : Query} (hq : s.query? qid = some q)
    (hlive : s.live h.dstTile = true) (hrel : (q.pipe pipe.val).released = true) :
    ∃ t : State, exec (.barrier h qid pipe) s = .next t ∧
      (t.sched h.dstTile).tokens = (s.sched h.dstTile).tokens.map
        (fun k => if k.qid = qid ∧ k.pipe = pipe.val then { k with barrier := false } else k) ∧
      (∀ u, u ≠ h.dstTile → t.tile u = s.tile u) ∧ t = { s with tiles := t.tiles } := by
  have hrun : exec (.barrier h qid pipe) s = .next ((s.freeTokens h.dstTile qid pipe.val q.slice).wantPes h.dstTile) := by
    simp only [exec, execBarrier, hq, if_pos (And.intro hlive hrel)]
  obtain ⟨hframe, hne, -, htok⟩ := freeTokens_spec s h.dstTile qid pipe.val q.slice
  obtain ⟨hwant, hwne, hdoms⟩ := wantPes_spec (s.freeTokens h.dstTile qid pipe.val q.slice) h.dstTile
  refine ⟨_, hrun, ?_, fun u hu => (hwne u hu).trans (hne u hu), by rw [hwant, hframe]⟩
  rw [← htok, State.sched, hdoms]
  rfl

/-- EMIT_BASE (R342). -/
theorem emitBase_advances {s : State} {h : MsgHdr} {qid : Nat} {pipe : Fin 32} (base : Nat) {q : Query} (hq : s.query? qid = some q)
    (hlive : s.live h.dstTile = true) :
    ∃ t : State, exec (.emitBase h qid pipe base) s = .next t ∧
      tblGet (t.sched h.dstTile).bases (qid * 32 + pipe.val) 0 = max (tblGet (s.sched h.dstTile).bases (qid * 32 + pipe.val) 0) base ∧
      (∀ j, j ≠ qid * 32 + pipe.val → tblGet (t.sched h.dstTile).bases j 0 = tblGet (s.sched h.dstTile).bases j 0) ∧
      (∀ u, u ≠ h.dstTile → t.tile u = s.tile u) ∧ t = { s with tiles := t.tiles } := by
  have hrun : exec (.emitBase h qid pipe base) s = .next ((s.onSched h.dstTile fun c =>
      { c with bases := tblSet 0 c.bases (qid * 32 + pipe.val) (max (tblGet c.bases (qid * 32 + pipe.val) 0) base) }).wantPes h.dstTile) := by
    simp only [exec, execEmitBase, hq, if_pos hlive]
  have hself := onSched_tile_self s h.dstTile fun c =>
    { c with bases := tblSet 0 c.bases (qid * 32 + pipe.val) (max (tblGet c.bases (qid * 32 + pipe.val) 0) base) }
  have hother (u : TileId) (hu : u ≠ h.dstTile) := onSched_tile_ne s hu fun c =>
    { c with bases := tblSet 0 c.bases (qid * 32 + pipe.val) (max (tblGet c.bases (qid * 32 + pipe.val) 0) base) }
  have hframe : (s.onSched h.dstTile fun c =>
      { c with bases := tblSet 0 c.bases (qid * 32 + pipe.val) (max (tblGet c.bases (qid * 32 + pipe.val) 0) base) }) = { s with
      tiles := (s.onSched h.dstTile fun c =>
        { c with bases := tblSet 0 c.bases (qid * 32 + pipe.val) (max (tblGet c.bases (qid * 32 + pipe.val) 0) base) }).tiles } := rfl
  rw [hrun]
  generalize (s.onSched h.dstTile fun c =>
    { c with bases := tblSet 0 c.bases (qid * 32 + pipe.val) (max (tblGet c.bases (qid * 32 + pipe.val) 0) base) }) = w at *
  obtain ⟨hwant, hwne, hdoms⟩ := wantPes_spec w h.dstTile
  have hbases : ((w.wantPes h.dstTile).sched h.dstTile).bases =
      tblSet 0 (s.sched h.dstTile).bases (qid * 32 + pipe.val) (max (tblGet (s.sched h.dstTile).bases (qid * 32 + pipe.val) 0) base) := by
    rw [State.sched, hdoms, hself]
  refine ⟨_, rfl, ?_, fun j hj => ?_, fun u hu => (hwne u hu).trans (hother u hu), by rw [hwant, hframe]⟩
  · rw [hbases, tblGet_set_self]
  · rw [hbases, tblGet_set_ne _ _ hj]

/-- From `s` to `t` only the queries change, and query `qid` is there, does not fail and has `n` pipelines. -/
def planning (s t : State) (qid n : Nat) : Prop :=
  t = { s with queries := t.queries, tick := t.tick } ∧ ∃ x, t.query? qid = some x ∧ x.failing = false ∧ x.pipes.length = n

theorem planning.onQuery {s t : State} {qid n : Nat} (h : planning s t qid n) (f : Query → Query) (hq : ∀ x, (f x).qid = x.qid)
    (hf : ∀ x, (f x).failing = x.failing) (hp : ∀ x, (f x).pipes.length = x.pipes.length) : planning s (t.onQuery qid f) qid n := by
  obtain ⟨ht, x, hx, hfail, hlen⟩ := h
  refine ⟨?_, f x, onQuery_found f hq hx, (hf x).trans hfail, (hp x).trans hlen⟩
  rw [ht]
  rfl

theorem planning.onPipe {s t : State} {qid n : Nat} (h : planning s t qid n) (i : Nat) (f : PipeState → PipeState) :
    planning s (t.onPipe qid i f) qid n :=
  h.onQuery (fun q => { q with pipes := q.pipes.set i (f (q.pipe i)) }) (fun _ => rfl) (fun _ => rfl) fun _ => List.length_set ..

theorem planning.bump {s t : State} {qid n : Nat} (h : planning s t qid n) : planning s t.bump qid n := by
  obtain ⟨ht, hx⟩ := h
  refine ⟨?_, hx⟩
  rw [ht]
  rfl

/-- The release itself: the query's pipeline is released, and nothing but the queries has changed. -/
theorem barrierEff_releases {s : State} {qid k : Nat} {q : Query} (hq : s.query? qid = some q) (hf : q.failing = false) (hk : k < q.pipes.length) :
    ∃ (w : State) (y : Query) (l : List TileId), w = { s with queries := w.queries, tick := w.tick } ∧ w.query? qid = some y ∧
      y.failing = false ∧ (y.pipe k).released = true ∧ barrierEff q q.img k s = (l.foldl (fun s t =>
        s.sendCtl 0x33 (tid q.home) t q.ctx (leBytes 2 qid ++ leBytes 1 k)) (w.freeTokens (tid q.home) qid k q.slice)).settleQuery qid := by
  have hqid := query?_qid hq
  unfold barrierEff
  dsimp only
  rw [hqid]
  have hs : planning s s qid q.pipes.length := ⟨rfl, q, hq, hf, rfl⟩
  generalize ha : (if (q.img.pipes.getD k default).plan.src = 3 then
    (s.onPipe qid (q.img.pipes.getD k default).plan.prod
      (s.fixTable (q.img.pipes.getD (q.img.pipes.getD k default).plan.prod default).sink)).bump else s) = a
  have hpa : planning s a qid q.pipes.length := by
    subst ha
    split
    · exact (hs.onPipe ..).bump
    · exact hs
  obtain ⟨x, hx, -, -⟩ := hpa.2
  rw [hx]
  dsimp only
  rw [query?_qid hx]
  generalize hb : (if (q.img.pipes.getD k default).plan.src = 1 then a else
    (a.onPipe qid k fun ps => { ps with planned := true, morsels := x.readMorsels q.img (q.img.pipes.getD k default) }).onQuery qid fun y =>
      { y with toPost := y.toPost ++ x.tokens (q.img.pipes.getD k default) (x.readMorsels q.img (q.img.pipes.getD k default)) }) = b
  have hpb : planning s b qid q.pipes.length := by
    subst hb
    split
    · exact hpa
    · exact (hpa.onPipe ..).onQuery _ (fun _ => rfl) (fun _ => rfl) fun _ => rfl
  obtain ⟨hframe, z, hz, hzf, hzl⟩ := hpb
  have hrel := onQuery_found (fun q => { q with pipes := q.pipes.set k { q.pipe k with released := true } }) (fun _ => rfl) hz
  refine ⟨b.onPipe qid k fun ps => { ps with released := true }, _, _, ?_, hrel, hzf, ?_, rfl⟩
  · rw [hframe]
    rfl
  · have hlt : k < z.pipes.length := by rw [hzl]; exact hk
    simp [Query.pipe, hlt]

/-- BARRIER_RELEASE of a pipeline whose barrier is met (R339). -/
theorem barrierRelease_releases {s : State} {qid : Nat} {pipe : Fin 32} {q : Query} (hq : s.query? qid = some q) (hf : q.failing = false)
    (hlen : pipe.val < q.pipes.length) (hrel : (q.pipe pipe.val).released = false) (hmet : q.barrierMet q.img pipe.val = true) :
    ∃ t : State, exec (.barrierRelease qid pipe) s = .next t ∧
      (∀ y, t.query? qid = some y → (y.pipe pipe.val).released = true) ∧
      (∀ k ∈ (t.sched (tid q.home)).tokens, k.qid = qid → k.pipe = pipe.val → k.barrier = false) ∧
      sameStore s t ∧ t.queues = s.queues ∧ t.keys = s.keys := by
  obtain ⟨w, y, l, hw, hy, hyf, hyr, heff⟩ := barrierEff_releases hq hf hlen
  have hrun : exec (.barrierRelease qid pipe) s = .next (barrierEff q q.img pipe.val s) := by
    simp only [exec, execBarrierRelease, hq]
    rw [if_pos ⟨hf, hlen, hrel, hmet⟩]
  obtain ⟨hfree, -, hsched, htok⟩ := freeTokens_spec w (tid q.home) qid pipe.val q.slice
  have hwtile (u : TileId) : w.tile u = s.tile u := by rw [hw]; rfl
  rw [heff] at hrun
  generalize w.freeTokens (tid q.home) qid pipe.val q.slice = v at *
  have hsent : told v (l.foldl (fun s t => s.sendCtl 0x33 (tid q.home) t q.ctx (leBytes 2 qid ++ leBytes 1 pipe.val)) v) :=
    .foldl (fun s t => .sendCtl (by decide) (by decide) ..) l v
  generalize l.foldl (fun s t => s.sendCtl 0x33 (tid q.home) t q.ctx (leBytes 2 qid ++ leBytes 1 pipe.val)) v = x at *
  have hx : x.query? qid = some y := by rw [← hy, State.query?, State.query?, hsent.2.1, hfree]
  obtain ⟨htidy, hruns, hfind⟩ := settleQuery_tidied (s := x) (qid := qid) fun z hz => by
    obtain rfl := Option.some.inj (hx.symm.trans hz)
    exact hyf
  refine ⟨_, hrun, fun z hz => ?_, fun k hk hkq hkp => ?_, ?_, ?_, ?_⟩
  · obtain rfl := Option.some.inj (hx.symm.trans (hfind z hz))
    exact hyr
  · have hin : k ∈ (v.sched (tid q.home)).tokens := by
      have h := (htidy.tile (tid q.home)).2 k hk
      rwa [hsent.2.2 (tid q.home)] at h
    rw [htok] at hin
    obtain ⟨j, -, rfl⟩ := List.mem_map.mp hin
    by_cases hj : j.qid = qid ∧ j.pipe = pipe.val
    · rw [if_pos hj]
    · rw [if_neg hj] at hkq hkp
      exact absurd ⟨hkq, hkp⟩ hj
  · refine sameStore.trans (t := x) ⟨?_, ?_, fun u => ?_⟩ htidy.sameStore
    · rw [hsent.2.1, hfree, hw]
    · rw [hsent.2.1, hfree, hw]
    · rw [hsent.2.2 u, hsched u, hwtile]
  · rw [hruns.1, hsent.2.1, hfree, hw]
  · rw [hruns.2.1, hsent.2.1, hfree, hw]

/-! ### Merge passes and spilled pages (R247, R278) -/

/-- A pipeline's new state: the pages that it takes into use are no longer poisoned, and the store stays. -/
theorem putPipe_tidied (s : State) (q : Query) (k : Nat) (ps : PipeState) : tidied s (s.putPipe q k ps) := by
  have hfresh (s : State) (qid pipe tile page : Nat) (spilled : Bool) : tidied s (s.freshPage qid pipe tile page spilled) := by
    unfold State.freshPage
    split
    · exact .of_eq rfl rfl fun _ => ⟨rfl, rfl⟩
    · exact .onTile _ _ _ fun _ => ⟨rfl, rfl⟩
  unfold State.putPipe
  dsimp only
  exact (tidied.onQuery s q.qid fun y => { y with pipes := y.pipes.set k ps }).trans (.foldl (fun s x => hfresh ..) _ _)

/-- A pass whose rows are sound and whose tally holds. -/
theorem mergePass_merges {s : State} {unit : TileId} {q : Query} {pipe : Nat} {k : Nat × Nat} {u : Upset}
    (hrows : ∀ r ∈ s.passOut (q.pipe pipe) k, s.rowBad q.qid pipe k.1 (q.img.pipes.getD pipe default).sink r.row = false)
    (hchecks : ∀ c ∈ passChecks (q.img.pipes.getD pipe default).sinkIx ((q.pipe pipe).passRuns k).length
      ((passCounts ((q.pipe pipe).passRuns k) (s.passOut (q.pipe pipe) k)).upset u.counters).val, c.ok = true) :
    s.mergePass unit q pipe k u = (s.onTile unit fun x =>
      { x with sortTally := (passCounts ((q.pipe pipe).passRuns k) (s.passOut (q.pipe pipe) k)).upset u.counters }).putPipe q pipe
        ((q.pipe pipe).mergeRuns k (s.passOut (q.pipe pipe) k)) := by
  have hnone : firstWrong (passChecks (q.img.pipes.getD pipe default).sinkIx ((q.pipe pipe).passRuns k).length
      ((passCounts ((q.pipe pipe).passRuns k) (s.passOut (q.pipe pipe) k)).upset u.counters).val) = none :=
    List.find?_eq_none.mpr fun c hc => by rw [hchecks c hc]; decide
  have hrowsok : ((s.passOut (q.pipe pipe) k).any fun r => s.rowBad q.qid pipe k.1 (q.img.pipes.getD pipe default).sink r.row) = false :=
    List.any_eq_false.mpr fun r hr => by rw [hrows r hr]; decide
  unfold State.mergePass
  dsimp only
  rw [hrowsok, if_neg Bool.false_ne_true, hnone]

/-- MERGE_PASS_END (R278). -/
theorem mergePassEnd_merges {s : State} {t : TileId} {qid : Nat} {pipe : Fin 32} {u : Upset} {q : Query} {k : Nat × Nat}
    (hq : s.query? qid = some q) (hf : q.failing = false) (hplan : (q.pipe pipe.val).planned = true) (hver : (q.pipe pipe.val).allVerified = true)
    (hsort : (q.img.pipes.getD pipe.val default).sink.kind = kSort) (hunit : (s.sortTile t).isSome = true) (hlen : pipe.val < q.pipes.length)
    (hk : (q.pipe pipe.val).unmerged.find? (fun k => k.1 == t.val) = some k)
    (hrows : ∀ r ∈ s.passOut (q.pipe pipe.val) k, s.rowBad q.qid pipe.val k.1 (q.img.pipes.getD pipe.val default).sink r.row = false)
    (hchecks : ∀ c ∈ passChecks (q.img.pipes.getD pipe.val default).sinkIx ((q.pipe pipe.val).passRuns k).length
      ((passCounts ((q.pipe pipe.val).passRuns k) (s.passOut (q.pipe pipe.val) k)).upset u.counters).val, c.ok = true) :
    ∃ s' : State, exec (.mergePassEnd t qid pipe u) s = .next s' ∧
      (∀ y, s'.query? qid = some y → (y.pipe pipe.val).runs = ((q.pipe pipe.val).mergeRuns k (s.passOut (q.pipe pipe.val) k)).runs) ∧
      sameStore s s' ∧ s'.queues = s.queues ∧ s'.keys = s.keys := by
  obtain ⟨unit, hunit⟩ := Option.isSome_iff_exists.mp hunit
  have hqid := query?_qid hq
  have hrun : exec (.mergePassEnd t qid pipe u) s = .next ((((s.mergePass unit q pipe.val k u).settleQuery qid).wantAll).bump) := by
    simp only [exec, execMergePassEnd, hq, mergeEff, hk, hunit, hqid]
    rw [if_pos ⟨hf, hplan, hver, hsort⟩]
  rw [mergePass_merges hrows hchecks] at hrun
  have htally (c : Counts) : tidied s (s.onTile unit fun x => { x with sortTally := c }) ∧
      (s.onTile unit fun x => { x with sortTally := c }).queues = s.queues ∧ (s.onTile unit fun x => { x with sortTally := c }).keys = s.keys ∧
      (s.onTile unit fun x => { x with sortTally := c }).query? qid = some q :=
    ⟨.onTile _ _ _ fun _ => ⟨rfl, rfl⟩, rfl, rfl, hq⟩
  obtain ⟨htidy, hvq, hvk, hfound⟩ := htally ((passCounts ((q.pipe pipe.val).passRuns k) (s.passOut (q.pipe pipe.val) k)).upset u.counters)
  generalize (s.onTile unit fun x =>
    { x with sortTally := (passCounts ((q.pipe pipe.val).passRuns k) (s.passOut (q.pipe pipe.val) k)).upset u.counters }) = v at *
  have hput := putPipe_tidied v q pipe.val ((q.pipe pipe.val).mergeRuns k (s.passOut (q.pipe pipe.val) k))
  obtain ⟨-, -, hpq, hpk⟩ := putPipe_spec v q pipe.val ((q.pipe pipe.val).mergeRuns k (s.passOut (q.pipe pipe.val) k))
  have hpipe := putPipe_pipe (k := pipe.val) (ps := (q.pipe pipe.val).mergeRuns k (s.passOut (q.pipe pipe.val) k)) hfound
  generalize v.putPipe q pipe.val ((q.pipe pipe.val).mergeRuns k (s.passOut (q.pipe pipe.val) k)) = w at *
  obtain ⟨hset, hsetruns, hfind⟩ := settleQuery_tidied (s := w) (qid := qid) fun z hz => by
    obtain rfl := Option.some.inj (hpipe.symm.trans hz)
    exact hf
  have hwant := messaged.wantAll (w.settleQuery qid)
  refine ⟨_, hrun, fun y hy => ?_, (((htidy.trans hput).trans hset).trans ((tidied.of_messaged hwant).trans (.bump _))).sameStore, ?_, ?_⟩
  · have hy' : (w.settleQuery qid).query? qid = some y := by
      rw [State.query?, ← wantAll_queries]
      exact hy
    obtain rfl := Option.some.inj (hpipe.symm.trans (hfind y hy'))
    rw [pipe_set _ hlen]
  · exact ((endsRuns.of_messaged hwant).1.trans hsetruns.1).trans (hpq.trans hvq)
  · exact ((endsRuns.of_messaged hwant).2.1.trans hsetruns.2.1).trans (hpk.trans hvk)

theorem spillPage_spills {s : State} {t : TileId} {qid : Nat} {pipe : Fin 32} {q : Query} (hq : s.query? qid = some q) (hf : q.failing = false)
    (hx : (q.img.pipes.getD pipe.val default).sink.kind = kExchange)
    (hfull : (q.img.pipes.getD pipe.val default).sink.b 12 * pagesPerMib ≤ (q.pipe pipe.val).sramPages t.val)
    (hroom : (q.pipe pipe.val).spilledPages t.val < (q.img.pipes.getD pipe.val default).sink.u 14 2 * pagesPerMib) :
    exec (.spillPage t qid pipe) s = .next (s.putPipe q pipe.val ((q.pipe pipe.val).spillOne t.val)) := by
  simp only [exec, execSpillPage, hq]
  rw [if_pos ⟨hf, hx, hfull, hroom⟩]

/-! ### UDF calls (R233, R417, R418) -/

/-- A call starts on the PE's own Sumen-S core, and is listed with the morsel. -/
theorem placeCall_starts {s : State} {pe : Gpe} {r : Run} {c : Call} (hrun : s.run? pe = some r) (hidle : (s.sumen (.small pe)).call = none) :
    let t := s.placeCall pe false c
    (t.sumen (.small pe)) = Core.begin false (s.sumen (.small pe)) c ∧ t.run? pe = some { r with calls := r.calls ++ [(c.block, c.uop)] } ∧
      (∀ p, p ≠ pe → t.run? p = s.run? p) ∧ t = { s with tiles := t.tiles } := by
  intro t
  have ht : t = (s.setSumen (.small pe) (Core.begin false (s.sumen (.small pe)) c)).onRun pe fun r => { r with calls := r.calls ++ [(c.block, c.uop)] } := by
    dsimp only [t]
    rw [State.placeCall, if_neg Bool.false_ne_true]
    dsimp only
    rw [hidle, if_neg (by decide)]
  have hset (k : Core) : (s.setSumen (.small pe) k).sumen (.small pe) = k ∧ (∀ p, (s.setSumen (.small pe) k).run? p = s.run? p) := by
    have hon : s.setSumen (.small pe) k =
        s.onTile (gpeTile pe) fun x => { x with small := x.small.set (gpeLocal pe).val k (gpeLocal pe).isLt } := rfl
    refine ⟨?_, fun p => by rw [hon]; refine run?_onTile s _ _ ?_ p; exact fun _ => rfl⟩
    unfold State.setSumen State.sumen
    dsimp only
    rw [State.onTile_tile]
    exact Vector.getElem_set_self ..
  obtain ⟨hcore, hruns⟩ := hset (Core.begin false (s.sumen (.small pe)) c)
  have hframe (k : Core) : s.setSumen (.small pe) k = { s with tiles := (s.setSumen (.small pe) k).tiles } := rfl
  have hfr := hframe (Core.begin false (s.sumen (.small pe)) c)
  clear_value t
  subst ht
  generalize s.setSumen (.small pe) (Core.begin false (s.sumen (.small pe)) c) = u at *
  unfold State.onRun
  refine ⟨?_, ?_, fun p hp => ?_, ?_⟩
  · rw [← hcore]
    unfold State.setRun State.sumen
    dsimp only
    rw [State.onTile_tile]
  · rw [run?_setRun, hruns, hrun]
    rfl
  · rw [run?_setRun_ne _ _ hp, hruns]
  · rw [hfr]
    rfl

theorem working?_run {s : State} {pe : Gpe} {r : Run} {q : Query} (h : s.working? pe = some (r, q)) : s.run? pe = some r := by
  unfold State.working? at h
  split at h
  · exact absurd h (by simp)
  next r' hr =>
    split at h
    · obtain ⟨q', -, hq'⟩ := Option.map_eq_some_iff.mp h
      obtain ⟨rfl, -⟩ := Prod.mk.inj hq'
      exact hr
    · exact absurd h (by simp)

theorem endsRuns.castVote (s : State) (t : TileId) (d : DomId) (voter v : Nat) : endsRuns s (s.castVote t d voter v) :=
  .of_eq (by rw [castVote_frame]) (by rw [castVote_frame]) (by rw [castVote_frame]) fun u => by rw [castVote_tile]; exact ⟨rfl, rfl⟩

theorem endsRuns.degrade (s : State) : endsRuns s s.degrade := by
  unfold State.degrade
  dsimp only
  split
  · exact .of_eq rfl rfl rfl fun _ => ⟨rfl, rfl⟩
  · exact .refl s

theorem endsRuns.retarget (s : State) (n : Nat) : endsRuns s (s.retarget n) := by
  unfold State.retarget
  dsimp only
  refine endsRuns.trans (.foldl (fun s t => .onTile s t _ ?_) _ s) (.foldl (fun s k => ?_) _ _)
  · exact fun _ => ⟨rfl, rfl⟩
  · split
    · exact (endsRuns.bump _).trans (.onQuery ..)
    · exact .failQuery ..

/-- The fence of a PE ends its run, and starts none. -/
theorem endsRuns.fencePe (s : State) (g : Gpe) : endsRuns s (s.fencePe g) := by
  have hunit (s : State) (t : TileId) (kind index : Nat) (f : FenceBits → FenceBits) : endsRuns s (s.fenceUnit t kind index f) :=
    ((endsRuns.onTile s t (fun x => { x with err := { x.err with fence := f x.err.fence } }) fun _ => ⟨rfl, rfl⟩).trans (.logErr ..)).trans
      (.degrade _)
  unfold State.fencePe
  dsimp only
  split
  · exact .refl s
  · exact (((((hunit ..).trans (.castVote ..)).trans (.castVote ..)).trans (.stopCalls ..)).trans (abandon_stops ..).1).trans (.retarget ..)

theorem endsRuns.countMiss (s : State) (pe : Gpe) (attempt : Nat) : endsRuns s (s.countMiss pe attempt) := by
  have hroll : endsRuns s (s.rollVerify (gpeTile pe)) := by
    unfold State.rollVerify
    split
    · exact .refl s
    · exact .onTile s _ _ fun _ => ⟨rfl, rfl⟩
  have hcount (u : State) (n : Nat) : endsRuns u (u.onTile (gpeTile pe) fun x =>
      { x with err := { x.err with peMiss := x.err.peMiss.set (gpeLocal pe).val n } }) := .onTile u _ _ fun _ => ⟨rfl, rfl⟩
  unfold State.countMiss
  dsimp only
  split
  · exact (hroll.trans (hcount ..)).trans (.fencePe ..)
  · exact hroll.trans (hcount ..)

theorem endsRuns.settleQuery (s : State) (qid : Nat) : endsRuns s (s.settleQuery qid) := by
  unfold State.settleQuery
  split
  · exact .refl s
  · split
    · exact .settleFailing ..
    · split
      · exact ((endsRuns.finish ..).trans (.removeQuery ..)).trans (.revoteAll _)
      · exact .refl s

theorem endsRuns.afterEnd (s : State) (r : Run) : endsRuns s (s.afterEnd r) := by
  have htell : endsRuns s (s.tellBase r.qid r.pipe) := by
    unfold State.tellBase
    split
    · exact .refl s
    · dsimp only
      split
      · exact .of_messaged (.sendBase ..)
      · exact .refl s
  exact ((htell.trans (.settleQuery ..)).trans (.of_messaged (.wantAll _))).trans (.bump _)

/-- The end of a morsel takes it off its PE. -/
theorem endRun_ends (s : State) (pe : Gpe) (r : Run) (energy reason : Nat) :
    endsRuns s (s.endRun pe r energy reason) ∧ (s.endRun pe r energy reason).run? pe = none := by
  have hrest : endsRuns (s.setRun pe none) (s.endRun pe r energy reason) := ((endsRuns.stopCalls ..).trans (.settleEnergy ..)).trans (.trace ..)
  exact ⟨(endsRuns.setRun s pe).trans hrest, hrest.run_none (run?_setRun ..)⟩

/-- A mismatch takes the morsel off its PE, and what follows of it starts none there (R321). -/
theorem mismatch_ends (s : State) (pe : Gpe) (r : Run) (q : Query) (energy : Nat) (c : Check) :
    (s.mismatch pe r q energy c).run? pe = none ∧ (s.mismatch pe r q energy c).keys = s.keys ∧ (s.mismatch pe r q energy c).queues = s.queues := by
  obtain ⟨hend, hnone⟩ := endRun_ends s pe r energy 0x04
  have hrest : endsRuns (s.endRun pe r energy 0x04) (s.mismatch pe r q energy c) := by
    unfold State.mismatch
    dsimp only
    have hmiss (e : ErrRec) := (endsRuns.logErr (s.endRun pe r energy 0x04) (gpeTile pe) e).trans (.countMiss _ pe r.attempt)
    refine endsRuns.trans ?_ (.afterEnd ..)
    split
    · exact (hmiss _).trans (.failQuery ..)
    · split
      · exact hmiss _
      · split
        · exact (hmiss _).trans (.plan ..)
        · exact (hmiss _).trans (.failQuery ..)
  obtain ⟨hq, hk, -, -⟩ := hend.trans hrest
  exact ⟨hrest.run_none hnone, hk, hq⟩

/-- UDF_CALL at the block that comes next, on a Sumen-S core: the call as it is placed. -/
def callOf (s : State) (pe : Gpe) (r : Run) (q : Query) (f : Formula) (block uop select rows : Nat) (rs : List CRow) : Call :=
  let e := q.env r.pipe (gpeTile pe).val r.at_
  let w := Uop.ofWord (f.words.getD uop 0)
  let ds := udfDescs ((e.img.udf.map (·.2)).getD [])
  let nargs := byteAt (ds.getD w.imm []) 9
  let fr := s.callFrame e block (callArgs e f w nargs rs)
  { pe := pe, qid := r.qid, handle := q.handle, block := block, uop := uop, udf := w.imm, rows := rows, select := select
    nargs := nargs, entry := udfEntry ds w.imm, frame := fr.1, strings := fr.2 }

theorem udfCall_runs {s : State} {pe : Gpe} {block : Nat} {uop : Fin 64} {r : Run} {q : Query} {f : Formula} {select rows : Nat} {rs : List CRow}
    (sc : ScrubResult) (hw : s.working? pe = some (r, q))
    (hform : (q.env r.pipe (gpeTile pe).val r.at_).p.formula = some f)
    (hwait : s.frontBlock (q.env r.pipe (gpeTile pe).val r.at_) r.udf block
      ((s.feed (q.env r.pipe (gpeTile pe).val r.at_)).rows.filter fun x => x.blk == block) = .wait block uop.val select rows rs)
    (hnew : r.calls.contains (block, uop.val) = false) (hfew : r.calls.length < 8)
    (hbefore : s.blocksBefore (q.env r.pipe (gpeTile pe).val r.at_) r (s.feed (q.env r.pipe (gpeTile pe).val r.at_)) false block = true)
    (hsmall : byteAt ((udfDescs (((q.env r.pipe (gpeTile pe).val r.at_).img.udf.map (·.2)).getD [])).getD
      (Uop.ofWord (f.words.getD uop.val 0)).imm []) 8 = 0)
    (hargs : s.argPoison (q.env r.pipe (gpeTile pe).val r.at_) (callArgs (q.env r.pipe (gpeTile pe).val r.at_) f (Uop.ofWord (f.words.getD uop.val 0))
      (byteAt ((udfDescs (((q.env r.pipe (gpeTile pe).val r.at_).img.udf.map (·.2)).getD [])).getD
        (Uop.ofWord (f.words.getD uop.val 0)).imm []) 9) rs) = none) :
    exec (.udfCall pe block ⟨uop, sc⟩) s = .next (
      let x := s.scratchEcc pe r q (q.env r.pipe (gpeTile pe).val r.at_) false block uop.val select sc
      if x.2 = false then x.1 else x.1.placeCall pe false (callOf s pe r q f block uop.val select rows rs)) := by
  simp only [exec, execUdfCall, hw, udfCallEff, hform, hwait, hsmall]
  rw [show ((0 : Nat) == 1) = false from rfl, hnew, hbefore]
  rw [if_neg (by simp [Nat.not_le.mpr hfew])]
  simp only [hargs]
  rfl

/-- UDF_CALL with a clean scratch, and one with an error that is not corrected (R233, R327, R417). -/
theorem udfCall_calls {s : State} {pe : Gpe} {block : Nat} {uop : Fin 64} {r : Run} {q : Query} {f : Formula} {select rows : Nat} {rs : List CRow}
    (hw : s.working? pe = some (r, q))
    (hrun : ∀ sc, exec (.udfCall pe block ⟨uop, sc⟩) s = .next (
      let x := s.scratchEcc pe r q (q.env r.pipe (gpeTile pe).val r.at_) false block uop.val select sc
      if x.2 = false then x.1 else x.1.placeCall pe false (callOf s pe r q f block uop.val select rows rs))) :
    ((s.sumen (.small pe)).call = none →
      ∃ (t : State) (c : Call), exec (.udfCall pe block ⟨uop, .clean⟩) s = .next t ∧ (t.sumen (.small pe)).call = some c ∧ c.pe = pe ∧ c.qid = r.qid ∧
        c.block = block ∧ c.uop = uop.val ∧
        (t.sumen (.small pe)).pc = BitVec.ofNat 64 (udfEntry (udfDescs (((q.env r.pipe (gpeTile pe).val r.at_).img.udf.map (·.2)).getD []))
          (Uop.ofWord (f.words.getD uop.val 0)).imm) ∧
        t.run? pe = some { r with calls := r.calls ++ [(block, uop.val)] } ∧ (∀ p, p ≠ pe → t.run? p = s.run? p) ∧ t = { s with tiles := t.tiles }) ∧
    ∃ t : State, exec (.udfCall pe block ⟨uop, .uncorrectable⟩) s = .next t ∧ t.run? pe = none ∧ t.keys = s.keys ∧ t.queues = s.queues := by
  refine ⟨fun hidle => ?_, ?_⟩
  · obtain ⟨hcore, hlist, hothers, hframe⟩ := placeCall_starts (c := callOf s pe r q f block uop.val select rows rs) (working?_run hw) hidle
    refine ⟨_, callOf s pe r q f block uop.val select rows rs, hrun .clean, ?_, rfl, rfl, rfl, rfl, ?_, hlist, hothers, hframe⟩
    · exact congrArg Core.call hcore
    · exact congrArg Core.pc hcore
  · refine ⟨_, hrun .uncorrectable, ?_⟩
    exact mismatch_ends s.bump pe r q _ _

/-- Settles O28: each command is its effect where its guard holds; what follows a release, a pass or a mismatch (messages, the end of a query,
votes) is followed through relations that keep the store, the queues and the keys, and start no run. -/
theorem barriersMergesSpillsAndCalls : Obligations.BarriersMergesSpillsAndCalls := by
  unfold Obligations.BarriersMergesSpillsAndCalls
  refine ⟨⟨?_, ?_, ?_⟩, ?_, ?_, ?_⟩
  · intro s qid pipe q hq hf hlen hrel hmet
    exact barrierRelease_releases hq hf hlen hrel hmet
  · intro s h qid pipe q hq hlive hrel
    exact barrier_frees hq hlive hrel
  · intro s h qid pipe base q hq hlive
    exact emitBase_advances base hq hlive
  · intro s t qid pipe u q k hq hf ps p hplan hver hsort hunit hlen hk mine out hrows hchecks
    exact mergePassEnd_merges hq hf hplan hver hsort hunit hlen hk hrows hchecks
  · intro s t qid pipe q hq hf hx op hfull hroom
    exact spillPage_spills hq hf hx hfull hroom
  · intro s pe block uop r q f select rows rs hw hf e fd ds imm hform hwait hnew hfew hbefore hsmall hargs
    exact udfCall_calls hw fun sc => udfCall_runs sc hw hform hwait hnew hfew hbefore hsmall hargs

end Sys2Proof.Machine
end

section
/-! Commits of emitted rows and the host result ring (R289, R290, R293, R295, R318). -/
namespace Sys2Proof.Machine

/-! ### Which morsel commits (R289) -/

theorem lowestReady_spec {l : List EmitReady} {x : EmitReady} (h : lowestReady l = some x) : x ∈ l ∧ ∀ y ∈ l, x.seq ≤ y.seq := by
  induction l generalizing x with
  | nil => exact absurd h (by simp [lowestReady])
  | cons a l ih =>
    unfold lowestReady at h
    cases hl : lowestReady l with
    | none =>
      rw [hl] at h
      obtain rfl := Option.some.inj h
      have hnil : l = [] := by
        cases l with
        | nil => rfl
        | cons b r =>
          unfold lowestReady at hl
          split at hl
          · exact absurd hl (by simp)
          · exact absurd hl (by simp)
      subst hnil
      exact ⟨List.mem_cons_self, fun y hy => Nat.le_of_eq (congrArg EmitReady.seq (List.mem_singleton.mp hy).symm)⟩
    | some y =>
      rw [hl] at h
      obtain ⟨hy, hlow⟩ := ih hl
      obtain rfl := Option.some.inj h
      by_cases hlt : y.seq < a.seq
      · rw [if_pos hlt]
        exact ⟨List.mem_cons_of_mem _ hy, List.forall_mem_cons.mpr ⟨Nat.le_of_lt hlt, hlow⟩⟩
      · rw [if_neg hlt]
        exact ⟨List.mem_cons_self, List.forall_mem_cons.mpr ⟨Nat.le_refl _, fun z hz => Nat.le_trans (Nat.not_lt.mp hlt) (hlow z hz)⟩⟩

theorem nextCommit_mem {ps : PipeState} {order : Nat} {x : EmitReady} (h : ps.nextCommit order = some x) : x ∈ ps.ready := by
  unfold PipeState.nextCommit at h
  split at h
  · exact List.mem_of_mem_head? h
  · exact (lowestReady_spec (Option.filter_eq_some_iff.mp h).1).1

theorem nextCommit_inOrder {ps : PipeState} {order : Nat} {x : EmitReady} (ho : order ≠ 0) (h : ps.nextCommit order = some x) :
    x ∈ ps.ready ∧ (∀ y ∈ ps.ready, x.seq ≤ y.seq) ∧ ∀ m ∈ ps.morsels, m.seq < x.seq → ps.isVerified m = true := by
  unfold PipeState.nextCommit at h
  rw [if_neg ho] at h
  obtain ⟨hx, hall⟩ := Option.filter_eq_some_iff.mp h
  obtain ⟨hmem, hlow⟩ := lowestReady_spec hx
  refine ⟨hmem, hlow, fun m hm hlt => ?_⟩
  have hor := List.all_eq_true.mp hall m hm
  rw [Bool.or_eq_true, decide_eq_true_iff] at hor
  exact hor.resolve_left (Nat.not_le.mpr hlt)

/-! ### A commit begins (R291) -/

theorem begin_unlimited (ps : PipeState) (x : EmitReady) : ps.begin 0 x = { ps with
    taken := ps.taken + x.rows.length, ready := ps.ready.map fun y => if y = x then { x with begun := true } else y } := by
  unfold PipeState.begin takeRows
  simp only [if_true]
  congr 1
  refine List.map_congr_left fun y _ => ?_
  split
  next h => rw [h]
  · rfl

theorem find?_begun {l : List EmitReady} {x : EmitReady} (hnone : l.find? (·.begun) = none) (hx : x ∈ l) :
    (l.map fun y => if y = x then { x with begun := true } else y).find? (·.begun) = some { x with begun := true } := by
  induction l with
  | nil => exact absurd hx (by simp)
  | cons a l ih =>
    rw [List.find?_cons] at hnone
    split at hnone
    · exact absurd hnone (by simp)
    next ha =>
      rw [List.map_cons, List.find?_cons]
      by_cases hax : a = x
      · rw [if_pos hax]
      · rw [if_neg hax, ha]
        exact ih hnone ((List.mem_cons.mp hx).resolve_left (Ne.symm hax))

/-- With none under way, the commit that begins is the one under way. -/
theorem begin_begun? {ps : PipeState} {x : EmitReady} (hnone : ps.begun? = none) (hx : x ∈ ps.ready) :
    (ps.begin 0 x).begun? = some { x with begun := true } := by
  rw [begin_unlimited]
  exact find?_begun hnone hx

/-! ### The pipelines of an image -/

theorem Img.pipes_length (q : Query) : q.img.pipes.length = min 32 q.img.npipe := by
  simp [Query.img, Img.ofBytes]

theorem Img.pipe_ix {q : Query} {k : Nat} (h : k < q.img.pipes.length) : (q.img.pipes.getD k default).ix = k := by
  rw [List.getD_eq_getElem?_getD, List.getElem?_eq_getElem h, Option.getD_some]
  simp only [Query.img, Img.ofBytes, List.getElem_map, List.getElem_range]

/-! ### After a commit -/

theorem onPipe_found {s : State} {qid k : Nat} {q : Query} (f : PipeState → PipeState) (hq : s.query? qid = some q) :
    (s.onPipe qid k f).query? qid = some { q with pipes := q.pipes.set k (f (q.pipe k)) } :=
  onQuery_found (fun q => { q with pipes := q.pipes.set k (f (q.pipe k)) }) (fun _ => rfl) hq

/-- The base that a commit tells is recorded with its pipeline, and changes no more of the query. -/
theorem tellBase_found {s : State} {qid k : Nat} {q : Query} (hq : s.query? qid = some q) (hk : k < q.pipes.length) :
    ∃ b, (s.tellBase qid k).query? qid = some { q with pipes := q.pipes.set k { q.pipe k with sentBase := b } } := by
  have hsame : q = { q with pipes := q.pipes.set k { q.pipe k with sentBase := (q.pipe k).sentBase } } := by
    have hset : q.pipes.set k (q.pipe k) = q.pipes := by
      rw [Query.pipe, List.getD_eq_getElem?_getD, List.getElem?_eq_getElem hk]
      exact List.set_getElem_self hk
    rw [show ({ q.pipe k with sentBase := (q.pipe k).sentBase } : PipeState) = q.pipe k from rfl, hset]
  obtain rfl := query?_qid hq
  unfold State.tellBase
  rw [hq]
  dsimp only
  split
  · unfold State.sendBase
    split
    · exact ⟨_, hq.trans (congrArg some hsame)⟩
    next b hb =>
      have hsent (l : List TileId) : (l.foldl (fun s t => s.sendCtl 0x34 (tid q.home) t q.ctx
          (leBytes 2 q.qid ++ leBytes 1 k ++ List.replicate 5 0 ++ leBytes 8 b)) s).query? q.qid = some q := by
        have h := told.foldl (f := fun (s : State) t => s.sendCtl 0x34 (tid q.home) t q.ctx
          (leBytes 2 q.qid ++ leBytes 1 k ++ List.replicate 5 0 ++ leBytes 8 b)) (fun s t => .sendCtl (by decide) (by decide) ..) l s
        rw [← hq, State.query?, State.query?, h.2.1]
      exact ⟨b, onPipe_found (fun ps => { ps with sentBase := b }) (hsent _)⟩
  · exact ⟨_, hq.trans (congrArg some hsame)⟩

theorem messaged.tellBase (s : State) (qid k : Nat) : messaged s (s.tellBase qid k) := by
  unfold State.tellBase
  split
  · exact .refl s
  · dsimp only
    split
    · exact .sendBase ..
    · exact .refl s

/-- A query with a morsel that is not verified is not over. -/
theorem notOver_of_unverified {q : Query} {k : Nat} (hk : k < q.img.npipe) (h : ∃ m ∈ (q.pipe k).morsels, (q.pipe k).isVerified m = false) :
    q.over = false := by
  obtain ⟨m, hm, hv⟩ := h
  have hall : (q.pipe k).allVerified = false := List.all_eq_false.mpr ⟨m, hm, by rw [hv]; exact Bool.false_ne_true⟩
  have hdone : q.done q.img k = false := by rw [Query.done, pipeDone, hall, Bool.and_false, Bool.false_and]
  unfold Query.over
  rw [Bool.and_eq_false_iff]
  exact .inr (List.all_eq_false.mpr ⟨k, List.mem_range.mpr hk, by rw [hdone]; exact Bool.false_ne_true⟩)

/-- The end of a commit, with morsels of its pipeline still to verify: the morsel leaves the list, and the query goes on. -/
theorem commitEnd_goesOn {s : State} {qid : Nat} {e : QEnv} {x : EmitReady} {q : Query} (hq : s.query? qid = some q) (hf : q.failing = false)
    (hlimit : e.p.sink.limit = 0) (hk : e.p.ix < q.pipes.length) (hn : e.p.ix < q.img.npipe)
    (hopen : ∃ m ∈ (q.pipe e.p.ix).morsels, (q.pipe e.p.ix).isVerified m = false) :
    ∃ b y, (s.commitEnd qid e x).query? qid = some y ∧ y.rowsOut = q.rowsOut ∧ y.pipe e.p.ix = { q.pipe e.p.ix with
        ready := (q.pipe e.p.ix).ready.filter fun y => decide (y.morsel ≠ x.morsel), nextSeq := max (q.pipe e.p.ix).nextSeq (x.seq + 1)
        sentBase := b } ∧
      sameStore s (s.commitEnd qid e x) ∧ (s.commitEnd qid e x).queues = s.queues := by
  have hleft := onPipe_found (k := e.p.ix) (fun ps => { ps with
    ready := ps.ready.filter (fun y => decide (y.morsel ≠ x.morsel)), nextSeq := max ps.nextSeq (x.seq + 1) }) hq
  have hcons := onQuery_found (fun q => { q with consWait := q.consWait.filter fun w => w.1 != e.p.ix }) (fun _ => rfl) hleft
  have hkept (f : PipeState → PipeState) (g : Query → Query) : sameStore s ((s.onPipe qid e.p.ix f).onQuery qid g) ∧
      ((s.onPipe qid e.p.ix f).onQuery qid g).queues = s.queues := ⟨⟨rfl, rfl, fun _ => rfl⟩, rfl⟩
  obtain ⟨hstore, hqueues⟩ := hkept (fun ps => { ps with
    ready := ps.ready.filter (fun y => decide (y.morsel ≠ x.morsel)), nextSeq := max ps.nextSeq (x.seq + 1) })
    fun q => { q with consWait := q.consWait.filter fun w => w.1 != e.p.ix }
  unfold State.commitEnd
  dsimp only
  generalize ((s.onPipe qid e.p.ix fun ps => { ps with
    ready := ps.ready.filter (fun y => decide (y.morsel ≠ x.morsel)), nextSeq := max ps.nextSeq (x.seq + 1) }).onQuery qid
    fun q => { q with consWait := q.consWait.filter fun w => w.1 != e.p.ix }) = u at *
  generalize hy : ({ q with
    pipes := q.pipes.set e.p.ix { q.pipe e.p.ix with
      ready := (q.pipe e.p.ix).ready.filter (fun y => decide (y.morsel ≠ x.morsel)), nextSeq := max (q.pipe e.p.ix).nextSeq (x.seq + 1) }
    consWait := q.consWait.filter fun w => w.1 != e.p.ix } : Query) = y at hcons
  have hpipe : y.pipe e.p.ix = { q.pipe e.p.ix with
      ready := (q.pipe e.p.ix).ready.filter (fun y => decide (y.morsel ≠ x.morsel)), nextSeq := max (q.pipe e.p.ix).nextSeq (x.seq + 1) } := by
    rw [← hy]
    exact pipe_set (q := q) _ hk
  have hnotAll : (y.pipe e.p.ix).allVerified = false := by
    obtain ⟨m, hm, hv⟩ := hopen
    rw [hpipe]
    exact List.all_eq_false.mpr ⟨m, hm, by rw [Bool.not_eq_true]; exact hv⟩
  rw [hcons]
  dsimp only
  rw [if_neg (by rw [hlimit]; exact fun h => h.1 rfl), hcons]
  dsimp only
  rw [if_neg (by rw [PipeState.drained, hnotAll, Bool.and_false, Bool.false_and]; exact fun h => Bool.false_ne_true h.1)]
  have hylen : e.p.ix < y.pipes.length := by rw [← hy]; simpa using hk
  obtain ⟨b, htold⟩ := tellBase_found (k := e.p.ix) hcons hylen
  have hzpipe := pipe_set (q := y) { y.pipe e.p.ix with sentBase := b } hylen
  have hover : ({ y with pipes := y.pipes.set e.p.ix { y.pipe e.p.ix with sentBase := b } } : Query).over = false := by
    refine notOver_of_unverified (k := e.p.ix) (by rw [← hy]; exact hn) ?_
    rw [hzpipe, hpipe]
    exact hopen
  rw [settleQuery_same htold (by rw [← hy]; exact hf) hover]
  have htell := messaged.tellBase u qid e.p.ix
  have hwant := messaged.wantAll (u.tellBase qid e.p.ix)
  have htidy := (tidied.of_messaged (htell.trans hwant)).trans (.bump _)
  refine ⟨b, { y with pipes := y.pipes.set e.p.ix { y.pipe e.p.ix with sentBase := b } }, ?_, by rw [← hy], ?_, hstore.trans htidy.sameStore, ?_⟩
  · rw [← htold, State.query?, State.query?]
    exact congrArg _ (wantAll_queries _)
  · rw [hzpipe, hpipe]
  · rw [← hqueues]
    exact (endsRuns.of_messaged (htell.trans hwant)).1

/-- The pipeline of a commit's surroundings. -/
theorem commitEnv_pipe {q : Query} {k : Nat} (x : EmitReady) (h : k < q.img.pipes.length) :
    (q.commitEnv k x).p = q.img.pipes.getD k default ∧ (q.commitEnv k x).p.ix = k := ⟨rfl, Img.pipe_ix h⟩

/-- Rows that fill no frame join the carry, and the commit ends. -/
theorem commitFrames_carries {s : State} {qid k : Nat} {q : Query} {x : EmitReady} (hq : s.query? qid = some q) (hf : q.failing = false)
    (hlen : k < q.pipes.length) (himg : k < q.img.pipes.length) (hlimit : (q.img.pipes.getD k default).sink.limit = 0)
    (hfew : (q.pipe k).carry.length + x.rows.length < 1024) (hopen : ∃ m ∈ (q.pipe k).morsels, (q.pipe k).isVerified m = false) :
    ∃ b y, (s.commitFrames q (q.commitEnv k x) x).query? qid = some y ∧ y.rowsOut = q.rowsOut ∧ y.pipe k = { q.pipe k with
        carry := (q.pipe k).carry ++ x.rows
        ready := ((q.pipe k).ready.map fun y => if y.morsel = x.morsel then { y with rows := [] } else y).filter fun y => decide (y.morsel ≠ x.morsel)
        nextSeq := max (q.pipe k).nextSeq (x.seq + 1), sentBase := b } ∧
      sameStore s (s.commitFrames q (q.commitEnv k x) x) ∧ (s.commitFrames q (q.commitEnv k x) x).queues = s.queues := by
  obtain ⟨hp, hix⟩ := commitEnv_pipe x himg
  obtain rfl := query?_qid hq
  have hcarry := onPipe_found (k := k) (fun ps => { ps with
    carry := ps.carry ++ x.rows, ready := ps.ready.map fun y => if y.morsel = x.morsel then { y with rows := [] } else y }) hq
  have hpipe := pipe_set (q := q) { q.pipe k with
    carry := (q.pipe k).carry ++ x.rows, ready := (q.pipe k).ready.map fun y => if y.morsel = x.morsel then { y with rows := [] } else y } hlen
  have hkept (f : PipeState → PipeState) : sameStore s (s.onPipe q.qid k f) ∧ (s.onPipe q.qid k f).queues = s.queues :=
    ⟨⟨rfl, rfl, fun _ => rfl⟩, rfl⟩
  obtain ⟨hstore, hqueues⟩ := hkept fun ps => { ps with
    carry := ps.carry ++ x.rows, ready := ps.ready.map fun y => if y.morsel = x.morsel then { y with rows := [] } else y }
  unfold State.commitFrames
  rw [hix]
  dsimp only
  rw [if_neg (Nat.not_le.mpr hfew)]
  generalize (s.onPipe q.qid k fun ps => { ps with
    carry := ps.carry ++ x.rows, ready := ps.ready.map fun y => if y.morsel = x.morsel then { y with rows := [] } else y }) = w at *
  have hn : k < q.img.npipe := by
    rw [Img.pipes_length] at himg
    exact (Nat.lt_min.mp himg).2
  generalize hy : ({ q with pipes := q.pipes.set k { q.pipe k with
    carry := (q.pipe k).carry ++ x.rows
    ready := (q.pipe k).ready.map fun y => if y.morsel = x.morsel then { y with rows := [] } else y } } : Query) = y at hcarry hpipe
  have hend := commitEnd_goesOn (e := q.commitEnv k x) (x := x) hcarry (by rw [← hy]; exact hf) (by rw [hp]; exact hlimit)
    (by rw [hix, ← hy]; simpa using hlen) (by rw [hix, ← hy]; exact hn) (by rw [hix, hpipe]; exact hopen)
  rw [hix, hpipe] at hend
  obtain ⟨b, z, hz, hrows, hzp, hzs, hzq⟩ := hend
  exact ⟨b, z, hz, by rw [hrows, ← hy], hzp, hstore.trans hzs, hzq.trans hqueues⟩

/-- With a full frame the carry is a job of the codec engine that serves the morsel's tile. -/
theorem commitFrames_posts {s : State} {qid k : Nat} {q : Query} {x : EmitReady} (hq : s.query? qid = some q) (hlen : k < q.pipes.length)
    (himg : k < q.img.pipes.length) (hfull : 1024 ≤ (q.pipe k).carry.length + x.rows.length) {u : TileId} (hu : s.codecTile (tid x.tile) = some u) :
    ∃ y, (s.commitFrames q (q.commitEnv k x) x).query? qid = some y ∧ (y.pipe k).carry = (q.pipe k).carry ++ x.rows ∧
      s.commitFrames q (q.commitEnv k x) x = { s.onCodec u (· ++ [{ c := q.c, enc := true, emit := some (q.qid, k) }]) with
        queries := (s.commitFrames q (q.commitEnv k x) x).queries } := by
  obtain ⟨hp, hix⟩ := commitEnv_pipe x himg
  obtain rfl := query?_qid hq
  have hcarry := onPipe_found (k := k) (fun ps => { ps with
    carry := ps.carry ++ x.rows, ready := ps.ready.map fun y => if y.morsel = x.morsel then { y with rows := [] } else y }) hq
  have hpost : s.commitFrames q (q.commitEnv k x) x = (s.onPipe q.qid k fun ps => { ps with
      carry := ps.carry ++ x.rows, ready := ps.ready.map fun y => if y.morsel = x.morsel then { y with rows := [] } else y }).onCodec u
        (· ++ [{ c := q.c, enc := true, emit := some (q.qid, k) }]) := by
    have hu' (f : PipeState → PipeState) : (s.onPipe q.qid k f).codecTile (tid x.tile) = some u := hu
    unfold State.commitFrames State.postCommit
    rw [hix]
    dsimp only
    rw [if_pos hfull, show (q.commitEnv k x).t = x.tile from rfl, hu']
  refine ⟨_, (congrArg (fun t : State => t.query? q.qid) hpost).trans hcarry, ?_, ?_⟩
  · exact congrArg PipeState.carry (pipe_set (q := q) _ hlen)
  · rw [hpost]
    rfl

/-! ### EMIT_COMMIT to RESULT segments (R289, R290) -/

/-- A query of which a commit without a LIMIT begins. -/
def Query.commitBegun (q : Query) (k : Nat) (x : EmitReady) : Query := { q with pipes := q.pipes.set k ((q.pipe k).begin 0 x) }

theorem commitBegun_pipe {q : Query} {k : Nat} (x : EmitReady) (h : k < q.pipes.length) : (q.commitBegun k x).pipe k = { q.pipe k with
    taken := (q.pipe k).taken + x.rows.length, ready := (q.pipe k).ready.map fun y => if y = x then { x with begun := true } else y } := by
  rw [← begin_unlimited]
  exact pipe_set _ h

theorem commitBegun_length (q : Query) (k : Nat) (x : EmitReady) : (q.commitBegun k x).pipes.length = q.pipes.length := List.length_set ..

section
variable {s : State} {qid : Nat} {pipe : Fin 32} {q : Query} {x : EmitReady}

/-- A commit that begins without a LIMIT: the query as it begins, and the commit as frames. -/
theorem emitCommit_begins (cons : HostRead) (wf : Option Nat) (mv : Nat) (hq : s.query? qid = some q) (hf : q.failing = false)
    (hlen : pipe.val < q.pipes.length) (hkind : (q.img.pipes.getD pipe.val default).sink.kind = kEmit)
    (hframes : (q.img.pipes.getD pipe.val default).sink.b 0 = 0) (hlimit : (q.img.pipes.getD pipe.val default).sink.limit = 0)
    (hnone : (q.pipe pipe.val).begun? = none) (hnext : (q.pipe pipe.val).nextCommit (q.img.pipes.getD pipe.val default).plan.order = some x)
    (hpage : s.pageBad qid pipe.val x.tile x.morsel true = false) :
    let y := q.commitBegun pipe.val x
    (s.onPipe qid pipe.val fun ps => ps.begin 0 x).query? qid = some y ∧ exec (.emitCommit qid pipe cons wf mv) s = .next
      ((s.onPipe qid pipe.val fun ps => ps.begin 0 x).commitFrames y (y.commitEnv pipe.val { x with begun := true }) { x with begun := true }) := by
  intro y
  have hfound : (s.onPipe qid pipe.val fun ps => ps.begin 0 x).query? qid = some y := onPipe_found (k := pipe.val) (fun ps => ps.begin 0 x) hq
  have hbegun : (y.pipe pipe.val).begun? = some { x with begun := true } := by
    rw [show y.pipe pipe.val = (q.pipe pipe.val).begin 0 x from pipe_set _ hlen]
    exact begin_begun? hnone (nextCommit_mem hnext)
  refine ⟨hfound, ?_⟩
  obtain rfl := query?_qid hq
  simp only [exec, execEmitCommit, hq]
  rw [if_pos ⟨hf, hkind, .inr hframes⟩]
  unfold emitCommitEff
  dsimp only
  rw [hnone, hnext, hlimit]
  simp only [Option.isSome_none, Bool.false_eq_true, if_false, hpage, hfound]
  rw [hbegun]
  exact congrArg _ (if_pos hframes)

/-- Rows that fill no frame wait in the carry (R290). -/
theorem emitCommit_carries (cons : HostRead) (wf : Option Nat) (mv : Nat) (hq : s.query? qid = some q) (hf : q.failing = false)
    (hlen : pipe.val < q.pipes.length) (himg : pipe.val < q.img.pipes.length)
    (hkind : (q.img.pipes.getD pipe.val default).sink.kind = kEmit)
    (hframes : (q.img.pipes.getD pipe.val default).sink.b 0 = 0) (hlimit : (q.img.pipes.getD pipe.val default).sink.limit = 0)
    (hnone : (q.pipe pipe.val).begun? = none) (hnext : (q.pipe pipe.val).nextCommit (q.img.pipes.getD pipe.val default).plan.order = some x)
    (hpage : s.pageBad qid pipe.val x.tile x.morsel true = false)
    (hfew : (q.pipe pipe.val).carry.length + x.rows.length < 1024)
    (hopen : ∃ m ∈ (q.pipe pipe.val).morsels, (q.pipe pipe.val).isVerified m = false) :
    ∃ (t : State) (y : Query), exec (.emitCommit qid pipe cons wf mv) s = .next t ∧ t.query? qid = some y ∧
      (y.pipe pipe.val).carry = (q.pipe pipe.val).carry ++ x.rows ∧ (y.pipe pipe.val).nextSeq = max (q.pipe pipe.val).nextSeq (x.seq + 1) ∧
      (y.pipe pipe.val).taken = (q.pipe pipe.val).taken + x.rows.length ∧ (∀ e ∈ (y.pipe pipe.val).ready, e.morsel ≠ x.morsel) ∧
      y.rowsOut = q.rowsOut ∧ sameStore s t ∧ t.queues = s.queues := by
  obtain ⟨hfound, hrun⟩ := emitCommit_begins cons wf mv hq hf hlen hkind hframes hlimit hnone hnext hpage
  have hbegin := commitBegun_pipe x hlen
  have hkept (f : PipeState → PipeState) : sameStore s (s.onPipe qid pipe.val f) ∧ (s.onPipe qid pipe.val f).queues = s.queues :=
    ⟨⟨rfl, rfl, fun _ => rfl⟩, rfl⟩
  obtain ⟨hstore, hqueues⟩ := hkept fun ps => ps.begin 0 x
  obtain ⟨b, z, hz, hrows, hzp, hzs, hzq⟩ := commitFrames_carries (x := { x with begun := true }) hfound hf
    (by rw [commitBegun_length]; exact hlen) himg hlimit
    (by rw [hbegin]; exact hfew) (by rw [hbegin]; exact hopen)
  rw [hbegin] at hzp
  refine ⟨_, z, hrun, hz, by rw [hzp], by rw [hzp], by rw [hzp], fun e he => ?_, hrows, hstore.trans hzs, hzq.trans hqueues⟩
  rw [hzp] at he
  exact of_decide_eq_true (List.mem_filter.mp he).2

/-- A commit with a full frame becomes a job of the codec engine of its tile (R318). -/
theorem emitCommit_posts (cons : HostRead) (wf : Option Nat) (mv : Nat) (hq : s.query? qid = some q) (hf : q.failing = false)
    (hlen : pipe.val < q.pipes.length) (himg : pipe.val < q.img.pipes.length)
    (hkind : (q.img.pipes.getD pipe.val default).sink.kind = kEmit)
    (hframes : (q.img.pipes.getD pipe.val default).sink.b 0 = 0) (hlimit : (q.img.pipes.getD pipe.val default).sink.limit = 0)
    (hnone : (q.pipe pipe.val).begun? = none) (hnext : (q.pipe pipe.val).nextCommit (q.img.pipes.getD pipe.val default).plan.order = some x)
    (hpage : s.pageBad qid pipe.val x.tile x.morsel true = false)
    (hfull : 1024 ≤ (q.pipe pipe.val).carry.length + x.rows.length) {u : TileId} (hu : s.codecTile (tid x.tile) = some u) :
    ∃ (t : State) (y : Query), exec (.emitCommit qid pipe cons wf mv) s = .next t ∧ t.query? qid = some y ∧
      (y.pipe pipe.val).carry = (q.pipe pipe.val).carry ++ x.rows ∧
      t = { s.onCodec u (· ++ [{ c := q.c, enc := true, emit := some (q.qid, pipe.val) }]) with queries := t.queries } := by
  obtain ⟨hfound, hrun⟩ := emitCommit_begins cons wf mv hq hf hlen hkind hframes hlimit hnone hnext hpage
  have hbegin := commitBegun_pipe x hlen
  obtain ⟨y, hy, hc, ht⟩ := commitFrames_posts (x := { x with begun := true }) hfound (by rw [commitBegun_length]; exact hlen) himg
    (by rw [hbegin]; exact hfull) hu
  refine ⟨_, y, hrun, hy, by rw [hc, hbegin], ?_⟩
  rw [ht]
  rfl

end

/-! ### The host ring (R293, R295) -/

/-- Room is found as the ring stands or after CONS has been read again; nothing is written for it. -/
theorem ringRoom_done {a : RingDest} {st st' : RingSt} {cons : HostRead} {n : Nat} (h : ringRoom a st cons n = (st', .done)) :
    st'.prod = st.prod ∧ st'.outs = st.outs ∧ n + (st'.prod - st'.cons) ≤ a.size := by
  unfold ringRoom at h
  split at h
  next hroom =>
    obtain ⟨rfl, -⟩ := Prod.mk.inj h
    exact ⟨rfl, rfl, hroom⟩
  · split at h
    · exact absurd (Prod.mk.inj h).2 (by simp)
    · dsimp only at h
      split at h
      · exact absurd (Prod.mk.inj h).2 (by simp)
      · split at h
        next hroom =>
          obtain ⟨rfl, -⟩ := Prod.mk.inj h
          exact ⟨rfl, rfl, hroom⟩
        · split at h
          · exact absurd (Prod.mk.inj h).2 (by simp)
          · exact absurd (Prod.mk.inj h).2 (by simp)

/-- What a commit writes to the ring goes to the host. -/
theorem commitRing_frame (s : State) (e : QEnv) (x : EmitReady) (cons : HostRead) (wf : Option (Nat × Nat)) :
    (∃ o, (s.commitRing e x cons wf).1.out = s.out ++ o) ∧ sameStore s (s.commitRing e x cons wf).1 := by
  unfold State.commitRing
  dsimp only
  split
  · exact ⟨⟨[], (List.append_nil _).symm⟩, rfl, rfl, fun _ => rfl⟩
  · exact ⟨⟨_, rfl⟩, rfl, rfl, fun _ => rfl⟩

/-- CONS_POLL of a batch that finds room (R295). -/
theorem consPoll_writes {s : State} {qid k seq : Nat} {cons : HostRead} {q : Query} {x : EmitReady} {wf : Option (Nat × Nat)} {w : State} {n : Nat}
    (hq : s.query? qid = some q) (hf : q.failing = false) (hwait : q.consWait = some (k, seq))
    (hready : (q.pipe k).ready.find? (fun x => x.seq == seq) = some x) (hring : s.commitRing (q.commitEnv k x) x cons wf = (w, .done, n)) :
    exec (.consPoll qid ⟨cons, wf⟩) s = .next (w.commitEnd q.qid (q.commitEnv k x) x) ∧ (∃ o, w.out = s.out ++ o) ∧ sameStore s w := by
  have hframe := commitRing_frame s (q.commitEnv k x) x cons wf
  rw [hring] at hframe
  refine ⟨?_, hframe⟩
  simp only [exec, execConsPoll, hq, hwait, hready]
  rw [hf, if_neg Bool.false_ne_true]
  unfold State.commitBatches
  dsimp only
  rw [hring]

/-- Settles O32: the order of commits is the definition of the one that is next; a commit is followed to its end, where an open morsel keeps
the query from being over; the ring's room is what its check leaves. -/
theorem commitsGoInOrder : Obligations.CommitsGoInOrder := by
  unfold Obligations.CommitsGoInOrder
  refine ⟨?_, ?_, ?_, ?_⟩
  · intro ps order x ho h
    exact nextCommit_inOrder ho h
  · intro s qid pipe q x cons wf mv hq hf hlen himg p ps hkind hframes hlimit hnone hnext hpage
    refine ⟨fun hfew hopen => ?_, fun hfull u hu => ?_⟩
    · exact emitCommit_carries cons wf mv hq hf hlen himg hkind hframes hlimit hnone hnext hpage hfew hopen
    · exact emitCommit_posts cons wf mv hq hf hlen himg hkind hframes hlimit hnone hnext hpage hfull hu
  · intro a st st' cons n h
    exact ringRoom_done h
  · intro s qid cons q k seq x wf w n hq hf hwait hready e hring
    exact consPoll_writes hq hf hwait hready hring

end Sys2Proof.Machine
end

section
/-! Jobs of the codec engine, frame by frame, toward a host destination (R111, R312, R315, R318). -/
namespace Sys2Proof.Machine

theorem compress_posts {s : State} {c : CmdRef} {x : Cmd} {u : TileId} (h : s.fresh? c 0x50 = some x) (hu : s.codecTile x.t = some u) :
    exec (.compress c) s = .next ((s.onTile u fun y => { y with codec := y.codec ++ [s.newCodecJob x] }).onCmd c fun y => { y with prog := .job }) := by
  simp only [exec, execCompress, h, State.postCodec, hu, cmd?_ref (fresh?_cmd h)]
  rfl

theorem decompress_posts {s : State} {c : CmdRef} {x : Cmd} {u : TileId} (h : s.fresh? c 0x51 = some x) (hu : s.codecTile x.t = some u) :
    exec (.decompress c) s = .next ((s.onTile u fun y => { y with codec := y.codec ++ [s.newCodecJob x] }).onCmd c fun y => { y with prog := .job }) := by
  simp only [exec, execDecompress, h, State.postCodec, hu, cmd?_ref (fresh?_cmd h)]
  rfl

/-- CODEC_FRAME of a command's job: one step, with the job off its engine's list. -/
theorem codecFrame_steps {s : State} {t : TileId} {j : CodecJob} {rest : List CodecJob} {x : Cmd} (hjobs : (s.tile t).codec = j :: rest)
    (hlive : s.live t = true) (hemit : j.emit = none) (hx : s.running? j.c = some x) (src : HostRead) (wfail : Option Nat) (mismatch : Bool) :
    exec (.codecFrame t src wfail mismatch) s =
      .next (codecStep t x j src wfail mismatch (s.onTile t fun y => { y with codec := rest })) := by
  simp only [exec, execCodecFrame, if_pos hlive, codecFrameEff, hjobs, hemit, hx]
  rfl

section
variable {s : State} {t : TileId} {j : CodecJob} {x : Cmd} {src : HostRead} {bs : List Byte} {vals : Nat} {out : List Byte}

/-- A frame whose output the destination takes: written as far as no byte is refused. -/
theorem codecStep_writes (hin : s.codecInput t x j src = .bytes bs vals) (hdst : x.dstSeg = 0) {mismatch : Bool}
    (hmis : mismatch = true → j.enc = false) (hout : codecOut x j bs vals = .ok out) (hroom : j.outHere + out.length ≤ x.f 32 4)
    {wfail : Option Nat} (hw : faultIn out.length wfail = none) :
    let j' := j.advance vals bs.length out.length (s.frameAfter t x j)
    let u := s.dmaOut x (dropParts (x.stream 24) j.outHere) out none
    codecStep t x j src wfail mismatch s = if codecOver x j' then u.finish x.ref { result := j'.result } else u.onCodec t (· ++ [j']) := by
  have hfit : s.codecRoom x j out.length = true := by
    unfold State.codecRoom
    rw [if_pos hdst]
    exact decide_eq_true hroom
  have hok : ¬ (mismatch = true ∧ j.enc = true) := fun h => by rw [hmis h.1] at h; exact Bool.false_ne_true h.2
  unfold codecStep
  rw [hin]
  dsimp only
  rw [if_neg hok, hout]
  dsimp only
  rw [if_neg fun h => h.1 hdst, hfit, if_neg (by decide), if_pos hdst, hw]
  dsimp only
  rw [State.codecWrite, if_pos hdst]

/-- A frame of whose output the host refuses byte `o`: the bytes before it are written, and the job ends there. -/
theorem codecStep_refused (hin : s.codecInput t x j src = .bytes bs vals) (hdst : x.dstSeg = 0) {mismatch : Bool}
    (hmis : mismatch = true → j.enc = false) (hout : codecOut x j bs vals = .ok out) (hroom : j.outHere + out.length ≤ x.f 32 4)
    {o : Nat} (ho : o < out.length) :
    codecStep t x j src (some o) mismatch s = (s.dmaOut x (dropParts (x.stream 24) j.outHere) out (some o)).finish x.ref
      { status := stTranslation, result := ({ j with outHere := j.outHere + o } : CodecJob).fault
        faddr := streamAddr (x.stream 24) (j.outHere + o) } := by
  have hfit : s.codecRoom x j out.length = true := by
    unfold State.codecRoom
    rw [if_pos hdst]
    exact decide_eq_true hroom
  have hok : ¬ (mismatch = true ∧ j.enc = true) := fun h => by rw [hmis h.1] at h; exact Bool.false_ne_true h.2
  unfold codecStep
  rw [hin]
  dsimp only
  rw [if_neg hok, hout]
  dsimp only
  rw [if_neg fun h => h.1 hdst, hfit, if_neg (by decide), if_pos hdst, faultIn_some ho]
  dsimp only
  rw [State.codecWrite, if_pos hdst]

/-- A frame on which the check decoder disagrees for the first time goes back to its engine. -/
theorem codecStep_missed (hin : s.codecInput t x j src = .bytes bs vals) (henc : j.enc = true) (hmiss : j.miss = 0) (wfail : Option Nat) :
    codecStep t x j src wfail true s = s.onTile t fun y => { y with codec := y.codec ++ [{ j with miss := 1 }] } := by
  unfold codecStep
  rw [hin]
  dsimp only
  rw [if_pos ⟨rfl, henc⟩, State.codecMiss, if_pos hmiss]
  rfl

end

/-- Settles O19: a job is posted to its engine's list; a frame is one step of the job at its head, of which the three ends toward the host are
lemmas. -/
theorem codecJobsMoveByFrames : Obligations.CodecJobsMoveByFrames := by
  unfold Obligations.CodecJobsMoveByFrames
  refine ⟨⟨fun s c x u h hu => compress_posts h hu, fun s c x u h hu => decompress_posts h hu⟩, ?_⟩
  intro s t src j rest x bs vals out hjobs hlive hemit hx hdst s1 hin
  have hstep := codecFrame_steps hjobs hlive hemit hx src
  have hcmd : s1.cmd? j.c = some x := running?_cmd hx
  have href : x.ref = j.c := cmd?_ref (running?_cmd hx)
  refine ⟨?_, fun henc hmiss wfail => by rw [hstep, codecStep_missed hin henc hmiss]⟩
  intro mismatch hmis hout hroom j' sent s2
  refine ⟨fun wfail hw => ⟨fun hover => ?_, fun hover => ?_⟩, fun o ho => ?_⟩
  · rw [hstep, codecStep_writes hin hdst hmis hout hroom (faultIn_none hw)]
    exact congrArg _ (if_neg (by rw [Bool.not_eq_true]; exact hover))
  · rw [hstep, codecStep_writes hin hdst hmis hout hroom (faultIn_none hw)]
    refine congrArg _ ((if_pos hover).trans ?_)
    rw [href]
    exact succeed_formed (s := s2) _ hcmd
  · have hrun := hstep (some o) mismatch
    rw [codecStep_refused hin hdst hmis hout hroom ho, href] at hrun
    obtain ⟨more, hmore⟩ := finish_out (s1.dmaOut x (dropParts (x.stream 24) j.outHere) out (some o)) j.c
      { status := stTranslation, result := ({ j with outHere := j.outHere + o } : CodecJob).fault
        faddr := streamAddr (x.stream 24) (j.outHere + o) }
    exact ⟨_, hrun, finish_ended (s := s1.dmaOut x (dropParts (x.stream 24) j.outHere) out (some o)) _ hcmd, more, hmore⟩

end Sys2Proof.Machine
end

section
/-! Admin commands: what they answer and what they set (R113 to R117, R129, R130, R57, R58). -/
namespace Sys2Proof.Machine

section
variable {s : State} {c : CmdRef} {x : Cmd}

/-! ### Commands that only answer (R114, R116, R130) -/

theorem identify_device (h : s.fresh? c 0x01 = some x) (hn : x.f 4 1 = 0) : exec (.identify c) s = .next (s.formed c { result := identifyDevice s }) := by
  simp only [exec, execIdentify, h, if_pos hn]
  rw [succeed_formed _ (fresh?_cmd h)]

theorem identify_slice (h : s.fresh? c 0x01 = some x) (hn : x.f 4 1 = 1) :
    exec (.identify c) s = .next (s.formed c { result := identifySlice s (x.f 6 2) }) := by
  simp only [exec, execIdentify, h, hn]
  rw [if_neg (by decide), succeed_formed _ (fresh?_cmd h)]

theorem readMonitors_answers (h : s.fresh? c 0x71 = some x) :
    exec (.readMonitors c) s = .next (s.formed c { result := monitorBytes (s.tile (tid (x.f 4 1))) (x.f 5 1) }) := by
  simp only [exec, execReadMonitors, h]
  rw [succeed_formed _ (fresh?_cmd h)]

theorem nop_answers (h : s.fresh? c 0x7F = some x) : exec (.nop c) s = .next (s.formed c {}) := by
  simp only [exec, execNop, h]
  rw [succeed_formed _ (fresh?_cmd h)]

/-- GET_LOG: as many bytes of the page as there are and as were asked for; of a byte that the host refuses those before it. -/
theorem getLog_copies (h : s.fresh? c 0x02 = some x) :
    let size := logSize (x.f 4 1)
    let n := min (x.dref 16).total (size - x.f 8 8)
    let bs := cut (logPage s x) (x.f 8 8) n
    (∀ wfail, (∀ o, wfail = some o → n ≤ o) → exec (.getLog c wfail) s = .next
      ((s.dmaOut x (x.stream 16) bs none).formed c { result := leBytes 4 n ++ leBytes 4 size })) ∧
    (∀ o, o < n → ∃ t : State, exec (.getLog c (some o)) s = .next t ∧ endedIn t c 0x0901 (leBytes 8 o) ∧
      ∃ more, t.out = (s.dmaOut x (x.stream 16) bs (some o)).out ++ more) := by
  intro size n bs
  have hcmd := fresh?_cmd h
  have href := cmd?_ref hcmd
  have hsent (wf : Option Nat) : (s.dmaOut x (x.stream 16) bs wf).cmd? c = some x := hcmd
  refine ⟨fun wfail hw => ?_, fun o ho => ?_⟩
  · have hnone : faultIn n wfail = none := faultIn_none hw
    simp only [exec, execGetLog, h, getLogEff]
    rw [show faultIn (min (x.dref 16).total (logSize (x.f 4 1) - x.f 8 8)) wfail = none from hnone]
    dsimp only
    rw [href, succeed_formed _ (hsent none)]
  · have hsome : faultIn n (some o) = some o := faultIn_some ho
    refine ⟨(s.dmaOut x (x.stream 16) bs (some o)).failHost c .translation (x.stream 16) o o, ?_, finish_ended _ (hsent _), finish_out ..⟩
    simp only [exec, execGetLog, h, getLogEff]
    rw [show faultIn (min (x.dref 16).total (logSize (x.f 4 1) - x.f 8 8)) (some o) = some o from hsome]
    dsimp only
    rw [href]

/-! ### SET_FEATURE (R115) -/

theorem setFeature_runs (h : s.fresh? c 0x03 = some x) : exec (.setFeature c) s = .next (setFeatureEff x s) := by
  simp only [exec, execSetFeature, h]

theorem setFeature_window (h : s.fresh? c 0x03 = some x) (hf : x.f 4 2 = 1) : exec (.setFeature c) s =
    .next (State.onCmd { s with feat := { s.feat with schedNext := some (x.f 8 8) } } c fun y => { y with prog := .window s.feat.schedWindow }) := by
  rw [setFeature_runs h]
  simp only [setFeatureEff, hf, cmd?_ref (fresh?_cmd h)]

/-- A feature that is set at once answers with the value that was in force. -/
theorem setFeature_sets (h : s.fresh? c 0x03 = some x) (old : Nat) (t : State) (ht : t.cmds = s.cmds)
    (heff : setFeatureEff x s = t.succeed x.ref (leBytes 8 old)) :
    exec (.setFeature c) s = .next (t.formed c { result := leBytes 8 old }) := by
  rw [setFeature_runs h, heff, cmd?_ref (fresh?_cmd h), succeed_formed _ ((cmd?_congr c ht).trans (fresh?_cmd h))]

theorem setFeature_profile (h : s.fresh? c 0x03 = some x) (hf : x.f 4 2 = 5) : exec (.setFeature c) s =
    .next ((s.onCmd c fun y => { y with prog := .change s.feat.profile }).require { code := 3, arg := x.f 8 8, origin := .feature c x.order }) := by
  rw [setFeature_runs h]
  simp only [setFeatureEff, hf, cmd?_ref (fresh?_cmd h)]

/-! ### POWER_LIMIT (R129) -/

theorem powerLimit_sets (h : s.fresh? c 0x70 = some x) {w : Nat} (hw : (if x.f 4 2 = 0 then s.dev.limitW else x.f 4 2) = w) :
    exec (.powerLimit c) s = .next (State.formed { s with dev := { s.dev with limitW := w } } c
      { result := leBytes 2 w ++ leBytes 2 s.dev.limitW }) := by
  simp only [exec, execPowerLimit, h, hw]
  rw [succeed_formed (s := { s with dev := { s.dev with limitW := w } }) _ (fresh?_cmd h)]

/-! ### Firmware (R57, R58) -/

/-- The bytes of a slot: written from the offset on, over what is there, or over nothing at offset 0. -/
theorem writeSlot_spec (s : State) (n off : Nat) (bs : List Byte) :
    let t := s.writeSlot n off bs
    t = { s with tick := s.tick + 1, out := s.out ++ [.flash (slotBase n + off) bs], flash := t.flash } ∧
      t.flash.config = s.flash.config ∧ t.flash.recovery = s.flash.recovery ∧ t.flash.evidence = s.flash.evidence ∧
      (n = 0 → t.flash.slotB = s.flash.slotB ∧ t.flash.slotA.bytes = memWriteBytes (if off = 0 then [] else s.flash.slotA.bytes) off bs) ∧
      (n ≠ 0 → t.flash.slotA = s.flash.slotA ∧ t.flash.slotB.bytes = memWriteBytes (if off = 0 then [] else s.flash.slotB.bytes) off bs) := by
  intro t
  have ht : t = s.writeSlot n off bs := rfl
  clear_value t
  by_cases hn : n = 0
  · simp only [State.writeSlot, State.onSlot, if_pos hn] at ht
    subst ht
    exact ⟨rfl, rfl, rfl, rfl, fun _ => ⟨rfl, rfl⟩, fun h => absurd hn h⟩
  · simp only [State.writeSlot, State.onSlot, if_neg hn] at ht
    subst ht
    exact ⟨rfl, rfl, rfl, rfl, fun h => absurd h hn, fun _ => ⟨rfl, rfl⟩⟩

theorem fwDownload_writes {src : HostRead} (h : s.fresh? c 0x04 = some x) (hsrc : src.err = none) :
    exec (.fwDownload c src) s = .next ((s.writeSlot (x.f 4 1) (x.f 8 4) (cut src.bytes 0 (x.dref 16).total)).formed c {}) := by
  have hcmd : (s.writeSlot (x.f 4 1) (x.f 8 4) (cut src.bytes 0 (x.dref 16).total)).cmd? c = some x := by
    rw [cmd?_congr c (by rw [(writeSlot_spec s _ _ _).1])]
    exact fresh?_cmd h
  simp only [exec, execFwDownload, h, fwDownloadEff, hsrc]
  rw [cmd?_ref (fresh?_cmd h), succeed_formed _ hcmd]

theorem fwActivate_requires (h : s.fresh? c 0x05 = some x) (hmode : s.dev.mode.serving = true) (hnone : s.dev.activation = none)
    (hvalid : (s.flash.slot (x.f 4 1)).valid s.man.minSvn = true) :
    exec (.fwActivate c) s = .next (State.onCmd
      { s with dev := { s.dev with
          activation := some { c := c, slot := x.f 4 1, commit := bit x.cflags 0 }
          waiting := s.dev.waiting ++ [{ code := 1, arg := 6, origin := .activation }] } }
      c fun y => { y with prog := .activate }) := by
  simp only [exec, execFwActivate, h, fwActivateEff]
  rw [if_neg (by rw [hmode, hnone]; decide), if_neg (by rw [hvalid]; decide), cmd?_ref (fresh?_cmd h)]
  rfl

end

/-- Settles O7: each command is its effect once it is found fresh; a completion without an event of its own changes the command alone. -/
theorem adminCommandsComplete : Obligations.AdminCommandsComplete := by
  unfold Obligations.AdminCommandsComplete
  refine ⟨⟨?_, ?_, ?_, ?_, ?_⟩, ?_, ?_, ?_, ?_, ?_⟩
  · intro s c x h hn
    exact identify_device h hn
  · intro s c x h hn
    exact identify_slice h hn
  · intro s c x h
    exact getLog_copies h
  · intro s c x h
    exact readMonitors_answers h
  · intro s c x h
    exact nop_answers h
  · intro s c x h v
    refine ⟨fun hf => setFeature_window h hf, fun hf => ?_, fun hf => ?_, fun hf => ?_, fun hf => setFeature_profile h hf, fun hf => ?_⟩
    · exact setFeature_sets h _ { s with feat := { s.feat with retSigEn := v == 1 } } rfl (by simp only [setFeatureEff, hf]; rfl)
    · exact setFeature_sets h _ { s with feat := { s.feat with slIdle := v } } rfl (by simp only [setFeatureEff, hf]; rfl)
    · exact setFeature_sets h _ { s with feat := { s.feat with scrubPeriod := v } } rfl (by simp only [setFeatureEff, hf]; rfl)
    · exact setFeature_sets h _ (s.updateBootSlot v) rfl (by simp only [setFeatureEff, hf]; rfl)
  · intro s c x h hw
    exact powerLimit_sets h (if_pos hw)
  · intro s c x h hw
    exact powerLimit_sets h (if_neg hw)
  · intro s c x src h hsrc bs off
    exact ⟨_, fwDownload_writes h hsrc, writeSlot_spec ..⟩
  · intro s c x h hmode hnone hvalid
    exact fwActivate_requires h hmode hnone hvalid

end Sys2Proof.Machine
end

section
/-!
Writes of registers that land at once: where a write to an open block goes, UPDATE_STROBE, NW_CTL, the votes of the host and of the debugger,
and the latch of the timebase (R368, R494, R504, R505, R512, R513).
-/
namespace Sys2Proof.Machine

/-! ### Where a write lands -/

/-- The blocks of BAR0: a tile has nine of them. -/
def Blk.mapped : Blk → Prop
  | .queues k => k < 256
  | .tile _ k => k < 9
  | _ => True

theorem blkOf_no {b : Blk} (h : b.mapped) : blkOf b.no = some b := by
  cases b with
  | dev | nw | slc => rfl
  | queues k =>
    have hk : k < 256 := h
    change blkOf (256 + k) = _
    unfold blkOf
    rw [if_neg (by omega), if_neg (by omega), if_neg (by omega), if_pos (by omega), Nat.add_sub_cancel_left]
  | tile t k =>
    have hk : k < 9 := h
    have ht := t.isLt
    have hsub : 1024 + t.val * 384 + k - 1024 = k + t.val * 384 := by omega
    have hdiv : (k + t.val * 384) / 384 = t.val := by omega
    have hmod : (k + t.val * 384) % 384 = k := by omega
    have htid : tid t.val = t := Fin.ext (Nat.mod_eq_of_lt ht)
    change blkOf (1024 + t.val * 384 + k) = _
    unfold blkOf
    rw [if_neg (by omega), if_neg (by omega), if_neg (by omega), if_neg (by omega), hsub, if_pos (by omega), hdiv, hmod, htid]

theorem post32_open {s : State} {b : Blk} (port v : Nat) {addr : Nat} (hb : blkOf (addr / 0x4000) = some b) (h : regOpen s b) :
    s.post32 port addr v true = s.land port b (addr % 0x4000) v := by
  obtain ⟨-, hpres, hmode, hbuf, hheld⟩ := h
  unfold State.post32
  rw [hb]
  dsimp only
  rw [if_neg (by simp [hpres, hmode]), if_pos ⟨rfl, hbuf, hheld⟩]

/-- A write to the registers of an open block, not to its SET, CLR and TGL regions, lands in its register. -/
theorem postTo_open {s : State} {b : Blk} (v : Nat) {r : Nat} (hm : b.mapped) (h : regOpen s b) (hr : r < 0x800) : s.postTo b r v = s.writeReg b r v := by
  have hdiv : (b.no * 0x4000 + r) / 0x4000 = b.no := by omega
  have hmod : (b.no * 0x4000 + r) % 0x4000 = r := by omega
  unfold State.postTo
  rw [if_pos h.1, post32_open (b := b) _ _ (by rw [hdiv, blkOf_no hm]) h, hmod]
  unfold State.land
  dsimp only
  rw [Nat.div_eq_of_lt hr, Nat.mod_eq_of_lt hr]
  rfl

/-! ### UPDATE_STROBE (R504, R505) -/

theorem postTo_strobe {s : State} (v : Nat) (h : regOpen s .dev) : s.postTo .dev 0x44 v = s.writeStrobe v :=
  postTo_open v trivial h (by decide)

theorem writeStrobe_clears {s : State} {v : Nat} (h : bit v 10 = true) : s.writeStrobe v = { s with dev := { s.dev with strobeRej := false } } :=
  if_pos h

theorem writeStrobe_rejects {s : State} {v : Nat} (h : bit v 10 = false)
    (hr : v % 32 = 31 ∨ s.dev.strobeBusy = true ∨ s.dev.change ≠ none ∨ s.dev.phase ≠ .idle ∨ s.dev.activation ≠ none) :
    s.writeStrobe v = { s with dev := { s.dev with strobeRej := true } } := by
  unfold State.writeStrobe
  rw [if_neg (by simp [h]), if_pos hr]

theorem writeStrobe_requires {s : State} {v : Nat} (h : bit v 10 = false) (hv : v % 32 ≠ 31) (hs : s.dev.strobeBusy = false)
    (hc : s.dev.change = none) (hp : s.dev.phase = .idle) (ha : s.dev.activation = none) :
    s.writeStrobe v = { s with dev := { s.dev with
      strobeBusy := true, strobeRefused := false, waiting := s.dev.waiting ++ [{ code := 2, arg := v % 32, origin := .strobe }] } } := by
  unfold State.writeStrobe
  rw [if_neg (by simp [h]), if_neg (by simp [hv, hs, hc, hp, ha])]
  rfl

theorem updateStrobe_spec {s : State} (v : Word32) (h : regOpen s .dev) : exec (.updateStrobe v) s = .next (s.writeStrobe v.toNat) :=
  congrArg Host.Outcome.next (postTo_strobe v.toNat h)

theorem updateStrobeClearRej_clears {s : State} {v : Word32} (h : regOpen s .dev) (hv : bit v.toNat 10 = true) :
    exec (.updateStrobeClearRej v) s = .next { s with dev := { s.dev with strobeRej := false } } :=
  congrArg Host.Outcome.next ((if_pos hv).trans ((postTo_strobe v.toNat h).trans (writeStrobe_clears hv)))

/-! ### NW_CTL (R513) -/

theorem postTo_nwCtl {s : State} (v : Nat) (h : regOpen s .nw) : s.postTo .nw 0x00 v = s.writeNwCtl v :=
  postTo_open v trivial h (by decide)

theorem nwEnter_spec {s : State} (both : Bool) (h : regOpen s .nw) :
    exec (.nwEnter both) s = .next (if both then { s with dev := { s.dev with rrej := true } } else s.modeRequest 9) := by
  refine congrArg Host.Outcome.next ((postTo_nwCtl _ h).trans ?_)
  cases both <;> rfl

theorem nwExit_spec {s : State} (both : Bool) (h : regOpen s .nw) :
    exec (.nwExit both) s = .next (if both then { s with dev := { s.dev with rrej := true } } else s.modeRequest 3) := by
  refine congrArg Host.Outcome.next ((postTo_nwCtl _ h).trans ?_)
  cases both <;> rfl

theorem reqTarget_enter {m : Mode} (h : m ≠ .ready) : reqTarget m 9 = none := by
  cases m with
  | ready => exact absurd rfl h
  | _ => rfl

theorem reqTarget_exit {m : Mode} (hn : m ≠ .nightwatch) (hs : m ≠ .service) (hd : m ≠ .degraded) : reqTarget m 3 = none := by
  cases m with
  | nightwatch => exact absurd rfl hn
  | service => exact absurd rfl hs
  | degraded => exact absurd rfl hd
  | _ => rfl

/-! ### Votes of the host and of the debugger (R368, R512) -/

/-- The register at index `i` of an array of one word for each index. -/
theorem arrIx_at (base : Nat) {i n : Nat} (h : i < n) : arrIx (base + 4 * i) base n = some i := by
  unfold arrIx
  rw [if_pos ⟨Nat.le_add_right .., by omega⟩, Nat.add_sub_cancel_left, Nat.mul_div_cancel_left _ (by decide)]

theorem arrIx_past {r base n : Nat} (h : base + 4 * n ≤ r) : arrIx r base n = none := if_neg (by omega)

theorem domN_val (d : DomId) : domN d.val = d := Fin.ext (Nat.mod_eq_of_lt d.isLt)

theorem writePd_host (s : State) (t : TileId) (d : DomId) (v : Nat) : s.writePd t (0x300 + 4 * d.val) v = s.castVote t d 0 (v % 4) := by
  unfold State.writePd
  rw [if_neg (by omega), arrIx_past (by omega), arrIx_past (by omega), arrIx_at _ d.isLt]
  exact congrArg (s.castVote t · 0 (v % 4)) (domN_val d)

theorem writePd_debug (s : State) (t : TileId) (d : DomId) (v : Nat) : s.writePd t (0x400 + 4 * d.val) v = s.writeDbg t d v := by
  unfold State.writePd
  rw [if_neg (by omega), arrIx_past (by omega), arrIx_past (by omega), arrIx_past (by omega), arrIx_at _ d.isLt]
  exact congrArg (s.writeDbg t · v) (domN_val d)

theorem postTo_pd {s : State} {t : TileId} (v : Nat) {r : Nat} (h : regOpen s (.tile t 0)) (hr : r < 0x7F8) :
    s.postTo (.tile t 0) r v = s.writePd t r v := by
  have hm : (Blk.tile t 0).mapped := show (0 : Nat) < 9 by decide
  rw [postTo_open v hm h (by omega)]
  unfold State.writeReg
  rw [if_neg (by omega), if_neg (by omega)]
  rfl

theorem pdVoteHostWrite_spec {s : State} {t : TileId} (d : DomId) (v : Word32) (h : regOpen s (.tile t 0)) :
    exec (.pdVoteHostWrite t d v) s = .next (s.castVote t d 0 (v.toNat % 4)) :=
  congrArg Host.Outcome.next ((postTo_pd v.toNat h (by omega)).trans (writePd_host ..))

theorem writeDbg_acts {s : State} (t : TileId) (d : DomId) {v : Nat} (ha : s.debugActs = true) (hv : v % 4 ≠ 3) :
    s.writeDbg t d v = (s.castVote t d 5 (v % 4)).onDom t d fun y => { y with dbgHold := bit v 2 } :=
  if_neg (by simp [ha, hv])

theorem pdVoteDbgWrite_discarded {s : State} (t : TileId) (d : DomId) (v : Word32) (jtag : Bool) (h : s.debugActs = false) :
    exec (.pdVoteDbgWrite t d v jtag) s = .next s := by
  have hbar : ¬ s.debugActs = true := by simp [h]
  have hjtag : s.present t = false ∨ s.debugActs = false ∨ s.dev.mode = .cold := .inr (.inl h)
  cases jtag with
  | false => exact congrArg Host.Outcome.next (if_neg hbar)
  | true => exact congrArg Host.Outcome.next (if_pos hjtag)

theorem pdVoteDbgWrite_bar {s : State} {t : TileId} (d : DomId) {v : Word32} (ha : s.debugActs = true) (h : regOpen s (.tile t 0)) :
    exec (.pdVoteDbgWrite t d v false) s = .next (s.writeDbg t d v.toNat) :=
  congrArg Host.Outcome.next ((if_pos ha).trans ((postTo_pd v.toNat h (by omega)).trans (writePd_debug ..)))

theorem pdVoteDbgWrite_jtag {s : State} {t : TileId} (d : DomId) {v : Word32} (ha : s.debugActs = true) (hp : s.present t = true)
    (hm : s.dev.mode ≠ .cold) (hb : (s.block (Blk.tile t 0).no).buffer = []) (hh : s.heldBlk (.tile t 0) = false) :
    exec (.pdVoteDbgWrite t d v true) s = .next (s.writeDbg t d v.toNat) := by
  have hgo : ¬ (s.present t = false ∨ s.debugActs = false ∨ s.dev.mode = .cold) := by simp [hp, ha, hm]
  exact congrArg Host.Outcome.next ((if_neg hgo).trans (if_pos ⟨hb, hh⟩))

/-! ### What a vote changes (R368) -/

theorem vote_getD (y : Dom) (voter v i : Nat) :
    (y.vote voter v).votes.getD i 0 = if i = voter ∧ i < y.votes.length then v else y.votes.getD i 0 := by
  simp only [Dom.vote, setVotes, List.getD_eq_getElem?_getD, List.getElem?_set]
  by_cases h : voter = i
  · subst h
    by_cases hl : voter < y.votes.length <;> simp [hl]
  · simp [h, Ne.symm h]

/-- From `y` to `z` only the vote of DEPENDENCY may have changed. -/
structure dependencyOnly (y z : Dom) : Prop where
  votes : ∀ i, i ≠ 4 → z.votes.getD i 0 = y.votes.getD i 0
  st : z.st = y.st

theorem dependencyOnly.trans {x y z : Dom} (h : dependencyOnly x y) (h' : dependencyOnly y z) : dependencyOnly x z :=
  ⟨fun i hi => (h'.votes i hi).trans (h.votes i hi), h'.st.trans h.st⟩

theorem depPass_dependencyOnly (x : Tile) (d : DomId) : dependencyOnly (x.dom d) (x.depPass.dom d) := by
  unfold Tile.depPass
  rw [Tile.castAll_dom]
  exact ⟨fun i hi => (vote_getD ..).trans (if_neg fun h => hi h.1), rfl⟩

theorem settle_dependencyOnly (x : Tile) (d : DomId) : dependencyOnly (x.dom d) (x.settle.dom d) :=
  ((depPass_dependencyOnly x d).trans (depPass_dependencyOnly _ d)).trans (depPass_dependencyOnly _ d)

theorem castVote_spec (s : State) (t : TileId) (d e : DomId) (voter : Nat) {v i : Nat} (hv : v ≤ 2) (hi : i ≠ 4) :
    (((s.castVote t d voter v).dom t e).votes.getD i 0 =
      if e = d ∧ i = voter ∧ i < (s.dom t e).votes.length then v else (s.dom t e).votes.getD i 0) ∧
    ((s.castVote t d voter v).dom t e).st = (s.dom t e).st := by
  unfold State.castVote State.dom
  rw [if_neg (Nat.not_lt.mpr hv), State.onTile_tile]
  obtain ⟨hvotes, hst⟩ := settle_dependencyOnly ((s.tile t).onDom d fun y => y.vote voter v) e
  rw [hvotes i hi, hst]
  by_cases he : e = d
  · subst he
    rw [Tile.onDom_dom, vote_getD]
    simp only [true_and]
    rfl
  · rw [Tile.onDom_dom_ne _ he, if_neg fun h => he h.1]
    exact ⟨rfl, rfl⟩

end Sys2Proof.Machine
end

section
/-!
Writes of registers that wait in a block's buffer, the SET, CLR and TGL regions, BLK_CTL, and a retrain that a register starts (R477, R494,
R497, R500, R501, R503, R508).
-/
namespace Sys2Proof.Machine

/-! ### A block and its buffer (R500, R501) -/

theorem State.setBlock_block (s : State) (n : Nat) (v : Block) : (s.setBlock n v).block n = v := tblGet_set_self _ _ _ _

theorem State.setBlock_block_ne (s : State) {n j : Nat} (h : j ≠ n) (v : Block) : (s.setBlock n v).block j = s.block j := tblGet_set_ne _ _ h _

/-- A full buffer drops the write. -/
theorem pushWrite_full {s : State} {b : Blk} (w : BufWrite) (h : b.depth ≤ (s.block b.no).buffer.length) : s.pushWrite b w = s.drop b := if_pos h

/-- A buffer with room keeps the write behind those that wait; beside it only votes of the FABRIC voter change. -/
theorem pushWrite_room {s : State} {b : Blk} (w : BufWrite) (h : (s.block b.no).buffer.length < b.depth) : ∃ l,
    s.pushWrite b w = { s.setBlock b.no { s.block b.no with buffer := (s.block b.no).buffer ++ [w] } with tiles := l } := by
  unfold State.pushWrite
  rw [if_neg (Nat.not_le.mpr h)]
  cases b with
  | dev | nw | slc | queues => exact ⟨_, rfl⟩
  | tile t n =>
    dsimp only
    split
    · exact ⟨_, rfl⟩
    · split
      · exact ⟨_, castVote_frame ..⟩
      · exact ⟨_, rfl⟩

/-- A whole word that a host posts reaches its block as a 32-bit write. -/
theorem post_word {s : State} {w : RegWrite} (direct : Bool) (hp : s.portUp w.port = true) (ha : w.addr < 2 ^ 26) (hs : w.size = 4)
    (h4 : w.addr % 4 = 0) : s.post w direct = s.post32 w.port.val w.addr (w.value.toNat % 2 ^ 32) direct := by
  unfold State.post
  dsimp only
  have hin : ¬ (s.portUp w.port = false ∨ 2 ^ 26 ≤ w.addr) := not_or.mpr ⟨by simp [hp], Nat.not_le.mpr ha⟩
  rw [if_neg hin, if_pos ⟨hs, h4⟩]

theorem post32_waits {s : State} {b : Blk} {addr : Nat} (port v : Nat) (hb : blkOf (addr / 0x4000) = some b) (hp : s.blkPresent b = true)
    (hm : s.dev.mode.takesWrites b = true) :
    s.post32 port addr v false = s.pushWrite b { port := port, off := addr % 0x4000, value := BitVec.ofNat 32 v } := by
  unfold State.post32
  rw [hb]
  dsimp only
  rw [if_neg (by simp [hp, hm]), if_neg (by simp)]

theorem registerWrite_spec {s : State} {w : RegWrite} {b : Blk} (hup : s.portUp w.port = true) (ha : w.addr < 2 ^ 26) (hs : w.size = 4)
    (h4 : w.addr % 4 = 0) (hb : blkOf (w.addr / 0x4000) = some b) (hp : s.blkPresent b = true) (hm : s.dev.mode.takesWrites b = true) :
    exec (.registerWrite w) s =
      .next (s.pushWrite b { port := w.port.val, off := w.addr % 0x4000, value := BitVec.ofNat 32 (w.value.toNat % 2 ^ 32) }) :=
  congrArg Host.Outcome.next ((post_word false hup ha hs h4).trans (post32_waits _ _ hb hp hm))

theorem registerWriteLand_spec {s : State} {n : Nat} {b : Blk} (hb : blkOf n = some b) : exec (.registerWriteLand n) s = .next (landEff b s) := by
  simp only [exec, execRegisterWriteLand]
  rw [hb]

theorem landEff_first {s : State} {b : Blk} {w : BufWrite} {rest : List BufWrite} (h : (s.block b.no).buffer = w :: rest) :
    landEff b s =
      if s.dev.mode = .halt then s.setBlock b.no { s.block b.no with buffer := rest }
      else if s.heldBlk b then s
      else (s.setBlock b.no { s.block b.no with buffer := rest }).land w.port b w.off w.value.toNat := by
  unfold landEff
  dsimp only
  rw [h]

/-! ### The SET, CLR and TGL regions (R497, R498) -/

theorem land_add_xor_land (m n : Nat) : (m &&& n) + (m ^^^ (m &&& n)) = m := by
  induction m using Nat.strongRecOn generalizing n with
  | ind m ih =>
    by_cases hm : m = 0
    · subst hm
      rw [Nat.zero_and, Nat.zero_xor]
    · have hhalf := ih (m / 2) (Nat.div_lt_self (Nat.pos_of_ne_zero hm) (by decide)) (n / 2)
      rw [← Nat.and_div_two, ← Nat.xor_div_two] at hhalf
      have hland := Nat.and_mod_two_eq_one (a := m) (b := n)
      have hxor := Nat.xor_mod_two_eq_one (a := m) (b := m &&& n)
      omega

theorem maskOut_eq_xor (c w : Nat) : maskOut c w = c ^^^ (c &&& w) := Nat.sub_eq_of_eq_add' (land_add_xor_land c w).symm

theorem bit_maskOut (c w i : Nat) : bit (maskOut c w) i = (bit c i && !bit w i) := by
  rw [maskOut_eq_xor]
  unfold bit
  rw [Nat.testBit_xor, Nat.testBit_and]
  cases c.testBit i <;> cases w.testBit i <;> rfl

theorem regionValue_set (cur v mask i : Nat) : bit (regionValue 2 cur v mask) i = (bit mask i && (bit cur i || bit v i)) := by
  simp only [regionValue, bit, Nat.testBit_or, Nat.testBit_and]
  cases mask.testBit i <;> simp

theorem regionValue_clr (cur v mask i : Nat) : bit (regionValue 4 cur v mask) i = (bit mask i && (bit cur i && !bit v i)) := by
  refine (bit_maskOut (cur &&& mask) (v &&& mask) i).trans ?_
  simp only [bit, Nat.testBit_and]
  cases mask.testBit i <;> simp

theorem regionValue_tgl (cur v mask i : Nat) : bit (regionValue 6 cur v mask) i = (bit mask i && (bit cur i != bit v i)) := by
  simp only [regionValue, bit, Nat.testBit_xor, Nat.testBit_and]
  cases mask.testBit i <;> simp

/-- A write at an open block lands where its address says. -/
theorem post_open {s : State} {w : RegWrite} {b : Blk} (hup : s.portUp w.port = true) (ha : w.addr < 2 ^ 26) (hs : w.size = 4)
    (h4 : w.addr % 4 = 0) (hb : blkOf (w.addr / 0x4000) = some b) (h : regOpen s b) :
    s.post w true = s.land w.port.val b (w.addr % 0x4000) (w.value.toNat % 2 ^ 32) :=
  (post_word true hup ha hs h4).trans (post32_open _ _ hb h)

theorem land_alias (s : State) (port : Nat) (b : Blk) {off : Nat} (v : Nat) (h : off / 0x800 = 2 ∨ off / 0x800 = 4 ∨ off / 0x800 = 6) :
    s.land port b off v = if b.rwMask (off % 0x800) = 0 then s
      else s.writeReg b (off % 0x800)
        (regionValue (off / 0x800) (s.reg port b (off % 0x800) false) v (b.rwMask (off % 0x800))) := by
  unfold State.land
  dsimp only
  rcases h with h | h | h <;> rw [h] <;> rfl

theorem aliasWrite_spec {s : State} {w : RegWrite} (h : w.addr % 0x4000 / 0x800 = 2 ∨ w.addr % 0x4000 / 0x800 = 4 ∨ w.addr % 0x4000 / 0x800 = 6) :
    exec (.aliasWrite w) s = .next (s.post w true) :=
  congrArg Host.Outcome.next (if_pos (by simpa using h))

/-! ### BLK_CTL (R499, R503) -/

/-- A write that clears APPLY_MODE puts the shadow of a CMDP block in force. -/
theorem writeCtl_applies {s : State} {t : TileId} {v : Nat} (hg : bits v 8 4 ≠ 31) (h0 : bit v 0 = false)
    (ha : (s.block (Blk.tile t 5).no).applyMode = true) :
    s.writeCtl (.tile t 5) v = (s.setBlock (Blk.tile t 5).no { s.block (Blk.tile t 5).no with applyMode := false, group := bits v 8 4 }).onTile t
      fun x => { x with wgt := x.wgtShadow } := by
  unfold State.writeCtl
  dsimp only
  rw [if_neg fun h => hg h.2, h0, if_pos ⟨ha, rfl⟩, if_neg (by decide)]
  rfl

theorem bit_mod_word (n : Nat) : bit (n % 2 ^ 32) 0 = bit n 0 := by
  unfold bit
  rw [Nat.testBit_mod_two_pow]
  rfl

theorem applyModeClear_spec {s : State} {w : RegWrite} {t : TileId} (hup : s.portUp w.port = true) (ha : w.addr < 2 ^ 26) (hs : w.size = 4)
    (h4 : w.addr % 4 = 0) (hb : blkOf (w.addr / 0x4000) = some (.tile t 5)) (h : regOpen s (.tile t 5)) (hoff : w.addr % 0x4000 = 0x7F8)
    (h0 : bit w.value.toNat 0 = false) :
    exec (.applyModeClear w) s = .next (s.writeCtl (.tile t 5) (w.value.toNat % 2 ^ 32)) := by
  refine congrArg Host.Outcome.next ((if_pos ⟨hoff, h0⟩).trans ((post_open hup ha hs h4 hb h).trans ?_))
  rw [hoff]
  rfl

/-! ### Retrains (R477) -/

theorem State.onEdge_edge (s : State) (t : TileId) (e : EdgeId) (f : Edge → Edge) : (s.onEdge t e f).edge t e = f (s.edge t e) := by
  simp only [State.onEdge, State.edge, State.onTile_tile, Tile.edge]
  exact Vector.getElem_set_self e.isLt

theorem State.onEdge_edge_ne (s : State) (t : TileId) {e g : EdgeId} (h : g ≠ e) (f : Edge → Edge) : (s.onEdge t e f).edge t g = s.edge t g := by
  simp only [State.onEdge, State.edge, State.onTile_tile, Tile.edge]
  exact Vector.getElem_set_ne e.isLt g.isLt fun hv => h (Fin.ext hv.symm)

theorem Edge.module_lt (x : Edge) {i : Nat} (h : i < 6) : x.module i = x.modules[i] := by
  simp [Edge.module, h]

theorem Edge.module_past (x : Edge) {i : Nat} (h : 6 ≤ i) : x.module i = {} := by
  simp [Edge.module, h]

theorem onModule_module (x : Edge) {i : Nat} (f : Module → Module) (h : i < 6) (j : Nat) :
    (x.onModule i f).module j = if j = i then f (x.module i) else x.module j := by
  by_cases hj : j < 6
  · have hget : (x.onModule i f).modules[j] = if j = i then f x.modules[j] else x.modules[j] :=
      vecOf_get (fun k : Fin 6 => if k.val = i then f x.modules[k] else x.modules[k]) ⟨j, hj⟩
    rw [Edge.module_lt _ hj, Edge.module_lt _ hj, Edge.module_lt _ h, hget]
    split
    next he => subst he; rfl
    next => rfl
  · rw [if_neg (by omega), Edge.module_past _ (by omega), Edge.module_past _ (by omega)]

/-- An edge whose modules' counts of retrains may have changed, and nothing else. -/
structure sameModules (x y : Edge) : Prop where
  st : y.st = x.st
  modules : ∀ i, (y.module i).active = (x.module i).active ∧ (y.module i).training = (x.module i).training

theorem newVerify_edge (x : Tile) (e : EdgeId) : sameModules (x.edge e) (x.newVerify.edge e) := by
  have h : x.newVerify.edge e = { x.edge e with modules := (x.edge e).modules |> vecMap fun m => { m with retrains := 0 } } := by
    simp [Tile.newVerify, Tile.edge, vecMap]
  rw [h]
  refine ⟨rfl, fun i => ?_⟩
  by_cases hi : i < 6
  · rw [Edge.module_lt _ hi, Edge.module_lt _ hi]
    simp [vecMap]
  · rw [Edge.module_past _ (by omega), Edge.module_past _ (by omega)]
    exact ⟨rfl, rfl⟩

theorem rollVerify_edge (s : State) (t : TileId) (e : EdgeId) : sameModules (s.edge t e) ((s.rollVerify t).edge t e) := by
  unfold State.rollVerify
  split
  · exact ⟨rfl, fun _ => ⟨rfl, rfl⟩⟩
  · simp only [State.edge, State.onTile_tile]
    exact newVerify_edge (s.tile t) e

theorem rollVerify_onlyTile (s : State) (t : TileId) : onlyTile t s (s.rollVerify t) := ⟨(rollVerify_spec s t).1, (rollVerify_spec s t).2.2.2⟩

/-- The counts of tile `t` are those of the verification window that runs. -/
def rolled (s : State) (t : TileId) : Prop := (s.tile t).err.verifyAt = s.now / verifyNs

theorem rollVerify_rolled (s : State) (t : TileId) : rolled (s.rollVerify t) t := by
  unfold rolled State.rollVerify
  split
  · assumption
  · rw [State.onTile_tile]
    rfl

theorem rolled.roll {s : State} {t : TileId} (h : rolled s t) : s.rollVerify t = s := if_pos h

/-- What retrains of modules of an edge change: the modules of `l` train, and the edge retrains where any has begun to. -/
structure retrained (t : TileId) (e : EdgeId) (l : List Nat) (s u : State) : Prop where
  only : onlyTile t s u
  err : (u.tile t).err = (s.tile t).err
  others : ∀ g, g ≠ e → u.edge t g = s.edge t g
  up : (u.edge t e).up = true
  active : ∀ i, ((u.edge t e).module i).active = ((s.edge t e).module i).active
  kept : ∀ i, ((s.edge t e).module i).training = true → ((u.edge t e).module i).training = true
  trains : ∀ i ∈ l, ((u.edge t e).module i).training = true
  st : u.edge t e = s.edge t e ∨ (u.edge t e).st = .retrain

theorem retrained.nil {t : TileId} {e : EdgeId} {s : State} (h : (s.edge t e).up = true) : retrained t e [] s s where
  only := .refl t s
  err := rfl
  others := fun _ _ => rfl
  up := h
  active := fun _ => rfl
  kept := fun _ hi => hi
  trains := fun _ hi => absurd hi List.not_mem_nil
  st := .inl rfl

theorem retrained.cons {t : TileId} {e : EdgeId} {i : Nat} {l : List Nat} {s u v : State} (h : retrained t e [i] s u) (h' : retrained t e l u v) :
    retrained t e (i :: l) s v where
  only := h.only.trans h'.only
  err := h'.err.trans h.err
  others := fun g hg => (h'.others g hg).trans (h.others g hg)
  up := h'.up
  active := fun j => (h'.active j).trans (h.active j)
  kept := fun j hj => h'.kept j (h.kept j hj)
  trains := fun j hj => by
    rcases List.mem_cons.mp hj with rfl | hj
    · exact h'.kept j (h.trains j (List.mem_singleton.mpr rfl))
    · exact h'.trains j hj
  st := by
    rcases h'.st with hv | hv
    · rw [hv]
      exact h.st
    · exact .inr hv

theorem retrained.rolled {t : TileId} {e : EdgeId} {l : List Nat} {s u : State} (h : retrained t e l s u) (hr : rolled s t) : rolled u t := by
  unfold Machine.rolled at *
  rw [h.err, hr, h.only.1]

/-- A module of an edge that begins a retrain. -/
def Edge.retraining (x : Edge) (i : Nat) : Edge :=
  { x.onModule i fun m =>
      { m with
        training := true, retrains := m.retrains + 1, sends := 0, doomed := m.doomed || decide (16 ≤ m.retrains + 1) } with
    st := .retrain, retrain := satInc x.retrain, stopped := x.stopped || decide (16 ≤ (x.module i).retrains + 1) }

theorem retraining_module (x : Edge) {i : Nat} (h : i < 6) (j : Nat) :
    ((x.retraining i).module j).active = (x.module j).active ∧
    ((x.module j).training = true → ((x.retraining i).module j).training = true) ∧ ((x.retraining i).module i).training = true := by
  have hm (j : Nat) := onModule_module x (fun m =>
    { m with training := true, retrains := m.retrains + 1, sends := 0, doomed := m.doomed || decide (16 ≤ m.retrains + 1) }) h j
  have hj : (x.retraining i).module j = _ := hm j
  have hi : (x.retraining i).module i = _ := hm i
  rw [hj, hi, if_pos rfl]
  refine ⟨?_, fun ht => ?_, rfl⟩
  · split
    next he => subst he; rfl
    next => rfl
  · split
    · rfl
    · exact ht

theorem startRetrain_idle {s : State} {t : TileId} {e : EdgeId} {i : Nat} (hr : rolled s t) (ht : ((s.edge t e).module i).training = true) :
    s.startRetrain t e i = s := by
  unfold State.startRetrain
  rw [hr.roll]
  exact if_pos (.inr (.inl ht))

theorem startRetrain_starts {s : State} {t : TileId} {e : EdgeId} {i : Nat} (hr : rolled s t) (ha : ((s.edge t e).module i).active = true)
    (ht : ((s.edge t e).module i).training = false) (hup : (s.edge t e).up = true) :
    s.startRetrain t e i = s.onEdge t e fun _ => (s.edge t e).retraining i := by
  unfold State.startRetrain
  rw [hr.roll]
  refine (if_neg (by simp [ha, ht, hup])).trans ?_
  rfl

theorem active_lt {x : Edge} {i : Nat} (h : (x.module i).active = true) : i < 6 := by
  refine Decidable.byContradiction fun hi => ?_
  rw [Edge.module_past x (by omega)] at h
  exact absurd h (by decide)

theorem startRetrain_retrained {s : State} {t : TileId} {e : EdgeId} {i : Nat} (hr : rolled s t) (ha : ((s.edge t e).module i).active = true)
    (hup : (s.edge t e).up = true) : retrained t e [i] s (s.startRetrain t e i) := by
  by_cases ht : ((s.edge t e).module i).training = true
  · rw [startRetrain_idle hr ht]
    exact { retrained.nil hup with trains := fun j hj => by rw [List.mem_singleton.mp hj]; exact ht }
  · have hlt := active_lt ha
    rw [startRetrain_starts hr ha (by simpa using ht) hup]
    have hedge := State.onEdge_edge s t e fun _ => (s.edge t e).retraining i
    exact {
      only := .onTile ..
      err := by rw [State.onEdge, State.onTile_tile]
      others := fun g hg => State.onEdge_edge_ne s t hg _
      up := by rw [hedge]; rfl
      active := fun j => by rw [hedge]; exact (retraining_module _ hlt j).1
      kept := fun j hj => by rw [hedge]; exact (retraining_module _ hlt j).2.1 hj
      trains := fun j hj => by rw [hedge, List.mem_singleton.mp hj]; exact (retraining_module _ hlt j).2.2
      st := .inr (by rw [hedge]; rfl) }

theorem foldl_startRetrain {t : TileId} {e : EdgeId} : ∀ (l : List Nat) {s : State}, rolled s t → (∀ i ∈ l, ((s.edge t e).module i).active = true) →
    (s.edge t e).up = true → retrained t e l s (l.foldl (fun s i => s.startRetrain t e i) s)
  | [], _, _, _, hup => .nil hup
  | i :: l, s, hr, ha, hup => by
    have h := startRetrain_retrained hr (ha i List.mem_cons_self) hup
    exact h.cons (foldl_startRetrain l (h.rolled hr) (fun j hj => (h.active j).trans (ha j (List.mem_cons_of_mem i hj))) h.up)

/-- A retrain of an edge counts its modules' retrains in the verification window that runs. -/
theorem retrainEdge_rolls {s : State} {t : TileId} {e : EdgeId} (h : (s.edge t e).actives ≠ []) :
    s.retrainEdge t e = (s.edge t e).actives.foldl (fun s i => s.startRetrain t e i) (s.rollVerify t) := by
  unfold State.retrainEdge
  cases hl : (s.edge t e).actives with
  | nil => exact absurd hl h
  | cons i l =>
    have hroll : s.startRetrain t e i = (s.rollVerify t).startRetrain t e i := by
      unfold State.startRetrain
      rw [(rollVerify_rolled s t).roll]
    rw [List.foldl_cons, List.foldl_cons, hroll]

theorem mem_actives {x : Edge} {i : Nat} (h : i ∈ x.actives) : (x.module i).active = true := (List.mem_filter.mp h).2

theorem retrainEdge_spec {s : State} {t : TileId} {e : EdgeId} (h : (s.edge t e).actives ≠ []) (hup : (s.edge t e).up = true) :
    retrained t e (s.edge t e).actives (s.rollVerify t) (s.retrainEdge t e) := by
  obtain ⟨hst, hmod⟩ := rollVerify_edge s t e
  rw [retrainEdge_rolls h]
  refine foldl_startRetrain _ (rollVerify_rolled s t) (fun i hi => (hmod i).1.trans (mem_actives hi)) ?_
  unfold Edge.up
  rw [hst]
  exact hup

theorem stirRetrain_runs {s : State} {t : TileId} (e : EdgeId) (h : regOpen s (.tile t 7)) : exec (.stirRetrain t e) s = .next (s.retrainEdge t e) := by
  have hm : (Blk.tile t 7).mapped := show (7 : Nat) < 9 by decide
  have hix : arrIx (0x10 + 4 * e.val) 0x10 4 = some e.val := arrIx_at _ e.isLt
  have he : (⟨e.val % 4, Nat.mod_lt _ (by decide)⟩ : EdgeId) = e := Fin.ext (Nat.mod_eq_of_lt e.isLt)
  refine congrArg Host.Outcome.next ((postTo_open 1 hm h (by omega)).trans ?_)
  unfold State.writeReg
  rw [if_neg (by omega), if_neg (by omega)]
  simp only [hix]
  rw [if_pos (by decide)]
  exact congrArg (s.retrainEdge t) he

/-- A retrain of an edge in use: every active module trains, and the edge is in RETRAIN. -/
theorem stirRetrain_spec {s : State} {t : TileId} {e : EdgeId} (h : regOpen s (.tile t 7)) (hup : (s.edge t e).up = true)
    (ha : (s.edge t e).actives ≠ []) (hidle : ∀ i ∈ (s.edge t e).actives, ((s.edge t e).module i).training = false) :
    ∃ s' : State, exec (.stirRetrain t e) s = .next s' ∧ (∀ i ∈ (s.edge t e).actives, ((s'.edge t e).module i).training = true) ∧
      (s'.edge t e).st = .retrain ∧ (∀ f, f ≠ e → s'.edge t f = (s.rollVerify t).edge t f) ∧ (∀ u, u ≠ t → s'.tile u = s.tile u) ∧
      s' = { s with tiles := s'.tiles } := by
  have hspec := retrainEdge_spec ha hup
  obtain ⟨hframe, htiles⟩ := (rollVerify_onlyTile s t).trans hspec.only
  refine ⟨s.retrainEdge t e, stirRetrain_runs e h, hspec.trains, ?_, hspec.others, htiles, hframe⟩
  obtain ⟨i, hi⟩ := List.exists_mem_of_ne_nil _ ha
  refine hspec.st.resolve_left fun heq => ?_
  have htrain := hspec.trains i hi
  rw [heq, ((rollVerify_edge s t e).modules i).2, hidle i hi] at htrain
  exact absurd htrain (by decide)

/-! ### The obligation -/

theorem registerWrite_waits {s : State} {w : RegWrite} {b : Blk} (hup : s.portUp w.port = true) (ha : w.addr < 2 ^ 26) (hs : w.size = 4)
    (h4 : w.addr % 4 = 0) (hb : blkOf (w.addr / 0x4000) = some b) (hp : s.blkPresent b = true) (hm : s.dev.mode.takesWrites b = true)
    (hroom : (s.block b.no).buffer.length < b.depth) :
    ∃ t : State, exec (.registerWrite w) s = .next t ∧
      t.block b.no = { s.block b.no with
        buffer := (s.block b.no).buffer ++ [{ port := w.port.val, off := w.addr % 0x4000, value := BitVec.ofNat 32 (w.value.toNat % 2 ^ 32) }] } ∧
      (∀ j, j ≠ b.no → t.block j = s.block j) ∧ t = { s with blocks := t.blocks, tiles := t.tiles } := by
  refine ⟨_, registerWrite_spec hup ha hs h4 hb hp hm, ?_⟩
  obtain ⟨l, hpush⟩ := pushWrite_room
    { port := w.port.val, off := w.addr % 0x4000, value := BitVec.ofNat 32 (w.value.toNat % 2 ^ 32) } hroom
  rw [hpush]
  exact ⟨State.setBlock_block .., fun j hj => State.setBlock_block_ne s hj _, rfl⟩

theorem registerWrite_drops {s : State} {w : RegWrite} {b : Blk} (hup : s.portUp w.port = true) (ha : w.addr < 2 ^ 26) (hs : w.size = 4)
    (h4 : w.addr % 4 = 0) (hb : blkOf (w.addr / 0x4000) = some b) (hp : s.blkPresent b = true) (hm : s.dev.mode.takesWrites b = true)
    (hfull : b.depth ≤ (s.block b.no).buffer.length) :
    ∃ t : State, exec (.registerWrite w) s = .next t ∧ t.block b.no = { s.block b.no with wdrop := true } ∧
      (∀ j, j ≠ b.no → t.block j = s.block j) ∧ t = { s with blocks := t.blocks } := by
  refine ⟨_, registerWrite_spec hup ha hs h4 hb hp hm, ?_⟩
  rw [pushWrite_full _ hfull]
  exact ⟨State.setBlock_block .., fun j hj => State.setBlock_block_ne s hj _, rfl⟩

theorem applyModeClear_applies {s : State} {w : RegWrite} {t : TileId} (hup : s.portUp w.port = true) (ha : w.addr < 2 ^ 26) (hs : w.size = 4)
    (h4 : w.addr % 4 = 0) (hb : blkOf (w.addr / 0x4000) = some (.tile t 5)) (h : regOpen s (.tile t 5)) (hoff : w.addr % 0x4000 = 0x7F8)
    (h0 : bit w.value.toNat 0 = false) (hg : bits (w.value.toNat % 2 ^ 32) 8 4 ≠ 31) (hm : (s.block (Blk.tile t 5).no).applyMode = true) :
    ∃ s' : State, exec (.applyModeClear w) s = .next s' ∧ (s'.tile t).wgt = (s.tile t).wgtShadow ∧
      s'.block (Blk.tile t 5).no = { s.block (Blk.tile t 5).no with applyMode := false, group := bits (w.value.toNat % 2 ^ 32) 8 4 } ∧
      (∀ u, u ≠ t → s'.tile u = s.tile u) ∧ s' = { s with blocks := s'.blocks, tiles := s'.tiles } := by
  refine ⟨_, applyModeClear_spec hup ha hs h4 hb h hoff h0, ?_⟩
  rw [writeCtl_applies hg ((bit_mod_word _).trans h0) hm, State.onTile_tile]
  exact ⟨rfl, State.setBlock_block .., fun u hu => State.onTile_tile_ne _ hu _, rfl⟩

/-- Settles O35: a write to an open block lands in its register, and what each register does with it; a write to any other waits in the block's
buffer; an edge that retrains has all its active modules in training, by a fold over them. -/
theorem registerWritesLandOrWait : Obligations.RegisterWritesLandOrWait := by
  unfold Obligations.RegisterWritesLandOrWait
  refine ⟨⟨?_, ?_, ?_, ?_, ?_, ?_⟩, ⟨?_, ?_, ?_, ?_, ?_⟩⟩
  · intro s v h
    refine ⟨fun h10 => ⟨?_, updateStrobeClearRej_clears h h10⟩, fun h10 hr => ?_, fun h10 hv hs hc hp ha => ?_⟩
    · rw [updateStrobe_spec v h, writeStrobe_clears h10]
    · rw [updateStrobe_spec v h, writeStrobe_rejects h10 hr]
    · rw [updateStrobe_spec v h, writeStrobe_requires h10 hv hs hc hp ha]
  · intro s h
    refine ⟨⟨nwEnter_spec true h, nwExit_spec true h⟩, fun hm hp hc ha => ?_, fun hm hp hc ha => ?_, fun hm => ?_, fun hn hs hd => ?_⟩
    · exact (nwEnter_spec false h).trans
        (congrArg _ (modeRequest_requires (by rw [hm]; rfl) hp hc ha (by rw [hm]; decide)))
    · exact (nwExit_spec false h).trans
        (congrArg _ (modeRequest_requires (by rw [hm]; rfl) hp hc ha (by rw [hm]; decide)))
    · exact (nwEnter_spec false h).trans (congrArg _ (modeRequest_none (reqTarget_enter hm)))
    · exact (nwExit_spec false h).trans (congrArg _ (modeRequest_none (reqTarget_exit hn hs hd)))
  · intro s p hp hr
    exact congrArg Host.Outcome.next (if_pos ⟨hp, hr⟩)
  · intro s t d v h
    refine ⟨fun h3 => ?_, fun _ => pdVoteHostWrite_spec d v h⟩
    rw [pdVoteHostWrite_spec d v h, h3]
    rfl
  · intro s t d v jtag
    refine ⟨pdVoteDbgWrite_discarded t d v jtag, fun ha h hv => ?_, fun ha hp hm hb hh hv => ?_⟩
    · rw [pdVoteDbgWrite_bar d ha h, writeDbg_acts t d ha hv]
    · rw [pdVoteDbgWrite_jtag d ha hp hm hb hh, writeDbg_acts t d ha hv]
  · intro s t d e voter v i hv hi
    exact castVote_spec s t d e voter hv hi
  · intro s w b hup ha hs h4 hb hp hm
    exact ⟨registerWrite_waits hup ha hs h4 hb hp hm, registerWrite_drops hup ha hs h4 hb hp hm⟩
  · intro s n b w rest hb hbuf popped
    rw [registerWriteLand_spec hb, landEff_first hbuf]
    refine ⟨fun hh => ?_, fun hh hheld => ?_, fun hh hheld => ?_⟩
    · rw [if_pos hh]
    · rw [if_neg hh, if_pos hheld]
    · rw [if_neg hh, if_neg (by simp [hheld])]
  · intro cur v mask i
    exact ⟨regionValue_set .., regionValue_clr .., regionValue_tgl ..⟩
  · intro s w b hup ha hs h4 hb h off r v
    refine ⟨fun hreg hmask => ?_, fun hreg hmask => ?_, fun t ht hoff h0 hg hm => ?_⟩
    · rw [aliasWrite_spec hreg, post_open hup ha hs h4 hb h, land_alias _ _ _ _ hreg]
      exact congrArg _ (if_neg hmask)
    · rw [aliasWrite_spec hreg, post_open hup ha hs h4 hb h, land_alias _ _ _ _ hreg]
      exact congrArg _ (if_pos hmask)
    · subst ht
      exact applyModeClear_applies hup ha hs h4 hb h hoff h0 hg hm
  · intro s t e h hup ha hidle
    exact stirRetrain_spec h hup ha hidle

end Sys2Proof.Machine
end
